-- ==== Sys2Proof/Word.lean ====
section
/-! DEFINITION. The byte, the byte string and the sparse table, the plain types every other file is written in. -/

namespace Sys2Proof

/-- One byte of a layout (00_scope.md R11-R13). -/
abbrev Byte := BitVec 8

/-- A byte string; byte 0 first (00_scope.md R11). -/
abbrev Bytes := List Byte

/-- A sparse table: pairs of an index and an entry, indices strictly rising. -/
abbrev Table (α : Type) := List (Nat × α)

end Sys2Proof
end

