-- ==== Sys2Proof/Syntax.lean ====
section
/-! DEFINITION. The commands the block takes: one constructor of `Instr` for each row of spec/opcode_table.json,
with the operands the spec leaves to the surroundings. An operand `t` is the elapsed-count time, in ns, at which the
step happens (12_deadlines.md R277; assumption log 15). -/

namespace Sys2Proof

/-- The supply rails (23_electrical_package.md, supply table). -/
inductive Rail
  | quad (q : Nat) | helm | bin | sd | hsd | io | io33
deriving DecidableEq, Repr

/-- The reference clocks (23_electrical_package.md R506). -/
inductive RefClock
  | peRefclk | fpRefclk | mrRefclk | sysclk
deriving DecidableEq, Repr

/-- What runs a step of a job: an engine tile or a Helm core. -/
inductive Server
  | tile (n : Nat) | core (c : Nat)
deriving DecidableEq, Repr

/-- SPDM transports (15_logbook_attestation.md R364). -/
inductive Transport
  | doe | mctpVdm | mctpSmbus | management
deriving DecidableEq, Repr

/-- The carriers of the recovery protocol (20_boot_landfall.md R465). -/
inductive RcvPort
  | management | pf
deriving DecidableEq, Repr

/-- Who accesses a mailbox: a host function, a Helm core's runtime, an owner module, or the Binnacle
(16_service_complex.md R381). -/
inductive Master
  | host (f : Nat) | runtime | module (m : Nat) | binnacle
deriving DecidableEq, Repr

/-- The width of a mailbox read: the whole register, or one 32-bit half (16_service_complex.md R382). -/
inductive Half
  | both | lower | upper
deriving DecidableEq, Repr

/-- The address window of an access, configuration space among them (22_registers.md). -/
inductive Window
  | pfBar0 | vfBar0 | bar2 | bar4 | config
deriving DecidableEq, Repr

/-- An access to a register: its direction, width and, for a write, the value (00_scope.md R17, R18). -/
inductive Access
  | read32 | read64 | write32 (v : BitVec 32) | write64 (v : BitVec 64)
deriving DecidableEq, Repr

/-- Host memory made visible to the device before a doorbell: runs of bytes at addresses (10_job_rings.md R232). -/
abbrev HostWrites := List (Nat × List Byte)

/-- The outcome of the self-tests of 20_boot_landfall.md R463: what failed. -/
structure TestResults where
  entropyOk  : Bool
  binnacleOk : Bool
  quadrants  : List Nat   -- Quadrants whose staging BIST failed
  tiles      : List Nat   -- tiles that failed
  cores      : List Nat   -- Helm cores that failed
deriving DecidableEq, Repr

/-- What a boot meets outside the state: the host link that trained (speed, width, CXL, CXL.cache), the memory behind
each private memory port in GiB, whether the NVS reads, whether a lead answers a tethered device and over how many
hops, and the self-tests' outcome. -/
structure BootEnv where
  hostLink : Option (Nat × Nat × Bool × Bool)
  pmemGib0 : Nat
  pmemGib1 : Nat
  nvsOk    : Bool
  leadHops : Option Nat
  tests    : TestResults
  bootMs   : Nat
deriving DecidableEq, Repr

/-- A frame at a field port: whether its FCS verified, and its bytes from the destination MAC to before the FCS. -/
structure WireFrame where
  fcsOk : Bool
  bytes : List Byte
deriving DecidableEq, Repr

/-- What a Meridian peer presents in the link handshake (17_meridian.md R395): its ML-DSA-87 chain, its handshake
payload, its signature and the version of its roster. -/
structure PeerHello where
  chain         : List Byte
  payload       : List Byte
  signature     : List Byte
  rosterVersion : Nat
deriving DecidableEq, Repr

/-- Instructions of the debug TAP (19_lifecycle_debug.md R438, R449, R450). -/
inductive TapInstr
  | idcode | bypass | samplePreload | extest | helmDebug | binnacleDebug | tileDebug | factoryTest | authorise
  | readLcState | readDeviceId | readChallenge
deriving DecidableEq, Repr


/-- The R-form operations of the Pelorus extension (16_service_complex.md R380). -/
inductive VecOp
  | vadd | vsub | vmul | vmulh | vand | vor | vxor | vsll | vsrl | vsra | vmin | vmax | vshuf
  | vfadd | vfsub | vfmul | vfma | vcmul | vcmac | vcconj | vfdiv | vfcvtfi | vfcvtif | vflt
  | vmadd | vmsub | vmmul | vmmac | vmred
  | vmv | vext | vins | vsplat
  | vseq | vslt | vsltu | vsel
deriving DecidableEq, Repr

/-- A Pelorus instruction as its word names it, without the core that runs it (16_service_complex.md R377). -/
inductive VecInstr
  | form (op : VecOp) (rd rs1 rs2 : BitVec 5) (w : BitVec 2)
  | load (rd rs1 : BitVec 5) (off : BitVec 12)
  | store (rs2 rs1 : BitVec 5) (off : BitVec 12)
deriving DecidableEq, Repr

/-- The commands: one constructor for each row of the table, in its order. -/
inductive Instr
  | porNAssert (widthNs : Nat) (strap : Bool) (smbAddr : Nat)   -- POR_N_ASSERT (R452)
  | perstNAssert (widthNs : Nat) (strap : Bool)   -- PERST_N_ASSERT (R452)
  | deviceReset   -- DEVICE_RESET (R452)
  | landfallReset   -- LANDFALL_RESET (R452)
  | hotReset (t : Nat)   -- HOT_RESET (R452)
  | boot (env : BootEnv)   -- BOOT (R456)
  | supply (rail : Rail) (ns : Nat) (t : Nat)   -- SUPPLY (R498)
  | clockLoss (clk : RefClock) (t : Nat)   -- CLOCK_LOSS (R507)
  | temperatureLimit (celsius : Nat) (ns : Nat) (t : Nat)   -- TEMPERATURE_LIMIT (R509)
  | safeReqNEdge (samples : List Bool) (t : Nat)   -- SAFE_REQ_N_EDGE (R427)
  | chatterEdge (samples : List Bool) (t : Nat)   -- CHATTER_EDGE (R428)
  | held (t : Nat)   -- HELD (R427)
  | permitMismatch (n : Nat) (level : Bool) (samples : Nat) (t : Nat)   -- PERMIT_MISMATCH (R429)
  | faultEvent (src sub aux : Nat) (job : Option Nat) (t : Nat)   -- FAULT_EVENT (R417)
  | fenceAck (src : Nat) (t : Nat)   -- FENCE_ACK (R419)
  | fenceAckTimeout (src : Nat) (t : Nat)   -- FENCE_ACK_TIMEOUT (R419)
  | conseqWindowClose (id : Nat) (t : Nat)   -- CONSEQ_WINDOW_CLOSE (R421)
  | fltRelease (value : BitVec 32)   -- FLT_RELEASE (R420)
  | fltForce (src : Nat) (value : BitVec 32)   -- FLT_FORCE (R431)
  | fltCfgWrite (src : Nat) (value : BitVec 32)   -- FLT_CFG_WRITE (R418)
  | attnClear (src : Nat)   -- ATTN_CLEAR (R430)
  | safeCtrlEnter   -- SAFE_CTRL_ENTER (R430)
  | helmCoreRecovery (core : Nat) (ok : Bool) (t : Nat)   -- HELM_CORE_RECOVERY (R415)
  | tick   -- TICK (R279)
  | chartDrainComplete (t : Nat)   -- CHART_DRAIN_COMPLETE (R70)
  | tileReconfigComplete (n : Nat) (digestOk testOk : Bool) (t : Nat)   -- TILE_RECONFIG_COMPLETE (R70)
  | tileReloadComplete (n : Nat) (digestOk testOk : Bool) (t : Nat)   -- TILE_RELOAD_COMPLETE (R97)
  | msixModTimer (q : Nat) (t : Nat)   -- MSIX_MOD_TIMER (R251)
  | msixUnmask (fn vec : Nat)   -- MSIX_UNMASK (R251)
  | admqEnable (fn : Nat) (value : BitVec 32)   -- ADMQ_ENABLE (R254)
  | dbSqTail (fn idx : Nat) (value : BitVec 32) (mem : HostWrites)   -- DB_SQ_TAIL (R229)
  | dbCqHead (fn idx : Nat) (value : BitVec 32)   -- DB_CQ_HEAD (R229)
  | dbRevise (fn idx : Nat) (first : BitVec 32) (countM1 : Nat)   -- DB_REVISE (R234)
  | tailWordChange (q : Nat) (value : BitVec 32) (mem : HostWrites)   -- TAIL_WORD_CHANGE (R235)
  | consumeEntry (t : Nat)   -- CONSUME_ENTRY (R233)
  | fetchStage (j : Nat) (t : Nat)   -- FETCH_STAGE (R238)
  | windowInputArrival (j : Nat) (bytes : Nat) (t : Nat)   -- WINDOW_INPUT_ARRIVAL (R293)
  | admission (j : Nat) (t : Nat)   -- ADMISSION (R288)
  | keyCacheFillDone (j : Nat) (tagOk : Bool) (t : Nat)   -- KEY_CACHE_FILL_DONE (R57)
  | contextSpillDone (partner : Nat) (ok : Bool) (t : Nat)   -- CONTEXT_SPILL_DONE (R344)
  | dispatch (u : Server) (t : Nat)   -- DISPATCH (R289)
  | safePointAction (j : Nat) (t : Nat)   -- SAFE_POINT_ACTION (R89)
  | watchdog (j : Nat) (microCycles addr : Nat) (t : Nat)   -- WATCHDOG (R85)
  | machineCheck (n cause addr : Nat) (job : Option Nat) (t : Nat)   -- MACHINE_CHECK (R96)
  | commitAck (j : Nat) (t : Nat)   -- COMMIT_ACK (R86)
  | commitTimeout (j : Nat) (addr : Nat) (t : Nat)   -- COMMIT_TIMEOUT (R87)
  | logbookExtend (t : Nat)   -- LOGBOOK_EXTEND (R28)
  | runEnd (j : Nat) (mismatch : Bool) (t : Nat)   -- RUN_END (R26)
  | segmentRelease (j : Nat) (mismatch : Bool) (t : Nat)   -- SEGMENT_RELEASE (R185)
  | completionWrite (j : Nat) (t : Nat)   -- COMPLETION_WRITE (R247)
  | pertCompletionDelay (j : Nat) (t : Nat)   -- PERT_COMPLETION_DELAY (R472)
  | pertDoorbellHold (fn : Nat) (t : Nat)   -- PERT_DOORBELL_HOLD (R472)
  | hbsPreparation (key : Nat) (t : Nat)   -- HBS_PREPARATION (R139)
  | destroyScrub (j : Nat) (t : Nat)   -- DESTROY_SCRUB (R219)
  | vfScrubComplete (f : Nat) (t : Nat)   -- VF_SCRUB_COMPLETE (R270)
  | createQueue (j : Nat)   -- CREATE_QUEUE (R259)
  | destroyQueue (j : Nat)   -- DESTROY_QUEUE (R260)
  | enableQueue (j : Nat)   -- ENABLE_QUEUE (R261)
  | setShare (j : Nat)   -- SET_SHARE (R263)
  | quiesceFunction (j : Nat)   -- QUIESCE_FUNCTION (R266)
  | queryFunction (j : Nat)   -- QUERY_FUNCTION (R275)
  | loadChart (j : Nat)   -- LOAD_CHART (R63)
  | retile (j : Nat)   -- RETILE (R74)
  | queryChart (j : Nat)   -- QUERY_CHART (R275)
  | safeExit (j : Nat) (failedTiles : List Nat)   -- SAFE_EXIT (R274)
  | queryProgress (j : Nat)   -- QUERY_PROGRESS (R275)
  | setPowerLimit (j : Nat)   -- SET_POWER_LIMIT (R275)
  | setPerturbation (j : Nat)   -- SET_PERTURBATION (R471)
  | timedNop (j : Nat)   -- TIMED_NOP (R513)
  | knownAnswer (j : Nat) (isMatch : Bool)   -- KNOWN_ANSWER (R513)
  | forceCompareFail (j : Nat)   -- FORCE_COMPARE_FAIL (R46)
  | mlKemKeygen (j : Nat)   -- ML_KEM_KEYGEN (R107)
  | mlKemEncaps (j : Nat)   -- ML_KEM_ENCAPS (R108)
  | mlKemDecaps (j : Nat)   -- ML_KEM_DECAPS (R109)
  | mlDsaKeygen (j : Nat)   -- ML_DSA_KEYGEN (R105)
  | mlDsaSign (j : Nat)   -- ML_DSA_SIGN (R114)
  | mlDsaVerify (j : Nat)   -- ML_DSA_VERIFY (R106)
  | fnDsaKeygen (j : Nat)   -- FN_DSA_KEYGEN (R122)
  | fnDsaSign (j : Nat)   -- FN_DSA_SIGN (R121)
  | fnDsaVerify (j : Nat)   -- FN_DSA_VERIFY (R120)
  | slhDsaKeygen (j : Nat)   -- SLH_DSA_KEYGEN (R125)
  | slhDsaSign (j : Nat)   -- SLH_DSA_SIGN (R126)
  | slhDsaVerify (j : Nat)   -- SLH_DSA_VERIFY (R125)
  | hssKeygen (j : Nat)   -- HSS_KEYGEN (R138)
  | hssSign (j : Nat)   -- HSS_SIGN (R135)
  | hssVerify (j : Nat)   -- HSS_VERIFY (R133)
  | hssLeafStatus (j : Nat)   -- HSS_LEAF_STATUS (R133)
  | xmssKeygen (j : Nat)   -- XMSS_KEYGEN (R138)
  | xmssSign (j : Nat)   -- XMSS_SIGN (R135)
  | xmssVerify (j : Nat)   -- XMSS_VERIFY (R133)
  | xmssLeafStatus (j : Nat)   -- XMSS_LEAF_STATUS (R133)
  | xmssmtKeygen (j : Nat)   -- XMSSMT_KEYGEN (R138)
  | xmssmtSign (j : Nat)   -- XMSSMT_SIGN (R135)
  | xmssmtVerify (j : Nat)   -- XMSSMT_VERIFY (R133)
  | xmssmtLeafStatus (j : Nat)   -- XMSSMT_LEAF_STATUS (R133)
  | hqcKeygen (j : Nat)   -- HQC_KEYGEN (R156)
  | hqcEncaps (j : Nat)   -- HQC_ENCAPS (R156)
  | hqcDecaps (j : Nat)   -- HQC_DECAPS (R156)
  | mcelieceKeygen (j : Nat)   -- MCELIECE_KEYGEN (R160)
  | mcelieceEncaps (j : Nat)   -- MCELIECE_ENCAPS (R163)
  | mcelieceDecaps (j : Nat)   -- MCELIECE_DECAPS (R163)
  | ecdsaKeygen (j : Nat)   -- ECDSA_KEYGEN (R166)
  | ecdsaSign (j : Nat)   -- ECDSA_SIGN (R164)
  | ecdsaVerify (j : Nat)   -- ECDSA_VERIFY (R165)
  | ecdh (j : Nat)   -- ECDH (R167)
  | eddsaKeygen (j : Nat)   -- EDDSA_KEYGEN (R168)
  | eddsaSign (j : Nat)   -- EDDSA_SIGN (R168)
  | eddsaVerify (j : Nat)   -- EDDSA_VERIFY (R168)
  | montgomeryKeygen (j : Nat)   -- MONTGOMERY_KEYGEN (R169)
  | montgomeryKeyAgreement (j : Nat)   -- MONTGOMERY_KEY_AGREEMENT (R169)
  | rsaKeygen (j : Nat)   -- RSA_KEYGEN (R173)
  | rsaSign (j : Nat)   -- RSA_SIGN (R171)
  | rsaVerify (j : Nat)   -- RSA_VERIFY (R171)
  | oaepEncrypt (j : Nat)   -- OAEP_ENCRYPT (R172)
  | oaepDecrypt (j : Nat)   -- OAEP_DECRYPT (R172)
  | aesGcmEncrypt (j : Nat)   -- AES_GCM_ENCRYPT (R180)
  | aesGcmDecrypt (j : Nat)   -- AES_GCM_DECRYPT (R184)
  | aesCcmEncrypt (j : Nat)   -- AES_CCM_ENCRYPT (R193)
  | aesCcmDecrypt (j : Nat)   -- AES_CCM_DECRYPT (R193)
  | aesCtr (j : Nat)   -- AES_CTR (R194)
  | xtsAesEncrypt (j : Nat)   -- XTS_AES_ENCRYPT (R195)
  | xtsAesDecrypt (j : Nat)   -- XTS_AES_DECRYPT (R195)
  | aesKwWrap (j : Nat)   -- AES_KW_WRAP (R196)
  | aesKwUnwrap (j : Nat)   -- AES_KW_UNWRAP (R196)
  | chacha20Poly1305Seal (j : Nat)   -- CHACHA20_POLY1305_SEAL (R180)
  | chacha20Poly1305Open (j : Nat)   -- CHACHA20_POLY1305_OPEN (R184)
  | digest (j : Nat)   -- DIGEST (R145)
  | xof (j : Nat)   -- XOF (R145)
  | hmacGenerate (j : Nat)   -- HMAC_GENERATE (R144)
  | hmacVerify (j : Nat)   -- HMAC_VERIFY (R142)
  | kmacGenerate (j : Nat)   -- KMAC_GENERATE (R141)
  | kmacVerify (j : Nat)   -- KMAC_VERIFY (R142)
  | hkdf (j : Nat)   -- HKDF (R142)
  | counterKdf (j : Nat)   -- COUNTER_KDF (R143)
  | keyedSlotLoad (j : Nat)   -- KEYED_SLOT_LOAD (R146)
  | keyedSlotDrop (j : Nat)   -- KEYED_SLOT_DROP (R146)
  | generateKey (j : Nat)   -- GENERATE (R214)
  | importKey (j : Nat)   -- IMPORT (R215)
  | exportWrapped (j : Nat)   -- EXPORT_WRAPPED (R218)
  | destroyKey (j : Nat)   -- DESTROY (R219)
  | getAttributes (j : Nat)   -- GET_ATTRIBUTES (R213)
  | getImportKey (j : Nat)   -- GET_IMPORT_KEY (R217)
  | submitOrder (j : Nat) (t : Nat)   -- SUBMIT_ORDER (R306)
  | policyUpdate (j : Nat) (t : Nat)   -- POLICY_UPDATE (R322)
  | queryOrder (j : Nat)   -- QUERY_ORDER (R320)
  | timeSetOrder (j : Nat) (t : Nat)   -- TIME_SET_ORDER (R321)
  | queryPolicy (j : Nat)   -- QUERY_POLICY (R299)
  | permitStatus (j : Nat)   -- PERMIT_STATUS (R318)
  | decisionCommit (o : Nat) (endorseFails : Bool) (t : Nat)   -- DECISION_COMMIT (R306)
  | permitEnd (n : Nat) (t : Nat)   -- PERMIT_END (R317)
  | registerPartner (j : Nat)   -- REGISTER_PARTNER (R334)
  | deregisterPartner (j : Nat)   -- DEREGISTER_PARTNER (R335)
  | soundingInitiate (j : Nat) (t : Nat)   -- SOUNDING_INITIATE (R337)
  | soundingAccept (j : Nat)   -- SOUNDING_ACCEPT (R339)
  | send (j : Nat)   -- SEND (R340)
  | receive (j : Nat) (t : Nat)   -- RECEIVE (R343)
  | rekey (j : Nat) (t : Nat)   -- REKEY (R342)
  | closeSession (j : Nat)   -- CLOSE_SESSION (R336)
  | fieldFrameReceived (p : Nat) (frame : WireFrame) (t : Nat)   -- FIELD_FRAME_RECEIVED (R333)
  | initFrame (t : Nat)   -- INIT (R339)
  | replyFrame (t : Nat)   -- REPLY (R337)
  | finishFrame (t : Nat)   -- FINISH (R339)
  | dataFrame (t : Nat)   -- DATA (R343)
  | orderFrame (t : Nat)   -- ORDER (R328)
  | responseFrame (t : Nat)   -- RESPONSE (R320)
  | closeFrame (t : Nat)   -- CLOSE (R331)
  | handshakeRetransmit (partner : Nat) (t : Nat)   -- HANDSHAKE_RETRANSMIT (R339)
  | reassemblyTimeout (partner : Nat) (t : Nat)   -- REASSEMBLY_TIMEOUT (R332)
  | noReceiveTimeout (fn : Nat) (t : Nat)   -- NO_RECEIVE_TIMEOUT (R343)
  | rekeyTimer (partner : Nat) (t : Nat)   -- REKEY_TIMER (R342)
  | epochExpiry (partner : Nat) (t : Nat)   -- EPOCH_EXPIRY (R342)
  | oldEpochGraceEnd (partner : Nat) (t : Nat)   -- OLD_EPOCH_GRACE_END (R342)
  | ptpRx (p : Nat) (frame : List Byte) (t : Nat)   -- PTP_RX (R347)
  | txGo (p b : Nat) (t : Nat)   -- TX_GO (R347)
  | ppsInEdge (errNs : Int) (t : Nat)   -- PPS_IN_EDGE (R346)
  | ppsLockLoss (t : Nat)   -- PPS_LOCK_LOSS (R346)
  | almAdjOffset (value : BitVec 64)   -- ALM_ADJ_OFFSET (R348)
  | almAdjFreq (value : BitVec 32)   -- ALM_ADJ_FREQ (R348)
  | almSet (value : BitVec 64)   -- ALM_SET (R348)
  | almStepBound (value : BitVec 32)   -- ALM_STEP_BOUND (R348)
  | almSource (value : BitVec 32)   -- ALM_SOURCE (R346)
  | signedOnly   -- SIGNED_ONLY (R349)
  | almanacCheckpoint (t : Nat)   -- ALMANAC_CHECKPOINT (R349)
  | logRoll (value : BitVec 32)   -- LOG_ROLL (R355)
  | logOwner (r : Nat) (value : BitVec 32)   -- LOG_OWNER (R357)
  | auditExport (t : Nat)   -- AUDIT_EXPORT (R360)
  | auditExportHead (value : BitVec 32)   -- AUDIT_EXPORT_HEAD (R360)
  | auditRegionMib (value : BitVec 32)   -- AUDIT_REGION_MIB (R360)
  | getVersion (tr : Transport) (req : List Byte)   -- GET_VERSION (R364)
  | getCapabilities (tr : Transport) (req : List Byte)   -- GET_CAPABILITIES (R364)
  | negotiateAlgorithms (tr : Transport) (req : List Byte)   -- NEGOTIATE_ALGORITHMS (R364)
  | getDigests (tr : Transport) (req : List Byte)   -- GET_DIGESTS (R364)
  | getCertificate (tr : Transport) (req : List Byte)   -- GET_CERTIFICATE (R364)
  | challenge (tr : Transport) (req : List Byte)   -- CHALLENGE (R364)
  | getMeasurements (tr : Transport) (req : List Byte)   -- GET_MEASUREMENTS (R365)
  | keyExchange (tr : Transport) (req : List Byte)   -- KEY_EXCHANGE (R364)
  | spdmFinish (tr : Transport) (req : List Byte)   -- SPDM_FINISH (R364)
  | heartbeat (tr : Transport) (req : List Byte)   -- HEARTBEAT (R364)
  | keyUpdate (tr : Transport) (req : List Byte)   -- KEY_UPDATE (R364)
  | endSession (tr : Transport) (req : List Byte)   -- END_SESSION (R364)
  | chunkSend (tr : Transport) (req : List Byte)   -- CHUNK_SEND (R364)
  | chunkGet (tr : Transport) (req : List Byte)   -- CHUNK_GET (R364)
  | setCertificate (tr : Transport) (req : List Byte)   -- SET_CERTIFICATE (R363)
  | getPqChain (tr : Transport) (req : List Byte)   -- GET_PQ_CHAIN (R367)
  | pqQuote (tr : Transport) (req : List Byte)   -- PQ_QUOTE (R367)
  | doeAbort   -- DOE_ABORT (R491)
  | atsInvalidation (fn addr len : Nat)   -- ATS_INVALIDATION (R493)
  | hostLinkRetrain (gen width : Nat)   -- HOST_LINK_RETRAIN (R482)
  | vfFlr (f : Nat) (t : Nat)   -- VF_FLR (R269)
  | pf0Flr (t : Nat)   -- PF0_FLR (R271)
  | vfEnableClear (t : Nat)   -- VF_ENABLE_CLEAR (R271)
  | d3hotEntry (t : Nat)   -- D3HOT_ENTRY (R494)
  | keyCacheQuotaWrite (f : Nat) (value : BitVec 32)   -- KEY_CACHE_QUOTA_WRITE (R211)
  | overflowCfgWrite (value : BitVec 32)   -- OVERFLOW_CFG_WRITE (R297)
  | mboxTxWrite (m : Master) (n : Nat) (word : BitVec 32) (t : Nat)   -- MBOX_TX_WRITE (R382)
  | mboxRxRead (m : Master) (n : Nat) (half : Half)   -- MBOX_RX_READ (R382)
  | mboxRecall (m : Master) (n : Nat)   -- MBOX_RECALL (R382)
  | crossFull (n : Nat) (t : Nat)   -- CROSS_FULL (R385)
  | ping   -- PING (R386)
  | queryOmod   -- QUERY_OMOD (R386)
  | lockAcquire (m : Nat) (k : Nat)   -- LOCK_ACQUIRE (R387)
  | lockRelease (m : Nat) (k : Nat)   -- LOCK_RELEASE (R387)
  | handover (value : BitVec 32)   -- HANDOVER (R372)
  | omodLoad (m : Nat) (t : Nat)   -- OMOD_LOAD (R374)
  | omodStop (m : Nat) (t : Nat)   -- OMOD_STOP (R375)
  | moduleException (m : Nat) (cause : Nat) (addr : Nat) (t : Nat)   -- MODULE_EXCEPTION (R375)
  | ringInit (m : Nat)   -- RING_INIT (R376)
  | doorbell (m : Nat)   -- DOORBELL (R376)
  | cqHead (m : Nat)   -- CQ_HEAD (R376)
  | mboxSend (m : Nat) (t : Nat)   -- MBOX_SEND (R376)
  | mboxRecv (m : Nat)   -- MBOX_RECV (R376)
  | wait (m : Nat) (t : Nat)   -- WAIT (R376)
  | time (m : Nat) (t : Nat)   -- TIME (R376)
  | exit (m : Nat) (t : Nat)   -- EXIT (R376)
  | pmodWrite (core : Nat) (value : BitVec 64)   -- PMOD_WRITE (R379)
  | vadd (core : Nat) (rd rs1 rs2 : BitVec 5) (w : BitVec 2)   -- VADD (R380)
  | vsub (core : Nat) (rd rs1 rs2 : BitVec 5) (w : BitVec 2)   -- VSUB (R380)
  | vmul (core : Nat) (rd rs1 rs2 : BitVec 5) (w : BitVec 2)   -- VMUL (R380)
  | vmulh (core : Nat) (rd rs1 rs2 : BitVec 5) (w : BitVec 2)   -- VMULH (R380)
  | vand (core : Nat) (rd rs1 rs2 : BitVec 5) (w : BitVec 2)   -- VAND (R380)
  | vor (core : Nat) (rd rs1 rs2 : BitVec 5) (w : BitVec 2)   -- VOR (R380)
  | vxor (core : Nat) (rd rs1 rs2 : BitVec 5) (w : BitVec 2)   -- VXOR (R380)
  | vsll (core : Nat) (rd rs1 rs2 : BitVec 5) (w : BitVec 2)   -- VSLL (R380)
  | vsrl (core : Nat) (rd rs1 rs2 : BitVec 5) (w : BitVec 2)   -- VSRL (R380)
  | vsra (core : Nat) (rd rs1 rs2 : BitVec 5) (w : BitVec 2)   -- VSRA (R380)
  | vmin (core : Nat) (rd rs1 rs2 : BitVec 5) (w : BitVec 2)   -- VMIN (R380)
  | vmax (core : Nat) (rd rs1 rs2 : BitVec 5) (w : BitVec 2)   -- VMAX (R380)
  | vshuf (core : Nat) (rd rs1 rs2 : BitVec 5) (w : BitVec 2)   -- VSHUF (R380)
  | vfadd (core : Nat) (rd rs1 rs2 : BitVec 5) (w : BitVec 2)   -- VFADD (R380)
  | vfsub (core : Nat) (rd rs1 rs2 : BitVec 5) (w : BitVec 2)   -- VFSUB (R380)
  | vfmul (core : Nat) (rd rs1 rs2 : BitVec 5) (w : BitVec 2)   -- VFMUL (R380)
  | vfma (core : Nat) (rd rs1 rs2 : BitVec 5) (w : BitVec 2)   -- VFMA (R380)
  | vcmul (core : Nat) (rd rs1 rs2 : BitVec 5) (w : BitVec 2)   -- VCMUL (R380)
  | vcmac (core : Nat) (rd rs1 rs2 : BitVec 5) (w : BitVec 2)   -- VCMAC (R380)
  | vcconj (core : Nat) (rd rs1 rs2 : BitVec 5) (w : BitVec 2)   -- VCCONJ (R380)
  | vfdiv (core : Nat) (rd rs1 rs2 : BitVec 5) (w : BitVec 2)   -- VFDIV (R380)
  | vfcvtfi (core : Nat) (rd rs1 rs2 : BitVec 5) (w : BitVec 2)   -- VFCVTFI (R380)
  | vfcvtif (core : Nat) (rd rs1 rs2 : BitVec 5) (w : BitVec 2)   -- VFCVTIF (R380)
  | vflt (core : Nat) (rd rs1 rs2 : BitVec 5) (w : BitVec 2)   -- VFLT (R380)
  | vmadd (core : Nat) (rd rs1 rs2 : BitVec 5) (w : BitVec 2)   -- VMADD (R380)
  | vmsub (core : Nat) (rd rs1 rs2 : BitVec 5) (w : BitVec 2)   -- VMSUB (R380)
  | vmmul (core : Nat) (rd rs1 rs2 : BitVec 5) (w : BitVec 2)   -- VMMUL (R380)
  | vmmac (core : Nat) (rd rs1 rs2 : BitVec 5) (w : BitVec 2)   -- VMMAC (R380)
  | vmred (core : Nat) (rd rs1 rs2 : BitVec 5) (w : BitVec 2)   -- VMRED (R380)
  | vmv (core : Nat) (rd rs1 rs2 : BitVec 5) (w : BitVec 2)   -- VMV (R380)
  | vext (core : Nat) (rd rs1 rs2 : BitVec 5) (w : BitVec 2)   -- VEXT (R380)
  | vins (core : Nat) (rd rs1 rs2 : BitVec 5) (w : BitVec 2)   -- VINS (R380)
  | vsplat (core : Nat) (rd rs1 rs2 : BitVec 5) (w : BitVec 2)   -- VSPLAT (R380)
  | vseq (core : Nat) (rd rs1 rs2 : BitVec 5) (w : BitVec 2)   -- VSEQ (R380)
  | vslt (core : Nat) (rd rs1 rs2 : BitVec 5) (w : BitVec 2)   -- VSLT (R380)
  | vsltu (core : Nat) (rd rs1 rs2 : BitVec 5) (w : BitVec 2)   -- VSLTU (R380)
  | vsel (core : Nat) (rd rs1 rs2 : BitVec 5) (w : BitVec 2)   -- VSEL (R380)
  | vld (core : Nat) (rd rs1 : BitVec 5) (off : BitVec 12)   -- VLD (R380)
  | vst (core : Nat) (rs2 rs1 : BitVec 5) (off : BitVec 12)   -- VST (R380)
  | linkEnable (k : Nat) (value : BitVec 32) (t : Nat)   -- LINK_ENABLE (R394)
  | linkRetrain (k : Nat) (t : Nat)   -- LINK_RETRAIN (R392)
  | linkUp (k : Nat) (peer : PeerHello) (t : Nat)   -- LINK_UP (R395)
  | linkRetry (k : Nat) (t : Nat)   -- LINK_RETRY (R394)
  | flitReceived (k : Nat) (flit : List Byte) (fec : Option Nat) (t : Nat)   -- FLIT_RECEIVED (R392)
  | creditTimeout (k : Nat) (t : Nat)   -- CREDIT_TIMEOUT (R393)
  | rosterLoad (t : Nat)   -- ROSTER_LOAD (R397)
  | markPropose (t : Nat)   -- MARK_PROPOSE (R401)
  | markReply (t : Nat)   -- MARK_REPLY (R401)
  | leaseReq (t : Nat)   -- LEASE_REQ (R403)
  | leaseGrant (t : Nat)   -- LEASE_GRANT (R403)
  | delegateReq (t : Nat)   -- DELEGATE_REQ (R405)
  | delegateGrant (t : Nat)   -- DELEGATE_GRANT (R405)
  | cross (t : Nat)   -- CROSS (R406)
  | crossInterval (t : Nat)   -- CROSS_INTERVAL (R406)
  | rosterGet (t : Nat)   -- ROSTER_GET (R397)
  | rosterData (t : Nat)   -- ROSTER_DATA (R397)
  | meridianRequestResend (req : Nat) (t : Nat)   -- MERIDIAN_REQUEST_RESEND (R400)
  | tetherRd (t : Nat)   -- TETHER_RD (R408)
  | tetherCpl (t : Nat)   -- TETHER_CPL (R408)
  | tetherWr (t : Nat)   -- TETHER_WR (R408)
  | tetherReg (t : Nat)   -- TETHER_REG (R408)
  | tetherRegCpl (t : Nat)   -- TETHER_REG_CPL (R408)
  | tetherPathLost (node : Nat) (t : Nat)   -- TETHER_PATH_LOST (R410)
  | transition (t : Nat)   -- TRANSITION (R442)
  | debugGrant (t : Nat)   -- DEBUG (R450)
  | stage (t : Nat)   -- STAGE (R460)
  | activate   -- ACTIVATE (R461)
  | confirm   -- CONFIRM (R462)
  | commitSvn   -- COMMIT_SVN (R462)
  | hello (tr : RcvPort) (seq : Nat)   -- HELLO (R465)
  | readProgress (tr : RcvPort) (seq : Nat)   -- READ_PROGRESS (R465)
  | fwWrite (tr : RcvPort) (seq : Nat) (body : List Byte)   -- FW_WRITE (R465)
  | fwFinish (tr : RcvPort) (seq : Nat) (body : List Byte)   -- FW_FINISH (R465)
  | authWrite (tr : RcvPort) (seq : Nat) (body : List Byte)   -- AUTH_WRITE (R465)
  | authSubmit (tr : RcvPort) (seq : Nat) (t : Nat)   -- AUTH_SUBMIT (R465)
  | chartWrite (tr : RcvPort) (seq : Nat) (body : List Byte)   -- CHART_WRITE (R465)
  | chartFinish (tr : RcvPort) (seq : Nat) (body : List Byte)   -- CHART_FINISH (R465)
  | selfTest (tr : RcvPort) (seq : Nat) (res : TestResults)   -- SELF_TEST (R463)
  | recoveryReset (tr : RcvPort) (seq : Nat) (body : List Byte)   -- RECOVERY_RESET (R465)
  | uartState   -- UART_STATE (R466)
  | uartProgress   -- UART_PROGRESS (R466)
  | uartSelftest (res : TestResults)   -- UART_SELFTEST (R466)
  | uartReset (landfall : Bool)   -- UART_RESET (R466)
  | badAccess (fn : Nat) (off bytes : Nat) (write : Bool) (t : Nat)   -- BAD_ACCESS (R17)
  | registerWrite (bar : Window) (fn : Nat) (off : Nat) (acc : Access)   -- REGISTER_WRITE (R14)
  | supplyRecovery (rail : Rail) (ns : Nat) (t : Nat)   -- SUPPLY_RECOVERY (R498)
  | clockRecovery (clk : RefClock) (ns : Nat) (t : Nat)   -- CLOCK_RECOVERY (R507)
  | temperatureRecovery (celsius : Nat) (t : Nat)   -- TEMPERATURE_RECOVERY (R509)
  | safeReqNRelease (samples : List Bool) (t : Nat)   -- SAFE_REQ_N_RELEASE (R427)
  | permitReadbackAgree (n : Nat) (level : Bool) (t : Nat)   -- PERMIT_READBACK_AGREE (R429)
  | entropyHealthRecovery (t : Nat)   -- ENTROPY_HEALTH_RECOVERY (R425)
  | fieldPortLinkUp (p : Nat) (t : Nat)   -- FIELD_PORT_LINK_UP (R351)
  | meridianLinkRekey (k : Nat) (t : Nat)   -- MERIDIAN_LINK_REKEY (R395)
  | almanacSlewEnd (t : Nat)   -- ALMANAC_SLEW_END (R350)
  | ppsOut (t : Nat)   -- PPS_OUT (R346)
  | partnerScrubComplete (partner : Nat) (t : Nat)   -- PARTNER_SCRUB_COMPLETE (R335)
  | flrComplete (f : Nat) (t : Nat)   -- FLR_COMPLETE (R269)
  | waitTimeout (m : Nat) (t : Nat)   -- WAIT_TIMEOUT (R376)
  | neighbourSolicitation (target : List Byte)   -- NEIGHBOUR_SOLICITATION (R465)
  | tapInstruction (ir : TapInstr) (payload : List Byte) (t : Nat)   -- TAP_INSTRUCTION (R449)
  | rejectionBudgetEnd (j : Nat) (t : Nat)   -- REJECTION_BUDGET_END (R117)
  | telemetryPeriod (powerW tempC : Nat)   -- TELEMETRY_PERIOD (R483)
deriving DecidableEq, Repr

end Sys2Proof
end

