-- ==== Sys2Proof/Decode.lean ====
section
/-! DEFINITION. The command that a word of spec/opcode_table.json spells (no row of the table gives bits, so no word
spells one), and the instruction words of the Pelorus extension (16_service_complex.md R377, R380), read and written. -/

namespace Sys2Proof

/-- The command that a word of `nbits` bits spells by the table's bits: none, since no row gives bits. -/
def decodeTableWord (_nbits _w : Nat) : Option Instr := none

/-- The core and the Pelorus instruction of a command. -/
def vecOf : Instr → Option (Nat × VecInstr)
  | .vadd c rd rs1 rs2 w => some (c, .form .vadd rd rs1 rs2 w)
  | .vsub c rd rs1 rs2 w => some (c, .form .vsub rd rs1 rs2 w)
  | .vmul c rd rs1 rs2 w => some (c, .form .vmul rd rs1 rs2 w)
  | .vmulh c rd rs1 rs2 w => some (c, .form .vmulh rd rs1 rs2 w)
  | .vand c rd rs1 rs2 w => some (c, .form .vand rd rs1 rs2 w)
  | .vor c rd rs1 rs2 w => some (c, .form .vor rd rs1 rs2 w)
  | .vxor c rd rs1 rs2 w => some (c, .form .vxor rd rs1 rs2 w)
  | .vsll c rd rs1 rs2 w => some (c, .form .vsll rd rs1 rs2 w)
  | .vsrl c rd rs1 rs2 w => some (c, .form .vsrl rd rs1 rs2 w)
  | .vsra c rd rs1 rs2 w => some (c, .form .vsra rd rs1 rs2 w)
  | .vmin c rd rs1 rs2 w => some (c, .form .vmin rd rs1 rs2 w)
  | .vmax c rd rs1 rs2 w => some (c, .form .vmax rd rs1 rs2 w)
  | .vshuf c rd rs1 rs2 w => some (c, .form .vshuf rd rs1 rs2 w)
  | .vfadd c rd rs1 rs2 w => some (c, .form .vfadd rd rs1 rs2 w)
  | .vfsub c rd rs1 rs2 w => some (c, .form .vfsub rd rs1 rs2 w)
  | .vfmul c rd rs1 rs2 w => some (c, .form .vfmul rd rs1 rs2 w)
  | .vfma c rd rs1 rs2 w => some (c, .form .vfma rd rs1 rs2 w)
  | .vcmul c rd rs1 rs2 w => some (c, .form .vcmul rd rs1 rs2 w)
  | .vcmac c rd rs1 rs2 w => some (c, .form .vcmac rd rs1 rs2 w)
  | .vcconj c rd rs1 rs2 w => some (c, .form .vcconj rd rs1 rs2 w)
  | .vfdiv c rd rs1 rs2 w => some (c, .form .vfdiv rd rs1 rs2 w)
  | .vfcvtfi c rd rs1 rs2 w => some (c, .form .vfcvtfi rd rs1 rs2 w)
  | .vfcvtif c rd rs1 rs2 w => some (c, .form .vfcvtif rd rs1 rs2 w)
  | .vflt c rd rs1 rs2 w => some (c, .form .vflt rd rs1 rs2 w)
  | .vmadd c rd rs1 rs2 w => some (c, .form .vmadd rd rs1 rs2 w)
  | .vmsub c rd rs1 rs2 w => some (c, .form .vmsub rd rs1 rs2 w)
  | .vmmul c rd rs1 rs2 w => some (c, .form .vmmul rd rs1 rs2 w)
  | .vmmac c rd rs1 rs2 w => some (c, .form .vmmac rd rs1 rs2 w)
  | .vmred c rd rs1 rs2 w => some (c, .form .vmred rd rs1 rs2 w)
  | .vmv c rd rs1 rs2 w => some (c, .form .vmv rd rs1 rs2 w)
  | .vext c rd rs1 rs2 w => some (c, .form .vext rd rs1 rs2 w)
  | .vins c rd rs1 rs2 w => some (c, .form .vins rd rs1 rs2 w)
  | .vsplat c rd rs1 rs2 w => some (c, .form .vsplat rd rs1 rs2 w)
  | .vseq c rd rs1 rs2 w => some (c, .form .vseq rd rs1 rs2 w)
  | .vslt c rd rs1 rs2 w => some (c, .form .vslt rd rs1 rs2 w)
  | .vsltu c rd rs1 rs2 w => some (c, .form .vsltu rd rs1 rs2 w)
  | .vsel c rd rs1 rs2 w => some (c, .form .vsel rd rs1 rs2 w)
  | .vld c rd rs1 off => some (c, .load rd rs1 off)
  | .vst c rs2 rs1 off => some (c, .store rs2 rs1 off)
  | _ => none

/-- funct3 and OP of an operation, by the tables of R380. -/
def vecCode : VecOp → Nat × Nat
  | .vadd => (0, 0x00)
  | .vsub => (0, 0x01)
  | .vmul => (0, 0x02)
  | .vmulh => (0, 0x03)
  | .vand => (0, 0x04)
  | .vor => (0, 0x05)
  | .vxor => (0, 0x06)
  | .vsll => (0, 0x07)
  | .vsrl => (0, 0x08)
  | .vsra => (0, 0x09)
  | .vmin => (0, 0x0A)
  | .vmax => (0, 0x0B)
  | .vshuf => (0, 0x0C)
  | .vfadd => (1, 0x00)
  | .vfsub => (1, 0x01)
  | .vfmul => (1, 0x02)
  | .vfma => (1, 0x03)
  | .vcmul => (1, 0x04)
  | .vcmac => (1, 0x05)
  | .vcconj => (1, 0x06)
  | .vfdiv => (1, 0x07)
  | .vfcvtfi => (1, 0x08)
  | .vfcvtif => (1, 0x09)
  | .vflt => (1, 0x0A)
  | .vmadd => (2, 0x00)
  | .vmsub => (2, 0x01)
  | .vmmul => (2, 0x02)
  | .vmmac => (2, 0x03)
  | .vmred => (2, 0x04)
  | .vmv => (3, 0x00)
  | .vext => (3, 0x01)
  | .vins => (3, 0x02)
  | .vsplat => (3, 0x03)
  | .vseq => (6, 0x00)
  | .vslt => (6, 0x01)
  | .vsltu => (6, 0x02)
  | .vsel => (6, 0x03)

/-- The operation that funct3 and OP name; none where the tables list none (R378). -/
def vecOpOf (f3 op : Nat) : Option VecOp :=
  match f3, op with
  | 0, 0x00 => some .vadd
  | 0, 0x01 => some .vsub
  | 0, 0x02 => some .vmul
  | 0, 0x03 => some .vmulh
  | 0, 0x04 => some .vand
  | 0, 0x05 => some .vor
  | 0, 0x06 => some .vxor
  | 0, 0x07 => some .vsll
  | 0, 0x08 => some .vsrl
  | 0, 0x09 => some .vsra
  | 0, 0x0A => some .vmin
  | 0, 0x0B => some .vmax
  | 0, 0x0C => some .vshuf
  | 1, 0x00 => some .vfadd
  | 1, 0x01 => some .vfsub
  | 1, 0x02 => some .vfmul
  | 1, 0x03 => some .vfma
  | 1, 0x04 => some .vcmul
  | 1, 0x05 => some .vcmac
  | 1, 0x06 => some .vcconj
  | 1, 0x07 => some .vfdiv
  | 1, 0x08 => some .vfcvtfi
  | 1, 0x09 => some .vfcvtif
  | 1, 0x0A => some .vflt
  | 2, 0x00 => some .vmadd
  | 2, 0x01 => some .vmsub
  | 2, 0x02 => some .vmmul
  | 2, 0x03 => some .vmmac
  | 2, 0x04 => some .vmred
  | 3, 0x00 => some .vmv
  | 3, 0x01 => some .vext
  | 3, 0x02 => some .vins
  | 3, 0x03 => some .vsplat
  | 6, 0x00 => some .vseq
  | 6, 0x01 => some .vslt
  | 6, 0x02 => some .vsltu
  | 6, 0x03 => some .vsel
  | _, _ => none

/-- The word of an instruction: R-form, or the I-form of a load (funct3 0b100) or the S-form of a store (0b101), with major
opcode custom-1 (R377). -/
def VecInstr.encode : VecInstr → BitVec 32
  | .form o rd rs1 rs2 w =>
    BitVec.ofNat 5 (vecCode o).2 ++ w ++ rs2 ++ rs1 ++ BitVec.ofNat 3 (vecCode o).1 ++ rd ++ 0b0101011#7
  | .load rd rs1 off => off ++ rs1 ++ 0b100#3 ++ rd ++ 0b0101011#7
  | .store rs2 rs1 off => off.extractLsb' 5 7 ++ rs2 ++ rs1 ++ 0b101#3 ++ off.extractLsb' 0 5 ++ 0b0101011#7

/-- The instruction that a word spells; none where the major opcode is another, or the tables list no such funct3 and OP. -/
def pelorusDecode (x : BitVec 32) : Option VecInstr :=
  let rd := x.extractLsb' 7 5
  let f3 := x.extractLsb' 12 3
  let rs1 := x.extractLsb' 15 5
  let rs2 := x.extractLsb' 20 5
  if x.extractLsb' 0 7 ≠ 0b0101011#7 then none
  else if f3 = 0b100#3 then some (.load rd rs1 (x.extractLsb' 20 12))
  else if f3 = 0b101#3 then some (.store rs2 rs1 (x.extractLsb' 25 7 ++ rd))
  else (vecOpOf f3.toNat (x.extractLsb' 27 5).toNat).map fun o => .form o rd rs1 rs2 (x.extractLsb' 25 2)

end Sys2Proof
end

