-- ==== Sys2Proof/Machine/Bits.lean ====
section
/-! DEFINITION. Bit fields, byte order, byte strings and sparse tables: the plain helpers of every meaning. -/

namespace Sys2Proof.Machine

/-! ### Numbers -/

/-- Division rounding up. -/
def ceilDiv (a b : Nat) : Nat := (a + b - 1) / b

/-- Bits `hi` down to `lo` of `x`. -/
def bitsOf (x hi lo : Nat) : Nat := (x >>> lo) % 2 ^ (hi - lo + 1)

/-- Bit `i` of `x`. -/
def bitOf (x i : Nat) : Bool := (x >>> i) % 2 == 1

/-- One when true. -/
def b2n (b : Bool) : Nat := if b then 1 else 0

/-- Addition that saturates at `2 ^ w - 1`. -/
def satAdd (w a b : Nat) : Nat := min (a + b) (2 ^ w - 1)

/-- The difference `a - b` modulo 2^32, as the ring arithmetic takes it (10_job_rings.md R228, R229). -/
def diff32 (a b : BitVec 32) : Nat := (a - b).toNat

/-- A two's-complement value of `w` bits. -/
def signedOf (w x : Nat) : Int := if x % 2 ^ w < 2 ^ (w - 1) then (x % 2 ^ w : Nat) else (x % 2 ^ w : Nat) - 2 ^ w

/-- `x` as `w` bits of two's complement. -/
def twosOf (w : Nat) (x : Int) : Nat := (x % (2 ^ w : Nat)).toNat

/-! ### Byte strings -/

/-- `n` as `k` bytes, little-endian (00_scope.md R12). -/
def le : Nat → Nat → Bytes
  | 0, _ => []
  | k + 1, n => BitVec.ofNat 8 n :: le k (n / 256)

/-- `n` as `k` bytes, big-endian. -/
def be (k n : Nat) : Bytes := (le k n).reverse

/-- A little-endian integer. -/
def fromLE : Bytes → Nat
  | [] => 0
  | b :: bs => b.toNat + 256 * fromLE bs

/-- A big-endian integer. -/
def fromBE (bs : Bytes) : Nat := fromLE bs.reverse

/-- `len` bytes of `bs` from `off`; fewer when it ends before. -/
def sliceOf (bs : Bytes) (off len : Nat) : Bytes := (bs.drop off).take len

/-- The little-endian field of `len` bytes at `off`. -/
def leAt (bs : Bytes) (off len : Nat) : Nat := fromLE (sliceOf bs off len)

/-- `n` zero bytes. -/
def zeros (n : Nat) : Bytes := List.replicate n 0

/-- Every byte zero. -/
def allZero (bs : Bytes) : Bool := bs.all (· == 0)

/-- `bs` cut or zero-extended to `n` bytes. -/
def fit (n : Nat) (bs : Bytes) : Bytes := bs.take n ++ zeros (n - bs.length)

/-- `a` with `b` laid over it from `off`; the string grows as needed. -/
def overlay (a : Bytes) (off : Nat) (b : Bytes) : Bytes :=
  fit off a ++ b ++ a.drop (off + b.length)

/-- An ASCII label. -/
def ascii (s : String) : Bytes := s.toList.map fun c => BitVec.ofNat 8 c.toNat

/-- Byte-wise exclusive or. -/
def xorBytes (a b : Bytes) : Bytes := List.zipWith (· ^^^ ·) a b

/-! ### CRC -/

/-- One step of CRC-16/CCITT-FALSE on a bit (10_job_rings.md R225). -/
def crc16Bit (c : BitVec 16) : BitVec 16 := if c.msb then (c <<< 1) ^^^ 0x1021#16 else c <<< 1

/-- One byte of CRC-16/CCITT-FALSE. -/
def crc16Byte (c : BitVec 16) (b : Byte) : BitVec 16 :=
  let c0 := c ^^^ (b.zeroExtend 16 <<< 8)
  crc16Bit (crc16Bit (crc16Bit (crc16Bit (crc16Bit (crc16Bit (crc16Bit (crc16Bit c0)))))))

/-- CRC-16/CCITT-FALSE (10_job_rings.md R225). -/
def crc16 (bs : Bytes) : BitVec 16 := bs.foldl crc16Byte 0xFFFF#16

/-- One bit of the reflected CRC-32 (17_meridian.md R391). -/
def crc32Bit (c : BitVec 32) : BitVec 32 := if c.getLsbD 0 then (c >>> 1) ^^^ 0xEDB88320#32 else c >>> 1

/-- One byte of the reflected CRC-32. -/
def crc32Byte (c : BitVec 32) (b : Byte) : BitVec 32 :=
  let c0 := c ^^^ b.zeroExtend 32
  crc32Bit (crc32Bit (crc32Bit (crc32Bit (crc32Bit (crc32Bit (crc32Bit (crc32Bit c0)))))))

/-- CRC-32 over a flit (17_meridian.md R391). -/
def crc32 (bs : Bytes) : BitVec 32 := bs.foldl crc32Byte 0xFFFFFFFF#32 ^^^ 0xFFFFFFFF#32

/-! ### Sparse tables -/

/-- The entry of `k`. -/
def tget {α : Type} : Table α → Nat → Option α
  | [], _ => none
  | (i, v) :: t, k => if i = k then some v else tget t k

/-- The table with `v` at `k`, indices kept rising. -/
def tput {α : Type} : Table α → Nat → α → Table α
  | [], k, v => [(k, v)]
  | (i, w) :: t, k, v =>
    if k < i then (k, v) :: (i, w) :: t
    else if k = i then (k, v) :: t
    else (i, w) :: tput t k v

/-- The table without `k`. -/
def tdel {α : Type} (t : Table α) (k : Nat) : Table α := t.filter fun e => e.1 != k

/-- The table with `f` applied at `k`, where it has an entry. -/
def tmod {α : Type} (t : Table α) (k : Nat) (f : α → α) : Table α :=
  t.map fun e => if e.1 = k then (e.1, f e.2) else e

/-- Every entry changed. -/
def tmap {α : Type} (t : Table α) (f : Nat → α → α) : Table α := t.map fun e => (e.1, f e.1 e.2)

/-- The indices whose entry meets `p`, rising. -/
def tkeys {α : Type} (t : Table α) (p : Nat → α → Bool) : List Nat := (t.filter fun e => p e.1 e.2).map (·.1)

/-- How many entries meet `p`. -/
def tcount {α : Type} (t : Table α) (p : Nat → α → Bool) : Nat := (tkeys t p).length

/-- The lowest number from `lo`, below `hi`, that `used` does not hold. -/
def lowestFree (used : Nat → Bool) : Nat → Nat → Option Nat
  | 0, _ => none
  | n + 1, lo => if used lo then lowestFree used n (lo + 1) else some lo

/-- The element for which `f` is least; the first of equals. -/
def leastBy {α : Type} (f : α → Nat) : List α → Option α
  | [] => none
  | a :: l =>
    match leastBy f l with
    | none => some a
    | some b => if f b < f a then some b else some a

/-- Insert by a key, after equals. -/
def insertBy {α : Type} (f : α → Nat) (a : α) : List α → List α
  | [] => [a]
  | b :: l => if f a < f b then a :: b :: l else b :: insertBy f a l

/-- Sort by a key, stably. -/
def sortBy {α : Type} (f : α → Nat) (l : List α) : List α := l.foldl (fun acc a => insertBy f a acc) []

/-! ### Byte-addressed memory -/

/-- The byte at `a`; an unlisted byte reads 0x00 (log 7). -/
def memRead : List Host.Cell → Nat → Byte
  | [], _ => 0
  | (i, v) :: m, a => if i = a then v else if a < i then 0 else memRead m a

/-- The memory with `v` at `a`, in canonical form: addresses rising, no entry 0x00. -/
def memWrite : List Host.Cell → Nat → Byte → List Host.Cell
  | [], a, v => if v = 0 then [] else [(a, v)]
  | (i, w) :: m, a, v =>
    if a < i then (if v = 0 then (i, w) :: m else (a, v) :: (i, w) :: m)
    else if a = i then (if v = 0 then m else (a, v) :: m)
    else (i, w) :: memWrite m a v

/-- `n` bytes from `a`, rising. -/
def memReadN (m : List Host.Cell) (a : Nat) : Nat → Bytes
  | 0 => []
  | n + 1 => memRead m a :: memReadN m (a + 1) n

/-- Bytes written from `a`, rising. -/
def memWriteN (m : List Host.Cell) (a : Nat) : Bytes → List Host.Cell
  | [] => m
  | b :: bs => memWriteN (memWrite m a b) (a + 1) bs

/-- The canonical form of a memory: addresses strictly rising and no entry that an unlisted address reads as. -/
def memWf : List Host.Cell → Bool
  | [] => true
  | [(_, v)] => v != 0
  | (i, v) :: (j, w) :: m => v != 0 && decide (i < j) && memWf ((j, w) :: m)

end Sys2Proof.Machine
end

