-- ==== Sys2Proof/Machine/Flags.lean ====
section
/-! DEFINITION. Status codes, reasons, and the flag words that the device computes. -/

namespace Sys2Proof.Machine

/-! ### Status codes (10_job_rings.md R249) -/

namespace St
def ok : Nat := 0x0000
def verifyFail : Nat := 0x0001
def tagFail : Nat := 0x0002
def notAdmitted : Nat := 0x0100
def unitAbsent : Nat := 0x0101
def ctxFull : Nat := 0x0102
def keyExhausted : Nat := 0x0103
def keyInvalid : Nat := 0x0104
def policyDeny : Nat := 0x0105
def partnerLimit : Nat := 0x0106
def queueLimit : Nat := 0x0107
def lenMismatch : Nat := 0x0200
def fragFault : Nat := 0x0201
def dstFault : Nat := 0x0202
def malformed : Nat := 0x0203
def aborted : Nat := 0x0300
def mcheck : Nat := 0x0301
def fenced : Nat := 0x0302
def safeState : Nat := 0x0303
def logbookFull : Nat := 0x0304
end St

/-- The FLAGS word of a completion (10_job_rings.md R245). -/
def completionFlags (phase late injSeen provisional al2Done : Bool) : Nat :=
  b2n phase + 2 * b2n late + 4 * b2n injSeen + 8 * b2n provisional + 16 * b2n al2Done

/-- The PHASE of completion index `c` in a ring of `size` entries (10_job_rings.md R231). -/
def phaseOf (c size : Nat) : Bool := (c / size + 1) % 2 == 1

/-- A lapping doorbell (10_job_rings.md R229). -/
def lapping (new old other : BitVec 32) (remainingOfNew : Bool) (size : Nat) : Bool :=
  let advance := diff32 new old
  let occupancy := if remainingOfNew then diff32 other new else diff32 new other
  decide (size < advance) || decide (size < occupancy)

/-- SERVICE_TIME: units of 10 ns, rounded down, saturating (10_job_rings.md R245). -/
def serviceTime (accepted written : Nat) : Nat := min ((written - accepted) / 10) 0xFFFFFFFF

/-- The 32 bytes of a completion entry (10_job_rings.md R245). -/
def completionBytes (tag status flags result : Nat) (ret : Bytes) (service : Nat) : Bytes :=
  le 4 tag ++ le 2 status ++ le 2 flags ++ le 8 result ++ fit 12 ret ++ le 4 service

/-- PROGRESS_PERMILLE (20_boot_landfall.md R467). -/
def permille (pos total : Nat) : Nat := if total = 0 then 0 else 1000 * pos / total

end Sys2Proof.Machine
end

