-- ==== Sys2Proof/Machine/Operands.lean ====
section
/-! DEFINITION. The operand forms of the device: the job entry, its FLAGS, the fragment-table element, the PARAM
fields, handles, and the register access forms. -/

namespace Sys2Proof.Machine

/-- A job entry, field by field (10_job_rings.md R222). -/
structure Entry where
  opcode    : Nat
  flags     : Nat
  tag       : Nat
  handle    : Nat
  partner   : Nat
  cls       : Nat
  src       : Nat
  dst       : Nat
  totalLen  : Nat
  fragCount : Nat
  aux       : Nat
  param     : Nat
  reserved  : Nat
  check     : Nat
deriving DecidableEq, Repr

/-- The fields of 64 bytes (R222). -/
def parseEntry (b : Bytes) : Entry :=
  { opcode := leAt b 0 2, flags := leAt b 2 2, tag := leAt b 4 4, handle := leAt b 8 4, partner := leAt b 12 3,
    cls := leAt b 15 1, src := leAt b 16 8, dst := leAt b 24 8, totalLen := leAt b 32 6, fragCount := leAt b 38 2,
    aux := leAt b 40 8, param := leAt b 48 8, reserved := leAt b 56 6, check := leAt b 62 2 }

/-- The bytes of an entry, its ENTRY_CHECK computed (R222, R225). -/
def entryBytes (e : Entry) : Bytes :=
  let body := le 2 e.opcode ++ le 2 e.flags ++ le 4 e.tag ++ le 4 e.handle ++ le 3 e.partner ++ le 1 e.cls ++
    le 8 e.src ++ le 8 e.dst ++ le 6 e.totalLen ++ le 2 e.fragCount ++ le 8 e.aux ++ le 8 e.param ++ le 6 e.reserved
  body ++ le 2 (crc16 body).toNat

/-! ### FLAGS (R223) -/

def fFirst (f : Nat) : Bool := bitOf f 0
def fLast (f : Nat) : Bool := bitOf f 1
def fIndirect (f : Nat) : Bool := bitOf f 2
def fNotify (f : Nat) : Bool := bitOf f 3
def fFence (f : Nat) : Bool := bitOf f 4
def fAl (f : Nat) : Nat := bitsOf f 6 5
def fProvisional (f : Nat) : Bool := bitOf f 7
def fLogbook (f : Nat) : Bool := bitOf f 8

/-- The job runs at AL2: chosen by AL, by the class default, or by family 0x9 (R223, R224). TIMED_NOP occupies one tile
and FORCE_COMPARE_FAIL none, so neither has a second run (02, R46, R50). DEDUCED, log 53. -/
def wantsAl2 (opcode flags cls : Nat) : Bool :=
  if opcode / 0x1000 = 9 then true else if opcode = 0xF000 ∨ opcode = 0xF002 then false
  else if fAl flags = 2 then true else if fAl flags = 1 then false else decide (cls ≤ 2)

/-! ### Fragment tables (R227) -/

/-- A fragment-table element. -/
structure Frag where
  addr  : Nat
  len   : Nat
  flags : Nat
deriving DecidableEq, Repr

/-- An element of 16 bytes. -/
def parseFrag (b : Bytes) : Frag := { addr := leAt b 0 8, len := leAt b 8 4, flags := leAt b 12 4 }

/-- The `n` elements of a table's bytes. -/
def parseFrags (b : Bytes) : Nat → List Frag
  | 0 => []
  | n + 1 => parseFrag (b.take 16) :: parseFrags (b.drop 16) n

/-! ### Opcodes and handles -/

def famOf (op : Nat) : Nat := op / 0x1000
def operOf (op : Nat) : Nat := op / 0x100 % 16
def psetOf (op : Nat) : Nat := op % 0x100

/-- The index of a handle (09_key_store.md R200). -/
def handleIdx (h : Nat) : Nat := h % 2 ^ 24
/-- The generation of a handle. -/
def handleGen (h : Nat) : Nat := h / 2 ^ 24 % 256
/-- A handle from its index and generation. -/
def mkHandle (idx gen : Nat) : Nat := idx + gen * 2 ^ 24

end Sys2Proof.Machine
end

