-- ==== Sys2Proof/Config.lean ====
section
/-! DEFINITION. What an implementation fixes and what the spec leaves open: the free values.
Every constant here is opaque: nothing can be proved of its value (assumption log 1). -/

namespace Sys2Proof

/-- The functions of published standards that the spec cites and does not define (02_operations_catalogue.md R47).
The model carries their inputs and the sizes of their outputs; their values are free (log 1). -/
inductive Prim
  | hash (code : Nat)              -- a hash or XOF of the hash-code table (R44)
  | hmac (code : Nat)              -- HMAC with that hash
  | kmac (code : Nat)              -- KMAC128, KMAC256 and the KMACXOF forms
  | hkdf (code : Nat)              -- HKDF with HMAC of that hash
  | publicKey (alg : Nat)          -- the public key of a private key
  | privateKey (alg : Nat)         -- the private key that a seed yields
  | encaps (alg : Nat)             -- ciphertext then shared secret
  | decaps (alg : Nat)             -- the shared secret, implicit rejection included
  | agree (alg : Nat)              -- ECDH, X25519, X448
  | sign (alg : Nat)               -- a signature
  | verify (alg : Nat)             -- the outcome of a verification
  | keyCheck (alg : Nat)           -- a key's own check (R108, R120, R166, R168, R195)
  | sigLength (alg : Nat)          -- the length of a variable-length signature or key
  | shortfall (op : Nat)           -- a fixed pool of candidates is exhausted (R157)
  | attempts (alg : Nat)           -- iterations, attempts or candidates that a rejection loop took
  | oaep (alg : Nat)               -- OAEP encryption
  | oaepOpen (alg : Nat)           -- OAEP decryption
  | aead (alg : Nat)               -- ciphertext of an AEAD
  | aeadTag (alg : Nat)            -- its tag
  | ctr (alg : Nat)                -- CTR keystream applied to the input
  | xts (alg : Nat) (enc : Bool)   -- XTS on whole data units
  | lineMac                        -- the MAC of a private-memory line, and a node of the counter tree
  | wrap (kwp : Bool)              -- KW or KWP
  | unwrap (kwp : Bool)            -- its inverse
  | hbsSign (alg : Nat)            -- a stateful signature under one leaf
  | hbsRoot (alg : Nat)            -- a root of a tree
  | knownAnswer (opcode : Nat)     -- a built-in vector
  | certificate (kind : Nat)       -- an X.509 certificate and the properties read from it
  | spdm (code : Nat)              -- a body of an SPDM response that the SPDM standard, not the spec, lays out
  | reject                         -- the outcome of the norm checks of a micro-word (04_engine_tiles.md R81)
  | word (part : Nat)              -- what a micro-word's operation leaves in a part of the datapath
  | image (kind : Nat)             -- a built-in code or image of the device that the spec does not print
deriving DecidableEq, Repr

/-- Output byte `i` of a primitive on its inputs (free, log 1). -/
opaque Config.primByte : Prim → List Bytes → Nat → Byte

/-- The yes-or-no outcome of a primitive on its inputs (free, log 1). -/
opaque Config.primBool : Prim → List Bytes → Bool

/-- A count that a primitive yields on its inputs (free, log 1). -/
opaque Config.primNat : Prim → List Bytes → Nat

/-- Byte `n` that the DRBG delivers (free, log 1). -/
opaque Config.drbg : Nat → Byte

end Sys2Proof
end

