-- ==== Sys2Proof/Machine/State.lean ====
section
/-! DEFINITION. Everything the spec gives the device, as plain data, and the state right after power-on.
Sub-structures follow the chapters; registers that no structure carries stand in `State.regs` by their PF BAR0
offset. INVENTORY.md lists every piece with its rule and its reset value. -/

namespace Sys2Proof.Machine

/-! ### Identity, life cycle, time, pins -/

/-- The three variants (00_scope.md). -/
inductive Variant
  | pz8840 | pz8820 | pz8810
deriving DecidableEq, Repr

/-- Temperature grades (23_electrical_package.md R510). -/
inductive Grade
  | ix | cx
deriving DecidableEq, Repr

/-- The life-cycle states (19_lifecycle_debug.md R436). -/
inductive LifeState
  | raw | test | provision | owned | deployed | returned | scrapped
deriving DecidableEq, Repr

/-- A life-cycle intent record (19_lifecycle_debug.md R442, R444). -/
structure Intent where
  source : LifeState
  target : LifeState
  digest : Bytes
  owner  : Bytes := []      -- the owner data of a transition to OWNED
deriving DecidableEq, Repr

/-- Life cycle, OTP, owner region and debug state (19_lifecycle_debug.md). -/
structure LifeCycle where
  copyA        : BitVec 128 := 0
  copyB        : BitVec 128 := 0
  copyC        : BitVec 128 := 0
  state        : LifeState := .raw
  allAgree     : Bool := true
  resumed      : Bool := false
  deviceId     : BitVec 128 := 0
  dus          : Option Bytes := none
  dr           : Option Bytes := none
  ownerRoot    : Option Bytes := none
  pmk          : Option Bytes := none
  sealGen      : Nat := 0
  chartKey     : Bytes := []                 -- the owner's chart-verification key
  quorumM      : Nat := 0
  recovery     : List Bytes := []            -- the recovery quorum keys
  vendorKeys   : Bytes := []                 -- key digests of OTP and mask ROM
  intent       : Option Intent := none
  busy         : Bool := false
  reason       : Nat := 0
  refuseUntil  : Nat := 0
  nonce        : Bytes := []
  grant        : BitVec 32 := 0
  debugged     : Bool := false
  fails        : Nat := 0
  thermometer  : Nat := 0
  mac          : Bytes := []                 -- MAC addresses of OTP, six bytes each; the management MAC last
deriving DecidableEq, Repr

/-- How the Almanac is being slewed (14_partners_ports_time.md R346, R348, R350): it loses or gains `left` ns, one in every
`div` ns of the elapsed count, `carry` of them counted toward the next. -/
inductive Slew
  | none
  | lose (div left carry : Nat)
  | gain (div left carry : Nat)
deriving DecidableEq, Repr

/-- The Almanac and the elapsed count (12_deadlines.md R277, R279; 14_partners_ports_time.md R346-R350). -/
structure TimeState where
  elapsed    : Nat := 0
  nextTick   : Nat := 10000
  ticks      : Nat := 0
  almanac    : Nat := 0
  checkpoint : Nat := 0
  trusted    : Bool := false
  locked     : Bool := false
  slew       : Slew := .none                 -- a backward time-set or a negative offset
  servo      : Slew := .none                 -- the phase correction of the PPS servo
  source     : Nat := 0
  signedOnly : Bool := false
  adjFreq    : Int := 0
  stepBound  : Nat := 1000000
  accepted   : List (Nat × Nat) := []      -- (elapsed, magnitude) of the corrections of the last 3,600 s
  replicas   : Table Nat := []               -- R38: Almanac time of field ports 0-3, the Helm cluster (4), the Binnacle (5)
  lockRun    : Nat := 0
  lastAdj    : Option Nat := none
  ppsErr     : Int := 0
  ppsOut     : Bool := false
  ppsFall    : Nat := 0
deriving DecidableEq, Repr

/-- Pins, supplies, clocks and temperature (18_faults_safety.md R427-R429; 23_electrical_package.md). -/
structure PinState where
  strap       : Bool := false
  smbAddr     : Nat := 0
  raw         : Bool := true
  filtered    : Bool := true
  run         : List Bool := []            -- samples since the first that disagreed with the filtered level
  heldNext    : Option Nat := none
  permit      : BitVec 8 := 0
  permitFb    : BitVec 8 := 0
  mismatch    : BitVec 8 := 0
  rails       : List Nat := []             -- rails out of tolerance: 0-3 Quadrants, 4 Helm, 5 Binnacle, 6-9 I/O
  clocks      : List Nat := []             -- clocks lost: 0 PE_REFCLK, 1 FP_REFCLK, 2 MR_REFCLK, 3 SYSCLK
  tempCrit    : Bool := false
  gated       : Bool := false              -- clocks gated above 125 degrees until POR_N
  entropyBad  : Bool := false
  alwaysOnOsc : Bool := false              -- the always-on domain runs on the on-die oscillator until POR_N
deriving DecidableEq, Repr

/-! ### Boot, firmware, recovery -/

/-- One of the 16 progress slots (20_boot_landfall.md R467). -/
structure Progress where
  op       : Nat := 0
  state    : Nat := 0
  fn       : Nat := 0
  pos      : Nat := 0
  total    : Nat := 0
  finished : Nat := 0
deriving DecidableEq, Repr

/-- The boot flash, region by region (20_boot_landfall.md R454). -/
structure Flash where
  dirSeqA   : Option (Nat × Nat × Nat) := none   -- a valid directory copy: sequence, ACTIVE, TRY
  dirSeqB   : Option (Nat × Nat × Nat) := none
  slotA     : Bytes := []
  slotB     : Bytes := []
  chartArea : Bytes := []
  ownerArea : Bytes := []
deriving DecidableEq, Repr

/-- The running bundle, as booted. -/
structure Bundle where
  slot     : Nat
  version  : Nat
  svn      : Nat
  fsbl     : Bytes       -- SHA-384 of the first stage
  runtime  : Bytes       -- SHA-384 of the runtime
deriving DecidableEq, Repr

/-- Boot, firmware update and recovery (20_boot_landfall.md). -/
structure BootState where
  phase        : Nat := 0
  ready        : Bool := false
  landfall     : Bool := false
  reason       : Nat := 0
  bundle       : Option Bundle := none
  tryBoot      : Bool := false
  confirmed    : Bool := false
  forceReason  : Nat := 0            -- 9 when the next boot must stay in Landfall mode
  timeMs       : Nat := 0
  booted       : Bool := false       -- the boot since the last reset has run
  confirmRec   : Option Nat := none  -- the confirmation record: the slot being confirmed
  fwBusy       : Bool := false
  fwReason     : Nat := 0
  rcvSeq       : Table Nat := []     -- last SEQ answered on each recovery carrier
  rcvAnswer    : Table Bytes := []
  authBuf      : Bytes := []
  tap          : TapInstr := .idcode
  cdi          : Option Bytes := none
  chains       : Table Bytes := []   -- certificate chains: 0/1 vendor P-384/ML-DSA, 2/3 owner P-384/ML-DSA
deriving DecidableEq, Repr

/-! ### Charts and tiles -/

/-- A tile record of a chart (03_chart.md). -/
structure TileRec where
  pers     : Nat
  group    : Nat
  mhz      : Nat
  prio     : Nat
  mcode    : Nat
deriving DecidableEq, Repr

/-- A group record. -/
structure GroupRec where
  id       : Nat
  pers     : Nat
  minTiles : Nat
  donors   : List Nat
deriving DecidableEq, Repr

/-- A microcode reference. -/
structure McodeRef where
  pers       : Nat
  setId      : Nat
  minVersion : Nat
  digest     : Bytes
deriving DecidableEq, Repr

/-- A route. -/
structure Route where
  first  : Nat
  last   : Nat
  mask   : Nat
  pers   : Nat
  group  : Nat
deriving DecidableEq, Repr

/-- The decoded view of a chart image (03_chart.md, image layout). -/
structure Chart where
  variants  : Nat
  version   : Nat
  id        : Nat
  powerW    : Nat
  roles     : List Nat
  deadlines : List Nat        -- DEADLINE_US of C0-C7
  tiles     : List TileRec
  groups    : List GroupRec
  mcodes    : List McodeRef
  routes    : List Route
deriving DecidableEq, Repr

/-- A committed-chart slot of the NVS: the image, its commit sequence and a SHA-384 digest over both (03_chart.md R71). A write
that power loss interrupted leaves a digest that fails (R72). -/
structure ChartSlot where
  image  : Bytes
  seq    : Nat
  digest : Bytes
deriving DecidableEq, Repr

/-- A chart operation in progress (03_chart.md R70-R75). -/
structure ChartOp where
  job      : Nat
  retile   : Bool
  image    : Bytes
  chart    : Chart
  phase    : Nat              -- CHART.STATE.OP
  tiles    : List Nat         -- tiles to reconfigure
  doneList : List Nat         -- tiles that have finished
  failed   : List Nat         -- tiles that failed
  power    : Option Nat := none   -- a SET_POWER_LIMIT that waits for the commit (R68)
  removed  : Bool := false        -- RETILE: the changed tiles have left the capacity (R74)
  draining : Bool := false        -- RETILE: the commitments fit, and the changed tiles drain (R74)
deriving DecidableEq, Repr

/-- An installed patch image's directory entry (04_engine_tiles.md R99). -/
structure McodeEntry where
  setId   : Nat
  pers    : Nat
  version : Nat
  floor   : Nat
  digest  : Bytes
  image   : Bytes := []            -- the installed patch image
deriving DecidableEq, Repr

/-- Chart state (03_chart.md R76) and the patch directory. -/
structure ChartState where
  running    : Option Chart := none
  image      : Bytes := []
  slotA      : Option ChartSlot := none
  slotB      : Option ChartSlot := none
  floor      : Nat := 0
  op         : Option ChartOp := none
  source     : Nat := 0
  lastReason : Nat := 0
  commitTime : Nat := 0
  noRoute    : Nat := 0
  fallback   : List Nat := []      -- groups whose fallback is in force
  mcode      : Table McodeEntry := []
  mcFloors   : Table Nat := []     -- installed floor of each SET_ID
  powerW     : Nat := 195          -- the limit in force
  powerNext  : Option Nat := none  -- a limit that waits for the tick
  powerJobs  : List Nat := []
  fullForce  : Nat := 0
  powerPend  : Bool := false
deriving DecidableEq, Repr

/-- States of a tile (TILE.STATUS.STATE, 04_engine_tiles.md R101). -/
inductive TileMode
  | absent | parked | idle | busy | draining | reconfiguring | fenced | selfTest
deriving DecidableEq, Repr

/-- The registers of a tile's datapath as one routine sees them; they are zeros as it begins (04_engine_tiles.md R77, R90). -/
structure Datapath where
  vec     : Table Bytes := []      -- the 32 vector registers of 64 lanes of 32 bits
  modulus : Table Bytes := []      -- the 8 modulus registers
  clmul   : Bytes := []            -- the carry-less multiplier
  sampler : Table Bytes := []      -- the two sampling units
  net     : Bytes := []            -- the permutation network
deriving DecidableEq, Repr

/-- Where the routine of a job stands on its tile (04_engine_tiles.md R77, R90): program counter, call stack, loop counters,
SRAM windows, REJECT flag and datapath. -/
structure TileCtx where
  job    : Nat
  pc     : Nat := 0
  calls  : List Nat := []          -- the newest first
  loops  : Table Nat := []         -- the 16 loop counters
  words  : Nat := 0
  reject : Bool := false
  base   : Nat := 0                -- first of its SRAM windows
  size   : Nat := 1                -- how many
  data   : Datapath := {}
  mem    : Table Bytes := []       -- its words of tile SRAM, by their offset in the windows (R77, R83)
  mark   : Nat := 0                -- when it last passed a safe point or was dispatched, on the elapsed count (R85)
deriving DecidableEq, Repr

/-- One engine tile (04_engine_tiles.md). -/
structure Tile where
  mode       : TileMode := .absent
  fence      : Nat := 0
  asg        : Option TileRec := none
  change     : Nat := 0
  mhz        : Nat := 0
  parked     : Bool := false
  setId      : Nat := 0
  mcPers     : Nat := 0
  mcVersion  : Nat := 0
  slots      : Table Nat := []       -- save slot -> suspended job
  jobs       : Nat := 0
  mcAddr     : Nat := 0
  mcKind     : Nat := 0
  mcCause    : Nat := 0
  mcCount    : Nat := 0
  resident   : List Nat := []        -- keyed slots whose state the tile holds, most recent first
  sha2       : Bool := false         -- a HASH tile's network is in SHA-2 mode
  returning  : Bool := false         -- ready to return to service at the next tick
  reload     : Bool := false         -- its running-chart personality must be reloaded (R73)
  target     : Nat := 0              -- the clock that a power limit aims at, in MHz; 0 for the clock in force (R291)
  lastFn     : Option Nat := none    -- the function whose job last wrote its SRAM (R30)
  store      : Bytes := []           -- the control store: 8,192 records of 25 bytes (R81)
  routines   : Table (Nat × Nat) := []   -- the entry table loaded with it: START and windows of each entry key (R79)
  ctxs       : List TileCtx := []    -- the routines of its running jobs
  saved      : Table TileCtx := []   -- what the save slots hold (R90)
  sram       : Table Nat := []       -- the function whose data an SRAM window holds; an unlisted window is scrubbed (R30)
  since      : Nat := 0              -- when it was last fenced, on the elapsed count (R97)
  bySafe     : Bool := false         -- fenced by the safe state alone (R426)
deriving DecidableEq, Repr

/-! ### Keys -/

/-- Kinds of key (09_key_store.md R204). -/
inductive KeyKind
  | secret | priv | pub
deriving DecidableEq, Repr

/-- The leaf state of a stateful key: the HBS record and the Helm's NEXT_LEAF (06, R135-R140). -/
structure Hbs where
  types      : List (Nat × Nat)         -- (LMS type, LM-OTS type) or (OID, layers) of each level
  total      : Nat
  block      : Nat
  leaseLo    : Nat := 0
  leaseHi    : Option Nat := none       -- a delegated range
  reserved   : Nat := 0                 -- RESERVED_END
  next       : Nat := 0                 -- NEXT_LEAF
  pendingTo  : Option Nat := none       -- a reservation being committed
  perTree    : Nat := 0                 -- leaves of a bottom tree
  ready      : Nat := 0                 -- leaves of bottom trees built so far
  preparing  : Bool := false
  holder     : Option Nat := none       -- the node that holds the private key of a delegated tree
  upper      : Bytes := []              -- the holder's signature of the delegated root
  given      : List Nat := []           -- bottom trees that this node does not use: delegated, or lost with their upper leaf; rising
  upperUsed  : Nat := 0                 -- leaves of the level above the bottom that the NVS has reserved (R135, R139)
  cs         : Table Bytes := []        -- the randomiser that each leaf above the bottom level signed its root with (R134)
deriving DecidableEq, Repr

/-- A live key (09_key_store.md R204). -/
structure Key where
  alg       : Nat
  kind      : KeyKind
  flags     : BitVec 8 := 0
  usage     : BitVec 32 := 0
  owner     : Nat
  expPol    : Nat := 1
  minAl     : Nat := 1
  limit     : Nat := 0                  -- INVOCATION_LIMIT; 0 means 2^64
  uses      : Nat := 0                  -- INVOCATIONS
  created   : Nat := 0
  parent    : Nat := 0
  material  : Bytes
  pubPart   : Bytes := []               -- the public key of a private key, as its keygen returned it
  invalid   : Bool := false             -- marked invalid by a failed hash check (R123)
  destroy   : Option Nat := none        -- the DESTROY job that waits for its pins
  ctr       : Nat := 0                  -- NONCE_CTR
  lease     : Option (Nat × Nat) := none      -- the cluster lease in force
  nextLease : Option (Nat × Nat) := none
  asked     : Bool := false             -- a job found no value left in its lease (17_meridian.md R403)
  hbs       : Option Hbs := none
deriving DecidableEq, Repr

/-- An NVS counter record (09_key_store.md R209). -/
structure CounterRec where
  ckpt    : Nat := 0
  uses    : Nat := 1048576
  pending : Option Nat := none          -- a checkpoint being committed (R181)
deriving DecidableEq, Repr

/-- A cached key: its first slot, its length in slots and its last use (09_key_store.md R211). -/
structure Cached where
  first : Nat
  len   : Nat
  used  : Nat
deriving DecidableEq, Repr

/-- A keyed-digest slot's binding (06_hash_signatures_and_digests.md R146). -/
structure Binding where
  key  : Nat          -- handle
  code : Nat
  cust : Bytes
  fn   : Nat
deriving DecidableEq, Repr

/-- The key store (09_key_store.md). -/
structure KeyStore where
  gens      : Table Nat := []           -- generation of each index (0 where unlisted)
  live      : Table Key := []
  scrubbing : List (Nat × Nat) := []    -- indices under a background scrub, each with its function (R270)
  counters  : Table CounterRec := []
  cache     : Table Cached := []
  partition : Table (Nat × Nat) := []   -- (BASE, SLOTS) of each function, in force
  partNext  : Table (Nat × Nat) := []   -- written, waiting for the tick
  quota     : Table Nat := []
  runHolds  : List (Nat × Nat × Nat) := []       -- runs reserved for waiting jobs: job, first slot, length (R159)
  slotGen   : Table Nat := []
  slots     : Table Binding := []
  created   : Nat := 0
  ready     : Bool := false
  quotaErr  : Bool := false
deriving DecidableEq, Repr

/-! ### Queues and jobs -/

/-- Queue states (QCFG.STATE.STATE, 10_job_rings.md R252). -/
inductive QMode
  | absent | enabled | fenced | quiescing | halted
deriving DecidableEq, Repr

/-- A queue pair (10_job_rings.md R222-R236, R252; 11_functions_and_sharing.md R258). -/
structure Queue where
  mode     : QMode := .absent
  fn       : Nat := 0
  lnum     : Nat := 0
  sqBase   : Nat := 0
  cqBase   : Nat := 0
  sqLog2   : Nat := 4
  cqLog2   : Nat := 4
  chained  : Bool := false
  safety   : Bool := false
  poll     : Bool := false
  prio     : Nat := 0
  vector   : Nat := 0
  modCount : Nat := 1
  modTime  : Nat := 0
  tailWord : Nat := 0
  sqTail   : BitVec 32 := 0
  sqHead   : BitVec 32 := 0
  cqHead   : BitVec 32 := 0
  cqTail   : BitVec 32 := 0
  reserved : Nat := 0
  reason   : Nat := 0
  revise   : Option (BitVec 32 × Nat) := none  -- a hold at the first entry of a range of that many entries
  tooLate  : Bool := false
  cqWait   : Bool := false
  cache    : List (BitVec 32 × Bytes) := []    -- its prefetch cache: entries read ahead of SQ_HEAD, by index (R233)
  chain    : Option Nat := none    -- the job whose chain is open
  skip     : Bool := false         -- the rest of an abandoned chain is being skipped (R515)
  started  : Bool := false         -- some entry has been consumed
  armed    : Bool := false         -- FORCE_COMPARE_FAIL (R46)
  armedAt  : Nat := 0              -- the job that armed it
  pendN    : Nat := 0              -- completions that count toward an interrupt
  pendAt   : Nat := 0
  isModule : Option Nat := none    -- the queue pair of an owner module
  actedTo  : Option (BitVec 32 × BitVec 32) := none   -- entries that a doorbell hold delayed: from, to (R472)
deriving DecidableEq, Repr

/-- Where a job comes from. -/
inductive JobSrc
  | ring (q : Nat)        -- a host queue or a module's queue
  | internal              -- the device's own work: preparation, authority, partner steps
deriving DecidableEq, Repr

/-- Where a job stands on its path (01_architecture.md; 10_job_rings.md R237). -/
inductive Phase
  | openChain | fetch | staged | filling | placed | waitInput | pooled | background | ended | delayed
deriving DecidableEq, Repr

/-- What the tile or core has done with one run. -/
inductive RunMode
  | waiting | running | suspended | ended | lost
deriving DecidableEq, Repr

/-- One run of a step, placed on a server (12_deadlines.md R283). -/
structure Run where
  server  : Server
  cycles  : Nat                 -- charged cycles, or ns on a Helm core
  effAt   : Nat                 -- effective deadline on the elapsed count; 0 in C7
  windows : Nat
  mode    : RunMode := .waiting
  started : Nat := 0
  done    : Nat := 0            -- cycles executed before a suspension
  lane    : Option Nat := none  -- SHA-2 lane 0-15, Keccak unit 16-23; none for a whole tile
deriving DecidableEq, Repr

/-- What a step of a job computes. -/
inductive StepKind
  | main | preHash | verifyAfterSign | authVerify | decision | endorse | endorse2 | seal
deriving DecidableEq, Repr

/-- One step of a job (12_deadlines.md R281). -/
structure JobStep where
  kind  : StepKind
  pers  : Nat                   -- personality; 0 for a Helm core
  group : Nat                   -- routed group; 32 for pseudo-group 0x20
  runs  : List Run
  cmp   : Bool := false         -- at AL2 it ends with a comparison (04_engine_tiles.md R94)
  entry : Nat := 0              -- the entry key of its routine; 0 for a step without one (04_engine_tiles.md R79)
  mode  : Option Bool := none   -- the mode a step of a whole HASH tile runs in: SHA-2 or Keccak (02_operations_catalogue.md R56)
deriving DecidableEq, Repr

/-- A request that a tile acts on at a safe point (04_engine_tiles.md R89). -/
inductive Request
  | none | preempt | abort | fence | safe
deriving DecidableEq, Repr

/-- A durable or posted commit of a job (04_engine_tiles.md R86). -/
inductive Commit
  | none | needed | posted | acked
deriving DecidableEq, Repr

/-- What a job's operation has computed and not yet released. -/
structure JobOut where
  status : Nat := 0
  output : Bytes := []
  result : Nat := 0
  ret    : Bytes := []
  extend : Option (Nat × Bytes) := none   -- a logbook register and its data (R149)
  keys   : List (Nat × Key) := []         -- keys that come to life with a good end (R201)
  bind   : Option (Nat × Binding) := none -- a keyed slot that is loaded
  drop   : Option Nat := none             -- a keyed slot that is dropped
  badKey : Bool := false                  -- the key named failed its hash check and is marked invalid (R123)
  seen   : Nat := 0                       -- input bytes that it rests on (R293)
  tree   : Option Nat := none             -- the stateful key whose next tree it prepares (06_hash_signatures_and_digests.md R139)
  gone   : Bool := false                  -- the device's own step, which leaves the table when it has ended
deriving DecidableEq, Repr

/-- One job: an entry of the in-flight table, or the device's own work (01_architecture.md R23). -/
structure Job where
  src       : JobSrc := .internal
  fn        : Nat := 0
  opcode    : Nat := 0
  flags     : BitVec 16 := 0
  tag       : BitVec 32 := 0
  handle    : Nat := 0
  partner   : Nat := 0
  cls       : Nat := 0
  srcAddr   : Nat := 0
  dst       : Nat := 0
  totalLen  : Nat := 0
  fragCount : Nat := 0
  aux       : Nat := 0
  param     : BitVec 64 := 0
  seq       : Nat := 0                       -- order of consumption
  entries   : Nat := 1
  pieces    : List (Nat × Nat) := []
  phase     : Phase := .fetch
  quadrant  : Option Nat := none
  al2       : Bool := false
  input     : Bytes := []
  auxIn     : Bytes := []
  staged    : Nat := 0                       -- staging bytes held
  overflow  : Nat := 0                       -- overflow-region bytes held
  windowed  : Bool := false
  early     : Bool := false                  -- a windowed chain that was fetched before its LAST (R293)
  uncovered : Bool := false                  -- it waited for its input or for a C7 job that pins its key, or its release was slowed (R295, R482)
  postNs    : Nat := 0                       -- its post-latency (R280)
  arrived   : Nat := 0
  accepted  : Option Nat := none
  acceptSeq : Nat := 0
  deadline  : Option Nat := none
  pertAcc   : Bool := false                  -- accepted while perturbation was enabled
  units     : List (Nat × Nat × Nat) := []   -- (group, units held, of them borrowed)
  relBytes  : Nat := 0
  steps     : List JobStep := []
  conditional : Nat := 0                     -- conditional cycles charged (R280)
  pin       : Option Nat := none             -- key index pinned
  slot      : Option Nat := none             -- keyed slot used
  newIdx    : List Nat := []                 -- key indices reserved
  ctr       : Option Nat := none             -- nonce counter value assigned
  leaf      : Option Nat := none             -- leaf assigned
  waitFor   : Option Nat := none             -- a reservation by an earlier job that it waits for
  commit    : Commit := .none
  logRes    : Option Nat := none             -- a logbook reservation held
  zone      : Bool := false                  -- inside a no-return zone
  atEnd     : Bool := false                  -- a run has reached END
  request   : Request := .none
  overrun   : Bool := false                  -- past its rejection budget
  inj       : Bool := false
  acted     : Bool := false                  -- a perturbation control acted on it
  draw      : Nat := 0                       -- first DRBG byte of its randomness
  out       : Option JobOut := none
  released  : Nat := 0
  zeroed    : Bool := false
  provisional : Bool := false                -- PROVISIONAL of the completion (08, R186)
  al2Done   : Bool := false
  status    : Nat := 0
  result    : Nat := 0
  ret       : Bytes := []
  delayEnd  : Nat := 0
  stalled   : Bool := false                  -- waits for input at a segment safe point (R293)
  runWait   : Bool := false                  -- waits in staging for a run of cache slots (07_code_and_classical.md R159)
  order     : Option Nat := none             -- the order it carries (family 0x9)
  bg        : Option (Nat × Nat) := none     -- the queue a background command waits for, and the ABORTED jobs counted
deriving DecidableEq, Repr

/-! ### Functions -/

/-- A background administrative operation on a function (11_functions_and_sharing.md R257, R266). -/
structure Quiesce where
  job      : Option Nat
  abort    : Bool
  other    : Nat := 0
  aborted  : Nat := 0
deriving DecidableEq, Repr

/-- A change of share that waits for the tick (R265). -/
structure ShareChange where
  jobs    : List Nat                       -- the SET_SHARE jobs that complete at the tick
  shares  : List (Nat × Nat)
  limits  : Option (Nat × Nat × Bool)     -- FETCH_WEIGHT, MAX_QUEUES, SAFETY_ALLOWED
deriving DecidableEq, Repr

/-- A completion in a perturbed function's delay line, or a held doorbell (21_limits_perturbation.md R472). -/
structure HeldDoorbell where
  queue : Nat
  kind  : Nat            -- 0 a tail, 1 a completion head, 2 a REVISE
  value : BitVec 32
  count : Nat := 0
  due   : Nat
deriving DecidableEq, Repr

/-- One function (11_functions_and_sharing.md; 21_limits_perturbation.md R475). -/
structure Fn where
  shares    : List Nat              -- 33 shares: groups 0-31 and pseudo-group 0x20
  noBorrow  : List Nat := []        -- groups where a lowered share suspends borrowing (R287)
  weight    : Nat := 16
  maxQueues : Nat := 63
  safety    : Bool := false
  enabled   : Bool := false         -- a VF that SR-IOV has enabled; PF0 always
  flr       : Bool := false
  flrDone   : Bool := false
  flrJobs   : List Nat := []        -- background commands that an FLR took over (R268)
  scrub     : Bool := false
  quiesce   : Option Quiesce := none
  quiesced  : Bool := false
  change    : Option ShareChange := none
  deficit   : Nat := 0
  lastQ     : Nat := 0              -- the queue of the function served last
  pert      : Bool := false
  pertNext  : Option Bool := none
  ctrl      : BitVec 5 := 0
  delayUs   : Nat := 0
  jobsPerMs : Nat := 1
  holdUs    : Nat := 0
  scale     : Nat := 1
  seed      : BitVec 32 := 0
  rng       : BitVec 32 := 0
  msStart   : Nat := 0
  msCount   : Nat := 0
  held      : List HeldDoorbell := []
  throttled : Bool := false         -- a throttle has held its queues since its last consumption
  backlog   : List (Nat × Nat × Bytes × Nat) := []   -- partner, first SEQ, message, arrival
  latch     : Table (BitVec 32) := []       -- R18: the latched upper half of each register, by its offset
  wideLatch : Table Bytes := []             -- R369, R451: the latched bytes of each wide register, by its offset
  lowHalf   : Table (BitVec 32) := []       -- R18: the lower half of each 64-bit write in progress, by its offset
  mask      : List Nat := []        -- masked MSI-X vectors
  pba       : List Nat := []        -- vectors with a pending bit
deriving DecidableEq, Repr

/-! ### Logbook -/

/-- A write that waits in front of a logbook register (15_logbook_attestation.md R355, R357): a posted extend with
its source, an epoch roll or an owner change. -/
inductive LogWork
  | extend (data : Bytes) (job : Option Nat)
  | event (type : Nat) (body : Bytes)
  | roll
  | ownerChange (old new : Nat)
deriving DecidableEq, Repr

/-- A logbook register (R352). -/
structure LogReg where
  value    : Bytes := List.replicate 48 0
  count    : Nat := 0
  epoch    : Nat := 0
  reserved : List Nat := []                    -- the jobs that hold a reservation
  barrier  : List (List Nat × LogWork) := []   -- rolls and owner changes, each with the jobs it still waits for
  owner    : Nat := 0
deriving DecidableEq, Repr

/-- The logbook and the audit records (15_logbook_attestation.md R352-R361). -/
structure Logbook where
  regs      : Table LogReg := []
  posted    : List (Nat × LogWork) := []        -- extends on their way: (register, what)
  seq       : Nat := 0
  prev      : Bytes := List.replicate 48 0
  records   : List Bytes := []                  -- written and not yet exported, oldest first
  regionMib : Nat := 4096                       -- sizing now
  nextMib   : Option Nat := none                -- the value the NVS holds
  nearFull  : Bool := false
  headErr   : Bool := false
  exportOn  : Bool := false
  base      : Nat := 0
  log2      : Nat := 10
  head      : BitVec 32 := 0
  tail      : BitVec 32 := 0
  lost      : Nat := 0
  gapFirst  : Option (Nat × Nat) := none        -- first lost AUDIT_SEQ and how many, not yet recorded
deriving DecidableEq, Repr

/-! ### Authority -/

/-- A signer entry of a policy (13_authority_service.md R304). -/
structure Signer where
  handle   : Nat
  operator : Nat
  enabled  : Bool
  roles    : BitVec 32
deriving DecidableEq, Repr

/-- A rule of a policy (R305). -/
structure Rule where
  id       : Nat
  flags    : BitVec 8
  kinds    : BitVec 8
  lo       : Nat
  hi       : Nat
  group    : Nat
  cls      : Nat
  fanout   : Nat
  masks    : List (BitVec 32)
  mins     : List Nat
  winStart : Nat
  winEnd   : Nat
  dow      : BitVec 8
  permit   : BitVec 8
  permitMs : Nat
  bucket   : Nat
  tBucket  : Nat
  refill   : Nat
  tRefill  : Nat
  graceMs  : Nat
deriving DecidableEq, Repr

/-- A policy image and its decoded view (R303). -/
structure Policy where
  image     : Bytes
  version   : Nat
  activate  : Nat
  officerK  : Nat
  officers  : List (Nat × Nat)       -- handle, operator
  fleetAlg  : Nat
  fleetKey  : Nat
  fleetKey2 : Nat
  maxValid  : Nat
  timeRoles : BitVec 32
  timeM     : Nat
  signers   : List Signer
  rules     : List Rule
deriving DecidableEq, Repr

/-- A token bucket (R310). -/
structure Bucket where
  rule   : Nat
  target : Option (Nat × Nat)    -- target kind and number; none for a rule's own bucket
  tokens : Nat
  last   : Nat
  used   : Nat
deriving DecidableEq, Repr

/-- An entry of the sequence table (R312). -/
structure SeqEntry where
  kind     : Nat
  target   : Nat
  last     : Nat
  notAfter : Nat
  used     : Nat
deriving DecidableEq, Repr

/-- An order on its way (R306-R315). -/
structure Order where
  job       : Option Nat          -- the job that carries it
  work      : Nat                 -- the device's own job that runs its steps
  console   : Option Nat          -- the console partner it came from
  timeSet   : Bool
  envelope  : Bytes
  policy    : Policy
  rule      : Option Rule
  arrival   : Nat
  accepted  : Bool := false
  dst       : Nat := 0
deriving DecidableEq, Repr

/-- A decision record (R320). -/
structure Decision where
  orderId   : Nat
  auditSeq  : Nat
  reason    : Nat
  state     : Nat
  respStat  : Nat := 0
  sent      : Nat := 0
  pending   : List Nat := []      -- members still to be sent to
  time      : Nat
  respTime  : Nat := 0
  respDig   : Bytes := List.replicate 48 0
  target    : Nat × Nat := (0, 0)
  notAfter  : Nat := 0
  graceMs   : Nat := 0
  expects   : Bool := false
  console   : Option Nat := none
  fanout    : Nat := 0
  endorsed  : Bytes := []
deriving DecidableEq, Repr

/-- A permit line's holder (R317, R318). -/
structure Permit where
  endAt    : Nat := 0             -- on the Binnacle's own timer
  endTime  : Nat := 0             -- as Almanac time
  auditSeq : Nat := 0
deriving DecidableEq, Repr

/-- The authority service (13_authority_service.md). -/
structure Authority where
  running   : Option Policy := none
  next      : Option Policy := none
  floor     : Nat := 0
  seqs      : List SeqEntry := []
  buckets   : List Bucket := []
  orders    : Table Order := []
  nextOrder : Nat := 0
  decisions : List Decision := []      -- newest first, at most 65,536
  permits   : Table Permit := []
deriving DecidableEq, Repr

/-! ### Partners, ports -/

/-- One direction's reassembly (14_partners_ports_time.md R332). -/
structure Reassembly where
  msgId   : Nat
  type    : Nat
  count   : Nat
  frags   : Table Bytes
  firstAt : Nat
  firstSeq : Nat
deriving DecidableEq, Repr

/-- Session keys of one epoch (R338, R341). -/
structure Epoch where
  num       : Nat
  keyIn     : Bytes
  keyOut    : Bytes
  ivIn      : Bytes
  ivOut     : Bytes
  nextSeq   : Nat := 1
  nextMsg   : Nat := 0
  high      : Nat := 0
  window    : BitVec 1024 := 0
  live      : Nat := 0            -- when it went live
  frames    : Nat := 0            -- the larger count of frames of a direction
deriving DecidableEq, Repr

/-- A handshake in the handshake table (R337, R339). -/
structure Handshake where
  initiator : Bool
  job       : Option Nat
  epoch     : Nat
  initMsg   : Bytes
  replyMsg  : Bytes := []
  secret    : Bytes := []          -- the ephemeral secrets of this side
  okm       : Bytes := []
  sentAt    : Nat
  tries     : Nat := 0
deriving DecidableEq, Repr

/-- A registered partner (R334, R344). -/
structure Partner where
  key       : Nat
  localKey  : Nat
  owner     : Nat
  port      : Nat
  flags     : BitVec 8
  remoteId  : Nat
  neighbour : Nat
  template  : Nat
  rport     : Nat
  rip       : Bytes
  groups    : List Nat
  armed     : Bool := false
  lastEpoch : Nat := 0                        -- KEY_EPOCH of its last Sounding
  session   : Option Epoch := none
  old       : Option (Epoch × Nat) := none    -- the old epoch and when its grace ends
  hs        : Option Handshake := none
  inSlot    : Bool := false                   -- its context holds a Context Directory slot
  spilled   : Bool := false
  moving    : Bool := false                   -- an eviction or restore is under way
  moveNs    : Nat := 0                        -- its time in ns, charged to what waits for it (02_operations_catalogue.md R58)
  used      : Nat := 0
  reas      : Option Reassembly := none
  scrub     : Bool := false                   -- deregistered, its scrub not ended
  dead      : Bool := false                   -- unusable after its owner's FLR
deriving DecidableEq, Repr

/-- An accepted field frame that its type's command handles (log 9). -/
structure Ingress where
  port    : Nat
  partner : Nat
  frame   : Bytes          -- header, payload, tag
  at_     : Nat
  taken   : Bool := false  -- its step is admitted, and it waits for its context's restore (R345)
deriving DecidableEq, Repr

/-- A field port (R351). -/
structure Port where
  jumbo     : Bool := false
  link      : Bool := false
  role      : Nat := 0
  mac       : BitVec 48 := 0
  etherType : BitVec 16 := 0x88B5
  udpPort   : Nat := 34997
  rx        : Table Bytes := []
  tx        : Table Bytes := []
  rxFull    : BitVec 8 := 0
  oneStep   : BitVec 4 := 0
  txGo      : BitVec 4 := 0       -- transmit buffers that wait to be sent
  txDone    : BitVec 4 := 0
  txTs      : Table Nat := []
  stopped   : Bool := false       -- egress stopped by a fence or a role change
  safeStop  : Bool := false       -- egress stopped by the safe state
deriving DecidableEq, Repr

/-- Partners and ports. -/
structure Partners where
  table     : Table Partner := []
  ports     : Table Port := []
  mode1     : Bool := false             -- MODE in force
  modeNvs   : Bool := false             -- MODE as written, for the next reset
  templates : Table Bytes := []
  ipId      : Table Nat := []
  neighbours : Table Bytes := []
  hsClass   : Nat := 3
  inClass   : Nat := 2
  ingress   : List Ingress := []
  full      : Nat := 0
  spills    : Nat := 0
deriving DecidableEq, Repr

/-! ### Service complex -/

/-- One Helm core, with its Pelorus registers (16_service_complex.md R370, R377-R380). -/
structure Core where
  stopped : Bool := false
  bySafe  : Bool := false                  -- stopped by the safe state alone
  v       : Table (BitVec 128) := []
  x       : Table (BitVec 64) := []
  pmod    : BitVec 31 := 0
  frm     : BitVec 3 := 0
  fflags  : BitVec 5 := 0
  xs      : BitVec 2 := 1
  exc     : Option (Nat × Nat) := none     -- the last exception: cause and faulting address
deriving DecidableEq, Repr

/-- An owner module (R372-R376). -/
structure Module where
  state   : Nat := 0
  reason  : Nat := 0
  cause   : Nat := 0
  addr    : Nat := 0
  ident   : Nat := 0
  image   : Nat := 0
  memMib  : Nat := 0
  codeLen : Nat := 0
  region  : List Host.Cell := []
  ring    : Option Nat := none      -- its queue
  waiting : Option Nat := none      -- a WAIT in progress: its end
  owner   : Bool := false           -- it has been loaded
deriving DecidableEq, Repr

/-- A mailbox (R381, R382). -/
structure Mbox where
  word     : BitVec 32 := 0
  full     : Bool := false
  dropped  : Bool := false
  read     : Bool := false
  recalled : Bool := false
  miss     : Bool := false
  cross    : Bool := false
  since    : Nat := 0
  latch    : Option Bool := none      -- VALID latched by a lower-half read
deriving DecidableEq, Repr

/-- Helm cores, modules, mailboxes, locks (16_service_complex.md). -/
structure Service where
  cores    : Table Core := []
  modules  : Table Module := []
  handover : Bool := false
  done     : Bool := false
  floor    : Nat := 0
  next     : Option Bool := none
  mboxes   : Table Mbox := []
  replies  : List (BitVec 32) := []
  woken    : List Master := []          -- wake events raised, newest first
  locks    : Table Nat := []            -- lock -> owner
  lockErr  : Nat := 0
  helmMem  : List Host.Cell := []       -- memory as VLD and VST see it
deriving DecidableEq, Repr

/-! ### Meridian -/

/-- States of a link (MER.LINK_STATUS.STATE, 17_meridian.md R412). -/
inductive LinkMode
  | absent | down | training | handshake | up
deriving DecidableEq, Repr

/-- One Meridian link (17_meridian.md R389-R395). -/
structure Link where
  enable   : Bool := false
  mode     : LinkMode := .down
  reason   : Nat := 0
  peer     : Nat := 0
  peerDev  : Bytes := []
  fails    : Nat := 0
  keyIn    : Bytes := []
  keyOut   : Bytes := []
  ivIn     : Bytes := []
  ivOut    : Bytes := []
  ctrOut   : Nat := 1
  ctrIn    : Nat := 0
  upAt     : Nat := 0
  sendSeq  : Nat := 0
  recvSeq  : Nat := 0                -- next SEQ expected
  replay   : List (Nat × Bytes × Nat) := []   -- SEQ, flit, times resent; oldest first
  keyInOld : Bytes := []             -- the keys before the last renewal, for messages still under way
  ivInOld  : Bytes := []
  ctrInOld : Nat := 0
  downAt   : Nat := 0                -- when it last went down
  credit0  : Nat := 128
  credit1  : Nat := 128
  queued   : List Bytes := []        -- message flits that wait for credit: FLAGS, then the payload
  owed0    : Nat := 0                -- credits to return
  owed1    : Nat := 0
  part0    : Bytes := []             -- the message being received on VC0
  part1    : Bytes := []
  out      : List Bytes := []        -- flits sent, newest first
  block    : List Bytes := []        -- the flits of the line block being formed (R390)
  blocks   : BitVec 32 := 0          -- BLOCK_COUNT of that block
  lanes    : List (List (BitVec 10)) := []   -- the block last sent, as the four lanes carry it
deriving DecidableEq, Repr

/-- An entry of the roster (R396). -/
structure RosterEntry where
  digest : Bytes
  node   : Nat
  flags  : BitVec 8
deriving DecidableEq, Repr

/-- An installed roster. -/
structure Roster where
  image     : Bytes
  version   : Nat
  clusterId : Nat
  entries   : List RosterEntry
deriving DecidableEq, Repr

/-- A received message that its type's command handles (log 9). -/
structure Message where
  link : Nat
  src  : Nat
  type : Nat
  body : Bytes
deriving DecidableEq, Repr

/-- A request that waits for its response (R400). -/
structure MerReq where
  id      : Nat
  dst     : Nat
  type    : Nat
  body    : Bytes
  sentAt  : Nat
  first   : Nat
  tag     : Bytes := []
  tried   : List Nat := []           -- pilot members that did not answer (R402)
deriving DecidableEq, Repr

/-- A mark proposal being counted (R401). -/
structure Proposal where
  name    : Bytes
  value   : Nat
  acks    : List Nat
  best    : Nat
  lease   : Option (Nat × Nat × Nat) := none    -- requester, REQ_ID, start of the range
deriving DecidableEq, Repr

/-- A tethered device as its lead sees it (R408, R412). -/
structure Tether where
  node   : Nat := 0
  valid  : Bool := false
  online : Bool := false
  budget : Nat := 4
deriving DecidableEq, Repr

/-- The cluster (17_meridian.md). -/
structure Cluster where
  links     : Table Link := []
  roster    : Option Roster := none
  node      : Nat := 0
  pilotSet  : Bool := false
  member    : Bool := false
  tethered  : Bool := false
  lead      : Option Nat := none          -- the lead's node of a tethered device
  loadReason : Nat := 0
  marks     : List (Bytes × Nat) := []
  caps      : List (Bytes × Nat) := []    -- smallest INVOCATION_LIMIT seen of each tag
  proposals : List Proposal := []
  requests  : List MerReq := []
  answers   : List (Nat × Nat × Nat × Bytes) := []   -- source, REQ_ID, type, body already answered
  inbox     : List Message := []
  tether    : Table Tether := []
  tetherOn  : Bool := false                -- MER.TETHER_CFG.ENABLE in the NVS
  bar4      : Bool := false                -- BAR4 implemented since the last reset
  proposed  : Table Nat := []              -- the value last proposed for each replicated floor (R402)
  rosterIn  : Bytes := []                  -- the newer roster as far as fetched
  tetherOut : List (Option Nat × Nat × Bytes) := []   -- writes of a tethered device not yet sent: vector, address, data
  tetherAsk : List (Nat × Nat) := []       -- host ranges that a tethered device reads and has not yet asked its lead for
deriving DecidableEq, Repr

/-! ### Faults -/

/-- One fault source (18_faults_safety.md R417, R434). -/
structure Source where
  n       : Nat
  w       : Nat
  action  : Nat
  count   : Nat := 0
  start   : Nat := 0
  attn    : Bool := false
  fenced  : Bool := false
  present : Bool := false
  total   : Nat := 0
  wet     : Bool := false
  sub     : Nat := 0
  lastAt  : Nat := 0
  lastSub : Nat := 0
  real    : Bool := false
  inj     : Bool := false
  conseq  : Bool := false
  dry     : Bool := false
  aux     : Nat := 0
  rid     : Nat := 0
  cycle   : Option Nat := none                -- the collector cycle of the last record from outside (R414)
  injCyc  : Bool := false                     -- that record came from FLT.FORCE alone
  count0  : Nat := 0                          -- COUNT and the window's start before that record
  start0  : Nat := 0
deriving DecidableEq, Repr

/-- A reaction (R419, R435). -/
structure Reaction where
  id     : Nat := 0
  source : Nat := 0
  cls    : Nat := 0
  state  : Nat := 0
  start  : Nat := 0            -- Almanac time
  began  : Nat := 0            -- elapsed count
  ack    : Option Nat := none
  back   : Option Nat := none  -- when the unit left the fence
  endAt  : Nat := 0            -- Almanac time of the window's close, 0 while open
  inj    : Bool := false
deriving DecidableEq, Repr

/-- The safe state (R423-R430). -/
structure Safe where
  on        : Bool := false
  halt      : Bool := false
  resetOnly : Bool := false
  multi     : Bool := false
  first     : Nat := 0
  entry     : Nat := 0
  reaction  : Nat := 0
  challenge : Bytes := []
  inj       : Bool := false
  gates     : List (Nat × Bool) := []    -- closed release gates (4 is the Helm gate); true when closed for the safe state
deriving DecidableEq, Repr

/-- The collector (18_faults_safety.md). -/
structure Faults where
  sources  : Table Source := []
  reacts   : Table Reaction := []
  nextId   : Nat := 1
  forceDen : Bool := false
  cfgDen   : Bool := false
  safe     : Safe := {}
deriving DecidableEq, Repr

/-! ### SPDM, host port -/

/-- An SPDM connection on one transport (15_logbook_attestation.md R364). -/
structure Spdm where
  version    : Nat := 0
  stage      : Nat := 0           -- 0 none, 1 version, 2 capabilities, 3 algorithms
  transcript : Bytes := []
  chunkIn    : Option (Nat × Nat × Bytes) := none    -- handle, next sequence number, bytes so far
  chunkOut   : Option (Nat × Nat × Bytes) := none
  limit      : Nat := 65536       -- the requester's DataTransferSize
deriving DecidableEq, Repr

/-- A secured SPDM session. -/
structure SpdmSession where
  transport : Transport
  id        : Nat
  finished  : Bool := false       -- FINISH has been answered
  secret    : Bytes := []         -- the DHE shared secret
  updates   : Nat := 0            -- key updates made
deriving DecidableEq, Repr

/-- The host port (22_registers.md). -/
structure HostPort where
  gen      : Nat := 0
  width    : Nat := 0
  cxl      : Bool := false
  cache    : Bool := false
  budget   : Nat := 0             -- release budget in force, MB/s
  budgetNext : Option Nat := none
  ari      : Bool := false        -- ARI Capable Hierarchy (R492)
  numVfs   : Nat := 0
  d3hot    : Bool := false
  spdm     : Table Spdm := []
  sessions : List SpdmSession := []
  nextSess : Nat := 1
  doeIn    : Bytes := []          -- the data object that the host is writing to the DOE mailbox
  doeObj   : Bytes := []
  doeErr   : Bool := false
  doeIrq   : Bool := false
  lastRead : BitVec 64 := 0       -- the value that the last read of a register returned to its reader
  reads    : List (Nat × Nat × Bool) := []     -- reads of BAR0 that wait behind a held doorbell (R472): function, offset, 64 bits
  readFaults  : List (Nat × Nat × Nat) := []   -- host ranges (address, length) whose reads fail, with the kind of R240
  writeFaults : List (Nat × Nat) := []         -- host ranges that cannot be translated or written
  pmem0    : Nat := 0
  pmem1    : Nat := 0
deriving DecidableEq, Repr

/-! ### Private memory (01_architecture.md R32-R35) -/

/-- A 64-byte line as the device behind its port holds it (R33). -/
structure PLine where
  cipher : Bytes
  mac    : Bytes
deriving DecidableEq, Repr

/-- The counter block of a group of 64 lines (R34). -/
structure CtrBlock where
  major  : Nat := 0
  minors : Table Nat := []       -- 7 bits each, 0 where unlisted
deriving DecidableEq, Repr

/-- Private memory, and the sealed key records of the NVS. -/
structure PrivMem where
  lines   : Table PLine := []      -- by data address / 64
  blocks  : Table CtrBlock := []   -- by data address / 4,096
  tree    : Table Bytes := []      -- nodes by level and index; the root stands on die
  again   : Table Nat := []        -- group re-encryptions of each port (22_registers.md R484)
  nonce   : Nat := 0               -- records sealed so far (09_key_store.md R199)
  nvsKeys : Table Bytes := []      -- the records of persistent keys, by index (09_key_store.md R203)
deriving DecidableEq, Repr

/-- What the device has put out, newest first. -/
inductive Output
  | msix (fn vector : Nat)
  | frame (port : Nat) (bytes : Bytes)
  | spdm (tr : Transport) (bytes : Bytes)
  | recovery (port : RcvPort) (bytes : Bytes)
  | uart (text : String)
  | neighbour (bytes : Bytes)
  | tap (bytes : Bytes)
  | ats (fn : Nat)
  | call (module a0 a1 : Nat)
deriving DecidableEq, Repr

/-- The whole device. -/
structure State where
  variant  : Variant := .pz8840
  grade    : Grade := .ix
  lc       : LifeCycle := {}
  time     : TimeState := {}
  pins     : PinState := {}
  boot     : BootState := {}
  flash    : Flash := {}
  progress : Table Progress := []
  regs     : Table Nat := []
  chart    : ChartState := {}
  tiles    : Table Tile := []
  queues   : Table Queue := []
  jobs     : Table Job := []
  nextSeq  : Nat := 0
  acceptSeq : Nat := 0
  lastServed : Nat := 65536             -- the queue served last in the round robin; 65536 while none has been
  lastFn   : Nat := 65536              -- the function served last; 65536 while none has been (11_functions_and_sharing.md R262)
  overflowMib : Nat := 2048            -- size of the staging overflow region in force (12_deadlines.md R297)
  fns      : Table Fn := []
  keys     : KeyStore := {}
  log      : Logbook := {}
  auth     : Authority := {}
  partners : Partners := {}
  service  : Service := {}
  cluster  : Cluster := {}
  faults   : Faults := {}
  host     : HostPort := {}
  pmem     : PrivMem := {}
  hostMem  : List Host.Cell := []
  draws    : Nat := 0
  outbox   : List Output := []
  pending  : List Instr := []
deriving DecidableEq, Repr

/-- Why the model stops. -/
inductive Fault
  /-- A command names a thing that the spec's numbering does not have (a tile above 95, a source above 511, a
  mailbox above 517, a job that does not exist). Raised by the command's meaning; safe: the device has no such step. -/
  | noSuchIndex
deriving DecidableEq, Repr

/-- Why a command has no meaning here. -/
inductive Refusal
  /-- The command has no meaning yet. Raised by the dispatch only; safe. -/
  | notModelled (mnemonic : String)
deriving DecidableEq, Repr

/-- The device as power-on leaves it, before its boot: every sub-structure at the reset values its chapter gives,
non-volatile stores erased and OTP blank (assumption logs 2, 3). -/
def State.reset : State := {}

end Sys2Proof.Machine
end

