-- ==== Sys2Proof/WellFormed.lean ====
section
/-! DEFINITION. Which commands are well formed: each names only things that the spec's numbering has. -/

namespace Sys2Proof

/-- Engine tiles are 0-95 (01_architecture.md R19). -/
def okTile (n : Nat) : Bool := decide (n < 96)
/-- Permit lines are 0-7 (13_authority_service.md R317). -/
def okPermit (n : Nat) : Bool := decide (n < 8)
/-- Fault sources are 0-511 (18_faults_safety.md R434). -/
def okSource (n : Nat) : Bool := decide (n < 512)
/-- Helm cores are 0-7 (16_service_complex.md R370). -/
def okCore (n : Nat) : Bool := decide (n < 8)
/-- PCIe functions are PF0 and VF1-VF255 (11_functions_and_sharing.md). -/
def okFn (f : Nat) : Bool := decide (f < 256)
/-- A VF is 1-255. -/
def okVf (f : Nat) : Bool := decide (0 < f && f < 256)
/-- Function codes run to 0x101 (11_functions_and_sharing.md). -/
def okFnCode (f : Nat) : Bool := decide (f ≤ 0x101)
/-- Global queue IDs are 0-4,095 (10_job_rings.md R252). -/
def okQueue (q : Nat) : Bool := decide (q < 4096)
/-- Partner IDs have 24 bits (10_job_rings.md R222). -/
def okPartner (p : Nat) : Bool := decide (p < 2 ^ 24)
/-- Field ports are 0-3. -/
def okPort (p : Nat) : Bool := decide (p < 4)
/-- Meridian links are 0-3. -/
def okLink (k : Nat) : Bool := decide (k < 4)
/-- Owner modules are 0 and 1. -/
def okModule (m : Nat) : Bool := decide (m < 2)
/-- Mailboxes are 0-517 (16_service_complex.md R381). -/
def okMbox (n : Nat) : Bool := decide (n < 518)
/-- A tile or a Helm core. -/
def okServer : Server → Bool
  | .tile n => okTile n
  | .core c => okCore c
/-- A master of the mailboxes. -/
def okMaster : Master → Bool
  | .host f => okFn f
  | .runtime => true
  | .module m => okModule m
  | .binnacle => true

/-- A well-formed command. -/
def Instr.wellFormed : Instr → Bool
  | .porNAssert _ _ _ => true
  | .perstNAssert _ _ => true
  | .deviceReset => true
  | .landfallReset => true
  | .hotReset _ => true
  | .boot _ => true
  | .supply _ _ _ => true
  | .clockLoss _ _ => true
  | .temperatureLimit _ _ _ => true
  | .safeReqNEdge _ _ => true
  | .chatterEdge _ _ => true
  | .held _ => true
  | .permitMismatch n _ _ _ => okPermit n
  | .faultEvent src sub aux _ _ => okSource src && decide (sub < 256) && decide (aux < 65536)
  | .fenceAck src _ => okSource src
  | .fenceAckTimeout src _ => okSource src
  | .conseqWindowClose _ _ => true
  | .fltRelease _ => true
  | .fltForce src _ => okSource src
  | .fltCfgWrite src _ => okSource src
  | .attnClear src => okSource src
  | .safeCtrlEnter => true
  | .helmCoreRecovery core _ _ => okCore core
  | .tick => true
  | .chartDrainComplete _ => true
  | .tileReconfigComplete n _ _ _ => okTile n
  | .tileReloadComplete n _ _ _ => okTile n
  | .msixModTimer q _ => okQueue q
  | .msixUnmask fn vec => okFn fn && decide (vec < 2048)
  | .admqEnable fn _ => okFn fn
  | .dbSqTail fn idx _ _ => okFn fn && okQueue idx
  | .dbCqHead fn idx _ => okFn fn && okQueue idx
  | .dbRevise fn idx _ countM1 => okFn fn && okQueue idx && decide (countM1 < 65536)
  | .tailWordChange q _ _ => okQueue q
  | .consumeEntry _ => true
  | .fetchStage _ _ => true
  | .windowInputArrival _ _ _ => true
  | .admission _ _ => true
  | .keyCacheFillDone _ _ _ => true
  | .contextSpillDone partner _ _ => okPartner partner
  | .dispatch u _ => okServer u
  | .safePointAction _ _ => true
  | .watchdog _ _ addr _ => decide (addr < 8192)
  | .machineCheck n cause addr _ _ => okTile n && decide (1 ≤ cause && cause ≤ 8) && decide (addr < 8192)
  | .commitAck _ _ => true
  | .commitTimeout _ addr _ => decide (addr < 8192)
  | .logbookExtend _ => true
  | .runEnd _ _ _ => true
  | .segmentRelease _ _ _ => true
  | .completionWrite _ _ => true
  | .pertCompletionDelay _ _ => true
  | .pertDoorbellHold fn _ => okFn fn
  | .hbsPreparation key _ => decide (key < 2 ^ 24)
  | .destroyScrub _ _ => true
  | .vfScrubComplete f _ => okVf f
  | .createQueue _ => true
  | .destroyQueue _ => true
  | .enableQueue _ => true
  | .setShare _ => true
  | .quiesceFunction _ => true
  | .queryFunction _ => true
  | .loadChart _ => true
  | .retile _ => true
  | .queryChart _ => true
  | .safeExit _ _ => true
  | .queryProgress _ => true
  | .setPowerLimit _ => true
  | .setPerturbation _ => true
  | .timedNop _ => true
  | .knownAnswer _ _ => true
  | .forceCompareFail _ => true
  | .mlKemKeygen _ => true
  | .mlKemEncaps _ => true
  | .mlKemDecaps _ => true
  | .mlDsaKeygen _ => true
  | .mlDsaSign _ => true
  | .mlDsaVerify _ => true
  | .fnDsaKeygen _ => true
  | .fnDsaSign _ => true
  | .fnDsaVerify _ => true
  | .slhDsaKeygen _ => true
  | .slhDsaSign _ => true
  | .slhDsaVerify _ => true
  | .hssKeygen _ => true
  | .hssSign _ => true
  | .hssVerify _ => true
  | .hssLeafStatus _ => true
  | .xmssKeygen _ => true
  | .xmssSign _ => true
  | .xmssVerify _ => true
  | .xmssLeafStatus _ => true
  | .xmssmtKeygen _ => true
  | .xmssmtSign _ => true
  | .xmssmtVerify _ => true
  | .xmssmtLeafStatus _ => true
  | .hqcKeygen _ => true
  | .hqcEncaps _ => true
  | .hqcDecaps _ => true
  | .mcelieceKeygen _ => true
  | .mcelieceEncaps _ => true
  | .mcelieceDecaps _ => true
  | .ecdsaKeygen _ => true
  | .ecdsaSign _ => true
  | .ecdsaVerify _ => true
  | .ecdh _ => true
  | .eddsaKeygen _ => true
  | .eddsaSign _ => true
  | .eddsaVerify _ => true
  | .montgomeryKeygen _ => true
  | .montgomeryKeyAgreement _ => true
  | .rsaKeygen _ => true
  | .rsaSign _ => true
  | .rsaVerify _ => true
  | .oaepEncrypt _ => true
  | .oaepDecrypt _ => true
  | .aesGcmEncrypt _ => true
  | .aesGcmDecrypt _ => true
  | .aesCcmEncrypt _ => true
  | .aesCcmDecrypt _ => true
  | .aesCtr _ => true
  | .xtsAesEncrypt _ => true
  | .xtsAesDecrypt _ => true
  | .aesKwWrap _ => true
  | .aesKwUnwrap _ => true
  | .chacha20Poly1305Seal _ => true
  | .chacha20Poly1305Open _ => true
  | .digest _ => true
  | .xof _ => true
  | .hmacGenerate _ => true
  | .hmacVerify _ => true
  | .kmacGenerate _ => true
  | .kmacVerify _ => true
  | .hkdf _ => true
  | .counterKdf _ => true
  | .keyedSlotLoad _ => true
  | .keyedSlotDrop _ => true
  | .generateKey _ => true
  | .importKey _ => true
  | .exportWrapped _ => true
  | .destroyKey _ => true
  | .getAttributes _ => true
  | .getImportKey _ => true
  | .submitOrder _ _ => true
  | .policyUpdate _ _ => true
  | .queryOrder _ => true
  | .timeSetOrder _ _ => true
  | .queryPolicy _ => true
  | .permitStatus _ => true
  | .decisionCommit _ _ _ => true
  | .permitEnd n _ => okPermit n
  | .registerPartner _ => true
  | .deregisterPartner _ => true
  | .soundingInitiate _ _ => true
  | .soundingAccept _ => true
  | .send _ => true
  | .receive _ _ => true
  | .rekey _ _ => true
  | .closeSession _ => true
  | .fieldFrameReceived p _ _ => okPort p
  | .initFrame _ => true
  | .replyFrame _ => true
  | .finishFrame _ => true
  | .dataFrame _ => true
  | .orderFrame _ => true
  | .responseFrame _ => true
  | .closeFrame _ => true
  | .handshakeRetransmit partner _ => okPartner partner
  | .reassemblyTimeout partner _ => okPartner partner
  | .noReceiveTimeout fn _ => okFnCode fn
  | .rekeyTimer partner _ => okPartner partner
  | .epochExpiry partner _ => okPartner partner
  | .oldEpochGraceEnd partner _ => okPartner partner
  | .ptpRx p frame _ => okPort p && decide (frame.length ≤ 246)
  | .txGo p b _ => okPort p && decide (b < 4)
  | .ppsInEdge _ _ => true
  | .ppsLockLoss _ => true
  | .almAdjOffset _ => true
  | .almAdjFreq _ => true
  | .almSet _ => true
  | .almStepBound _ => true
  | .almSource _ => true
  | .signedOnly => true
  | .almanacCheckpoint _ => true
  | .logRoll _ => true
  | .logOwner r _ => decide (16 ≤ r && r < 64)
  | .auditExport _ => true
  | .auditExportHead _ => true
  | .auditRegionMib _ => true
  | .getVersion _ _ => true
  | .getCapabilities _ _ => true
  | .negotiateAlgorithms _ _ => true
  | .getDigests _ _ => true
  | .getCertificate _ _ => true
  | .challenge _ _ => true
  | .getMeasurements _ _ => true
  | .keyExchange _ _ => true
  | .spdmFinish _ _ => true
  | .heartbeat _ _ => true
  | .keyUpdate _ _ => true
  | .endSession _ _ => true
  | .chunkSend _ _ => true
  | .chunkGet _ _ => true
  | .setCertificate _ _ => true
  | .getPqChain _ _ => true
  | .pqQuote _ _ => true
  | .doeAbort => true
  | .atsInvalidation fn _ _ => okFn fn
  | .hostLinkRetrain _ _ => true
  | .vfFlr f _ => okVf f
  | .pf0Flr _ => true
  | .vfEnableClear _ => true
  | .d3hotEntry _ => true
  | .keyCacheQuotaWrite f _ => okFnCode f
  | .overflowCfgWrite _ => true
  | .mboxTxWrite m n _ _ => okMbox n && okMaster m
  | .mboxRxRead m n _ => okMbox n && okMaster m
  | .mboxRecall m n => okMbox n && okMaster m
  | .crossFull n _ => decide (n < 514)
  | .ping => true
  | .queryOmod => true
  | .lockAcquire m k => decide (m < 10) && decide (k < 256)
  | .lockRelease m k => decide (m < 10) && decide (k < 256)
  | .handover _ => true
  | .omodLoad m _ => okModule m
  | .omodStop m _ => okModule m
  | .moduleException m cause _ _ => okModule m && decide (cause < 256)
  | .ringInit m => okModule m
  | .doorbell m => okModule m
  | .cqHead m => okModule m
  | .mboxSend m _ => okModule m
  | .mboxRecv m => okModule m
  | .wait m _ => okModule m
  | .time m _ => okModule m
  | .exit m _ => okModule m
  | .pmodWrite core _ => okCore core
  | .vadd core _ _ _ _ => okCore core
  | .vsub core _ _ _ _ => okCore core
  | .vmul core _ _ _ _ => okCore core
  | .vmulh core _ _ _ _ => okCore core
  | .vand core _ _ _ _ => okCore core
  | .vor core _ _ _ _ => okCore core
  | .vxor core _ _ _ _ => okCore core
  | .vsll core _ _ _ _ => okCore core
  | .vsrl core _ _ _ _ => okCore core
  | .vsra core _ _ _ _ => okCore core
  | .vmin core _ _ _ _ => okCore core
  | .vmax core _ _ _ _ => okCore core
  | .vshuf core _ _ _ _ => okCore core
  | .vfadd core _ _ _ _ => okCore core
  | .vfsub core _ _ _ _ => okCore core
  | .vfmul core _ _ _ _ => okCore core
  | .vfma core _ _ _ _ => okCore core
  | .vcmul core _ _ _ _ => okCore core
  | .vcmac core _ _ _ _ => okCore core
  | .vcconj core _ _ _ _ => okCore core
  | .vfdiv core _ _ _ _ => okCore core
  | .vfcvtfi core _ _ _ _ => okCore core
  | .vfcvtif core _ _ _ _ => okCore core
  | .vflt core _ _ _ _ => okCore core
  | .vmadd core _ _ _ _ => okCore core
  | .vmsub core _ _ _ _ => okCore core
  | .vmmul core _ _ _ _ => okCore core
  | .vmmac core _ _ _ _ => okCore core
  | .vmred core _ _ _ _ => okCore core
  | .vmv core _ _ _ _ => okCore core
  | .vext core _ _ _ _ => okCore core
  | .vins core _ _ _ _ => okCore core
  | .vsplat core _ _ _ _ => okCore core
  | .vseq core _ _ _ _ => okCore core
  | .vslt core _ _ _ _ => okCore core
  | .vsltu core _ _ _ _ => okCore core
  | .vsel core _ _ _ _ => okCore core
  | .vld core _ _ _ => okCore core
  | .vst core _ _ _ => okCore core
  | .linkEnable k _ _ => okLink k
  | .linkRetrain k _ => okLink k
  | .linkUp k _ _ => okLink k
  | .linkRetry k _ => okLink k
  | .flitReceived k flit fec _ => okLink k && decide (flit.length = 256) && fec.all fun c => decide (c ≤ 2)
  | .creditTimeout k _ => okLink k
  | .rosterLoad _ => true
  | .markPropose _ => true
  | .markReply _ => true
  | .leaseReq _ => true
  | .leaseGrant _ => true
  | .delegateReq _ => true
  | .delegateGrant _ => true
  | .cross _ => true
  | .crossInterval _ => true
  | .rosterGet _ => true
  | .rosterData _ => true
  | .meridianRequestResend _ _ => true
  | .tetherRd _ => true
  | .tetherCpl _ => true
  | .tetherWr _ => true
  | .tetherReg _ => true
  | .tetherRegCpl _ => true
  | .tetherPathLost node _ => decide (node < 16384)
  | .transition _ => true
  | .debugGrant _ => true
  | .stage _ => true
  | .activate => true
  | .confirm => true
  | .commitSvn => true
  | .hello _ seq => decide (seq < 2 ^ 32)
  | .readProgress _ seq => decide (seq < 2 ^ 32)
  | .fwWrite _ seq _ => decide (seq < 2 ^ 32)
  | .fwFinish _ seq _ => decide (seq < 2 ^ 32)
  | .authWrite _ seq _ => decide (seq < 2 ^ 32)
  | .authSubmit _ seq _ => decide (seq < 2 ^ 32)
  | .chartWrite _ seq _ => decide (seq < 2 ^ 32)
  | .chartFinish _ seq _ => decide (seq < 2 ^ 32)
  | .selfTest _ seq _ => decide (seq < 2 ^ 32)
  | .recoveryReset _ seq _ => decide (seq < 2 ^ 32)
  | .uartState => true
  | .uartProgress => true
  | .uartSelftest _ => true
  | .uartReset _ => true
  | .badAccess fn _ _ _ _ => okFn fn
  | .registerWrite _ fn _ _ => okFn fn
  | .supplyRecovery _ _ _ => true
  | .clockRecovery _ _ _ => true
  | .temperatureRecovery _ _ => true
  | .safeReqNRelease _ _ => true
  | .permitReadbackAgree n _ _ => okPermit n
  | .entropyHealthRecovery _ => true
  | .fieldPortLinkUp p _ => okPort p
  | .meridianLinkRekey k _ => okLink k
  | .almanacSlewEnd _ => true
  | .ppsOut _ => true
  | .partnerScrubComplete partner _ => okPartner partner
  | .flrComplete f _ => okVf f
  | .waitTimeout m _ => okModule m
  | .neighbourSolicitation target => decide (target.length = 16)
  | .tapInstruction _ _ _ => true
  | .rejectionBudgetEnd _ _ => true
  | .telemetryPeriod _ _ => true

end Sys2Proof
end

