-- ==== Sys2Proof/Machine/Ops.lean ====
section
/-! DEFINITION. The named operations over the state that every family shares: the outcome of a command, the
accessors of each table with the default of an unlisted entry, time, the DRBG, the primitives of the cited standards,
counters, host memory and interrupt messages. -/

namespace Sys2Proof.Machine

/-- What every meaning answers. -/
abbrev Out := Host.Outcome State Fault Refusal

/-- The command has had its effect; the queue of commands is not the command's to change. -/
def done (s t : State) : Out := .next { t with pending := s.pending }

/-- A command that names a thing the spec's numbering does not have. -/
def noIndex : Out := .fault .noSuchIndex

/-- `done` where the operands are within the numbering. -/
def within (ok : Bool) (s t : State) : Out := if ok then done s t else noIndex

/-! ### The variant (00_scope.md R2-R5, 01_architecture.md R19) -/

/-- Engine tiles of the variant. -/
def tilesOf : Variant → Nat
  | .pz8840 => 96 | .pz8820 => 48 | .pz8810 => 24

/-- Field ports, and Meridian links, of the variant. -/
def portsOf : Variant → Nat
  | .pz8840 => 4 | .pz8820 => 2 | .pz8810 => 0

/-- Quadrants of the variant. -/
def quadsOf : Variant → Nat
  | .pz8840 => 4 | .pz8820 => 2 | .pz8810 => 1

/-- Private memory ports of the variant. -/
def pmemsOf : Variant → Nat
  | .pz8810 => 1 | _ => 2

/-! ### Plain registers and counters -/

/-- A plain register, by PF BAR0 offset; zero where nothing is stored. -/
def State.reg (s : State) (off : Nat) : Nat := (tget s.regs off).getD 0

/-- Store a plain register. -/
def State.setReg (s : State) (off v : Nat) : State := { s with regs := tput s.regs off v }

/-- Advance a saturating counter of `w` bits by `n`. -/
def State.bumpBy (s : State) (off w n : Nat) : State := s.setReg off (satAdd w (s.reg off) n)

/-- Advance a saturating 32-bit counter. -/
def State.bump (s : State) (off : Nat) : State := s.bumpBy off 32 1

/-! ### Tables with defaults -/

/-- Tile `n`; absent where nothing is stored. -/
def State.tile (s : State) (n : Nat) : Tile := (tget s.tiles n).getD {}

/-- Change tile `n`. -/
def State.modTile (s : State) (n : Nat) (f : Tile → Tile) : State := { s with tiles := tput s.tiles n (f (s.tile n)) }

/-- Queue `q`. -/
def State.queue (s : State) (q : Nat) : Queue := (tget s.queues q).getD {}

/-- Change queue `q`. -/
def State.modQueue (s : State) (q : Nat) (f : Queue → Queue) : State :=
  { s with queues := tput s.queues q (f (s.queue q)) }

/-- Job `j`, if it is in the in-flight table. -/
def State.job? (s : State) (j : Nat) : Option Job := tget s.jobs j

/-- Change job `j`, if it exists. -/
def State.modJob (s : State) (j : Nat) (f : Job → Job) : State := { s with jobs := tmod s.jobs j f }

/-- Remove job `j`. -/
def State.delJob (s : State) (j : Nat) : State := { s with jobs := tdel s.jobs j }

/-- The reset settings of function `f` (11_functions_and_sharing.md R264). -/
def fnDefault (f : Nat) : Fn :=
  { shares := List.replicate 33 (if f = 0 then 768 else if f = 0x100 then 256 else 0),
    maxQueues := if f = 0 then 3840 else if f < 0x100 then 63 else 0,
    safety := f == 0, enabled := f == 0 }

/-- Function `f`. -/
def State.fn (s : State) (f : Nat) : Fn := (tget s.fns f).getD (fnDefault f)

/-- Change function `f`. -/
def State.modFn (s : State) (f : Nat) (g : Fn → Fn) : State := { s with fns := tput s.fns f (g (s.fn f)) }

/-- The key at an index. -/
def State.key? (s : State) (i : Nat) : Option Key := tget s.keys.live i

/-- Change the key at an index, if there is one. -/
def State.modKey (s : State) (i : Nat) (f : Key → Key) : State :=
  { s with keys := { s.keys with live := tmod s.keys.live i f } }

/-- Logbook register `r`. -/
def State.logReg (s : State) (r : Nat) : LogReg := (tget s.log.regs r).getD {}

/-- Change logbook register `r`. -/
def State.modLog (s : State) (r : Nat) (f : LogReg → LogReg) : State :=
  { s with log := { s.log with regs := tput s.log.regs r (f (s.logReg r)) } }

/-- Partner `p`, if registered. -/
def State.partner? (s : State) (p : Nat) : Option Partner := tget s.partners.table p

/-- Change partner `p`, if registered. -/
def State.modPartner (s : State) (p : Nat) (f : Partner → Partner) : State :=
  { s with partners := { s.partners with table := tmod s.partners.table p f } }

/-- Field port `p`. -/
def State.port (s : State) (p : Nat) : Port := (tget s.partners.ports p).getD {}

/-- Change field port `p`. -/
def State.modPort (s : State) (p : Nat) (f : Port → Port) : State :=
  { s with partners := { s.partners with ports := tput s.partners.ports p (f (s.port p)) } }

/-- Helm core `c`. -/
def State.core (s : State) (c : Nat) : Core := (tget s.service.cores c).getD {}

/-- Change Helm core `c`. -/
def State.modCore (s : State) (c : Nat) (f : Core → Core) : State :=
  { s with service := { s.service with cores := tput s.service.cores c (f (s.core c)) } }

/-- Owner module `m`. -/
def State.module (s : State) (m : Nat) : Module := (tget s.service.modules m).getD {}

/-- Change owner module `m`. -/
def State.modModule (s : State) (m : Nat) (f : Module → Module) : State :=
  { s with service := { s.service with modules := tput s.service.modules m (f (s.module m)) } }

/-- Mailbox `n`. -/
def State.mbox (s : State) (n : Nat) : Mbox := (tget s.service.mboxes n).getD {}

/-- Change mailbox `n`. -/
def State.modMbox (s : State) (n : Nat) (f : Mbox → Mbox) : State :=
  { s with service := { s.service with mboxes := tput s.service.mboxes n (f (s.mbox n)) } }

/-- Meridian link `k`. -/
def State.link (s : State) (k : Nat) : Link := (tget s.cluster.links k).getD {}

/-- Change Meridian link `k`. -/
def State.modLink (s : State) (k : Nat) (f : Link → Link) : State :=
  { s with cluster := { s.cluster with links := tput s.cluster.links k (f (s.link k)) } }

/-- Tethered device `d` as its lead sees it. -/
def State.tether (s : State) (d : Nat) : Tether := (tget s.cluster.tether d).getD {}

/-- Change tethered device `d`. -/
def State.modTether (s : State) (d : Nat) (f : Tether → Tether) : State :=
  { s with cluster := { s.cluster with tether := tput s.cluster.tether d (f (s.tether d)) } }

/-- SPDM connection of a transport. -/
def trIdx : Transport → Nat
  | .doe => 0 | .mctpVdm => 1 | .mctpSmbus => 2 | .management => 3

/-- The SPDM connection of a transport. -/
def State.spdmOf (s : State) (tr : Transport) : Spdm := (tget s.host.spdm (trIdx tr)).getD {}

/-- Change the SPDM connection of a transport. -/
def State.modSpdm (s : State) (tr : Transport) (f : Spdm → Spdm) : State :=
  { s with host := { s.host with spdm := tput s.host.spdm (trIdx tr) (f (s.spdmOf tr)) } }

/-! ### BAR0 (20_boot_landfall.md R458, R464; 22_registers.md) -/

/-- A BAR0 of a function answers in operation: the boot has reached READY, and the VF exists and is not under FLR, or PF0
is outside D3hot. -/
def State.barOn (s : State) (f : Nat) : Bool :=
  s.boot.ready && (if f = 0 then !s.host.d3hot else (s.fn f).enabled && !(s.fn f).flr)

/-- A write of the manager through PF0's BAR0, whose effect is `t`: before READY, in Landfall mode and in D3hot it is
discarded. -/
def managed (s t : State) : State := if s.barOn 0 then t else s

/-- A write of the manager to the blocks that also answer in Landfall mode: BOOT, FW, RCV and the life cycle (R464). -/
def managedBoot (s t : State) : State := if (s.boot.ready || s.boot.landfall) && !s.host.d3hot then t else s

/-! ### Time (12_deadlines.md R277; 14_partners_ports_time.md R348, R350; log 15) -/

/-- What a slew takes from the Almanac and adds to it over `d` ns, and what remains of it. -/
def slewStep (sl : Slew) (d : Nat) : Nat × Nat × Slew :=
  match sl with
  | .none => (0, 0, .none)
  | .lose k r c => (min r ((c + d) / k), 0, .lose k (r - min r ((c + d) / k)) ((c + d) % k))
  | .gain k r c => (0, min r ((c + d) / k), .gain k (r - min r ((c + d) / k)) ((c + d) % k))

/-- The replicas follow the Almanac: within 4 ns of it on either side, never backward (01, R38); where within is free
(log 83). -/
def TimeState.sync (ts : TimeState) : TimeState :=
  { ts with replicas := (List.range 6).map fun d =>
      (d, max ((tget ts.replicas d).getD 0) (ts.almanac + Config.primNat (.image 24) [le 8 ts.elapsed, le 1 d] % 9 - 4)) }

/-- The time state at elapsed count `t`, where that is later. -/
def TimeState.to (ts : TimeState) (t : Nat) : TimeState :=
  let d := t - ts.elapsed
  let (loss, _, sl) := slewStep ts.slew d
  let (loss', gain, sv) := slewStep ts.servo d
  { ts with
    elapsed := ts.elapsed + d, almanac := ts.almanac + (d - (loss + loss')) + gain, slew := sl, servo := sv }.sync

/-- Almanac time as domain `d` reads it from its replica: field ports 0-3, the Helm cluster (4), the Binnacle (5). -/
def TimeState.replica (ts : TimeState) (d : Nat) : Nat := (tget ts.replicas d).getD ts.almanac

/-- The device at elapsed count `t`, where that is later. -/
def State.at_ (s : State) (t : Nat) : State := { s with time := s.time.to t }

/-- Almanac time in the Helm core cluster. -/
def State.helmTime (s : State) : Nat := s.time.replica 4

/-- Almanac time in the Binnacle. -/
def State.binTime (s : State) : Nat := s.time.replica 5

/-- Almanac time in field port `p`. -/
def State.portTime (s : State) (p : Nat) : Nat := s.time.replica p

/-- The Binnacle's own timer in µs (18_faults_safety.md R417). -/
def State.us (s : State) : Nat := s.time.elapsed / 1000

/-! ### The DRBG and the primitives -/

/-- `n` bytes of a primitive. -/
def prim (p : Prim) (ins : List Bytes) (n : Nat) : Bytes := (List.range n).map (Config.primByte p ins)

/-- DRBG bytes from counter `d`. -/
def drbgBytes (d n : Nat) : Bytes := (List.range n).map fun i => Config.drbg (d + i)

/-- The device draws `n` bytes from the DRBG. -/
def State.drawn (s : State) (n : Nat) : State := { s with draws := s.draws + n }

/-- SHA-384 of a byte string. -/
def sha384 (b : Bytes) : Bytes := prim (.hash 0x03) [b] 48
/-- SHA-256 of a byte string. -/
def sha256 (b : Bytes) : Bytes := prim (.hash 0x02) [b] 32
/-- KMAC256 with a key, an input and a customisation string. -/
def kmac256 (key input cust : Bytes) (n : Nat) : Bytes := prim (.kmac 0x32) [key, input, cust] n

/-! ### Outputs -/

/-- Put something out of the device. -/
def State.emit (s : State) (o : Output) : State := { s with outbox := o :: s.outbox }

/-- Send an MSI-X message, or set its pending bit while it is masked (10_job_rings.md R251); a tethered device's vectors
0-15 go to its lead (17_meridian.md R408). -/
def State.msix (s : State) (f v : Nat) : State :=
  if (s.fn f).mask.contains v then
    s.modFn f fun F => { F with pba := if F.pba.contains v then F.pba else F.pba ++ [v] }
  else if s.cluster.tethered ∧ f = 0 ∧ v < 16 then
    { s with cluster := { s.cluster with tetherOut := s.cluster.tetherOut ++ [(some v, 0, [])] } }
  else s.emit (.msix f v)

/-- Set bits of a plain register. -/
def State.setBits (s : State) (off mask : Nat) : State := s.setReg off (s.reg off ||| mask)

/-- An event of GLB.EVENT: its bit is set and PF0's vector 0 is sent (22_registers.md R480, R481). -/
def State.glbEvent (s : State) (bit : Nat) : State := (s.setBits 0x1004 (2 ^ bit)).msix 0 0

/-- Where the VF.EVENT of function `f` is kept among the plain registers. -/
def vfEventKey (f : Nat) : Nat := 0x10000000 + f

/-- An event of VF.EVENT of function `f`, sent on its vector 0 (R481). -/
def State.vfEvent (s : State) (f bit : Nat) : State := (s.setBits (vfEventKey f) (2 ^ bit)).msix f 0

/-! ### Host memory -/

/-- Host memory the device has been shown, with runs of bytes added. -/
def writeRuns (m : List Host.Cell) : List (Nat × Bytes) → List Host.Cell
  | [] => m
  | (a, bs) :: rs => writeRuns (memWriteN m a bs) rs

/-- A host range overlaps another. -/
def overlaps (a n b m : Nat) : Bool := decide (a < b + m ∧ b < a + n ∧ 0 < n ∧ 0 < m)

/-- The kind of the failure of a host read, if the range meets one (10_job_rings.md R240). -/
def State.readFault (s : State) (a n : Nat) : Option Nat :=
  (s.host.readFaults.find? fun r => overlaps a n r.1 r.2.1).map (·.2.2)

/-- The offset of the first byte of a host range that cannot be translated or written. -/
def State.writeFault (s : State) (a n : Nat) : Option Nat :=
  ((s.host.writeFaults.filter fun r => overlaps a n r.1 r.2).map fun r => r.1 - a).min?

/-- Bytes of host memory. -/
def State.hostRead (s : State) (a n : Nat) : Bytes := memReadN s.hostMem a n

/-- Bytes written to host memory; a tethered device's writes go to its lead (17_meridian.md R408). -/
def State.hostWrite (s : State) (a : Nat) (bs : Bytes) : State :=
  let t : State := { s with hostMem := memWriteN s.hostMem a bs }
  if s.cluster.tethered then
    { t with cluster := { t.cluster with tetherOut := t.cluster.tetherOut ++ [(none, a, bs)] } }
  else t

/-- A tethered device asks its lead for the host ranges that it reads (17_meridian.md R408). -/
def State.askLead (s : State) (rs : List (Nat × Nat)) : State :=
  if s.cluster.tethered then
    { s with cluster := { s.cluster with tetherAsk := s.cluster.tetherAsk ++ rs.filter fun r => r.2 != 0 } }
  else s

/-! ### Memory as a job sees it: host memory, or the region of an owner module (16_service_complex.md R376) -/

/-- The bytes of a module's region. -/
def State.regionLen (s : State) (m : Nat) : Nat := (s.module m).memMib * 2 ^ 20

/-- The kind of the failure of a read, if there is one. -/
def State.rdFault (s : State) (m : Option Nat) (a n : Nat) : Option Nat :=
  match m with
  | none => s.readFault a n
  | some k => if a + n ≤ s.regionLen k then none else some 2

/-- The offset of the first byte that cannot be written, if there is one. -/
def State.wrFault (s : State) (m : Option Nat) (a n : Nat) : Option Nat :=
  match m with
  | none => s.writeFault a n
  | some k => if a + n ≤ s.regionLen k then none else some (s.regionLen k - a)

/-- Bytes read. -/
def State.rd (s : State) (m : Option Nat) (a n : Nat) : Bytes :=
  match m with
  | none => s.hostRead a n
  | some k => memReadN (s.module k).region a n

/-- Bytes written. -/
def State.wr (s : State) (m : Option Nat) (a : Nat) (bs : Bytes) : State :=
  match m with
  | none => s.hostWrite a bs
  | some k => s.modModule k fun M => { M with region := memWriteN M.region a bs }

/-- The memory that a job's addresses name. -/
def State.memOf (s : State) (J : Job) : Option Nat :=
  match J.src with
  | .ring q => (s.queue q).isModule
  | .internal => none

/-! ### Identity of things -/

/-- The source of a job is queue `q`. -/
def Job.onQueue (J : Job) (q : Nat) : Bool := J.src == .ring q

/-- The jobs of a queue that have been consumed and not completed. -/
def State.jobsOfQueue (s : State) (q : Nat) : List Nat := tkeys s.jobs fun _ J => J.onQueue q

/-- The jobs of a function. -/
def State.jobsOfFn (s : State) (f : Nat) : List Nat :=
  tkeys s.jobs fun _ J => J.fn == f && J.src != .internal

/-- Apply an operation to each of a list, in order. -/
def eachOf (l : List Nat) (f : State → Nat → State) (s : State) : State := l.foldl f s

/-! ### Progress slots (20_boot_landfall.md R467) -/

/-- The slot of an operation of a function that is running, if there is one. -/
def State.progSlot (s : State) (op f : Nat) : Option Nat :=
  (s.progress.find? fun e => e.2.op == op && e.2.fn == f && e.2.state == 1).map (·.1)

/-- The slot a new operation takes: a free one, or the one whose operation finished longest ago. -/
def State.newSlot (s : State) : Nat :=
  (lowestFree (fun i => ((tget s.progress i).map (·.state)).getD 0 != 0) 16 0).getD
    (((leastBy (fun e => e.2.finished) (s.progress.filter fun e => e.2.state == 2)).map (·.1)).getD 0)

/-- A device-wide operation starts. -/
def State.opStart (s : State) (op f total : Nat) : State :=
  { s with progress := tput s.progress s.newSlot { op := op, state := 1, fn := f, pos := 0, total := total, finished := 0 } }

/-- A running operation has done `n` more units. -/
def State.opStep (s : State) (op f n : Nat) : State :=
  match s.progSlot op f with
  | none => s
  | some i => { s with progress := tmod s.progress i fun p => { p with pos := min (p.pos + n) p.total } }

/-- A running operation ends, whatever its outcome. -/
def State.opEnd (s : State) (op f : Nat) : State :=
  match s.progSlot op f with
  | none => s
  | some i => { s with progress := tmod s.progress i fun p => { p with state := 2, finished := s.time.elapsed } }

end Sys2Proof.Machine
end

