-- ==== Sys2Proof/Machine/Catalogue.lean ====
section
/-! DEFINITION. The catalogue of operations: defined opcodes, kinds, algorithms, sizes, the fields each operation uses
and the checks of its PARAM (02_operations_catalogue.md R42-R47; 05, R102-R105; 06, R124-R133, R141-R142; 07,
R152-R155; 08, R176-R178; 09, R204-R207, R512, R213). -/

namespace Sys2Proof.Machine

/-! ### Opcodes (R42-R46, R52, R130) -/

/-- What an operation is. -/
inductive OpKind
  | admin | keygen | sign | verify | encaps | decaps | agree | oaepEnc | oaepDec
  | seal | unseal | ctr | xtsEnc | xtsDec | wrap | unwrap
  | digest | xof | mac | macVerify | hkdf | kdf | slotLoad | slotDrop | leafStatus
  | keyMgmt | authority | partner | test
deriving DecidableEq, Repr

/-- The SHA-2 codes. -/
def isSha2 (c : Nat) : Bool := 1 ≤ c && c ≤ 6
/-- The SHA-3 codes. -/
def isSha3 (c : Nat) : Bool := 0x11 ≤ c && c ≤ 0x14
/-- The low bytes of the XMSS OIDs (R130). -/
def isXmss (c : Nat) : Bool := (1 ≤ c && c ≤ 3) || (0x0D ≤ c && c ≤ 0x15)
/-- The low bytes of the XMSS^MT OIDs (R130). -/
def isXmssMt (c : Nat) : Bool := (1 ≤ c && c ≤ 8) || (0x21 ≤ c && c ≤ 0x38)
/-- The moduli that RSA serves, in units of 256 bits. -/
def isRsa (c : Nat) : Bool := c == 0x08 || c == 0x0C || c == 0x10 || c == 0x18 || c == 0x20

/-- The administrative and test commands (R45, R46). -/
def adminOps : List Nat :=
  [0x0001, 0x0002, 0x0003, 0x0004, 0x0005, 0x0006, 0x0010, 0x0011, 0x0012, 0x0020, 0x0021, 0x0022, 0x0023]

/-- An opcode is defined (R42, R44, R45, R46, R52). -/
def definedOp (op : Nat) : Bool :=
  let f := famOf op
  let o := operOf op
  let p := psetOf op
  if f = 0 then adminOps.contains op
  else if f = 15 then op == 0xF000 || op == 0xF001 || op == 0xF002
  else if f = 1 then o ≤ 2 && 1 ≤ p && p ≤ 3
  else if f = 2 then (o ≤ 2 && 1 ≤ p && p ≤ 3) || (4 ≤ o && o ≤ 6 && 1 ≤ p && p ≤ 2)
  else if f = 3 then
    if o ≤ 2 then 1 ≤ p && p ≤ 12
    else if o = 3 then false
    else if o % 4 = 3 then p == 0
    else if o < 8 then 1 ≤ p && p ≤ 8
    else if o < 12 then isXmss p
    else isXmssMt p
  else if f = 4 then
    if o ≤ 2 then 1 ≤ p && p ≤ 3
    else if o = 4 then (1 ≤ p && p ≤ 4) || (0x11 ≤ p && p ≤ 0x14)
    else (o == 5 || o == 6) && 1 ≤ p && p ≤ 4
  else if f = 5 then
    if o ≤ 3 then 1 ≤ p && p ≤ 3
    else if o ≤ 8 then 1 ≤ p && p ≤ 2
    else if o = 9 then p == 0x08 || p == 0x0C || p == 0x10
    else o ≤ 13 && isRsa p
  else if f = 6 then
    if o ≤ 4 ∨ o = 7 ∨ o = 8 then 1 ≤ p && p ≤ 3
    else if o = 5 ∨ o = 6 then p == 1 || p == 3
    else (o == 9 || o == 10) && p == 0
  else if f = 7 then
    if o = 0 then isSha2 p || isSha3 p
    else if o = 1 then 0x21 ≤ p && p ≤ 0x24
    else if o = 2 ∨ o = 3 then isSha2 p || isSha3 p
    else if o = 4 ∨ o = 5 then p == 0x31 || p == 0x32
    else if o = 6 then 2 ≤ p && p ≤ 4
    else if o = 7 then isSha2 p || isSha3 p || p == 0x31 || p == 0x32
    else (o == 8 || o == 9) && p == 0
  else if f = 8 ∨ f = 9 then o ≤ 5 && p == 0
  else f == 10 && o ≤ 7 && p == 0

/-- The kind of an opcode. -/
def kindOf (op : Nat) : OpKind :=
  let f := famOf op
  let o := operOf op
  if f = 0 then .admin else if f = 15 then .test
  else if f = 8 then .keyMgmt else if f = 9 then .authority else if f = 10 then .partner
  else if f = 1 then (if o = 0 then .keygen else if o = 1 then .encaps else .decaps)
  else if f = 2 ∨ f = 3 then
    (match o % 4 with | 0 => .keygen | 1 => .sign | 2 => .verify | _ => .leafStatus)
  else if f = 4 then (match o % 4 with | 0 => .keygen | 1 => .encaps | _ => .decaps)
  else if f = 5 then
    (match o with
     | 0 => .keygen | 1 => .sign | 2 => .verify | 3 => .agree | 4 => .keygen | 5 => .sign | 6 => .verify
     | 7 => .keygen | 8 => .agree | 9 => .keygen | 10 => .sign | 11 => .verify | 12 => .oaepEnc | _ => .oaepDec)
  else if f = 6 then
    (match o with
     | 0 => .seal | 1 => .unseal | 2 => .seal | 3 => .unseal | 4 => .ctr | 5 => .xtsEnc | 6 => .xtsDec
     | 7 => .wrap | 8 => .unwrap | 9 => .seal | _ => .unseal)
  else
    (match o with
     | 0 => .digest | 1 => .xof | 2 => .mac | 3 => .macVerify | 4 => .mac | 5 => .macVerify | 6 => .hkdf | 7 => .kdf
     | 8 => .slotLoad | _ => .slotDrop)

/-- The algorithm code of an opcode's key: its keygen opcode (09, R204). The f variants of Classic McEliece make keys of
the same set (07, R161). -/
def algOf (op : Nat) : Nat :=
  let f := famOf op
  let o := operOf op
  let p := psetOf op
  if f = 2 ∨ f = 3 then 0x1000 * f + 0x100 * (o / 4 * 4) + p
  else if f = 4 then 0x4000 + 0x100 * (o / 4 * 4) + p % 16
  else if f = 5 then 0x5000 + 0x100 * (if o < 4 then 0 else if o < 7 then 4 else if o < 9 then 7 else 9) + p
  else if f = 6 then (if o = 5 ∨ o = 6 then 0x6500 + p else if 9 ≤ o then 0x6900 else 0x6000 + p)
  else 0x1000 * f + p

/-- The stateful algorithms: HSS, XMSS and XMSS^MT. -/
def stateful (alg : Nat) : Bool := 0x3400 ≤ alg && alg < 0x4000

/-- The personality of a family's tile steps (04, personalities); 0 for Helm cores. -/
def persOf (op : Nat) : Nat :=
  match famOf op with
  | 1 => 1
  | 2 => if op / 0x100 = 0x24 ∨ op / 0x100 = 0x25 then 0 else 1
  | 3 => 2
  | 4 => 3
  | 5 => 4
  | 6 => 5
  | 7 => 2
  | _ => 0

/-! ### Hash codes (R44) -/

/-- Digest length of a hash code; the output of a pre-hash for the SHAKE codes (R105). -/
def hashLen (c : Nat) : Nat :=
  match c with
  | 1 => 28 | 2 => 32 | 3 => 48 | 4 => 64 | 5 => 28 | 6 => 32
  | 0x11 => 28 | 0x12 => 32 | 0x13 => 48 | 0x14 => 64 | 0x21 => 32 | 0x22 => 64 | _ => 0

/-- Block size of a SHA-2 function, or the rate of a Keccak function, in bytes. -/
def hashBlock (c : Nat) : Nat :=
  match c with
  | 1 => 64 | 2 => 64 | 3 => 128 | 4 => 128 | 5 => 128 | 6 => 128
  | 0x11 => 144 | 0x12 => 136 | 0x13 => 104 | 0x14 => 72
  | 0x21 => 168 | 0x22 => 136 | 0x23 => 168 | 0x24 => 136 | 0x31 => 168 | 0x32 => 136 | _ => 1

/-! ### Stateful parameters (06, R129, R130) -/

/-- Height of an LMS type. -/
def lmsH (t : Nat) : Nat := if 5 ≤ t ∧ t ≤ 0x18 then 5 * ((t - 5) % 5 + 1) else 0
/-- Hash and length group of an LMS type: 0 SHA-256/32, 1 SHA-256/24, 2 SHAKE/32, 3 SHAKE/24. -/
def lmsGroup (t : Nat) : Nat := (t - 5) / 5
/-- The same of an LM-OTS type. -/
def otsGroup (t : Nat) : Nat := (t - 1) / 4
/-- Winternitz index of an LM-OTS type: 0 W1, 1 W2, 2 W4, 3 W8. -/
def otsW (t : Nat) : Nat := (t - 1) % 4
/-- Output length of a group. -/
def groupN (g : Nat) : Nat := if g % 2 = 0 then 32 else 24
/-- Number of chains of an LM-OTS type. -/
def otsP (t : Nat) : Nat :=
  if otsGroup t % 2 = 0 then (match otsW t with | 0 => 265 | 1 => 133 | 2 => 67 | _ => 34)
  else (match otsW t with | 0 => 200 | 1 => 101 | 2 => 51 | _ => 26)
/-- The types are in the supported subset and fit together. -/
def lmsOk (lms ots : Nat) : Bool :=
  5 ≤ lms && lms ≤ 0x18 && 1 ≤ ots && ots ≤ 0x10 && lmsGroup lms == otsGroup ots
/-- Length of one LMS signature. -/
def lmsSigLen (lms ots : Nat) : Nat :=
  12 + groupN (otsGroup ots) * (1 + otsP ots) + lmsH lms * groupN (lmsGroup lms)
/-- Length of an LMS public key. -/
def lmsPubLen (lms : Nat) : Nat := 24 + groupN (lmsGroup lms)

/-- Height, layers, output length and SHAKE of an XMSS or XMSS^MT set. -/
def xmssSet (mt : Bool) (oid : Nat) : Nat × Nat × Nat × Bool :=
  if mt then
    let k := if oid ≤ 8 then oid - 1 else (oid - 0x21) % 8
    let n := if oid ≤ 8 ∨ (0x29 ≤ oid ∧ oid ≤ 0x30) then 32 else 24
    let hd := match k with
      | 0 => (20, 2) | 1 => (20, 4) | 2 => (40, 2) | 3 => (40, 4) | 4 => (40, 8) | 5 => (60, 3) | 6 => (60, 6)
      | _ => (60, 12)
    (hd.1, hd.2, n, decide (0x29 ≤ oid))
  else
    let k := if oid ≤ 3 then oid - 1 else (oid - 0x0D) % 3
    let h := match k with | 0 => 10 | 1 => 16 | _ => 20
    (h, 1, if oid ≤ 3 ∨ (0x10 ≤ oid ∧ oid ≤ 0x12) then 32 else 24, decide (0x10 ≤ oid))

/-- Signature length of an XMSS or XMSS^MT set (RFC 8391). -/
def xmssSigLen (mt : Bool) (oid : Nat) : Nat :=
  let (h, d, n, _) := xmssSet mt oid
  let len := if n = 32 then 67 else 51
  (if mt then ceilDiv h 8 else 4) + n + (h + d * len) * n

/-- The levels of an HSS key as its PARAM gives them (06, R132). -/
def hssLevels (levels : Nat) (param : Nat) : List (Nat × Nat) :=
  (bitsOf param 7 0, bitsOf param 15 8) ::
    List.replicate (levels - 1) (bitsOf param 23 16, bitsOf param 31 24)

/-- Length of an HSS signature over these levels. -/
def hssSigLen : List (Nat × Nat) → Nat
  | [] => 4
  | [(l, o)] => 4 + lmsSigLen l o
  | (l, o) :: (l', o') :: rest => lmsSigLen l o + lmsPubLen l' + hssSigLen ((l', o') :: rest)

/-! ### Sizes (05, R102; 06, R124; 07, R152) -/

/-- Sizes of an algorithm: public key, private key, ciphertext or signature, shared secret; 0 where there is none or
where the length varies; the private keys of RSA and the stateful schemes have the lengths of log 23. -/
def sizesOf (alg : Nat) : Nat × Nat × Nat × Nat :=
  if alg / 0x100 = 0x30 then
    let k := (psetOf alg - 1) % 6
    let n := 16 + 8 * (k / 2)
    (2 * n, 4 * n, (match k with | 0 => 7856 | 1 => 17088 | 2 => 16224 | 3 => 35664 | 4 => 29792 | _ => 49856), 0)
  else if alg / 0x100 = 0x38 then (4 + 2 * (xmssSet false (psetOf alg)).2.2.1, 4 * (xmssSet false (psetOf alg)).2.2.1, xmssSigLen false (psetOf alg), 0)
  else if alg / 0x100 = 0x3C then (4 + 2 * (xmssSet true (psetOf alg)).2.2.1, 4 * (xmssSet true (psetOf alg)).2.2.1, xmssSigLen true (psetOf alg), 0)
  else if alg / 0x100 = 0x34 then (0, 64, 0, 0)
  else if alg / 0x100 = 0x59 then (32 * psetOf alg + 14, 80 * psetOf alg, 32 * psetOf alg, 0)
  else match alg with
    | 0x1001 => (800, 1632, 768, 32) | 0x1002 => (1184, 2400, 1088, 32) | 0x1003 => (1568, 3168, 1568, 32)
    | 0x2001 => (1312, 2560, 2420, 0) | 0x2002 => (1952, 4032, 3309, 0) | 0x2003 => (2592, 4896, 4627, 0)
    | 0x2401 => (897, 1281, 666, 0) | 0x2402 => (1793, 2305, 1280, 0)
    | 0x4001 => (2249, 2289, 4481, 64) | 0x4002 => (4522, 4562, 9026, 64) | 0x4003 => (7245, 7285, 14469, 64)
    | 0x4401 => (261120, 6492, 96, 32) | 0x4402 => (524160, 13608, 156, 32)
    | 0x4403 => (1044992, 13932, 208, 32) | 0x4404 => (1047319, 13948, 194, 32)
    | 0x5001 => (65, 32, 64, 32) | 0x5002 => (97, 48, 96, 48) | 0x5003 => (133, 66, 132, 66)
    | 0x5401 => (32, 32, 64, 0) | 0x5402 => (57, 57, 114, 0)
    | 0x5701 => (32, 32, 0, 32) | 0x5702 => (56, 56, 0, 56)
    | 0x8101 => (1216, 2432, 0, 0)
    | _ => (0, 0, 0, 0)

def pkLen (alg : Nat) : Nat := (sizesOf alg).1
def skLen (alg : Nat) : Nat := (sizesOf alg).2.1
def sigLen (alg : Nat) : Nat := (sizesOf alg).2.2.1
def ssLen (alg : Nat) : Nat := (sizesOf alg).2.2.2

/-- Compressed length of a point (07, R152). -/
def compLen (alg : Nat) : Nat := (pkLen alg + 1) / 2

/-- The longest DER signature (07, R152). -/
def derMax (alg : Nat) : Nat := match alg with | 0x5001 => 72 | 0x5002 => 104 | _ => 139

/-- The longest RSAPublicKey of a modulus: e up to 2^256 - 1 (02, R47; log 19). -/
def rsaMax (p : Nat) : Nat := 32 * p + 44

/-! ### DER (07, R152, R165; 02, R47) -/

/-- Leading zero bytes removed. -/
def dropZeros : Bytes → Bytes
  | [] => []
  | b :: bs => if b = 0 then dropZeros bs else b :: bs

/-- A DER INTEGER of a non-negative big-endian value, minimal. -/
def derInt (v : Bytes) : Bytes :=
  let m := dropZeros v
  let c := if m.isEmpty then [0#8] else if (m.headD 0).msb then 0#8 :: m else m
  [0x02#8] ++ le 1 c.length ++ c

/-- RSAPublicKey of a modulus `n` of 256 `p` bits and an exponent `e` (PKCS#1). -/
def rsaDer (p : Nat) (n e : Bytes) : Bytes :=
  let x := derInt e
  [0x30#8, 0x82#8] ++ be 2 (32 * p + 5 + x.length) ++ [0x02#8, 0x82#8] ++ be 2 (32 * p + 1) ++ [0#8] ++ n ++ x

/-- The modulus and the exponent of an RSAPublicKey of a modulus of 256 `p` bits whose exponent R47 supports; none for any
other string. -/
def rsaParse (p : Nat) (der : Bytes) : Option (Nat × Nat) :=
  let n := sliceOf der 9 (32 * p)
  let e := sliceOf der (32 * p + 11) (leAt der (32 * p + 10) 1)
  if der = rsaDer p n e ∧ (n.headD 0).msb ∧ fromBE e % 2 = 1 ∧ 3 ≤ fromBE e ∧ fromBE e < 2 ^ 256 then
    some (fromBE n, fromBE e)
  else none

/-! ### The fields of an operation -/

/-- A part of the AUX range. -/
inductive AuxPart
  | fixed (n : Nat)
  | derSig (max : Nat)               -- delimited by its own DER length
  | derKey (max : Nat)
  | point (full : Nat)               -- an inline ECDSA key, compressed or not
  | hssKey                           -- an inline HSS public key
  | hssSig (levels : Nat)
  | seed                             -- the seed of a GENERATE, after its template (09, R214)
deriving DecidableEq, Repr

/-- How an operation uses SRC. -/
inductive SrcUse
  | none | any | oneOf (ns : List Nat) | upTo (lo hi : Nat)
deriving DecidableEq, Repr

/-- The fields an operation uses; the fields it does not use must be zero (10, R511). -/
structure Fields where
  key     : Bool := false
  partner : Bool := false
  src     : SrcUse := .none
  aux     : List AuxPart := []
  dst     : Bool := false
  ok      : Bool := true            -- PARAM is in order
deriving DecidableEq, Repr

/-- Bits of `x` outside a mask. -/
def outside (x mask : Nat) : Bool := x % 2 ^ 64 &&& mask != x % 2 ^ 64

/-- A fixed part, left out when empty. -/
def auxFixed (n : Nat) : List AuxPart := if n = 0 then [] else [.fixed n]

/-- The PARAM layout of ML-DSA and SLH-DSA, and what of it a sign or a verify uses (05, R104; 06, R125). -/
def dsaParamOk (p : Nat) (sign fn : Bool) : Bool :=
  let mask := 0xFF + (if fn then 0 else 0x600 + 0xFF0000) + (if sign then (if fn then 0 else 0x100) else 0x800)
  let ph := bitsOf p 23 16
  !outside p mask &&
  (if bitOf p 9 then [0x02, 0x03, 0x04, 0x12, 0x13, 0x14, 0x21, 0x22].contains ph else ph == 0 && !bitOf p 10)

/-- SRC of a signature over a message: the message, or the digest supplied. -/
def msgSrc (p code : Nat) : SrcUse := if bitOf p 10 then .oneOf [hashLen code] else .any

/-- Fields of families 0x1 to 0x3. -/
def pqFields (op p : Nat) : Fields :=
  let alg := algOf op
  let inl := bitOf p 11
  let fn := alg / 0x100 == 0x24
  let ctx := auxFixed (bitsOf p 7 0)
  if famOf op = 1 then
    match kindOf op with
    | .keygen => { aux := if bitOf p 12 then [.fixed 64] else [], dst := true, ok := !outside p 0x1000 }
    | .encaps => { key := !inl, src := if inl then .oneOf [pkLen alg] else .none, dst := true, ok := !outside p 0x800 }
    | _ => { key := true, src := .oneOf [sigLen alg], ok := p == 0 }
  else if stateful alg then
    let hss := alg / 0x100 == 0x34
    match kindOf op with
    | .keygen =>
      { dst := true,
        ok := if hss then
            let ls := hssLevels (psetOf op) p
            !outside p (0x3FF00000000 + (if psetOf op = 1 then 0xFFFF else 0xFFFFFFFF)) &&
            ls.all (fun l => lmsOk l.1 l.2) &&
            ls.all (fun l => lmsGroup l.1 == lmsGroup (bitsOf p 7 0)) &&
            decide ((ls.map fun l => lmsH l.1).sum ≤ 60)
          else !outside p 0x3FF00000000 }
    | .sign => { key := true, src := .any, dst := true, ok := p == 0 }
    | .verify =>
      { key := !inl, src := .any,
        aux := (if inl then (if hss then [.hssKey] else [.fixed (pkLen alg)]) else []) ++
          (if hss then [.hssSig (psetOf op)] else [.fixed (sigLen alg)]),
        ok := !outside p 0x800 }
    | _ => { key := true, ok := p == 0 }
  else
    match kindOf op with
    | .keygen =>
      { aux := if bitOf p 12 then [.fixed (if famOf op = 2 then 32 else 3 * (pkLen alg / 2))] else [], dst := true,
        ok := !outside p (if fn then 0 else 0x1000) }
    | .sign => { key := true, src := msgSrc p (bitsOf p 23 16), aux := ctx, dst := true, ok := dsaParamOk p true fn }
    | _ =>
      { key := !inl, src := msgSrc p (bitsOf p 23 16),
        aux := (if inl then [.fixed (pkLen alg)] else []) ++ [.fixed (sigLen alg)] ++ ctx,
        ok := dsaParamOk p false fn }

/-- Fields of families 0x4 and 0x5 (07, R154, R155). -/
def classicFields (op p : Nat) : Fields :=
  let alg := algOf op
  let inl := bitOf p 11
  let hash := bitsOf p 23 16
  let hOk := isSha2 hash || isSha3 hash
  let k := 32 * psetOf op
  match alg / 0x100, kindOf op with
  | 0x40, .keygen => { dst := true, ok := p == 0 }
  | 0x40, .encaps => { key := !inl, src := if inl then .oneOf [pkLen alg] else .none, dst := true, ok := !outside p 0x800 }
  | 0x44, .keygen => { aux := if bitOf p 12 then [.fixed 32] else [], dst := true, ok := !outside p 0x1000 }
  | 0x44, .encaps => { key := true, dst := true, ok := p == 0 }
  | _, .decaps => { key := true, src := .oneOf [sigLen alg], ok := p == 0 }
  | _, .keygen => { dst := true, ok := p == 0 }
  | 0x50, .sign => { key := true, src := msgSrc p hash, dst := true, ok := !outside p 0xFF2500 && hOk }
  | 0x50, .verify =>
    { key := !inl, src := msgSrc p hash,
      aux := (if inl then [.point (pkLen alg)] else []) ++
        (if bitOf p 13 then [.derSig (derMax alg)] else [.fixed (sigLen alg)]),
      ok := !outside p 0xFF2C00 && hOk }
  | 0x54, .sign =>
    { key := true, src := .any, aux := auxFixed (bitsOf p 7 0), dst := true,
      ok := !outside p (if psetOf op = 2 then 0xFF else 0) }
  | 0x54, .verify =>
    { key := !inl, src := .any,
      aux := (if inl then [.fixed (pkLen alg)] else []) ++ [.fixed (sigLen alg)] ++ auxFixed (bitsOf p 7 0),
      ok := !outside p (if psetOf op = 2 then 0x8FF else 0x800) }
  | 0x59, .sign =>
    { key := true, src := msgSrc p hash, dst := true,
      ok := !outside p 0xFFFF8400 && hOk && (if bitOf p 15 then decide (bitsOf p 31 24 ≤ hashLen hash) else bitsOf p 31 24 == 0) }
  | 0x59, .verify =>
    { key := !inl, src := msgSrc p hash,
      aux := (if inl then [.derKey (rsaMax (psetOf op))] else []) ++ [.fixed (sigLen alg)],
      ok := !outside p 0xFFFF8C00 && hOk && (if bitOf p 15 then decide (bitsOf p 31 24 ≤ hashLen hash) else bitsOf p 31 24 == 0) }
  | _, .oaepEnc =>
    { key := !inl, src := .upTo 0 (k - 2 * hashLen hash - 2),
      aux := (if inl then [.derKey (rsaMax (psetOf op))] else []) ++ auxFixed (bitsOf p 43 32), dst := true,
      ok := !outside p 0xFFF00FF0800 && isSha2 hash && decide (2 * hashLen hash + 2 ≤ k) }
  | _, .oaepDec =>
    { key := true, src := .oneOf [k], aux := auxFixed (bitsOf p 43 32), dst := !bitOf p 14,
      ok := !outside p 0xFFFFF00FF4000 && isSha2 hash &&
        (if bitOf p 14 then decide (16 ≤ bitsOf p 51 44) && decide (bitsOf p 51 44 ≤ 64) else bitsOf p 51 44 == 0) }
  | 0x50, _ => { key := true, src := .oneOf [pkLen alg, compLen alg], ok := p == 0 }
  | _, _ => { key := true, src := .oneOf [pkLen alg], ok := p == 0 }

/-- The longest message of an AEAD (08, R176). -/
def aeadMax (op p : Nat) : Nat :=
  if 9 ≤ operOf op then 274877906880
  else if operOf op ≤ 1 then 68719476704
  else min (2 ^ (8 * (15 - bitsOf p 19 16)) - 1) (2 ^ 48 - 1)

/-- PARAM of an AEAD (08, R177). -/
def aeadParamOk (op p : Nat) : Bool :=
  if operOf op = 2 ∨ operOf op = 3 then
    !outside p 0xFFFFFF && decide (7 ≤ bitsOf p 19 16) && decide (bitsOf p 19 16 ≤ 13) &&
    decide (2 ≤ bitsOf p 23 20) && decide (bitsOf p 23 20 ≤ 8)
  else !outside p 0xFFFF

/-- Nonce and tag lengths of an AEAD. -/
def nonceLen (op p : Nat) : Nat := if operOf op = 2 ∨ operOf op = 3 then bitsOf p 19 16 else 12
def tagLen (op p : Nat) : Nat := if operOf op = 2 ∨ operOf op = 3 then 2 * bitsOf p 23 20 else 16

/-- SRC of an authenticated mode: unused for an empty message (08, R178). -/
def aeadSrc (op p len : Nat) : SrcUse := if len = 0 then .none else .upTo 1 (aeadMax op p)

/-- Fields of family 0x6 (08, R176-R178, R195, R196). -/
def symmFields (op p len : Nat) : Fields :=
  match kindOf op with
  | .seal => { key := true, src := aeadSrc op p len, aux := auxFixed (bitsOf p 15 0), dst := true, ok := aeadParamOk op p }
  | .unseal =>
    { key := true, src := aeadSrc op p len, aux := [.fixed (nonceLen op p + tagLen op p + bitsOf p 15 0)], dst := true,
      ok := aeadParamOk op p }
  | .ctr =>
    { key := true, src := .upTo 1 (if bitOf p 24 then 2 ^ 48 - 1 else 68719476736),
      aux := if bitOf p 24 then [.fixed 16] else [], dst := true, ok := !outside p 0x1000000 }
  | .wrap =>
    { key := true, src := .upTo (if bitOf p 25 then 1 else 16) 65536, dst := true,
      ok := !outside p 0x2000000 && (bitOf p 25 || len % 8 == 0) }
  | .unwrap =>
    { key := true, src := .upTo (if bitOf p 25 then 16 else 24) 65544, dst := true,
      ok := !outside p 0x2000000 && len % 8 == 0 }
  | _ =>
    let u := bitsOf p 56 32
    { key := true, src := .upTo 1 (2 ^ 48 - 1), aux := [.fixed 16], dst := true,
      ok := !outside p 0x1FFFFFF00000000 && decide (16 ≤ u) && decide (u ≤ 2 ^ 24) && len % u == 0 }

/-- Fields of family 0x7 (06, R141, R142, R146, R149). -/
def digestFields (op p len : Nat) (toLog : Bool) : Fields :=
  let out := bitsOf p 31 0
  let nl := bitsOf p 39 32
  let sl := bitsOf p 51 40
  let slot := bitOf p 52
  let c := psetOf op
  let reg := if toLog then 0x3F00000000000000 else 0
  let cs := c == 0x23 || c == 0x24
  let km := c == 0x31 || c == 0x32
  match kindOf op with
  | .digest => { src := .any, dst := !toLog, ok := !outside p reg }
  | .xof =>
    { src := .any, aux := auxFixed (nl + sl), dst := !toLog,
      ok := !outside p (reg + 0xFFFFFFFF + (if cs then 0xFFFFF00000000 else 0)) && decide (1 ≤ out) &&
        decide (out ≤ (if toLog then 64 else 16777216)) }
  | .mac =>
    { key := true, src := .any, aux := auxFixed (if km && !slot then sl else 0), dst := !toLog,
      ok := !outside p (reg + 0x100000000000FF + 0xFFFFFF00 + (if km then 0x20000000000000 + (if slot then 0 else 0xFFF0000000000) else 0)) &&
        (if km then decide (4 ≤ out) && decide (out ≤ (if toLog then 64 else 1024))
         else out == 0 || (decide (16 ≤ out) && decide (out ≤ hashLen c))) }
  | .macVerify =>
    { key := true, src := .any, aux := auxFixed ((if out = 0 then hashLen c else out) + (if km && !slot then sl else 0)),
      ok := !outside p (0x100000FFFFFFFF + (if km then 0x20000000000000 + (if slot then 0 else 0xFFF0000000000) else 0)) &&
        (if km then decide (4 ≤ out) && decide (out ≤ 1024)
         else out == 0 || (decide (16 ≤ out) && decide (out ≤ hashLen c))) }
  | .hkdf =>
    { key := true, src := if len = 0 then .none else .upTo 0 255, aux := auxFixed sl,
      ok := !outside p 0xFFF00FFFFFFFF && decide (16 ≤ out) && decide (out ≤ 1024) }
  | .kdf => { key := true, aux := auxFixed sl, ok := !outside p 0xFFF00FFFFFFFF && decide (16 ≤ out) && decide (out ≤ 1024) }
  | .slotLoad =>
    let code := bitsOf p 7 0
    let k := code == 0x31 || code == 0x32
    { key := true, aux := auxFixed (if k then sl else 0),
      ok := !outside p (0xFF + (if k then 0xFFF0000000000 else 0)) && (isSha2 code || isSha3 code || k) }
  | _ => { key := true, ok := p == 0 }

/-- Fields of families 0x8 to 0xA and 0xF (09, R213; 13, R299; 14, R336; 02, R513). -/
def serviceFields (op p : Nat) : Fields :=
  match op with
  | 0x8000 => { aux := if bitOf p 12 then [.fixed 64, .seed] else [.fixed 64], dst := true }
  | 0x8100 =>
    let f := bitsOf p 3 0
    { key := f != 3, src := .any, aux := if f = 3 then [.fixed 64] else [], ok := decide (1 ≤ p) && decide (p ≤ 3) }
  | 0x8200 =>
    let f := bitsOf p 35 32
    { key := true, dst := true,
      ok := !outside p 0xFFFFFFFFF && decide (1 ≤ f) && decide (f ≤ 3) && (f != 3 || bitsOf p 31 0 == 0) }
  | 0x8300 => { key := true, ok := p == 0 }
  | 0x8400 => { key := true, dst := true, ok := p == 0 }
  | 0x8500 => { dst := true, ok := !outside p 0xFFFF && p != 0 }
  | 0x9000 => { src := .any, dst := true, ok := p == 0 }
  | 0x9100 => { src := .any, ok := p == 0 }
  | 0x9200 => { dst := true }
  | 0x9300 => { src := .any, dst := true, ok := p == 0 }
  | 0x9400 => { dst := true, ok := p == 0 || p == 1 }
  | 0x9500 => { dst := true, ok := p == 0 }
  | 0xA000 => { src := .oneOf [64], ok := p == 0 }
  | 0xA300 => { partner := true, ok := p == 0 || p == 1 }
  | 0xA400 => { partner := true, src := .upTo 1 131072, ok := p == 0 }
  | 0xA500 =>
    { partner := true, dst := true,
      ok := !outside p 0x7FFFF && decide (1 ≤ bitsOf p 17 0) && decide (bitsOf p 17 0 ≤ 131072) }
  | 0xF000 =>
    { ok := !outside p 0xFFFFFFFFFF07 && decide (1 ≤ bitsOf p 2 0) && decide (bitsOf p 2 0 ≤ 5) &&
        decide (1 ≤ bitsOf p 47 8) && decide (bitsOf p 47 8 ≤ 2 ^ 24) }
  | 0xF001 => { ok := !outside p 0xFFFF && definedOp p && decide (1 ≤ famOf p) && decide (famOf p ≤ 7) }
  | 0xF002 => { ok := p == 0 }
  | _ => { partner := true, ok := p == 0 }

/-- The fields of any operation but the administrative ones. -/
def fieldsOf (op p len : Nat) (toLog : Bool) : Fields :=
  match famOf op with
  | 1 => pqFields op p
  | 2 => pqFields op p
  | 3 => pqFields op p
  | 4 => classicFields op p
  | 5 => classicFields op p
  | 6 => symmFields op p len
  | 7 => digestFields op p len toLog
  | _ => serviceFields op p

/-- SRC and TOTAL_LEN are as an operation uses them. -/
def srcOk (u : SrcUse) (J : Job) : Bool :=
  match u with
  | .none => J.srcAddr == 0 && J.totalLen == 0 && J.fragCount == 0 && J.entries == 1
  | .any => true
  | .oneOf ns => ns.contains J.totalLen
  | .upTo lo hi => lo ≤ J.totalLen && J.totalLen ≤ hi

/-- The classes that an operation's rules fix (13, R299; 14, R336). -/
def clsOk (op cls : Nat) : Bool :=
  if famOf op = 9 ∨ op = 0xA200 ∨ op = 0xA600 then cls == 7 else true

/-- Row 2 of R123 as far as it needs only the entry (05, R105; 10, R224, R227, R511; 06, R149; 02, R43). -/
def entryOk (J : Job) : Bool :=
  let p := J.param.toNat
  let fl := J.flags.toNat
  let F := fieldsOf J.opcode p J.totalLen (fLogbook fl)
  F.ok && clsOk J.opcode J.cls &&
  (F.key || J.handle == 0) && (F.partner || J.partner == 0) && (F.dst || J.dst == 0) &&
  (!F.aux.isEmpty || J.aux == 0) && srcOk F.src J &&
  (!fProvisional fl || [OpKind.unseal, .unwrap].contains (kindOf J.opcode)) &&
  (!fLogbook fl || J.opcode / 0x100 == 0x70 || J.opcode / 0x100 == 0x71 || J.opcode / 0x100 == 0x72 ||
    J.opcode / 0x100 == 0x74) &&
  (J.entries != 1 || fIndirect fl == decide (0 < J.fragCount))

/-! ### Keys of an operation (09, R205, R206, R512) -/

/-- The key length that a SECRET key must have to serve an opcode; none for any length; some 0 where it never serves. -/
def secretLen (op : Nat) : Option Nat :=
  if famOf op = 6 then
    if operOf op = 5 ∨ operOf op = 6 then some (if psetOf op = 1 then 32 else 64)
    else if 9 ≤ operOf op then some 32
    else some (8 + 8 * psetOf op)
  else if famOf op = 7 then none else some 0

/-- An opcode accepts a key by its algorithm (R205; 05, R123). A key of the other KIND of that algorithm lacks the usage
bit (R512). -/
def algOk (op : Nat) (K : Key) : Bool :=
  if K.alg = 0x7000 then
    match secretLen op with
    | none => true
    | some n => n != 0 && K.material.length == n
  else if kindOf op = .leafStatus then K.alg / 0x100 == algOf op / 0x100 && K.kind == .priv
  else K.alg == algOf op

/-- The usage bits any of which an operation needs (R206). -/
def usageNeeded (op p : Nat) : List Nat :=
  match kindOf op with
  | .sign => [0]
  | .verify => [1]
  | .seal => [2]
  | .xtsEnc => [2]
  | .oaepEnc => [2]
  | .unseal => [3]
  | .xtsDec => [3]
  | .ctr => if bitOf p 24 then [3] else [2]
  | .oaepDec => if bitOf p 14 then [5] else [3]
  | .wrap => [4]
  | .unwrap => [5]
  | .encaps => [6]
  | .decaps => [7]
  | .agree => [8]
  | .hkdf => [9]
  | .kdf => [9]
  | .mac => [10]
  | .macVerify => [11]
  | .slotLoad => [10, 11]
  | _ => []

/-- The usages that an ALG and KIND can serve, as a mask (R512). -/
def usageMask (alg : Nat) (kind : KeyKind) (len : Nat) : Nat :=
  if alg = 0x7000 then (if kind = .secret then 0x0E3C + (if len = 32 then 0x3000 else 0) else 0)
  else if alg = 0x8101 then (match kind with | .priv => 0x1000 | .pub => 0x2000 | .secret => 0)
  else match famOf alg, kind with
    | 1, .priv => 0x80
    | 1, .pub => 0x40
    | 4, .priv => 0x80
    | 4, .pub => 0x40
    | 2, .priv => 1
    | 2, .pub => 2
    | 3, .priv => 1
    | 3, .pub => 2
    | 5, .priv => if alg / 0x100 = 0x50 then 0x101 else if alg / 0x100 = 0x54 then 1
        else if alg / 0x100 = 0x57 then 0x100 else 0x29
    | 5, .pub => if alg / 0x100 = 0x57 then 0 else if alg / 0x100 = 0x59 then 6 else 2
    | 6, .secret => if alg < 0x6100 then 0x3C + (if alg = 0x6003 then 0x3000 else 0) else 0xC
    | _, _ => 0

/-- The algorithm codes (R204). -/
def algDefined (alg : Nat) : Bool :=
  alg == 0x7000 || alg == 0x8101 || alg == 0x6001 || alg == 0x6002 || alg == 0x6003 || alg == 0x6501 ||
  alg == 0x6503 || alg == 0x6900 ||
  (1 ≤ famOf alg && famOf alg ≤ 5 && definedOp alg && kindOf alg == .keygen && alg / 0x10 != 0x441) ||
  (alg / 0x100 == 0x59 && isRsa (psetOf alg))

/-- The KINDs an algorithm has. -/
def kindFits (alg : Nat) (kind : KeyKind) : Bool :=
  if alg = 0x7000 ∨ famOf alg = 6 then kind == .secret else kind != .secret

/-- The lengths of a secret key of an algorithm. -/
def secretFits (alg len : Nat) : Bool :=
  if alg = 0x7000 then 16 ≤ len && len ≤ 1024
  else match alg with
    | 0x6001 => len == 16 | 0x6002 => len == 24 | 0x6003 => len == 32 | 0x6501 => len == 32 | 0x6503 => len == 64
    | 0x6900 => len == 32 | _ => false

/-- A length that an algorithm's standard gives for a public key (R215). -/
def publicFits (alg : Nat) (len : Nat) : Bool :=
  if alg / 0x100 = 0x50 then len == pkLen alg || len == compLen alg
  else if alg / 0x100 = 0x59 then 32 * psetOf alg < len && len ≤ rsaMax (psetOf alg)
  else if alg / 0x100 = 0x34 then len == 52 || len == 60
  else len == pkLen alg

/-- The attributes a key takes that a job creates outside GENERATE and IMPORT, from its parent if it has one (R207). -/
def defaultKey (alg : Nat) (kind : KeyKind) (owner : Nat) (material pub : Bytes) (parent : Option (Nat × Key)) : Key :=
  let st := stateful alg && kind == .priv
  let base : Key := {
    alg := alg, kind := kind, owner := owner, material := material, pubPart := pub,
    usage := BitVec.ofNat 32 (if kind = .secret then 0x0E3C else usageMask alg kind material.length),
    expPol := if st then 0 else 1, limit := 2 ^ 32, flags := if st then 0x0A#8 else 0 }
  match parent with
  | none => base
  | some (h, P) => { base with
      flags := base.flags ||| 0x10#8 ||| (P.flags &&& 1#8), parent := h, expPol := min base.expPol P.expPol,
      minAl := max base.minAl P.minAl }

/-- The 64 bytes of an attribute record (R204). -/
def attrBytes (K : Key) : Bytes :=
  le 2 K.alg ++ le 1 (match K.kind with | .secret => 1 | .priv => 2 | .pub => 3) ++ [K.flags] ++ le 4 K.usage.toNat ++
  le 2 K.owner ++ le 1 K.expPol ++ le 1 K.minAl ++ le 4 K.material.length ++ le 8 K.limit ++ le 8 K.uses ++
  le 8 K.created ++ le 4 K.parent ++ le 10 K.ctr ++ zeros 10

/-- A template's fields (R204). -/
structure Template where
  alg    : Nat
  kind   : Nat
  flags  : BitVec 8
  usage  : Nat
  owner  : Nat
  expPol : Nat
  minAl  : Nat
  len    : Nat
  limit  : Nat
  clean  : Bool      -- the fields marked device and the reserved ones are zero
deriving DecidableEq, Repr

/-- Sixty-four bytes as a template. -/
def parseTemplate (b : Bytes) : Template :=
  { alg := leAt b 0 2, kind := leAt b 2 1, flags := BitVec.ofNat 8 (leAt b 3 1), usage := leAt b 4 4, owner := leAt b 8 2,
    expPol := leAt b 10 1, minAl := leAt b 11 1, len := leAt b 12 4, limit := leAt b 16 8,
    clean := allZero (sliceOf b 24 40) && leAt b 3 1 < 8 }

/-- KIND of a template. -/
def templateKind (T : Template) : KeyKind := if T.kind = 1 then .secret else if T.kind = 2 then .priv else .pub

/-- The part of R204, R206 and R512 that holds for every template; `f` is the submitting function (R202). -/
def templateOk (T : Template) (f : Nat) : Bool :=
  T.clean && algDefined T.alg && decide (1 ≤ T.kind) && decide (T.kind ≤ 3) && kindFits T.alg (templateKind T) &&
  T.owner ≤ 0x101 && (f == 0 || T.owner == f) && T.expPol ≤ 1 && 1 ≤ T.minAl && T.minAl ≤ 2 &&
  T.usage &&& usageMask T.alg (templateKind T) T.len == T.usage

/-- The key that a template and its material make. -/
def templateKey (T : Template) (material pub : Bytes) (imported : Bool) : Key :=
  { alg := T.alg, kind := templateKind T, flags := T.flags ||| (if imported then 0x20#8 else 0),
    usage := BitVec.ofNat 32 T.usage, owner := T.owner, expPol := T.expPol, minAl := T.minAl, limit := T.limit,
    material := material, pubPart := pub }

end Sys2Proof.Machine
end

