-- ==== Sys2Proof/Machine/PrivateMem.lean ====
section
/-! DEFINITION. Private memory: where a data address lies, the encryption and MAC of a line, the split counters and their
tree, and the sealed record of a key (01_architecture.md R32-R35; 09_key_store.md R198, R199, R203). What a line holds is
free (log 1); which lines are written, when, and under which version is the spec's. -/

namespace Sys2Proof.Machine

/-! ### AES-256-GCM on byte strings -/

/-- A data string under the keystream whose blocks of `w` bytes are a block function of successive counter blocks. -/
def underStream (alg w : Nat) (key : Bytes) (blk : Nat → Bytes) (data : Bytes) : Bytes :=
  xorBytes data ((List.range data.length).map fun i => Config.primByte (.ctr alg) [key, blk (i / w)] (i % w))

/-- The ciphertext of GCM, or the plaintext of a ciphertext. -/
def gcmStream (key nonce data : Bytes) : Bytes := underStream 0x6000 16 key (fun i => nonce ++ be 4 ((i + 2) % 2 ^ 32)) data

/-- The 16-byte tag of GCM. -/
def gcmTag (key nonce aad text : Bytes) : Bytes := prim (.aeadTag 0) [key, nonce, aad, text] 16

/-- Ciphertext and tag. -/
def gcmSeal (key nonce aad m : Bytes) : Bytes :=
  let c := gcmStream key nonce m
  c ++ gcmTag key nonce aad c

/-- The plaintext of ciphertext and tag, where the tag verifies. -/
def gcmOpen (key nonce aad ct : Bytes) : Option Bytes :=
  let n := ct.length - 16
  if 16 ≤ ct.length ∧ gcmTag key nonce aad (ct.take n) = ct.drop n then some (gcmStream key nonce (ct.take n)) else none

/-! ### Roots and sealing keys (09, R198) -/

/-- The key derivation of R198. -/
def kdf198 (k label : Bytes) : Bytes := kmac256 k label [] 32

/-- A root as the NVS holds it, wrapped under another: the wrapping is AES key wrap with padding (log 82). -/
def wrapRoot (under key : Bytes) : Bytes := prim (.wrap true) [under, key] (8 * ceilDiv key.length 8 + 8)

/-- The device root as the NVS holds it, under KDF(DUS, "psibuaz-dr"). -/
def LifeCycle.drNvs (l : LifeCycle) : Option Bytes :=
  l.dr.bind fun d => l.dus.map fun u => wrapRoot (kdf198 u (ascii "psibuaz-dr")) d

/-- The owner root as the NVS owner region holds it, under the device root. -/
def LifeCycle.orNvs (l : LifeCycle) : Option Bytes := l.ownerRoot.bind fun o => l.dr.map fun d => wrapRoot d o

/-- The private memory sealing key as the NVS holds it, under the device root. -/
def LifeCycle.pmkNvs (l : LifeCycle) : Option Bytes := l.pmk.bind fun k => l.dr.map fun d => wrapRoot d k

/-- The root that function sealing keys derive from: the owner root in OWNED and DEPLOYED, the device root in PROVISION and
RETURNED. -/
def LifeCycle.sealRoot (l : LifeCycle) : Option Bytes :=
  match l.state with
  | .owned => l.ownerRoot
  | .deployed => l.ownerRoot
  | .provision => l.dr
  | .returned => l.dr
  | _ => none

/-- FSK[f]: derived at boot, held on die. -/
def LifeCycle.fsk (l : LifeCycle) (f : Nat) : Option Bytes := l.sealRoot.map fun k => kdf198 k (ascii "fsk" ++ le 2 f)

/-! ### Where data lies (01, R32) -/

/-- Data bytes of a port: 7/8 of what is installed. -/
def dataBytes (gib : Nat) : Nat := gib * 2 ^ 30 * 7 / 8

/-- The two ports are interleaved: both populated, with equal capacity. -/
def State.interleaved (s : State) : Bool := pmemsOf s.variant == 2 && s.host.pmem1 != 0 && s.host.pmem0 == s.host.pmem1

/-- The port of a data address, and the address in that port's data: 4 KiB interleave, or port 1 after port 0. -/
def State.pmemPlace (s : State) (a : Nat) : Nat × Nat :=
  if s.interleaved then (a / 4096 % 2, a / 8192 * 4096 + a % 4096)
  else if pmemsOf s.variant = 1 ∨ s.host.pmem1 = 0 ∨ a < dataBytes s.host.pmem0 then (0, a) else (1, a - dataBytes s.host.pmem0)

/-- Start of region `i` in the data space, in bytes (22_registers.md R484; free, log 51). -/
def regionBase (i : Nat) : Nat := Config.primNat (.image 22) [le 1 i] % 2 ^ 32 * 2 ^ 20

/-- The data address of an object of a region; its place in the region is free (log 82). -/
def objectAt (region id : Nat) : Nat := regionBase region + 64 * Config.primNat (.image 23) [le 1 region, le 8 id]

/-- The port that holds an object. -/
def State.portOf (s : State) (region id : Nat) : Nat := (s.pmemPlace (objectAt region id)).1

/-! ### Lines (01, R33, R34) -/

/-- The 64-bit MAC of a line over its ciphertext, its address and, in a sealed region, its version. -/
def lineMac (key : Bytes) (a : Nat) (version cipher : Bytes) : Bytes := prim .lineMac [key, le 8 a, version, cipher] 8

/-- The line of 64 bytes at `a` as the port's device holds it: XTS under the sealing key with the address as the tweak. -/
def sealedLine (key : Bytes) (a : Nat) (version m : Bytes) : PLine :=
  let c := prim (.xts 0x6500 true) [key, le 16 a, m] 64
  { cipher := c, mac := lineMac key a version c }

/-- The version of a line of a sealed region: its group's major counter and its own minor counter. -/
def CtrBlock.version (B : CtrBlock) (i : Nat) : Bytes := le 8 B.major ++ le 1 ((tget B.minors i).getD 0)

/-- A counter block as 64 bytes. -/
def CtrBlock.bytes (B : CtrBlock) : Bytes :=
  le 64 (B.major % 2 ^ 64 + 2 ^ 64 * ((List.range 64).map fun i => (tget B.minors i).getD 0 * 128 ^ i).sum)

/-- The key of the lines; none before PROVISION. -/
def State.lineKey (s : State) : Bytes := s.lc.pmk.getD []

/-- Node `i` of level `l` of the counter tree; level 0 are the counter blocks. -/
def PrivMem.node (p : PrivMem) (l i : Nat) : Bytes :=
  if l = 0 then ((tget p.blocks i).getD {}).bytes else (tget p.tree (l * 2 ^ 32 + i)).getD (zeros 8)

/-- The path of counter block `g` to the root is computed again: each node covers its eight children. -/
def PrivMem.climb (p : PrivMem) (key : Bytes) (g : Nat) : PrivMem :=
  (List.range 10).foldl (fun p k =>
    let i := g / 8 ^ (k + 1)
    let children := (List.range 8).map fun c => p.node k (8 * i + c)
    { p with tree := tput p.tree ((k + 1) * 2 ^ 32 + i) (prim .lineMac (key :: le 8 i :: children) 8) }) p

/-- The group's lines under its new major counter: each is read and written again. -/
def PrivMem.reencrypt (p : PrivMem) (key : Bytes) (g : Nat) (B : CtrBlock) : PrivMem :=
  { p with
    blocks := tput p.blocks g B,
    lines := tmap p.lines fun n L =>
      if n / 64 = g then sealedLine key (64 * n) (B.version (n % 64)) (prim (.xts 0x6500 false) [key, le 16 (64 * n), L.cipher] 64)
      else L }

/-- A line of a sealed region is written: its minor counter advances; past 127 the major counter does, and the group's
4 KiB are encrypted again, which its port counts. -/
def PrivMem.sealLine (k : Bytes) (port : Nat → Nat) (p : PrivMem) (a : Nat) (m : Bytes) : PrivMem :=
  let g := a / 4096
  let i := a / 64 % 64
  let B := (tget p.blocks g).getD {}
  let n := (tget B.minors i).getD 0
  let c := port a
  let p := if n = 127 then { p.reencrypt k g { major := B.major + 1 } with
      again := tput p.again c (satAdd 64 ((tget p.again c).getD 0) 1) }
    else { p with blocks := tput p.blocks g { B with minors := tput B.minors i (n + 1) } }
  { p with lines := tput p.lines (a / 64) (sealedLine k a (((tget p.blocks g).getD {}).version i) m) }.climb k g

/-- A line of a bulk region is written: no version. -/
def PrivMem.bulkLine (k : Bytes) (p : PrivMem) (a : Nat) (m : Bytes) : PrivMem :=
  { p with lines := tput p.lines (a / 64) (sealedLine k a [] m) }

/-- A string written line by line from an address, the last line filled with zeros. -/
def eachLine (f : PrivMem → Nat → Bytes → PrivMem) (p : PrivMem) (a : Nat) (m : Bytes) : PrivMem :=
  (List.range (ceilDiv m.length 64)).foldl (fun t i => f t (a + 64 * i) (fit 64 (sliceOf m (64 * i) 64))) p

/-- An object of a sealed region is written. -/
def State.sealObject (s : State) (region id : Nat) (m : Bytes) : State :=
  { s with pmem := eachLine (PrivMem.sealLine s.lineKey fun a => (s.pmemPlace a).1) s.pmem (objectAt region id) m }

/-- An object of a bulk region is written. -/
def State.bulkObject (s : State) (region id : Nat) (m : Bytes) : State :=
  { s with pmem := eachLine (PrivMem.bulkLine s.lineKey) s.pmem (objectAt region id) m }

/-! ### The record of a key (09, R199, R203) -/

/-- The region that holds a key: the McEliece public keys have their own. -/
def keyRegion (K : Key) : Nat := if K.alg / 0x100 = 0x44 ∧ K.kind = .pub then 4 else 0

/-- A key's attribute record and its material under the FSK of its owner, with a nonce of its own: the AAD is the handle
and the record. -/
def State.keyBlob (s : State) (handle : Nat) (K : Key) : Bytes :=
  let a := attrBytes K
  a ++ gcmSeal ((s.lc.fsk K.owner).getD []) (le 12 s.pmem.nonce) (le 4 handle ++ a) K.material

/-- The sealed record of the key at index `i` is written to the key store, and to the NVS where it is persistent. -/
def State.sealKey (s : State) (i : Nat) (K : Key) : State :=
  let b := s.keyBlob (mkHandle i ((tget s.keys.gens i).getD 0)) K
  let nvs := if K.flags.getLsbD 1 then tput s.pmem.nvsKeys i b else s.pmem.nvsKeys
  { s with pmem := { s.pmem with nonce := s.pmem.nonce + 1, nvsKeys := nvs } }.sealObject (keyRegion K) i b

/-- The copies of the key at index `i` are overwritten with zeros. -/
def State.unsealKey (s : State) (i : Nat) (K : Key) : State :=
  { s with pmem := { s.pmem with nvsKeys := tdel s.pmem.nvsKeys i } }.sealObject (keyRegion K) i
    (zeros (80 + K.material.length))

/-- Every key is sealed again under the FSK in force (R199). -/
def State.resealKeys (s : State) : State := { s with pmem := (s.keys.live.foldl (fun t e => t.sealKey e.1 e.2) s).pmem }

/-- At boot, the key store takes the NVS records of the persistent keys (R203). -/
def State.copyKeys (s : State) : State :=
  { s with pmem := (s.pmem.nvsKeys.foldl (fun t e => t.sealObject 0 e.1 e.2) s).pmem }

/-- The shadow of a stateful key's leaf state is written (01, R33's table). -/
def State.sealShadow (s : State) (i : Nat) : State :=
  s.sealObject 3 i ((((s.key? i).bind (·.hbs)).map fun H => le 8 H.reserved ++ le 8 H.next).getD [])

end Sys2Proof.Machine
end

