-- ==== Sys2Proof/Machine/Logging.lean ====
section
/-! DEFINITION. The logbook unit and the audit records (15_logbook_attestation.md R352-R361, R514). -/

namespace Sys2Proof.Machine

/-- The limit of COUNT (R354). -/
def countMax : Nat := 0xFFFFFFFF

/-- The bytes of an audit record (R358). -/
def auditRecord (type seq time elapsed reg flags node count epoch : Nat) (prev body : Bytes) : Bytes :=
  le 4 0x54445541 ++ le 2 1 ++ le 2 type ++ le 8 seq ++ le 8 time ++ le 8 elapsed ++ le 1 reg ++ le 1 flags ++
  le 2 node ++ le 4 count ++ le 2 epoch ++ le 2 body.length ++ zeros 4 ++ prev ++ fit 160 body

/-- How many records the region holds (R360). -/
def Logbook.capacity (l : Logbook) : Nat := l.regionMib * 4096

/-- The records kept in reserve (R361). -/
def Logbook.reserve (l : Logbook) : Nat := l.capacity / 16

/-- Append one record to the region, AUDIT_SEQ taken. -/
def State.putRecord (s : State) (type r flags : Nat) (body : Bytes) : State :=
  let L := s.logReg r
  let rec_ := auditRecord type s.log.seq s.helmTime s.time.elapsed r flags s.cluster.node L.count L.epoch
    s.log.prev body
  let s := s.sealObject 2 (s.log.seq % max s.log.capacity 1) rec_
  let full := decide (s.log.capacity ≤ s.log.records.length + 1 + s.log.reserve)
  let t := { s with log := { s.log with
    seq := s.log.seq + 1, prev := sha384 rec_, records := s.log.records ++ [rec_],
    nearFull := s.log.nearFull || full } }
  if full && !s.log.nearFull then t.glbEvent 3 else t

/-- Write an audit record for register `r`; with no room it is dropped and counted, and the first one written after
room returns is preceded by a LOSS record (R358, R359, R361). -/
def State.writeRecord (s : State) (type r flags : Nat) (body : Bytes) : State :=
  if s.log.records.length < s.log.capacity then
    match s.log.gapFirst with
    | none => s.putRecord type r flags body
    | some (first, n) =>
      let t := { s with log := { s.log with gapFirst := none } }.putRecord 0x00F1 r 0 (le 8 first ++ le 8 n)
      if t.log.records.length < t.log.capacity then t.putRecord type r flags body
      else { t with log := { t.log with
        seq := t.log.seq + 1, lost := satAdd 32 t.log.lost 1, gapFirst := some (t.log.seq, 1) } }
  else
    { s with log := { s.log with
      seq := s.log.seq + 1, lost := satAdd 32 s.log.lost 1,
      gapFirst := match s.log.gapFirst with
        | none => some (s.log.seq, 1)
        | some (f, n) => some (f, n + 1) } }

/-- An epoch roll of register `r` and its record (R355). -/
def State.roll (s : State) (r : Nat) : State :=
  let L := s.logReg r
  let v := sha384 (ascii "psibuaz-epoch" ++ L.value ++ le 4 L.count ++ le 2 (L.epoch + 1))
  (s.modLog r fun L => { L with value := v, count := 0, epoch := L.epoch + 1 }).writeRecord 0x00F0 r 0
    (le 4 L.count ++ le 2 (L.epoch + 1))

/-- Apply an extend to register `r` (R353). -/
def State.extendBy (s : State) (r : Nat) (data : Bytes) : State :=
  s.modLog r fun L => { L with value := sha384 (L.value ++ data), count := L.count + 1 }

/-- The register is full (R354). -/
def State.logFull (s : State) (r : Nat) : Bool := (s.logReg r).count == countMax

/-- The register is full at the last epoch (R355, R514). -/
def State.logFrozen (s : State) (r : Nat) : Bool := s.logFull r && (s.logReg r).epoch == 0xFFFF

/-- A device event: its register is extended with the BODY of its record, and the record is written with it; a full
register rolls first, and a frozen one keeps its value while the record says NOT_EXTENDED (R355, R356, R514). -/
def State.logEvent (s : State) (r type : Nat) (body : Bytes) : State :=
  if s.logFrozen r then s.writeRecord type r 1 body
  else ((if s.logFull r then s.roll r else s).extendBy r body).writeRecord type r 0 body

/-- The OWNER_CHANGE extend of an open register (R357); a full register keeps its value (log 18). -/
def State.ownerEvent (s : State) (r old new : Nat) : State :=
  let body := le 2 old ++ le 2 new
  if s.logFull r then s.writeRecord 0x00F2 r 1 body else (s.extendBy r body).writeRecord 0x00F2 r 0 body

/-- A write that waits in front of a register takes effect. -/
def State.logWork (s : State) (r : Nat) : LogWork → State
  | .roll => if (s.logReg r).epoch = 0xFFFF then s else s.roll r
  | .ownerChange old new => s.ownerEvent r old new
  | .extend data _ => s.extendBy r data
  | .event type body => s.logEvent r type body

/-- Apply the waiting writes of register `r` that wait for no reservation any more, in order (R355, R357). -/
def State.openBarriers (s : State) (r : Nat) : List (List Nat × LogWork) → State
  | [] => s.modLog r fun L => { L with barrier := [] }
  | (w :: ws, x) :: rest => s.modLog r fun L => { L with barrier := (w :: ws, x) :: rest }
  | ([], x) :: rest => (s.logWork r x).openBarriers r rest

/-- A write to register `r` that must follow every reservation made before it. -/
def State.logBarrier (s : State) (r : Nat) (x : LogWork) : State :=
  let L := s.logReg r
  s.openBarriers r (L.barrier ++ [(L.reserved, x)])

/-- Job `j` takes a reservation on register `r`. -/
def State.logReserve (s : State) (r j : Nat) : State := s.modLog r fun L => { L with reserved := L.reserved ++ [j] }

/-- Job `j` gives its reservation on register `r` back, applied or not (R354). -/
def State.logUnreserve (s : State) (r j : Nat) : State :=
  let t := s.modLog r fun L => { L with reserved := L.reserved.filter (· != j) }
  t.openBarriers r ((t.logReg r).barrier.map fun b => (b.1.filter (· != j), b.2))

/-- The extend of job `j` may be applied now: no waiting write stands between its reservation and it (R355, R357). -/
def State.logReady (s : State) (r j : Nat) : Bool :=
  match (s.logReg r).barrier with
  | [] => true
  | b :: _ => b.1.contains j

/-- An OWNER_CHANGE extend that still waits is a reservation of its own (R354, R357). -/
def LogWork.ownerChanges : LogWork → Bool
  | .ownerChange _ _ => true
  | _ => false

/-- The extends of register `r` that are admitted but not applied (R354). -/
def State.logReserved (s : State) (r : Nat) : Nat :=
  (s.logReg r).reserved.length + ((s.logReg r).barrier.filter fun b => b.2.ownerChanges).length

/-- An extend by a LOGBOOK_DEST job's reservation may be taken (R354). -/
def State.logRoom (s : State) (r : Nat) : Bool := decide ((s.logReg r).count + s.logReserved r < countMax)

end Sys2Proof.Machine
end

