-- ==== Sys2Proof/Machine/Sequencer.lean ====
section
/-! DEFINITION. The inside of an engine tile: the control-store word and its sequencing, SRAM windows, save slots and their
scrubs (04_engine_tiles.md R77-R85, R90, R91, R93; 01_architecture.md R30). -/

namespace Sys2Proof.Machine

/-! ### Parts (R77, R79) -/

/-- The parts of a tile that a personality may leave without power; SRAM, save slots, sequencer and staging port have it
always. -/
inductive TilePart
  | mac | network | clmul | samplers
deriving DecidableEq, Repr

/-- What a personality powers; the other parts are clock-gated and held in reset. A tile that is OFF powers none. -/
def poweredParts (pers : Nat) : List TilePart :=
  match pers with
  | 1 => [.mac, .network, .samplers]
  | 2 => [.network, .samplers]
  | 3 => [.clmul, .mac, .network, .samplers]
  | 4 => [.mac, .network]
  | 5 => [.network, .clmul, .mac]
  | _ => []

/-- The parts of tile `T` that have power: those of the personality whose control store it holds. -/
def Tile.powered (T : Tile) : List TilePart := poweredParts T.mcPers

/-! ### The control-store word (R81) -/

/-- An odd number of ones among the low `n` bits. -/
def oddOnes : Nat → Nat → Bool
  | 0, _ => false
  | n + 1, x => (x % 2 == 1) != oddOnes n (x / 2)

/-- A defined COND code. -/
def condOk (c : Nat) : Bool := decide (c ≤ 0x10) || (decide (0x20 ≤ c) && decide (c ≤ 0x24))

/-- The parity of a record of 25 bytes: each 24 bits and their parity bit hold an odd number of ones. -/
def wordParity (r : Bytes) : Bool :=
  let w := fromLE (r.take 24)
  let p := leAt r 24 1
  (List.range 8).all fun k => oddOnes 25 (bitsOf w (24 * k + 23) (24 * k) + 2 ^ 24 * b2n (bitOf p k))

/-- A record that R99 lets in: its parity, no SEQ 7, no reserved COND, bits 191:190 zero. -/
def wordOk (r : Bytes) : Bool :=
  let w := fromLE (r.take 24)
  wordParity r && bitsOf w 15 13 != 7 && condOk (bitsOf w 21 16) && bitsOf w 191 190 == 0

/-- The record at an address of a control store. -/
def wordAt (store : Bytes) (a : Nat) : Bytes := sliceOf store (25 * a) 25

/-- What the conditions of a word see of its job besides the sequencer's own state (R81, R82). -/
structure SeqIn where
  len    : Nat         -- the job's length parameter
  last   : Bool        -- the last segment of the job
  second : Bool        -- the second run of an AL2 pair
  det    : Bool        -- the deterministic variant requested in PARAM
deriving DecidableEq, Repr

/-- Loop counter `k`. -/
def TileCtx.loop (x : TileCtx) (k : Nat) : Nat := (tget x.loops k).getD 0

/-- A branch condition; whether the input of the segment is consumed is what the datapath has done (free, log 86). -/
def TileCtx.cond (x : TileCtx) (i : SeqIn) (c : Nat) : Bool :=
  if c = 0 then true
  else if c ≤ 0x10 then x.loop (c - 1) == 0
  else match c with
    | 0x20 => Config.primBool .reject [le 8 x.job, le 8 x.words, [0x20#8]]
    | 0x21 => i.last
    | 0x22 => x.reject
    | 0x23 => i.second
    | 0x24 => i.det
    | _ => false

/-- The loop counters after a word's LOOP_OP; a counter has the 16 bits of IMM (log 86). -/
def loopsAfter (w len : Nat) (x : TileCtx) : Table Nat :=
  let k := bitsOf w 171 168
  match bitsOf w 173 172 with
  | 1 => tput x.loops k (bitsOf w 189 174)
  | 2 => tput x.loops k (len % 65536)
  | 3 => tput x.loops k ((x.loop k + 65535) % 65536)
  | _ => x.loops

/-- A port access of a word leaves the job's SRAM window (R83): A_ADDR and B_ADDR are offsets in 8-byte words, of which a
window has 4,096. -/
def outsideWindow (w : Nat) (x : TileCtx) : Bool :=
  (bitsOf w 113 112 != 0 && decide (4096 * x.size ≤ bitsOf w 111 96)) ||
  (bitsOf w 137 136 != 0 && decide (4096 * x.size ≤ bitsOf w 135 120))

/-- The SRAM word at an offset in the job's windows; a scrubbed one is zero. -/
def TileCtx.word (x : TileCtx) (a : Nat) : Bytes := (tget x.mem a).getD (zeros 8)

/-- What the operations of a word see: the word, its vector sources, its modulus and what its SRAM ports read. -/
def TileCtx.operands (x : TileCtx) (w : Nat) : List Bytes :=
  [le 24 w, (tget x.data.vec (bitsOf w 32 28)).getD (zeros 256), (tget x.data.vec (bitsOf w 37 33)).getD (zeros 256),
   (tget x.data.vec (bitsOf w 80 76)).getD (zeros 256), (tget x.data.modulus (bitsOf w 47 45)).getD (zeros 256),
   x.word (bitsOf w 111 96), x.word (bitsOf w 135 120)]

/-- The datapath after a word: DST takes the result of a multiply-accumulate operation, CLMUL_DST that of a carry-less one, and a
part that is given an operation moves on. R81 names the operations' fields and not their codes: what an operation makes of
its operands, and which one loads the modulus register of MODSEL, is free (log 86). -/
def TileCtx.dataAfter (x : TileCtx) (w : Nat) : Datapath :=
  let d := x.data
  let ins := x.operands w
  let vec := if bitsOf w 27 24 = 0 then d.vec else tput d.vec (bitsOf w 42 38) (prim (.word 0) ins 256)
  { vec := if bitsOf w 75 72 = 0 then vec else tput vec (bitsOf w 85 81) (prim (.word 1) (d.clmul :: ins) 256)
    modulus := if bitsOf w 27 24 ≠ 0 ∧ Config.primBool (.word 2) [le 24 w] then
        tput d.modulus (bitsOf w 47 45) (prim (.word 2) ins 256)
      else d.modulus
    clmul := if bitsOf w 75 72 = 0 then d.clmul else prim (.word 3) (d.clmul :: ins) 1024
    sampler := (List.range 2).foldl (fun t k => if bitsOf w (87 + 2 * k) (86 + 2 * k) = 0 then t
      else tput t k (prim (.word 4) ((tget d.sampler k).getD [] :: le 1 k :: ins) 200)) d.sampler
    net := if bitsOf w 49 48 = 0 then d.net else prim (.word 5) (d.net :: ins) 1200 }

/-- The job's SRAM words after a word: a port that writes, or reads and writes, changes the word at its offset (free, log 86). -/
def TileCtx.memAfter (x : TileCtx) (w : Nat) : Table Bytes :=
  let put (op a k : Nat) (m : Table Bytes) : Table Bytes := if 2 ≤ op then tput m a (prim (.word (6 + k)) (x.operands w) 8) else m
  put (bitsOf w 137 136) (bitsOf w 135 120) 1 (put (bitsOf w 113 112) (bitsOf w 111 96) 0 x.mem)

/-- The routine after one word: datapath and SRAM, loop counters, REJECT flag, call stack of eight entries and program counter. A norm check sets
the REJECT flag as its candidates come out (free). LOOP tests its counter after the word's own LOOP_OP (log 86). -/
def TileCtx.exec (x : TileCtx) (i : SeqIn) (w : Nat) : TileCtx :=
  let next := bitsOf w 12 0
  let up := (x.pc + 1) % 8192
  let y := { x with
    loops := loopsAfter w i.len x, words := x.words + 1, data := x.dataAfter w, mem := x.memAfter w,
    reject := if bitsOf w 44 43 = 3 then Config.primBool .reject [le 8 x.job, le 8 x.words] else x.reject }
  match bitsOf w 15 13 with
  | 0 => { y with pc := up }
  | 1 => { y with pc := next }
  | 2 => { y with pc := if x.cond i (bitsOf w 21 16) then next else up }
  | 3 => { y with pc := next, calls := (up :: x.calls).take 8 }
  | 4 => { y with pc := x.calls.headD 0, calls := x.calls.drop 1 }
  | 5 => { y with pc := if y.loop (bitsOf w 171 168) = 0 then up else next }
  | _ => y

/-- The routine runs on to its next safe point (a word with POINT = SAFE, or END), at most `n` words: it stays where a fetch
fails its parity or an access leaves the window, whose machine check is the MACHINE_CHECK event. -/
def TileCtx.runTo (store : Bytes) (i : SeqIn) : Nat → TileCtx → TileCtx
  | 0, x => x
  | n + 1, x =>
    let r := wordAt store x.pc
    let w := fromLE (r.take 24)
    if !wordParity r || outsideWindow w x then x
    else if bitsOf w 23 22 = 1 ∨ bitsOf w 15 13 = 6 then x.exec i w
    else (x.exec i w).runTo store i n

/-! ### Routines, windows and save slots on a tile (R79, R90, R91; 01, R30) -/

/-- The tile holds the routine of an entry key. A tile into which no entry table has been loaded, which no boot leaves in
service, is not tested. -/
def Tile.holds (T : Tile) (entry : Nat) : Bool := entry == 0 || T.routines.isEmpty || (tget T.routines entry).isSome

/-- The SRAM windows that running and suspended jobs hold. -/
def Tile.windowsHeld (T : Tile) : List Nat :=
  (T.ctxs ++ T.saved.map (·.2)).flatMap fun x => (List.range x.size).map (x.base + ·)

/-- The first of the lowest `n` adjacent free windows; 0 where none are adjacent. -/
def Tile.freeBase (T : Tile) (n : Nat) : Nat :=
  ((List.range 16).find? fun b => b + n ≤ 16 && (List.range n).all fun k => !T.windowsHeld.contains (b + k)).getD 0

/-- The routine of a job begins on the tile, in windows that another function's data is scrubbed from, or resumes from its save
slot, which is then scrubbed. -/
def Tile.enter (T : Tile) (j fn entry windows now : Nat) : Tile :=
  match T.slots.find? fun p => p.2 == j with
  | some (k, _) =>
    let x := (tget T.saved k).getD { job := j }
    { T with
      slots := T.slots.filter (fun p => p.2 != j), saved := tdel T.saved k, ctxs := { x with mark := now } :: T.ctxs, lastFn := some fn }
  | none =>
    let b := T.freeBase windows
    let x : TileCtx := { job := j, pc := ((tget T.routines entry).map (·.1)).getD 0, base := b, size := windows, mark := now }
    { T with
      ctxs := x :: T.ctxs, lastFn := some fn,
      sram := (List.range windows).foldl (fun t k => tput t (b + k) fn) T.sram }

/-- SAVE: the routine of job `j` goes into save slot `k`; its windows stay its own. -/
def Tile.save (T : Tile) (j k : Nat) : Tile :=
  { T with
    slots := tput T.slots k j,
    saved := (match T.ctxs.find? fun x => x.job == j with
      | some x => tput T.saved k x
      | none => T.saved),
    ctxs := T.ctxs.filter fun x => x.job != j }

/-- Job `j` leaves the tile: its routine ends, and a save slot that it holds is given up and scrubbed. -/
def Tile.leave (T : Tile) (j : Nat) : Tile :=
  { T with
    slots := T.slots.filter (fun p => p.2 != j), saved := T.saved.filter (fun p => p.2.job != j),
    ctxs := T.ctxs.filter fun x => x.job != j }

/-- The routine of job `j` on the tile comes to its next safe point. -/
def Tile.toSafePoint (T : Tile) (j now : Nat) (i : SeqIn) : Tile :=
  { T with ctxs := T.ctxs.map fun x => if x.job = j then { x.runTo T.store i 4096 with mark := now } else x }

/-- SRAM and save slots are scrubbed, and the slot states that the tile derived go (R97); a routine that a fence lets run to
the end of its no-return zone keeps its windows until then (R89). -/
def Tile.scrubbed (T : Tile) : Tile :=
  { T with
    slots := [], saved := [], resident := [], lastFn := none,
    sram := T.sram.filter fun e => T.ctxs.any fun x => x.base ≤ e.1 && e.1 < x.base + x.size }

/-- What a function's jobs left in SRAM is scrubbed. -/
def Tile.scrubFn (T : Tile) (f : Nat) : Tile :=
  { T with lastFn := if T.lastFn = some f then none else T.lastFn, sram := T.sram.filter fun e => e.2 != f }

/-! ### Patch images (R91, R99) -/

/-- ENTRY_COUNT. -/
def patchEntries (p : Bytes) : Nat := leAt p 0x0A 2

/-- The entry table of a patch image: START and windows of each entry key. -/
def patchRoutines (p : Bytes) : Table (Nat × Nat) :=
  (List.range (patchEntries p)).foldl (fun t i =>
    let o := 0x40 + 8 * i
    tput t (leAt p o 2) (leAt p (o + 2) 2 % 8192, leAt p (o + 4) 1)) []

/-- The control store of a patch image. -/
def patchStore (p : Bytes) : Bytes := sliceOf p (0x40 + 8 * patchEntries p) 204800

/-- The image that a directory entry names has the digest of the entry, which every load recomputes (R100). An entry without
an image, which no installation makes, is not tested. -/
def McodeEntry.sound (e : McodeEntry) : Bool := e.image.isEmpty || prim (.hash 3) [e.image] 48 == e.digest

/-- The tile holds the control store of a directory entry, or none. -/
def Tile.load (T : Tile) (e : Option McodeEntry) : Tile :=
  match e with
  | none => { T with setId := 0, mcPers := 0, mcVersion := 0, routines := [], store := [] }
  | some e => { T with
    setId := e.setId, mcPers := e.pers, mcVersion := e.version, routines := patchRoutines e.image, store := patchStore e.image }

end Sys2Proof.Machine
end

