-- ==== Sys2Proof/Machine/JobOps.lean ====
section
/-! DEFINITION. What can end a job, and where its runs stand: the runs of a tile or a core, the ends of R89, R96, R97
and R515, the mode of a tile, and the units a job holds. -/

namespace Sys2Proof.Machine

/-! ### Runs -/

/-- A run of a job: job, index of the step, the step, the run. -/
structure RunAt where
  job  : Nat
  idx  : Nat
  step : JobStep
  run  : Run
deriving DecidableEq, Repr

/-- The steps of a job with their indices. -/
def stepsFrom : Nat → List JobStep → List (Nat × JobStep)
  | _, [] => []
  | i, x :: xs => (i, x) :: stepsFrom (i + 1) xs

/-- Every run that still has a place (not ended, not lost). -/
def State.allRuns (s : State) : List RunAt :=
  s.jobs.flatMap fun e => (stepsFrom 0 e.2.steps).flatMap fun st =>
    (st.2.runs.filter fun r => r.mode != .ended && r.mode != .lost).map fun r => ⟨e.1, st.1, st.2, r⟩

/-- The runs with a place on a server. -/
def State.runsAt (s : State) (u : Server) : List RunAt := s.allRuns.filter fun r => r.run.server == u

/-- The jobs with a run of a given mode on a server. -/
def State.jobsAt (s : State) (u : Server) (m : RunMode) : List Nat :=
  ((s.runsAt u).filter fun r => r.run.mode == m).map (·.job)

/-- Change every run of a job. -/
def Job.mapRuns (J : Job) (f : Nat → Run → Run) : Job :=
  { J with steps := (stepsFrom 0 J.steps).map fun st => { st.2 with runs := st.2.runs.map (f st.1) } }

/-- Cycles that a run has executed; ns on a Helm core. -/
def State.executed (s : State) (r : Run) : Nat :=
  r.done + (if r.mode = .running then
    (match r.server with
     | .tile n => (s.time.elapsed - r.started) * (s.tile n).mhz / 1000
     | .core _ => s.time.elapsed - r.started) else 0)

/-- Some run of the job is executing. -/
def Job.isRunning (J : Job) : Bool := J.steps.any fun st => st.runs.any fun r => r.mode == .running

/-- The job has been accepted and has not ended. -/
def Job.live (J : Job) : Bool := J.accepted.isSome && J.phase != .ended && J.phase != .delayed

/-- A job is administrative: of family 0x0. -/
def Job.admin (J : Job) : Bool := J.opcode / 0x1000 == 0

/-- The mode of a tile that serves: busy while a run executes, else idle. -/
def State.settleTile (s : State) (n : Nat) : State :=
  s.modTile n fun T =>
    if T.mode = .idle ∨ T.mode = .busy then
      { T with mode := if (s.jobsAt (.tile n) .running).isEmpty then .idle else .busy }
    else T

/-- A job's routines end and its save slots are freed, on every tile. -/
def State.freeSlots (s : State) (j : Nat) : State := { s with tiles := s.tiles.map fun e => (e.1, e.2.leave j) }

/-- The tiles a job has runs on. -/
def Job.tilesOf (J : Job) : List Nat :=
  J.steps.flatMap fun st => st.runs.filterMap fun r =>
    match r.server with
    | .tile n => some n
    | .core _ => none

/-- The cores a job has runs on. -/
def Job.coresOf (J : Job) : List Nat :=
  J.steps.flatMap fun st => st.runs.filterMap fun r =>
    match r.server with
    | .tile _ => none
    | .core c => some c

/-- The step of a job whose runs have not all ended, with its index. -/
def Job.current (J : Job) : Option (Nat × JobStep) :=
  (stepsFrom 0 J.steps).find? fun x => x.2.runs.any fun r => r.mode != .ended

/-- The step in which a job computes its operation. -/
def Job.mainStep (J : Job) : Option JobStep := J.steps.find? fun st => st.kind == .main

/-- The job carries a durable commit that nothing has acknowledged yet (04, R86). -/
def Job.durable (J : Job) : Bool := J.commit == .needed && J.logRes.isNone

/-- The routine stands at its durable commit: its operation runs, and the acknowledgement has not come (04, R86-R88). -/
def Job.holds (J : Job) : Bool :=
  J.durable && J.isRunning && (J.current.any fun x => x.2.kind == .main)

/-! ### The end of a job -/

/-- The end of the counter range that a nonce value opens under a key (08, R181; 17, R403). -/
def Key.rangeEnd (K : Key) (v : Nat) : Nat :=
  match K.lease with
  | some (_, hi) => min (v + 1048576) hi
  | none => v + 1048576

/-- The first leaf beyond those this node may use. -/
def Hbs.limit (H : Hbs) : Nat := H.leaseHi.getD H.total

/-- The first leaf from `v` that lies in no bottom tree which this node does not use (17_meridian.md R405). -/
def Hbs.skip (H : Hbs) (v : Nat) : Nat := H.given.foldl (fun v g => if v = g * H.perTree then v + H.perTree else v) v

/-- The bottom tree that is built next. -/
def Hbs.nextTree (H : Hbs) : Nat := H.skip H.ready / max H.perTree 1

/-- The end of the block that leaf `v` opens (06, R135). -/
def Hbs.blockEnd (H : Hbs) (v : Nat) : Nat := min (v + H.block) H.limit

/-- The range that the commit of job `J` opens on its key becomes the one that job `K` opens, or none (log 87). -/
def State.movePending (s : State) (i : Nat) (J : Job) (K : Option Job) : State :=
  let leaf := K.bind Job.leaf
  let ctr := K.bind Job.ctr
  match J.leaf, J.ctr with
  | some v, _ =>
    s.modKey i fun k => { k with hbs := k.hbs.map fun H =>
      match leaf with
      | some w => { H with pendingTo := some (max (H.blockEnd w) (H.pendingTo.getD 0)) }
      | none => if H.pendingTo = some (H.blockEnd v) then { H with pendingTo := none } else H }
  | none, some v =>
    let stop := fun w => ((s.key? i).map fun k => k.rangeEnd w).getD w
    { s with keys := { s.keys with counters := tmod s.keys.counters i fun c =>
        match ctr with
        | some w => { c with pending := some (max (stop w) (c.pending.getD 0)) }
        | none => if c.pending = some (stop v) then { c with pending := none } else c } }
  | none, none => s

/-- A job that has not been through its durable commit ends: the job as if it had not run (04, R88), the earliest job that
waits for the reservation carries it in its stead, and what it assigned stays assigned (06, R135, R137; 08, R181; log 87). -/
def State.passCommit (s : State) (j : Nat) (J : Job) : State :=
  if !J.durable then s
  else match J.pin with
  | none => s
  | some i =>
    let ws := tkeys s.jobs fun _ W => W.waitFor == some j && W.phase != .ended && W.phase != .delayed
    match leastBy (fun k => ((s.job? k).map (·.acceptSeq)).getD 0) ws with
    | none => s.movePending i J none
    | some w =>
      let t := s.movePending i J (s.job? w)
      eachOf ws (fun u k => u.modJob k fun W =>
        if k = w then { W with commit := .needed, waitFor := none } else { W with waitFor := some w }) t

/-- The preparation of a stateful key's next tree ends; a tree whose upper leaf has been reserved and which is not ready is lost
with that leaf (06, R135, R139; log 93). -/
def State.treeEnds (s : State) (J : Job) : State :=
  match J.out.bind (·.tree) with
  | none => s
  | some i => s.modKey i fun K => { K with hbs := K.hbs.map fun H =>
      { H with preparing := false, given := if H.nextTree < H.upperUsed then H.given ++ [H.nextTree] else H.given } }

/-- The registers of the cores on which an FN-DSA job ran are scrubbed (05, R121). -/
def State.scrubCores (s : State) (J : Job) : State :=
  eachOf (if bitsOf J.opcode 15 8 = 0x24 ∨ bitsOf J.opcode 15 8 = 0x25 ∨ J.opcode = 0x8000 ∨ J.opcode = 0xF001 then J.coresOf else [])
    (fun u c => u.modCore c fun C => { C with v := [], x := [] }) s

/-- The released range of a job is overwritten with zeros: the bytes zeroed and whether the host accepted them all
(08_symmetric.md R186). -/
def State.zeroFill (s : State) (m : Option Nat) (dst n : Nat) : State × Nat × Bool :=
  match s.wrFault m dst n with
  | none => (s.wr m dst (zeros n), n, true)
  | some k => (s.wr m dst (zeros k), k, false)

/-- Nothing more is written for a job: its function is under FLR (R269); PF0's FLR leaves its queue 0 alone (R271). -/
def State.silenced (s : State) (J : Job) : Bool := (s.fn J.fn).flr && !(J.fn == 0 && J.admin)

/-- Job `j` ends with a status and releases nothing: its staged output is purged, its runs and save slots are given
up, a logbook reservation it has not used returns (04_engine_tiles.md R88, R89; 15_logbook_attestation.md R354).
Its completion is written by COMPLETION_WRITE. A job that has already ended keeps its status. -/
def State.endJob (s : State) (j status result : Nat) (ret : Bytes := []) : State :=
  match s.job? j with
  | none => s
  | some J =>
    if J.phase = .ended ∨ J.phase = .delayed then s
    else
      let t := s.modJob j fun J =>
        { J.mapRuns (fun _ r => { r with mode := .ended, done := s.executed r }) with
          phase := .ended, status := status, result := result, ret := ret, out := none, request := .none,
          staged := 0, overflow := 0, input := [], auxIn := [], zone := false, newIdx := [],
          commit := if J.commit = .needed then .none else J.commit, waitFor := none,
          logRes := if J.commit = .posted then J.logRes else none }
      let t :=
        if J.released = 0 ∨ s.silenced J then t
        else
          let (u, n, ok) := t.zeroFill (s.memOf J) J.dst J.released
          u.modJob j fun K => { K with
            status := if ok then status else St.dstFault, result := n, provisional := true, zeroed := true }
      let t := (((t.freeSlots j).passCommit j J).scrubCores J).treeEnds J
      let t := if J.commit = .posted then t else
        match J.logRes with
        | none => t
        | some r => t.logUnreserve r j
      eachOf J.tilesOf State.settleTile t

/-- The job whose chain is open on a job's queue. -/
def State.openChainOf (s : State) (J : Job) : Option Nat :=
  match J.src with
  | .ring q => (s.queue q).chain
  | .internal => none

/-- A consumed chain whose job has ended is abandoned: its remaining entries are skipped (R515). -/
def State.abandonChain (s : State) (j : Nat) : State :=
  match s.job? j with
  | some J =>
    match J.src with
    | .ring q =>
      if (s.queue q).chain = some j then
        (s.endJob j St.aborted 0).modQueue q fun Q => { Q with chain := none, skip := true }
      else s
    | .internal => s
  | none => s

/-- A fence, the safe state or an abort reaches job `j`: in a no-return zone it acts at the safe point that ends the
zone; a fence acts in the next cycle and an abort at the next safe point of a running job; a job that is not executing
ends at once, and one whose routine has reached END is not stopped (04_engine_tiles.md R88, R89; 11_functions_and_sharing.md
R266). -/
def State.stopJob (s : State) (j : Nat) (req : Request) : State :=
  match s.job? j with
  | none => s
  | some J =>
    if J.phase = .ended ∨ J.phase = .delayed ∨ J.atEnd then s
    else if s.openChainOf J = some j ∧ req = .abort then s.abandonChain j
    else if J.isRunning ∧ (J.zone ∨ req = .abort) then s.modJob j fun J => { J with request := req }
    else s.endJob j (match req with
      | .abort => St.aborted
      | .safe => St.safeState
      | _ => St.fenced) 0

/-- Abort job `j` as the abort option of QUIESCE_FUNCTION does (R266). -/
def State.abortJob (s : State) (j : Nat) : State := s.stopJob j .abort

/-- Mark a job as one that an injected event or a perturbation control acted on (R246). -/
def State.markInj (s : State) (j : Nat) (inj : Bool) : State :=
  if inj then s.modJob j fun J => { J with inj := true } else s

/-! ### Keyed slots and queues of a function -/

/-- Drop the keyed-digest slots that meet `p`, advancing their generations (1 before the first drop, and past
1,048,575 the slot is retired); their resident states go with them
(06_hash_signatures_and_digests.md R146, R147). -/
def State.dropSlots (s : State) (p : Nat → Binding → Bool) : State :=
  let gone := tkeys s.keys.slots p
  { s with
    keys := { s.keys with
      slots := s.keys.slots.filter fun e => !gone.contains e.1,
      slotGen := gone.foldl (fun t k => tput t k (((tget t k).getD 1) + 1)) s.keys.slotGen },
    tiles := s.tiles.map fun e => (e.1, { e.2 with resident := e.2.resident.filter fun k => !gone.contains k }) }

/-- The queues of a function. -/
def State.queuesOf (s : State) (f : Nat) : List Nat := tkeys s.queues fun _ Q => Q.fn == f && Q.mode != .absent

/-- QUIESCE_FUNCTION acts on function `f`: its queues stop (but for PF0's queue 0), open chains are abandoned, and its
jobs are aborted as the option says (11_functions_and_sharing.md R266). -/
def State.quiesce (s : State) (f : Nat) (abort : Bool) (job : Option Nat) : State :=
  let qs := (s.queuesOf f).filter fun q => !(f == 0 && q == 0)
  let t := eachOf qs (fun u q => u.modQueue q fun Q => { Q with mode := .quiescing, armed := false, cache := [] }) s
  let js := (t.jobsOfFn f).filter fun j =>
    match t.job? j with
    | some J => some j != job && !J.admin
    | none => false
  let t := eachOf js (fun u j =>
    match u.job? j with
    | none => u
    | some J =>
      if u.openChainOf J = some j then u.abandonChain j
      else if abort || (J.accepted.isSome && J.cls == 7) then u.abortJob j
      else u) t
  let t := t.dropSlots fun _ b => b.fn == f
  t.modFn f fun F => { F with quiesce := some { job := job, abort := abort } }

/-! ### Cached keys (09_key_store.md R211, R212) -/

/-- The partition of a function in force: base and slots. -/
def State.partitionOf (s : State) (f : Nat) : Nat × Nat :=
  (tget s.keys.partition f).getD (if f = 0 then (0, 28672) else if f = 0x100 then (28672, 4096) else (0, 0))

/-- The key at an index is pinned by a job in flight. -/
def State.pinned (s : State) (k : Nat) : Bool := s.jobs.any fun e => e.2.pin == some k

/-- The run of a cached key lies in the partition of its owner. -/
def State.inPartition (s : State) (k : Nat) (c : Cached) : Bool :=
  let p := s.partitionOf (((s.key? k).map (·.owner)).getD 0)
  decide (p.1 ≤ c.first) && decide (c.first + c.len ≤ p.1 + p.2)

/-- Unpinned keys outside their function's partition are evicted. -/
def State.evictOutside (s : State) : State :=
  { s with keys := { s.keys with cache := s.keys.cache.filter fun e => s.pinned e.1 || s.inPartition e.1 e.2 } }

/-- A job leaves the in-flight table; a key that it alone kept outside its function's partition is evicted. -/
def State.dropJob (s : State) (j : Nat) : State := (s.delJob j).evictOutside

/-! ### Units and commitments (12_deadlines.md R287) -/

/-- Units that function `f` holds in group `g`. -/
def State.commitOf (s : State) (f g : Nat) : Nat :=
  ((s.jobs.filter fun e => e.2.fn == f).flatMap fun e => (e.2.units.filter fun u => u.1 == g).map fun u => u.2.1).sum

/-- Units held in group `g` by every function. -/
def State.heldIn (s : State) (g : Nat) : Nat :=
  (s.jobs.flatMap fun e => (e.2.units.filter fun u => u.1 == g).map fun u => u.2.1).sum

/-- Units borrowed in group `g`. -/
def State.borrowedIn (s : State) (g : Nat) : Nat :=
  (s.jobs.flatMap fun e => (e.2.units.filter fun u => u.1 == g).map fun u => u.2.2).sum

/-- The share of function `f` in group `g`. -/
def State.shareOf (s : State) (f g : Nat) : Nat := (s.fn f).shares.getD g 0

/-- The functions that have shares: those listed and the two that hold shares at reset. -/
def State.sharers (s : State) : List Nat :=
  (tkeys s.fns fun _ _ => true) ++ ([0, 0x100].filter fun f => (tget s.fns f).isNone)

/-- 1,024 less all shares of group `g`. -/
def State.unassigned (s : State) (g : Nat) : Nat := 1024 - (s.sharers.map fun f => s.shareOf f g).sum

/-- Borrowing resumes in each group where the commitment is below the lowered share (R287). -/
def State.liftBorrow (s : State) (f : Nat) : State :=
  s.modFn f fun F => { F with noBorrow := F.noBorrow.filter fun g => !decide (s.commitOf f g < s.shareOf f g) }

/-- The message of queue `q`, its pending count cleared. -/
def State.notifyNow (s : State) (q : Nat) : State :=
  (s.modQueue q fun Q => { Q with pendN := 0 }).msix (s.queue q).fn (s.queue q).vector

/-- End an administrative command. -/
def State.endAdmin (s : State) (j status result : Nat) (ret : Bytes := []) : State := s.endJob j status result ret

/-- The jobs that a quiesce of function `f` still waits for. -/
def State.quiesceLeft (s : State) (f : Nat) : List Nat :=
  (s.jobsOfFn f).filter fun j =>
    match s.job? j with
    | some J => match J.src with
      | .ring q => !(f == 0 && q == 0)
      | .internal => false
    | none => false

/-- A quiesce whose jobs have all completed ends: pending messages are sent, and the command completes (R266). -/
def State.settleQuiesce (s : State) (f : Nat) : State :=
  match (s.fn f).quiesce with
  | none => s
  | some z =>
    if (s.quiesceLeft f).isEmpty then
      let t := eachOf (s.queuesOf f) (fun u q => if 0 < (u.queue q).pendN then u.notifyNow q else u) s
      let t := t.modFn f fun F => { F with quiesce := none, quiesced := true }
      match z.job with
      | none => t
      | some j => t.endAdmin j St.ok (z.other + z.aborted * 2 ^ 32)
    else s

end Sys2Proof.Machine
end

