-- ==== Sys2Proof/Machine/FaultOps.lean ====
section
/-! DEFINITION. The fault collector: dispositions, counting, class A reactions with the fence of each unit, and entry
to the safe state (18_faults_safety.md R413-R435). -/

namespace Sys2Proof.Machine

/-! ### Sources (R415) -/

/-- The source number is listed in R415. -/
def srcListed (n : Nat) : Bool :=
  n < 96 || (96 ≤ n && n < 128 && n % 8 < 4) || (128 ≤ n && n ≤ 143) || (160 ≤ n && n ≤ 168) || (192 ≤ n && n ≤ 195) || (208 ≤ n && n ≤ 211) ||
  (224 ≤ n && n ≤ 255 && n % 8 < 3) || (256 ≤ n && n ≤ 287 && n % 8 < 7) || (288 ≤ n && n ≤ 291) || n == 293 ||
  (320 ≤ n && n ≤ 330) || (352 ≤ n && n ≤ 357) || (384 ≤ n && n ≤ 386) || (392 ≤ n && n ≤ 399)

/-- The source has a class A reaction (R415). -/
def hasA (n : Nat) : Bool :=
  n < 96 || (96 ≤ n && n < 128 && n % 8 < 4) || (128 ≤ n && n ≤ 135) || n == 161 || n == 162 || (224 ≤ n && n ≤ 255 && n % 8 < 3) ||
  (256 ≤ n && n ≤ 287 && n % 8 < 7) || n == 384 || n == 385

/-- A field-injectable source (R432). -/
def injectable (n : Nat) : Bool :=
  n < 96 || (224 ≤ n && n ≤ 287) || (384 ≤ n && n ≤ 415)

/-- The defaults that every reset loads (R418). -/
def srcDefault (n : Nat) : Source :=
  let a := if hasA n then 1 else 2
  if n = 138 then { n := 4, w := 1000, action := 2 }
  else if n = 385 then { n := 64, w := 1, action := 1 }
  else if 224 ≤ n ∧ n ≤ 287 then { n := 64, w := 1000, action := a }
  else { n := 16, w := 1000, action := a }

/-- Source `n`. -/
def State.src (s : State) (n : Nat) : Source := (tget s.faults.sources n).getD (srcDefault n)

/-- Change source `n`. -/
def State.modSrc (s : State) (n : Nat) (f : Source → Source) : State :=
  { s with faults := { s.faults with sources := tput s.faults.sources n (f (s.src n)) } }

/-- The reaction with an ID, while its entry of REACT still holds it (R435). -/
def State.react? (s : State) (id : Nat) : Option Reaction :=
  (tget s.faults.reacts (id % 64)).bind fun r => if r.id = id then some r else none

/-- Change the reaction with an ID. -/
def State.modReact (s : State) (id : Nat) (f : Reaction → Reaction) : State :=
  match s.react? id with
  | none => s
  | some r => { s with faults := { s.faults with reacts := tput s.faults.reacts (id % 64) (f r) } }

/-! ### Dispositions (R416) -/

/-- What a sub-cause asks for. -/
inductive Disp
  | counted | a | b | log
deriving DecidableEq, Repr

/-- The AL2 mismatch of a job in C0-C2 or of the authority service is class B (04_engine_tiles.md R95). -/
def al2Disp (s : State) (job : Option Nat) : Disp :=
  match job.bind s.job? with
  | none => .a
  | some J => if J.cls ≤ 2 ∨ J.opcode / 0x1000 = 9 ∨ J.order.isSome then .b else .a

/-- The disposition of a sub-cause on a source; none where R416 has no such pair. -/
def dispOf (s : State) (src sub : Nat) (job : Option Nat) : Option Disp :=
  let tileOrCore := src < 96 || (128 ≤ src && src ≤ 135)
  match sub with
  | 0x01 => some .counted
  | 0x02 => some (if hasA src then .a else .b)
  | 0x03 => some .counted
  | 0x04 => if hasA src then some .b else none
  | 0x05 => if src = 161 ∨ src = 162 then some .counted else none
  | 0x11 => if src < 96 then some .a else none
  | 0x12 => if src < 96 then some .a else none
  | 0x13 => if src < 96 then some .counted else none
  | 0x14 => if src < 96 then some .a else none
  | 0x15 => if src < 96 then some .a else none
  | 0x16 => if src < 96 then some (al2Disp s job) else none
  | 0x17 => if tileOrCore then some .a else none
  | 0x18 => if src < 96 then some .a else none
  | 0x19 => if tileOrCore then some .counted else none
  | 0x1A => if src < 96 then some .a else none
  | 0x20 => if src = 161 ∨ src = 162 then some .b else none
  | 0x21 =>
    if src = 160 ∨ src = 192 ∨ src = 208 then some .b
    else if 224 ≤ src ∧ src ≤ 255 then some .log else none
  | 0x22 => if (192 ≤ src ∧ src ≤ 195) ∨ (208 ≤ src ∧ src ≤ 211) then some .counted else none
  | 0x23 => if 96 ≤ src ∧ src < 128 ∧ src % 8 = 2 then some .b else none
  | 0x24 => if src = 138 then some .counted else none
  | 0x25 => if src = 134 ∨ src = 135 then some .log else none
  | 0x26 => if src = 291 then some .b else none
  | 0x27 => if 320 ≤ src ∧ src ≤ 326 then some .b else none
  | 0x28 => if 327 ≤ src ∧ src ≤ 329 then some .b else none
  | 0x29 => if src = 330 then some .log else none
  | 0x2A => if src = 330 then some .b else none
  | 0x2B => if src = 352 then some .b else none
  | 0x2C => if 353 ≤ src ∧ src ≤ 357 then some .b else none
  | 0x2D => if src = 384 ∨ src = 386 then some .b else none
  | 0x2E => if src = 384 then some .log else none
  | 0x2F => if src = 385 then some .counted else none
  | 0x30 => if 392 ≤ src ∧ src ≤ 399 then some .b else none
  | 0x31 =>
    if 256 ≤ src ∧ src ≤ 287 then
      (match src % 8 with
       | 0 => some .log | 4 => some .log | 5 => some .a | 6 => some .b | 7 => none | _ => some .counted)
    else none
  | 0x33 => if src = 293 then some .log else none
  | 0x34 => if src = 290 then some .log else none
  | 0x35 => if src = 289 then some .b else none
  | _ => none

/-- A cause that only a device reset clears (R416). -/
def resetOnlyCause (src sub : Nat) : Bool :=
  sub == 0x20 || sub == 0x2B || sub == 0x2C || sub == 0x35 || (sub == 0x31 && src % 8 == 6)

/-- A cause that stays present while its condition holds (R416). -/
def levelCause (src sub : Nat) : Bool :=
  sub == 0x26 || sub == 0x27 || sub == 0x28 || sub == 0x2A || (sub == 0x2D && src == 384) || sub == 0x30

/-- Some cause is present (R425). -/
def State.causePresent (s : State) : Bool := s.faults.sources.any fun e => e.2.present

/-! ### Consequential events (R421, R422) -/

/-- The sources that belong to a reaction: its own, and those of every unit that it fences or resets, for a field port or a
Meridian link all of that unit's; the safe state is a reaction on every tile, every Quadrant release path and every field port. -/
def ownSource (r : Reaction) (n : Nat) : Bool :=
  n == r.source ||
  (224 ≤ r.source && r.source ≤ 287 && n / 8 == r.source / 8) ||
  (r.cls == 2 && (n < 128 || (224 ≤ n && n ≤ 255))) ||
  (96 ≤ r.source && r.source < 128 &&
    let q := (r.source - 96) / 8
    (96 + 8 * q ≤ n && n ≤ 99 + 8 * q) || (24 * q ≤ n && n ≤ 24 * q + 23))

/-- The reaction whose consequential window covers the event, if there is one: the earliest. A window lasts until 50 µs after
the unit has left its fence. -/
def State.windowOf (s : State) (src sub aux : Nat) : Option Reaction :=
  leastBy (fun r => r.id) ((s.faults.reacts.map (·.2)).filter fun r =>
    r.id != 0 && r.endAt == 0 && (r.back.all fun b => decide (s.time.elapsed < b + 50000)) && (ownSource r src || (sub == 0x03 && ownSource r aux)))

/-! ### Fencing a unit (R415, R419) -/

/-- The firmware Helm cores that serve: 0-5, and 6-7 unless handed over (16_service_complex.md R370, R372). -/
def State.firmwareCores (s : State) : List Nat :=
  ((List.range 8).filter fun c => c < 6 || !s.service.handover).filter fun c => !(s.core c).stopped

/-- Stop a tile: what runs on it stops as a fence or the safe state says; what it has suspended ends too. -/
def State.stopTile (s : State) (n : Nat) (req : Request) : State :=
  let js := (s.jobsAt (.tile n) .running) ++ (s.jobsAt (.tile n) .suspended)
  eachOf js (fun u j => u.stopJob j req) s

/-- A class A fence of tile `n` (04_engine_tiles.md R89, R97): its suspended jobs end, its save slots are scrubbed. -/
def State.fenceTile (s : State) (n reason : Nat) : State :=
  let t := s.stopTile n .fence
  t.modTile n fun T => { T.scrubbed with
    mode := .fenced, fence := if T.mode = .fenced ∧ T.fence ≠ 0 then T.fence else reason,
    since := if T.mode = .fenced then T.since else s.time.elapsed, bySafe := false, returning := false }

/-- The jobs staged in Quadrant `q`. -/
def State.stagedIn (s : State) (q : Nat) : List Nat :=
  tkeys s.jobs fun _ J => J.quadrant == some q && J.phase != .ended && J.phase != .delayed

/-- Close a release gate; gate 4 is the Helm gate (01_architecture.md R26). -/
def State.closeGate (s : State) (g : Nat) (safe : Bool) : State :=
  { s with faults := { s.faults with safe := { s.faults.safe with
      gates := tput s.faults.safe.gates g (((tget s.faults.safe.gates g).getD true) && safe) } } }

/-- A class A fence of Quadrant `q`: its 24 tiles are fenced, its gate closes, its staged jobs complete FENCED. -/
def State.fenceQuadrant (s : State) (q : Nat) : State :=
  let t := eachOf ((List.range 24).map (24 * q + ·)) (fun u n =>
    if n < tilesOf s.variant then u.fenceTile n 3 else u) s
  eachOf (t.stagedIn q) (fun u j => u.stopJob j .fence) (t.closeGate q false)

/-- A Helm core stops: its running job ends (R415). -/
def State.stopCore (s : State) (c : Nat) (req : Request) : State :=
  eachOf (s.jobsAt (.core c) .running) (fun u j => u.stopJob j req) (s.modCore c fun C => { C with stopped := true })

/-- The core of owner module `m` is handed over and loaded. -/
def State.moduleOn (s : State) (c : Nat) : Bool :=
  s.service.handover && (c == 6 || c == 7) && (s.module (c - 6)).state == 2

/-- A word stands in mailbox `n` (16, R382). -/
def State.mboxStore (s : State) (n : Nat) (w : BitVec 32) : State :=
  s.modMbox n fun M => { M with word := w, full := true, since := s.time.elapsed }

/-- The oldest reply of the runtime goes into mailbox 1 once that is empty; PF0's vector 2 is its wake event (16, R383,
R386). -/
def State.flushReplies (s : State) : State :=
  match s.service.replies with
  | [] => s
  | r :: rest =>
    if (s.mbox 1).full then s else ({ s with service := { s.service with replies := rest } }.mboxStore 1 r).msix 0 2

/-- The runtime answers PF0: replies wait in order, up to 16 (16, R386). -/
def State.runtimeSays (s : State) (w : BitVec 32) : State :=
  (if s.service.replies.length < 16 then { s with service := { s.service with replies := s.service.replies ++ [w] } } else s).flushReplies

/-- A change of a module's state is sent to PF0. -/
def State.moduleState (s : State) (m state : Nat) : State :=
  (s.modModule m fun M => { M with state := state }).runtimeSays (BitVec.ofNat 32 (0x83000000 + m * 0x10000 + state))

/-- A module stops: it is STOPPING while its accepted jobs are aborted and its registers and region go, and then takes the
state it ends in (16_service_complex.md R375, R386; log 43). -/
def State.stopModule (s : State) (m state cause addr : Nat) : State :=
  let u := s.moduleState m 3
  let t := match (s.module m).ring with
    | none => u
    | some q => eachOf (s.jobsOfQueue q) State.abortJob (u.modQueue q fun Q => { Q with mode := .fenced })
  let t := t.modModule m fun M => { M with cause := cause, addr := addr, region := [], waiting := none }
  let t := t.modCore (6 + m) fun C => { C with
    v := [], x := [], pmod := 0, frm := 0, fflags := 0, xs := 1, exc := none }
  t.moduleState m state

/-- What stands in the FIFOs between field port `p` and the Helm is discarded (01, R39). -/
def State.flushPort (s : State) (p : Nat) : State :=
  { s with partners := { s.partners with ingress := s.partners.ingress.filter fun f => f.port != p } }

/-- What stands in the FIFOs between Meridian link `k` and the Helm is discarded (01, R39). -/
def State.flushLink (s : State) (k : Nat) : State :=
  let t := s.modLink k fun L => { L with part0 := [], part1 := [], queued := [] }
  { t with cluster := { t.cluster with inbox := t.cluster.inbox.filter fun m => m.link != k } }

/-- The egress of a field port stops and its PCS is held down. -/
def State.fencePort (s : State) (p : Nat) : State :=
  (s.modPort p fun P => { P with stopped := true, link := false }).flushPort p

/-- A Meridian link goes down; LOG[7] is extended with KIND 2 (17_meridian.md R394, R411). -/
def State.linkDown (s : State) (k reason : Nat) : State :=
  let L := s.link k
  let live := L.mode == .up || !L.keyIn.isEmpty
  let t := s.modLink k fun L => { L with
    mode := .down, reason := reason, downAt := s.time.elapsed, keyInOld := [], ivInOld := [], ctrInOld := 0, keyIn := [], keyOut := [], ivIn := [], ivOut := [], ctrOut := 1, ctrIn := 0,
    replay := [], queued := [], part0 := [], part1 := [], credit0 := 128, credit1 := 128, owed0 := 0, owed1 := 0,
    sendSeq := 0, recvSeq := 0 }
  if live then t.logEvent 7 0x0070 ([2#8] ++ le 2 L.peer) else t

/-- An attempt to bring link `k` up has failed; the third in a row takes it down (17_meridian.md R394). -/
def State.attemptFails (s : State) (k reason : Nat) : State :=
  let t := s.modLink k fun L => { L with reason := reason, fails := L.fails + 1 }
  if 3 ≤ (t.link k).fails then (t.linkDown k reason).modLink k fun L => { L with fails := 0 } else t

/-- The fence request of a class A reaction reaches its unit (R415, R419). -/
def State.fenceUnit (s : State) (n aux reason : Nat) : State :=
  if n < 96 then s.fenceTile n reason
  else if n < 128 then s.fenceQuadrant ((n - 96) / 8)
  else if 128 ≤ n ∧ n ≤ 135 then
    if s.moduleOn (n - 128) then s.stopModule (n - 134) 5 0 0 else s.stopCore (n - 128) .fence
  else if n = 161 then (s.quiesce 0 true none).settleQuiesce 0
  else if n = 162 then (s.quiesce (aux % 256) true none).settleQuiesce (aux % 256)
  else if 224 ≤ n ∧ n ≤ 255 then s.fencePort ((n - 224) / 8)
  else if 256 ≤ n ∧ n ≤ 287 then
    let k := (n - 256) / 8
    (s.linkDown k (s.link k).reason).modLink k fun L => { L with enable := false }
  else s

/-! ### Entry to the safe state (R423, R272) -/

/-- Every job meets the safe state: those consumed and not accepted complete SAFE_STATE, administrative ones apart;
accepted ones stop as R89 gives. A background chart operation completes SAFE_STATE (03_chart.md R73). -/
def State.safeJobs (s : State) : State :=
  let js := tkeys s.jobs fun _ J => !(J.admin && J.phase != .openChain)
  eachOf js (fun t j => t.stopJob j .safe) s

/-- The chart operation in progress, if it has not begun to commit, completes with SAFE_STATE. -/
def State.safeChart (s : State) : State :=
  match s.chart.op with
  | none => s
  | some o =>
    let t := s.endJob o.job St.safeState 0
    let t := eachOf o.doneList (fun u n => u.modTile n fun T => { T with reload := true, change := 2 }) t
    let t := eachOf o.tiles (fun u n => u.modTile n fun T => if T.reload then T else { T with change := 0 }) t
    { t.opEnd (if o.retile then 2 else 1) 0 with chart := { t.chart with
        op := none, powerNext := if o.power.isSome then o.power else t.chart.powerNext } }

/-- Entry to the safe state by reaction `id` on a source: permits low, gates closed, tiles, firmware cores and ports
stopped, jobs ended, a fresh exit challenge, LOG[5] extended, PF0's vector 0 sent (R423, R273). A tile that only the safe state
fences keeps FENCE_REASON 0: R101 has no code for it (log 88). -/
def State.enterSafe (s : State) (src sub id : Nat) (inj : Bool) : State :=
  let t := { s with
    pins := { s.pins with permit := 0 },
    auth := { s.auth with permits := [] },
    faults := { s.faults with safe := { s.faults.safe with
      on := true, first := src, entry := s.binTime, reaction := id, inj := inj, multi := false,
      challenge := drbgBytes s.draws 32 } } }.drawn 32
  let t := if inj then eachOf (tkeys t.jobs fun _ _ => true) (fun u j => u.markInj j true) t else t
  let t := eachOf ((List.range (quadsOf s.variant)) ++ [4]) (fun u g => u.closeGate g true) t
  let t := t.safeChart.safeJobs
  let t := eachOf (tkeys t.tiles fun _ T => T.mode != .absent && T.mode != .fenced) (fun u n =>
    u.modTile n fun T => { T.scrubbed with mode := .fenced, bySafe := true, returning := false }) t
  let t := eachOf (t.firmwareCores) (fun u c => u.modCore c fun C => { C with stopped := true, bySafe := true }) t
  let t := eachOf (List.range (portsOf s.variant)) (fun u p => u.modPort p fun P => { P with safeStop := true }) t
  (t.logEvent 5 0x0050 (le 1 sub ++ le 2 src ++ le 4 id)).glbEvent 2

/-! ### Reactions and handling (R417, R419, R424) -/

/-- A new reaction takes the next ID (R419). -/
def State.newReact (s : State) (src cls state : Nat) (inj : Bool) : State :=
  let id := s.faults.nextId
  { s with faults := { s.faults with
      nextId := id + 1,
      reacts := tput s.faults.reacts (id % 64) { id := id, source := src, cls := cls, state := state, inj := inj,
                                                 start := s.binTime, began := s.time.elapsed } } }

/-- A class B reaction; in the safe state a further one adds to its conditions and starts no reaction (R424). -/
def State.reactB (s : State) (src sub : Nat) (inj : Bool) : State :=
  if s.faults.safe.on then
    { s with faults := { s.faults with safe := { s.faults.safe with multi := true } } }.logEvent 5 0x0050
      (le 1 sub ++ le 2 src ++ le 4 0)
  else
    let id := s.faults.nextId
    ((s.newReact src 2 5 inj).modSrc src fun S => { S with attn := true, rid := id }).enterSafe src sub id inj

/-- The jobs that a fence of a unit would stop, for INJ_SEEN (R431). -/
def State.jobsOnUnit (s : State) (n : Nat) : List Nat :=
  if n < 96 then (s.runsAt (.tile n)).map (·.job)
  else if n < 128 then s.stagedIn ((n - 96) / 8)
  else if 128 ≤ n ∧ n ≤ 135 then (s.runsAt (.core (n - 128))).map (·.job)
  else []

/-- A class A reaction: a fence of the unit, unless it is fenced already, of a tile with reason 1 after a machine check and 3
after a threshold (SLOT_UE is a machine check that only a threshold lets react); sources 384 and 385 have no unit to fence (log 25); class B where the source has no class A
reaction, or where fewer than four firmware cores would remain (R415, R417, R419). -/
def State.reactA (s : State) (src sub aux : Nat) (inj : Bool) : State :=
  let tooFew := 128 ≤ src && src ≤ 135 && !s.moduleOn (src - 128) &&
    decide ((s.firmwareCores.filter (· != src - 128)).length < 4)
  if !hasA src || tooFew then s.reactB src sub inj
  else if src = 384 ∨ src = 385 then
    let id := s.faults.nextId
    ((s.newReact src 1 3 inj).modReact id fun r => { r with ack := some 0, back := some s.time.elapsed }).modSrc src fun S =>
      { S with attn := true, rid := id }
  else if (s.src src).fenced then s
  else
    let id := s.faults.nextId
    let t := (s.newReact src 1 1 inj).modSrc src fun S => { S with attn := true, fenced := true, rid := id }
    let t := eachOf (t.jobsOnUnit src) (fun u j => u.markInj j inj) t
    t.fenceUnit src aux (if 0x11 ≤ sub ∧ sub ≤ 0x18 ∧ sub ≠ 0x13 then 1 else 3)

/-- The unit of a source leaves its fence: its reaction is released, and the consequential window begins to run out
(R419-R421). -/
def State.leaveFence (s : State) (src : Nat) : State :=
  if (s.src src).fenced then
    let t := s.modSrc src fun S => { S with fenced := false }
    { t with faults := { t.faults with reacts := tmap t.faults.reacts fun _ r =>
        if r.source = src ∧ r.cls = 1 ∧ (r.state = 1 ∨ r.state = 2) then
          { r with state := 3, back := some s.time.elapsed } else r } }
  else s

/-- The reaction whose fence of a source's unit is in force; 0 when there is none. -/
def State.fenceId (s : State) (src : Nat) : Nat :=
  ((s.faults.reacts.find? fun e => e.2.source == src && e.2.cls == 1 && (e.2.state == 1 || e.2.state == 2)).map
    fun e => e.2.id).getD 0

/-- The counted step of R417: the source's window, its count and its threshold. -/
def State.countStep (s : State) (src sub aux : Nat) (inj : Bool) : State :=
  let S := s.src src
  let fresh := S.count == 0 || decide (S.w * 1000 ≤ s.us - S.start)
  let c := if fresh then 1 else S.count + 1
  let st := if fresh then s.us else S.start
  if S.n ≤ c then
    let t := s.modSrc src fun S => { S with count := 0, start := st }
    if S.action = 0 then t else if S.action = 1 then t.reactA src sub aux inj else t.reactB src sub inj
  else s.modSrc src fun S => { S with count := c, start := st }

/-- One record of the collector: its level and reset-only conditions, and the handling of R417. -/
def State.handle (s : State) (src sub aux : Nat) (real inj dry : Bool) (job : Option Nat) : State :=
  let win := s.windowOf src sub aux
  let d := (dispOf s src sub job).getD .log
  let acts := !dry || real
  let s1 := s.modSrc src fun S => { S with
    total := satAdd 32 S.total 1, lastAt := s.binTime, lastSub := sub, real := real, inj := inj,
    conseq := win.isSome, dry := dry, aux := aux,
    rid := match win with
      | some r => r.id
      | none => if S.fenced ∧ d = .a then s.fenceId src else 0,
    cycle := none, present := S.present || (acts && levelCause src sub),
    attn := S.attn || (acts && sub == 0x02) }
  let s2 := if acts && resetOnlyCause src sub then
      { s1 with faults := { s1.faults with safe := { s1.faults.safe with resetOnly := true } } } else s1
  if !acts then s2
  else match d, win with
    | .b, some r => (s2.reactB src sub inj).modSrc src fun S => { S with rid := r.id }
    | _, some _ => s2
    | .a, none => s2.reactA src sub aux inj
    | .b, none => s2.reactB src sub inj
    | .log, none => s2
    | .counted, none => s2.countStep src sub aux inj

/-- A real event (R414). -/
def State.event (s : State) (src sub aux : Nat) (job : Option Nat := none) : State :=
  s.handle src sub aux true false false job

/-- An event that a test injected on purpose: wet, INJ set (02_operations_catalogue.md R46). -/
def State.eventInj (s : State) (src sub aux : Nat) (job : Option Nat := none) : State :=
  s.handle src sub aux false true false job

/-- A read of private memory that does not verify is recorded on its port: `j` is 1 for a bulk line, 2 for a sealed one, 3 for
the counter tree; PMEM.ERR counts it (01, R35; 22, R484). -/
def State.pmemFail (s : State) (p j : Nat) (job : Option Nat := none) : State :=
  (s.bump (0xB0010 + 0x100 * p + 4 * j)).event (192 + 16 * p + j) 0x22 0 job

end Sys2Proof.Machine
end

