-- ==== Sys2Proof/Machine/Finish.lean ====
section
/-! DEFINITION. What a malformed entry or doorbell costs, the completion entry and its write, interrupt moderation, and
the background commands that wait for completions (10_job_rings.md R242-R251; 11_functions_and_sharing.md R257-R266). -/

namespace Sys2Proof.Machine

/-! ### Malformed entries and doorbells -/

/-- Counter `k` of FN.ERR of function `f`. -/
def fnErr (f k : Nat) : Nat := 0x2000 + 0x20 * f + 4 * k

/-- A queue that is neither a queue 0 nor a SAFETY queue is fenced (R244). -/
def State.fenceQueue (s : State) (q reason : Nat) : State :=
  let f := (s.queue q).fn
  let t := match (s.queue q).chain with
    | some j => s.abandonChain j
    | none => s
  let t := t.modQueue q fun Q => { Q with mode := .fenced, reason := reason, cqWait := false, cache := [] }
  let t := if f < 0x100 then (t.bump (fnErr f 5)).glbEvent 0 else t
  if 0 < f ∧ f < 0x100 then t.vfEvent f 0 else t

/-- A malformed entry or doorbell on a queue 0 or a SAFETY queue halts the device (R243). -/
def State.haltDevice (s : State) (f : Nat) : State :=
  let t := s.event (if f = 0 then 161 else 162) 0x20 f
  { t with
    queues := t.queues.map fun e => (e.1, if e.2.mode = .absent then e.2 else { e.2 with mode := .halted }),
    faults := { t.faults with safe := { t.faults.safe with halt := true } } }

/-- What a malformed entry or doorbell of queue `q` costs (R243, R244). -/
def State.malformed (s : State) (q reason : Nat) : State :=
  if q < 256 ∨ (s.queue q).safety then s.haltDevice (s.queue q).fn else s.fenceQueue q reason

/-! ### Notification (R251) -/

/-- One more completion that counts toward the interrupt of queue `q`. -/
def State.notify (s : State) (q : Nat) : State :=
  let t := s.modQueue q fun Q => { Q with
    pendN := Q.pendN + 1, pendAt := if Q.pendN = 0 then s.time.elapsed + Q.modTime * 1000 else Q.pendAt }
  if (t.queue q).modTime = 0 ∨ (t.queue q).modCount ≤ (t.queue q).pendN then t.notifyNow q else t

/-- An owner module that waits is woken with a code in a0 (16_service_complex.md R376). -/
def State.wakeModule (s : State) (m code : Nat) : State :=
  if (s.module m).waiting.isSome then
    (s.modModule m fun M => { M with waiting := none }).modCore (6 + m) fun C =>
      { C with x := tput C.x 10 (BitVec.ofNat 64 code) }
  else s

/-! ### Background commands -/

/-- DESTROY_QUEUE and ENABLE_QUEUE end once the queue's consumed jobs have completed; an enabled queue ends the fence of
its function (18, R415; R260, R261). -/
def State.settleBg (s : State) (j : Nat) : State :=
  match s.job? j with
  | none => s
  | some J =>
    match J.bg, J.phase with
    | some (q, n), .background =>
      if (s.jobsOfQueue q).isEmpty then
        if J.opcode = 2 then
          { (s.endAdmin j St.ok n) with queues := tdel s.queues q }
        else
          let f := (s.queue q).fn
          let t := (s.modQueue q fun Q => { Q with mode := .enabled, reason := 0 }).modFn f fun F => { F with quiesced := false }
          let t := if f = 0 then t.leaveFence 161 else if (s.src 162).aux % 256 = f then t.leaveFence 162 else t
          t.endAdmin j St.ok 0
      else s
    | _, _ => s

/-- Every background command that waits for completions looks again. -/
def State.settle (s : State) : State :=
  let t := eachOf (tkeys s.fns fun _ F => F.quiesce.isSome) State.settleQuiesce s
  eachOf (tkeys t.jobs fun _ J => J.bg.isSome) State.settleBg t

/-! ### The completion write (R245-R248) -/

/-- The deadline guarantee covers the job (12_deadlines.md R295, R296; 21_limits_perturbation.md R474). -/
def Job.covered (J : Job) : Bool :=
  J.accepted.isSome && J.cls != 7 && !J.admin && !J.overrun && !J.uncovered && !J.pertAcc &&
  J.status != St.mcheck && J.status != St.fenced && J.status != St.safeState && J.status != St.aborted

/-- The job completes late: accepted in a class other than C7, past acceptance plus its deadline (R246). -/
def Job.late (J : Job) (now : Nat) : Bool :=
  match J.accepted, J.deadline with
  | some _, some d => J.cls != 7 && decide (d < now)
  | _, _ => false

/-- The counter of FN.ERR that a status advances (R252). -/
def errOf (status : Nat) : Option Nat :=
  if status = St.fragFault then some 0 else if status = St.dstFault then some 1
  else if status = St.lenMismatch then some 2 else if status = St.malformed then some 3
  else if status = St.ctxFull then some 6 else none

/-- The 32 bytes that the completion of job `J` writes at index `c`. -/
def State.completionOf (s : State) (J : Job) (c : BitVec 32) (log2 : Nat) : Bytes :=
  completionBytes J.tag.toNat J.status
    (completionFlags (phaseOf c.toNat (2 ^ log2)) (J.late s.time.elapsed) (J.inj || J.acted) J.provisional J.al2Done)
    J.result J.ret
    (match J.accepted with
     | some a => serviceTime a s.time.elapsed
     | none => 0)

/-- The counters that a written completion advances, and the miss of a covered deadline (R252; 12, R296). -/
def State.countDone (s : State) (J : Job) : State :=
  let t := if J.fn < 0x100 then
      (match errOf J.status with
       | some k => s.bump (fnErr J.fn k)
       | none => s) else s
  let late := J.late s.time.elapsed
  let t := if late && decide (J.fn < 0x100) then t.bump (fnErr J.fn 4) else t
  let t := if J.acted then t.bump (0xF0014 + 0x20 * J.fn) else t
  if late && J.covered then (t.bump 0x30028).event 138 0x24 J.cls else t

/-- Count a completion for a quiesce of its function and for a DESTROY_QUEUE of its queue. -/
def State.countEnds (s : State) (J : Job) (q : Nat) : State :=
  let ab := J.status == St.aborted
  let t := match (s.fn J.fn).quiesce with
    | none => s
    | some z => s.modFn J.fn fun F => { F with quiesce := some { z with
        other := z.other + b2n (!ab), aborted := z.aborted + b2n ab } }
  { t with jobs := t.jobs.map fun e => (e.1, match e.2.bg with
      | some (p, n) => if p = q then { e.2 with bg := some (p, n + b2n ab) } else e.2
      | none => e.2) }

/-- The completion of an ended job is written, and the job leaves the in-flight table. A job of a function under FLR
writes none; one of a queue fenced for a completion write fault is discarded; a slot that cannot be written is
malformed under item 7 of R242. -/
def State.complete (s : State) (j : Nat) : State :=
  match s.job? j with
  | none => s
  | some J =>
    match J.src with
    | .internal => (s.dropJob j).settle
    | .ring q =>
      let Q := s.queue q
      let gone := (s.dropJob j).modQueue q fun Q => { Q with reserved := Q.reserved - 1 }
      if s.silenced J then gone
      else if Q.mode = .fenced ∧ Q.reason = 8 then (gone.liftBorrow J.fn).settle
      else
        let a := Q.cqBase + 32 * (Q.cqTail.toNat % 2 ^ Q.cqLog2)
        if (s.wrFault Q.isModule a 32).isSome then ((gone.malformed q 8).liftBorrow J.fn).settle
        else
          let t := (gone.countEnds J q).wr Q.isModule a (s.completionOf J Q.cqTail Q.cqLog2)
          let t := t.modQueue q fun Q => { Q with cqTail := Q.cqTail + 1 }
          let t := if fNotify J.flags.toNat && Q.isModule.isNone then t.notify q else t
          let t := match Q.isModule with
            | some m => t.wakeModule m 1
            | none => t
          ((t.countDone J).liftBorrow J.fn).settle

end Sys2Proof.Machine
end

