-- ==== Sys2Proof/Machine/Plan.lean ====
section
/-! DEFINITION. What a job is charged: the occupancy of each operation at its assurance level and the steps and runs of
its plan (02_operations_catalogue.md R48-R56; 05, R112-R122; 06, R127, R134-R144; 07, R160-R174; 08, R189; 12, R280). -/

namespace Sys2Proof.Machine

/-! ### Streaming and digest costs (R55) -/

/-- Cycles of a SHA-2 digest of `m` bytes on a lane. -/
def sha2Cycles (c m : Nat) : Nat :=
  let b := hashBlock c
  100 + (if b = 64 then 64 else 80) * ceilDiv (m + 1 + b / 8) b

/-- Permutations of a sponge that absorbs `m` bytes and squeezes `out`. -/
def spongePerms (c m out : Nat) : Nat := m / hashBlock c + 1 + (ceilDiv (max out 1) (hashBlock c) - 1)

/-- Cycles of a digest or XOF of `m` bytes. -/
def digestCycles (c m out : Nat) : Nat :=
  if isSha2 c then sha2Cycles c m else 100 + 24 * spongePerms c m out

/-- Blocks that bytepad makes of `n` bytes (SP 800-185): the pad's own encoding takes two bytes. -/
def padBlocks (c n : Nat) : Nat := ceilDiv (n + 2) (hashBlock c)

/-- Bytes of left_encode or right_encode of `n`. -/
def encLen (n : Nat) : Nat := if n < 2 ^ 8 then 2 else if n < 2 ^ 16 then 3 else if n < 2 ^ 24 then 4 else if n < 2 ^ 32 then 5 else 9

/-- Cycles of an HMAC invocation on a message of `m` bytes, key state derivation apart (06, R144). -/
def hmacCycles (c m : Nat) : Nat :=
  if isSha2 c then
    100 + (if hashBlock c = 64 then 64 else 80) * (ceilDiv (m + 1 + hashBlock c / 8) (hashBlock c) + 1)
  else 100 + 24 * (spongePerms c m (hashLen c) + 1)

/-- Cycles of KMAC on `m` bytes with a key of `k` and a customisation of `s` bytes; from a loaded state when `slot`. -/
def kmacCycles (c m out k s : Nat) (slot xof : Bool) : Nat :=
  let tail := spongePerms c (m + encLen (if xof then 0 else 8 * out)) out
  100 + 24 * (if slot then tail
    else padBlocks c (encLen 32 + 4 + encLen (8 * s) + s) + padBlocks c (encLen (8 * k) + k) + tail)

/-- Cycles a message past the 8,192 bytes of allowance adds to a pass over it. -/
def extra (len unit cyc : Nat) : Nat := cyc * ceilDiv (len - 8192) unit

/-- Length of M' (05, R111). -/
def mPrimeLen (p len : Nat) : Nat :=
  2 + bitsOf p 7 0 + (if bitOf p 9 then 11 + hashLen (bitsOf p 23 16) else len)

/-- The extra cycles of a SHA-3 or SHAKE pre-hash that the tile computes (05, R112). -/
def preHashExtra (p len : Nat) : Nat :=
  let ph := bitsOf p 23 16
  if bitOf p 9 && !bitOf p 10 && 0x10 ≤ ph then extra len (hashBlock ph) 24 else 0

/-! ### Occupancies at AL1: sign or the operation, and verify (R51-R53) -/

/-- SLH-DSA of the SHA2 set of index `k`: keygen, sign, verify. -/
def slhBase (k : Nat) : Nat × Nat × Nat :=
  match k with
  | 0 => (1100000, 9300000, 12800) | 1 => (20000, 465000, 25600) | 2 => (1650000, 17650000, 19000)
  | 3 => (30000, 731000, 39400) | 4 => (1200000, 73100000, 25600) | _ => (60000, 2048000, 51200)

/-- Three quarters, rounded up, for the SHAKE sets. -/
def shake34 (shake : Bool) (n : Nat) : Nat := if shake then ceilDiv (3 * n) 4 else n

/-- Sign cycles of LM-OTS by its Winternitz index, without the commit's 2,048 when the block size is above 1. -/
def otsSign (ots : Nat) : Nat :=
  shake34 (2 ≤ otsGroup ots) (match otsW ots with | 0 => 9000 | 1 => 11000 | 2 => 18000 | _ => 51200)

/-- One leaf of LM-OTS. -/
def otsLeaf (ots : Nat) : Nat := match otsW ots with | 0 => 1200 | 1 => 1700 | 2 => 4200 | _ => 36000

/-- Verify of one LMS level. -/
def lmsVerify (l : Nat × Nat) : Nat :=
  shake34 (2 ≤ lmsGroup l.1)
    ((match otsW l.2 with | 0 => 3200 | 1 => 3800 | 2 => 5120 | _ => 7680) + 8 * lmsH l.1 - 80)

/-- Verify of an XMSS or XMSS^MT set. -/
def xmssVerify (mt : Bool) (oid : Nat) : Nat :=
  let (h, d, _, sh) := xmssSet mt oid
  shake34 sh (d * (12800 + 16 * (h / d) - 160))

/-- Keygen of an HSS key over its levels. -/
def hssKeygen (ls : List (Nat × Nat)) : Nat :=
  shake34 (ls.any fun l => 2 ≤ lmsGroup l.1)
    ((ls.map fun l => 2 ^ lmsH l.1 * otsLeaf l.2).sum +
      ((ls.dropLast).map fun l => (match otsW l.2 with | 0 => 9000 | 1 => 11000 | 2 => 18000 | _ => 51200)).sum + 2048)

/-- Keygen of XMSS and XMSS^MT. -/
def xmssKeygen (mt : Bool) (oid : Nat) : Nat :=
  let (h, d, _, sh) := xmssSet mt oid
  shake34 sh (d * 2 ^ (h / d) * 9000 + (d - 1) * 60000 + 2048)

/-- The stateful key is of a SHAKE set. -/
def hbsShake (alg : Nat) (H : Hbs) : Bool :=
  match H.types.getLast? with
  | some (l, _) => if alg / 0x100 = 0x34 then 2 ≤ lmsGroup l else (xmssSet (alg / 0x100 == 0x3C) (psetOf alg)).2.2.2
  | none => false

/-- What a message beyond 8,192 bytes adds to a stateful operation (06, R134). -/
def hbsExtra (alg : Nat) (H : Hbs) (len : Nat) : Nat := if hbsShake alg H then extra len 136 24 else extra len 64 64

/-- Sign cycles of a stateful key; a block size above 1 takes the commit out of the figure (06, R138). -/
def hbsSignCycles (alg : Nat) (H : Hbs) (len : Nat) : Nat :=
  let base := if alg / 0x100 = 0x34 then otsSign ((H.types.getLast?.map (·.2)).getD 4) else shake34 (hbsShake alg H) 60000
  base - (if 1 < H.block then 2048 else 0) + hbsExtra alg H len

/-- Cycles to build the next tree of a level and to sign its root, and those of each level above that needs a new tree with it;
levels from the bottom up, each with its leaves, the cost of one and of the signature of a root; `t` is the number of the tree. -/
def treeCycles : List (Nat × Nat × Nat) → Nat → Nat
  | [], _ => 0
  | (n, g, sg) :: up, t => n * g + sg + (match up.head? with
    | some (m, _, _) => if t % m = 0 then treeCycles up (t / m) else 0
    | none => 0)

/-- The levels of a stateful key below the top one, from the bottom up (06, R138, R139). -/
def lowerLevels (alg : Nat) (H : Hbs) : List (Nat × Nat × Nat) :=
  if alg / 0x100 = 0x34 then
    ((H.types.drop 1).zip H.types).reverse.map fun x => (2 ^ lmsH x.1.1, otsLeaf x.1.2,
      match otsW x.2.2 with | 0 => 9000 | 1 => 11000 | 2 => 18000 | _ => 51200)
  else
    let (h, d, _, _) := xmssSet (alg / 0x100 == 0x3C) (psetOf alg)
    List.replicate (d - 1) (2 ^ (h / d), 9000, 60000)

/-- Cycles of the preparation of bottom tree `b`, the durable commit of the upper leaf included (06, R139). -/
def prepCycles (alg : Nat) (H : Hbs) (b : Nat) : Nat := shake34 (hbsShake alg H) (treeCycles (lowerLevels alg H) b) + 2048

/-- The loop of an operation with one: its fixed part, the cost of a unit, the units of its budget and its cap
(05, R116, R117, R122; 07, R160-R162, R173). FN-DSA figures are ns on a Helm core. -/
def loopOf (op : Nat) : Option (Nat × Nat × Nat × Nat) :=
  match op with
  | 0x2101 => some (36000, 17600, 13, 128) | 0x2102 => some (50000, 24800, 16, 128) | 0x2103 => some (80000, 45500, 12, 128)
  | 0x2401 => some (0, 10000000, 6, 48) | 0x2402 => some (0, 30000000, 6, 48)
  | 0x2501 => some (22000, 127000, 6, 64) | 0x2502 => some (48000, 282000, 6, 64)
  | 0x4401 => some (200000, 3410000, 82, 256) | 0x4402 => some (400000, 10000000, 82, 256)
  | 0x4403 => some (800000, 24300000, 82, 256) | 0x4404 => some (800000, 25800000, 82, 256)
  | 0x4411 => some (200000, 4100000, 2, 8) | 0x4412 => some (400000, 12000000, 2, 8)
  | 0x4413 => some (800000, 29200000, 2, 8) | 0x4414 => some (800000, 31000000, 2, 8)
  | 0x5908 => some (2000000, 53500, 11080, 44320) | 0x590C => some (3000000, 138000, 16620, 66480)
  | 0x5910 => some (4000000, 279000, 22150, 88600)
  | _ => none

/-- The bit length of the public exponent of an RSAPublicKey, which the charge of a public operation follows (R48; 07,
R170); 17 for a string that is no supported key, whose job ends KEY_INVALID. -/
def rsaEBits (p : Nat) (der : Bytes) : Nat :=
  match rsaParse p der with
  | none => 17
  | some (_, e) => Nat.log2 e + 1

/-- The RSA public operation: the catalogue's figure, and more for another exponent (07, R170). DESIGN CHOICE (log 85): an
exponent shorter than 17 bits, for which R170's formula is negative, adds nothing. -/
def rsaPublic (p eBits : Nat) : Nat :=
  (match p with | 0x08 => 2400 | 0x0C => 5000 | 0x10 => 8500 | 0x18 => 18000 | _ => 32000) + 14 * (eBits - 17) * p ^ 2

/-- The RSA private operation. -/
def rsaPrivate (p : Nat) : Nat :=
  match p with | 0x08 => 42000 | 0x0C => 133000 | 0x10 => 300000 | 0x18 => 950000 | _ => 2300000

/-- Cycles of a pass over a message of a hash (07, R174). -/
def passCycles (c len : Nat) : Nat :=
  if isSha2 c then (if hashBlock c = 64 then extra len 64 64 else extra len 128 80) else extra len (hashBlock c) 24

/-- Sign and verify figures of families 0x2, 0x3 and 0x5 for this job's message: (sign, verify). -/
def signVerify (op p len eBits : Nat) : Nat × Nat :=
  let alg := algOf op
  let m' := mPrimeLen p len
  match alg / 0x100 with
  | 0x20 =>
    let v := match psetOf alg with | 1 => 11000 | 2 => 16000 | _ => 26000
    (0, v + extra m' 136 24)
  | 0x24 => (0, (if psetOf alg = 1 then 6000 else 12000) + extra (2 + bitsOf p 7 0 + len) 136 24)
  | 0x30 =>
    let c := psetOf alg
    let sh := decide (7 ≤ c)
    let (_, sg, vf) := slhBase ((c - 1) % 6)
    let pass := if sh then extra m' 136 24 else if (c - 1) % 6 < 2 then extra m' 64 64 else extra m' 128 80
    (shake34 sh sg + 2 * pass, shake34 sh vf + pass)
  | 0x50 =>
    let k := psetOf alg
    let e := if bitOf p 10 then 0 else passCycles (bitsOf p 23 16) len
    ((match k with | 1 => 30000 | 2 => 70000 | _ => 160000) + e, (match k with | 1 => 60000 | 2 => 140000 | _ => 320000) + e)
  | 0x54 =>
    if psetOf alg = 1 then (22000 + 2 * extra len 128 80, 45000 + extra len 128 80)
    else (60000 + 2 * extra len 136 24, 120000 + extra len 136 24)
  | _ =>
    let e := if bitOf p 10 then 0 else passCycles (bitsOf p 23 16) len
    (rsaPrivate (psetOf alg) + e, rsaPublic (psetOf alg) eBits + e)

/-- Cycles of the operations without a loop and without a message: keygen, encaps, decaps, agreement. -/
def plainCycles (op : Nat) : Nat :=
  match op with
  | 0x1001 => 4800 | 0x1101 => 5400 | 0x1201 => 7200
  | 0x1002 => 7200 | 0x1102 => 8000 | 0x1202 => 10600
  | 0x1003 => 10800 | 0x1103 => 11600 | 0x1203 => 15000
  | 0x2001 => 20000 | 0x2002 => 32000 | 0x2003 => 48000
  | 0x4001 => 30000 | 0x4101 => 40000 | 0x4201 => 80000
  | 0x4002 => 60000 | 0x4102 => 80000 | 0x4202 => 150000
  | 0x4003 => 100000 | 0x4103 => 130000 | 0x4203 => 250000
  | 0x4501 => 4000 | 0x4601 => 60000 | 0x4502 => 8000 | 0x4602 => 100000
  | 0x4503 => 19000 | 0x4603 => 190000 | 0x4504 => 20000 | 0x4604 => 200000
  | 0x5001 => 25000 | 0x5301 => 40000 | 0x5002 => 60000 | 0x5302 => 90000 | 0x5003 => 140000 | 0x5303 => 200000
  | 0x5401 => 20000 | 0x5402 => 55000
  | 0x5701 => 35000 | 0x5801 => 35000 | 0x5702 => 95000 | 0x5802 => 95000
  | _ =>
    if op / 0x100 = 0x30 then shake34 (7 ≤ psetOf op) (slhBase ((psetOf op - 1) % 6)).1
    else if op / 0x100 = 0x38 then xmssKeygen false (psetOf op)
    else if op / 0x100 = 0x3C then xmssKeygen true (psetOf op)
    else 0

/-- Cycles of a family 0x6 job; the per-byte term doubles at AL2 (08, R189). -/
def symmCycles (op p len : Nat) (al2 : Bool) : Nat :=
  let k := if al2 then 2 else 1
  match operOf op with
  | 0 => 600 + ceilDiv (16 * k * (len + bitsOf p 15 0)) 125
  | 1 => 600 + ceilDiv (16 * k * (len + bitsOf p 15 0)) 125
  | 2 => 600 + ceilDiv (32 * k * (len + bitsOf p 15 0)) 125
  | 3 => 600 + ceilDiv (32 * k * (len + bitsOf p 15 0)) 125
  | 7 => 300 + 120 * k * ceilDiv len 8
  | 8 => 300 + 120 * k * (ceilDiv len 8 - 1)
  | 9 => 500 + ceilDiv (16 * k * (len + bitsOf p 15 0)) 75
  | 10 => 500 + ceilDiv (16 * k * (len + bitsOf p 15 0)) 75
  | _ => 600 + ceilDiv (16 * k * len) 125

/-- Cycles of a family 0x7 job on one lane or unit, the derivation of a key state apart; and the conditional cycles it is
charged: 32 for a mode switch and 400 for each state it derives (02, R56; 06, R144, R147). -/
def laneCycles (op p len keyLen : Nat) : Nat × Nat :=
  let c := psetOf op
  let out := bitsOf p 31 0
  let slot := bitOf p 52
  match kindOf op with
  | .digest => (digestCycles c len (hashLen c), 32)
  | .xof =>
    let pad := if 0x23 ≤ c then
        let n := bitsOf p 39 32 + bitsOf p 51 40
        if n = 0 then 0 else padBlocks c (n + encLen (8 * bitsOf p 39 32) + encLen (8 * bitsOf p 51 40))
      else 0
    (digestCycles c len out + 24 * pad, 32)
  | .hkdf =>
    let n := ceilDiv out (hashLen c)
    -- T(1) has no block before it
    (hmacCycles c keyLen + hmacCycles c (bitsOf p 51 40 + 1) + (n - 1) * hmacCycles c (hashLen c + bitsOf p 51 40 + 1) + 800, 32)
  | .kdf =>
    if c = 0x31 ∨ c = 0x32 then
      let w := if c = 0x31 then 32 else 64
      let n := ceilDiv out w
      let m := 4 + bitsOf p 51 40
      (kmacCycles c m w keyLen 0 false false + (n - 1) * kmacCycles c m w keyLen 0 true false, 32)
    else (ceilDiv out (hashLen c) * hmacCycles c (4 + bitsOf p 51 40) + 400, 32)
  | .slotLoad => (400, 32)
  | .slotDrop => (0, 0)
  | _ =>
    if c = 0x31 ∨ c = 0x32 then
      (kmacCycles c len out keyLen (bitsOf p 51 40) slot (bitOf p 53), if slot then 432 else 32)
    else (hmacCycles c len + (if slot then 0 else 400), if slot then 432 else 32)

/-! ### Steps of a plan (12, R281, R282) -/

/-- One step: what computes it, its personality (0 a Helm core), cycles of a run (ns on a Helm core), whether a second
run is compared with it, the lane kind on a HASH tile (none, SHA-2, Keccak), its conditional cycles, its entry key. -/
structure StepPlan where
  kind  : StepKind
  pers  : Nat
  cyc   : Nat
  dup   : Bool := false
  lane  : Option Bool := none      -- some true: a SHA-2 lane; some false: a Keccak unit
  cond  : Nat := 0
  entry : Nat := 0
  par   : Bool := false            -- runs beside the step before it
  mode  : Option Bool := none      -- the mode of a whole HASH tile: SHA-2 or Keccak
deriving DecidableEq, Repr

/-- At AL2 the step ends with a comparison of R94: its two runs, the check of what the step before it made, or the inverse
on the second pipeline of a SYMM tile. TIMED_NOP, which has no routine, compares nothing. -/
def StepPlan.compared (st : StepPlan) : Bool := st.dup || st.kind == .verifyAfterSign || (st.pers == 5 && st.entry != 0)

/-- The inputs of a plan that stand outside the entry: the key's leaf state, its length, the key's or the inline key's
exponent, the HSS levels of a signature to verify, and a durable commit that the job alone carries. -/
structure PlanIn where
  hbs    : Option Hbs := none
  keyLen : Nat := 0
  eBits  : Nat := 17
  levels : List (Nat × Nat) := []
  commit : Bool := false
deriving DecidableEq, Repr

/-- The charged cycles of a loop. -/
def budgetOf (op : Nat) : Nat :=
  match loopOf op with
  | some (f, u, b, _) => f + u * b
  | none => plainCycles op

/-- A digest step for the SHA-2 pre-hash that the device computes itself (05, R113; 06, R127); two lanes at AL2 of a
verify, whose two runs are independent (log 20). -/
def preHashSteps (op p len : Nat) (al2 : Bool) : List StepPlan :=
  let ph := bitsOf p 23 16
  if (famOf op = 2 ∨ op / 0x1000 = 3) ∧ bitOf p 9 ∧ ¬ bitOf p 10 ∧ isSha2 ph then
    [{ kind := .preHash, pers := 2, cyc := sha2Cycles ph len, dup := al2, lane := some true, cond := 32, entry := 0x7000 + ph }]
  else []

/-- The lane kind of a family 0x7 job. -/
def laneKind (op p : Nat) : Bool :=
  let c := if kindOf op = .slotLoad then bitsOf p 7 0 else psetOf op
  isSha2 c

/-- The mode that a job of family 0x3 holds a whole HASH tile in: SHA-2 (true) or Keccak, by its set (R56). -/
def hashMode (op p : Nat) (x : PlanIn) : Option Bool :=
  let alg := algOf op
  match alg / 0x100 with
  | 0x30 => some (decide (psetOf alg < 7))
  | 0x34 =>
    let t := match kindOf op with
      | .keygen => bitsOf p 7 0
      | .verify => ((x.levels.head?).map (·.1)).getD 5
      | _ => ((x.hbs.bind fun H => H.types.head?).map (·.1)).getD 5
    some (decide (lmsGroup t < 2))
  | 0x38 => some (!(xmssSet false (psetOf op)).2.2.2)
  | 0x3C => some (!(xmssSet true (psetOf op)).2.2.2)
  | _ => none

/-- The plan of a cryptographic opcode at an assurance level. -/
def planOf (op p len : Nat) (al2 : Bool) (x : PlanIn) : List StepPlan :=
  let pers := persOf op
  let main (c : Nat) (dup : Bool) : StepPlan :=
    { kind := .main, pers := pers, cyc := c + (if x.commit then 2048 else 0), dup := dup, entry := op, mode := hashMode op p x }
  let alg := algOf op
  let (_, vf) := signVerify op p len x.eBits
  let (sg, _) := signVerify op p len x.eBits
  let after (c : Nat) (pe : Nat) : List StepPlan :=
    if al2 then [{ kind := .verifyAfterSign, pers := pe, cyc := c, entry := op + 0x100, mode := hashMode op p x }] else []
  if famOf op = 7 then
    let (c, k) := laneCycles op p len x.keyLen
    [{ kind := .main, pers := 2, cyc := c, dup := al2, lane := some (laneKind op p), cond := k, entry := op }]
  else if famOf op = 6 then [main (symmCycles op p len al2) false]
  else match kindOf op with
  | .keygen =>
    if alg / 0x100 = 0x24 then
      main (budgetOf op) false ::
        (if al2 then [{ kind := .verifyAfterSign, pers := 1, cyc := 3000 * psetOf alg, entry := op + 0x200 }] else [])
    else if alg / 0x100 = 0x59 then
      main (budgetOf op) false :: after (rsaPrivate (psetOf alg) + rsaPublic (psetOf alg) 17) 4
    else if alg / 0x100 = 0x34 then [main (hssKeygen (hssLevels (psetOf op) p)) al2]
    else [main (budgetOf op) al2]
  | .sign =>
    if alg / 0x100 = 0x20 then
      preHashSteps op p len false ++
        [main (budgetOf op + extra (mPrimeLen p len) 136 24 + preHashExtra p len) false] ++ after vf pers
    else if alg / 0x100 = 0x24 then main (budgetOf op) false :: after vf 1
    else if stateful alg then
      match x.hbs with
      | some H =>
        main (hbsSignCycles alg H len) false ::
          after ((if alg / 0x100 = 0x34 then (H.types.map lmsVerify).sum
                 else xmssVerify (alg / 0x100 == 0x3C) (psetOf alg)) + hbsExtra alg H len) 2
      | none => [main 0 false]
    else preHashSteps op p len false ++ [main (sg + preHashExtra p len) false] ++ after vf pers
  | .verify =>
    if alg / 0x100 = 0x34 then
      [main ((x.levels.map lmsVerify).sum +
        (if x.levels.any (fun l => 2 ≤ lmsGroup l.1) then extra len 136 24 else extra len 64 64)) al2]
    else if stateful alg then
      let mt := alg / 0x100 == 0x3C
      [main (xmssVerify mt (psetOf alg) +
        (if (xmssSet mt (psetOf alg)).2.2.2 then extra len 136 24 else extra len 64 64)) al2]
    else preHashSteps op p len al2 ++ [main (vf + preHashExtra p len) al2]
  | .leafStatus => [main 0 false]
  | .oaepEnc => [main (rsaPublic (psetOf op) x.eBits + 500) al2]
  | .oaepDec => [main (rsaPrivate (psetOf op) + 500) al2]
  | _ => [main (plainCycles op) al2]

/-! ### Output lengths -/

/-- Bytes that a job of an opcode releases to DST (06, R133, R142; 07, R155; 08, R178). -/
def outLen (op p len dst : Nat) (toLog : Bool) (H : Option Hbs) : Nat :=
  let alg := algOf op
  match kindOf op with
  | .keygen =>
    if alg / 0x100 = 0x44 ∧ dst = 0 then 0
    else if alg / 0x100 = 0x34 then 4 + lmsPubLen (bitsOf p 7 0) else pkLen alg
  | .sign =>
    if alg / 0x100 = 0x34 then (match H with | some h => hssSigLen h.types | none => 0)
    else if alg / 0x100 = 0x50 ∧ bitOf p 13 then derMax alg else sigLen alg
  | .encaps => sigLen alg
  | .oaepEnc => 32 * psetOf op
  | .oaepDec => if bitOf p 14 then 0 else 32 * psetOf op - 2 * hashLen (bitsOf p 23 16) - 2
  | .seal => len + tagLen op p
  | .unseal => len
  | .ctr => len
  | .xtsEnc => len
  | .xtsDec => len
  | .wrap => 8 * ceilDiv len 8 + 8
  | .unwrap => len - 8
  | .digest => if toLog then 0 else hashLen (psetOf op)
  | .xof => if toLog then 0 else bitsOf p 31 0
  | .mac => if toLog then 0 else if bitsOf p 31 0 = 0 then hashLen (psetOf op) else bitsOf p 31 0
  | _ => 0

/-- How many keys an opcode's job creates (01; 05, R103; 06, R142; 07, R153, R155). -/
def newKeys (op p : Nat) : Nat :=
  match kindOf op with
  | .keygen => if algOf op / 0x100 = 0x44 then 2 else 1
  | .encaps => 1
  | .decaps => 1
  | .agree => 1
  | .hkdf => 1
  | .kdf => 1
  | .oaepDec => if bitOf p 14 then 1 else 0
  | _ => 0

end Sys2Proof.Machine
end

