-- ==== Sys2Proof/Machine/Reckoner.lean ====
section
/-! DEFINITION. The Reckoner: routes, capacity, the demand test, placement, bandwidth channels, shares and the key
cache (12_deadlines.md R277-R293; 03_chart.md R65-R67; 07, R158-R159; 09, R211). -/

namespace Sys2Proof.Machine

/-! ### Routes and capacity (03, R65, R67) -/

/-- The group that the running chart's routes give a function, class and personality. -/
def State.route (s : State) (fn cls pers : Nat) : Option Nat :=
  (s.chart.running.bind fun c => c.routes.find? fun r =>
    r.first ≤ fn && fn ≤ r.last && bitOf r.mask cls && r.pers == pers).map (·.group)

/-- Tile `n` is of group `g` in the running chart. -/
def State.inGroup (s : State) (g n : Nat) : Bool :=
  match (s.tile n).asg with
  | some a => a.group == g && a.pers != 0
  | none => false

/-- A tile that is not fenced and serves. -/
def Tile.serves (T : Tile) : Bool := T.mode == .idle || T.mode == .busy

/-- A tile that is present and not fenced; one under its self-test is fenced until it returns (04, R97). -/
def Tile.unfenced (T : Tile) : Bool := T.mode != .fenced && T.mode != .selfTest && T.mode != .absent

/-- The tiles of group `g`. -/
def State.groupTiles (s : State) (g : Nat) : List Nat := (List.range (tilesOf s.variant)).filter (s.inGroup g)

/-- A tile admits new work: it serves, is not parked by the power limit, and no chart operation has taken it out. -/
def State.admits (s : State) (n : Nat) : Bool :=
  (s.tile n).serves && !(s.tile n).parked &&
  (match s.chart.op with
   | some o => !(o.retile && o.removed && o.tiles.contains n)
   | none => true)

/-- The tiles of group `g` that admit new work. -/
def State.serving (s : State) (g : Nat) : List Nat := (s.groupTiles g).filter s.admits

/-- The donor groups of `g` while its fallback is active, in order (R67). -/
def State.donorsOf (s : State) (g : Nat) : List Nat :=
  if s.chart.fallback.contains g then
    ((s.chart.running.bind fun c => c.groups.find? fun r => r.id == g).map (·.donors)).getD []
  else []

/-- Admission of tile jobs has stopped for a LOAD_CHART (03, R70). -/
def State.chartStops (s : State) : Bool :=
  match s.chart.op with
  | some o => !o.retile && 2 ≤ o.phase
  | none => false

/-- The Quadrant with the most unfenced tiles of a group; the lowest on a tie (01, R24). -/
def State.stageQuad (s : State) (g : Option Nat) : Nat :=
  let count (q : Nat) : Nat :=
    match g with
    | none => 0
    | some g => ((s.groupTiles g).filter fun n => n / 24 == q && (s.tile n).unfenced).length
  (leastBy (fun q => 1000 - count q) (List.range (quadsOf s.variant))).getD 0

/-- The clock that admission tests against: the power limit's target where one stands (R291). -/
def State.mhz (s : State) (n : Nat) : Nat :=
  if (s.tile n).target = 0 then max (s.tile n).mhz 1 else min (max (s.tile n).mhz 1) (s.tile n).target

/-! ### What is placed (R283, R284) -/

/-- The job of a run is committed work: of a class other than C7 and within its rejection budget. -/
def State.committed (s : State) (j : Nat) : Bool :=
  match s.job? j with
  | some J => J.cls != 7 && !J.overrun
  | none => false

/-- Charged cycles of a run that have not been executed; ns on a Helm core. -/
def State.remaining (s : State) (r : Run) : Nat := r.cycles - s.executed r

/-- The acceptance order of a job. -/
def State.orderOf (s : State) (j : Nat) : Nat := ((s.job? j).map (·.acceptSeq)).getD 0

/-- Committed cycles of a server. -/
def State.load (s : State) (u : Server) : Nat :=
  (((s.runsAt u).filter fun r => s.committed r.job).map fun r => s.remaining r.run).sum

/-- Jobs placed on tile `n`, and the windows they hold. -/
def State.placedOn (s : State) (n : Nat) : Nat := (s.runsAt (.tile n)).length
def State.windowsOn (s : State) (n : Nat) : Nat := ((s.runsAt (.tile n)).map (·.run.windows)).sum

/-- The test of R284 on a list of (effective deadline, acceptance order, cycles): `sum` so far, clock `f`, time `now`. -/
def demandOk (now f : Nat) : Nat → List (Nat × Nat × Nat) → Bool
  | _, [] => true
  | sum, (d, _, c) :: rest => decide (now + ceilDiv ((sum + c) * 1000) f ≤ d) && demandOk now f (sum + c) rest

/-- Sort by effective deadline, then by acceptance order. -/
def byDeadline (l : List (Nat × Nat × Nat)) : List (Nat × Nat × Nat) := sortBy (·.1) (sortBy (·.2.1) l)

/-- Two uses of a tile meet: a whole-tile use meets every lane (R80, R283). -/
def meets (r : Option Nat) (l : Nat) : Bool :=
  match r with
  | none => true
  | some k => k == l

/-- The lanes of a HASH tile that a use covers: every lane for a whole-tile use. -/
def lanesOf (pers : Nat) (lane : Option Nat) : List Nat :=
  match lane with
  | some l => [l]
  | none => if pers = 2 then List.range 24 else [0]

/-- Tile `n` passes for a committed run of `c` cycles and effective deadline `d` (R284). -/
def State.tilePasses (s : State) (n pers : Nat) (lane : Option Nat) (c d w : Nat) : Bool :=
  s.placedOn n + 1 ≤ 32 && s.windowsOn n + w ≤ 16 &&
  (lanesOf pers lane).all fun l =>
    demandOk s.time.elapsed (s.mhz n) 8320 (byDeadline ((d, s.acceptSeq, c) ::
      ((s.runsAt (.tile n)).filter fun r => s.committed r.job && meets r.run.lane l).map fun r =>
        (r.run.effAt, s.orderOf r.job, s.remaining r.run)))

/-- Firmware core `c` passes for a run of `ns` (R285). -/
def State.corePasses (s : State) (c ns d : Nat) : Bool :=
  let rs := (s.runsAt (.core c)).filter fun r => s.committed r.job
  let block := ((rs.map fun r => s.remaining r.run).max?).getD 0
  demandOk s.time.elapsed 1000 block (byDeadline ((d, s.acceptSeq, ns) ::
    rs.map fun r => (r.run.effAt, s.orderOf r.job, s.remaining r.run)))

/-! ### Charges (R280) -/

/-- The SRAM windows of a routine, as the entry table loaded on a tile states them; one where no routine is named (04, R91). -/
def State.windowsOf (s : State) (n entry : Nat) : Nat := ((tget (s.tile n).routines entry).map (·.2)).getD 1

/-- Charged cycles of a run on tile `n`: the step's cycles, the preemption allowance, and the latencies, which are
counted in units of 1/450 ns. -/
def runCharge (f cyc lat : Nat) : Nat := cyc + 4224 + ceilDiv (lat * f) 450000

/-- The transfer of `len` bytes to another Quadrant: 0.1 µs + L / 150 GB/s, in units of 1/450 ns (R280). -/
def transferLat (len : Nat) : Nat := 45000 + 3 * len

/-- The fill of a key of `size` bytes: 0.2 µs + S / 45 GB/s, in units of 1/450 ns (02, R57). -/
def fillLat (size : Nat) : Nat := 90000 + 10 * size

/-- What a job brings to placement. -/
structure Demand where
  fn    : Nat
  cls   : Nat
  quad  : Nat            -- its staging Quadrant; 4 for Helm staging, from which every Quadrant is one link away
  len   : Nat            -- bytes of input, AUX included
  lat   : Nat            -- latencies before its first step, in units of 1/450 ns
  post  : Nat            -- ns after its last step
  plan  : List StepPlan
  slot  : Option Nat     -- the keyed slot it uses
  route : Option Nat := none   -- the function that routes see, where it is not `fn` (03, R65; log 94)
deriving DecidableEq, Repr

/-- The function that the routes see. -/
def Demand.routeFn (D : Demand) : Nat := D.route.getD D.fn

/-- The candidate tiles of group `g` in the order of R283, each with whether the input crosses Quadrants. -/
def State.candidates (s : State) (D : Demand) (g : Nat) : List (Nat × Bool) :=
  let all := sortBy (fun n => s.load (.tile n)) (s.serving g)
  let near := all.filter fun n => n / 24 == D.quad
  let far := all.filter fun n => n / 24 != D.quad
  let held := match D.slot with
    | some k => all.filter fun n => (s.tile n).resident.contains k
    | none => []
  let don := (s.donorsOf g).flatMap fun d => sortBy (fun n => s.load (.tile n)) (s.serving d)
  (held ++ near ++ far ++ don).map fun n => (n, n / 24 != D.quad && decide (D.quad < 4))

/-- The lanes that a step may take on a tile. -/
def lanesFor (st : StepPlan) : List (Option Nat) :=
  match st.lane with
  | none => [none]
  | some true => (List.range 16).map some
  | some false => (List.range 8).map fun i => some (16 + i)

/-- A tile and lane for one committed run of `cyc` cycles, with its charge; a tile executes only the routines of its entry table
(04, R79). -/
def State.findTile (s : State) (D : Demand) (g : Nat) (st : StepPlan) (first : Bool) (cyc d : Nat) (but : Option Nat) :
    Option Run :=
  (((s.candidates D g).filter fun c => some c.1 != but).flatMap fun c => (lanesFor st).map fun l => (c, l)).findSome? fun x =>
    let n := x.1.1
    let c := runCharge (s.mhz n) (cyc + st.cond) ((if first then D.lat else 0) + (if x.1.2 then transferLat D.len else 0))
    let w := s.windowsOf n st.entry
    if (s.tile n).holds st.entry && s.tilePasses n st.pers x.2 c d w then some { server := .tile n, cycles := c, effAt := d, windows := w, lane := x.2 }
    else none

/-- A tile for a C7 run: of its group, or failing that of a donor in order while its fallback is active (03, R67), with room left
for committed work, the one with the fewest committed cycles (R289). -/
def State.findC7 (s : State) (D : Demand) (g : Nat) (st : StepPlan) (first : Bool) (cyc : Nat) (but : Option Nat) :
    Option Run :=
  let ok := fun (n : Nat) =>
    some n != but && (s.tile n).holds st.entry && s.placedOn n + 1 ≤ 16 && s.windowsOn n + s.windowsOf n st.entry ≤ 8
  ((g :: s.donorsOf g).findSome? fun k => leastBy (fun n => s.load (.tile n)) ((s.serving k).filter ok)).map fun n =>
    let used := (s.runsAt (.tile n)).filterMap (·.run.lane)
    let l := ((lanesFor st).find? fun l => match l with | some k => !used.contains k | none => true).getD
      ((lanesFor st).headD none)
    { server := .tile n, cycles := runCharge (s.mhz n) (cyc + st.cond) (if first then D.lat else 0), effAt := 0,
      windows := s.windowsOf n st.entry, lane := l }

/-- The runs of a step on tiles: two where a second run is compared and another tile passes, else both as one run. -/
def State.placeTileStep (s : State) (D : Demand) (g : Nat) (st : StepPlan) (first : Bool) (d : Nat) : Option (List Run) :=
  let find (cyc : Nat) (but : Option Nat) : Option Run :=
    if D.cls = 7 then s.findC7 D g st first cyc but else s.findTile D g st first cyc d but
  if st.dup then
    match find st.cyc none with
    | some a =>
      (match a.server with
       | .tile n =>
         (match find st.cyc (some n) with
          | some b => some [a, b]
          | none => (find (2 * st.cyc) none).map fun r => [r])
       | .core _ => none)
    | none => (find (2 * st.cyc) none).map fun r => [r]
  else (find st.cyc none).map fun r => [r]

/-- The run of a step on a firmware core. -/
def State.placeCoreStep (s : State) (D : Demand) (st : StepPlan) (first : Bool) (d : Nat) : Option (List Run) :=
  let cs := sortBy (fun c => s.load (.core c)) s.firmwareCores
  let ns := st.cyc + (if first then ceilDiv D.lat 450 else 0)
  (if D.cls = 7 then cs.head? else cs.find? fun c => s.corePasses c ns d).map fun c =>
    [{ server := .core c, cycles := ns, effAt := if D.cls = 7 then 0 else d, windows := 0 }]

/-- The time that a placed step takes from an earlier step's effective deadline: its charge and its blocking term, in
ns (R281). -/
def State.stepTime (s : State) (rs : List Run) : Nat :=
  ((rs.map fun r =>
    match r.server with
    | .tile n => ceilDiv ((r.cycles + 8320) * 1000) (s.mhz n)
    | .core c =>
      r.cycles + ((((s.runsAt (.core c)).filter fun x => s.committed x.job).map fun x => s.remaining x.run).max?).getD 0).max?).getD 0

/-- The device with the runs of a step counted as placed: parallel steps of one job do not share a server unseen. -/
def State.withRuns (s : State) (D : Demand) (k : Nat) (js : JobStep) : State :=
  { s with jobs := tput s.jobs (2 ^ 64 + k) { fn := D.fn, cls := D.cls, phase := .placed, acceptSeq := s.acceptSeq, steps := [js] } }

/-- A step that runs beside the one before it is one step with it where both are of one kind, personality and group. -/
def joinStep (par : Bool) (l : List JobStep) (js : JobStep) : List JobStep :=
  match l.getLast? with
  | some x =>
    if par ∧ x.kind = js.kind ∧ x.pers = js.pers ∧ x.group = js.group then
      l.dropLast ++ [{ x with runs := x.runs ++ js.runs, cmp := x.cmp || js.cmp }]
    else l ++ [js]
  | none => [js]

/-- Place the steps of a plan from the last to the first; `d` is the effective deadline of the last, `m` the longest time
of its parallel steps placed so far, and `u` the device with those in place (R281). -/
def State.placeSteps (s : State) (D : Demand) : List StepPlan → Nat → Nat → Nat → State → Option (List JobStep)
  | [], _, _, _, _ => some []
  | st :: earlier, d, k, m, u =>
    let g := if st.pers = 0 then 32 else (s.route D.routeFn D.cls st.pers).getD 33
    match (if st.pers = 0 then u.placeCoreStep D st (k == 0) d else u.placeTileStep D g st (k == 0) d) with
    | none => none
    | some rs =>
      let js : JobStep := { kind := st.kind, pers := st.pers, group := g, runs := rs, cmp := st.compared, entry := st.entry, mode := st.mode }
      let tm := max m (s.stepTime rs)
      match (if st.par then s.placeSteps D earlier d (k - 1) tm (u.withRuns D k js) else s.placeSteps D earlier (d - tm) (k - 1) 0 s) with
      | none => none
      | some l => some (joinStep st.par l js)

/-- Place a whole plan. -/
def State.placePlan (s : State) (D : Demand) (deadline : Nat) : Option (List JobStep) :=
  s.placeSteps D D.plan.reverse (deadline - D.post) (D.plan.length - 1) 0 s

/-! ### Shares (R287) -/

/-- A common multiple of every clock divided by 50 MHz. -/
def clockLcm : Nat := 5342931457063200

/-- W of R287 in group `g`, in units of 1 / (50 * clockLcm) µs. -/
def State.weightIn (s : State) (steps : List JobStep) (g : Nat) : Nat :=
  ((steps.filter fun st => st.group == g).flatMap fun st => st.runs.map fun r =>
    match r.server with
    | .tile n => r.cycles * (clockLcm / max (s.mhz n / 50) 1)
    | .core _ => r.cycles * clockLcm / 20).sum

/-- N of R287: unfenced tiles on which a job of group `g` may be placed, donors included, or firmware cores; never less
than 1. A tile that a RETILE has taken out of the capacity (03, R74) or that is parked is not among them. -/
def State.capacity (s : State) (g : Nat) : Nat :=
  max 1 (if g = 32 then s.firmwareCores.length
    else ((g :: s.donorsOf g).flatMap s.serving).length)

/-- The units that a placed plan needs in each of its groups, scaled by a SHARE_SCALE (21, R472). -/
def State.unitsOf (s : State) (fn : Nat) (steps : List JobStep) (deadlineUs : Nat) : List (Nat × Nat) :=
  ((steps.map (·.group)).eraseDups).map fun g =>
    (g, ceilDiv (1024 * s.weightIn steps g) (50 * clockLcm * s.capacity g * max deadlineUs 1) *
      (if (s.fn fn).pert && bitOf (s.fn fn).ctrl.toNat 4 then (s.fn fn).scale else 1))

/-- The share test in one group: the units borrowed, where it passes (R287). -/
def State.shareTest (s : State) (fn g units : Nat) : Option Nat :=
  let own := s.shareOf fn g
  let held := s.commitOf fn g
  let free := s.unassigned g - s.borrowedIn g
  let borrow := (held + units) - max own held
  if held + units ≤ own then some 0
  else if (s.fn fn).pert || (s.fn fn).noBorrow.contains g then none
  else if held + units ≤ own + free then some borrow else none

/-! ### Bandwidth channels (R286) -/

/-- The release channel passes for `bytes` more by deadline `d`. -/
def State.releasePasses (s : State) (bytes d : Nat) : Bool :=
  bytes == 0 || demandOk s.time.elapsed (max s.host.budget 1) 0 (byDeadline ((d, s.acceptSeq, bytes) ::
    ((s.jobs.filter fun e => e.2.live && e.2.cls != 7 && e.2.relBytes != 0).map fun e =>
      (e.2.deadline.getD 0 - e.2.postNs, e.2.acceptSeq, e.2.relBytes - e.2.released))))

/-- The overflow channel passes for `bytes` more by deadline `d`: 40 GB/s for each populated port. -/
def State.overflowPasses (s : State) (bytes d : Nat) : Bool :=
  bytes == 0 || demandOk s.time.elapsed (40000 * max 1 (b2n (s.host.pmem0 != 0) + b2n (s.host.pmem1 != 0))) 0
    (byDeadline ((d, s.acceptSeq, bytes) ::
      ((s.jobs.filter fun e => e.2.live && e.2.cls != 7 && e.2.overflow != 0).map fun e =>
        (e.2.deadline.getD 0 - e.2.postNs, e.2.acceptSeq, e.2.overflow))))

/-! ### The Reckoner's answer (R284-R288) -/

/-- A refusal with its reason, or a placement with units (held, of them borrowed) in each group. -/
inductive Verdict
  | refuse (reason : Nat)
  | place (steps : List JobStep) (units : List (Nat × Nat × Nat))
deriving DecidableEq, Repr

/-- The device with no other work placed: the idle group of R288, reason 5. -/
def State.idle (s : State) : State := { s with jobs := [] }

/-- Share tests of every group in turn. -/
def State.shareTests (s : State) (fn : Nat) : List (Nat × Nat) → Option (List (Nat × Nat × Nat))
  | [] => some []
  | (g, u) :: rest =>
    match s.shareTest fn g u, s.shareTests fn rest with
    | some b, some l => some ((g, u, b) :: l)
    | _, _ => none

/-- The decision of the Reckoner on a demand with deadline `us` µs, release bytes and overflow bytes (R288). The order
of its reasons is log 21. -/
def State.reckon (s : State) (D : Demand) (us rel ovf : Nat) : Verdict :=
  let tilePers := (D.plan.filter fun st => st.pers != 0).map (·.pers)
  let d := s.time.elapsed + us * 1000
  if tilePers.any fun p => (s.route D.routeFn D.cls p).isNone then .refuse 1
  else if tilePers.any fun p =>
      let g := (s.route D.routeFn D.cls p).getD 33
      ((s.groupTiles g).all fun n => !(s.tile n).serves && (s.tile n).mode != .parked) && (s.donorsOf g).all fun k => (s.serving k).isEmpty then .refuse 8
  else match s.placePlan D d with
  | none => .refuse (if D.cls != 7 && (s.idle.placePlan D d).isNone then 5 else 2)
  | some steps =>
    if D.cls = 7 then .place steps []
    else match s.shareTests D.fn (s.unitsOf D.fn steps us) with
    | none => .refuse 3
    | some units =>
      if s.releasePasses rel (d - D.post) && s.overflowPasses ovf (d - D.post) then .place steps units else .refuse 4

/-- Units recorded against the routed group even where a donor serves. -/
def State.deadlineUs (s : State) (cls : Nat) : Nat := ((s.chart.running.map (·.deadlines)).getD []).getD cls 0

/-- Refusals counted and shown (R297; 03, R66). -/
def State.refused (s : State) (reason : Nat) : State :=
  let t := (s.setReg 0x30000 reason).bumpBy 0x30020 64 1
  if reason = 1 then { t with chart := { t.chart with noRoute := satAdd 32 t.chart.noRoute 1 } } else t

/-! ### The key cache (07, R158, R159; 09, R211) -/

/-- Slots that a key occupies. -/
def slotsOf (size : Nat) : Nat := max 1 (ceilDiv size 1536)

/-- The runs of `len` slots of a partition that may be tried: from its start and from the end of each cached key. -/
def State.runStarts (s : State) (f len : Nat) : List Nat :=
  let (b, n) := s.partitionOf f
  ((b :: s.keys.cache.map fun e => e.2.first + e.2.len) ++
    s.keys.runHolds.map fun h => h.2.1 + h.2.2).filter fun a => b ≤ a && a + len ≤ b + n

/-- The cached keys that a run of slots meets. -/
def State.cachedIn (s : State) (a len : Nat) : List Nat :=
  tkeys s.keys.cache fun _ c => overlaps a len c.first c.len

/-- A run for a missing key: without a pinned key, outside a run held for another job, the least recently used first; a
job with a run of its own takes that one. -/
def State.freeRun (s : State) (j f len : Nat) : Option Nat :=
  let ok := (s.runStarts f len).filter fun a =>
    (s.cachedIn a len).all (fun k => !s.pinned k) && s.keys.runHolds.all fun h => h.1 == j || !overlaps a len h.2.1 h.2.2
  let ok := match s.keys.runHolds.find? fun h => h.1 == j with
    | some h => if h.2.2 = len then (if (s.cachedIn h.2.1 len).all (fun k => !s.pinned k) then [h.2.1] else []) else ok
    | none => ok
  leastBy (fun a => (((s.cachedIn a len).map fun k => ((tget s.keys.cache k).map fun c => c.used + 1).getD 0).max?).getD 0 * 65536 + a) ok

/-- The key at an index takes a run on behalf of job `j`; the keys it meets are evicted. -/
def State.cachePut (s : State) (j k a len : Nat) : State :=
  { s with keys := { s.keys with
      cache := tput (s.keys.cache.filter fun e => !(s.cachedIn a len).contains e.1) k { first := a, len := len, used := s.time.elapsed },
      runHolds := s.keys.runHolds.filter fun h => h.1 != j } }

end Sys2Proof.Machine
end

