-- ==== Sys2Proof/Machine/Rings.lean ====
section
/-! DEFINITION. The job rings: doorbells, REVISE, tail words, queue 0, consumption and the order of service, and MSI-X
(10_job_rings.md R222-R236, R242-R252, R515; 11, R253-R262; 21, R472-R473). -/

namespace Sys2Proof.Machine

/-! ### Doorbells (R229, R232, R234) -/

/-- A queue takes doorbells. -/
def Queue.on (Q : Queue) : Bool := Q.mode == .enabled

/-- A new tail is processed: lapping is malformed; a valid one is stored and releases a REVISE hold. -/
def State.newTail (s : State) (q : Nat) (v : BitVec 32) : State :=
  let Q := s.queue q
  if !Q.on then s
  else if lapping v Q.sqTail Q.sqHead false (2 ^ Q.sqLog2) then s.malformed q 6
  else s.modQueue q fun Q => { Q with sqTail := v, revise := none }

/-- A new completion head is processed. -/
def State.newHead (s : State) (q : Nat) (v : BitVec 32) : State :=
  let Q := s.queue q
  if !Q.on then s
  else if lapping v Q.cqHead Q.cqTail true (2 ^ Q.cqLog2) then s.malformed q 7
  else s.modQueue q fun Q => { Q with cqHead := v }

/-- A REVISE is processed: the cached copies of its range are discarded; the entries of its range below SQ_HEAD were consumed; consumption holds at the first of the
others, or at an earlier hold that no tail has released. -/
def State.newRevise (s : State) (q : Nat) (first : BitVec 32) (count : Nat) : State :=
  let Q := s.queue q
  if !Q.on then s
  else
    let n := min count (2 ^ Q.sqLog2)
    let past := if diff32 Q.sqHead first < 2 ^ 31 then min n (diff32 Q.sqHead first) else 0
    let at_ := first + BitVec.ofNat 32 past
    let hold := if past = n then Q.revise else
      match Q.revise with
      | none => some (at_, n - past)
      | some (h, k) => if diff32 h Q.sqHead ≤ diff32 at_ Q.sqHead then some (h, k) else some (at_, n - past)
    let t := s.modQueue q fun Q => { Q with
      revise := hold, tooLate := decide (0 < past), cache := Q.cache.filter fun c => n ≤ diff32 c.1 first }
    if Q.fn < 0x100 then t.bumpBy (fnErr Q.fn 7) 32 past else t

/-- A doorbell takes effect: kind 0 a tail, 1 a completion head, 2 a REVISE. -/
def State.doorbellNow (s : State) (q kind : Nat) (v : BitVec 32) (count : Nat) : State :=
  if kind = 0 then s.newTail q v else if kind = 1 then s.newHead q v else s.newRevise q v count

/-- DOORBELL_HOLD acts on the function's doorbells. -/
def Fn.holds (F : Fn) : Bool := F.pert && bitOf F.ctrl.toNat 3

/-- A doorbell write to the queue is held. -/
def Fn.heldFor (F : Fn) (q : Nat) : Bool := F.held.any fun H => H.queue == q

/-- A doorbell arrives: DOORBELL_HOLD keeps it, in order of arrival, and none overtakes a held one of its queue (R232; 21,
R472). -/
def State.doorbell (s : State) (q kind : Nat) (v : BitVec 32) (count : Nat) : State :=
  let f := (s.queue q).fn
  let F := s.fn f
  if (F.holds && (0 < F.holdUs || !F.held.isEmpty)) || F.heldFor q then
    s.modFn f fun F => { F with held := F.held ++
      [{ queue := q, kind := kind, value := v, count := count,
         due := s.time.elapsed + (if F.holds then 1000 * F.holdUs else 0) }] }
  else s.doorbellNow q kind v count

/-- A held doorbell that is due is processed; the entries that a held tail covers were held. -/
def State.heldDoorbell (s : State) (H : HeldDoorbell) : State :=
  let old := (s.queue H.queue).sqTail
  let t := s.doorbellNow H.queue H.kind H.value H.count
  if H.kind = 0 ∧ (t.queue H.queue).sqTail ≠ old then
    t.modQueue H.queue fun Q => { Q with actedTo := some (match Q.actedTo with | some (a, _) => a | none => old, Q.sqTail) }
  else t

/-- An access that the rules forbid is recorded on the host interface source of the function (00, R17). -/
def State.badAccess (s : State) (f : Nat) : State := s.event (if f = 0 then 161 else 162) 0x05 (if f = 0 then 0 else f)

/-- The queue that a function addresses by an index (R252): PF0 by the global ID, a VF by its local number. -/
def State.addressed (s : State) (f i : Nat) : Option Nat :=
  if f = 0 then (if (s.queue i).mode != .absent then some i else none)
  else (s.queues.find? fun e => e.2.fn == f && e.2.lnum == i && e.2.mode != .absent && e.2.isModule.isNone).map (·.1)

/-- A doorbell write through BAR0 of a function; PF0 writes only its own queues, and a poll queue takes no tail. -/
def State.barDoorbell (s : State) (f i kind : Nat) (v : BitVec 32) (count : Nat) : State :=
  if !s.barOn f then s
  else match s.addressed f i with
  | none => s
  | some q =>
    if (s.queue q).fn != f then s.badAccess f
    else if kind = 0 ∧ (s.queue q).poll then s
    else s.doorbell q kind v count

/-- DB_SQ_TAIL: what the host made visible first stands in memory (R232), then the tail is written. -/
def execDbSqTail (fn idx : Nat) (value : BitVec 32) (mem : HostWrites) (s : State) : Out :=
  within (okFn fn && decide (idx < 4096)) s
    ({ s with hostMem := writeRuns s.hostMem mem }.barDoorbell fn idx 0 value 0)

/-- DB_CQ_HEAD: slots of the completion ring are returned (R229, R248). -/
def execDbCqHead (fn idx : Nat) (value : BitVec 32) (s : State) : Out :=
  within (okFn fn && decide (idx < 4096)) s (s.barDoorbell fn idx 1 value 0)

/-- DB_REVISE (R234). -/
def execDbRevise (fn idx : Nat) (first : BitVec 32) (countM1 : Nat) (s : State) : Out :=
  within (okFn fn && decide (idx < 4096) && decide (countM1 < 65536)) s (s.barDoorbell fn idx 2 first (countM1 + 1))

/-- TAIL_WORD_CHANGE: the tail word of a CACHE_POLL queue changes and is handled as a tail write (R235). -/
def execTailWordChange (q : Nat) (value : BitVec 32) (mem : HostWrites) (s : State) : Out :=
  let Q := s.queue q
  let t := { s with hostMem := writeRuns s.hostMem mem }
  within (okQueue q) s
    (if Q.poll && Q.mode != .absent then (t.hostWrite Q.tailWord (le 4 value.toNat)).doorbell q 0 value 0 else t)

/-! ### Queue 0 (11, R254) -/

/-- Where the three ADMQ registers of a function are kept: 0 the submission base, 1 the completion base, 2 CFG. -/
def admqKey (f k : Nat) : Nat := 0x11000000 + 4 * f + k

/-- A write of ADMQ.CFG. Once queue 0 is enabled, writes are discarded. -/
def State.admqCfg (s : State) (fn : Nat) (value : BitVec 32) : State :=
  let v := value.toNat
  let old := s.reg (admqKey fn 2)
  let sq := bitsOf v 4 0
  let cq := bitsOf v 9 5
  let a := s.reg (admqKey fn 0)
  let b := s.reg (admqKey fn 1)
  let good := 4 ≤ sq && sq ≤ 16 && 4 ≤ cq && cq ≤ 16 && a % 4096 == 0 && b % 4096 == 0
  let fields := v % 1024
  if !s.barOn fn || (s.queue fn).mode != .absent then s
  else if !bitOf v 16 then s.setReg (admqKey fn 2) (fields + b2n (bitOf old 17) * 2 ^ 17)
  else if good then
    (s.setReg (admqKey fn 2) fields).modQueue fn fun _ => {
      mode := .enabled, fn := fn, lnum := 0, sqBase := a, cqBase := b, sqLog2 := sq, cqLog2 := cq, vector := 0,
      modCount := 1, modTime := 0 }
  else s.setReg (admqKey fn 2) (fields + 2 ^ 17)

/-- ADMQ_ENABLE. -/
def execAdmqEnable (fn : Nat) (value : BitVec 32) (s : State) : Out := within (okFn fn) s (s.admqCfg fn value)

/-! ### MSI-X (R251) -/

/-- MSIX_MOD_TIMER: MOD_TIME after the first pending completion, the message is sent. -/
def execMsixModTimer (q t : Nat) (s : State) : Out :=
  let u := s.at_ t
  within (okQueue q) s
    (if 0 < (u.queue q).pendN && (u.queue q).pendAt ≤ u.time.elapsed then u.notifyNow q else u)

/-- A vector is unmasked, and its pending message is sent. -/
def State.unmask (s : State) (fn vec : Nat) : State :=
  let t := s.modFn fn fun F => { F with mask := F.mask.filter (· != vec), pba := F.pba.filter (· != vec) }
  if (s.fn fn).pba.contains vec then t.msix fn vec else t

/-- MSIX_UNMASK. -/
def execMsixUnmask (fn vec : Nat) (s : State) : Out :=
  within (okFn fn && decide (vec < if fn = 0 then 2048 else 64)) s (s.unmask fn vec)

/-! ### Consumption (R230, R233, R236, R242) -/

/-- Completion slots of queue `q` that are neither occupied nor reserved (R230). -/
def Queue.freeSlots (Q : Queue) : Nat := 2 ^ Q.cqLog2 - diff32 Q.cqTail Q.cqHead - Q.reserved

/-- The queue has an entry to consume that no REVISE holds. -/
def Queue.hasEntry (Q : Queue) : Bool :=
  Q.on && Q.sqHead != Q.sqTail &&
  (match Q.revise with
   | some (h, _) => Q.sqHead != h
   | none => true)

/-- A job of the queue waits for earlier ones under FENCE_BEFORE (R223). -/
def State.fenceHolds (s : State) (q : Nat) : Bool :=
  s.jobs.any fun e => e.2.onQueue q && fFence e.2.flags.toNat && e.2.accepted.isNone && e.2.phase != .ended &&
    s.jobs.any fun d => d.2.onQueue q && d.2.seq < e.2.seq

/-- FETCH_THROTTLE holds a function: it has had its jobs of this millisecond (21, R472). -/
def State.throttles (s : State) (f : Nat) : Bool :=
  let F := s.fn f
  F.pert && bitOf F.ctrl.toNat 2 && decide (s.time.elapsed < F.msStart + 1000000) && decide (F.jobsPerMs ≤ F.msCount)

/-- The device takes entries from the queue: in the safe state only PF0's queue 0, and nothing after a halt (11, R272);
nothing of a function under FLR (R269). -/
def State.stateTakes (s : State) (q : Nat) : Bool :=
  !s.faults.safe.halt && (!s.faults.safe.on || q == 0) && !((s.fn (s.queue q).fn).flr && q != 0) && s.lc.state != .scrapped

/-- The reserved bits of an entry (R242 item 1): `cont` for a continuation entry. -/
def reservedBad (e : Entry) (cont : Bool) : Bool :=
  if cont then
    e.flags &&& 0xFFFD != 0 || e.opcode != 0 || e.tag != 0 || e.handle != 0 || e.partner != 0 || e.cls != 0 || e.dst != 0 ||
    e.fragCount != 0 || e.aux != 0 || e.param != 0 || e.reserved != 0
  else
    0x200 ≤ e.flags || fAl e.flags == 3 || 8 ≤ e.cls || e.reserved != 0

/-- The chain structure of an entry is broken (R242 item 5). -/
def chainBad (s : State) (Q : Queue) (e : Entry) : Bool :=
  let first := fFirst e.flags
  let last := fLast e.flags
  if !Q.chained then !(first && last)
  else
    (!first && Q.chain.isNone) || (first && Q.chain.isSome) || (first && fIndirect e.flags) ||
    (first && !last && (e.src != 0 || e.fragCount != 0)) ||
    (!first && (match Q.chain.bind s.job? with | some J => decide (65536 ≤ J.entries) | none => false))

/-- The reason for which an entry is malformed, in the order of R244; none when it is well formed. While an abandoned
chain is skipped, its entries are subject to items 1, 2 and 4 alone (R515). -/
def badReason (s : State) (Q : Queue) (raw : Bytes) : Option Nat :=
  let e := parseEntry raw
  let first := fFirst e.flags
  let skipping := Q.skip && !first
  if (crc16 (raw.take 62)).toNat != e.check then some 2
  else if reservedBad e (Q.chained && !first) then some 1
  else if first && !definedOp e.opcode then some 3
  else if 4096 < e.fragCount then some 4
  else if !skipping && chainBad s Q e then some 5 else none

/-- The address of the entry of an index (R228). -/
def Queue.entryAddr (Q : Queue) (i : BitVec 32) : Nat := Q.sqBase + 64 * (i.toNat % 2 ^ Q.sqLog2)

/-- The address of the entry at the head of queue `q` (R228). -/
def State.entryAt (s : State) (q : Nat) : Nat := (s.queue q).entryAddr (s.queue q).sqHead

/-- The entry at the head of queue `q`: its cached copy, else what its slot holds. -/
def State.headPeek (s : State) (q : Nat) : Bytes :=
  ((((s.queue q).cache.find? fun c => c.1 == (s.queue q).sqHead).map (·.2)).getD (s.rd (s.queue q).isModule (s.entryAt q) 64))

/-- RECEIVEs of a function that are pooled or on their way to its pool. -/
def State.receivesHeld (s : State) (f : Nat) : Nat :=
  tcount s.jobs fun _ J => J.fn == f && J.opcode == 0xA500 && J.accepted.isNone && J.phase != .ended && J.phase != .delayed

/-- The function's pool is full, and the entry at the head of queue `q` is one more RECEIVE: it is not consumed (14, R343; 21, R469). -/
def State.poolHolds (s : State) (q : Nat) : Bool :=
  let e := parseEntry (s.headPeek q)
  decide (4096 ≤ s.receivesHeld (s.queue q).fn) && fFirst e.flags && e.opcode == 0xA500 &&
    (badReason s (s.queue q) (s.headPeek q)).isNone

/-- A queue may be served now: none while every entry of the in-flight table is held (01, R23). -/
def State.eligible (s : State) (q : Nat) : Bool :=
  let Q := s.queue q
  let F := s.fn Q.fn
  Q.hasEntry && s.stateTakes q && s.jobs.length < 16384 &&
  (Q.chain.isSome ||
    (1 ≤ Q.freeSlots && !s.fenceHolds q && !s.throttles Q.fn && !s.poolHolds q &&
      !(F.pert && 1024 ≤ (s.jobsOfFn Q.fn).length)))

/-- The next of a rising list after `k`, round robin. -/
def nextAfter (k : Nat) (l : List Nat) : Option Nat :=
  match l.find? (k < ·) with
  | some n => some n
  | none => l.head?

/-- The queue that is served at this turn (11, R262). A chain in progress is consumed on. -/
def State.pickQueue (s : State) : Option Nat :=
  let el := tkeys s.queues fun q _ => s.eligible q
  match el.find? fun q => (s.queue q).chain.isSome with
  | some q => some q
  | none =>
    match nextAfter s.lastServed (el.filter fun q => q < 256 || (s.queue q).safety) with
    | some q => some q
    | none =>
      let fns := sortBy id ((el.map fun q => (s.queue q).fn).eraseDups)
      let f := if fns.contains s.lastFn && 0 < (s.fn s.lastFn).deficit then some s.lastFn else nextAfter s.lastFn fns
      f.bind fun f =>
        let qs := el.filter fun q => (s.queue q).fn == f
        let p := ((qs.map fun q => (s.queue q).prio).min?).getD 0
        nextAfter (s.fn f).lastQ (qs.filter fun q => (s.queue q).prio == p)

/-- The turn is recorded: the round robin of queues 0 and SAFETY queues, or the credit of a function (R262). -/
def State.turn (s : State) (q : Nat) : State :=
  let f := (s.queue q).fn
  if q < 256 ∨ (s.queue q).safety then { s with lastServed := q }
  else
    let same := s.lastFn == f && decide (0 < (s.fn f).deficit)
    { s.modFn f fun F => { F with deficit := (if same then F.deficit else F.weight) - 1, lastQ := q } with lastFn := f }

/-- A consumption of a throttled function is counted in its millisecond (21, R472). -/
def State.countFetch (s : State) (f : Nat) : State :=
  s.modFn f fun F =>
    if s.time.elapsed < F.msStart + 1000000 then { F with msCount := F.msCount + 1, throttled := false }
    else { F with msStart := s.time.elapsed / 1000000 * 1000000, msCount := 1, throttled := false }

/-- The job that a FIRST entry opens (R222, R224). -/
def jobOf (Q : Queue) (q : Nat) (e : Entry) (seq : Nat) (acted : Bool) : Job :=
  { src := .ring q, fn := Q.fn, opcode := e.opcode, flags := BitVec.ofNat 16 e.flags, tag := BitVec.ofNat 32 e.tag,
    handle := e.handle, partner := e.partner, cls := e.cls, srcAddr := e.src, dst := e.dst, totalLen := e.totalLen,
    fragCount := e.fragCount, aux := e.aux, param := BitVec.ofNat 64 e.param, seq := seq,
    al2 := wantsAl2 e.opcode e.flags e.cls, acted := acted,
    phase := if fLast e.flags then .fetch else .openChain }

/-- The unit that an opcode needs is missing (00, R5; 02, R513). A KNOWN_ANSWER that names an undefined opcode needs no unit:
it is MALFORMED, whatever its family digit. -/
def State.unitAbsent (s : State) (op p : Nat) : Bool :=
  s.variant == .pz8810 &&
  (famOf op == 4 || famOf op == 10 || (op == 0xF000 && bitsOf p 2 0 == 3) ||
    (op == 0xF001 && famOf (p % 65536) == 4 && definedOp (p % 65536)))

/-- The checks of the queue and the function, and UNIT_ABSENT (00, R5; 02, R45, R46; 11, R253, R256; 13, R298): the
status and RESULT where one fails. -/
def State.functionCheck (s : State) (J : Job) (q : Nat) : Option (Nat × Nat) :=
  let op := J.opcode
  let fam := famOf op
  if fam = 0 ∧ 256 ≤ q then some (St.policyDeny, 0x0104)
  else if fam ≠ 0 ∧ q < 256 then some (St.policyDeny, 0x0104)
  else if fam = 0 ∧ J.fn ≠ 0 ∧ ¬ [0x0001, 0x0002, 0x0006, 0x0012, 0x0021].contains op then some (St.policyDeny, 0x0100)
  else if fam = 15 ∧ J.fn ≠ 0 then some (St.policyDeny, 0x0100)
  else if op = 0xF002 ∧ ¬ (s.lc.state = .raw ∨ s.lc.state = .test ∨ s.lc.state = .returned ∨ bitOf s.lc.grant.toNat 6) then
    some (St.policyDeny, 0x0109)
  else if fam = 9 ∧ J.fn ≠ 0 then some (St.policyDeny, if op = 0x9000 ∨ op = 0x9300 then 0xFFFF0202 else 0x0202)
  else if s.unitAbsent op J.param.toNat then some (St.unitAbsent, 0)
  else none

/-- The personality of a plan's first tile step, if it has one. -/
def tilePers (l : List StepPlan) : Option Nat := (l.find? fun x => x.pers != 0).map (·.pers)

/-- The personality of a job's first tile step, if it has one (01, R24); a GENERATE's is that of the algorithm in its
template, which is read where AUX points. -/
def State.firstPers (s : State) (J : Job) : Option Nat :=
  let p := J.param.toNat
  match famOf J.opcode with
  | 0 => none
  | 8 =>
    (match J.opcode with
     | 0x8000 =>
       let T := parseTemplate (s.rd (s.memOf J) J.aux 64)
       if templateKind T = .secret ∨ ¬ definedOp T.alg then none else tilePers (planOf T.alg p 0 J.al2 {})
     | 0x8100 => if p % 16 = 1 then some 5 else if p % 16 = 2 then some 1 else none
     | 0x8200 => if bitsOf p 35 32 = 1 then some 5 else if bitsOf p 35 32 = 2 then some 1 else none
     | 0x8500 => some 1
     | _ => none)
  | 9 => none
  | 10 => if J.opcode = 0xA400 then some 5 else none
  | 15 => if J.opcode = 0xF000 then some (bitsOf p 2 0) else tilePers (planOf (p % 65536) 0 0 J.al2 {})
  | _ => tilePers (planOf J.opcode p J.totalLen J.al2 {})

/-- The staging of a job: the Quadrant of R24, or Helm staging (none) for a job without a tile step, for FN-DSA signing and
for the jobs of owner modules (01, R22, R24). -/
def State.stagingOf (s : State) (J : Job) : Option Nat :=
  if J.opcode / 0x100 = 0x25 ∨ (s.memOf J).isSome then none
  else (s.firstPers J).map fun p => s.stageQuad (s.route J.fn J.cls p)

/-- A job whose last entry has been consumed: the first checks, then its staging Quadrant is chosen (R238; 01, R24). -/
def State.consumed (s : State) (j : Nat) : State :=
  match s.job? j with
  | none => s
  | some J =>
    match J.src with
    | .internal => s
    | .ring q =>
      match s.functionCheck J q with
      | some (st, r) => s.endJob j st r
      | none =>
        s.modJob j fun J => { J with phase := .fetch, quadrant := s.stagingOf J }

/-- The bytes that a job's pieces sum to: up to the first piece that passes TOTAL_LEN (R239). -/
def sumReached (total : Nat) : Nat → List (Nat × Nat) → Nat
  | acc, [] => acc
  | acc, (_, n) :: rest => if total < acc + n then acc + n else sumReached total (acc + n) rest

/-- A chain that was fetched before its LAST goes on: a length mismatch found now ends its job (12, R293; R239). -/
def State.earlyChain (s : State) (j : Nat) (last : Bool) : State :=
  match s.job? j with
  | none => s
  | some J =>
    let sum := sumReached J.totalLen 0 J.pieces
    if J.totalLen < sum ∨ (last ∧ sum < J.totalLen) then s.endJob j St.lenMismatch sum else s

/-- The indices that the device reads ahead: at most 8 from SQ_HEAD, none past the stored tail and none from a REVISE hold on; those
that its cache does not hold (R233, R234). -/
def Queue.ahead (Q : Queue) : List (BitVec 32) :=
  let n := min 8 (diff32 Q.sqTail Q.sqHead)
  let n := match Q.revise with | some (h, _) => min n (diff32 h Q.sqHead) | none => n
  ((List.range n).map fun k => Q.sqHead + BitVec.ofNat 32 k).filter fun i => !(Q.cache.any fun c => c.1 == i)

/-- Entries that can be read enter the prefetch cache of queue `q`; DESIGN CHOICE (log 96): when the queue has its turn. -/
def State.prefetch (s : State) (q : Nat) : State :=
  let Q := s.queue q
  let got := (Q.ahead.filter fun i => (s.rdFault Q.isModule (Q.entryAddr i) 64).isNone).map fun i =>
    (i, s.rd Q.isModule (Q.entryAddr i) 64)
  if got.isEmpty then s else s.modQueue q fun Q => { Q with cache := Q.cache ++ got }

/-- The entry at the head of queue `q`, from its prefetch cache; none where it could not be read. -/
def State.headEntry (s : State) (q : Nat) : Option Bytes :=
  ((s.queue q).cache.find? fun c => c.1 == (s.queue q).sqHead).map (·.2)

/-- One entry of queue `q` is consumed (R233, R242, R515). -/
def State.consumeAt (s : State) (q : Nat) : State :=
  let s := s.prefetch q
  let Q := s.queue q
  match s.headEntry q with
  | none => s.malformed q 9
  | some raw =>
    match badReason s Q raw with
    | some r => s.malformed q r
    | none =>
      let e := parseEntry raw
      let acted := (match Q.actedTo with
        | some (lo, hi) => decide (diff32 Q.sqHead lo < diff32 hi lo)
        | none => false) || (s.fn Q.fn).throttled
      let t := s.modQueue q fun Q => { Q with sqHead := Q.sqHead + 1, started := true, cache := Q.cache.filter fun c => c.1 != Q.sqHead }
      if Q.skip && !fFirst e.flags then t.modQueue q fun Q => { Q with skip := !fLast e.flags }
      else if fFirst e.flags then
        let j := t.nextSeq
        let t := { t with jobs := tput t.jobs j (jobOf Q q e j acted), nextSeq := j + 1 }
        let t := (t.modQueue q fun Q => { Q with
          reserved := Q.reserved + 1, skip := false, chain := if fLast e.flags then none else some j }).countFetch Q.fn
        if fLast e.flags then t.consumed j else t
      else match Q.chain with
      | none => t
      | some j =>
        let t := t.modJob j fun J => { J with pieces := J.pieces ++ [(e.src, e.totalLen)], entries := J.entries + 1 }
        let t := if fLast e.flags then t.modQueue q fun Q => { Q with chain := none } else t
        if ((s.job? j).map (·.early)).getD false then t.earlyChain j (fLast e.flags)
        else if fLast e.flags then t.consumed j else t

/-- CQ_WAIT of every queue, and the throttles that hold a queue. -/
def State.markWaits (s : State) : State :=
  let held := ((s.queues.filter fun e => e.2.hasEntry && s.throttles e.2.fn).map fun e => e.2.fn).eraseDups
  eachOf held (fun u f => u.modFn f fun F => { F with throttled := true })
    { s with queues := s.queues.map fun e => (e.1, { e.2 with
      cqWait := e.2.hasEntry && e.2.chain.isNone && e.2.freeSlots == 0 }) }

/-- CONSUME_ENTRY: the next entry of the queue whose turn it is is consumed; nothing while no queue is eligible. -/
def execConsumeEntry (t : Nat) (s : State) : Out :=
  let u := (s.at_ t).markWaits
  done s (match u.pickQueue with
    | none => u
    | some q => ((u.turn q).askLead ((u.queue q).ahead.map fun i => ((u.queue q).entryAddr i, 64))).consumeAt q)

end Sys2Proof.Machine
end

