-- ==== Sys2Proof/Machine/Fetch.lean ====
section
/-! DEFINITION. The fetch stage: fragment tables, the length check, the gather of input and AUX into staging, and the
checks that need content (10_job_rings.md R226-R227, R238-R240; 01, R21-R24; 12, R292-R293; 07, R155; 09, R220). -/

namespace Sys2Proof.Machine

/-! ### The AUX range -/

/-- Total length of a DER element from its first bytes. -/
def derTotal (h : Bytes) : Nat :=
  let b := leAt h 1 1
  if h.length < 2 then 2 else if b < 0x80 then 2 + b else if b = 0x81 then 3 + leAt h 2 1
  else if b = 0x82 then 4 + fromBE (sliceOf h 2 2) else 2 ^ 24

/-- The levels of an HSS signature found by walking it: the types, and the offset of its end. -/
def hssWalk (get : Nat → Nat → Bytes) : Nat → Nat → List (Nat × Nat) × Nat
  | 0, off => ([], off)
  | n + 1, off =>
    let ots := fromBE (get (off + 4) 4)
    if ots = 0 ∨ 0x10 < ots then ([], off + 8)
    else
      let at_ := off + 8 + groupN (otsGroup ots) * (1 + otsP ots)
      let lms := fromBE (get at_ 4)
      if lms < 5 ∨ 0x18 < lms then ([], at_ + 4)
      else
        let end_ := at_ + 4 + lmsH lms * groupN (lmsGroup lms)
        let (l, e) := hssWalk get n (if n = 0 then end_ else
          end_ + lmsPubLen (let k := fromBE (get end_ 4); if 5 ≤ k ∧ k ≤ 0x18 then k else 5))
        ((lms, ots) :: l, e)

/-- Length of the seed that a keygen opcode reads from AUX (05, R105; 06, R125; 07, R155). -/
def seedLen (alg : Nat) : Nat :=
  if alg / 0x100 = 0x10 then 64 else if alg / 0x100 = 0x20 then 32
  else if alg / 0x100 = 0x30 then 3 * (pkLen alg / 2) else if alg / 0x100 = 0x44 then 32 else 0

/-- Length of the part of AUX that begins at `off`. -/
def partLen (get : Nat → Nat → Bytes) (off : Nat) : AuxPart → Nat
  | .fixed n => n
  | .derSig m => min (derTotal (get off 4)) m
  | .derKey m => min (derTotal (get off 4)) m
  | .point n => if leAt (get off 1) 0 1 = 2 ∨ leAt (get off 1) 0 1 = 3 then (n + 1) / 2 else n
  | .hssKey =>
    let k := fromBE (get (off + 4) 4)
    28 + groupN (if 5 ≤ k ∧ k ≤ 0x18 then lmsGroup k else 0)
  | .hssSig l => (hssWalk get l (off + 4)).2 - off
  | .seed => seedLen (leAt (get 0 2) 0 2)

/-- A DER string that runs past the length R152 allows: the status it gives (07, R155). -/
def derBad (get : Nat → Nat → Bytes) (off : Nat) : AuxPart → Option Nat
  | .derSig m => if m < derTotal (get off 4) then some St.verifyFail else none
  | .derKey m => if m < derTotal (get off 4) then some St.keyInvalid else none
  | _ => none

/-- The offsets and lengths of the parts. -/
def auxLayout (get : Nat → Nat → Bytes) : Nat → List AuxPart → List (Nat × Nat)
  | _, [] => []
  | off, p :: ps => (off, partLen get off p) :: auxLayout get (off + partLen get off p) ps

/-- The length of the whole range. -/
def auxTotal (l : List (Nat × Nat)) : Nat := (l.map (·.2)).sum

/-- The first DER status of the parts. -/
def auxDer (get : Nat → Nat → Bytes) (parts : List AuxPart) (l : List (Nat × Nat)) : Option Nat :=
  (List.zip parts l).findSome? fun x => derBad get x.2.1 x.1

/-- The parts of an AUX range that stands in staging. -/
def splitAux (aux : Bytes) (parts : List AuxPart) : List Bytes :=
  (auxLayout (sliceOf aux) 0 parts).map fun x => sliceOf aux x.1 x.2

/-- The parts of a job's AUX. -/
def Job.auxParts (J : Job) : List AuxPart :=
  (fieldsOf J.opcode J.param.toNat J.totalLen (fLogbook J.flags.toNat)).aux

/-- Part `i` of a job's AUX. -/
def Job.auxPart (J : Job) (i : Nat) : Bytes := (splitAux J.auxIn J.auxParts).getD i []

/-! ### Input -/

/-- Read pieces in order; where one fails, its index and the kind of the failure. -/
def State.readPieces (s : State) (m : Option Nat) : Nat → List (Nat × Nat) → Except (Nat × Nat) Bytes
  | _, [] => .ok []
  | i, (a, n) :: rest =>
    if n = 0 then s.readPieces m (i + 1) rest
    else match s.rdFault m a n with
    | some k => .error (i, k)
    | none =>
      match s.readPieces m (i + 1) rest with
      | .error e => .error e
      | .ok b => .ok (s.rd m a n ++ b)

/-- The pieces that cover bytes `skip` to `skip + take` of the whole input; an empty piece keeps the index. -/
def cutPieces : Nat → Nat → List (Nat × Nat) → List (Nat × Nat)
  | _, _, [] => []
  | skip, take, (a, n) :: rest =>
    let k := min skip n
    let t := min take (n - k)
    (a + k, t) :: cutPieces (skip - k) (take - t) rest

/-- The pieces of a job: its direct range, its fragments, or its chain's entries. -/
def Job.srcPieces (J : Job) : List (Nat × Nat) :=
  if J.entries = 1 ∧ ¬ fIndirect J.flags.toNat then [(J.srcAddr, J.totalLen)] else J.pieces

/-- The position of the first piece: its fragment index, or its entry's place in the chain with FIRST as 0 (10, R240). -/
def Job.firstPos (J : Job) : Nat := if 1 < J.entries then 1 else 0

/-! ### Staging (01, R21, R22, R24; 12, R292) -/

/-- Staging bytes of a Quadrant free for jobs: 16 MiB, less 2 MiB for each SYMM tile, less what jobs hold. -/
def State.stagingFree (s : State) (q : Option Nat) : Nat :=
  match q with
  | some q =>
    16 * 2 ^ 20 - 2 * 2 ^ 20 * ((List.range 24).filter fun i =>
      match (s.tile (24 * q + i)).asg with | some a => a.pers == 5 | none => false).length -
      ((s.jobs.filter fun e => e.2.quadrant == some q).map fun e => e.2.staged).sum
  | none => 4 * 2 ^ 20 - ((s.jobs.filter fun e => e.2.quadrant.isNone).map fun e => e.2.staged).sum

/-- Bytes of the overflow region in use. -/
def State.overflowUsed (s : State) : Nat := (s.jobs.map fun e => e.2.overflow).sum

/-- JOB_MAX_MIB in bytes (12, R297); the register's reset value is 256. -/
def State.jobMax (s : State) : Nat := (if s.reg 0x30038 % 4096 = 0 then 256 else s.reg 0x30038 % 4096) * 2 ^ 20

/-- Bytes that a job's staging takes, and bytes of the overflow region. -/
def State.stageNeed (s : State) (len : Nat) : Nat × Nat :=
  if len ≤ 2097152 then (len, 0) else (2 * 2 ^ 20, min len s.jobMax)

/-! ### Checks on content (R238, step 4) -/

/-- The template of GENERATE (09, R204, R206, R214, R512). -/
def generateOk (J : Job) : Bool :=
  let T := parseTemplate J.auxIn
  let p := J.param.toNat
  templateOk T J.fn && T.kind != 3 && !stateful T.alg && T.alg != 0x8101 &&
  (if templateKind T = .secret then secretFits T.alg T.len && p == 0 && J.dst == 0
   else T.len == 0 && definedOp T.alg && (fieldsOf T.alg p 0 false).ok)

/-- The template of IMPORT in FORMAT 3 (09, R215). -/
def importOk (J : Job) : Bool :=
  let T := parseTemplate J.auxIn
  templateOk T J.fn && T.kind == 3 && T.len == J.totalLen && publicFits T.alg T.len &&
  (T.alg / 0x100 != 0x59 || derTotal J.input == J.totalLen)

/-- A template check that fails (09, R220). -/
def templateBad (J : Job) : Bool :=
  (J.opcode == 0x8000 && !generateOk J) || (J.opcode == 0x8100 && J.param.toNat % 16 == 3 && !importOk J)

/-! ### Administrative entries (11, R255) -/

/-- The request length that an administrative command takes; none where its own rule checks it. -/
def adminLen (op p : Nat) : Option Nat :=
  match op with
  | 0x0001 => some 48
  | 0x0004 => none
  | 0x0010 => none
  | 0x0011 => none
  | 0x0020 => if p = 1 then some 0 else none
  | _ => some 0

/-- The command writes a response block. -/
def adminDst (op p : Nat) : Bool := op == 0x0006 || op == 0x0012 || op == 0x0021 || (op == 0x0020 && p == 1)

/-- R255: class 7, no INDIRECT, unused fields zero, and the request length. -/
def adminOk (J : Job) : Bool :=
  let p := J.param.toNat
  J.cls == 7 && J.handle == 0 && J.partner == 0 && J.aux == 0 && J.fragCount == 0 && !fIndirect J.flags.toNat &&
  !fProvisional J.flags.toNat && !fLogbook J.flags.toNat && (adminDst J.opcode p || J.dst == 0) &&
  (match adminLen J.opcode p with
   | some n => J.totalLen == n && (n != 0 || J.srcAddr == 0)
   | none => true)

/-! ### The stage -/

/-- A read of the fetch stage failed (R240). -/
def State.fragFault (s : State) (j index kind : Nat) : State := s.endJob j St.fragFault index [BitVec.ofNat 8 kind]

/-- Bytes of AUX data that a job's entry calls for. -/
def State.auxBytes (s : State) (J : Job) : Nat :=
  auxTotal (auxLayout (fun off n => s.rd (s.memOf J) (J.aux + off) n) 0 (if J.admin then [] else J.auxParts))

/-- A job waits for room in the overflow region (12, R292; RECK.STATUS.OVERFLOW_WAIT). -/
def State.overflowWait (s : State) : Bool :=
  s.jobs.any fun e => e.2.phase == .fetch &&
    decide (s.overflowMib * 2 ^ 20 < s.overflowUsed + (s.stageNeed (e.2.totalLen + s.auxBytes e.2)).2)

/-- The gather of input and AUX into staging, and the checks on their content. -/
def State.gather (s : State) (j : Nat) (J : Job) (early : Bool) : State :=
  let m := s.memOf J
  let get := fun off n => s.rd m (J.aux + off) n
  let parts := if J.admin then [] else J.auxParts
  let lay := auxLayout get 0 parts
  let alen := auxTotal lay
  let windowed := decide (s.jobMax < J.totalLen) && !J.admin
  let first := if windowed then s.jobMax else J.totalLen
  let (st, ov) := s.stageNeed (J.totalLen + alen)
  if !J.admin && decide (s.stagingFree J.quadrant < st) then s
  else if s.overflowMib * 2 ^ 20 < s.overflowUsed + ov then s
  else match s.readPieces m J.firstPos (cutPieces 0 first J.srcPieces) with
  | .error (i, k) => s.fragFault j i k
  | .ok input =>
    match (if alen = 0 then none else s.rdFault m J.aux alen) with
    | some k => s.fragFault j 0xFFFFFFFFFFFFFFFE k
    | none =>
      let aux := if alen = 0 then [] else s.rd m J.aux alen
      let J' := { J with
        input := input, auxIn := aux, staged := st, overflow := ov, windowed := windowed, arrived := first, early := early,
        phase := .staged }
      let s := if ov = 0 then s else s.bulkObject 5 j (input ++ aux)
      match auxDer get parts lay with
      | some status => s.endJob j status 0
      | none => if templateBad J' then s.endJob j St.malformed 0 else s.modJob j fun _ => J'

/-- The fetch stage of a job, its fields checked: the fragment table, the length check and the gather (R239, R240). -/
def State.fetchInput (s : State) (j : Nat) (J : Job) : State :=
  let m := s.memOf J
  if fIndirect J.flags.toNat then
    if J.srcAddr % 16 ≠ 0 then s.endJob j St.malformed (2 ^ 64 - 1)
    else match s.rdFault m J.srcAddr (16 * J.fragCount) with
    | some k => s.fragFault j (2 ^ 64 - 1) k
    | none =>
      let fr := parseFrags (s.rd m J.srcAddr (16 * J.fragCount)) J.fragCount
      match fr.findIdx? fun f => 2 ≤ f.flags with
      | some i => s.endJob j St.malformed i
      | none =>
        let sum := (fr.map (·.len)).sum
        if sum ≠ J.totalLen then s.endJob j St.lenMismatch (sum % 2 ^ 48)
        else s.gather j { J with pieces := fr.map fun f => (f.addr, f.len) } false
  else if 1 < J.entries then
    let sum := sumReached J.totalLen 0 J.pieces
    if sum ≠ J.totalLen then s.endJob j St.lenMismatch sum else s.gather j J false
  else s.gather j J false

/-- A windowed chain may be fetched once the entries of its first JOB_MAX_MIB have been consumed (12, R293). -/
def State.earlyReady (s : State) (J : Job) : Bool :=
  J.phase == .openChain && decide (s.jobMax < J.totalLen) && decide (s.jobMax ≤ (J.pieces.map (·.2)).sum)

/-- The host ranges that the fetch stage of a job reads. -/
def State.fetchRanges (s : State) (J : Job) : List (Nat × Nat) :=
  (if fIndirect J.flags.toNat then
    (J.srcAddr, 16 * J.fragCount) ::
      (parseFrags (s.rd (s.memOf J) J.srcAddr (16 * J.fragCount)) J.fragCount).map fun f => (f.addr, f.len)
   else J.srcPieces) ++ [(J.aux, s.auxBytes J)]

/-- A tethered device asks its lead for host ranges that a job reads. -/
def State.askJob (s : State) (J : Job) (rs : List (Nat × Nat)) : State :=
  if (s.memOf J).isNone then s.askLead rs else s

/-- FETCH_STAGE: a consumed job's fields are checked and its input is staged; it waits while staging lacks room. -/
def execFetchStage (j t : Nat) (s : State) : Out :=
  let u := s.at_ t
  match u.job? j with
  | none => noIndex
  | some J =>
    let u := u.askJob J (u.fetchRanges J)
    done s (
      if J.phase = .fetch then
        if (if J.admin then adminOk J else entryOk J) then u.fetchInput j J else u.endJob j St.malformed 0
      else if u.earlyReady J then
        match (match J.src with | .ring q => u.functionCheck J q | .internal => none) with
        | some (st, r) => u.endJob j st r
        | none =>
          if entryOk J then
            u.gather j { J with quadrant := u.stagingOf J } true
          else u.endJob j St.malformed 0
      else u)

/-- A bus error in a digest-family job clears the keyed-slot states that its tiles hold (06, R148). -/
def State.busError (s : State) (j : Nat) : State :=
  match s.job? j with
  | none => s
  | some J =>
    if famOf J.opcode = 7 then eachOf J.tilesOf (fun u n => u.modTile n fun T => { T with resident := [] }) s else s

/-- WINDOW_INPUT_ARRIVAL: the next bytes of a windowed job's input arrive, and a job that waited for them goes on
(12, R293). -/
def execWindowInputArrival (j bytes t : Nat) (s : State) : Out :=
  let u := s.at_ t
  match u.job? j with
  | none => noIndex
  | some J =>
    done s (
      if !J.windowed || J.phase = .ended || J.totalLen ≤ J.arrived then u
      else
        let n := min bytes (min J.totalLen (J.srcPieces.map (·.2)).sum - J.arrived)
        let u := u.askJob J (cutPieces J.arrived n J.srcPieces)
        match u.readPieces (u.memOf J) J.firstPos (cutPieces J.arrived n J.srcPieces) with
        | .error (i, k) => (u.busError j).fragFault j i k
        | .ok b => u.modJob j fun J => { J with input := J.input ++ b, arrived := J.arrived + n, stalled := false })

end Sys2Proof.Machine
end

