-- ==== Sys2Proof/Machine/Admission.lean ====
section
/-! DEFINITION. Admission: the rows of R123 from row 3 on, what an admitted job takes (its key's invocation, a nonce or
leaf, indices, a keyed slot's tile, a logbook reservation), and the key-cache fill (05, R123; 06, R135-R151; 08,
R179-R184, R197; 09, R199-R220; 12, R280-R288). -/

namespace Sys2Proof.Machine

/-! ### Keys by handle (09, R200-R202) -/

/-- The live key that a handle names, whoever owns it. -/
def State.keyByHandle (s : State) (h : Nat) : Option Key :=
  if handleGen h = 0 ∨ (tget s.keys.gens (handleIdx h)).getD 0 ≠ handleGen h then none else s.key? (handleIdx h)

/-- The key that a handle names for function `f`: live, its own, not being destroyed and not marked invalid. -/
def State.visibleKey (s : State) (f h : Nat) : Option Key :=
  (s.keyByHandle h).bind fun K => if K.owner = f ∧ K.destroy.isNone ∧ ¬ K.invalid then some K else none

/-- The generation of a keyed slot: 1 before its first drop (06, R146). -/
def State.slotGenOf (s : State) (k : Nat) : Nat := (tget s.keys.slotGen k).getD 1

/-- The binding that a slot handle names for function `f`. -/
def State.slotOf (s : State) (f h : Nat) : Option (Nat × Binding) :=
  match tget s.keys.slots (h % 4096) with
  | some b => if b.fn = f ∧ h / 4096 ≠ 0 ∧ h / 4096 = s.slotGenOf (h % 4096) then some (h % 4096, b) else none
  | none => none

/-- The job's KEY_HANDLE names a keyed slot. -/
def Job.usesSlot (J : Job) : Bool :=
  J.opcode == 0x7900 || ((J.opcode / 0x100 == 0x72 || J.opcode / 0x100 == 0x73 || J.opcode / 0x100 == 0x74 ||
    J.opcode / 0x100 == 0x75) && bitOf J.param.toNat 52)

/-- The handle of the key of a job: through its slot where it names one. -/
def State.keyHandleOf (s : State) (J : Job) : Nat :=
  if J.usesSlot then ((s.slotOf J.fn J.handle).map fun b => b.2.key).getD 0 else J.handle

/-- The job takes a key by KEY_HANDLE. -/
def Job.takesKey (J : Job) : Bool := (fieldsOf J.opcode J.param.toNat J.totalLen (fLogbook J.flags.toNat)).key

/-- A key that serves as the KWP wrapping key of IMPORT and EXPORT_WRAPPED: AES-256, or a SECRET of 32 bytes (R215, R218). -/
def Key.wraps (K : Key) : Bool := K.kind == .secret && (K.alg == 0x6003 || (K.alg == 0x7000 && K.material.length == 32))

/-- The key of a job where it is visible and serves the opcode (row 4 of R123; 09, R202, R205, R213, R215). -/
def State.jobKey (s : State) (J : Job) : Option Key :=
  let h := s.keyHandleOf J
  match J.opcode with
  | 0x8300 => if J.fn = 0 then (s.keyByHandle h).bind fun K => if K.destroy.isNone then some K else none else s.visibleKey J.fn h
  | 0x8400 => if J.fn = 0 then (s.keyByHandle h).bind fun K => if K.destroy.isNone then some K else none else s.visibleKey J.fn h
  | 0x8200 => s.visibleKey J.fn h
  | 0x8100 => (s.visibleKey J.fn h).bind fun K =>
      if (if J.param.toNat % 16 = 1 then K.wraps else K.alg == 0x8101 && K.kind == .priv) then some K else none
  | 0x7900 => s.visibleKey J.fn h
  | op =>
    (s.visibleKey J.fn h).bind fun K =>
      if op / 0x100 = 0x78 then (if K.alg = 0x7000 then some K else none)
      else if algOk op K && (!J.usesSlot || (s.slotOf J.fn J.handle).any fun b => b.2.code == psetOf op) then some K
      else none

/-! ### Counter records (09, R208, R209) -/

/-- The record of a key's index; the values of a new record where it has none. -/
def State.counter (s : State) (i : Nat) : CounterRec := (tget s.keys.counters i).getD {}

/-- The key's record must be made for this job: a nonce, or its 2^20th invocation. -/
def State.needsRecord (s : State) (i : Nat) (K : Key) (nonce : Bool) : Bool :=
  (tget s.keys.counters i).isNone && (nonce || 1048576 ≤ K.uses + 1)

/-- The job generates a nonce (08, R180). -/
def makesNonce (op p : Nat) : Bool := kindOf op == .seal || (kindOf op == .ctr && !bitOf p 24)

/-- The ceiling of nonce values (08, R182). -/
def nonceCeiling (op p : Nat) (K : Key) : Nat :=
  let lim := if K.limit = 0 then 2 ^ 64 else K.limit
  if operOf op = 2 then min lim (2 ^ (8 * bitsOf p 19 16 - 16)) else lim

/-- The key takes its counter values from leases (09, R210). -/
def Key.shared (K : Key) : Bool := K.flags.getLsbD 2
/-- The key has been imported. -/
def Key.imported (K : Key) : Bool := K.flags.getLsbD 5
/-- The key is persistent. -/
def Key.persistent (K : Key) : Bool := K.flags.getLsbD 1

/-- The next counter value of a key, and the key once it is taken; none beyond its lease or ceiling (08, R181-R183). -/
def takeNonce (op p : Nat) (K : Key) : Option (Nat × Key) :=
  let K := if K.shared then
      (match K.lease, K.nextLease with
       | some (_, hi), some (lo', hi') => if K.ctr < hi then K else { K with ctr := lo', lease := some (lo', hi'), nextLease := none }
       | none, some (lo', hi') => { K with ctr := lo', lease := some (lo', hi'), nextLease := none }
       | _, _ => K)
    else K
  let inLease := !K.shared || (match K.lease with | some (lo, hi) => decide (lo ≤ K.ctr) && decide (K.ctr < hi) | none => false)
  if inLease ∧ K.ctr < nonceCeiling op p K then some (K.ctr, { K with ctr := K.ctr + 1 }) else none

/-- The first counter value not reserved, once what is being committed is counted. -/
def State.ckptOf (s : State) (i : Nat) : Nat := ((s.counter i).pending).getD (s.counter i).ckpt

/-! ### Leaves (06, R135-R140) -/

/-- The leaves that sign the roots above bottom tree `b` of an HSS key: level and number of each, the top level first. -/
def rootLeaves (types : List (Nat × Nat)) (b : Nat) : List (Nat × Nat) :=
  (List.range (types.length - 1)).map fun k => (k, b / 2 ^ ((types.dropLast.drop (k + 1)).map fun l => lmsH l.1).sum)

/-- The key of an upper leaf in the table of randomisers. -/
def leafKey (x : Nat × Nat) : Nat := x.1 * 2 ^ 64 + x.2

/-- The roots above bottom tree `b` are signed, each of those that are not yet with a randomiser drawn from counter `d` on: the
record and the bytes drawn (06, R134, R139). -/
def Hbs.signRoots (H : Hbs) (b d : Nat) : Hbs × Nat :=
  (rootLeaves H.types b).foldl (fun (acc : Hbs × Nat) x =>
    if (tget acc.1.cs (leafKey x)).isSome then acc
    else
      let n := groupN (otsGroup ((H.types.getD x.1 (0, 0)).2))
      ({ acc.1 with cs := tput acc.1.cs (leafKey x) (drbgBytes (d + acc.2) n) }, acc.2 + n)) (H, 0)

/-- What an HSS private key's parts are derived from: its seed and the types of its levels (SP 800-208). -/
def hssSeed (sk : Bytes) (types : List (Nat × Nat)) : Bytes := sk ++ types.flatMap fun l => le 1 l.1 ++ le 1 l.2

/-- The LMS public key of tree `t` of level `k` (RFC 8554): types, I and root. -/
def lmsPub (alg : Nat) (sk : Bytes) (types : List (Nat × Nat)) (k t : Nat) : Bytes :=
  let l := types.getD k (0, 0)
  be 4 l.1 ++ be 4 l.2 ++ prim (.publicKey alg) [hssSeed sk types, le 1 k, le 8 t] (16 + groupN (lmsGroup l.1))

/-- The LMS signature of a message by leaf `u` of level `k`, with the randomiser `c` (RFC 8554). -/
def lmsSignature (alg : Nat) (sk : Bytes) (types : List (Nat × Nat)) (k u : Nat) (c msg : Bytes) : Bytes :=
  let l := types.getD k (0, 0)
  let seed := hssSeed sk types
  be 4 (u % 2 ^ lmsH l.1) ++ be 4 l.2 ++ c ++ prim (.hbsSign alg) [seed, le 1 k, le 8 u, c, msg] (groupN (otsGroup l.2) * otsP l.2) ++
  be 4 l.1 ++ prim (.hbsSign alg) [seed, le 1 k, le 8 u] (lmsH l.1 * groupN (lmsGroup l.1))

/-- The signed roots above bottom tree `b`, whose own public key is `pub` (RFC 8554). -/
def hssUpper (alg : Nat) (sk : Bytes) (H : Hbs) (b : Nat) (pub : Bytes) : Bytes :=
  (rootLeaves H.types b).flatMap fun x =>
    let signed := if x.1 + 2 = H.types.length then pub else lmsPub alg sk H.types (x.1 + 1) x.2
    lmsSignature alg sk H.types x.1 x.2 ((tget H.cs (leafKey x)).getD []) signed ++ signed

/-- RESERVED_END, once what is being committed is counted. -/
def Hbs.endAt (H : Hbs) : Nat := H.pendingTo.getD H.reserved

/-! ### What a job brings (12, R280) -/

/-- Inputs of the plan of a job. -/
def State.planIn (s : State) (J : Job) (K : Option Key) : PlanIn :=
  let op := J.opcode
  let p := J.param.toNat
  let i := handleIdx (s.keyHandleOf J)
  let inl := !J.takesKey
  { hbs := K.bind (·.hbs),
    keyLen := (K.map fun k => k.material.length).getD 0,
    eBits := if famOf op = 5 ∧ operOf op ≥ 10 then
        (match K with
         | some k => rsaEBits (psetOf op) (if k.kind = .pub then k.material else k.pubPart)
         | none => if inl then rsaEBits (psetOf op) (J.auxPart 0) else 17)
      else 17,
    levels := if op / 0x100 = 0x36 then
        (let off := if inl then partLen (sliceOf J.auxIn) 0 .hssKey else 0
         (hssWalk (sliceOf J.auxIn) (psetOf op) (off + 4)).1)
      else [],
    commit := match K with
      | none => false
      | some k =>
        if kindOf op = .sign ∧ stateful k.alg then
          (match k.hbs with | some H => decide (H.endAt ≤ H.skip H.next) && H.block != 1 | none => false)
        else makesNonce op p && (match takeNonce op p k with | some (v, k') => decide (s.ckptOf i ≤ v) || k'.lease != k.lease | none => false) }

/-- The plan of the key-management jobs (09, R213-R219). -/
def keyPlan (J : Job) (K : Option Key) : List StepPlan :=
  let p := J.param.toNat
  let helm (ns : Nat) : StepPlan := { kind := .main, pers := 0, cyc := ns, entry := J.opcode }
  let tile (pers cyc entry : Nat) (dup : Bool) : StepPlan := { kind := .seal, pers := pers, cyc := cyc, entry := entry, dup := dup }
  match J.opcode with
  | 0x8000 =>
    let T := parseTemplate J.auxIn
    if templateKind T = .secret then [helm 0]
    else if definedOp T.alg then planOf T.alg p 0 J.al2 {} else [helm 0]
  | 0x8100 =>
    if p % 16 = 1 then [tile 5 (symmCycles 0x6803 0x2000000 J.totalLen J.al2) 0x6803 false, helm 0]
    else if p % 16 = 2 then
      [tile 1 10600 0x1202 J.al2, tile 4 35000 0x5801 J.al2, tile 5 (symmCycles 0x6103 0 (J.totalLen - 16) J.al2) 0x6103 false, helm 0]
    else [helm 0]
  | 0x8200 =>
    let n := 64 + (K.map fun k => k.material.length).getD 0
    if bitsOf p 35 32 = 1 then [tile 5 (symmCycles 0x6703 0x2000000 n J.al2) 0x6703 false, helm 0]
    else if bitsOf p 35 32 = 2 then
      [tile 1 8000 0x1102 J.al2, tile 4 35000 0x5701 J.al2, tile 4 35000 0x5801 J.al2, tile 5 (symmCycles 0x6003 0 (n + 1136) J.al2) 0x6003 false, helm 0]
    else [helm 0]
  | 0x8300 => [helm (10000 + ceilDiv ((K.map fun k => k.material.length).getD 0) 45)]
  | 0x8500 => [tile 1 7200 0x1002 J.al2, tile 4 35000 0x5701 J.al2, tile 1 626000 0x2103 false, helm 0] ++
      (if J.al2 then [{ kind := .verifyAfterSign, pers := 1, cyc := 26000, entry := 0x2203 }] else [])
  | _ => [helm 0]

/-- The plan of a job (02, R513 for the test commands). DESIGN CHOICES (log 85): the built-in vector of a KNOWN_ANSWER has an
empty message, PARAM 0 and, for HSS, levels of types 5 and 4; FORCE_COMPARE_FAIL is a step of no time on a firmware core,
which the Reckoner places, and so may refuse, as any other. -/
def State.jobPlan (s : State) (J : Job) (K : Option Key) : List StepPlan :=
  let p := J.param.toNat
  if J.opcode = 0xF000 then [{ kind := .main, pers := bitsOf p 2 0, cyc := bitsOf p 47 8 }]
  else if J.opcode = 0xF001 then
    let ls := List.replicate (psetOf p) (5, 4)
    planOf (p % 65536) (if p % 65536 / 0x100 = 0x34 then 0x04050405 else 0) 0 J.al2 { hbs := some { types := ls, total := 32, block := 1 }, levels := ls }
  else if J.opcode = 0xF002 then [{ kind := .main, pers := 0, cyc := 0 }]
  else if famOf J.opcode = 8 then keyPlan J K
  else planOf J.opcode p J.totalLen J.al2 (s.planIn J K)

/-- A job holds a key in the cache while it is in flight: the key that its operation computes with. -/
def Job.cachesKey (J : Job) : Bool := J.takesKey && J.opcode != 0x8300 && J.opcode != 0x8400 && J.opcode != 0x7900

/-- The latest completion deadline among the C0-C6 jobs that pin a key (09, R219). -/
def State.pinEnd (s : State) (k : Nat) : Nat :=
  (((s.jobs.filter fun e => e.2.pin == some k && e.2.cls != 7).map fun e => e.2.deadline.getD 0).max?).getD 0

/-- The job counts an invocation of the key in KEY_HANDLE (09, R208). -/
def Job.countsUse (J : Job) : Bool :=
  J.takesKey && J.opcode != 0x8200 && J.opcode != 0x8300 && J.opcode != 0x8400 && J.opcode != 0x7900

/-- The index of the KEK of an EXPORT_WRAPPED, whose use counts too. -/
def Job.kekUse (J : Job) : Option Nat :=
  if J.opcode = 0x8200 ∧ bitsOf J.param.toNat 35 32 ≠ 3 then some (handleIdx (bitsOf J.param.toNat 31 0)) else none

/-- The next use of the key at an index reaches its stored checkpoint, which is written first (09, R208). -/
def State.checkpoints (s : State) (i : Nat) : Bool := (s.key? i).any fun k => decide ((s.counter i).uses ≤ k.uses + 1)

/-- The earlier job whose commit must be acknowledged before this value or leaf may be used. -/
def State.committer (s : State) (i : Nat) (nonce : Bool) : Option Nat :=
  ((s.jobs.filter fun e => e.2.pin == some i && e.2.commit == .needed && (if nonce then e.2.ctr.isSome else e.2.leaf.isSome)).map (·.1)).max?

/-- The value or leaf that the job would take lies in a range that an earlier job still reserves (06, R136; 08, R181). -/
def State.waitsFor (s : State) (J : Job) (i : Nat) (k : Key) : Option Nat :=
  match k.hbs with
  | some H => if kindOf J.opcode = .sign ∧ H.reserved ≤ H.skip H.next ∧ H.skip H.next < H.endAt then s.committer i false else none
  | none =>
    if makesNonce J.opcode J.param.toNat then
      (match takeNonce J.opcode J.param.toNat k with
       | some (v, k') => if k'.lease = k.lease ∧ (s.counter i).ckpt ≤ v ∧ v < s.ckptOf i then s.committer i true else none
       | none => none)
    else none

/-- The wait for the reservation of job `w`: 2,432 cycles at the clock of the tile it is placed on (06, R136). -/
def State.waitLat (s : State) (w : Nat) : Nat :=
  match ((s.job? w).bind Job.mainStep).bind fun st => st.runs.head? with
  | some r => (match r.server with
    | .tile n => ceilDiv (2432 * 450000) (s.mhz n)
    | .core _ => 0)
  | none => 0

/-- Latencies before the first step, in units of 1/450 ns: the key fill, the checkpoint of invocations, the wait for a
reservation by an earlier job, the write of a slot's generation, and the wait of DESTROY (R280; 06, R136, R146; 08, R181; 09,
R208). -/
def State.preLat (s : State) (J : Job) (K : Option Key) : Nat :=
  let i := handleIdx (s.keyHandleOf J)
  match K with
  | none => 0
  | some k =>
    (if J.cachesKey && (tget s.keys.cache i).isNone then fillLat k.material.length else 0) +
    (if (J.countsUse && s.checkpoints i) || J.kekUse.any s.checkpoints then 450000 else 0) +
    (if J.opcode = 0x7800 then 450000 else 0) +
    (if J.opcode = 0x8300 then 450 * (s.pinEnd i - s.time.elapsed) else 0) +
    (match s.waitsFor J i k with
     | some w => s.waitLat w
     | none => 0)

/-- Bytes that the operation releases to host memory, and a whole-range zero-fill for a provisional decryption (08,
R187). -/
def Job.relNeed (J : Job) (K : Option Key) : Nat :=
  let n := outLen J.opcode J.param.toNat J.totalLen J.dst (fLogbook J.flags.toNat) (K.bind (·.hbs))
  if fProvisional J.flags.toNat then 2 * n else n

/-- Latency after the last step, in ns: the completion write, the AL2 comparison, and a sealed line for a job that
creates a key (R280; 01, R34). -/
def Job.postLat (J : Job) (K : Option Key) : Nat :=
  200 + (if J.al2 then ceilDiv (5 * max 1 (ceilDiv (outLen J.opcode J.param.toNat J.totalLen J.dst false (K.bind (·.hbs))) 64)) 6 else 0) +
  (if 0 < newKeys J.opcode J.param.toNat ∨ J.opcode = 0x8000 ∨ J.opcode = 0x8100 ∨ J.opcode = 0x8500 then 400 else 0)

/-- The demand of a job. -/
def State.demandOf (s : State) (J : Job) (K : Option Key) : Demand :=
  { fn := J.fn, cls := J.cls, quad := J.quadrant.getD 4, len := J.totalLen + J.auxIn.length, lat := s.preLat J K,
    post := J.postLat K, plan := s.jobPlan J K,
    slot := if J.usesSlot then (s.slotOf J.fn J.handle).map (·.1) else none }

/-- Row 3 of R123: the route, the demand, share and bandwidth tests, and the size of the function's cache partition. -/
def State.rowThree (s : State) (J : Job) : Verdict :=
  let K := if J.takesKey then s.jobKey J else none
  let tooBig := J.cachesKey && (match K with
    | some k => decide ((s.partitionOf J.fn).2 < slotsOf k.material.length)
    | none => false)
  if J.opcode = 0x8300 ∧ J.cls ≤ 2 then .refuse 5
  else match s.reckon (s.demandOf J K) (s.deadlineUs J.cls) (J.relNeed K) J.overflow with
  | .refuse 1 => .refuse 1
  | .refuse 8 => .refuse 8
  | v => if tooBig then .refuse 7 else v

/-! ### Rows 4 to 6 and after -/

/-- How a status is answered: the status and RESULT. -/
abbrev Answer := Option (Nat × Nat)

/-- The logbook register that a job extends. -/
def Job.logTarget (J : Job) : Option Nat := if fLogbook J.flags.toNat then some (bitsOf J.param.toNat 61 56) else none

/-- A debug grant is in force in DEPLOYED (09, R206). -/
def State.noDebugBars (s : State) : Bool := s.lc.grant != 0 && s.lc.state == .deployed

/-- The wrapping key of EXPORT_WRAPPED serves, its assurance level and NO_DEBUG flag included (09, R206, R218). -/
def State.exportOk (s : State) (J : Job) (K : Key) : Bool :=
  let p := J.param.toNat
  let f := bitsOf p 35 32
  if f = 3 then K.expPol == 1 && K.kind == .pub
  else K.expPol == 1 && !(K.hbs.isSome) &&
    (match s.visibleKey J.fn (bitsOf p 31 0) with
     | none => false
     | some W => W.usage.getLsbD 13 && !(W.minAl == 2 && !J.al2) && !(W.flags.getLsbD 0 && s.noDebugBars) &&
       (if f = 1 then W.wraps else W.alg == 0x8101 && W.kind == .pub))

/-- Row 5: usage, assurance, debug, ownership and the rights that the chapters add. -/
def State.rowFive (s : State) (J : Job) (K : Option Key) : Answer :=
  let op := J.opcode
  let p := J.param.toNat
  let deny : Answer := some (St.policyDeny, 0)
  if famOf op = 8 ∧ (s.lc.state = .raw ∨ s.lc.state = .test) then deny
  else if kindOf op = .unseal ∧ 2097152 < J.totalLen ∧ ¬ fProvisional J.flags.toNat then deny
  else match J.logTarget with
  | some r => if r < 16 ∨ (s.logReg r).owner ≠ J.fn then deny else rest op p deny
  | none => rest op p deny
where
  /-- What row 5 asks of the key. -/
  rest (op p : Nat) (deny : Answer) : Answer :=
    match K with
    | none => none
    | some k =>
      if k.minAl = 2 ∧ ¬ J.al2 then deny
      else if k.flags.getLsbD 0 ∧ s.noDebugBars then deny
      else if op = 0x8300 ∨ op = 0x8400 ∨ op = 0x7900 then none
      else if op = 0x8200 then (if s.exportOk J k then none else deny)
      else if op = 0x8100 then (if k.usage.getLsbD 12 then none else deny)
      else
        let need := usageNeeded op p
        if !need.isEmpty && !(need.any fun b => k.usage.getLsbD b) then deny
        else if makesNonce op p && k.imported && !k.shared then deny
        else none

/-- The key's invocation limit is reached. -/
def Key.spent (K : Key) : Bool := (if K.limit = 0 then 2 ^ 64 else K.limit) ≤ K.uses

/-- Row 6: the invocation limit and the nonce ceiling (08, R182, R183). -/
def State.rowSix (s : State) (J : Job) (K : Option Key) : Answer :=
  match K with
  | none => none
  | some k =>
    if (J.countsUse && k.spent) || ((J.kekUse.bind s.key?).any Key.spent) then some (St.keyExhausted, 0)
    else if makesNonce J.opcode J.param.toNat && (takeNonce J.opcode J.param.toNat k).isNone then some (St.keyExhausted, 0)
    else none

/-- After row 6: a stateful sign whose leaves are used up, or whose tree is not ready (06, R151). -/
def leafRow (J : Job) (K : Option Key) : Answer :=
  match K.bind (·.hbs) with
  | none => none
  | some H =>
    if kindOf J.opcode ≠ .sign then none
    else if H.limit ≤ H.skip H.next then some (St.keyExhausted, 0)
    else if H.ready ≤ H.skip H.next then some (St.notAdmitted, 6) else none

/-- The indices that jobs have reserved. -/
def State.reservedIdx (s : State) : List Nat := s.jobs.flatMap fun e => e.2.newIdx

/-- An index may be taken (09, R201). -/
def State.idxFree (s : State) (i : Nat) : Bool :=
  (s.key? i).isNone && (tget s.keys.gens i).getD 0 < 255 && !s.reservedIdx.contains i && !s.keys.scrubbing.any fun e => e.2 == i

/-- The lowest free index besides those of a list. -/
def State.lowIndex (s : State) (but : List Nat) : Option Nat :=
  (lowestFree (fun i => !s.idxFree i || but.contains i)
    (s.keys.live.length + s.keys.gens.length + s.reservedIdx.length + s.keys.scrubbing.length + but.length + 1) 0).bind
    fun i => if i < 2 ^ 24 then some i else none

/-- The `n` lowest free indices, in order, besides those of a list. -/
def State.freeIndices (s : State) : Nat → List Nat → Option (List Nat)
  | 0, l => some l
  | n + 1, l => (s.lowIndex l).bind fun i => s.freeIndices n (l ++ [i])

/-- Reserve `n` indices, raising their generations (R201). -/
def State.reserveIdx (s : State) (j n : Nat) : Option State :=
  (s.freeIndices n []).map fun l =>
    { s with keys := { s.keys with
        gens := l.foldl (fun t i => tput t i ((tget t i).getD 0 + 1)) s.keys.gens } }.modJob j fun J => { J with newIdx := J.newIdx ++ l }

/-- How many keys the job creates. -/
def Job.newCount (J : Job) : Nat :=
  match J.opcode with
  | 0x8000 => if (parseTemplate J.auxIn).alg / 0x100 = 0x44 then 2 else 1
  | 0x8100 => 1
  | 0x8500 => 1
  | op => newKeys op J.param.toNat

/-- The owner of what the job creates, and whether it is persistent and how long its material is, as far as the entry or
its template says (09, R203). -/
def Job.newAttr (J : Job) : Nat × Bool × Nat :=
  if J.opcode = 0x8000 ∨ (J.opcode = 0x8100 ∧ J.param.toNat % 16 = 3) then
    let T := parseTemplate J.auxIn
    (T.owner, T.flags.getLsbD 1, if T.kind = 2 then skLen T.alg else T.len)
  else (J.fn, kindOf J.opcode == .keygen && stateful (algOf J.opcode), skLen (algOf J.opcode))

/-- KEY.QUOTA of a function (R221). -/
def State.quotaOf (s : State) (f : Nat) : Nat :=
  (tget s.keys.quota f).getD (if f = 0 then 16777216 else if f = 0x100 then 1048576 else 0)

/-- Live keys of a function. -/
def State.liveOf (s : State) (f : Nat) : Nat := tcount s.keys.live fun _ K => K.owner == f

/-- Bytes that a key takes in the persistent-key area (R203). -/
def persistSize (len : Nat) : Nat := 64 + 64 * ceilDiv len 64

/-- Bytes of the 24 MiB area in use. -/
def State.persistUsed (s : State) : Nat :=
  ((s.keys.live.filter fun e => e.2.persistent).map fun e => persistSize e.2.material.length).sum

/-- The persistent keys that the jobs in flight will create, but for the job of the reserved indices `but`: their sizes. -/
def State.comingSizes (s : State) (but : List Nat) : List Nat :=
  s.jobs.flatMap fun e =>
    let J := e.2
    if J.phase = .ended ∨ J.phase = .delayed ∨ J.newIdx = [] ∨ J.newIdx = but then []
    else match J.out with
    | some o => (o.keys.filter fun k => k.2.persistent).map fun k => persistSize k.2.material.length
    | none => if J.newAttr.2.1 then [persistSize J.newAttr.2.2] else []

/-- A persistent key of `len` bytes has no room in the area, with what is in flight (R203). -/
def State.persistFull (s : State) (but : List Nat) (len : Nat) : Bool :=
  decide (24 * 2 ^ 20 < s.persistUsed + (s.comingSizes but).sum + persistSize len)

/-- No counter record is left for one more key, with what is in flight (R209). -/
def State.recordsFull (s : State) (but : List Nat) : Bool :=
  decide (262144 ≤ s.keys.counters.length + (s.comingSizes but).length)

/-- A use that counts needs a counter record that the key has not (R209). -/
def State.useNeedsRecord (s : State) (J : Job) (K : Option Key) : Bool :=
  (J.countsUse && K.any fun k => s.needsRecord (handleIdx (s.keyHandleOf J)) k (makesNonce J.opcode J.param.toNat)) ||
  J.kekUse.any fun i => (s.key? i).any fun k => s.needsRecord i k false

/-- The failures of R201, R203 and R209, in the order of R220, and the tables of R146 and R149. -/
def State.tableRow (s : State) (J : Job) (K : Option Key) : Answer :=
  let n := J.newCount
  let (owner, pers, len) := J.newAttr
  let full (r : Nat) : Answer := some (St.ctxFull, r)
  if 0 < n ∧ s.quotaOf owner ≤ s.liveOf owner then full 5
  else if 0 < n ∧ (s.freeIndices n []).isNone then full 4
  else if 0 < n ∧ pers ∧ s.persistFull [] len then full 3
  else if ((0 < n ∧ pers) ∨ s.useNeedsRecord J K) ∧ s.recordsFull [] then full 2
  else if J.opcode = 0x7800 ∧
      (lowestFree (fun k => (tget s.keys.slots k).isSome || 1048575 < s.slotGenOf k) 4096 0).isNone then full 1
  else match J.logTarget with
  | some r => if s.logRoom r then none else some (St.logbookFull, 0)
  | none => none

/-- The first of several answers. -/
def firstOf : List Answer → Answer
  | [] => none
  | some a :: _ => some a
  | none :: rest => firstOf rest

/-- Row 4 (R123; 06, R151). -/
def State.rowFour (s : State) (J : Job) : Answer :=
  if J.takesKey && (s.jobKey J).isNone then some (St.keyInvalid, 0)
  else if J.opcode = 0x7900 ∧ (s.slotOf J.fn J.handle).isNone then some (St.keyInvalid, 0)
  else none

/-- Every check after row 3, in order. -/
def State.laterRows (s : State) (J : Job) : Answer :=
  let K := if J.takesKey then s.jobKey J else none
  firstOf [s.rowFour J, s.rowFive J K, s.rowSix J K, leafRow J K, s.tableRow J K]

/-! ### Acceptance -/

/-- A job refused with NOT_ADMITTED, counted (R288, R297). -/
def State.notAdmit (s : State) (j reason : Nat) : State :=
  let t := (s.refused reason).endJob j St.notAdmitted reason
  match s.job? j with
  | some J => if J.fn < 256 ∧ (s.fn J.fn).pert ∧ bitOf (s.fn J.fn).ctrl.toNat 4 then t.modJob j fun J => { J with acted := true } else t
  | none => t

/-- The preparation of a stateful key's next tree is due, where a C7 route serves its owner (06, R139). -/
def State.startPrep (s : State) (i : Nat) : State :=
  match s.key? i with
  | none => s
  | some K =>
    match K.hbs with
    | none => s
    | some H =>
      if H.preparing ∨ H.limit ≤ H.ready ∨ (s.route K.owner 7 2).isNone then s
      else s.modKey i fun K => { K with hbs := K.hbs.map fun H => { H with preparing := true } }

/-- The key of an admitted job counts its use, its checkpoint is moved on when the count reaches it, and its record is
made when it needs one (09, R208, R209). -/
def State.countUse (s : State) (i : Nat) (nonce : Bool) : State :=
  match s.key? i with
  | none => s
  | some K =>
    let t := s.modKey i fun K => { K with uses := K.uses + 1 }
    let t := if s.needsRecord i K nonce then { t with keys := { t.keys with counters := tput t.keys.counters i {} } } else t
    if (t.counter i).uses ≤ K.uses + 1 ∧ (tget t.keys.counters i).isSome then
      { t with keys := { t.keys with counters := tmod t.keys.counters i fun c => { c with uses := c.uses + 1048576 } } }
    else t

/-- A leaf is assigned to job `j` (06, R135, R136). -/
def State.assignLeaf (s : State) (j i : Nat) : State :=
  match (s.key? i).bind (·.hbs) with
  | none => s
  | some H =>
    let v := H.skip H.next
    let carries := decide (H.endAt ≤ v)
    let wait := if carries || decide (v < H.reserved) then none else s.committer i false
    let t := s.modKey i fun K => { K with hbs := some { H with
      next := H.skip (v + 1), pendingTo := if carries then some (H.blockEnd v) else H.pendingTo } }
    let t := if H.ready - (v + 1) ≤ H.perTree / 4 then t.startPrep i else t
    t.modJob j fun J => { J with
      leaf := some v, commit := if carries then .needed else .none, waitFor := wait, pin := some i }

/-- A nonce value is assigned to job `j` (08, R181). A key that moves to its next lease takes the lease's start as its
counter and its CKPT, so this job carries the commit (17_meridian.md R403). -/
def State.assignNonce (s : State) (j i op p : Nat) : State :=
  match s.key? i with
  | none => s
  | some K =>
    match takeNonce op p K with
    | none => s
    | some (v, K') =>
      let moves := K'.lease != K.lease
      let c : CounterRec := if moves then { s.counter i with ckpt := v, pending := none } else s.counter i
      let carries := moves || decide (s.ckptOf i ≤ v)
      let wait := if carries || decide (v < c.ckpt) then none else s.committer i true
      let t := s.modKey i fun _ => K'
      let t := if carries then { t with keys := { t.keys with counters := tput t.keys.counters i { c with pending := some (K'.rangeEnd v) } } } else t
      t.modJob j fun J => { J with
        ctr := some v, commit := if carries then .needed else .none, waitFor := wait, pin := some i }

/-- The job is accepted at this moment with its runs and units. -/
def State.acceptJob (s : State) (j : Nat) (steps : List JobStep) (units : List (Nat × Nat × Nat)) (cls rel : Nat) (al2 : Bool) : State :=
  let F := fun f => (s.fn f).pert
  let t := s.modJob j fun J => { J with
    accepted := some s.time.elapsed, acceptSeq := s.acceptSeq, cls := cls, al2 := al2,
    deadline := if cls = 7 then none else some (s.time.elapsed + 1000 * s.deadlineUs cls),
    steps := steps, units := units, relBytes := rel, phase := .placed, pertAcc := F J.fn,
    acted := J.acted || (F J.fn && bitOf (s.fn J.fn).ctrl.toNat 4) }
  { t.bumpBy 0x30018 64 1 with acceptSeq := s.acceptSeq + 1 }

/-- The conditional cycles of a placed plan that a job may get back (R280). -/
def condOf (plan : List StepPlan) : Nat := (plan.map (·.cond)).sum

/-- What an accepted job of a ring takes besides its runs. -/
def State.takeAll (s : State) (j : Nat) (J : Job) (K : Option Key) : State :=
  let op := J.opcode
  let p := J.param.toNat
  let i := handleIdx (s.keyHandleOf J)
  let t := if J.countsUse then s.countUse i (makesNonce op p) else s
  let t := match J.kekUse with | some w => t.countUse w false | none => t
  let t := if kindOf op = .sign ∧ (K.bind (·.hbs)).isSome then t.assignLeaf j i
    else if makesNonce op p then t.assignNonce j i op p else t
  let t := (t.reserveIdx j J.newCount).getD t
  let t := match J.logTarget with
    | some r => (t.logReserve r j).modJob j fun J => { J with logRes := some r, commit := .needed }
    | none => if kindOf op == OpKind.keygen && stateful (algOf op) then t.modJob j fun J => { J with commit := .needed } else t
  let t := if J.opcode = 0x8300 then t.modKey i fun K => { K with destroy := some j } else t
  t.modJob j fun J => { J with
    slot := if J.usesSlot then (s.slotOf J.fn J.handle).map (·.1) else none,
    conditional := condOf (s.jobPlan J K), postNs := J.postLat K,
    uncovered := J.opcode == 0x8300 && s.jobs.any fun e => e.2.pin == some i && e.2.cls == 7,
    pin := if J.cachesKey then some i else J.pin }

/-- The unit that a GENERATE needs is missing. DESIGN CHOICE (log 95): R5 names opcodes, and GENERATE's names no unit; its template's
ALG of family 0x4 ends it UNIT_ABSENT, after the PARAM and template checks of the fetch stage. -/
def State.keyUnitAbsent (s : State) (J : Job) : Bool :=
  s.variant == .pz8810 && J.opcode == 0x8000 && famOf (parseTemplate J.auxIn).alg == 4

/-- The decision on a staged job: it waits (none), or the state after it is refused or accepted. -/
def State.decide_ (s : State) (j : Nat) (J : Job) : Option State :=
  let K := if J.takesKey then s.jobKey J else none
  if s.keyUnitAbsent J then some (s.endJob j St.unitAbsent 0)
  else match s.rowThree J with
  | .refuse r => some (s.notAdmit j r)
  | .place steps units =>
    match s.laterRows J with
    | some (st, r) =>
      if st = St.notAdmitted then some ((s.startPrep (handleIdx J.handle)).notAdmit j r)
      else some ((s.modKey (handleIdx (s.keyHandleOf J)) fun K =>
        if st = St.keyExhausted ∧ K.shared then { K with asked := true } else K).endJob j st r)
    | none =>
      let i := handleIdx (s.keyHandleOf J)
      let len := slotsOf ((K.map fun k => k.material.length).getD 0)
      let accept (t : State) (phase : Phase) : State :=
        ((t.acceptJob j steps units J.cls (J.relNeed K) J.al2).takeAll j J K).modJob j fun J => { J with phase := phase }
      if K.isSome ∧ J.cachesKey then
        if (tget s.keys.cache i).isSome then
          some ((accept { s with keys := { s.keys with cache := tmod s.keys.cache i fun c => { c with used := s.time.elapsed } } } .placed).bumpBy 0x50020 64 1)
        else match s.freeRun j J.fn len with
        | none => none
        | some a => some ((accept (s.cachePut j i a len) .filling).bumpBy 0x50028 64 1)
      else some (accept s .placed)

/-- FENCE_BEFORE: a job consumed earlier from the same queue has not had its completion written (R223). -/
def State.fenceWaits (s : State) (J : Job) : Bool :=
  fFence J.flags.toNat && s.jobs.any fun e => e.2.src == J.src && e.2.seq < J.seq

/-- The families that the Reckoner admits by this command; those of the authority service and of partner sessions are
admitted by their own. -/
def Job.reckoned (J : Job) : Bool := !J.admin && famOf J.opcode != 9 && famOf J.opcode != 10

/-- ADMISSION: the Reckoner decides on a staged job whose waits have ended; one for whose key no run of the cache is free waits
for a tick to accept it (07, R159). -/
def execAdmission (j t : Nat) (s : State) : Out :=
  let u := s.at_ t
  match u.job? j with
  | none => noIndex
  | some J =>
    done s (
      if J.phase ≠ .staged ∨ ¬ J.reckoned ∨ J.runWait ∨ u.fenceWaits J ∨ u.faults.safe.on ∨
          (u.chartStops ∧ (u.jobPlan J (if J.takesKey then u.jobKey J else none)).any fun st => st.pers != 0) then u
      else (u.decide_ j J).getD (u.modJob j fun J => { J with runWait := true }))

/-- KEY_CACHE_FILL_DONE: the fill of an accepted job's key ends; a record whose tag fails does not fill, the job
completes with MCHECK, and the event is recorded on the private memory port (02, R57; 09, R199; 01, R35). -/
def execKeyCacheFillDone (j : Nat) (tagOk : Bool) (t : Nat) (s : State) : Out :=
  let u := s.at_ t
  match u.job? j with
  | none => noIndex
  | some J =>
    done s (
      if J.phase ≠ .filling then u
      else if tagOk then u.modJob j fun J => { J with phase := .placed }
      else
        let v := match J.pin with
          | some k => { u with keys := { u.keys with cache := tdel u.keys.cache k } }
          | none => u
        let p := match J.pin.bind fun k => (u.key? k).map fun K => (k, K) with
          | some (k, K) => u.portOf (keyRegion K) k
          | none => 0
        (v.endJob j St.mcheck 0).pmemFail p 2 (some j))

end Sys2Proof.Machine
end

