-- ==== Sys2Proof/Machine/Run.lean ====
section
/-! DEFINITION. The life of an accepted job on its tiles and cores: dispatch, safe points, preemption, commits, machine
checks, the end of a run, release, and the completion (01, R25-R30; 04, R85-R97, R516; 08, R184-R192; 10, R241,
R245-R248; 12, R289; 21, R472). -/

namespace Sys2Proof.Machine

/-! ### The current step -/

/-- The current step has a run of a mode on a server. -/
def Job.currentHas (J : Job) (u : Server) (m : RunMode) : Bool :=
  match J.current with
  | some (_, st) => st.runs.any fun r => r.server == u && r.mode == m
  | none => false

/-- Change the runs of the current step. -/
def Job.modCurrent (J : Job) (f : Run → Run) : Job :=
  match J.current with
  | none => J
  | some (i, _) => J.mapRuns fun k r => if k = i then f r else r

/-- The job's output is streamed: a family 0x6 job but a decryption without PROVISIONAL_OK (08, R185). -/
def Job.streams (J : Job) : Bool :=
  famOf J.opcode == 6 && ((kindOf J.opcode != .unseal && kindOf J.opcode != .unwrap) || fProvisional J.flags.toNat)

/-- The job computes its operation now: a run of its current, main step executes. A windowed job computes once all of
its input is here; one that streams its output computes as far as its input has come (12, R293). No computation that uses a
leaf or a counter value comes before its commit (06, R135; 08, R181). -/
def Job.computing (J : Job) : Bool :=
  (match J.out with
   | none => J.streams || !J.windowed || J.totalLen ≤ J.arrived
   | some o => J.streams && J.windowed && o.seen < J.arrived) && J.phase == .placed && J.isRunning && !J.holds &&
  (match J.current with
   | some (_, st) => st.kind == .main
   | none => false)

/-- The job may start or go on: accepted, its key and its partner's context in place, its reservation acknowledged, its input here, and, for
DESTROY, its key not pinned (12, R289; 06, R136; 09, R219). -/
def State.ready (s : State) (J : Job) : Bool :=
  J.phase == .placed && !J.stalled && !J.atEnd && (famOf J.opcode != 10 || !(s.partner? J.partner).any Partner.moving) &&
  (match J.waitFor with
   | some k => (s.job? k).all fun W => W.commit != .needed
   | none => true) &&
  (J.opcode != 0x8300 || !s.pinned (handleIdx J.handle))

/-! ### Dispatch (12, R289; 02, R56; 04, R80, R90) -/

/-- A run that a server may start: job, run, suspended or not. -/
structure Cand where
  job  : Nat
  run  : Run
  c7   : Bool
  eff  : Nat
  ord  : Nat
deriving DecidableEq, Repr

/-- The power limit parks the tile: it starts no more C7 work (12, R291). -/
def State.parking (s : State) (u : Server) : Bool :=
  match u with
  | .tile n => (s.tile n).parked
  | .core _ => false

/-- A tile that the power limit parks stops once it holds no committed job and runs none (12, R291). -/
def State.parkNow (s : State) (n : Nat) : State :=
  if (s.tile n).parked ∧ (s.tile n).mode = .idle ∧ ¬ ((s.runsAt (.tile n)).any fun r => s.committed r.job) then
    s.modTile n fun T => { T with mode := .parked }
  else s

/-- The server is a tile without the routine of an entry key (04, R79). -/
def State.lacks (s : State) (u : Server) (entry : Nat) : Bool :=
  match u with
  | .tile n => !(s.tile n).holds entry
  | .core _ => false

/-- The server is a tile that a RETILE drains: it takes no new dispatch, only what its save slots hold (03, R74). -/
def State.leaving (s : State) (u : Server) : Bool :=
  match u, s.chart.op with
  | .tile n, some o => o.retile && o.draining && o.tiles.contains n
  | _, _ => false

/-- The ready runs of a server, in the order of R289: committed work by effective deadline and acceptance, then C7. -/
def State.readyRuns (s : State) (u : Server) : List Cand :=
  let all := s.jobs.filterMap fun e =>
    if s.ready e.2 then
      (e.2.current.bind fun x => if s.lacks u x.2.entry then none else
        x.2.runs.find? fun r => r.server == u && (r.mode == .waiting || r.mode == .suspended)).map
        fun r => { job := e.1, run := r, c7 := !s.committed e.1, eff := r.effAt, ord := e.2.acceptSeq }
    else none
  let all := all.filter fun c => !(c.c7 && s.parking u) && (c.run.mode == .suspended || !s.leaving u)
  let com := sortBy Cand.eff (sortBy Cand.ord (all.filter fun c => !c.c7))
  com ++ (if com.isEmpty then sortBy Cand.ord (all.filter fun c => c.c7) else [])

/-- A lane number is a SHA-2 lane. -/
def sha2Lane (l : Nat) : Bool := l < 16

/-- Whether a run may start beside the running ones: it can; its own lane is busy; or it waits for a mode switch or for
every lane, and nothing later may start. -/
inductive Fit
  | start | laneBusy | block
deriving DecidableEq, Repr

/-- A run beside those running on its tile. -/
def fitOf (c : Cand) (running : List Run) : Fit :=
  match c.run.lane with
  | none => if running.isEmpty then .start else .block
  | some l =>
    if running.any fun r => r.lane.isNone then .block
    else if running.any fun r => r.lane.any fun k => sha2Lane k != sha2Lane l then .block
    else if running.any fun r => r.lane == some l then .laneBusy else .start

/-- The first run of the list that may start. -/
def firstFit (running : List Run) : List Cand → Option Cand
  | [] => none
  | c :: rest =>
    match fitOf c running with
    | .start => some c
    | .laneBusy => firstFit running rest
    | .block => none

/-- The HASH tile takes the mode and the slot state that a run needs; what was not needed is returned (02, R56; 06,
R147). A keyed slot load leaves the state that it derives resident on no tile, which R147 leaves open: the first use of the
slot derives it (log 89). -/
def State.prepTile (s : State) (n j : Nat) (c : Cand) : State :=
  match c.run.lane with
  | none =>
    match ((s.job? j).bind Job.current).bind fun x => x.2.mode with
    | none => s
    | some m => s.modTile n fun T => { T with sha2 := m }
  | some l =>
    let T := s.tile n
    let sw := T.sha2 != sha2Lane l
    let t := s.modTile n fun T => { T with sha2 := sha2Lane l }
    let t := if sw then t else t.modJob j fun J => { J with conditional := J.conditional - 32 }
    match (s.job? j).bind (·.slot) with
    | none => t
    | some k =>
      if T.resident.contains k then
        (t.modTile n fun T => { T with resident := k :: T.resident.filter (· != k) }).modJob j fun J =>
          { J with conditional := J.conditional - 400 }
      else t.modTile n fun T => { T with resident := (k :: T.resident).take 128 }

/-- A run starts or resumes on its server. The no-return zone of a durable commit begins with the routine, whose commit point
comes within its first 256 cycles (04, R88; 06, R136; log 86). -/
def State.startRun (s : State) (u : Server) (c : Cand) : State :=
  let t := s.modJob c.job fun J => J.modCurrent fun r =>
    if r.server = u ∧ (r.mode = .waiting ∨ r.mode = .suspended) then { r with mode := .running, started := s.time.elapsed } else r
  let t := t.modJob c.job fun J => { J with zone := J.zone || J.holds }
  match u with
  | .core _ => t
  | .tile n =>
    let t := t.prepTile n c.job c
    let fn := ((t.job? c.job).map (·.fn)).getD 0
    let entry := (((t.job? c.job).bind Job.current).map fun x => x.2.entry).getD 0
    t.modTile n fun T => { T.enter c.job fn entry c.run.windows s.time.elapsed with mode := if T.mode = .idle then .busy else T.mode }

/-- A server takes its next run. -/
def State.dispatch (s : State) (u : Server) : State :=
  let running := ((s.runsAt u).filter fun r => r.run.mode == .running).map (·.run)
  match u with
  | .core c =>
    if (s.core c).stopped || !running.isEmpty then s
    else match s.readyRuns u with
    | [] => s
    | x :: _ => s.startRun u x
  | .tile n =>
    if (s.tile n).serves || (s.tile n).mode == .draining then
      match firstFit running (s.readyRuns u) with
      | none => s
      | some x => s.startRun u x
    else s

/-- DISPATCH (R289). -/
def execDispatch (u : Server) (t : Nat) (s : State) : Out := within (okServer u) s ((s.at_ t).dispatch u)

/-! ### Safe points (04, R85, R88-R92; 08, R192; 12, R293) -/

/-- The hold of a job in the 2 MiB buffer of a SYMM tile, in bytes (08, R192). -/
def Job.hold (J : Job) : Nat :=
  if (kindOf J.opcode = .unseal ∨ kindOf J.opcode = .unwrap) ∧ ¬ fProvisional J.flags.toNat then 65536 * ceilDiv J.totalLen 65536 else 0

/-- The waiting run that preempts job `j` on tile `n`, where the conditions of R91 and R192 hold. -/
def State.preemptor (s : State) (n j : Nat) : Option Cand :=
  match (s.job? j).bind Job.current with
  | none => none
  | some (_, st) =>
    match st.runs.find? fun r => r.server == .tile n && r.mode == .running with
    | none => none
    | some r =>
      let mine := s.committed j
      (s.readyRuns (.tile n)).find? fun c =>
        c.run.mode == .waiting && !c.c7 && (!mine || decide (c.eff < r.effAt)) &&
        (c.run.lane.isNone || r.lane.isNone || c.run.lane == r.lane) &&
        decide ((s.tile n).slots.length < 32) &&
        decide ((((s.runsAt (.tile n)).filter fun x => x.run.mode == .running || x.run.mode == .suspended).map
          (·.run.windows)).sum + c.run.windows ≤ 16) &&
        (st.pers != 5 || decide (((((s.runsAt (.tile n)).filter fun x => x.run.mode == .running || x.run.mode == .suspended).map
          fun x => ((s.job? x.job).map Job.hold).getD 0).sum + ((s.job? c.job).map Job.hold).getD 0) ≤ 2097152))

/-- SAVE: the run of job `j` on tile `n` is suspended into the lowest free slot, what it has executed kept. -/
def State.suspend (s : State) (n j : Nat) : State :=
  let slot := (lowestFree (fun k => (tget (s.tile n).slots k).isSome) 32 0).getD 0
  let t := s.modJob j fun J => J.modCurrent fun r =>
    if r.server = .tile n ∧ r.mode = .running then { r with mode := .suspended, done := s.executed r } else r
  (t.modTile n fun T => T.save j slot).settleTile n

/-- The input that a windowed run has reached is not here yet (12, R293). -/
def State.starved (s : State) (J : Job) : Bool :=
  J.windowed && decide (J.arrived < J.totalLen) &&
  (match J.current with
   | some (_, st) => st.runs.any fun r => r.mode == .running &&
       decide (J.arrived * r.cycles ≤ J.totalLen * (r.cycles - s.remaining r))
   | none => false)

/-- What the routine of a job sees of it on tile `n` (04, R81). -/
def Job.seqIn (J : Job) (n : Nat) : SeqIn :=
  let runs := (J.current.map fun x => x.2.runs).getD []
  { len := J.totalLen, last := decide (J.totalLen ≤ J.arrived) || !J.windowed,
    second := (runs.drop 1).any fun r => r.server == .tile n, det := bitOf J.param.toNat 8 }

/-- The routines of a job come to their next safe point on every tile where they run (04, R85). -/
def State.passPoint (s : State) (j : Nat) (J : Job) : State :=
  eachOf J.tilesOf (fun u n => u.modTile n fun T => T.toSafePoint j s.time.elapsed (J.seqIn n)) s

/-- A waiting run starts in the place of run `r` where nothing else that runs on the tile keeps it from it; else the lanes that
still run come to their own safe points first (02, R56; 04, R80). -/
def State.takeOver (s : State) (n : Nat) (c : Cand) : State :=
  let running := ((s.runsAt (.tile n)).filter fun r => r.run.mode == .running).map (·.run)
  if fitOf c running = .start then s.startRun (.tile n) c else s

/-- SAFE_POINT_ACTION: a running job reaches a safe point. The zone ends; a request is acted on; a job that lacks input
waits; a waiting job of an earlier effective deadline preempts. A routine that waits for the acknowledgement of its durable
commit comes to none (R86). -/
def execSafePointAction (j t : Nat) (s : State) : Out :=
  let u := s.at_ t
  match u.job? j with
  | none => noIndex
  | some J =>
    let v := (u.passPoint j J).modJob j fun J => { J with zone := false, request := .none }
    done s (
      if !J.isRunning || J.atEnd || J.holds then u
      else match J.request with
      | .abort => v.endJob j St.aborted 0
      | .fence => v.endJob j St.fenced 0
      | .safe => v.endJob j St.safeState 0
      | _ =>
        if u.starved J then
          (eachOf J.tilesOf (fun w n => if J.currentHas (.tile n) .running then w.suspend n j else w)
            (v.modJob j fun J => { J with stalled := true, uncovered := true })).bump 0x3002C
        else eachOf J.tilesOf (fun w n =>
          if J.currentHas (.tile n) .running then
            match w.preemptor n j with
            | some c => (w.suspend n j).takeOver n c
            | none =>
              if (w.tile n).parked ∧ ¬ ((w.runsAt (.tile n)).any fun r => w.committed r.job) then (w.suspend n j).parkNow n
              else w
          else w) v)

/-! ### Machine checks (04, R96, R97, R516) -/

/-- A machine check is shown in TILE.MCHECK_INFO and counted. -/
def State.showCheck (s : State) (n cause addr kind : Nat) : State :=
  s.modTile n fun T => { T with mcAddr := addr % 8192, mcKind := kind, mcCause := cause, mcCount := satAdd 32 T.mcCount 1 }

/-- After a control-store, SRAM or watchdog check the tile stops whatever zone its routines are in: what it has suspended and what
runs on its other lanes completes with FENCED, it is fenced, and its SRAM and save slots are scrubbed (R97). -/
def State.checkFence (s : State) (n : Nat) : State :=
  (eachOf ((s.jobsAt (.tile n) .running) ++ (s.jobsAt (.tile n) .suspended)) (fun u k => u.endJob k St.fenced 0) s).fenceTile n 1

/-- A machine check of a tile by job `j`: the job completes with MCHECK and the event is recorded with its AUX. -/
def State.tileCheck (s : State) (n cause addr kind : Nat) (j : Option Nat) : State :=
  let t := s.showCheck n cause addr kind
  let t := match j with
    | some k => t.endJob k St.mcheck 0
    | none => t
  let t := if cause = 1 ∨ cause = 2 ∨ cause = 5 then t.checkFence n else t
  t.event n (0x10 + cause) (addr % 8192 + kind * 8192) j

/-- The tile on which a job runs. -/
def Job.runTile (J : Job) : Option Nat :=
  (J.current.bind fun x => x.2.runs.find? fun r => r.mode == .running).bind fun r =>
    match r.server with
    | .tile n => some n
    | .core _ => none

/-- The tile on which the routine of job `j` that passed its last safe point longest ago runs: the one whose watchdog runs out
(R85). -/
def State.watchTile (s : State) (j : Nat) (J : Job) : Option Nat :=
  let mark := fun n => (((s.tile n).ctxs.find? fun x => x.job == j).map (·.mark)).getD 0
  leastBy mark (J.tilesOf.filter fun n => J.currentHas (.tile n) .running)

/-- WATCHDOG: a running job has gone more than 4,096 micro-cycles without a safe point (R85). -/
def execWatchdog (j microCycles addr t : Nat) (s : State) : Out :=
  let u := s.at_ t
  match u.job? j with
  | none => noIndex
  | some J =>
    done s (match u.watchTile j J with
      | some n => if 4096 < microCycles then u.tileCheck n 5 addr 0 (some j) else u
      | none => u)

/-- The tile is fenced for its reload and self-test (R97). -/
def Tile.inSelfTest (T : Tile) : Bool :=
  !T.returning && !T.bySafe && (T.mode == .selfTest || (T.mode == .fenced && (T.fence == 1 || T.fence == 3)))

/-- MACHINE_CHECK of tile `n`: a tile that fails its self-test stays fenced with reason 2 (R98). The job of an SRAM error is the one
whose window held the word, be it suspended; for SLOT_UE the job in the failing slot completes and the running one goes on. -/
def execMachineCheck (n cause addr : Nat) (job : Option Nat) (t : Nat) (s : State) : Out :=
  let u := s.at_ t
  let at_ := fun m => job.bind fun j => if ((u.job? j).map fun J => J.currentHas (.tile n) m).getD false then some j else none
  let run := at_ .running
  within (okTile n) s
    (if (u.tile n).mode = .absent then u
     else if cause = 1 ∨ cause = 8 then u.tileCheck n cause addr 0 run
     else if cause = 2 then u.tileCheck n 2 addr 0 (run.orElse fun _ => at_ .suspended)
     else if cause = 3 then
       (u.tileCheck n 3 addr 1 (tget (u.tile n).slots addr)).modTile n fun T => { T with
         slots := tdel T.slots addr, saved := tdel T.saved addr }
     else if cause = 7 then
       (u.tileCheck n 7 0 2 run).modTile n fun T => if (u.tile n).inSelfTest then { T with mode := .fenced, fence := 2 } else T
     else u)

/-! ### Commits (04, R86, R87; 06, R135-R137; 08, R181) -/

/-- The upper leaf that a preparation signs its root with is reserved (06, R139). -/
def State.commitTree (s : State) (i : Nat) : State :=
  (s.modKey i fun K => { K with hbs := K.hbs.map fun H => { H with upperUsed := H.nextTree + 1 } }).sealShadow i

/-- The range that a job's durable commit names is reserved: the key's RESERVED_END or checkpoint moves on. -/
def State.commitRange (s : State) (J : Job) : State :=
  match J.out.bind (·.tree), J.pin with
  | some i, _ => s.commitTree i
  | none, none => s
  | none, some i =>
    match J.leaf, J.ctr with
    | some v, _ =>
      (s.modKey i fun K => { K with hbs := K.hbs.map fun H =>
        let e := H.blockEnd v
        { H with reserved := max H.reserved e, pendingTo := if H.pendingTo = some e then none else H.pendingTo } }).sealShadow i
    | none, some _ =>
      let c := s.counter i
      { s with keys := { s.keys with counters := tput s.keys.counters i { c with ckpt := c.pending.getD c.ckpt, pending := none } } }
    | none, none => s

/-- COMMIT_ACK: the NVS acknowledges the durable commit of a running job; the job is in a no-return zone until its next
safe point. -/
def execCommitAck (j t : Nat) (s : State) : Out :=
  let u := s.at_ t
  match u.job? j with
  | none => noIndex
  | some J =>
    done s (
      if ¬ J.holds then u
      else (u.commitRange J).modJob j fun J => { J with commit := .acked, zone := true })

/-- The range that a failed commit named counts as consumed: the next value lies beyond it (R87). A job that waits for it commits a
range of its own before it uses its value (log 87). -/
def State.consumeRange (s : State) (J : Job) : State :=
  let t := s.commitRange J
  match J.pin with
  | none => t
  | some i =>
    match J.leaf, J.ctr with
    | some v, _ => t.modKey i fun K => { K with hbs := K.hbs.map fun H => { H with next := H.skip (max H.next (H.blockEnd v)) } }
    | none, some v => t.modKey i fun K => { K with ctr := max K.ctr (K.rangeEnd v) }
    | none, none => t

/-- COMMIT_TIMEOUT: no acknowledgement in 2,048 cycles; the range counts as consumed and the job completes with MCHECK
(R87). -/
def execCommitTimeout (j addr t : Nat) (s : State) : Out :=
  let u := s.at_ t
  match u.job? j with
  | none => noIndex
  | some J =>
    done s (
      match J.runTile with
      | some n => if ¬ J.holds then u else (u.consumeRange J).tileCheck n 4 addr 0 (some j)
      | none => u)

/-! ### The end of a run (01, R26; 04, R93-R95; 02, R46) -/

/-- The job's queue has been armed by an earlier FORCE_COMPARE_FAIL (02, R46). -/
def State.armedFor (s : State) (J : Job) : Option Nat :=
  match J.src with
  | .ring q => if (s.queue q).armed ∧ (s.queue q).armedAt < J.seq then some q else none
  | .internal => none

/-- The tiles that the runs of a step take. -/
def JobStep.tiles (st : JobStep) : List Nat :=
  st.runs.filterMap fun r => match r.server with | .tile n => some n | .core _ => none

/-- An AL2 comparison failed: the job completes with MCHECK, what a PROVISIONAL_OK decryption wrote is zeroed whole and what
another job released as far as it was released (08, R186), and the mismatch is recorded on every tile that took part, a signing
tile with the one that verified (04, R95, R516). Two runs on one tile have no other tile of the pair: AUX names the tile itself
(log 90). The address of the word executing in the tile at detection is free. -/
def State.al2Mismatch (s : State) (j : Nat) (J : Job) (st : JobStep) (inj : Bool) : State :=
  let whole := (kindOf J.opcode == .unseal || kindOf J.opcode == .unwrap) && J.released != 0
  let full := (J.out.map fun o => o.output.length).getD J.released
  let t := s.modJob j fun J => { J with
    inj := J.inj || inj, released := if whole then max J.released full else J.released }
  let inTile := st.pers == 5
  let tiles := (st.tiles ++ (if st.kind = .verifyAfterSign then (J.mainStep.map JobStep.tiles).getD [] else [])).eraseDups
  let t := eachOf tiles (fun u n =>
    if inTile then u.showCheck n 6 (Config.primNat (.image 24) [le 8 j, le 8 s.time.elapsed, le 1 n]) 0 else u.showCheck n 6 0 2) t
  let t := t.endJob j St.mcheck 0
  let other (n : Nat) : Nat := (tiles.find? (· != n)).getD n
  eachOf tiles (fun u n =>
    if inj then (u.modJob j fun K => { K with inj := true }).eventInj n 0x16 (other n) (some j)
    else u.event n 0x16 (other n) (some j)) t

/-- A new key at a reserved index comes to life, its record sealed into the key store (09, R199, R201, R203, R209). -/
def State.addKey (s : State) (i : Nat) (K : Key) : State :=
  let K := { K with created := s.helmTime }
  { s with keys := { s.keys with
      live := tput s.keys.live i K,
      created := s.keys.created + 1,
      counters := if K.persistent then tput s.keys.counters i {} else s.keys.counters } }.sealKey i K

/-- The gate of a job is closed, and whether for the safe state (01, R26). -/
def State.gateOf (s : State) (J : Job) : Option Bool := tget s.faults.safe.gates (J.quadrant.getD 4)

/-- The KEYS events (15, R356): GET_IMPORT_KEY, IMPORT, EXPORT_WRAPPED, and DESTROY of a persistent key. -/
def State.keyEvent (s : State) (J : Job) (handle : Nat) (K : Key) : State :=
  s.logEvent 4 0x0040 (le 2 J.opcode ++ le 2 J.fn ++ le 4 handle ++ le 2 K.alg ++ sha384 (attrBytes K))

/-- The event of a family 0x8 job that ends well. -/
def State.keyLogged (s : State) (J : Job) (o : JobOut) : State :=
  let h := if J.opcode = 0x8200 then J.handle else o.result % 2 ^ 32
  if J.opcode = 0x8100 ∨ J.opcode = 0x8200 ∨ J.opcode = 0x8500 then
    (match s.key? (handleIdx h) with
     | some K => s.keyEvent J h K
     | none => s)
  else s

/-- The next tree of a stateful key is ready, and the roots above it are signed (06, R139). -/
def State.treeReady (s : State) (i : Nat) : State :=
  match (s.key? i).bind (·.hbs) with
  | none => s
  | some H =>
    let r := H.signRoots H.nextTree s.draws
    ((s.modKey i fun K => { K with hbs := some { r.1 with
      preparing := false, ready := min (H.skip H.ready + max H.perTree 1) H.limit } }).sealShadow i).drawn r.2

/-- What a job's result makes of the state besides its output: keys, the keyed slot that it loads or drops, a tree. -/
def State.settleOut (s : State) (o : JobOut) : State :=
  let t := o.keys.foldl (fun u k => u.addKey k.1 k.2) s
  let t := match o.tree with
    | some i => t.treeReady i
    | none => t
  let t := match o.bind with
    | some (k, b) => { t with keys := { t.keys with slots := tput t.keys.slots k b } }
    | none => t
  match o.drop with
  | some k => t.dropSlots fun i _ => i == k
  | none => t

/-- The end of a job that succeeded, its output released: through the gate, to a range that can be translated, or into a
logbook register by a posted extend (01, R26; 06, R149, R150; 10, R241). -/
def State.release (s : State) (j : Nat) (J : Job) (o : JobOut) : State :=
  match s.gateOf J with
  | some safe => s.endJob j (if safe then St.safeState else St.fenced) 0
  | none =>
    let rest := o.output.drop J.released
    match (if rest.isEmpty then none else s.wrFault (s.memOf J) (J.dst + J.released) rest.length) with
    | some k => (s.busError j).endJob j St.dstFault (J.released + k)
    | none =>
      let t := ((s.wr (s.memOf J) (J.dst + J.released) rest).settleOut o).keyLogged J o
      match o.extend with
      | some (r, d) =>
        let t := t.modJob j fun J => { J.mapRuns (fun _ r => { r with mode := .ended }) with
          atEnd := true, commit := .posted, al2Done := J.al2, newIdx := [] }
        eachOf J.tilesOf State.settleTile
          { t with log := { t.log with posted := t.log.posted ++ [(r, .extend d (some j))] } }
      | none =>
        let t := t.modJob j fun J => { J with released := 0, newIdx := [] }
        let t := (t.endJob j o.status o.result o.ret).modJob j fun J => { J with al2Done := J.al2 }
        if o.tree.isSome ∨ o.gone then t.dropJob j else t

/-- The job's last run has ended and every comparison matched, or its operation failed. A sampling shortfall or a runaway loop is
recorded on the tile or core that computed, and so is a KNOWN_ANSWER mismatch, on a tile as a machine check (05, R117; 02, R513;
04, R96). -/
def State.finish (s : State) (j : Nat) (J : Job) : State :=
  match J.out with
  | none => s
  | some o =>
    if o.status = St.ok then s.release j J o
    else
      let t := if o.badKey then
          (match J.pin with | some k => s.modKey k fun K => { K with invalid := true } | none => s) else s
      let t := if o.status = St.tagFail ∧ 0 < J.released then t.modJob j fun J => { J with released := o.output.length } else t
      let t := match s.gateOf J with
        | some safe => t.endJob j (if safe then St.safeState else St.fenced) 0
        | none => t.endJob j o.status o.result o.ret
      let t := if o.status = St.verifyFail ∨ o.status = St.tagFail then t.modJob j fun K => { K with al2Done := K.al2 && K.status == o.status } else t
      if o.status = St.mcheck then
        match (J.mainStep.bind fun st => st.runs.head?).map Run.server with
        | some (.tile n) => if J.opcode = 0xF001 then t.tileCheck n 7 0 2 (some j) else t.event n 0x19 0 (some j)
        | some (.core c) => t.event (128 + c) (if J.opcode = 0xF001 then 0x17 else 0x19) 0 (some j)
        | none => t
      else t

/-- Mark the `k`-th run of a list as ended. -/
def endRun (runs : List Run) (k : Nat) : List Run :=
  match runs, k with
  | [], _ => []
  | r :: rs, 0 => { r with mode := .ended } :: rs
  | r :: rs, k + 1 => r :: endRun rs k

/-- Mark the `k`-th run of the `i`-th step as ended. -/
def endRunAt (steps : List JobStep) (i k : Nat) : List JobStep :=
  match steps, i with
  | [], _ => []
  | x :: xs, 0 => { x with runs := endRun x.runs k } :: xs
  | x :: xs, i + 1 => x :: endRunAt xs i k

/-- One run of the current step ends; the last of a step may end the job, and the main step ends it when its operation failed:
nothing is left to compare. The main step cannot end before its durable commit is acknowledged or times out (04, R87). -/
def State.runEnd (s : State) (j : Nat) (J : Job) (mismatch : Bool) : State :=
  match J.current with
  | none => s
  | some (i, st) =>
    if st.kind = .main ∧ (J.out.isNone ∨ J.durable) then s
    else match (stepsFrom 0 (st.runs.map fun r => { st with runs := [r] })).find? fun x => x.2.runs.any fun r => r.mode == .running with
    | none => s
    | some (k, one) =>
      let srv := (one.runs.head?).map (·.server)
      let t := s.modJob j fun J => { J with steps := endRunAt J.steps i k }
      let t := match srv with
        | some (.tile n) => (t.modTile n fun T => { T.leave j with jobs := (T.jobs + 1) % 2 ^ 64 }).settleTile n
        | _ => t
      if (st.runs.filter fun r => r.mode != .ended).length ≠ 1 then t
      else
        let failed := st.kind == .main && (J.out.any fun o => o.status != St.ok) && J.opcode != 0xF001
        let last := decide (i + 1 = J.steps.length) || failed
        let compares := J.al2 && st.cmp
        match (if compares then s.armedFor J else none) with
        | some q => (t.modQueue q fun Q => { Q with armed := false }).al2Mismatch j J st true
        | none =>
          if compares && mismatch then t.al2Mismatch j J st false
          else if last then t.finish j J else t

/-- RUN_END (R26, R94). A windowed job ends only once its input has all arrived; the steps of an order after its
signature checks end with DECISION_COMMIT. -/
def execRunEnd (j : Nat) (mismatch : Bool) (t : Nat) (s : State) : Out :=
  let u := s.at_ t
  match u.job? j with
  | none => noIndex
  | some J =>
    done s (
      if J.phase ≠ .placed ∨ J.atEnd ∨ ¬ J.isRunning ∨ J.opcode = 0x8300 ∨
          (famOf J.opcode = 9 ∧ (J.current.map fun x => x.2.kind) ≠ some .authVerify) ∨ (J.windowed ∧ (J.arrived < J.totalLen ∨ (J.out.map JobOut.seen).getD J.arrived < J.arrived)) then u
      else match J.request with
      | .abort => u.endJob j St.aborted 0
      | .fence => u.endJob j St.fenced 0
      | .safe => u.endJob j St.safeState 0
      | _ => u.runEnd j J mismatch)

/-- SEGMENT_RELEASE: the next 16 KiB segment of a streamed output is released once its comparison has matched; the tag of
an encryption waits for the end (08, R185, R186). -/
def execSegmentRelease (j : Nat) (mismatch : Bool) (t : Nat) (s : State) : Out :=
  let u := s.at_ t
  match u.job? j with
  | none => noIndex
  | some J =>
    done s (
      match J.out, J.current with
      | some o, some (_, st) =>
        let data := (if kindOf J.opcode = .seal ∧ J.totalLen ≤ o.seen then o.output.length - tagLen J.opcode J.param.toNat else o.output.length)
        let n := min 16384 (data - J.released)
        if !J.streams || !J.isRunning || J.holds || J.phase ≠ .placed || n = 0 then u
        else match (if J.al2 then u.armedFor J else none) with
        | some q => (u.modQueue q fun Q => { Q with armed := false }).al2Mismatch j J st true
        | none =>
          if J.al2 && mismatch then u.al2Mismatch j J st false
          else match u.gateOf J with
          | some safe => u.endJob j (if safe then St.safeState else St.fenced) 0
          | none =>
            match u.wrFault (u.memOf J) (J.dst + J.released) n with
            | some k => u.endJob j St.dstFault (J.released + k)
            | none =>
              (u.wr (u.memOf J) (J.dst + J.released) (sliceOf o.output J.released n)).modJob j fun J =>
                { J with released := J.released + n }
      | _, _ => u)

/-- LOGBOOK_EXTEND: the first posted extend that nothing holds back is applied; a job's extend returns its counter value
(01, R28; 15, R353-R357). -/
def execLogbookExtend (t : Nat) (s : State) : Out :=
  let u := s.at_ t
  let isReady := fun (x : Nat × LogWork) => match x.2 with
    | .extend _ (some j) => u.logReady x.1 j
    | _ => true
  done s (match u.log.posted.find? isReady with
    | none => u
    | some x =>
      let v := { u with log := { u.log with posted := u.log.posted.erase x } }
      match x.2 with
      | .extend d (some j) =>
        let w := v.extendBy x.1 d
        let L := w.logReg x.1
        (w.logUnreserve x.1 j).modJob j fun J => { J with
          phase := .ended, status := if J.phase = .ended then J.status else St.ok,
          result := if J.phase = .ended then J.result else L.count + x.1 * 2 ^ 32 + L.epoch * 2 ^ 48, logRes := none }
      | other => v.logWork x.1 other)

/-! ### The completion (10, R245-R248; 21, R472) -/

/-- One step of xorshift32. -/
def xorshift32 (x : BitVec 32) : BitVec 32 :=
  let a := x ^^^ (x <<< 13)
  let b := a ^^^ (a >>> 17)
  b ^^^ (b <<< 5)

/-- The delay of a completion of a function, in µs, and its generator after the draw. -/
def delayOf (F : Fn) : Nat × BitVec 32 :=
  if bitOf F.ctrl.toNat 1 then ((xorshift32 F.rng).toNat % (F.delayUs + 1), xorshift32 F.rng) else (F.delayUs, F.rng)

/-- A chain that is still open keeps its completion back until LAST has been consumed (R239). -/
def State.chainOpen (s : State) (j : Nat) (J : Job) : Bool := s.openChainOf J == some j

/-- COMPLETION_WRITE: the completion of an ended job is written, or enters its function's delay line. -/
def execCompletionWrite (j t : Nat) (s : State) : Out :=
  let u := s.at_ t
  match u.job? j with
  | none => noIndex
  | some J =>
    let F := u.fn J.fn
    done s (
      if J.phase ≠ .ended ∨ u.chainOpen j J then u
      else if F.pert && bitOf F.ctrl.toNat 0 && J.src != .internal then
        let d := delayOf F
        let v := u.modFn J.fn fun F => { F with rng := d.2 }
        let v := v.modJob j fun J => { J with acted := true }
        if d.1 = 0 then v.complete j
        else v.modJob j fun J => { J with phase := .delayed, delayEnd := u.time.elapsed + 1000 * d.1 }
      else u.complete j)

/-- PERT_COMPLETION_DELAY: a delayed completion is written once its delay has passed. -/
def execPertCompletionDelay (j t : Nat) (s : State) : Out :=
  let u := s.at_ t
  match u.job? j with
  | none => noIndex
  | some J => done s (if J.phase = .delayed ∧ J.delayEnd ≤ u.time.elapsed then u.complete j else u)

/-- A routine has a loop with a budget, or samples from a public seed, which may fall short and read on (05, R117, R118). -/
def loops (entry : Nat) : Bool :=
  (loopOf entry).isSome || famOf entry == 1 || bitsOf entry 15 8 == 0x20 || bitsOf entry 15 8 == 0x21 || bitsOf entry 15 8 == 0x22

/-- REJECTION_BUDGET_END: a job past the budget of the loop that it runs goes on as C7, and so does one whose sampling from a
public seed fell short (05, R117, R118). -/
def execRejectionBudgetEnd (j t : Nat) (s : State) : Out :=
  let u := s.at_ t
  match u.job? j with
  | none => noIndex
  | some J => done s (if (J.current.any fun x => loops x.2.entry) && J.isRunning then u.modJob j fun J => { J with overrun := true } else u)

/-! ### Preparation and destruction (06, R139; 09, R219) -/

/-- A preparation job for the key at an index is in flight. -/
def State.prepares (s : State) (i : Nat) : Bool :=
  s.jobs.any fun e => e.2.phase != .ended && (e.2.out.any fun o => o.tree == some i)

/-- What a preparation brings to placement: class C7 under the key's owner. -/
def State.prepDemand (s : State) (K : Key) (H : Hbs) : Demand :=
  { fn := K.owner, cls := 7, quad := s.stageQuad (s.route K.owner 7 2), len := 0, lat := 0, post := 0, slot := none,
    plan := [{ kind := .main, pers := 2, cyc := prepCycles K.alg H H.nextTree, entry := K.alg, mode := some (!hbsShake K.alg H) }] }

/-- The preparation job that is due for a key starts in class C7 on the tile that R289 gives; it stays due while there is none. Its
routine carries the durable commit of the upper leaf. -/
def State.startPrepJob (s : State) (i : Nat) (K : Key) (H : Hbs) : State :=
  let D := s.prepDemand K H
  match s.placePlan D 0 with
  | none => s
  | some steps =>
    let w := s.nextSeq
    let J : Job := { src := .internal, fn := K.owner, opcode := K.alg, cls := 7, seq := w, phase := .staged, quadrant := some D.quad,
                     commit := .needed, out := some { tree := some i } }
    { s with jobs := tput s.jobs w J, nextSeq := w + 1 }.acceptJob w steps [] 7 0 false

/-- HBS_PREPARATION: the device starts the C7 job that prepares the next bottom tree of a key, where it is due; the tree is ready when
that job ends (R139). -/
def execHbsPreparation (key t : Nat) (s : State) : Out :=
  let u := s.at_ t
  done s (match u.key? key with
    | none => u
    | some K => match K.hbs with
      | none => u
      | some H =>
        if ¬ H.preparing ∨ u.prepares key ∨ u.faults.safe.on ∨ u.chartStops ∨ (u.fn K.owner).quiesce.isSome ∨ (u.fn K.owner).flr then u
        else u.startPrepJob key K H)

/-- A key is destroyed: its cache slots, copies, counter record and keyed slots go; its index is free again unless its
generation is 255 (09, R201, R219). -/
def State.dropKey (s : State) (i : Nat) : State :=
  let h := mkHandle i ((tget s.keys.gens i).getD 0)
  let s := match s.key? i with | some K => s.unsealKey i K | none => s
  let t := { s with keys := { s.keys with
    live := tdel s.keys.live i, cache := tdel s.keys.cache i, counters := tdel s.keys.counters i } }
  t.dropSlots fun _ b => b.key == h

/-- DESTROY_SCRUB: the scrub of a DESTROY ends, nothing pinning the key any more; its completion follows. -/
def execDestroyScrub (j t : Nat) (s : State) : Out :=
  let u := s.at_ t
  match u.job? j with
  | none => noIndex
  | some J =>
    let i := handleIdx J.handle
    done s (
      if J.opcode ≠ 0x8300 ∨ J.out.isNone ∨ u.pinned i ∨ J.phase = .ended then u
      else
        let v := match u.key? i with
          | some K => if K.persistent then u.keyEvent J J.handle K else u
          | none => u
        (v.dropKey i).endJob j St.ok 0)

end Sys2Proof.Machine
end

