-- ==== Sys2Proof/Machine/Admin.lean ====
section
/-! DEFINITION. The administrative commands of queues 0 but for those of charts and the exit from the safe state
(11_functions_and_sharing.md R253-R268, R275; 21, R471). -/

namespace Sys2Proof.Machine

/-! ### The form of an administrative command (R255-R257, R272) -/

/-- The commands that run in the safe state (R272). -/
def safeOps : List Nat := [0x0006, 0x0012, 0x0020, 0x0021]

/-- An earlier command of the same queue 0 has not been executed yet (R257). -/
def State.adminBefore (s : State) (J : Job) : Bool :=
  s.jobs.any fun e => e.2.src == J.src && e.2.seq < J.seq &&
    (e.2.phase == .fetch || e.2.phase == .staged || e.2.phase == .openChain)

/-- A command met by the safe state: a chart is refused with the reason SAFE (R272; 03, R63). -/
def State.safeRefuse (s : State) (op j : Nat) : State :=
  if op = 0x0010 ∨ op = 0x0011 then
    { s with chart := { s.chart with lastReason := 0x000C } }.endAdmin j St.safeState 0x000C
  else s.endAdmin j St.safeState 0

/-- An administrative command executes in its turn; in the safe state only four do (R272). -/
def adminRow (op j : Nat) (f : State → Job → State) (s : State) : Out :=
  match s.job? j with
  | none => noIndex
  | some J =>
    done s (
      if J.opcode ≠ op ∨ J.phase ≠ .staged ∨ s.adminBefore J ∨ s.fenceWaits J then s
      else if s.faults.safe.on ∧ ¬ safeOps.contains op then s.safeRefuse op j
      else f s J)

/-- A command is refused with a reason (R253). -/
def State.deny (s : State) (j reason : Nat) : State := s.endAdmin j St.policyDeny reason

/-- A field is outside its range (R255). -/
def State.badField (s : State) (j : Nat) : State := s.endAdmin j St.malformed 0

/-- A response block is written at DST; one that cannot be written is DST_FAULT (10, R241). -/
def State.reply (s : State) (j : Nat) (J : Job) (block : Bytes) (result : Nat) (ret : Bytes := []) : State :=
  match s.wrFault (s.memOf J) J.dst block.length with
  | some k => s.endAdmin j St.dstFault k
  | none => (s.wr (s.memOf J) J.dst block).endAdmin j St.ok result ret

/-- A function exists: PF0, the two reserved functions, and the VFs that SR-IOV has enabled (R253). -/
def State.fnExists (s : State) (f : Nat) : Bool :=
  f == 0 || f == 0x100 || f == 0x101 || (f < 0x100 && (s.fn f).enabled)

/-- A background command names function `f` already (R257). -/
def State.fnBusy (s : State) (f : Nat) : Bool := (s.fn f).quiesce.isSome || (s.fn f).change.isSome || !(s.fn f).flrJobs.isEmpty

/-- A background command names queue `q` already. -/
def State.queueBusy (s : State) (q : Nat) : Bool := s.jobs.any fun e =>
  match e.2.bg with
  | some (p, _) => p == q
  | none => false

/-! ### CREATE_QUEUE (R258, R259) -/

/-- A ring size is one of 2^4 to 2^16 entries. -/
def ringSizeOk (n : Nat) : Bool := decide (4 ≤ n) && decide (n ≤ 16)

/-- The request block of CREATE_QUEUE is in order for function `f` (R258). -/
def createOk (b : Bytes) (f : Nat) : Bool :=
  let attr := leAt b 18 2
  leAt b 0 8 % 4096 == 0 && leAt b 8 8 % 4096 == 0 && ringSizeOk (leAt b 16 1) && ringSizeOk (leAt b 17 1) &&
  attr < 32 && leAt b 20 2 < (if f = 0 then 2048 else 64) && decide (1 ≤ leAt b 22 2) && decide (leAt b 22 2 ≤ 256) &&
  decide (leAt b 24 2 ≤ 1000) && allZero (sliceOf b 26 6) && allZero (sliceOf b 40 8) &&
  (if bitOf attr 2 then leAt b 32 8 % 4 == 0 else leAt b 32 8 == 0)

/-- The lowest free global queue ID. -/
def State.freeQueue (s : State) : Option Nat := lowestFree (fun q => (s.queue q).mode != .absent) 3840 256

/-- The lowest free local number of a VF. -/
def State.freeLocal (s : State) (f : Nat) : Option Nat :=
  lowestFree (fun n => (s.queuesOf f).any fun q => (s.queue q).lnum == n) 63 1

/-- The queue that a request block describes (R258, R259). -/
def newQueue (b : Bytes) (f q n : Nat) : Queue :=
  let attr := leAt b 18 2
  { mode := .enabled, fn := f, lnum := if f = 0 then q else n, sqBase := leAt b 0 8, cqBase := leAt b 8 8,
    sqLog2 := leAt b 16 1, cqLog2 := leAt b 17 1, chained := bitOf attr 0, safety := bitOf attr 1, poll := bitOf attr 2,
    prio := bitsOf attr 4 3, vector := leAt b 20 2, modCount := leAt b 22 2, modTime := leAt b 24 2, tailWord := leAt b 32 8 }

/-- CREATE_QUEUE on behalf of a job. -/
def State.createQueue (s : State) (j : Nat) (J : Job) : State :=
  let b := J.input
  let f := J.fn
  let held := ((s.queuesOf f).filter fun q => 256 ≤ q && q < 4096).length
  if J.param ≠ 0 ∨ ¬ createOk b f then s.badField j
  else match s.freeQueue, (if f = 0 then some 0 else s.freeLocal f) with
  | some q, some n =>
    if (s.fn f).maxQueues ≤ held then s.endAdmin j St.queueLimit 0
    else if bitOf (leAt b 18 2) 1 ∧ ¬ (s.fn f).safety then s.deny j 0x0106
    else if bitOf (leAt b 18 2) 2 ∧ ¬ s.host.cache then s.deny j 0x0107
    else (s.modQueue q fun _ => newQueue b f q n).endAdmin j St.ok (q + (if f = 0 then q else n) * 2 ^ 16)
  | _, _ => s.endAdmin j St.queueLimit 0

/-- CREATE_QUEUE. -/
def execCreateQueue (j : Nat) (s : State) : Out := adminRow 0x0001 j (fun s J => s.createQueue j J) s

/-! ### DESTROY_QUEUE and ENABLE_QUEUE (R260, R261) -/

/-- A job of a queue that is being destroyed ends as the abort option of QUIESCE_FUNCTION ends it. -/
def State.endQueue (s : State) (q : Nat) : State :=
  let t := s.modQueue q fun Q => { Q with mode := .quiescing, armed := false, cqWait := false, cache := [] }
  eachOf (t.jobsOfQueue q) State.abortJob t

/-- DESTROY_QUEUE on behalf of a job: the queue as the issuing function addresses it. -/
def State.destroyQueue (s : State) (j : Nat) (J : Job) : State :=
  let p := J.param.toNat
  if 4096 ≤ p then s.badField j
  else match s.addressed J.fn p with
  | none => s.deny j 0x0102
  | some q =>
    if q < 256 then s.deny j 0x0108
    else if s.queueBusy q then s.deny j 0x0103
    else ((s.modJob j fun J => { J with phase := .background, bg := some (q, 0) }).endQueue q).settle

/-- DESTROY_QUEUE. -/
def execDestroyQueue (j : Nat) (s : State) : Out := adminRow 0x0002 j (fun s J => s.destroyQueue j J) s

/-- ENABLE_QUEUE on behalf of a job: a fenced or quiescing queue resumes once the jobs consumed before are complete; a new head ends
the skip of an abandoned chain (10, R515). -/
def State.enableQueue (s : State) (j : Nat) (J : Job) : State :=
  let p := J.param.toNat
  let q := bitsOf p 11 0
  let Q := s.queue q
  let head := BitVec.ofNat 32 (bitsOf p 63 32)
  if bitsOf p 15 12 ≠ 0 ∨ bitsOf p 31 17 ≠ 0 ∨ (¬ bitOf p 16 ∧ bitsOf p 63 32 ≠ 0) then s.badField j
  else if Q.mode = .absent then s.deny j 0x0102
  else if Q.mode ≠ .fenced ∧ Q.mode ≠ .quiescing then s.deny j 0x0108
  else if s.queueBusy q then s.deny j 0x0103
  else if bitOf p 16 ∧ diff32 Q.sqTail Q.sqHead < diff32 head Q.sqHead then s.badField j
  else
    let t := if bitOf p 16 then s.modQueue q fun Q => { Q with sqHead := head, skip := false, cache := [] } else s
    (t.modJob j fun J => { J with phase := .background, bg := some (q, 0) }).settle

/-- ENABLE_QUEUE. -/
def execEnableQueue (j : Nat) (s : State) : Out := adminRow 0x0003 j (fun s J => s.enableQueue j J) s

/-! ### SET_SHARE (R263-R265) -/

/-- The share entries of a request block. -/
def shareEntries (b : Bytes) : List (Nat × Nat) :=
  (List.range (leAt b 2 1)).map fun i => (leAt b (16 + 4 * i) 1, leAt b (18 + 4 * i) 2)

/-- The request block of SET_SHARE is in order (R263). -/
def shareOk (b : Bytes) : Bool :=
  let f := leAt b 0 2
  let n := leAt b 2 1
  let fl := leAt b 3 1
  let es := shareEntries b
  decide (16 ≤ b.length) && n ≤ 33 && b.length == 16 + 4 * n && fl < 4 && leAt b 5 1 == 0 && allZero (sliceOf b 8 8) &&
  ((List.range n).all fun i => leAt b (17 + 4 * i) 1 == 0) && (es.all fun e => e.1 ≤ 32 && e.2 ≤ 1024) &&
  (es.map (·.1)).eraseDups.length == n && f ≤ 0x101 &&
  (!bitOf fl 0 || (decide (1 ≤ leAt b 4 1) &&
    decide (leAt b 6 2 ≤ (if f = 0 then 3840 else if f < 0x100 then 63 else 0)))) &&
  (bitOf fl 0 || !bitOf fl 1)

/-- The share of function `f` in group `g` once every change that waits for the tick is in force. -/
def State.shareNext (s : State) (f g : Nat) : Nat :=
  match (s.fn f).change with
  | some c => ((c.shares.find? fun e => e.1 == g).map (·.2)).getD (s.shareOf f g)
  | none => s.shareOf f g

/-- A request would make the shares of a group exceed 1,024 (R264). -/
def State.shareOver (s : State) (f : Nat) (es : List (Nat × Nat)) : Bool :=
  es.any fun e => decide (1024 < e.2 + ((s.sharers.filter (· != f)).map fun g => s.shareNext g e.1).sum)

/-- SET_SHARE on behalf of a job: the change waits for the tick; a later one for the same function replaces it. -/
def State.setShare (s : State) (j : Nat) (J : Job) : State :=
  let b := J.input
  let f := leAt b 0 2
  let fl := leAt b 3 1
  if J.param ≠ 0 ∨ ¬ shareOk b then s.badField j
  else if ¬ s.fnExists f then s.deny j 0x0102
  else if (s.fn f).quiesce.isSome ∨ ¬ (s.fn f).flrJobs.isEmpty then s.deny j 0x0103
  else if s.shareOver f (shareEntries b) then s.deny j 0x0105
  else
    let before := ((s.fn f).change.map (·.jobs)).getD []
    (s.modJob j fun J => { J with phase := .background }).modFn f fun F => { F with change := some {
      jobs := before ++ [j], shares := shareEntries b,
      limits := if bitOf fl 0 then some (leAt b 4 1, leAt b 6 2, bitOf fl 1) else none } }

/-- SET_SHARE. -/
def execSetShare (j : Nat) (s : State) : Out := adminRow 0x0004 j (fun s J => s.setShare j J) s

/-! ### QUIESCE_FUNCTION and QUERY_FUNCTION (R266, R275) -/

/-- QUIESCE_FUNCTION on behalf of a job. -/
def State.quiesceFunction (s : State) (j : Nat) (J : Job) : State :=
  let p := J.param.toNat
  let f := bitsOf p 15 0
  if bitsOf p 63 17 ≠ 0 then s.badField j
  else if 0x100 ≤ f ∨ ¬ s.fnExists f then s.deny j 0x0102
  else if s.fnBusy f then s.deny j 0x0103
  else ((s.modJob j fun J => { J with phase := .background }).quiesce f (bitOf p 16) (some j)).settleQuiesce f

/-- QUIESCE_FUNCTION. -/
def execQuiesceFunction (j : Nat) (s : State) : Out := adminRow 0x0005 j (fun s J => s.quiesceFunction j J) s

/-- STATE of a function (R275). -/
def State.fnState (s : State) (f : Nat) : Nat :=
  let F := s.fn f
  if ¬ s.fnExists f then 0 else if F.flr then 4 else if F.quiesce.isSome then 2 else if F.quiesced then 3 else 1

/-- Queues of a function besides its queue 0. -/
def State.queuesHeld (s : State) (f : Nat) : Nat := ((s.queuesOf f).filter fun q => 256 ≤ q).length

/-- The response block of QUERY_FUNCTION (R275). -/
def State.fnBlock (s : State) (f : Nat) : Bytes :=
  let F := s.fn f
  le 2 f ++ le 1 (s.fnState f) ++ le 1 (b2n F.safety + 2 * b2n F.pert + 4 * b2n F.scrub) ++ le 2 (s.queuesHeld f) ++
  le 2 F.maxQueues ++ le 1 F.weight ++ zeros 3 ++ le 4 (s.jobsOfFn f).length ++
  ((List.range 32).flatMap fun g => le 2 (s.shareOf f g)) ++ le 2 (s.shareOf f 32) ++ zeros 14

/-- QUERY_FUNCTION on behalf of a job: a VF asks only about itself. -/
def State.queryFunction (s : State) (j : Nat) (J : Job) : State :=
  let p := J.param.toNat
  if 0x10000 ≤ p then s.badField j
  else if J.fn ≠ 0 ∧ p ≠ J.fn then s.deny j 0x0100
  else if ¬ s.fnExists p then s.deny j 0x0102
  else s.reply j J (s.fnBlock p) 0

/-- QUERY_FUNCTION. -/
def execQueryFunction (j : Nat) (s : State) : Out := adminRow 0x0006 j (fun s J => s.queryFunction j J) s

/-! ### QUERY_PROGRESS (R275; 20, R467; 05, R122; 06, R128, R138; 07, R162, R173) -/

/-- The operation that a job reports progress under, and its total. -/
def jobOperation (op p : Nat) : Option (Nat × Nat) :=
  match op / 0x100 with
  | 0x24 => some (0x0040, 6)
  | 0x31 => (match (psetOf op - 1) % 6 with
      | 0 => some (0x0041, 8) | 2 => some (0x0041, 8) | 4 => some (0x0041, 9) | _ => none)
  | 0x34 => some (0x0042, ((hssLevels (psetOf op) p).map fun l => 2 ^ lmsH l.1).sum)
  | 0x38 => some (0x0043, 2 ^ (xmssSet false (psetOf op)).1)
  | 0x3C => some (0x0044, let (h, d, _, _) := xmssSet true (psetOf op); d * 2 ^ (h / d))
  | 0x44 => some (0x0045, 64 * ((loopOf op).map fun l => l.2.2.1).getD 0)
  | 0x59 => some (0x0046, ((loopOf op).map fun l => l.2.2.1).getD 0)
  | _ => none

/-- Leaves generated in `x` cycles of a keygen: level by level, each with its leaves and the cost of one, the tree of a lower level
followed by the signature of its root (06, R138; log 24). -/
def leavesIn (sign : Nat) : List (Nat × Nat) → Nat → Nat
  | [], _ => 0
  | (n, g) :: rest, x => if x < n * g then x / max g 1 else n + leavesIn sign rest (x - n * g - sign)

/-- The units of progress that `x` cycles, or ns on a core, of a job's operation make: attempts of FN-DSA, a SLH-DSA signature's FORS
part and layers, leaves, 64ths of a McEliece attempt, RSA candidates (05, R122; 06, R128, R138; 07, R162, R173). Fixed parts come
first, and the parts of a SLH-DSA signature take equal times (log 24). -/
def progressUnits (op p len x : Nat) : Nat :=
  let loop := (loopOf op).getD (0, 1, 0, 0)
  match op / 0x100 with
  | 0x24 => x / loop.2.1
  | 0x31 => (if (psetOf op - 1) % 6 = 4 then 9 else 8) * x / max 1 (signVerify op p len 17).1
  | 0x34 =>
    let ls := hssLevels (psetOf op) p
    let shake := ls.any fun l => 2 ≤ lmsGroup l.1
    let sign := match ls.head? with
      | some l => (match otsW l.2 with | 0 => 9000 | 1 => 11000 | 2 => 18000 | _ => 51200)
      | none => 0
    leavesIn sign (ls.map fun l => (2 ^ lmsH l.1, otsLeaf l.2)) (if shake then x * 4 / 3 else x)
  | 0x38 => (if (xmssSet false (psetOf op)).2.2.2 then x * 4 / 3 else x) / 9000
  | 0x3C =>
    let (h, d, _, shake) := xmssSet true (psetOf op)
    leavesIn 60000 (List.replicate d (2 ^ (h / d), 9000)) (if shake then x * 4 / 3 else x)
  | 0x44 => 64 * (x - loop.1) / loop.2.1
  | _ => (x - loop.1) / loop.2.1

/-- The opcode of the operation that a job runs: a GENERATE runs the keygen of its template (09, R214). -/
def Job.workOp (J : Job) : Nat :=
  if J.opcode = 0x8000 then (J.mainStep.map (·.entry)).getD (parseTemplate J.auxIn).alg else J.opcode

/-- PROGRESS_POS of a job: the units that its operation has made, and the whole total at success. -/
def State.jobPos (s : State) (J : Job) (total : Nat) : Nat :=
  let past := J.phase == .ended || J.phase == .delayed
  match J.mainStep.bind fun st => st.runs.head? with
  | none => 0
  | some r =>
    if (past && J.status == St.ok) || (!past && r.mode == .ended) then total
    else min total (progressUnits J.workOp J.param.toNat J.totalLen (s.executed r))

/-- The response block of QUERY_PROGRESS. -/
def State.progressBlock (s : State) (op pos total state : Nat) : Bytes :=
  le 8 pos ++ le 8 total ++ le 2 (permille pos total) ++ le 2 op ++ le 4 state ++ le 8 s.helmTime

/-- QUERY_PROGRESS on behalf of a job: a VF asks only about its own jobs. -/
def State.queryProgress (s : State) (j : Nat) (J : Job) : State :=
  let p := J.param.toNat
  let op := bitsOf p 15 0
  let f := bitsOf p 31 16
  if 0x40 ≤ op ∧ op ≤ 0x46 then
    if J.fn ≠ 0 ∧ f ≠ J.fn then s.deny j 0x0100
    else if ¬ s.fnExists f then s.deny j 0x0102
    else match s.jobs.find? fun e => e.2.fn == f && e.2.src != .internal && e.2.tag.toNat == bitsOf p 63 32 &&
        ((jobOperation e.2.workOp e.2.param.toNat).map (·.1)) == some op with
    | none => s.reply j J (s.progressBlock op 0 0 0) 0
    | some (_, W) =>
      let total := ((jobOperation W.workOp W.param.toNat).map (·.2)).getD 0
      let state := if W.phase = .ended ∨ W.phase = .delayed then 2 else if W.accepted.isSome then 1 else 0
      s.reply j J (s.progressBlock op (s.jobPos W total) total state) 0
  else if bitsOf p 63 16 ≠ 0 then s.badField j
  else if J.fn ≠ 0 then s.deny j 0x0100
  else
    let mine := s.progress.filter fun e => e.2.op == op
    match (mine.find? fun e => e.2.state == 1).orElse fun _ => leastBy (fun e => 2 ^ 64 - e.2.finished) mine with
    | none => s.reply j J (s.progressBlock op 0 0 0) 0
    | some (_, P) => s.reply j J (s.progressBlock op P.pos P.total P.state) 0

/-- QUERY_PROGRESS. -/
def execQueryProgress (j : Nat) (s : State) : Out := adminRow 0x0021 j (fun s J => s.queryProgress j J) s

/-! ### SET_PERTURBATION (R275; 21, R471) -/

/-- SET_PERTURBATION on behalf of a job: ENABLED changes at the next tick. -/
def State.setPerturbation (s : State) (j : Nat) (J : Job) : State :=
  let p := J.param.toNat
  let f := bitsOf p 15 0
  if bitsOf p 63 17 ≠ 0 then s.badField j
  else if 0x100 ≤ f ∨ ¬ s.fnExists f then s.deny j 0x0102
  else (s.modFn f fun F => { F with pertNext := some (bitOf p 16) }).endAdmin j St.ok 0

/-- SET_PERTURBATION. -/
def execSetPerturbation (j : Nat) (s : State) : Out := adminRow 0x0023 j (fun s J => s.setPerturbation j J) s

end Sys2Proof.Machine
end

