-- ==== Sys2Proof/Machine/Identity.lean ====
section
/-! DEFINITION. Keys that no handle names: the identity layers, and signatures under the alias keys (15, R362, R368). -/

namespace Sys2Proof.Machine

/-- ML-DSA's M′ of a context and a message (05, R111). -/
def mPrimeOf (ctx msg : Bytes) : Bytes := [0#8] ++ le 1 ctx.length ++ ctx ++ msg

/-- An ML-DSA signature of a context and a message, hedged with `rnd`. -/
def mlDsaSign (alg : Nat) (sk ctx msg rnd : Bytes) : Bytes := prim (.sign alg) [sk, mPrimeOf ctx msg, rnd] (sigLen alg)

/-- An ML-DSA verification. -/
def mlDsaOk (alg : Nat) (pk ctx msg sig : Bytes) : Bool := Config.primBool (.verify alg) [pk, mPrimeOf ctx msg, sig]

/-- The ML-DSA-87 private key that a derived secret yields as its seed. -/
def mlDsaKey (seed : Bytes) : Bytes := prim (.privateKey 0x2003) [seed] (skLen 0x2003)

/-- RSAPublicKey with e = 65537 (07, R173) of the modulus that a string makes: its top bit and its lowest bit are set. -/
def rsaPublicKey (p : Nat) (n : Bytes) : Bytes :=
  rsaDer p (be (32 * p) (fromBE n ||| (2 ^ (256 * p - 1) ||| 1))) [0x01#8, 0x00#8, 0x01#8]

/-- The public key of a private key. -/
def pubOf (alg : Nat) (sk : Bytes) : Bytes :=
  if alg / 0x100 = 0x30 then sk.drop (pkLen alg)
  else if alg / 0x100 = 0x59 then rsaPublicKey (psetOf alg) (prim (.publicKey alg) [sk] (32 * psetOf alg))
  else prim (.publicKey alg) [sk] (pkLen alg)

/-- X25519 or X448 (RFC 7748; 07, R169): the scalar is clamped, the top bit of a 32-byte u-coordinate is masked, and u is
taken modulo the field prime. -/
def montgomery (alg : Nat) (k u : Bytes) : Bytes :=
  let x := fromLE k
  if alg = 0x5701 then
    prim (.agree alg) [le 32 (x % 2 ^ 254 / 8 * 8 + 2 ^ 254), le 32 (fromLE u % 2 ^ 255 % (2 ^ 255 - 19))] 32
  else prim (.agree alg) [le 56 (x % 2 ^ 447 / 4 * 4 + 2 ^ 447), le 56 (fromLE u % (2 ^ 448 - 2 ^ 224 - 1))] 56

/-- The label of the alias keys: the debug alias after a debug grant (R362, R368). -/
def State.aliasLabel (s : State) (p384 : Bool) : Bytes :=
  ascii "psibuaz-alias-" ++ (if s.lc.debugged then ascii "debug-" else []) ++ ascii (if p384 then "p384" else "mldsa")

/-- The alias private key; empty on a device without an identity. -/
def State.aliasKey (s : State) (p384 : Bool) : Bytes :=
  match s.boot.cdi with
  | none => []
  | some c =>
    let k := kdf198 c (s.aliasLabel p384)
    if p384 then prim (.privateKey 0x5002) [k] (skLen 0x5002) else mlDsaKey k

/-- The DeviceID private key (R362). -/
def State.deviceKey (s : State) (p384 : Bool) : Bytes :=
  match s.lc.dus with
  | none => []
  | some d =>
    let k := kdf198 d (ascii (if p384 then "psibuaz-devid-p384" else "psibuaz-devid-mldsa"))
    if p384 then prim (.privateKey 0x5002) [k] (skLen 0x5002) else mlDsaKey k

/-- An ML-DSA-87 signature under the alias key, its 32 bytes of randomness taken from the DRBG at `d`. -/
def State.aliasSign (s : State) (ctx msg : Bytes) (d : Nat) : Bytes :=
  mlDsaSign 0x2003 (s.aliasKey false) ctx msg (drbgBytes d 32)

end Sys2Proof.Machine
end

