-- ==== Sys2Proof/Machine/Compute.lean ====
section
/-! DEFINITION. What an operation on a tile or core computes: the form that these commands share, key pairs,
encapsulation, and the signed message (05_lattice.md R103-R123; 06, R125; 07, R152-R175). The functions of the cited
standards are free (log 1); their inputs, their randomness and the lengths are those that the spec gives. -/

namespace Sys2Proof.Machine

/-! ### The shared form -/

/-- What an operation computes, and the DRBG bytes it drew. -/
abbrev Result := JobOut × Nat

/-- A result with no randomness. -/
def pureOut (o : JobOut) : Result := (o, 0)

/-- The command of an opcode group: the job's result is computed while its main step executes; nothing happens when the
job is of another group or computes nothing now. -/
def computeRow (hi j : Nat) (f : State → Job → Result) (s : State) : Out :=
  match s.job? j with
  | none => noIndex
  | some J =>
    done s (
      if J.opcode / 0x100 = hi ∧ J.computing then
        let r := f s J
        ((s.modJob j fun J => { J with draw := s.draws, out := some { r.1 with seen := J.input.length } })).drawn r.2
      else s)

/-- The material of the key that a job computes with. -/
def State.keyBytes (s : State) (J : Job) : Bytes := (((J.pin.bind s.key?)).map (·.material)).getD []

/-- The public key of a job: its stored key, or what the job supplies inline. -/
def State.pubBytes (s : State) (J : Job) (inline : Bytes) : Bytes :=
  if J.takesKey then s.keyBytes J else inline

/-- A part of AUX, counted after an inline key. -/
def Job.auxAfterKey (J : Job) (i : Nat) : Bytes := J.auxPart (if J.takesKey then i else i + 1)

/-- Bit `i` of PARAM. -/
def Job.pbit (J : Job) (i : Nat) : Bool := bitOf J.param.toNat i

/-- A field of PARAM. -/
def Job.pfield (J : Job) (hi lo : Nat) : Nat := bitsOf J.param.toNat hi lo

/-- The handle of the `i`-th index that a job has reserved. -/
def State.newHandle (s : State) (J : Job) (i : Nat) : Nat :=
  match J.newIdx[i]? with
  | none => 0
  | some k => mkHandle k ((tget s.keys.gens k).getD 0)

/-- The index and the key that take the `i`-th reserved index. -/
def Job.newKey (J : Job) (i : Nat) (K : Key) : List (Nat × Key) :=
  match J.newIdx[i]? with
  | none => []
  | some k => [(k, K)]

/-- A failed check of a key (R123 row 7). -/
def keyFails (bad : Bool) : JobOut := { status := St.keyInvalid, badKey := bad }

/-- Yes or no of a verification (R106). -/
def verdictOf (ok : Bool) : JobOut := { status := if ok then St.ok else St.verifyFail }

/-- Passes of a rejection loop: at least one (free, log 1). -/
def attemptsOf (alg : Nat) (ins : List Bytes) : Nat := 1 + Config.primNat (.attempts alg) ins

/-- A runaway loop, or a shortfall of a fixed pool: nothing is released (05, R117; 07, R157). -/
def runaway : JobOut := { status := St.mcheck }

/-- A key pair that a keygen has made: the passes of its loop, the DRBG bytes it drew, and whether the loop ran away or
its pool fell short. -/
structure Pair where
  sk    : Bytes
  pk    : Bytes
  draws : Nat := 0
  tries : Nat := 1
  bad   : Bool := false
deriving DecidableEq, Repr

/-- A pair whose private key a seed yields. -/
def pairOf (op : Nat) (seed : Bytes) : Pair :=
  let sk := prim (.privateKey op) [seed] (skLen (algOf op))
  { sk := sk, pk := prim (.publicKey op) [sk] (pkLen (algOf op)) }

/-- The first of `n` attempts that passes, each on 32 drawn bytes of its own from counter `d`; `n` + 1 where none does
(05, R122: whether an attempt fails depends only on what it draws; that it draws 32 bytes is log 1's). -/
def firstPass (alg d : Nat) : Nat → Nat → Nat
  | 0, i => i + 1
  | n + 1, i => if Config.primBool (.attempts alg) [drbgBytes (d + 32 * i) 32] then i + 1 else firstPass alg d n (i + 1)

/-- The keygens that sample by rejection from a fixed pool: ExpandS of ML-DSA, the fixed weights of HQC and the private key
of the NIST curves (07, R157). -/
def pooled (alg : Nat) : Bool := alg / 0x100 == 0x20 || alg / 0x100 == 0x40 || alg / 0x100 == 0x50

/-- The key pair of a keygen opcode, from a seed or from the DRBG at counter `d`: ML-KEM, ML-DSA, FN-DSA (05, R107,
R119, R122), SLH-DSA (06, R125), HQC, Classic McEliece, the elliptic curves and RSA (07, R156, R160, R161, R166, R173).
FN-DSA draws 32 bytes for each attempt (log 1). -/
def makePair (op d : Nat) (seed : Option Bytes) : Pair :=
  let alg := algOf op
  let n := match alg / 0x100 with
    | 0x10 => 64 | 0x20 => 32 | 0x30 => 3 * (pkLen alg / 2) | 0x40 => 64 | 0x44 => 32 | 0x59 => 32 | 0x24 => 32 | _ => skLen alg
  let src := seed.getD (drbgBytes d n)
  let drew := if seed.isSome then 0 else n
  match alg / 0x100 with
  | 0x24 =>
    let k := firstPass op d 48 0
    { pairOf op (drbgBytes (d + 32 * (k - 1)) 32) with draws := 32 * min k 48, tries := k, bad := decide (48 < k) }
  | 0x30 =>
    let m := pkLen alg / 2
    let root := prim (.hbsRoot op) [src] m
    { sk := src ++ root, pk := sliceOf src (2 * m) m ++ root, draws := drew }
  | 0x44 =>
    let k := attemptsOf op [src]
    { pairOf op src with draws := drew, tries := k, bad := decide (((loopOf op).map fun l => l.2.2.2).getD 256 < k) }
  | 0x59 =>
    let k := attemptsOf op [src]
    let sk := prim (.privateKey op) [src] (skLen alg)
    { sk := sk, pk := pubOf alg sk, draws := drew, tries := k,
      bad := decide (((loopOf op).map fun l => l.2.2.2).getD 88600 < k) }
  | _ => { pairOf op src with draws := drew, bad := pooled alg && Config.primBool (.shortfall op) [src] }

/-- The result of a keygen: the private key is stored, the public key returned, and RESULT holds the handle and the bytes
written (05, R103, R105; 07, R153, R155). -/
def State.keygenOut (s : State) (J : Job) (P : Pair) : Result :=
  if P.bad then (runaway, P.draws)
  else ({ output := P.pk, result := s.newHandle J 0 + P.pk.length * 2 ^ 32,
          keys := J.newKey 0 (defaultKey (algOf J.opcode) .priv J.fn P.sk P.pk none) }, P.draws)

/-- A keygen command: SEEDED takes the seed at AUX, otherwise the DRBG gives it. -/
def keygenRow (hi j : Nat) (s : State) : Out :=
  computeRow hi j (fun s J =>
    s.keygenOut J (makePair J.opcode s.draws (if J.pbit 12 then some (J.auxPart 0) else none))) s

/-- A shared secret becomes a key; its handle stands in RESULT with the bytes written (R103, R105). A secret that a private or
secret key yields has that key as its parent; one of an encapsulation has none (09, R207). -/
def State.secretOut (s : State) (J : Job) (secret output : Bytes) : JobOut :=
  let parent := if J.takesKey ∧ kindOf J.opcode ≠ .encaps then J.pin.bind fun i => (s.key? i).map fun K => (J.handle, K)
    else none
  { output := output, result := s.newHandle J 0 + output.length * 2 ^ 32,
    keys := J.newKey 0 (defaultKey 0x7000 .secret J.fn secret [] parent) }

/-- An encapsulation: the check of the public key where its standard has one, then ciphertext and shared secret from
drawn bytes; a shortfall of the fixed pool of a code-based set ends it (05, R107, R108; 07, R156, R157, R163). -/
def State.encapsOut (s : State) (J : Job) (draw : Nat) (checks : Bool) : Result :=
  let alg := algOf J.opcode
  let pk := s.pubBytes J J.input
  let rnd := drbgBytes s.draws draw
  if checks && !Config.primBool (.keyCheck alg) [pk] then pureOut (keyFails false)
  else if !checks && Config.primBool (.shortfall J.opcode) [rnd] then (runaway, draw)
  else
    let r := prim (.encaps alg) [pk, rnd] (sigLen alg + ssLen alg)
    (s.secretOut J (r.drop (sigLen alg)) (r.take (sigLen alg)), draw)

/-- A decapsulation: the hash check of the private key, then the shared secret, implicit rejection included (R108,
R109). DESIGN CHOICE (log 85): for a shortfall in HQC's re-encryption, where R157 gives MCHECK and R156 says that a
decapsulation always completes with OK, R156 holds. -/
def State.decapsOut (s : State) (J : Job) (checks : Bool) : Result :=
  let alg := algOf J.opcode
  let sk := s.keyBytes J
  if !checks || Config.primBool (.keyCheck alg) [sk] then
    pureOut (s.secretOut J (prim (.decaps alg) [sk, J.input] (ssLen alg)) [])
  else pureOut (keyFails true)

/-! ### The signed message (R111, R113; 06, R127) -/

/-- Last byte of the OID of a hash function; SHA-256's is printed in R111, the others are those of FIPS 204 (log 22). -/
def oidByte (c : Nat) : Nat :=
  match c with
  | 2 => 1 | 3 => 2 | 4 => 3 | 1 => 4 | 5 => 5 | 6 => 6
  | 0x11 => 7 | 0x12 => 8 | 0x13 => 9 | 0x14 => 10 | 0x21 => 11 | _ => 12

/-- The DER encoding of a hash function's OID. -/
def oidOf (c : Nat) : Bytes :=
  [0x06#8, 0x09#8, 0x60#8, 0x86#8, 0x48#8, 0x01#8, 0x65#8, 0x03#8, 0x04#8, 0x02#8, BitVec.ofNat 8 (oidByte c)]

/-- PH(M), computed or supplied. -/
def Job.preHash (J : Job) : Bytes :=
  let c := J.pfield 23 16
  if J.pbit 10 then J.input else prim (.hash c) [J.input] (hashLen c)

/-- M′ (R111). -/
def Job.mPrime (J : Job) (ctx : Bytes) : Bytes :=
  if J.pbit 9 then [1#8] ++ le 1 ctx.length ++ ctx ++ oidOf (J.pfield 23 16) ++ J.preHash
  else [0#8] ++ le 1 ctx.length ++ ctx ++ J.input

/-- A verification of M′ with a key whose standard checks nothing beyond its length (R106). -/
def State.dsaVerify (s : State) (J : Job) : JobOut :=
  let pk := s.pubBytes J (J.auxPart 0)
  let ctx := if J.pfield 7 0 = 0 then [] else J.auxAfterKey 1
  verdictOf (Config.primBool (.verify (algOf J.opcode)) [pk, J.mPrime ctx, J.auxAfterKey 0])


end Sys2Proof.Machine
end

