-- ==== Sys2Proof/Machine/Classical.lean ====
section
/-! DEFINITION. Family 0x5: elliptic curves and RSA (07_code_and_classical.md R152-R175). -/

namespace Sys2Proof.Machine

/-! ### DER signatures (R165) -/

/-- Ecdsa-Sig-Value of r and s. -/
def derSigOf (r s : Bytes) : Bytes :=
  let c := derInt r ++ derInt s
  (if c.length < 128 then [0x30#8] ++ le 1 c.length else [0x30#8, 0x81#8] ++ le 1 c.length) ++ c

/-- A value in `n` bytes, padded big-endian; none when it does not fit. -/
def padTo (n : Nat) (v : Bytes) : Option Bytes :=
  let m := dropZeros v
  if n < m.length then none else some (zeros (n - m.length) ++ m)

/-- The raw r ‖ s of a minimal DER signature with nothing after it; none for any other encoding. -/
def rawOfDer (n : Nat) (sig : Bytes) : Option Bytes :=
  let h := if leAt sig 1 1 = 0x81 then 3 else 2
  let a := leAt sig (h + 1) 1
  let b := leAt sig (h + 3 + a) 1
  let r := sliceOf sig (h + 2) a
  let v := sliceOf sig (h + 4 + a) b
  if sig = derSigOf r v then
    match padTo n r, padTo n v with
    | some x, some y => some (x ++ y)
    | _, _ => none
  else none

/-- The digest that a signature covers: supplied, or of the message with the named hash. -/
def Job.digest (J : Job) : Bytes :=
  if J.pbit 10 then J.input else prim (.hash (J.pfield 23 16)) [J.input] (hashLen (J.pfield 23 16))

/-! ### ECDSA and ECDH (R164-R167) -/

/-- ECDSA_KEYGEN: the public key is written uncompressed. -/
def execEcdsaKeygen (j : Nat) (s : State) : Out := keygenRow 0x50 j s

/-- A big-endian number of a curve's width: P-521 uses one bit of its first byte. -/
def curveBytes (alg : Nat) (b : Bytes) : Bytes :=
  if alg = 0x5003 then (match b with | [] => [] | x :: xs => (x &&& 1#8) :: xs) else b

/-- ECDSA_SIGN: the nonce follows RFC 6979, with 32 drawn bytes when hedged; a fixed pool without a usable candidate, or a
nonce that yields r = 0 or s = 0, is a shortfall (R164, R157). -/
def execEcdsaSign (j : Nat) (s : State) : Out :=
  computeRow 0x51 j (fun s J =>
    let alg := algOf J.opcode
    let n := if J.pbit 8 then 0 else 32
    let ins := [s.keyBytes J, le 1 (J.pfield 23 16), J.digest, drbgBytes s.draws n]
    let k := sigLen alg / 2
    let raw := curveBytes alg ((prim (.sign alg) ins (sigLen alg)).take k) ++
      curveBytes alg ((prim (.sign alg) ins (sigLen alg)).drop k)
    if Config.primBool (.shortfall J.opcode) ins || allZero (raw.take k) || allZero (raw.drop k) then (runaway, n)
    else
      let sig := if J.pbit 13 then derSigOf (raw.take k) (raw.drop k) else raw
      ({ output := sig, result := sig.length }, n)) s

/-- ECDSA_VERIFY: the key is validated in full; a DER signature must be minimal. -/
def execEcdsaVerify (j : Nat) (s : State) : Out :=
  computeRow 0x52 j (fun s J =>
    let alg := algOf J.opcode
    let pk := s.pubBytes J (J.auxPart 0)
    let sig := J.auxAfterKey 0
    if Config.primBool (.keyCheck alg) [pk] then
      match (if J.pbit 13 then rawOfDer (sigLen alg / 2) sig else some sig) with
      | none => pureOut (verdictOf false)
      | some raw => pureOut (verdictOf (Config.primBool (.verify alg) [pk, J.digest, raw]))
    else pureOut (keyFails false)) s

/-- ECDH: the peer key is validated, a result at infinity is KEY_INVALID, and Z becomes a key (R167). -/
def execEcdh (j : Nat) (s : State) : Out :=
  computeRow 0x53 j (fun s J =>
    let alg := algOf J.opcode
    if Config.primBool (.keyCheck alg) [J.input] && Config.primBool (.agree alg) [s.keyBytes J, J.input] then
      pureOut (s.secretOut J (prim (.agree alg) [s.keyBytes J, J.input] (ssLen alg)) [])
    else pureOut (keyFails false)) s

/-! ### EdDSA and Montgomery curves (R168, R169) -/

/-- EDDSA_KEYGEN. -/
def execEddsaKeygen (j : Nat) (s : State) : Out := keygenRow 0x54 j s

/-- The context of an Ed448 job; empty for Ed25519. -/
def Job.edContext (J : Job) (c : Bytes) : Bytes := if J.pfield 7 0 = 0 then [] else c

/-- EDDSA_SIGN: deterministic. -/
def execEddsaSign (j : Nat) (s : State) : Out :=
  computeRow 0x55 j (fun s J =>
    let alg := algOf J.opcode
    let sig := prim (.sign alg) [s.keyBytes J, J.edContext (J.auxPart 0), J.input] (sigLen alg)
    pureOut { output := sig, result := sig.length }) s

/-- The field prime and the group order of an Edwards curve (RFC 8032). -/
def edField (alg : Nat) : Nat := if alg = 0x5401 then 2 ^ 255 - 19 else 2 ^ 448 - 2 ^ 224 - 1
def edOrder (alg : Nat) : Nat :=
  if alg = 0x5401 then 2 ^ 252 + 27742317777372353535851937790883648493
  else 2 ^ 446 - 13818066809895115352007386748515426880336692474882178609894547503885

/-- An encoded point is canonical: y is below the field prime, and the sign of x = 0 is clear (RFC 8032, section 5). -/
def edCanonical (alg : Nat) (b : Bytes) : Bool :=
  let v := fromLE b
  let top := 8 * b.length - 1
  let y := v % 2 ^ top
  decide (y < edField alg) && (v < 2 ^ top || (y != 1 && y != edField alg - 1))

/-- An Edwards public key decodes and is not of small order (R168). -/
def edKeyOk (alg : Nat) (pk : Bytes) : Bool := edCanonical alg pk && Config.primBool (.keyCheck alg) [pk]

/-- An Edwards signature verifies: R is canonical, S is below the group order, and the equation holds (R168). -/
def edSigOk (alg : Nat) (pk ctx msg sig : Bytes) : Bool :=
  let k := sigLen alg / 2
  edCanonical alg (sig.take k) && decide (fromLE (sig.drop k) < edOrder alg) && Config.primBool (.verify alg) [pk, ctx, msg, sig]

/-- EDDSA_VERIFY: a key that does not decode or is of small order is KEY_INVALID. -/
def execEddsaVerify (j : Nat) (s : State) : Out :=
  computeRow 0x56 j (fun s J =>
    let alg := algOf J.opcode
    let pk := s.pubBytes J (J.auxPart 0)
    let sig := J.auxAfterKey 0
    if edKeyOk alg pk then pureOut (verdictOf (edSigOk alg pk (J.edContext (J.auxAfterKey 1)) J.input sig))
    else pureOut (keyFails false)) s

/-- MONTGOMERY_KEYGEN. -/
def execMontgomeryKeygen (j : Nat) (s : State) : Out := keygenRow 0x57 j s

/-- MONTGOMERY_KEY_AGREEMENT: an all-zero secret is KEY_INVALID and is not stored. -/
def execMontgomeryKeyAgreement (j : Nat) (s : State) : Out :=
  computeRow 0x58 j (fun s J =>
    let alg := algOf J.opcode
    let z := montgomery alg (s.keyBytes J) J.input
    if allZero z then pureOut (keyFails false) else pureOut (s.secretOut J z [])) s

/-! ### RSA (R170-R173) -/

/-- RSA_KEYGEN: the candidates tested are the passes of its loop. -/
def execRsaKeygen (j : Nat) (s : State) : Out := keygenRow 0x59 j s

/-- Bytes that a private operation draws to blind its exponent with a fresh multiple of λ(n) (R170); how many is log 1's, and
the result does not depend on them. -/
def blindLen : Nat := 32

/-- The modulus of the private key of a job. -/
def State.modulusOf (s : State) (J : Job) : Nat :=
  (((J.pin.bind s.key?).bind fun K => rsaParse (psetOf J.opcode) K.pubPart).map (·.1)).getD 0

/-- RSA_SIGN: PSS draws SALT_LEN bytes of salt; the private exponent is blinded. -/
def execRsaSign (j : Nat) (s : State) : Out :=
  computeRow 0x5A j (fun s J =>
    let alg := algOf J.opcode
    let n := if J.pbit 15 then J.pfield 31 24 else 0
    let sig := prim (.sign alg) [s.keyBytes J, le 1 (b2n (J.pbit 15)) ++ le 1 (J.pfield 23 16), J.digest, drbgBytes s.draws n]
      (sigLen alg)
    ({ output := sig, result := sig.length }, n + blindLen)) s

/-- RSA_VERIFY: the encoding is compared in full, with the named hash and salt length; a value not below n fails. A key that is
no RSAPublicKey of the modulus length, or whose e R47 does not support, is KEY_INVALID. -/
def execRsaVerify (j : Nat) (s : State) : Out :=
  computeRow 0x5B j (fun s J =>
    let alg := algOf J.opcode
    let pk := s.pubBytes J (J.auxPart 0)
    match rsaParse (psetOf J.opcode) pk with
    | some (n, _) =>
      pureOut (verdictOf (decide (fromBE (J.auxAfterKey 0) < n) && Config.primBool (.verify alg)
        [pk, le 1 (b2n (J.pbit 15)) ++ le 2 (J.pfield 31 16), J.digest, J.auxAfterKey 0]))
    | none => pureOut (keyFails false)) s

/-- OAEP_ENCRYPT: the seed is drawn; the label stands last at AUX. -/
def execOaepEncrypt (j : Nat) (s : State) : Out :=
  computeRow 0x5C j (fun s J =>
    let alg := algOf J.opcode
    let h := J.pfield 23 16
    let pk := s.pubBytes J (J.auxPart 0)
    let label := if J.pfield 43 32 = 0 then [] else J.auxAfterKey 0
    match rsaParse (psetOf J.opcode) pk with
    | some _ =>
      let c := prim (.oaep alg) [pk, le 1 h, label, J.input, drbgBytes s.draws (hashLen h)] (32 * psetOf J.opcode)
      ({ output := c, result := c.length }, hashLen h)
    | none => pureOut (keyFails false)) s

/-- OAEP_DECRYPT: a ciphertext not below n and every failed check is VERIFY_FAIL; with AS_KEY the message becomes a key of KEY_LEN bytes. -/
def execOaepDecrypt (j : Nat) (s : State) : Out :=
  computeRow 0x5D j (fun s J =>
    let alg := algOf J.opcode
    let h := J.pfield 23 16
    let ins := [s.keyBytes J, le 1 h, if J.pfield 43 32 = 0 then [] else J.auxPart 0, J.input]
    let n := Config.primNat (.oaepOpen alg) ins % (32 * psetOf J.opcode - 2 * hashLen h - 1)
    let m := prim (.oaepOpen alg) ins n
    if decide (s.modulusOf J ≤ fromBE J.input) || !Config.primBool (.oaepOpen alg) ins || (J.pbit 14 && n != J.pfield 51 44) then
      (verdictOf false, blindLen)
    else if J.pbit 14 then (s.secretOut J m [], blindLen)
    else ({ output := m, result := m.length }, blindLen)) s

end Sys2Proof.Machine
end

