-- ==== Sys2Proof/Machine/Chart.lean ====
section
/-! DEFINITION. Charts: the image and its checks, LOAD_CHART and RETILE with their drain, reconfiguration and commit, the
return of reloaded tiles, and SET_POWER_LIMIT (03_chart.md R61-R76; 04, R97-R100; 12, R291; 11, R275). -/

namespace Sys2Proof.Machine

/-! ### The image (R61) -/

/-- The fields of a chart image that say how long it is. -/
def groupCount (b : Bytes) : Nat := leAt b 0x18 1
/-- MCODE_COUNT. -/
def mcodeCount (b : Bytes) : Nat := leAt b 0x19 1
/-- ROUTE_COUNT. -/
def routeCount (b : Bytes) : Nat := leAt b 0x1A 2

/-- The length that R61 gives an image with these counts. -/
def chartLen (g m r : Nat) : Nat := 864 + 16 * g + 56 * m + 8 * r + 4635

/-- Where the group records, the references, the routes and the signature block begin. -/
def groupAt (i : Nat) : Nat := 0x360 + 16 * i
/-- The microcode reference `i` of an image. -/
def mcodeAt (b : Bytes) (i : Nat) : Nat := groupAt (groupCount b) + 56 * i
/-- The route `i` of an image. -/
def routeAt (b : Bytes) (i : Nat) : Nat := mcodeAt b (mcodeCount b) + 8 * i

/-- The record of tile `n`. -/
def tileRecOf (b : Bytes) (n : Nat) : TileRec :=
  let o := 0x60 + 8 * n
  { pers := leAt b o 1, group := leAt b (o + 1) 1, mhz := leAt b (o + 2) 2, prio := leAt b (o + 4) 1, mcode := leAt b (o + 5) 1 }

/-- The donors of a group record: its used entries in order. -/
def donorsAt (b : Bytes) (i : Nat) : List Nat :=
  ((List.range 4).map fun k => leAt b (groupAt i + 4 + k) 1).filter (· != 0xFF)

/-- The decoded view of an image. -/
def decodeChart (b : Bytes) : Chart :=
  { variants := leAt b 6 1, version := leAt b 8 4, id := leAt b 0x10 8, powerW := leAt b 0x1C 2,
    roles := (List.range 4).map fun p => leAt b (0x20 + p) 1,
    deadlines := (List.range 8).map fun c => leAt b (0x40 + 4 * c) 4,
    tiles := (List.range 96).map (tileRecOf b),
    groups := (List.range (groupCount b)).map fun i =>
      { id := leAt b (groupAt i) 1, pers := leAt b (groupAt i + 1) 1, minTiles := leAt b (groupAt i + 2) 1,
        donors := donorsAt b i },
    mcodes := (List.range (mcodeCount b)).map fun i =>
      let o := mcodeAt b i
      { pers := leAt b o 1, setId := leAt b (o + 2) 2, minVersion := leAt b (o + 4) 4, digest := sliceOf b (o + 8) 48 },
    routes := (List.range (routeCount b)).map fun i =>
      let o := routeAt b i
      { first := leAt b o 2, last := leAt b (o + 2) 2, mask := leAt b (o + 4) 1, pers := leAt b (o + 5) 1,
        group := leAt b (o + 6) 1 } }

/-- Every reserved field of the image is zero. -/
def reservedOk (b : Bytes) : Bool :=
  leAt b 7 1 == 0 && leAt b 6 1 < 8 && leAt b 0x1E 2 == 0 && allZero (sliceOf b 0x24 28) &&
  ((List.range 96).all fun n => leAt b (0x60 + 8 * n + 6) 2 == 0) &&
  ((List.range (groupCount b)).all fun i => leAt b (groupAt i + 3) 1 == 0 && leAt b (groupAt i + 8) 8 == 0) &&
  ((List.range (mcodeCount b)).all fun i => leAt b (mcodeAt b i + 1) 1 == 0) &&
  ((List.range (routeCount b)).all fun i => leAt b (routeAt b i + 7) 1 == 0) &&
  leAt b (b.length - 4633) 2 == 0

/-- A personality code of an engine. -/
def persOk (p : Nat) : Bool := decide (1 ≤ p) && decide (p ≤ 5)

/-- FORMAT of R63 (log 27). -/
def chartFormat (b : Bytes) (c : Chart) : Bool :=
  leAt b 0 4 == 0x54524843 && leAt b 4 2 == 1 && decide (1 ≤ groupCount b) && decide (groupCount b ≤ 32) &&
  decide (1 ≤ mcodeCount b) && decide (mcodeCount b ≤ 16) && decide (1 ≤ routeCount b) && decide (routeCount b ≤ 1024) &&
  b.length == chartLen (groupCount b) (mcodeCount b) (routeCount b) && leAt b 0xC 4 == b.length && reservedOk b &&
  (c.roles.all (· ≤ 2)) &&
  (c.tiles.all fun T => T.pers ≤ 5 && T.prio ≤ 3 &&
    (T.pers != 0 || (T.group == 0xFF && T.mcode == 0xFF && T.mhz == 0 && T.prio == 0))) &&
  ((List.range c.groups.length).all fun i => (c.groups.getD i ⟨0, 0, 0, []⟩).id == i) &&
  (c.groups.all fun g => persOk g.pers && g.minTiles ≤ 96) && (c.mcodes.all fun m => persOk m.pers) &&
  (c.routes.all fun r => r.first ≤ r.last && r.last ≤ 0x101 && persOk r.pers)

/-- The bit of a variant in TARGET_VARIANTS. -/
def variantBit : Variant → Nat
  | .pz8840 => 0 | .pz8820 => 1 | .pz8810 => 2

/-- VARIANT of R63. -/
def chartVariant (v : Variant) (c : Chart) : Bool :=
  bitOf c.variants (variantBit v) && ((c.tiles.drop (tilesOf v)).all (·.pers == 0)) &&
  (v != .pz8810 || ((c.tiles.map (·.pers)) ++ (c.groups.map (·.pers)) ++ (c.mcodes.map (·.pers)) ++
    (c.routes.map (·.pers))).all (· != 3)) && (c.roles.drop (portsOf v)).all (· == 0)

/-- SYMM_DENSITY of R63 (01, R21). -/
def chartDensity (c : Chart) : Bool :=
  (List.range 4).all fun q => (((c.tiles.drop (24 * q)).take 24).filter fun T => T.pers == 5).length ≤ 6

/-- The personality of group `g`. -/
def Chart.persOf (c : Chart) (g : Nat) : Option Nat := (c.groups[g]?).map (·.pers)

/-- GROUP of R63. -/
def chartGroups (c : Chart) : Bool :=
  (c.tiles.all fun T => T.pers == 0 || c.persOf T.group == some T.pers) &&
  (c.groups.all fun g => (c.tiles.any fun T => T.pers != 0 && T.group == g.id) &&
    g.donors.all fun d => d != g.id && c.persOf d == some g.pers) &&
  c.routes.all fun r => c.persOf r.group == some r.pers

/-- No element below the one before it. -/
def rising : List Nat → Bool
  | a :: b :: l => decide (a ≤ b) && rising (b :: l)
  | _ => true

/-- DEADLINE of R63. -/
def chartDeadlines (c : Chart) : Bool :=
  ((c.deadlines.take 7).all fun d => decide (20 ≤ d) && decide (d ≤ 10000000)) && c.deadlines.getD 7 0 == 0 &&
  rising (c.deadlines.take 7)

/-- CLOCK of R63. -/
def chartClocks (c : Chart) : Bool :=
  (c.tiles.all fun T => T.pers == 0 || (decide (1200 ≤ T.mhz) && decide (T.mhz ≤ 2000) && T.mhz % 50 == 0)) &&
  (c.powerW == 0 || (decide (90 ≤ c.powerW) && decide (c.powerW ≤ 195)))

/-- The installed image that a reference names (04, R99). -/
def State.mcodeFor (s : State) (m : McodeRef) : Option McodeEntry :=
  ((s.chart.mcode.map (·.2)).find? fun e => e.setId == m.setId && decide (m.minVersion ≤ e.version) && e.digest == m.digest)

/-- MICROCODE of R63. -/
def State.chartMicrocode (s : State) (c : Chart) : Bool :=
  (c.mcodes.all fun m => (s.mcodeFor m).isSome) &&
  c.tiles.all fun T => T.pers == 0 || ((c.mcodes[T.mcode]?).any fun m => m.pers == T.pers)

/-! ### Signatures (R62) -/

/-- The key that signs charts, modules and rosters in the life-cycle state: the owner's, the vendor's, or none (log 28). -/
def State.signerKey (s : State) : Option Bytes :=
  match s.lc.state with
  | .owned => some s.lc.chartKey
  | .deployed => some s.lc.chartKey
  | .scrapped => none
  | _ => some (prim (.image 2) [s.lc.vendorKeys] 2592)

/-- A signature block of 4,635 bytes at the end of an image verifies with a context. -/
def State.sigBlockOk (s : State) (ctx b : Bytes) : Bool :=
  let o := b.length - 4635
  match s.signerKey with
  | none => false
  | some k =>
    leAt b o 2 == 0x2003 && Config.primBool (.image 1) [k, sliceOf b (o + 4) 4] &&
    mlDsaOk 0x2003 k ctx (b.take o) (sliceOf b (o + 8) 4627)

/-! ### The checks, in order (R63) -/

/-- The first of a list of checks that fails. -/
def firstFail : List (Nat × Bool) → Option Nat
  | [] => none
  | (r, ok) :: rest => if ok then firstFail rest else some r

/-- The fields that a RETILE may not change. -/
def retileScope (run b : Bytes) : Bool := run.take 8 == b.take 8 && sliceOf run 0x1C 0x44 == sliceOf b 0x1C 0x44

/-- The reason why an image is refused, if it is; BUSY comes before the checks of the image. -/
def State.chartRefused (s : State) (b : Bytes) (retile : Bool) : Option Nat :=
  let c := decodeChart b
  firstFail [(0x000A, s.chart.op.isNone), (0x0001, chartFormat b c), (0x0002, s.sigBlockOk (ascii "psibuaz-chart") b),
    (0x0003, decide (s.chart.floor ≤ c.version)), (0x0004, chartVariant s.variant c), (0x0005, chartDensity c),
    (0x0006, chartGroups c), (0x0007, chartDeadlines c), (0x0008, chartClocks c), (0x0009, s.chartMicrocode c),
    (0x000B, !retile || (s.chart.running.isSome && retileScope s.chart.image b))]

/-- The STATUS of a refused chart. -/
def chartStatus (r : Nat) : Nat := if r = 1 then St.malformed else St.policyDeny

/-! ### LOAD_CHART and RETILE (R64, R70, R74) -/

/-- The tiles that the chart operation changes: every present tile, or those whose record differs. -/
def State.changedTiles (s : State) (c : Chart) (retile : Bool) : List Nat :=
  (List.range (tilesOf s.variant)).filter fun n =>
    !retile || (c.tiles[n]?) != (s.chart.running.bind fun r => r.tiles[n]?)

/-- A fenced tile that this operation may reconfigure is one whose reload or reconfiguration failed (R75; log 29). -/
def Tile.stuck (T : Tile) : Bool := T.mode == .fenced && (T.fence == 2 || T.fence == 4)

/-- The tile is in service, or may be reconfigured while it is fenced. -/
def Tile.reconfigurable (T : Tile) : Bool := (T.mode != .fenced && T.mode != .selfTest && T.mode != .absent) || T.stuck

/-- Admission of work to a tile ends, and it drains. -/
def Tile.drain (T : Tile) : Tile :=
  { T with change := 1, mode := if T.mode = .idle ∨ T.mode = .busy then .draining else T.mode }

/-- A chart operation of job `j` begins with the drain; a RETILE's tiles leave the capacity at the next tick. -/
def State.chartStart (s : State) (j : Nat) (b : Bytes) (retile : Bool) : State :=
  let c := decodeChart b
  let ts := s.changedTiles c retile
  let o : ChartOp := { job := j, retile := retile, image := b, chart := c, phase := 2, tiles := ts, doneList := [], failed := [] }
  let t := (s.modJob j fun J => { J with phase := .background }).opStart (if retile then 2 else 1) 0 (2 + 2 * ts.length)
  let t := { t.opStep (if retile then 2 else 1) 0 1 with chart := { t.chart with op := some o } }
  if retile then t else eachOf ts (fun u n => u.modTile n Tile.drain) t

/-- LOAD_CHART or RETILE on behalf of a job. -/
def State.chartCommand (s : State) (j : Nat) (J : Job) (retile : Bool) : State :=
  if J.param ≠ 0 then s.badField j
  else match s.chartRefused J.input retile with
  | some r => { s with chart := { s.chart with lastReason := r } }.endAdmin j (chartStatus r) r
  | none => s.chartStart j J.input retile

/-- LOAD_CHART. -/
def execLoadChart (j : Nat) (s : State) : Out := adminRow 0x0010 j (fun s J => s.chartCommand j J false) s

/-- RETILE. -/
def execRetile (j : Nat) (s : State) : Out := adminRow 0x0011 j (fun s J => s.chartCommand j J true) s

/-- QUERY_CHART: the running chart's image. -/
def execQueryChart (j : Nat) (s : State) : Out :=
  adminRow 0x0012 j (fun s J => if J.param ≠ 0 then s.badField j else s.reply j J s.chart.image s.chart.image.length) s

/-! ### Drain and reconfiguration (R70, R73-R75; 04, R98) -/

/-- The operation has drained: no tile job admitted before it is left, or none on the changed tiles (R70, R74). -/
def State.drained (s : State) (o : ChartOp) : Bool :=
  if o.retile then o.draining && o.tiles.all fun n => (s.tile n).mode == .fenced || (s.runsAt (.tile n)).isEmpty
  else s.jobs.all fun e => !e.2.live || e.2.steps.all fun st => st.pers == 0

/-- A tile of the operation begins its reconfiguration. -/
def Tile.reconfigure (T : Tile) : Tile :=
  if T.stuck then { T with change := 2 }
  else if T.reconfigurable then { T.scrubbed with change := 2, mode := .reconfiguring } else T

/-- Every tile of the operation that can be reconfigured has finished. -/
def State.allDone (s : State) (o : ChartOp) : Bool :=
  o.tiles.all fun n => o.doneList.contains n || (s.tile n).change != 2 || !((s.tile n).mode == .reconfiguring || (s.tile n).stuck)

/-- CHART_DRAIN_COMPLETE: reconfiguration begins; with no tile to reconfigure the operation waits for its commit. -/
def execChartDrainComplete (t : Nat) (s : State) : Out :=
  let u := s.at_ t
  done s (match u.chart.op with
    | none => u
    | some o =>
      if o.phase ≠ 2 ∨ ¬ u.drained o then u
      else
        let v := (eachOf o.tiles (fun w n => w.modTile n Tile.reconfigure) u).opStep (if o.retile then 2 else 1) 0 o.tiles.length
        { v with chart := { v.chart with op := some { o with phase := if v.allDone o then 4 else 3 } } })

/-- The patch image that a tile record of a chart names; none for a tile that is OFF. -/
def State.mcodeOf (s : State) (c : Chart) (r : TileRec) : Option McodeEntry :=
  if r.pers = 0 then none else (c.mcodes[r.mcode]?).bind s.mcodeFor

/-- The control store and the entry table of tile `n` are loaded for a tile record of a chart (04, R79, R100). -/
def State.loadMcode (s : State) (n : Nat) (c : Chart) (r : TileRec) : State := s.modTile n fun T => T.load (s.mcodeOf c r)

/-- A tile fails its load or its self-test: it stays fenced with a reason, and the event is recorded (R70; 04, R98, R100;
log 26). -/
def State.tileFails (s : State) (n reason : Nat) (digestOk : Bool) : State :=
  let t := if digestOk then (s.showCheck n 7 0 2).event n 0x17 (2 * 8192) else s.event 293 0x33 n
  t.modTile n fun T => { T.scrubbed with mode := .fenced, fence := reason, returning := false, since := s.time.elapsed }

/-- TILE_RECONFIG_COMPLETE: a tile of the operation finishes its reconfiguration, microcode load and self-test. -/
def execTileReconfigComplete (n : Nat) (digestOk testOk : Bool) (t : Nat) (s : State) : Out :=
  let u := s.at_ t
  within (okTile n) s (match u.chart.op with
    | none => u
    | some o =>
      if o.phase ≠ 3 ∨ ¬ o.tiles.contains n ∨ o.doneList.contains n ∨ (u.tile n).change ≠ 2 ∨
          ¬ ((u.tile n).mode = .reconfiguring ∨ (u.tile n).stuck) then u
      else
        let good := digestOk && testOk
        let o' := { o with doneList := o.doneList ++ [n], failed := if good then o.failed else o.failed ++ [n] }
        let v := if good then u.loadMcode n o.chart ((o.chart.tiles[n]?).getD ⟨0, 0xFF, 0, 0, 0xFF⟩) else u
        let v := v.opStep (if o.retile then 2 else 1) 0 1
        let v := { v with chart := { v.chart with op := some { o' with phase := if v.allDone o' then 4 else 3 } } }
        if good then v else v.tileFails n 4 digestOk)

/-! ### Commit (R68-R71, R75) -/

/-- The mode of a tile that returns to service. -/
def Tile.home (T : Tile) : TileMode :=
  if T.parked || (T.asg.map (·.pers)).getD 0 == 0 then .parked else .idle

/-- Tile `n` takes its record of the new chart at the commit; one that the operation has not reconfigured does so once its fence
ends (R75). -/
def State.commitTile (s : State) (o : ChartOp) (n : Nat) : State :=
  match o.chart.tiles[n]? with
  | none => s
  | some r =>
    let t := s.modTile n fun T => { T with asg := some r }
    if o.failed.contains n then t.modTile n fun T => { T with change := 0 }
    else if o.doneList.contains n then
      (t.leaveFence n).modTile n fun T => { T with
        change := 0, mhz := r.mhz, target := 0, parked := false, mode := if r.pers = 0 then .parked else .idle, fence := 0,
        sha2 := false }
    else t.modTile n fun T => { T with change := 2, returning := false }

/-- The chart becomes the running chart: the records, groups, routes, deadlines and, for LOAD_CHART, the port roles. -/
def State.applyChart (s : State) (b : Bytes) (c : Chart) : State :=
  let t := { s with chart := { s.chart with
    running := some c, image := b, floor := max s.chart.floor c.version, commitTime := s.helmTime } }
  let t := eachOf (List.range (portsOf s.variant)) (fun u p => u.modPort p fun P =>
    let r := c.roles.getD p 0
    { P with role := r, link := P.link && r != 0 }) t
  t.logEvent 2 0x0020 (le 4 c.version ++ le 8 c.id ++ sha384 b)

/-- The digest of a committed-chart slot, over its image and its commit sequence (R71). -/
def slotDigest (b : Bytes) (seq : Nat) : Bytes := sha384 (b ++ le 8 seq)

/-- The slot is valid: its digest holds. -/
def ChartSlot.valid (x : ChartSlot) : Bool := x.digest == slotDigest x.image x.seq

/-- The image goes to the committed-chart slot of the lower sequence, with a sequence one above the other's; an invalid slot has
none (R71, R72). Where neither slot is valid, which R71 leaves open, the image goes to slot A with sequence 0 (log 91). -/
def ChartState.store (C : ChartState) (b : Bytes) : ChartState :=
  let seqOf : Option ChartSlot → Nat := fun x => ((x.filter ChartSlot.valid).map fun c => c.seq + 1).getD 0
  let a := seqOf C.slotA
  let z := seqOf C.slotB
  if a ≤ z then { C with slotA := some ⟨b, z, slotDigest b z⟩ } else { C with slotB := some ⟨b, a, slotDigest b a⟩ }

/-- The limit that follows a commit: a SET_POWER_LIMIT that waited for it, the chart's, or the one in force again (R68). -/
def State.commitPower (s : State) (waiting : Option Nat) (w : Nat) : State :=
  { s with chart := { s.chart with powerNext := some (waiting.getD (if w = 0 then s.chart.powerNext.getD s.chart.powerW else w)) } }

/-- A chart operation commits at a tick (R71, R74). -/
def State.chartCommit (s : State) : State :=
  match s.chart.op with
  | none => s
  | some o =>
    if o.phase ≠ 4 then s
    else
      let t := { s with chart := { s.chart.store o.image with op := none } }
      let t := (t.applyChart o.image o.chart).commitPower o.power o.chart.powerW
      let t := eachOf o.tiles (fun u n => u.commitTile o n) t
      ((t.opStep (if o.retile then 2 else 1) 0 1).opEnd (if o.retile then 2 else 1) 0).endAdmin o.job St.ok (o.failed.length * 2 ^ 16)

/-- The changed tiles of a RETILE leave the capacity; they go on serving what they hold (R74). -/
def State.retileRemove (s : State) : State :=
  match s.chart.op with
  | none => s
  | some o =>
    if o.retile ∧ o.phase = 2 ∧ ¬ o.removed then { s with chart := { s.chart with op := some { o with removed := true } } } else s

/-- The changed tiles of a RETILE drain (R74). -/
def State.retileDrain (s : State) (o : ChartOp) : State :=
  { eachOf o.tiles (fun u n => u.modTile n Tile.drain) s with chart := { s.chart with op := some { o with draining := true } } }

/-- The role of a field port is being changed by a LOAD_CHART that has stopped tile admission (R69). -/
def State.roleChanging (s : State) (p : Nat) : Bool :=
  match s.chart.op with
  | some o => !o.retile && decide (2 ≤ o.phase) && o.chart.roles.getD p 0 != (s.port p).role
  | none => false

/-! ### A fenced tile returns (04, R97, R98; R75) -/

/-- Some source fences the Quadrant of tile `n`. -/
def State.quadFenced (s : State) (n : Nat) : Bool := (List.range 4).any fun j => (s.src (96 + 8 * (n / 24) + j)).fenced

/-- The tile takes its reload and self-test: it is fenced by itself alone, for a machine check or by the collector, or its
Quadrant has just returned. -/
def State.reloads (s : State) (n : Nat) : Bool :=
  let T := s.tile n
  !T.returning && !T.bySafe && !s.quadFenced n && !s.pins.gated &&
  (T.mode == .selfTest || (T.mode == .fenced && (T.fence == 1 || T.fence == 3)))

/-- A chart operation that changes tile `n` has not committed: the tile waits for the commit and then takes its new record (R75;
log 92). -/
def State.opHolds (s : State) (n : Nat) : Bool := s.chart.op.any fun o => o.tiles.contains n && decide (3 ≤ o.phase || o.retile)

/-- TILE_RELOAD_COMPLETE: the tile returns at the next tick; a tile that a RETILE changed meanwhile takes its new
personality; one that returns in the safe state returns with the exit. -/
def execTileReloadComplete (n : Nat) (digestOk testOk : Bool) (t : Nat) (s : State) : Out :=
  let u := s.at_ t
  within (okTile n) s (
    if ¬ u.reloads n ∨ u.opHolds n then u
    else
      let fresh := (u.tile n).change == 2
      if digestOk && testOk then
        let v := match u.chart.running, (u.tile n).asg with
          | some c, some r => u.loadMcode n c r
          | _, _ => u
        if u.faults.safe.on then (v.leaveFence n).modTile n fun T => { T with mode := .fenced, fence := 0, change := 0, bySafe := true }
        else v.modTile n fun T => { T with mode := .selfTest, returning := true }
      else u.tileFails n (if fresh then 4 else 2) digestOk)

/-- The tiles that are ready return to service at a tick (04, R97). -/
def State.tilesReturn (s : State) : State :=
  eachOf (tkeys s.tiles fun n T => T.returning && T.mode == .selfTest && !s.opHolds n) (fun u n =>
    (u.leaveFence n).modTile n fun T => { T.scrubbed with
      mode := T.home, fence := 0, returning := false, reload := false, change := 0,
      mhz := if T.change = 2 then (T.asg.map (·.mhz)).getD 0 else T.mhz, sha2 := false }) s

/-! ### SET_POWER_LIMIT (R68; 11, R275; 12, R291) -/

/-- SET_POWER_LIMIT on behalf of a job: it completes when the limit takes effect (log 31). -/
def State.setPowerLimit (s : State) (j : Nat) (J : Job) : State :=
  let w := J.param.toNat
  if w < 90 ∨ 195 < w then s.badField j
  else
    let t := s.modJob j fun J => { J with phase := .background }
    let jobs := s.chart.powerJobs ++ [j]
    match s.chart.op with
    | some o => { t with chart := { t.chart with op := some { o with power := some w }, powerJobs := jobs } }
    | none => { t with chart := { t.chart with powerNext := some w, powerJobs := jobs } }

/-- SET_POWER_LIMIT. -/
def execSetPowerLimit (j : Nat) (s : State) : Out := adminRow 0x0022 j (fun s J => s.setPowerLimit j J) s

end Sys2Proof.Machine
end

