-- ==== Sys2Proof/Machine/Wire.lean ====
section
/-! DEFINITION. Field-port framing: neighbour entries, templates, encapsulation, the envelope header, fragments, sealing
and egress (14_partners_ports_time.md R326-R333, R340). -/

namespace Sys2Proof.Machine

/-! ### Neighbour entries and templates (R329) -/

/-- The 16 bytes of neighbour entry `e`. -/
def State.neighbour (s : State) (e : Nat) : Bytes := (tget s.partners.neighbours e).getD (zeros 16)

/-- The 32 bytes of template `t`; LOCAL_PORT resets to 34,997. -/
def State.template (s : State) (t : Nat) : Bytes := (tget s.partners.templates t).getD (zeros 2 ++ le 2 34997 ++ zeros 28)

/-- A neighbour entry is VALID. -/
def neighbourValid (n : Bytes) : Bool := bitOf (leAt n 9 1) 0

/-- MTU class of a port: FRAG_MAX (R332). -/
def fragMax (P : Port) : Nat := if P.jumbo then 8192 else 1024

/-! ### Checksums -/

/-- The 16-bit words of a byte string, big-endian, an odd last byte padded with zero. -/
def words16 : Bytes → List Nat
  | [] => []
  | [a] => [a.toNat * 256]
  | a :: b :: rest => (a.toNat * 256 + b.toNat) :: words16 rest

/-- The ones'-complement sum of 16-bit words. -/
def onesSum (b : Bytes) : Nat := (words16 b).foldl (fun acc w => let t := acc + w; t % 65536 + t / 65536) 0

/-- The Internet checksum. -/
def inetSum (b : Bytes) : Nat := 0xFFFF - onesSum b

/-- The pseudo-header of UDP over IPv4 or IPv6. -/
def pseudoHeader (v6 : Bool) (src dst : Bytes) (len : Nat) : Bytes :=
  if v6 then src ++ dst ++ be 4 len ++ zeros 3 ++ [17#8] else src ++ dst ++ [0#8, 17#8] ++ be 2 len

/-- A UDP datagram with its checksum over the whole of it. -/
def udpDatagram (v6 : Bool) (src dst : Bytes) (sport dport : Nat) (body : Bytes) : Bytes :=
  let len := 8 + body.length
  let head := be 2 sport ++ be 2 dport ++ be 2 len
  let c := inetSum (pseudoHeader v6 src dst len ++ head ++ zeros 2 ++ body)
  head ++ be 2 (if c = 0 then 0xFFFF else c) ++ body

/-- An IPv4 datagram: no options, DF set, the header checksum filled. -/
def ipv4 (tos ttl id : Nat) (src dst body : Bytes) : Bytes :=
  let h (c : Nat) : Bytes := [0x45#8] ++ be 1 tos ++ be 2 (20 + body.length) ++ be 2 id ++ be 2 0x4000 ++ be 1 ttl ++ [17#8] ++
    be 2 c ++ src ++ dst
  h (inetSum (h 0)) ++ body

/-- An IPv6 datagram without extension headers. -/
def ipv6 (tc flow hop : Nat) (src dst body : Bytes) : Bytes :=
  be 4 (6 * 2 ^ 28 + tc * 2 ^ 20 + flow % 2 ^ 20) ++ be 2 body.length ++ [17#8] ++ be 1 hop ++ src ++ dst ++ body

/-! ### Encapsulation (R329) -/

/-- The partner is reached over UDP. -/
def Partner.udp (P : Partner) : Bool := P.flags.getLsbD 2
/-- The partner is an operator console. -/
def Partner.console (P : Partner) : Bool := P.flags.getLsbD 0
/-- The partner answers an INIT without arming. -/
def Partner.autoAccept (P : Partner) : Bool := P.flags.getLsbD 1

/-- The Ethernet frame of a payload to a neighbour: the tag where TAGGED, and zero padding to the minimum size. -/
def ethFrame (mac : BitVec 48) (n : Bytes) (ethertype : Nat) (body : Bytes) : Bytes :=
  let vlan := leAt n 6 2
  let f := n.take 6 ++ be 6 mac.toNat ++ (if bitOf vlan 15 then be 2 0x8100 ++ be 2 (vlan % 32768) else []) ++ be 2 ethertype ++ body
  f ++ zeros (60 - f.length)

/-- The frame that carries an envelope to a partner, and the next IPv4 identification of its template. -/
def State.frameTo (s : State) (P : Partner) (env : Bytes) : Bytes :=
  let n := s.neighbour P.neighbour
  let port := s.port P.port
  if P.udp then
    let t := s.template P.template
    let v6 := leAt t 0 1 == 6
    let k := if v6 then 16 else 4
    let src := sliceOf t 4 k
    let dst := P.rip.take k
    let u := udpDatagram v6 src dst (leAt t 2 2) P.rport env
    if v6 then ethFrame port.mac n 0x86DD (ipv6 (leAt t 20 1) (leAt t 21 3) (leAt t 1 1) src dst u)
    else ethFrame port.mac n 0x0800 (ipv4 (leAt t 20 1) (leAt t 1 1) ((tget s.partners.ipId P.template).getD 0) src dst u)
  else ethFrame port.mac n port.etherType.toNat env

/-- The port carries egress: its link is up, its role is not DISABLED, and nothing has stopped it (R327, R69; 18, R415,
R423). -/
def State.egressOn (s : State) (p : Nat) : Bool :=
  let P := s.port p
  P.link && P.role != 0 && !P.stopped && !P.safeStop && !s.roleChanging p && (!s.partners.mode1 || p == 0) && decide (p < portsOf s.variant)

/-- The types that a role lets out (R327). -/
def typesOut (role : Nat) : List Nat :=
  if role = 1 then [0x01, 0x02, 0x03, 0x12, 0x15, 0x21] else if role = 2 then [0x01, 0x02, 0x03, 0x10, 0x13, 0x21] else []

/-- One envelope is handed to egress; a frame whose port cannot send or does not carry its type, or whose neighbour entry is not VALID,
is lost (log 32). -/
def State.egress (s : State) (P : Partner) (env : Bytes) : State :=
  if s.egressOn P.port ∧ (typesOut (s.port P.port).role).contains (leAt env 1 1) ∧ neighbourValid (s.neighbour P.neighbour) then
    let t := s.emit (.frame P.port (s.frameTo P env))
    if P.udp then { t with partners := { t.partners with
      ipId := tput t.partners.ipId P.template (((tget t.partners.ipId P.template).getD 0 + 1) % 65536) } } else t
  else s

/-! ### The envelope header and fragments (R331, R332) -/

/-- The 24-byte header. -/
def frameHeader (type len pid epoch seq idx count msg : Nat) : Bytes :=
  [1#8] ++ le 1 type ++ le 2 len ++ le 3 pid ++ le 1 epoch ++ le 8 seq ++ le 1 idx ++ le 1 count ++ zeros 2 ++ le 4 msg

/-- A message cut into fragments of at most `m` bytes; an empty message is one empty fragment. -/
def fragments (m : Nat) (b : Bytes) : List Bytes :=
  if b.isEmpty then [[]] else (List.range (ceilDiv b.length m)).map fun i => sliceOf b (m * i) m

/-- The nonce of a frame: IV XOR (four zero bytes, SEQ big-endian) (R340). -/
def frameNonce (iv : Bytes) (seq : Nat) : Bytes := xorBytes iv (zeros 4 ++ be 8 seq)

/-- The types of sealed frames. -/
def sealedType (t : Nat) : Bool := t == 0x03 || (0x10 ≤ t && t ≤ 0x15) || t == 0x21

/-- The envelopes of a message sealed under a key from SEQ `seq`. -/
def sealedFrames (P : Partner) (m : Nat) (type epoch seq msg : Nat) (key iv body : Bytes) : List Bytes :=
  let fs := fragments m body
  (List.zip (List.range fs.length) fs).map fun x =>
    let h := frameHeader type (40 + x.2.length) P.remoteId epoch (seq + x.1) x.1 fs.length msg
    h ++ gcmSeal key (frameNonce iv (seq + x.1)) h x.2

/-- The envelopes of an unsealed message: SEQ 0. -/
def plainFrames (P : Partner) (m : Nat) (type epoch msg : Nat) (body : Bytes) : List Bytes :=
  let fs := fragments m body
  (List.zip (List.range fs.length) fs).map fun x =>
    frameHeader type (24 + x.2.length) P.remoteId epoch 0 x.1 fs.length msg ++ x.2

/-- Envelopes handed to egress in order. -/
def State.egressAll (s : State) (P : Partner) (l : List Bytes) : State := l.foldl (fun u e => u.egress P e) s

/-- A sealed message of a type to a partner with a live session: its frames take the next SEQs and one MSG_ID, and go to
egress (R340). -/
def State.sendMessage (s : State) (p : Nat) (type : Nat) (body : Bytes) : State :=
  match s.partner? p with
  | none => s
  | some P =>
    match P.session with
    | none => s
    | some E =>
      let l := sealedFrames P (fragMax (s.port P.port)) type E.num E.nextSeq E.nextMsg E.keyOut E.ivOut body
      (s.egressAll P l).modPartner p fun P => { P with
        used := s.time.elapsed,
        session := some { E with nextSeq := E.nextSeq + l.length, nextMsg := (E.nextMsg + 1) % 2 ^ 32,
                                 frames := max E.frames (E.nextSeq + l.length - 1) } }

end Sys2Proof.Machine
end

