-- ==== Sys2Proof/Machine/Partners.lean ====
section
/-! DEFINITION. Partners: registration, the Context Directory, sessions and their keys, the start of a Sounding, and the
family 0xA jobs (14_partners_ports_time.md R334-R345). -/

namespace Sys2Proof.Machine

/-! ### Jobs of the authority service and of partner sessions -/

/-- A family 0x9 or 0xA job acts once it is staged, nothing before it is awaited, and the device is not in the safe state
(10, R223, R238; 11, R272). -/
def serviceRow (op j : Nat) (f : State → Job → State) (s : State) : Out :=
  match s.job? j with
  | none => noIndex
  | some J =>
    done s (if J.opcode ≠ op ∨ J.phase ≠ .staged ∨ s.fenceWaits J ∨ s.faults.safe.on then s else f s J)

/-- A job with tile steps also waits while a LOAD_CHART has stopped their admission (03, R69, R70). -/
def stepRow (op j : Nat) (f : State → Job → State) (s : State) : Out :=
  serviceRow op j (fun s J => if s.chartStops then s else f s J) s

/-- Every run of a job's steps has ended. -/
def Job.stepsEnded (J : Job) : Bool := J.steps.all fun st => st.runs.all fun r => r.mode == .ended

/-- A job with tile steps of its own acts twice: `f` once it may be admitted, and `g` once its steps have ended. -/
def workRow (op j : Nat) (f g : State → Job → State) (s : State) : Out :=
  match s.job? j with
  | none => noIndex
  | some J => if J.opcode = op ∧ J.phase = .placed ∧ J.stepsEnded then done s (g s J) else stepRow op j f s

/-- A job that needs no step is accepted and ends. -/
def State.served (s : State) (j : Nat) (J : Job) (result : Nat) (ret : Bytes := []) : State :=
  (s.acceptJob j [] [] J.cls 0 J.al2).endJob j St.ok result ret

/-- A job that needs no step is accepted, writes a block at DST and ends; a block that cannot be written is DST_FAULT. -/
def State.servedBlock (s : State) (j : Nat) (J : Job) (block : Bytes) (result : Nat) : State :=
  let t := s.acceptJob j [] [] J.cls 0 J.al2
  match s.wrFault (s.memOf J) J.dst block.length with
  | some k => t.endJob j St.dstFault k
  | none => (t.wr (s.memOf J) J.dst block).endJob j St.ok result

/-- The demand of steps that the authority service generates, staged in Helm staging (01, R22; 03, R65). -/
def serviceDemand (cls post : Nat) (plan : List StepPlan) : Demand :=
  { fn := 0x100, cls := cls, quad := 4, len := 0, lat := 0, post := post, plan := plan, slot := none }

/-- The Reckoner's answer on such steps. -/
def State.serviceAsk (s : State) (cls post : Nat) (plan : List StepPlan) : Verdict :=
  s.reckon (serviceDemand cls post plan) (s.deadlineUs cls) 0 0

/-- The device's own job that carries steps of the authority service or of a partner session; it holds no completion. -/
def State.startWork (s : State) (W : Job) (steps : List JobStep) (units : List (Nat × Nat × Nat)) : State × Nat :=
  let w := s.nextSeq
  (({ s with jobs := tput s.jobs w { W with src := .internal, seq := w, phase := .staged }, nextSeq := w + 1 }).acceptJob w steps
    units W.cls 0 W.al2, w)

/-- The context of partner `p` costs what waits for its move: 3 µs for the spill that makes room while every slot is taken, and 2 µs
for its own restore; in ns (02, R58). -/
def State.ctxNs (s : State) (p : Nat) : Nat :=
  match s.partner? p with
  | none => 0
  | some P =>
    if P.moving then P.moveNs
    else if P.inSlot then 0
    else (if tcount s.partners.table (fun _ Q => Q.inSlot) < 65536 then 0 else 3000) + (if P.spilled then 2000 else 0)

/-- The demand of steps that a session of partner `p` generates: the share is its owner's, and routes see function 0x100 (R339, R343;
03, R65; log 94). -/
def State.partnerDemand (s : State) (owner cls p len : Nat) (plan : List StepPlan) : Demand :=
  { fn := owner, cls := cls, quad := s.stageQuad ((plan.find? fun st => st.pers != 0).bind fun st => s.route 0x100 cls st.pers),
    len := len, lat := 450 * s.ctxNs p, post := 200, plan := plan, slot := none, route := some 0x100 }

/-- Steps of `len` bytes that a session of partner `p` generates are admitted and placed on a job of the device's own; their effect is
taken with their admission (log 94). Else the reason why not. -/
def State.takeStep (s : State) (owner cls p len : Nat) (plan : List StepPlan) : Except Nat State :=
  match s.reckon (s.partnerDemand owner cls p len plan) (s.deadlineUs cls) 0 0 with
  | .refuse r => .error r
  | .place steps units =>
    .ok (s.startWork { fn := owner, opcode := 0xA200, partner := p, cls := cls, totalLen := len, al2 := plan.any StepPlan.dup,
                       quadrant := some (s.partnerDemand owner cls p len plan).quad, out := some { gone := true } } steps units).1

/-! ### Rights (R335, R336) -/

/-- The partner is registered and usable. -/
def Partner.usable (P : Partner) : Bool := !P.scrub && !P.dead

/-- The partner that a job names, where its function may use it. -/
def State.partnerFor (s : State) (J : Job) : Option Partner :=
  (s.partner? J.partner).bind fun P =>
    if P.usable ∧ (P.owner = J.fn ∨ (J.fn = 0 ∧ P.owner = 0x100)) then some P else none

/-- The role of the partner's port lets it hold a session there (R327). -/
def State.roleFits (s : State) (P : Partner) : Bool := (s.port P.port).role == (if P.console then 1 else 2)

/-! ### The Context Directory (R344, R345) -/

/-- An accepted job or an ingress step of its own uses the context of partner `p`. -/
def State.ctxPinned (s : State) (p : Nat) : Bool :=
  s.jobs.any fun e => famOf e.2.opcode == 10 && e.2.partner == p && e.2.accepted.isSome && e.2.phase != .ended

/-- The 256 bytes of a context in its slot: the keys, the sequence numbers and the window of its epochs (log 82). -/
def Partner.contextBytes (P : Partner) : Bytes :=
  let one (E : Epoch) : Bytes :=
    le 1 E.num ++ E.keyIn ++ E.keyOut ++ E.ivIn ++ E.ivOut ++ le 8 E.nextSeq ++ le 4 E.nextMsg ++ le 8 E.high
  fit 256 ((P.session.map one).getD [] ++ (P.old.map fun o => one o.1).getD [])

/-- A slot for partner `p`: its own, a free one, or that of the least recently used idle context, which is spilled. -/
def State.takeSlot (s : State) (p : Nat) : Option State :=
  match s.partner? p with
  | none => none
  | some P =>
    if P.inSlot then some s
    else if tcount s.partners.table (fun _ Q => Q.inSlot) < 65536 then
      some (s.modPartner p fun P => { P with inSlot := true, spilled := false })
    else
      (leastBy (fun e => e.2.used) (s.partners.table.filter fun e => e.2.inSlot && !e.2.moving && !s.ctxPinned e.1)).map fun e =>
        let t := (s.sealObject 1 e.1 e.2.contextBytes).modPartner e.1 fun Q =>
          { Q with inSlot := false, spilled := true, moving := true, moveNs := 3000 }
        let t := { t with partners := { t.partners with spills := (t.partners.spills + 1) % 2 ^ 64 } }
        t.modPartner p fun P => { P with inSlot := true, spilled := false }

/-- A context that a frame or a job touches: ready; to be waited for, a restore begun; or without a slot. -/
inductive Ctx
  | ready
  | wait (s : State)
  | full (s : State)

/-- Touch the context of partner `p`. -/
def State.touch (s : State) (p : Nat) : Ctx :=
  match s.partner? p with
  | none => .ready
  | some P =>
    if P.session.isNone then .ready
    else if P.moving then .wait s
    else if P.inSlot then .ready
    else match s.takeSlot p with
    | some t => .wait (t.modPartner p fun P => { P with moving := true, moveNs := s.ctxNs p })
    | none => .full { s with partners := { s.partners with full := satAdd 32 s.partners.full 1 } }

/-- A session and its keys end; a handshake in progress ends with it. -/
def State.dropKeys (s : State) (p : Nat) : State :=
  s.modPartner p fun P => { P with session := none, old := none, inSlot := false, spilled := false, moving := false, reas := none }

/-- CONTEXT_SPILL_DONE: an eviction or a restore ends; a context whose sealed copy fails its check is lost, the jobs that
wait for it complete with MCHECK, and the event is recorded on its port's sealed lines (01, R35). -/
def execContextSpillDone (partner : Nat) (ok : Bool) (t : Nat) (s : State) : Out :=
  let u := s.at_ t
  within (decide (partner < 2 ^ 24)) s (
    match u.partner? partner with
    | none => u
    | some P =>
      if ¬ P.moving then u
      else if ok then u.modPartner partner fun P => { P with moving := false, moveNs := 0 }
      else
        let waits := tkeys u.jobs fun _ J => famOf J.opcode == 10 && J.partner == partner && J.phase != .ended && J.phase != .pooled
        (eachOf waits (fun v j => v.endJob j St.mcheck 0) (u.dropKeys partner)).pmemFail (u.portOf 1 partner) 2 none)

/-! ### Registration (R334, R335) -/

/-- The record's fixed fields and reserved fields are in order. -/
def recordOk (b : Bytes) (fn ports : Nat) : Bool :=
  let fl := leAt b 11 1
  let udp := bitOf fl 2
  (leAt b 8 2 == fn || (fn == 0 && leAt b 8 2 == 0x100)) && decide (leAt b 10 1 < ports) && fl < 8 &&
  (!bitOf fl 0 || leAt b 8 2 == 0x100) && leAt b 15 1 == 0 && leAt b 16 2 < 1024 && leAt b 18 1 < 64 && leAt b 19 1 == 0 &&
  leAt b 22 2 == 0 && (udp || (leAt b 18 1 == 0 && leAt b 20 2 == 0 && allZero (sliceOf b 24 16))) &&
  ((List.range 4).all fun i => let g := leAt b (40 + 2 * i) 2; g < 4096 || g == 0xFFFF) && allZero (sliceOf b 48 16)

/-- The partner that a record describes. -/
def partnerOf (b : Bytes) : Partner :=
  { key := leAt b 0 4, localKey := leAt b 4 4, owner := leAt b 8 2, port := leAt b 10 1, flags := BitVec.ofNat 8 (leAt b 11 1),
    remoteId := leAt b 12 3, neighbour := leAt b 16 2, template := leAt b 18 1, rport := leAt b 20 2, rip := sliceOf b 24 16,
    groups := ((List.range 4).map fun i => leAt b (40 + 2 * i) 2).filter (· != 0xFFFF) }

/-- A key of an owner by handle, with its algorithm and kind. -/
def State.ownKey (s : State) (f h alg : Nat) (kind : KeyKind) : Option Key :=
  (s.visibleKey f h).bind fun K => if K.alg = alg ∧ K.kind = kind then some K else none

/-- The lowest free partner ID. -/
def State.freePartner (s : State) : Option Nat :=
  (lowestFree (fun p => (s.partner? p).isSome) (s.partners.table.length + 1) 0).bind fun p => if p < 2 ^ 24 then some p else none

/-- REGISTER_PARTNER: the record's checks, its keys, and the lowest free ID. -/
def execRegisterPartner (j : Nat) (s : State) : Out :=
  serviceRow 0xA000 j (fun s J =>
    let P := partnerOf J.input
    if ¬ recordOk J.input J.fn (portsOf s.variant) then s.endJob j St.malformed 0
    else match s.ownKey P.owner P.key 0x2002 .pub, s.ownKey P.owner P.localKey 0x2002 .priv with
    | some K, some L =>
      if ¬ K.usage.getLsbD 1 ∨ ¬ L.usage.getLsbD 0 then s.endJob j St.policyDeny 0
      else (match s.freePartner with
        | none => s.endJob j St.partnerLimit 0
        | some p => ({ s with partners := { s.partners with table := tput s.partners.table p P } }).served j J p)
    | _, _ => s.endJob j St.keyInvalid 0) s

/-! ### The end of a handshake or a session -/

/-- The handshake of partner `p` ends with a status for the job that waits for it. -/
def State.endHandshake (s : State) (p status result : Nat) : State :=
  match (s.partner? p).bind (·.hs) with
  | none => s
  | some h =>
    let t := s.modPartner p fun P => { P with hs := none }
    match h.job with
    | none => t
    | some j => t.endJob j status result

/-- CLOSE is sent where a session is live, and the session ends. -/
def State.closePartner (s : State) (p : Nat) : State := ((s.sendMessage p 0x21 []).dropKeys p).endHandshake p St.aborted 0

/-- A command on a partner's context that needs no step: it waits for a move, or finds every slot pinned. -/
def State.withContext (s : State) (j p : Nat) (f : State → State) : State :=
  match s.touch p with
  | .ready => f s
  | .wait t => t
  | .full t => t.endJob j St.ctxFull 0

/-- A job with a step begins a move that its partner's context needs, and waits for it once it is accepted (R344, R345). -/
def State.onContext (s : State) (j p : Nat) (f : State → State) : State :=
  match s.touch p with
  | .ready => f s
  | .wait t => f t
  | .full t => t.endJob j St.ctxFull 0

/-- The reasons of R336. -/
def State.partnerDeny (s : State) (j reason : Nat) : State := s.endJob j St.policyDeny reason

/-- DEREGISTER_PARTNER: CLOSE where a session is live; the context and its copy go, the ID once their scrub has ended. -/
def execDeregisterPartner (j : Nat) (s : State) : Out :=
  serviceRow 0xA100 j (fun s J =>
    match s.partnerFor J with
    | none => s.partnerDeny j 0x0304
    | some _ => s.withContext j J.partner fun s =>
        ((s.closePartner J.partner).modPartner J.partner fun P => { P with scrub := true, armed := false }).served j J 0) s

/-- PARTNER_SCRUB_COMPLETE: the ID is free again. -/
def execPartnerScrubComplete (partner t : Nat) (s : State) : Out :=
  let u := s.at_ t
  within (decide (partner < 2 ^ 24)) s (
    match u.partner? partner with
    | some P => if P.scrub ∧ ¬ P.dead then { u with partners := { u.partners with table := tdel u.partners.table partner } } else u
    | none => u)

/-! ### The start of a Sounding (R337, R339, R342) -/

/-- The plan of a list of operations, each at AL1 or AL2. -/
def opsPlan (ops : List (Nat × Bool)) : List StepPlan := ops.flatMap fun o => planOf o.1 0 64 o.2 {}

/-- What the initiator's first step computes. -/
def initPlan : List StepPlan := opsPlan [(0x1002, false), (0x5701, false)]

/-- Handshakes in the table. -/
def State.handshakes (s : State) : Nat := tcount s.partners.table fun _ P => P.hs.isSome

/-- The device begins a Sounding with partner `p`: its ephemeral values are drawn, and INIT is sent. -/
def State.startSounding (s : State) (p : Nat) (job : Option Nat) : State :=
  match s.partner? p with
  | none => s
  | some P =>
    let d := s.draws
    let kem := pairOf 0x1002 (drbgBytes d 64)
    let x := pairOf 0x5701 (drbgBytes (d + 64) 32)
    let msg := kem.pk ++ x.pk ++ drbgBytes (d + 96) 32
    let e := (P.lastEpoch + 1) % 256
    let t := (s.drawn 128).modPartner p fun P => { P with
      lastEpoch := e,
      hs := some { initiator := true, job := job, epoch := e, initMsg := msg, secret := kem.sk ++ x.sk, sentAt := s.time.elapsed } }
    t.egressAll P (plainFrames P (fragMax (s.port P.port)) 0x01 e 0 msg)

/-- SOUNDING_INITIATE and REKEY: the job waits for the handshake that it starts; a second one waits for the first. -/
def State.sounding (s : State) (j : Nat) (J : Job) (rekey : Bool) : State :=
  match s.partnerFor J with
  | none => s.partnerDeny j 0x0304
  | some P =>
    if rekey ∧ P.session.isNone then s.partnerDeny j 0x0301
    else if ¬ s.roleFits P then s.partnerDeny j 0x0302
    else if ¬ (s.port P.port).link then s.partnerDeny j 0x0303
    else if P.hs.isSome then s
    else if 4096 ≤ s.handshakes then s.endJob j St.ctxFull 0x0010
    else s.onContext j J.partner fun s =>
      match s.takeStep P.owner s.partners.hsClass J.partner 0 initPlan with
      | .error r => s.notAdmit j r
      | .ok s => ((s.acceptJob j [] [] J.cls 0 J.al2).modJob j fun J => { J with phase := .background }).startSounding J.partner (some j)

/-- SOUNDING_INITIATE. -/
def execSoundingInitiate (j t : Nat) (s : State) : Out :=
  stepRow 0xA200 j (fun s J => s.sounding j J false) (s.at_ t)

/-- REKEY. -/
def execRekey (j t : Nat) (s : State) : Out := stepRow 0xA600 j (fun s J => s.sounding j J true) (s.at_ t)

/-- SOUNDING_ACCEPT: arm or disarm. -/
def execSoundingAccept (j : Nat) (s : State) : Out :=
  serviceRow 0xA300 j (fun s J =>
    match s.partnerFor J with
    | none => s.partnerDeny j 0x0304
    | some _ => (s.modPartner J.partner fun P => { P with armed := J.param = 1 }).served j J 0) s

/-! ### SEND, RECEIVE, CLOSE_SESSION (R340, R343) -/

/-- The sealing of a message in frames of at most `m` bytes on a SYMM tile. -/
def sealPlan (m len : Nat) (al2 : Bool) : List StepPlan :=
  [{ kind := .seal, pers := 5, entry := 0x6003,
     cyc := (((List.range (max 1 (ceilDiv len m))).map fun i => symmCycles 0x6003 24 (min m (len - m * i)) al2)).sum }]

/-- What a SEND demands: its seal, in its own function's route and share (03, R65). -/
def State.sendDemand (s : State) (J : Job) (m : Nat) : Demand :=
  { fn := J.fn, cls := J.cls, quad := J.quadrant.getD 4, len := J.totalLen, lat := 450 * s.ctxNs J.partner, post := 200,
    plan := sealPlan m J.totalLen J.al2, slot := none }

/-- The fragments of a SEND whose seal has ended are handed to egress, and it completes; without its session it completes with
NO_SESSION (R336, R342). -/
def State.sendOut (s : State) (j : Nat) (J : Job) : State :=
  match (s.partner? J.partner).bind fun P => P.session.map fun E => (P, E) with
  | none => s.partnerDeny j 0x0301
  | some (P, E) =>
    (s.sendMessage J.partner 0x10 J.input).endJob j St.ok (fragments (fragMax (s.port P.port)) J.input).length (le 8 E.nextSeq)

/-- SEND: admission places the seal of every fragment; the command that finds it ended hands them to egress (log 34). -/
def execSend (j : Nat) (s : State) : Out :=
  workRow 0xA400 j (fun s J =>
    match s.partnerFor J with
    | none => s.partnerDeny j 0x0304
    | some P =>
      if P.session.isNone then s.partnerDeny j 0x0301
      else if P.console ∨ ¬ s.roleFits P then s.partnerDeny j 0x0302
      else if ¬ (s.port P.port).link then s.partnerDeny j 0x0303
      else s.onContext j J.partner fun s =>
        match s.reckon (s.sendDemand J (fragMax (s.port P.port))) (s.deadlineUs J.cls) 0 0 with
        | .refuse r => s.notAdmit j r
        | .place steps units => s.acceptJob j steps units J.cls 0 J.al2) (fun s J => s.sendOut j J) s

/-- A pooled RECEIVE takes a message: accepted at this moment, it releases the message to DST. -/
def State.deliver (s : State) (j p seq : Nat) (msg : Bytes) : State :=
  match s.job? j with
  | none => s
  | some J =>
    let t := s.acceptJob j [] [] J.cls msg.length J.al2
    match s.wrFault (s.memOf J) J.dst msg.length with
    | some k => t.endJob j St.dstFault k
    | none => (t.wr (s.memOf J) J.dst msg).endJob j St.ok msg.length (le 4 p ++ le 8 seq)

/-- A RECEIVE takes a message of partner `p` of `len` bytes. -/
def Job.takesMessage (J : Job) (p len : Nat) : Bool :=
  (bitOf J.param.toNat 18 || J.partner == p) && decide (len ≤ bitsOf J.param.toNat 17 0)

/-- The functions whose RECEIVEs may take messages of an owner's partners. -/
def receivers (owner : Nat) : List Nat := if owner = 0x100 then [0x100, 0] else [owner]

/-- The owners whose messages a function's RECEIVEs may take. -/
def owners (f : Nat) : List Nat := if f = 0 then [0, 0x100] else [f]

/-- The oldest pooled RECEIVE that takes a message. -/
def State.poolFor (s : State) (owner p len : Nat) : Option Nat :=
  ((leastBy (fun e => e.2.seq) (s.jobs.filter fun e =>
    e.2.phase == .pooled && (receivers owner).contains e.2.fn && e.2.takesMessage p len)).map (·.1))

/-- The RECEIVEs that a function holds in its pool. -/
def State.poolCount (s : State) (f : Nat) : Nat := tcount s.jobs fun _ J => J.phase == .pooled && J.fn == f

/-- The oldest waiting message that a RECEIVE takes: its owner and the message. -/
def State.waitingFor (s : State) (J : Job) : Option (Nat × Nat × Nat × Bytes × Nat) :=
  leastBy (fun x => x.2.2.2.2) ((owners J.fn).flatMap fun o =>
    ((s.fn o).backlog.filter fun m => J.takesMessage m.1 m.2.2.1.length).map fun m => (o, m))

/-- RECEIVE: a waiting message is taken at once; otherwise the job enters its function's pool, once that has room. -/
def execReceive (j t : Nat) (s : State) : Out :=
  serviceRow 0xA500 j (fun s J =>
    if ¬ bitOf J.param.toNat 18 ∧ (s.partnerFor J).isNone then s.partnerDeny j 0x0304
    else match s.waitingFor J with
    | some (o, p, seq, msg, at_) =>
      (s.modFn o fun F => { F with backlog := F.backlog.erase (p, seq, msg, at_) }).deliver j p seq msg
    | none =>
      if 4096 ≤ s.poolCount J.fn then s
      else s.modJob j fun J => { J with phase := .pooled }) (s.at_ t)

/-- CLOSE_SESSION. -/
def execCloseSession (j : Nat) (s : State) : Out :=
  serviceRow 0xA700 j (fun s J =>
    match s.partnerFor J with
    | none => s.partnerDeny j 0x0304
    | some P =>
      if P.session.isNone then s.partnerDeny j 0x0301
      else s.withContext j J.partner fun s => (s.closePartner J.partner).served j J 0) s

end Sys2Proof.Machine
end

