-- ==== Sys2Proof/Machine/Orders.lean ====
section
/-! DEFINITION. The forms of the authority service: envelopes, signature blocks, policy images, receipts, endorsed orders,
and the checks that need only them (13_authority_service.md R300-R313, R316). -/

namespace Sys2Proof.Machine

/-- `n` rounded up to a multiple of 8. -/
def pad8 (n : Nat) : Nat := 8 * ceilDiv n 8

/-! ### Signature blocks (R301) -/

/-- A signature block. -/
structure SigBlock where
  alg    : Nat
  signer : Nat
  sig    : Bytes
deriving DecidableEq, Repr

/-- SIG_LEN of the algorithms that an order may carry. -/
def orderSigLen (alg : Nat) : Option Nat :=
  match alg with
  | 0x2001 => some 2420 | 0x2002 => some 3309 | 0x2003 => some 4627 | 0x5001 => some 64 | 0x5002 => some 96 | 0x5401 => some 64
  | _ => none

/-- `n` blocks that fill a byte string exactly. -/
def parseBlocks : Nat → Bytes → Option (List SigBlock)
  | 0, b => if b.isEmpty then some [] else none
  | n + 1, b =>
    match orderSigLen (leAt b 0 2) with
    | none => none
    | some l =>
      if leAt b 2 2 ≠ l ∨ b.length < 8 + pad8 l ∨ ¬ allZero (sliceOf b (8 + l) (pad8 l - l)) then none
      else match parseBlocks n (b.drop (8 + pad8 l)) with
      | none => none
      | some rest => some ({ alg := leAt b 0 2, signer := leAt b 4 4, sig := sliceOf b 8 l } :: rest)

/-! ### Envelopes (R300, R321) -/

/-- Where the signature blocks of an envelope begin. -/
def bodyLen (b : Bytes) : Nat := 64 + pad8 (leAt b 48 4)

/-- The body: what is endorsed. -/
def envBody (b : Bytes) : Bytes := b.take (bodyLen b)

/-- The signed body: SIG_COUNT replaced by zero (R302). -/
def signedBody (b : Bytes) : Bytes := overlay (envBody b) 6 [0#8]

/-- Fields of an envelope. -/
def envKind (b : Bytes) : Nat := leAt b 7 1 % 4
/-- TARGET. -/
def envTarget (b : Bytes) : Nat := leAt b 16 4
/-- COMMAND_CLASS. -/
def envClass (b : Bytes) : Nat := leAt b 20 2
/-- NOT_BEFORE. -/
def envNotBefore (b : Bytes) : Nat := leAt b 24 8
/-- NOT_AFTER. -/
def envNotAfter (b : Bytes) : Nat := leAt b 32 8
/-- SEQUENCE. -/
def envSeq (b : Bytes) : Nat := leAt b 40 8
/-- NEW_TIME of a time-set order. -/
def envNewTime (b : Bytes) : Nat := leAt b 64 8

/-- The signature blocks of an envelope. -/
def envBlocks (b : Bytes) : Option (List SigBlock) := parseBlocks (leAt b 6 1) (b.drop (bodyLen b))

/-- The envelope's header can be read. -/
def envHeader (b : Bytes) : Bool := decide (64 ≤ b.length) && leAt b 0 4 == 0x5244524F && leAt b 4 2 == 1

/-- The form of a time-set order (R321). -/
def timeSetForm (b : Bytes) : Bool :=
  envClass b == 0 && envKind b == 2 && leAt b 48 4 == 16 && allZero (sliceOf b 72 8)

/-- Line 1 of R306. -/
def wellFormedOrder (b : Bytes) (timeSet : Bool) : Bool :=
  let k := envKind b
  envHeader b && decide (1 ≤ leAt b 6 1) && leAt b 6 1 ≤ 8 && leAt b 7 1 < 3 &&
  (if k = 0 then envTarget b < 2 ^ 24 else if k = 1 then envTarget b < 4096 else envTarget b == 0) &&
  leAt b 22 2 == 0 && decide (envNotBefore b ≤ envNotAfter b) && envSeq b != 0 && leAt b 48 4 ≤ 65536 && allZero (sliceOf b 52 12) &&
  decide (bodyLen b ≤ b.length) && allZero (sliceOf b (64 + leAt b 48 4) (pad8 (leAt b 48 4) - leAt b 48 4)) &&
  (envBlocks b).isSome && (if timeSet then timeSetForm b else envClass b != 0)

/-! ### Receipts (R313) -/

/-- The 96-byte receipt. -/
def receiptOf (env : Bytes) (reason seq time rule node ver : Nat) : Bytes :=
  let ok := envHeader env
  le 4 0x54504352 ++ le 2 1 ++ le 2 reason ++ le 8 (if ok then leAt env 8 8 else 0) ++ le 8 seq ++ le 8 time ++ le 2 rule ++
  le 2 node ++ le 4 ver ++ le 8 (leAt env 40 8) ++ sha384 env

/-- The endorsed order without its signatures (R316). -/
def endorsedHead (env : Bytes) (alg seq time ver rule node : Nat) : Bytes :=
  le 4 0x4F444E45 ++ le 2 1 ++ le 2 alg ++ le 8 (leAt env 8 8) ++ le 8 seq ++ le 8 time ++ le 4 ver ++ le 2 rule ++ le 2 node ++
  le 4 (bodyLen env) ++ zeros 20 ++ envBody env

/-! ### Policy images (R303-R305) -/

/-- Where the signers, the rules and the signature blocks of an image begin. -/
def signersAt (b : Bytes) : Nat := 64 + 8 * leAt b 28 1
/-- The rules. -/
def rulesAt (b : Bytes) : Nat := signersAt b + 16 * leAt b 26 2
/-- The signature blocks. -/
def policySigAt (b : Bytes) : Nat := rulesAt b + 64 * leAt b 24 2

/-- The signature blocks of a policy image. -/
def policyBlocks (b : Bytes) : Option (List SigBlock) := parseBlocks (leAt b 6 1) (b.drop (policySigAt b))

/-- A rule record. -/
def ruleAt (b : Bytes) (o : Nat) : Rule :=
  { id := leAt b o 2, flags := BitVec.ofNat 8 (leAt b (o + 2) 1), kinds := BitVec.ofNat 8 (leAt b (o + 3) 1),
    lo := leAt b (o + 4) 2, hi := leAt b (o + 6) 2, group := leAt b (o + 8) 2, cls := leAt b (o + 10) 1, fanout := leAt b (o + 11) 1,
    masks := (List.range 4).map fun i => BitVec.ofNat 32 (leAt b (o + 12 + 4 * i) 4),
    mins := (List.range 4).map fun i => leAt b (o + 28 + i) 1,
    winStart := leAt b (o + 32) 4, winEnd := leAt b (o + 36) 4, dow := BitVec.ofNat 8 (leAt b (o + 40) 1),
    permit := BitVec.ofNat 8 (leAt b (o + 41) 1), permitMs := leAt b (o + 44) 4, bucket := leAt b (o + 48) 2,
    tBucket := leAt b (o + 50) 2, refill := leAt b (o + 52) 4, tRefill := leAt b (o + 56) 4, graceMs := leAt b (o + 60) 4 }

/-- Flags of a rule. -/
def Rule.enabled (R : Rule) : Bool := R.flags.getLsbD 0
/-- DENY. -/
def Rule.deny (R : Rule) : Bool := R.flags.getLsbD 1
/-- FORWARD. -/
def Rule.forward (R : Rule) : Bool := R.flags.getLsbD 2
/-- EXPECT_RESPONSE. -/
def Rule.expects (R : Rule) : Bool := R.flags.getLsbD 3

/-- A refill period fits its bucket. -/
def refillOk (bucket ms : Nat) : Bool := bucket == 0 || (decide (1 ≤ ms) && decide (ms ≤ 86400000))

/-- A rule record is in order (R305). -/
def ruleOk (b : Bytes) (o : Nat) : Bool :=
  let R := ruleAt b o
  R.id != 0 && R.flags.toNat < 16 && R.kinds.toNat < 8 && decide (1 ≤ R.lo) && decide (R.lo ≤ R.hi) &&
  (R.group < 4096 || R.group == 0xFFFF) &&
  (if R.deny then allZero (sliceOf b (o + 10) 54)
   else R.cls ≤ 6 && R.fanout ≤ 7 && (R.mins.all (· ≤ 8)) && decide (1 ≤ R.mins.sum) && decide (R.mins.sum ≤ 8) && R.winStart < 86400 &&
     R.winEnd < 86400 && R.dow.toNat < 128 && leAt b (o + 42) 2 == 0 &&
     (if R.permit = 0 then R.permitMs == 0 else decide (1 ≤ R.permitMs) && decide (R.permitMs ≤ 3600000)) &&
     refillOk R.bucket R.refill && refillOk R.tBucket R.tRefill && R.graceMs ≤ 3600000) &&
  !(R.kinds.getLsbD 2 && R.forward)

/-- The decoded view of a policy image. -/
def parsePolicy (b : Bytes) : Policy :=
  { image := b, version := leAt b 8 4, activate := leAt b 16 8, officerK := leAt b 7 1,
    officers := (List.range (leAt b 28 1)).map fun i => (leAt b (64 + 8 * i) 4, leAt b (68 + 8 * i) 2),
    fleetAlg := leAt b 29 1, fleetKey := leAt b 32 4, fleetKey2 := leAt b 36 4, maxValid := leAt b 40 4,
    timeRoles := BitVec.ofNat 32 (leAt b 44 4), timeM := leAt b 48 1,
    signers := (List.range (leAt b 26 2)).map fun i =>
      let o := signersAt b + 16 * i
      { handle := leAt b o 4, operator := leAt b (o + 4) 2, enabled := bitOf (leAt b (o + 6) 2) 0,
        roles := BitVec.ofNat 32 (leAt b (o + 8) 4) },
    rules := (List.range (leAt b 24 2)).map fun i => ruleAt b (rulesAt b + 64 * i) }

/-- FORMAT of R322. -/
def policyFormat (b : Bytes) : Bool :=
  let n := leAt b 28 1
  let ids := (parsePolicy b).rules.map (·.id)
  decide (64 ≤ b.length) && leAt b 0 4 == 0x59434C50 && leAt b 4 2 == 1 && decide (1 ≤ leAt b 6 1) && leAt b 6 1 ≤ 16 &&
  decide (1 ≤ leAt b 7 1) && decide (leAt b 7 1 ≤ n) && leAt b 12 4 == b.length && leAt b 24 2 ≤ 4096 && leAt b 26 2 ≤ 256 &&
  decide (1 ≤ n) && n ≤ 16 && (leAt b 29 1 == 1 || leAt b 29 1 == 2) && leAt b 30 2 == 0 && decide (1 ≤ leAt b 40 4) &&
  leAt b 40 4 ≤ 86400 && decide (1 ≤ leAt b 48 1) && leAt b 48 1 ≤ 8 && allZero (sliceOf b 49 15) &&
  decide (policySigAt b ≤ b.length) && ((List.range n).all fun i => leAt b (70 + 8 * i) 2 == 0) &&
  ((List.range (leAt b 26 2)).all fun i =>
    let o := signersAt b + 16 * i
    leAt b (o + 4) 2 != 0 && leAt b (o + 6) 2 < 2 && leAt b (o + 12) 4 == 0) &&
  ((List.range (leAt b 24 2)).all fun i => ruleOk b (rulesAt b + 64 * i)) && ids.eraseDups.length == ids.length &&
  (match policyBlocks b with
   | some l => l.all fun x => x.alg == 0x2003
   | none => false)

/-! ### Quorum and window (R308, R309) -/

/-- Every term slot takes a signer of its own whose roles meet its mask. -/
def assigns : List (BitVec 32) → List (BitVec 32) → Bool
  | [], _ => true
  | m :: ms, rs => (List.range rs.length).any fun i => (rs.getD i 0) &&& m != 0#32 && assigns ms (rs.eraseIdx i)

/-- A quorum assignment exists for the roles of the verified signers. -/
def quorumMet (R : Rule) (roles : List (BitVec 32)) : Bool :=
  assigns ((List.zip R.masks R.mins).flatMap fun x => List.replicate x.2 x.1) roles

/-- The window of a rule is open at Almanac time `t`. -/
def windowOpen (R : Rule) (t : Nat) : Bool :=
  let tod := t / 10 ^ 9 % 86400
  let dow := (t / (86400 * 10 ^ 9) + 3) % 7
  R.dow.getLsbD dow &&
  (R.winStart == R.winEnd ||
   (decide (R.winStart < R.winEnd) && decide (R.winStart ≤ tod) && decide (tod < R.winEnd)) ||
   (decide (R.winEnd < R.winStart) && (decide (R.winStart ≤ tod) || decide (tod < R.winEnd))))

/-! ### Buckets (R310) -/

/-- A bucket refilled at elapsed count `e`. -/
def refill (size ms e : Nat) (B : Bucket) : Bucket :=
  let step := ms * 1000000
  let n := if step = 0 then 0 else (e - B.last) / step
  let B := if B.tokens < size then { B with tokens := min size (B.tokens + n), last := B.last + n * step } else B
  if size ≤ B.tokens then { B with tokens := size, last := e } else B

end Sys2Proof.Machine
end

