-- ==== Sys2Proof/Machine/Authority.lean ====
section
/-! DEFINITION. The authority service: orders from arrival to release, group fan-out, responses, policies and permit lines
(13_authority_service.md R298-R325). -/

namespace Sys2Proof.Machine

/-! ### Records of LOG[3] (R313, R314; 15, R356) -/

/-- LOG[3] takes a roll that its next event would take first. -/
def State.rolled3 (s : State) : State := if s.logFull 3 ∧ ¬ s.logFrozen 3 then s.roll 3 else s

/-- The AUDIT_SEQ of the next record, a LOSS record before it counted. -/
def State.nextAudit (s : State) : Nat :=
  s.log.seq + b2n (s.log.gapFirst.isSome && decide (s.log.records.length < s.log.capacity))

/-- Most recent decisions kept (R320). -/
def State.addDecision (s : State) (d : Decision) : State :=
  { s with auth := { s.auth with decisions := (d :: s.auth.decisions).take 65536 } }

/-- A decision is recorded with its receipt: the state after, the AUDIT_SEQ and the receipt. -/
def State.recordOrder (s : State) (type : Nat) (env : Bytes) (reason time rule ver : Nat) : State × Nat × Bytes :=
  let u := s.rolled3
  let q := u.nextAudit
  let rc := receiptOf env reason q time rule s.cluster.node ver
  (u.logEvent 3 type rc, q, rc)

/-! ### Targets -/

/-- Members of a group: the usable partners that name it. -/
def State.groupMembers (s : State) (g : Nat) : List Nat :=
  tkeys s.partners.table fun _ P => P.usable && P.groups.contains g

/-- The target of an envelope is known (line 4). -/
def State.targetKnown (s : State) (env : Bytes) : Bool :=
  match envKind env with
  | 0 => (s.partner? (envTarget env)).any Partner.usable
  | 1 => !(s.groupMembers (envTarget env)).isEmpty
  | _ => true

/-- A rule matches an envelope (line 5). -/
def State.ruleMatches (s : State) (env : Bytes) (R : Rule) : Bool :=
  let k := envKind env
  R.enabled && R.kinds.getLsbD k && decide (R.lo ≤ envClass env) && decide (envClass env ≤ R.hi) &&
  (R.group == 0xFFFF ||
   (match k with
    | 0 => (s.partner? (envTarget env)).any fun P => P.groups.contains R.group
    | 1 => envTarget env == R.group
    | _ => false))

/-- The target as the sequence and bucket tables name it. -/
def targetKey (env : Bytes) : Nat × Nat := (envKind env, envTarget env)

/-! ### The charge of an order (R324) -/

/-- The verify of a signature block at AL2. -/
def verifySteps (len : Nat) (x : SigBlock) (par : Bool) : List StepPlan :=
  let p := if x.alg = 0x5001 then 0x020000 else if x.alg = 0x5002 then 0x030000 else 0
  (planOf (x.alg + 0x200) p (len + 13) true {}).map fun st => { st with kind := .authVerify, par := par }

/-- The verifies of every block, side by side. -/
def allVerifies (len : Nat) : List SigBlock → List StepPlan
  | [] => []
  | x :: xs => verifySteps len x false ++ xs.flatMap fun y => verifySteps len y true

/-- The decision step: 8 µs of a Helm core. -/
def decisionStep : StepPlan := { kind := .decision, pers := 0, cyc := 8000 }

/-- The endorsement of a forwarding order, and its seal into the target partner's session in fragments of `m` bytes; the copies
of a group order are sends of their own (R319). -/
def releaseSteps (fleetAlg len : Nat) (m : Option Nat) : List StepPlan :=
  ((planOf 0x2102 0 (64 + len) true {}).map fun st => { st with kind := .endorse }) ++
  (if fleetAlg = 2 then (planOf 0x5101 0x020000 (64 + len) true {}).map fun st => { st with kind := .endorse2, par := true } else []) ++
  (match m with
   | some m => sealPlan m (64 + len + 3309 + (if fleetAlg = 2 then 64 else 0)) true
   | none => [])

/-- The fragment size of the port of an envelope's target partner. -/
def State.orderFrag (s : State) (env : Bytes) : Option Nat :=
  if envKind env = 0 then (s.partner? (envTarget env)).map fun P => fragMax (s.port P.port) else none

/-- The whole plan of an order under a policy and its rule. -/
def State.orderPlan (s : State) (env : Bytes) (P : Policy) (R : Option Rule) : List StepPlan :=
  allVerifies (bodyLen env) ((envBlocks env).getD []) ++ [decisionStep] ++
  (if R.any Rule.forward then releaseSteps P.fleetAlg (bodyLen env) (s.orderFrag env) else [])

/-- Latency after the last step: the NVS write, the extend, a roll that it causes, and the completion write. -/
def State.orderPost (s : State) : Nat := 2200 + (if s.logFull 3 then 1000 else 0)

/-! ### Answers -/

/-- The job or console that sent an order is answered: the receipt, and for a job the completion. -/
def State.answerOrder (s : State) (job console : Option Nat) (status reason rule seq : Nat) (rc : Bytes) : State :=
  let t := match console with
    | some c => s.sendMessage c 0x12 rc
    | none => s
  match job with
  | none => t
  | some j =>
    match t.job? j with
    | none => t
    | some J =>
      let ret := le 8 seq
      let result := reason + rule * 2 ^ 16
      if J.phase = .ended then t
      else if J.dst = 0 then t.endJob j status result ret
      else match t.wrFault (t.memOf J) J.dst 96 with
      | some k => t.endJob j St.dstFault k ret
      | none => (t.wr (t.memOf J) J.dst rc).endJob j status result ret

/-- STATUS of a refusal. -/
def refuseStatus (reason : Nat) : Nat := if reason = 0x0207 then St.notAdmitted else St.policyDeny

/-- An order is refused: its record, its decision, and its answer (R314). -/
def State.refuseOrder (s : State) (job console : Option Nat) (env : Bytes) (reason time rule ver : Nat) : State :=
  let (t, q, rc) := s.recordOrder 0x0030 env reason time rule ver
  let t := t.addDecision { orderId := leAt rc 8 8, auditSeq := q, reason := reason, state := 1, time := time, console := console }
  t.answerOrder job console (refuseStatus reason) reason rule q rc

/-! ### Arrival: lines 1 to 7 of R306 -/

/-- The device's own job that carries an order's steps: function 0x100 at AL2 (R324); the envelope of a console takes Helm staging
(01, R22). -/
def orderWork (env : Bytes) (cls : Nat) (hosted : Bool) : Job :=
  { fn := 0x100, opcode := 0x9000, cls := cls, totalLen := env.length, al2 := true, staged := if hosted then 0 else env.length }

/-- Lines 1 to 6: a refusal, or the running policy and the rule; a time-set order has no rule. -/
def State.linesOneToSix (s : State) (env : Bytes) (timeSet : Bool) : Except (Nat × Nat × Nat) (Policy × Option Rule) :=
  if ¬ wellFormedOrder env timeSet then .error (0x0201, 0xFFFF, 0)
  else match s.auth.running with
  | none => .error (0x0203, 0xFFFF, 0)
  | some P =>
    if timeSet then .ok (P, none)
    else if ¬ s.targetKnown env then .error (0x0204, 0xFFFF, P.version)
    else match P.rules.find? (s.ruleMatches env) with
    | none => .error (0x0205, 0xFFFF, P.version)
    | some R => if R.deny then .error (0x0206, R.id, P.version) else .ok (P, some R)

/-- An envelope arrives from a job or a console. -/
def State.orderArrives (s : State) (job console : Option Nat) (env : Bytes) (timeSet : Bool) : State :=
  let now := s.helmTime
  match s.linesOneToSix env timeSet with
  | .error (r, rule, ver) => s.refuseOrder job console env r now rule ver
  | .ok (P, R) =>
    let cls := (R.map (·.cls)).getD 3
    let rule := (R.map (·.id)).getD 0xFFFF
    if s.logFrozen 3 ∨ s.log.nearFull then s.refuseOrder job console env 0x0207 now rule P.version
    else match s.serviceAsk cls s.orderPost (s.orderPlan env P R) with
    | .refuse r => (s.refused r).refuseOrder job console env 0x0207 now rule P.version
    | .place steps units =>
      let (t, w) := s.startWork (orderWork env cls job.isSome) steps units
      let t := match job with
        | some j => (t.acceptJob j [] [] cls 0 true).modJob j fun J => { J with phase := .background }
        | none => t
      { t with auth := { t.auth with
          nextOrder := t.auth.nextOrder + 1,
          orders := tput t.auth.orders t.auth.nextOrder
            { job := job, work := w, console := console, timeSet := timeSet, envelope := env, policy := P, rule := R,
              arrival := now, accepted := true } } }

/-- SUBMIT_ORDER. -/
def execSubmitOrder (j t : Nat) (s : State) : Out :=
  stepRow 0x9000 j (fun s J => s.orderArrives (some j) none J.input false) (s.at_ t)

/-- TIME_SET_ORDER (R321). -/
def execTimeSetOrder (j t : Nat) (s : State) : Out :=
  stepRow 0x9300 j (fun s J => s.orderArrives (some j) none J.input true) (s.at_ t)

/-! ### The decision: lines 8 to 18 (R306-R312, R321) -/

/-- The signer entry of a block, where it is enabled and its key has the block's ALG. -/
def State.signerOf (s : State) (P : Policy) (x : SigBlock) : Option (Signer × Key) :=
  (P.signers.find? fun g => g.handle == x.signer && g.enabled).bind fun g =>
    (s.visibleKey 0x100 x.signer).bind fun K => if K.alg = x.alg then some (g, K) else none

/-- A signature block verifies (R302). -/
def orderSigOk (env : Bytes) (K : Key) (x : SigBlock) : Bool :=
  let m := ascii "psibuaz-order" ++ signedBody env
  if x.alg / 0x100 = 0x20 then mlDsaOk x.alg K.material (ascii "psibuaz-order") (signedBody env) x.sig
  else if x.alg = 0x5401 then edKeyOk x.alg K.material && edSigOk x.alg K.material [] m x.sig
  else Config.primBool (.keyCheck x.alg) [K.material] &&
    Config.primBool (.verify x.alg) [K.material, (if x.alg = 0x5001 then sha256 m else sha384 m), x.sig]

/-- No two of a list are equal. -/
def distinct (l : List Nat) : Bool := l.eraseDups.length == l.length

/-- Lines 13 and 14: a refusal, or the roles of the signers. -/
def State.signersOk (s : State) (P : Policy) (env : Bytes) : Except Nat (List (BitVec 32)) :=
  let bs := (envBlocks env).getD []
  let gs := bs.map fun x => (x, s.signerOf P x)
  if gs.any fun g => g.2.isNone then .error 0x020D
  else
    let ok := gs.filterMap fun g => g.2.map fun y => (g.1, y.1, y.2)
    if ¬ distinct (ok.map fun g => g.1.signer) ∨ ¬ distinct (ok.map fun g => g.2.1.operator) then .error 0x020E
    else if ok.any fun g => !orderSigOk env g.2.2 g.1 then .error 0x020F
    else .ok (ok.map fun g => g.2.1.roles)

/-- The last accepted SEQUENCE of a target. -/
def State.seqEntry (s : State) (k : Nat × Nat) : Option SeqEntry :=
  s.auth.seqs.find? fun e => e.kind == k.1 && e.target == k.2

/-- The sequence table with room for a target: as it is, or without the least recently used entry that has expired. -/
def State.seqRoom (s : State) (k : Nat × Nat) (t : Nat) : Option (List SeqEntry) :=
  if (s.seqEntry k).isSome ∨ s.auth.seqs.length < 262144 then some s.auth.seqs
  else (leastBy (·.used) (s.auth.seqs.filter fun e => decide (e.notAfter < t))).map fun e => s.auth.seqs.erase e

/-- An accepted order's SEQUENCE and NOT_AFTER are written. -/
def seqWrite (l : List SeqEntry) (k : Nat × Nat) (seq notAfter used : Nat) : List SeqEntry :=
  let old := l.find? fun e => e.kind == k.1 && e.target == k.2
  { kind := k.1, target := k.2, last := seq, notAfter := max notAfter ((old.map (·.notAfter)).getD 0), used := used } ::
    l.filter fun e => !(e.kind == k.1 && e.target == k.2)

/-- A bucket of a rule, for a target or for the rule itself; an absent one is full. -/
def State.bucketOf (s : State) (rule : Nat) (target : Option (Nat × Nat)) (size e : Nat) : Bucket :=
  (s.auth.buckets.find? fun b => b.rule == rule && b.target == target).getD
    { rule := rule, target := target, tokens := size, last := e, used := e }

/-- The size of a target bucket under a policy. -/
def tSize (P : Policy) (rule : Nat) : Nat × Nat :=
  ((P.rules.find? fun R => R.id == rule).map fun R => (R.tBucket, R.tRefill)).getD (0, 0)

/-- The buckets with room for a new target bucket: 65,536 of them, the least recently used full one replaced. -/
def bucketRoom (l : List Bucket) (P : Policy) (rule : Nat) (target : Nat × Nat) (e : Nat) : Option (List Bucket) :=
  let ts := l.filter fun b => b.target.isSome
  if (ts.any fun b => b.rule == rule && b.target == some target) ∨ ts.length < 65536 then some l
  else (leastBy (·.used) (ts.filter fun b =>
    let z := tSize P b.rule
    decide (z.1 ≤ (refill z.1 z.2 e b).tokens))).map fun b => l.erase b

/-- A bucket written back. -/
def bucketPut (l : List Bucket) (b : Bucket) : List Bucket :=
  b :: l.filter fun x => !(x.rule == b.rule && x.target == b.target)

/-- Line 18: a refusal, or the buckets once the tokens are taken. -/
def State.takeTokens (s : State) (P : Policy) (R : Rule) (k : Nat × Nat) : Except Nat (List Bucket) :=
  let e := s.time.elapsed
  let a := refill R.bucket R.refill e (s.bucketOf R.id none R.bucket e)
  if 0 < R.bucket ∧ a.tokens = 0 then .error 0x0214
  else
    let l := if 0 < R.bucket then bucketPut s.auth.buckets { a with tokens := a.tokens - 1, used := e } else s.auth.buckets
    if R.tBucket = 0 then .ok l
    else match bucketRoom l P R.id k e with
    | none => .error 0x0216
    | some l =>
      let b := refill R.tBucket R.tRefill e (s.bucketOf R.id (some k) R.tBucket e)
      if b.tokens = 0 then .error 0x0215 else .ok (bucketPut l { b with tokens := b.tokens - 1, used := e })

/-- What an accepted order leaves behind: the sequence table and the buckets. -/
structure Accepted where
  seqs    : List SeqEntry
  buckets : List Bucket

/-- Lines 8 to 18 for an order under its rule. -/
def State.decideOrder (s : State) (o : Order) (R : Rule) : Except Nat Accepted :=
  let env := o.envelope
  let t := s.helmTime
  let k := targetKey env
  if ¬ s.time.trusted then .error 0x0208
  else if t < envNotBefore env then .error 0x0209
  else if envNotAfter env < t then .error 0x020A
  else if o.policy.maxValid * 10 ^ 9 < envNotAfter env - envNotBefore env then .error 0x020B
  else if (s.seqEntry k).any fun e => envSeq env ≤ e.last then .error 0x020C
  else match s.signersOk o.policy env with
  | .error r => .error r
  | .ok roles =>
    if ¬ quorumMet R roles then .error 0x0210
    else if ¬ windowOpen R t then .error 0x0211
    else if R.forward ∧ k.1 = 0 ∧ ((s.partner? k.2).bind (·.session)).isNone then .error 0x0212
    else match s.seqRoom k t with
    | none => .error 0x0213
    | some q =>
      match s.takeTokens o.policy R k with
      | .error r => .error r
      | .ok b => .ok { seqs := seqWrite q k (envSeq env) (envNotAfter env) s.time.elapsed, buckets := b }

/-- The decision on a time-set order (R321). Line 17 is replaced, so a full sequence table does not refuse it (log 98). -/
def State.decideTime (s : State) (o : Order) : Except Nat Accepted :=
  let env := o.envelope
  let n := envNewTime env
  let k := targetKey env
  if n < envNotBefore env then .error 0x0209
  else if envNotAfter env < n then .error 0x020A
  else if o.policy.maxValid * 10 ^ 9 < envNotAfter env - envNotBefore env then .error 0x020B
  else if (s.seqEntry k).any fun e => envSeq env ≤ e.last then .error 0x020C
  else match s.signersOk o.policy env with
  | .error r => .error r
  | .ok roles =>
    if (roles.filter fun x => x &&& o.policy.timeRoles != 0#32).length < o.policy.timeM then .error 0x0210
    else .ok { seqs := seqWrite ((s.seqRoom k s.helmTime).getD s.auth.seqs) k (envSeq env) (envNotAfter env) s.time.elapsed,
               buckets := s.auth.buckets }

/-! ### Time (14, R349, R350) -/

/-- The KIND of a LOG[6] record, whose codes the spec does not print (log 37). -/
def timeKind (k : Nat) : Byte := Config.primByte (.image 4) [le 1 k] 0

/-- A record of LOG[6]: kind, old time, new time (15, R356). -/
def State.timeEvent (s : State) (kind old new : Nat) : State := s.logEvent 6 0x0060 ([timeKind kind] ++ le 8 old ++ le 8 new)

/-- TRUSTED is gained. -/
def State.gainTrust (s : State) : State :=
  if s.time.trusted then s
  else { s with time := { s.time with trusted := true } }.timeEvent 4 s.time.almanac s.time.almanac

/-- An accepted time-set order: a later time is a step, an earlier one a run at half rate; the 3,600 s sum starts again. -/
def State.setTime (s : State) (n : Nat) : State :=
  let T := s.time
  let T' := if T.almanac ≤ n then { T with almanac := n, slew := .none, servo := .none, accepted := [] }.sync
    else { T with slew := .lose 2 (T.almanac - n) 0, accepted := [] }
  { s with time := T' }.gainTrust

/-! ### Release (R314-R317, R319) -/

/-- Line `n` is asserted for an order until elapsed count `e`. -/
def State.assertPermit (s : State) (n ms seq : Nat) : State :=
  let e := s.time.elapsed + ms * 1000000
  let old := (tget s.auth.permits n).getD {}
  let new : Permit := { endAt := e, endTime := s.binTime + ms * 1000000, auditSeq := seq }
  let ps := if old.endAt ≤ e then tput s.auth.permits n new else s.auth.permits
  { s with pins := { s.pins with permit := s.pins.permit ||| BitVec.ofNat 8 (2 ^ n) }, auth := { s.auth with permits := ps } }

/-- Every line of a mask. -/
def State.assertPermits (s : State) (R : Rule) (seq : Nat) : State :=
  eachOf ((List.range 8).filter fun n => R.permit.getLsbD n) (fun u n => u.assertPermit n R.permitMs seq) s

/-- The endorsement of an order: the fleet key's signatures (R316); 32 drawn bytes for each. -/
def State.endorse (s : State) (P : Policy) (head : Bytes) : Bytes :=
  let keyOf (h : Nat) : Bytes := ((s.visibleKey 0x100 h).map (·.material)).getD []
  let sig := mlDsaSign 0x2002 (keyOf P.fleetKey) (ascii "psibuaz-endorse") head (drbgBytes s.draws 32)
  let sig2 := if P.fleetAlg = 2 then
      prim (.sign 0x5001) [keyOf P.fleetKey2, le 1 2, sha256 (ascii "psibuaz-endorse" ++ head), drbgBytes (s.draws + 32) 32] 64
    else []
  head ++ sig ++ sig2

/-- One pass over the members that a group order has not been sent to: each with a live session whose send is admitted
takes its copy. -/
def State.fanout (s : State) (d : Decision) : State × List Nat :=
  d.pending.foldl (fun (acc : State × List Nat) p =>
    let u := acc.1
    match u.partner? p with
    | none => (u, acc.2 ++ [p])
    | some P =>
      if P.session.isSome ∧ P.usable ∧ ¬ u.chartStops then
        (let send (v : State) : State × List Nat :=
          match v.takeStep 0x100 d.fanout p d.endorsed.length (sealPlan (fragMax (v.port P.port)) d.endorsed.length true) with
          | .error r => (v.refused r, acc.2 ++ [p])
          | .ok w => (w.sendMessage p 0x13 d.endorsed, acc.2)
         match u.touch p with
         | .ready => send u
         | .wait v => send v
         | .full v => (v, acc.2 ++ [p]))
      else (u, acc.2 ++ [p])) (s, [])

/-- A group decision after one pass. -/
def State.fanoutOnce (s : State) (d : Decision) : State × Decision :=
  let (t, left) := s.fanout d
  (t, { d with sent := d.sent + (d.pending.length - left.length), pending := left })

/-- Steps 1 to 6 of R314 for an accepted order; a failed endorsement ends it with MCHECK and a second record (R315). -/
def State.releaseOrder (s : State) (o : Order) (R : Rule) (a : Accepted) (endorseFails : Bool) : State :=
  let env := o.envelope
  let P := o.policy
  let now := s.helmTime
  let t := { s with auth := { s.auth with seqs := a.seqs, buckets := a.buckets } }
  let (t, q, rc) := t.recordOrder 0x0030 env 0 now R.id P.version
  let d : Decision := { orderId := leAt env 8 8, auditSeq := q, reason := 0, state := 3, time := now, target := targetKey env,
                        notAfter := envNotAfter env, graceMs := R.graceMs, expects := R.expects, console := o.console,
                        fanout := R.fanout }
  if R.forward ∧ endorseFails then
    let (t, _, _) := t.recordOrder 0x0031 env 0x0220 now R.id P.version
    let t := t.addDecision { d with state := 4 }
    let t := match t.job? o.work with
      | some W => (match W.steps.find? fun (st : JobStep) => st.kind == StepKind.endorse with
        | some st => t.al2Mismatch o.work W st false
        | none => t)
      | none => t
    t.answerOrder o.job o.console St.mcheck 0x0220 R.id q rc
  else
    let head := endorsedHead env P.fleetAlg q now P.version R.id s.cluster.node
    let body := if R.forward then t.endorse P head else []
    let t := if R.forward then t.drawn (if P.fleetAlg = 2 then 64 else 32) else t
    let (t, d) := if R.forward then
        (if envKind env = 0 then (t.sendMessage (envTarget env) 0x13 body, d)
         else t.fanoutOnce { d with pending := t.groupMembers (envTarget env), endorsed := body })
      else (t, d)
    let t := (t.assertPermits R q).addDecision d
    t.answerOrder o.job o.console St.ok 0 R.id q rc

/-- The device's own job of an order goes. -/
def State.dropWork (s : State) (o : Order) : State := (s.endJob o.work St.ok 0).delJob o.work

/-- An order whose steps ended without a decision: its job completes as they did. -/
def State.orderLost (s : State) (o : Order) : State :=
  let st := ((s.job? o.work).map (·.status)).getD St.mcheck
  let t := match o.job with
    | some j => s.endJob j st 0
    | none => s
  t.delJob o.work

/-- The signature steps of an order have ended. -/
def State.verifiesDone (s : State) (o : Order) : Bool :=
  match s.job? o.work with
  | some W => W.steps.all fun st => st.kind != .authVerify || st.runs.all fun r => r.mode == .ended
  | none => false

/-- The decision on an order. -/
def State.commitOrder (s : State) (o : Order) (endorseFails : Bool) : State :=
  let now := s.helmTime
  let rule := (o.rule.map (·.id)).getD 0xFFFF
  match o.rule with
  | some R =>
    (match s.decideOrder o R with
     | .error r => (s.refuseOrder o.job o.console o.envelope r now rule o.policy.version).dropWork o
     | .ok a => (s.releaseOrder o R a endorseFails).dropWork o)
  | none =>
    match s.decideTime o with
    | .error r => (s.refuseOrder o.job o.console o.envelope r now rule o.policy.version).dropWork o
    | .ok a =>
      let t := { s with auth := { s.auth with seqs := a.seqs } }
      let (t, q, rc) := t.recordOrder 0x0030 o.envelope 0 now rule o.policy.version
      let t := t.setTime (envNewTime o.envelope)
      let t := t.addDecision { orderId := leAt o.envelope 8 8, auditSeq := q, reason := 0, state := 3, time := now, target := (2, 0),
                               notAfter := envNotAfter o.envelope, console := o.console }
      (t.answerOrder o.job o.console St.ok 0 rule q rc).dropWork o

/-- DECISION_COMMIT of order `o`. -/
def execDecisionCommit (o : Nat) (endorseFails : Bool) (t : Nat) (s : State) : Out :=
  let u := s.at_ t
  done s (match tget u.auth.orders o with
    | none => u
    | some x =>
      let v := { u with auth := { u.auth with orders := tdel u.auth.orders o } }
      match u.job? x.work with
      | none => v.orderLost x
      | some W =>
        if W.phase = .ended then v.orderLost x
        else if u.verifiesDone x ∧ ¬ u.faults.safe.on then v.commitOrder x endorseFails
        else u)

/-- PERMIT_END: line `n` falls once its hold time has passed (R317). -/
def execPermitEnd (n t : Nat) (s : State) : Out :=
  let u := s.at_ t
  within (decide (n < 8)) s (match tget u.auth.permits n with
    | none => u
    | some p =>
      if p.endAt ≤ u.time.elapsed then { u with
        pins := { u.pins with permit := u.pins.permit &&& ~~~ (BitVec.ofNat 8 (2 ^ n)) },
        auth := { u.auth with permits := tdel u.auth.permits n } }
      else u)

/-! ### Queries (R299, R318, R320) -/

/-- STATE of a decision record now. -/
def State.decisionState (s : State) (d : Decision) : Nat :=
  if d.expects ∧ (d.state = 2 ∨ d.state = 3) ∧ d.notAfter + d.graceMs * 1000000 ≤ s.helmTime then 6 else d.state

/-- The 96 bytes of a decision record. -/
def State.decisionBlock (s : State) (d : Decision) : Bytes :=
  le 8 d.orderId ++ le 8 d.auditSeq ++ le 2 d.reason ++ le 1 (s.decisionState d) ++ [0#8] ++ le 4 d.respStat ++ le 4 d.sent ++
  le 4 d.pending.length ++ le 8 d.time ++ le 8 d.respTime ++ d.respDig

/-- QUERY_ORDER: the most recent decision with the ORDER_ID; STATE 0 where none is kept. -/
def execQueryOrder (j : Nat) (s : State) : Out :=
  serviceRow 0x9200 j (fun s J =>
    let b := match s.auth.decisions.find? fun d => d.orderId == J.param.toNat with
      | some d => s.decisionBlock d
      | none => le 8 J.param.toNat ++ zeros 88
    s.servedBlock j J b 0) s

/-- QUERY_POLICY: the running or the pending image. -/
def execQueryPolicy (j : Nat) (s : State) : Out :=
  serviceRow 0x9400 j (fun s J =>
    let b := ((if bitOf J.param.toNat 0 then s.auth.next else s.auth.running).map (·.image)).getD []
    s.servedBlock j J b b.length) s

/-- The 128 bytes of PERMIT_STATUS. -/
def State.permitBlock (s : State) : Bytes :=
  (List.range 8).flatMap fun n =>
    let p := (tget s.auth.permits n).getD {}
    le 8 p.endTime ++ le 8 p.auditSeq

/-- PERMIT_STATUS. -/
def execPermitStatus (j : Nat) (s : State) : Out :=
  serviceRow 0x9500 j (fun s J => s.servedBlock j J s.permitBlock (s.pins.permit.toNat + 256 * s.pins.permitFb.toNat)) s

/-! ### Policy updates (R322, R323) -/

/-- The algorithm of a signer's key is one that an order may carry. -/
def State.signerKeyOk (s : State) (h : Nat) (algs : List Nat) : Bool :=
  (s.visibleKey 0x100 h).any fun K => K.kind == .pub && K.usage.getLsbD 1 && algs.contains K.alg

/-- Reason 0x0234: every key that an image names is right. -/
def State.policyKeys (s : State) (P : Policy) : Bool :=
  (P.signers.all fun g => s.signerKeyOk g.handle [0x2001, 0x2002, 0x2003, 0x5001, 0x5002, 0x5401]) &&
  (P.officers.all fun o => s.signerKeyOk o.1 [0x2003]) &&
  ((s.ownKey 0x100 P.fleetKey 0x2002 .priv).any fun K => K.usage.getLsbD 0) &&
  (if P.fleetAlg = 2 then (s.ownKey 0x100 P.fleetKey2 0x5001 .priv).any fun K => K.usage.getLsbD 0 else P.fleetKey2 == 0)

/-- The bytes that officers sign. -/
def policySigned (b : Bytes) : Bytes := overlay (b.take (policySigAt b)) 6 [0#8]

/-- `k` of a list differ from each other and from those taken, in handle and in operator. -/
def picks : List (Nat × Nat) → Nat → List (Nat × Nat) → Bool
  | _, 0, _ => true
  | [], _ + 1, _ => false
  | x :: xs, k + 1, taken =>
    picks xs (k + 1) taken || ((taken.all fun y => y.1 != x.1 && y.2 != x.2) && picks xs k (x :: taken))

/-- Reason 0x0233: enough officers of the running policy, or quorum keys where none is installed, have signed. -/
def State.officersOk (s : State) (b : Bytes) : Bool :=
  let bs := (policyBlocks b).getD []
  match s.auth.running with
  | some P =>
    let good := P.officers.filter fun o => bs.any fun x => x.signer == o.1 &&
      (s.visibleKey 0x100 o.1).any fun K => mlDsaOk 0x2003 K.material (ascii "psibuaz-policy") (policySigned b) x.sig
    picks good P.officerK []
  | none =>
    let good := (List.range s.lc.recovery.length).filter fun i => bs.any fun x =>
      mlDsaOk 0x2003 (s.lc.recovery.getD i []) (ascii "psibuaz-policy") (policySigned b) x.sig
    decide (max s.lc.quorumM 1 ≤ good.length)

/-- The reason why a policy image is refused, in the order of R322. -/
def State.policyRefused (s : State) (b : Bytes) : Option Nat :=
  let P := parsePolicy b
  firstFail [(0x0230, s.lc.state == .owned || s.lc.state == .deployed), (0x0231, policyFormat b),
    (0x0232, decide (s.auth.floor < P.version)), (0x0233, s.officersOk b), (0x0234, s.policyKeys P),
    (0x0235, s.variant != .pz8810 || P.rules.all fun R => !R.forward)]

/-- The bytes of a policy record: version and digest (15, R356). -/
def policyBody (b : Bytes) : Bytes := le 4 (leAt b 8 4) ++ sha384 b

/-- The Almanac time of the next tick. -/
def State.tickTime (s : State) : Nat := s.helmTime + (s.time.nextTick - s.time.elapsed)

/-- The checks of a policy image whose verifies have ended: refused with its record, or pending (R322). -/
def State.policyIn (s : State) (j : Nat) (J : Job) : State :=
  let b := J.input
  match s.policyRefused b with
  | some r => (s.logEvent 3 0x0034 (policyBody b)).endJob j St.policyDeny r
  | none =>
    let P := parsePolicy b
    { s with auth := { s.auth with next := some P } }.endJob j St.ok 0
      (le 8 (if P.activate ≤ s.helmTime then s.tickTime else P.activate))

/-- POLICY_UPDATE: admission places its verifies in C4; the command that finds them ended makes the image pending (log 34). -/
def execPolicyUpdate (j t : Nat) (s : State) : Out :=
  workRow 0x9100 j (fun s J =>
    match s.serviceAsk 4 200 (allVerifies (policySigAt J.input) ((policyBlocks J.input).getD [])) with
    | .refuse r => s.notAdmit j r
    | .place steps units => s.acceptJob j steps units 4 0 true) (fun s J => s.policyIn j J) (s.at_ t)

/-- A pending policy whose time has come runs from this tick; buckets carry over under their rule, clipped (R323). -/
def State.policyTick (s : State) : State :=
  match s.auth.next with
  | none => s
  | some P =>
    if P.activate ≤ s.helmTime then
      let clip := s.auth.buckets.filterMap fun b =>
        (P.rules.find? fun R => R.id == b.rule).map fun R =>
          { b with tokens := min b.tokens (if b.target.isSome then R.tBucket else R.bucket) }
      { s with auth := { s.auth with running := some P, next := none, floor := P.version, buckets := clip } }.logEvent 3 0x0033
        (policyBody P.image)
    else s

/-- Sends of group orders are retried at a tick, and abandoned at NOT_AFTER (R319). -/
def State.fanoutTick (s : State) : State :=
  let (t, ds) := s.auth.decisions.foldl (fun (acc : State × List Decision) d =>
    if d.pending.isEmpty then (acc.1, acc.2 ++ [d])
    else if d.notAfter ≤ s.helmTime then (acc.1, acc.2 ++ [{ d with pending := [] }])
    else if s.faults.safe.on then (acc.1, acc.2 ++ [d])
    else
      let (u, e) := acc.1.fanoutOnce d
      (u, acc.2 ++ [e])) (s, [])
  { t with auth := { t.auth with decisions := ds } }

/-! ### Responses (R320) -/

/-- A decision that a response of partner `p` answers. -/
def State.answers (s : State) (p : Nat) (body : Bytes) (d : Decision) : Bool :=
  d.orderId == leAt body 0 8 && d.auditSeq == leAt body 8 8 && d.expects && (d.state == 2 || d.state == 3) &&
  decide (s.helmTime < d.notAfter + d.graceMs * 1000000) &&
  (match d.target.1 with
   | 0 => d.target.2 == p
   | 1 => (s.groupMembers d.target.2).contains p
   | _ => false)

/-- A RESPONSE message of partner `p`: the first that answers is recorded and relayed; any other is dropped. -/
def State.response (s : State) (p : Nat) (body : Bytes) : State :=
  let n := leAt body 20 4
  if body.length ≠ 24 + n ∨ 4096 < n ∨ leAt body 18 2 ≠ 0 then s
  else match s.auth.decisions.find? (s.answers p body) with
  | none => s
  | some d =>
    let dig := sha384 (body.drop 24)
    let t := { s with auth := { s.auth with decisions := s.auth.decisions.map fun x =>
      if x = d then { x with state := 5, respStat := leAt body 16 2, respTime := s.helmTime, respDig := dig } else x } }
    let t := t.logEvent 3 0x0032 (body.take 18 ++ dig)
    match d.console with
    | some c => t.sendMessage c 0x15 body
    | none => t

end Sys2Proof.Machine
end

