-- ==== Sys2Proof/Machine/Hash.lean ====
section
/-! DEFINITION. Family 0x3: SLH-DSA and the stateful signatures (06_hash_signatures_and_digests.md R124-R140, R151). -/

namespace Sys2Proof.Machine

/-! ### SLH-DSA (R124-R127) -/

/-- SLH_DSA_KEYGEN: SK.seed, SK.prf and PK.seed come from AUX or the DRBG; the private key is those and the root, the
public key PK.seed and the root (R125). -/
def execSlhDsaKeygen (j : Nat) (s : State) : Out := keygenRow 0x30 j s

/-- SLH_DSA_SIGN: opt_rand is PK.seed when DETERMINISTIC, else drawn (R126); RESULT[47:32] is zero. -/
def execSlhDsaSign (j : Nat) (s : State) : Out :=
  computeRow 0x31 j (fun s J =>
    let alg := algOf J.opcode
    let n := pkLen alg / 2
    let sk := s.keyBytes J
    let opt := if J.pbit 8 then sliceOf sk (2 * n) n else drbgBytes s.draws n
    let sig := prim (.sign alg) [sk, J.mPrime (if J.pfield 7 0 = 0 then [] else J.auxPart 0), opt] (sigLen alg)
    ({ output := sig, result := sig.length }, if J.pbit 8 then 0 else n)) s

/-- SLH_DSA_VERIFY. -/
def execSlhDsaVerify (j : Nat) (s : State) : Out := computeRow 0x32 j (fun s J => pureOut (s.dsaVerify J)) s

/-! ### Stateful keys (R129-R133, R139) -/

/-- The sum of the heights of an HSS key. -/
def hssHeight (ls : List (Nat × Nat)) : Nat := (ls.map fun l => lmsH l.1).sum

/-- The leaf state of a new key: its first tree of every level is built. -/
def newHbs (types : List (Nat × Nat)) (height bottom block : Nat) : Hbs :=
  { types := types, total := 2 ^ height, block := block, perTree := 2 ^ bottom, ready := 2 ^ bottom }

/-- A stateful key with its leaf state; its reservation block is BLOCK_M1 + 1 leaves (R132). -/
def State.statefulOut (s : State) (J : Job) (sk pk : Bytes) (H : Hbs) : JobOut :=
  { output := pk, result := s.newHandle J 0 + pk.length * 2 ^ 32,
    keys := J.newKey 0 { defaultKey J.opcode .priv J.fn sk pk none with hbs := some H } }

/-- HSS_KEYGEN: the public key is L, the top types, I and the root (RFC 8554); each lower root is signed with a drawn
randomiser. -/
def execHssKeygen (j : Nat) (s : State) : Out :=
  computeRow 0x34 j (fun s J =>
    let ls := hssLevels (psetOf J.opcode) J.param.toNat
    let low := ls.getLastD (0, 0)
    let sk := drbgBytes s.draws 64
    let H := (newHbs ls (hssHeight ls) (lmsH low.1) (J.pfield 41 32 + 1)).signRoots 0 (s.draws + 64)
    (s.statefulOut J sk (be 4 ls.length ++ lmsPub J.opcode sk ls 0 0) H.1, 64 + H.2)) s

/-- A keygen of XMSS or XMSS^MT: the public key is the OID, the root and SEED (RFC 8391). -/
def xmssKeygenRow (hi j : Nat) (mt : Bool) (s : State) : Out :=
  computeRow hi j (fun s J =>
    let oid := psetOf J.opcode
    let (h, d, n, _) := xmssSet mt oid
    let sk := drbgBytes s.draws (4 * n)
    let pk := be 4 oid ++ prim (.publicKey J.opcode) [sk] (2 * n)
    (s.statefulOut J sk pk (newHbs [(oid, d)] h (h / d) (J.pfield 41 32 + 1)), 4 * n)) s

/-- XMSS_KEYGEN. -/
def execXmssKeygen (j : Nat) (s : State) : Out := xmssKeygenRow 0x38 j false s
/-- XMSSMT_KEYGEN. -/
def execXmssmtKeygen (j : Nat) (s : State) : Out := xmssKeygenRow 0x3C j true s

/-! ### Signing (R133-R140) -/

/-- The returned value of a stateful sign: the leaf used and the leaves remaining (R133). -/
def leafRet (H : Hbs) (v : Nat) : Bytes := le 8 v ++ le 4 (min (H.limit - (v + 1)) 0xFFFFFFFF)

/-- The result of a stateful sign over its leaf. -/
def State.hbsOut (s : State) (J : Job) (sig : Hbs → Nat → Bytes) : JobOut :=
  match (J.pin.bind s.key?).bind (·.hbs), J.leaf with
  | some H, some v => { output := sig H v, result := (sig H v).length, ret := leafRet H v }
  | _, _ => keyFails false

/-- An HSS signature: Nspk, the signed roots of the lower levels, and the LMS signature of the bottom leaf, with the
randomiser C drawn (RFC 8554; R134). The signed roots of a delegated tree are those that its holder made (17, R405). -/
def hssSignature (alg : Nat) (sk msg c : Bytes) (H : Hbs) (v : Nat) : Bytes :=
  let low := H.types.getLastD (0, 0)
  let k := H.types.length - 1
  let upper := hssSigLen H.types - 4 - lmsSigLen low.1 low.2
  let b := v / 2 ^ lmsH low.1
  be 4 k ++ fit upper (if H.upper.isEmpty then hssUpper alg sk H b (lmsPub alg sk H.types k b) else H.upper) ++
  lmsSignature alg sk H.types k v c msg

/-- HSS_SIGN. -/
def execHssSign (j : Nat) (s : State) : Out :=
  computeRow 0x35 j (fun s J =>
    let alg := algOf J.opcode
    let n := (((J.pin.bind s.key?).bind (·.hbs)).map fun H => groupN (otsGroup (H.types.getLastD (0, 0)).2)).getD 32
    (s.hbsOut J (hssSignature alg (s.keyBytes J) J.input (drbgBytes s.draws n)), n)) s

/-- An XMSS or XMSS^MT signature: the leaf index, then r by PRF and the rest (RFC 8391; R134). -/
def xmssSignature (mt : Bool) (alg : Nat) (sk msg : Bytes) (v : Nat) : Bytes :=
  let (h, _, _, _) := xmssSet mt (psetOf alg)
  let k := if mt then ceilDiv h 8 else 4
  be k v ++ prim (.hbsSign alg) [sk, le 8 v, msg] (xmssSigLen mt (psetOf alg) - k)

/-- XMSS_SIGN. -/
def execXmssSign (j : Nat) (s : State) : Out :=
  computeRow 0x39 j (fun s J =>
    pureOut (s.hbsOut J fun _ v => xmssSignature false (algOf J.opcode) (s.keyBytes J) J.input v)) s

/-- XMSSMT_SIGN. -/
def execXmssmtSign (j : Nat) (s : State) : Out :=
  computeRow 0x3D j (fun s J =>
    pureOut (s.hbsOut J fun _ v => xmssSignature true (algOf J.opcode) (s.keyBytes J) J.input v)) s

/-! ### Verification and leaf status (R133, R151) -/

/-- A public key whose type or OID agrees with the opcode and lies in the supported subset. -/
def statefulPubOk (op : Nat) (pk : Bytes) : Bool :=
  if algOf op / 0x100 = 0x34 then
    let l := fromBE (sliceOf pk 4 4)
    fromBE (pk.take 4) == psetOf op && lmsOk l (fromBE (sliceOf pk 8 4)) && pk.length == 4 + lmsPubLen l
  else fromBE (pk.take 4) == psetOf op && pk.length == pkLen (algOf op)

/-- A stateful verification. -/
def State.statefulVerify (s : State) (J : Job) : JobOut :=
  let pk := s.pubBytes J (J.auxPart 0)
  if statefulPubOk J.opcode pk then
    verdictOf (Config.primBool (.verify (algOf J.opcode)) [pk, J.input, J.auxAfterKey 0])
  else keyFails false

/-- HSS_VERIFY. -/
def execHssVerify (j : Nat) (s : State) : Out := computeRow 0x36 j (fun s J => pureOut (s.statefulVerify J)) s
/-- XMSS_VERIFY. -/
def execXmssVerify (j : Nat) (s : State) : Out := computeRow 0x3A j (fun s J => pureOut (s.statefulVerify J)) s
/-- XMSSMT_VERIFY. -/
def execXmssmtVerify (j : Nat) (s : State) : Out := computeRow 0x3E j (fun s J => pureOut (s.statefulVerify J)) s

/-- NEXT_READY: the bottom tree after the current one is ready (R139). -/
def Hbs.nextReady (H : Hbs) : Bool :=
  decide (H.skip (max 1 (ceilDiv (H.skip H.next) (max H.perTree 1)) * H.perTree) < H.ready)

/-- Flags of leaf status (R133). -/
def Hbs.flags (H : Hbs) : Nat := b2n H.nextReady + 2 * b2n H.leaseHi.isSome + 4 * b2n (decide (H.limit ≤ H.skip H.next))

/-- Leaf status: the next leaf, RESERVED_END and the flags. -/
def State.leafStatus (s : State) (J : Job) : JobOut :=
  match (J.pin.bind s.key?).bind (·.hbs) with
  | some H => { result := H.skip H.next, ret := le 8 H.reserved ++ le 4 H.flags }
  | none => keyFails false

/-- HSS_LEAF_STATUS. -/
def execHssLeafStatus (j : Nat) (s : State) : Out := computeRow 0x37 j (fun s J => pureOut (s.leafStatus J)) s
/-- XMSS_LEAF_STATUS. -/
def execXmssLeafStatus (j : Nat) (s : State) : Out := computeRow 0x3B j (fun s J => pureOut (s.leafStatus J)) s
/-- XMSSMT_LEAF_STATUS. -/
def execXmssmtLeafStatus (j : Nat) (s : State) : Out := computeRow 0x3F j (fun s J => pureOut (s.leafStatus J)) s

end Sys2Proof.Machine
end

