-- ==== Sys2Proof/Machine/Frames.lean ====
section
/-! DEFINITION. Incoming field frames: the checks in the order of PORT.DROP, reassembly, the Sounding handshake, sealed
traffic, and the timers of sessions (14_partners_ports_time.md R326-R345; 13, R298, R320). -/

namespace Sys2Proof.Machine

/-! ### Counters of PORT.DROP (R351) -/

/-- PORT.DROP[p][k] advances. -/
def State.drop (s : State) (p k : Nat) : State := s.bump (0xA0040 + 0x100 * p + 4 * k)

/-! ### From a frame to its envelope (R330, R333) -/

/-- What a port has taken from a frame: the envelope bytes, where they came from, and how many zero bytes may follow. -/
structure Arrived where
  body  : Bytes
  udp   : Bool
  mac   : Bytes
  ip    : Bytes := []
  sport : Nat := 0
  pad   : Bool := false

/-- Address of a template of an IP version. -/
def templateIp (t : Bytes) (v6 : Bool) : Option Bytes :=
  if v6 then (if leAt t 0 1 = 6 then some (sliceOf t 4 16) else none)
  else (if leAt t 0 1 = 4 then some (sliceOf t 4 4) else none)

/-- An address is the LOCAL_IP of a valid template. -/
def State.localIp (s : State) (v6 : Bool) (ip : Bytes) : Bool :=
  (List.range 64).any fun t => templateIp (s.template t) v6 == some ip

/-- A UDP datagram addressed to the device, between two addresses. -/
def State.udpIn (s : State) (p : Nat) (mac : Bytes) (v6 : Bool) (src dst d : Bytes) : Option Arrived :=
  let len := fromBE (sliceOf d 4 2)
  let c := fromBE (sliceOf d 6 2)
  let sum := onesSum (pseudoHeader v6 src dst len ++ d.take len)
  if 8 ≤ len ∧ len ≤ d.length ∧ fromBE (sliceOf d 2 2) = (s.port p).udpPort ∧ s.localIp v6 dst = true ∧
      (if c = 0 then v6 = false else sum = 0xFFFF) then
    some { body := (d.take len).drop 8, udp := true, mac := mac, ip := src, sport := fromBE (d.take 2) }
  else none

/-- An unfragmented IPv4 datagram without options that carries UDP. -/
def State.ipv4In (s : State) (p : Nat) (mac b : Bytes) : Option Arrived :=
  let total := fromBE (sliceOf b 2 2)
  if leAt b 0 1 = 0x45 ∧ 28 ≤ total ∧ total ≤ b.length ∧ fromBE (sliceOf b 6 2) &&& 0x3FFF = 0 ∧ leAt b 9 1 = 17 then
    s.udpIn p mac false (sliceOf b 12 4) (sliceOf b 16 4) ((b.take total).drop 20)
  else none

/-- An IPv6 datagram without extension headers that carries UDP. -/
def State.ipv6In (s : State) (p : Nat) (mac b : Bytes) : Option Arrived :=
  let len := fromBE (sliceOf b 4 2)
  if leAt b 0 1 / 16 = 6 ∧ leAt b 6 1 = 17 ∧ 40 + len ≤ b.length then
    s.udpIn p mac true (sliceOf b 8 16) (sliceOf b 24 16) (sliceOf b 40 len)
  else none

/-- EtherType and what follows it, an 802.1Q tag passed over. -/
def etherBody (f : Bytes) : Nat × Bytes :=
  let e := fromBE (sliceOf f 12 2)
  if e = 0x8100 then (fromBE (sliceOf f 16 2), f.drop 18) else (e, f.drop 14)

/-- The envelope frame of R330, if the port takes it as one. -/
def State.arrive (s : State) (p : Nat) (f : Bytes) : Option Arrived :=
  let P := s.port p
  let mac := sliceOf f 6 6
  if f.length < 14 ∨ f.take 6 ≠ be 6 P.mac.toNat then none
  else match etherBody f with
  | (e, b) =>
    if e = P.etherType.toNat then some { body := b, udp := false, mac := mac, pad := f.length = 60 }
    else if e = 0x0800 then s.ipv4In p mac b
    else if e = 0x86DD then s.ipv6In p mac b
    else none

/-- A PTP event message (R347). -/
def isPtp (f : Bytes) : Bool :=
  match etherBody f with
  | (e, b) =>
    e == 0x88F7 || (e == 0x0800 && leAt b 9 1 == 17 && fromBE (sliceOf b (4 * (leAt b 0 1 % 16) + 2) 2) == 319) ||
    (e == 0x86DD && leAt b 6 1 == 17 && fromBE (sliceOf b 42 2) == 319)

/-! ### The envelope header (R331) -/

/-- TYPE. -/
def envType (b : Bytes) : Nat := leAt b 1 1
/-- PARTNER_ID. -/
def hdrPartner (b : Bytes) : Nat := leAt b 4 3
/-- KEY_EPOCH. -/
def hdrEpoch (b : Bytes) : Nat := leAt b 7 1
/-- SEQ. -/
def hdrSeq (b : Bytes) : Nat := leAt b 8 8
/-- FRAG_INDEX. -/
def hdrIndex (b : Bytes) : Nat := leAt b 16 1
/-- FRAG_COUNT. -/
def hdrCount (b : Bytes) : Nat := leAt b 17 1
/-- MSG_ID. -/
def hdrMsg (b : Bytes) : Nat := leAt b 20 4

/-- LENGTH agrees with the bytes received. -/
def lengthOk (a : Arrived) : Bool :=
  let n := leAt a.body 2 2
  decide (24 ≤ n) && (n == a.body.length || (a.pad && decide (n ≤ a.body.length) && allZero (a.body.drop n)))

/-- VERSION, TYPE, the fragment fields and the reserved field are in order. -/
def formatOk (b : Bytes) : Bool :=
  leAt b 0 1 == 1 && [0x01, 0x02, 0x03, 0x10, 0x11, 0x12, 0x13, 0x14, 0x15, 0x21].contains (envType b) &&
  leAt b 18 2 == 0 && decide (1 ≤ hdrCount b) && decide (hdrCount b ≤ 128) && decide (hdrIndex b < hdrCount b)

/-- The partner that a frame is attributed to (R334). -/
def State.attributed (s : State) (p : Nat) (a : Arrived) : Option Partner :=
  (s.partner? (hdrPartner a.body)).bind fun P =>
    let from_ := if P.udp then a.udp && a.ip == P.rip.take a.ip.length && allZero (P.rip.drop a.ip.length) && a.sport == P.rport
      else !a.udp && a.mac == (s.neighbour P.neighbour).take 6
    if P.usable ∧ P.port = p ∧ from_ = true then some P else none

/-- The types that a role lets in (R327). -/
def typesIn (role : Nat) : List Nat :=
  if role = 1 then [0x01, 0x02, 0x03, 0x11, 0x21] else if role = 2 then [0x01, 0x02, 0x03, 0x10, 0x14, 0x21] else []

/-- The epochs that a frame of a type may name. -/
def Partner.knowsEpoch (P : Partner) (type e : Nat) : Bool :=
  (type == 0x01) || (P.hs.any fun h => h.epoch == e) || (type == 0x02 && P.session.any fun E => E.num == e) ||
  (type != 0x02 && ((P.session.any fun E => E.num == e) || P.old.any fun o => o.1.num == e))

/-- The first check that drops a frame, or the partner it belongs to with its envelope. -/
def State.screen (s : State) (p : Nat) (frame : Bytes) (fcsOk : Bool) : Except Nat (Nat × Bytes) :=
  if ¬ fcsOk then .error 0
  else match s.arrive p frame with
  | none => .error 1
  | some a =>
    if ¬ lengthOk a then .error 2
    else if ¬ formatOk a.body then .error 3
    else match s.attributed p a with
    | none => .error 4
    | some P =>
      let ty := envType a.body
      if ¬ (typesIn (s.port p).role).contains ty ∨ ¬ s.roleFits P ∨ s.roleChanging p then .error 5
      else if ¬ P.knowsEpoch ty (hdrEpoch a.body) then .error 6
      else if s.faults.safe.on then .error 14
      else .ok (hdrPartner a.body, a.body.take (leAt a.body 2 2))

/-- The port receives: present, not DISABLED, not held down, its link up (R326, R327, R415). -/
def State.receives (s : State) (p : Nat) : Bool :=
  let P := s.port p
  decide (p < portsOf s.variant) && (!s.partners.mode1 || p == 0) && P.role != 0 && P.link && !P.stopped

/-- FIELD_FRAME_RECEIVED: the checks of R333; a frame that passes waits for its type's command (log 9). -/
def execFieldFrameReceived (p : Nat) (frame : WireFrame) (t : Nat) (s : State) : Out :=
  let u := s.at_ t
  within (decide (p < 4)) s (
    if ¬ u.receives p ∨ (frame.fcsOk ∧ isPtp frame.bytes) then u
    else match u.screen p frame.bytes frame.fcsOk with
    | .error k => u.drop p k
    | .ok (q, b) =>
      { u with partners := { u.partners with
          ingress := u.partners.ingress ++ [{ port := p, partner := q, frame := b, at_ := u.time.elapsed }] } })

/-! ### The next frame of a type (R345) -/

/-- The oldest frame of a type that no earlier frame of its partner stands before and whose context is not moving. -/
def State.pickFrame (s : State) (type : Nat) : List Nat → List Ingress → Option Ingress
  | _, [] => none
  | seen, i :: rest =>
    if envType i.frame = type ∧ ¬ seen.contains i.partner ∧ ¬ (s.partner? i.partner).any Partner.moving then some i
    else s.pickFrame type (i.partner :: seen) rest

/-- The frame leaves the ingress queue. -/
def State.untake (s : State) (i : Ingress) : State :=
  { s with partners := { s.partners with ingress := s.partners.ingress.erase i } }

/-- The plan of one frame's decryption. -/
def openPlan (len : Nat) : List StepPlan := [{ kind := .seal, pers := 5, entry := 0x6103, cyc := symmCycles 0x6103 24 len false }]

/-- A frame is dropped, its step refused for a reason (R343; 12, R297). -/
def State.refuseFrame (s : State) (p r : Nat) : State := (s.refused r).drop p 7

/-- The decryption of a frame is admitted: at once, unless it was when the frame began to wait for its context. -/
def State.takeOpen (s : State) (i : Ingress) (P : Partner) : Except Nat State :=
  if i.taken then .ok s else s.takeStep P.owner s.partners.inClass i.partner i.frame.length (openPlan (i.frame.length - 40))

/-- A sealed frame whose context must come back takes its step and waits; a refused step drops it (R343, R345). -/
def State.holdFrame (s : State) (i : Ingress) (P : Partner) : State :=
  match s.takeOpen i P with
  | .error r => (s.untake i).refuseFrame i.port r
  | .ok v => { v with partners := { v.partners with ingress := v.partners.ingress.map fun x => if x = i then { x with taken := true } else x } }

/-- A type's command: it takes the next frame of its type, touches its partner's context and acts; a frame whose context
finds every slot pinned is dropped, and so is every frame in the safe state. While a LOAD_CHART has stopped tile admission frames wait
(03, R69). -/
def frameRow (type t : Nat) (f : State → Ingress → Partner → State) (s : State) : Out :=
  let u := s.at_ t
  done s (match (if u.chartStops then none else u.pickFrame type [] u.partners.ingress) with
    | none => u
    | some i =>
      match u.partner? i.partner with
      | none => (u.untake i).drop i.port 4
      | some P =>
        if u.faults.safe.on then (u.untake i).drop i.port 14
        else if ¬ P.usable then (u.untake i).drop i.port 4
        else match u.touch i.partner with
        | .wait v => if sealedType type then v.holdFrame i P
            else f ((v.untake i).modPartner i.partner fun P => { P with used := u.time.elapsed }) i P
        | .full v => (v.untake i).drop i.port 13
        | .ready => f ((u.untake i).modPartner i.partner fun P => { P with used := u.time.elapsed }) i P)

/-! ### Reassembly (R332) -/

/-- Reassemblies in progress. -/
def State.reassemblies (s : State) : Nat := tcount s.partners.table fun _ P => P.reas.isSome

/-- A fragment belongs to a reassembly. -/
def sameMessage (r : Reassembly) (b : Bytes) : Bool := r.msgId == hdrMsg b && r.type == envType b && r.count == hdrCount b

/-- A fragment with its payload reaches its partner's reassembly: the state after, and the message with its first SEQ once
it is whole. -/
def State.reassemble (s : State) (i : Ingress) (payload : Bytes) : State × Option (Nat × Bytes) :=
  let b := i.frame
  let old := (s.partner? i.partner).bind (·.reas)
  let stale := old.any fun r => !sameMessage r b || decide (r.firstAt + 100000000 ≤ s.time.elapsed)
  let s := if stale then (s.modPartner i.partner fun P => { P with reas := none }).drop i.port 10 else s
  let cur := if stale then none else old
  if hdrCount b = 1 then (s, some (hdrSeq b, payload))
  else if cur.isNone ∧ 1024 ≤ s.reassemblies then (s.drop i.port 10, none)
  else
    let r := cur.getD { msgId := hdrMsg b, type := envType b, count := hdrCount b, frags := [], firstAt := s.time.elapsed,
                        firstSeq := hdrSeq b - hdrIndex b }
    let r := { r with frags := tput r.frags (hdrIndex b) payload }
    let msg : Bytes := r.frags.flatMap (·.2)
    if 131072 < msg.length then ((s.modPartner i.partner fun P => { P with reas := none }).drop i.port 10, none)
    else if r.frags.length = r.count then
      (s.modPartner i.partner fun P => { P with reas := none }, some (r.firstSeq, msg))
    else (s.modPartner i.partner fun P => { P with reas := some r }, none)

/-- REASSEMBLY_TIMEOUT: 100 ms since a message's first fragment discard it. -/
def execReassemblyTimeout (partner t : Nat) (s : State) : Out :=
  let u := s.at_ t
  within (decide (partner < 2 ^ 24)) s (
    match u.partner? partner with
    | none => u
    | some P =>
      if P.reas.any fun r => decide (r.firstAt + 100000000 ≤ u.time.elapsed) then
        (u.modPartner partner fun P => { P with reas := none }).drop P.port 10
      else u)

/-! ### Sealed frames (R340-R343) -/

/-- The replay window accepts a SEQ (R341). -/
def Epoch.fresh (E : Epoch) (q : Nat) : Bool :=
  decide (E.high < q) || (decide (E.high < q + 1024) && decide (q ≤ E.high) && !E.window.getLsbD (q % 1024))

/-- The window without the bits of `n` sequence numbers from `q`. -/
def clearBits (w : BitVec 1024) (q : Nat) : Nat → BitVec 1024
  | 0 => w
  | n + 1 => clearBits (w &&& ~~~ (1#1024 <<< (q % 1024))) (q + 1) n

/-- A SEQ is entered into the window. -/
def Epoch.accept (E : Epoch) (q : Nat) : Epoch :=
  let w := if E.high < q then clearBits E.window (E.high + 1) (min (q - E.high) 1024) else E.window
  { E with window := w ||| (1#1024 <<< (q % 1024)), high := max E.high q, frames := max E.frames (max E.high q) }

/-- The live or old epoch of a number. -/
def Partner.epoch? (P : Partner) (e : Nat) : Option Epoch :=
  match P.session with
  | some E => if E.num = e then some E else P.old.bind fun o => if o.1.num = e then some o.1 else none
  | none => P.old.bind fun o => if o.1.num = e then some o.1 else none

/-- An epoch written back. -/
def Partner.putEpoch (P : Partner) (E : Epoch) : Partner :=
  { P with
    session := P.session.map fun X => if X.num = E.num then E else X,
    old := P.old.map fun o => if o.1.num = E.num then (E, o.2) else o }

/-- A sealed frame is opened under an epoch: the state after with its plaintext, or the counter under which it is dropped. -/
def State.unsealFrame (s : State) (i : Ingress) (P : Partner) : Except Nat (State × Bytes) :=
  let b := i.frame
  match P.epoch? (hdrEpoch b) with
  | none => .error 6
  | some E =>
    match gcmOpen E.keyIn (frameNonce E.ivIn (hdrSeq b)) (b.take 24) (b.drop 24) with
    | none => .error 8
    | some m =>
      if ¬ E.fresh (hdrSeq b) then .error 9
      else .ok (s.modPartner i.partner fun P => P.putEpoch (E.accept (hdrSeq b)), m)

/-- A sealed frame: its step is admitted and the frame opened; dropped where either fails. -/
def State.openFrame (s : State) (i : Ingress) (P : Partner) : State × Option Bytes :=
  match s.takeOpen i P with
  | .error r => (s.refuseFrame i.port r, none)
  | .ok u =>
    match u.unsealFrame i P with
    | .error k => (u.drop i.port k, none)
    | .ok (v, m) => (v, some m)

/-- A sealed traffic frame: opened, reassembled, and its whole message handled. -/
def sealedRow (type t : Nat) (f : State → Ingress → Partner → Nat → Bytes → State) (s : State) : Out :=
  frameRow type t (fun s i P =>
    match s.openFrame i P with
    | (u, none) => u
    | (u, some m) =>
      match u.reassemble i m with
      | (v, none) => v
      | (v, some (q, msg)) => f v i P q msg) s

/-- Bytes that wait in a function's backlog. -/
def Fn.backlogBytes (F : Fn) : Nat := (F.backlog.map fun m => m.2.2.1.length).sum

/-- DATA: the message goes to the oldest pooled RECEIVE that takes it, else to the backlog of 256 KiB. -/
def execDataFrame (t : Nat) (s : State) : Out :=
  sealedRow 0x10 t (fun s i P q msg =>
    match s.poolFor P.owner i.partner msg.length with
    | some j => s.deliver j i.partner q msg
    | none =>
      if 262144 < (s.fn P.owner).backlogBytes + msg.length then s.drop i.port 14
      else s.modFn P.owner fun F => { F with backlog := F.backlog ++ [(i.partner, q, msg, s.time.elapsed)] }) s

/-- RESPONSE: the message passes the backlog to the authority service (R320). -/
def execResponseFrame (t : Nat) (s : State) : Out :=
  sealedRow 0x14 t (fun s i P _ msg =>
    if 262144 < (s.fn P.owner).backlogBytes + msg.length then s.drop i.port 14 else s.response i.partner msg) s

/-- ORDER: the message is an order of function 0x100, its receipt sent back in the session (R328). -/
def execOrderFrame (t : Nat) (s : State) : Out :=
  sealedRow 0x11 t (fun s i _ _ msg => s.orderArrives none (some i.partner) msg (envClass msg == 0)) s

/-- CLOSE ends the session. -/
def execCloseFrame (t : Nat) (s : State) : Out :=
  sealedRow 0x21 t (fun s i _ _ _ => (s.dropKeys i.partner).endHandshake i.partner St.aborted 0) s

/-- NO_RECEIVE_TIMEOUT: messages of a function's backlog left unmatched for 100 ms. -/
def execNoReceiveTimeout (fn t : Nat) (s : State) : Out :=
  let u := s.at_ t
  within (decide (fn ≤ 0x100)) s (
    let late (m : Nat × Nat × Bytes × Nat) : Bool := decide (m.2.2.2 + 100000000 ≤ u.time.elapsed)
    let gone := (u.fn fn).backlog.filter late
    let v := u.modFn fn fun F => { F with backlog := F.backlog.filter fun m => !late m }
    gone.foldl (fun w m => match w.partner? m.1 with
      | some P => w.drop P.port 14
      | none => w) v)

/-! ### The Sounding handshake (R337-R339) -/

/-- TH. -/
def soundingTh (initMsg replyHead : Bytes) : Bytes := sha384 (initMsg ++ replyHead)

/-- The session keys. -/
def soundingOkm (ssKem ssX th : Bytes) : Bytes := kmac256 (ssKem ++ ssX) th (ascii "psibuaz-sounding") 88

/-- The epoch that goes live at a side. -/
def liveEpoch (okm : Bytes) (initiator : Bool) (num finish now : Nat) : Epoch :=
  let kIR := okm.take 32
  let kRI := sliceOf okm 32 32
  let ivIR := sliceOf okm 64 12
  let ivRI := sliceOf okm 76 12
  if initiator then
    { num := num, keyIn := kRI, keyOut := kIR, ivIn := ivRI, ivOut := ivIR, nextSeq := finish, nextMsg := 1, window := 1, live := now }
  else
    { num := num, keyIn := kIR, keyOut := kRI, ivIn := ivIR, ivOut := ivRI, nextSeq := 1, nextMsg := 1,
      window := BitVec.ofNat 1024 (2 ^ finish - 1), high := finish - 1, live := now }

/-- The session goes live; its predecessor's keys receive for 1 s more, and the job that waits completes. Without a slot of
the Context Directory it does not (R344). -/
def State.goLive (s : State) (p port : Nat) (E : Epoch) : State :=
  let job := ((s.partner? p).bind (·.hs)).bind (·.job)
  match s.takeSlot p with
  | none =>
    let t := { s with partners := { s.partners with full := satAdd 32 s.partners.full 1 } }
    (if job.isSome then t else t.drop port 13).endHandshake p St.ctxFull 0
  | some t =>
    let t := t.modPartner p fun P => { P with
      hs := none, session := some E, lastEpoch := E.num, used := s.time.elapsed,
      old := P.session.map fun X => (X, s.time.elapsed + 1000000000) }
    match job with
    | some j => t.endJob j St.ok 0
    | none => t

/-- A handshake's unsealed message reaches its reassembly; each whole message is handled. -/
def handshakeRow (type t : Nat) (f : State → Ingress → Partner → Bytes → State) (s : State) : Out :=
  frameRow type t (fun s i P =>
    match s.reassemble i (i.frame.drop 24) with
    | (v, none) => v
    | (v, some (_, msg)) => f v i P msg) s

/-- The responder's computing steps: X25519 key generation, encapsulation, agreement and signature. -/
def replyPlan : List StepPlan := opsPlan [(0x5701, false), (0x1102, false), (0x5801, false), (0x2102, false)]

/-- The initiator's second steps: decapsulation, agreement, verification at AL2, signature. -/
def finishPlan : List StepPlan := opsPlan [(0x1202, false), (0x5801, false), (0x2202, true), (0x2102, false)]

/-- The local signing key of a partner, and its own public key. -/
def State.partnerKeys (s : State) (P : Partner) : Option (Bytes × Bytes) :=
  match s.ownKey P.owner P.localKey 0x2002 .priv, s.ownKey P.owner P.key 0x2002 .pub with
  | some L, some K => some (L.material, K.material)
  | _, _ => none

/-- The responder's answer to an INIT: ephemeral values are drawn, the secrets computed, and REPLY is sent. -/
def State.answerInit (s : State) (i : Ingress) (P : Partner) (lk msg : Bytes) : State :=
  let d := s.draws
  let x := pairOf 0x5701 (drbgBytes d 32)
  let kem := prim (.encaps 0x1002) [msg.take 1184, drbgBytes (d + 64) 32] (1088 + 32)
  let ssX := montgomery 0x5701 x.sk (sliceOf msg 1184 32)
  let head := kem.take 1088 ++ x.pk ++ drbgBytes (d + 32) 32
  let th := soundingTh msg head
  let reply := head ++ mlDsaSign 0x2002 lk (ascii "psibuaz-sounding") th (drbgBytes (d + 96) 32)
  let e := hdrEpoch i.frame
  let t := s.drawn 128
  if allZero ssX then t.endHandshake i.partner St.keyInvalid 0
  else
    let t := t.modPartner i.partner fun P => { P with
      lastEpoch := e,
      hs := some { initiator := false, job := P.hs.bind (·.job), epoch := e, initMsg := msg, replyMsg := reply,
                   okm := soundingOkm (kem.drop 1088) ssX th, sentAt := s.time.elapsed } }
    t.egressAll P (plainFrames P (fragMax (s.port P.port)) 0x02 e 0 reply)

/-- Our own INIT to this partner goes on: its N is not the lower one. -/
def keepsInit (P : Partner) (msg : Bytes) : Bool :=
  P.hs.any fun h => h.initiator && decide (fromBE (sliceOf msg 1216 32) ≤ fromBE (sliceOf h.initMsg 1216 32))

/-- INIT: arming, the table, the rule of simultaneous initiation, then the answer. -/
def execInitFrame (t : Nat) (s : State) : Out :=
  handshakeRow 0x01 t (fun s i P msg =>
    if msg.length ≠ 1248 then s
    else if ¬ P.armed ∧ ¬ P.autoAccept then s.drop i.port 11
    else if P.hs.isNone ∧ 4096 ≤ s.handshakes then s.drop i.port 12
    else match P.hs.bind fun h => if !h.initiator && h.initMsg == msg then some h else none with
    | some h => s.egressAll P (plainFrames P (fragMax (s.port P.port)) 0x02 h.epoch 0 h.replyMsg)
    | none =>
      if keepsInit P msg then s
      else match s.takeStep P.owner s.partners.hsClass i.partner msg.length replyPlan with
      | .error r => s.refuseFrame i.port r
      | .ok u =>
        match u.partnerKeys P with
        | none => u
        | some (lk, _) => u.answerInit i P lk msg) s

/-- REPLY: the initiator computes the keys, verifies, sends FINISH, and its side goes live. -/
def execReplyFrame (t : Nat) (s : State) : Out :=
  handshakeRow 0x02 t (fun s i P msg =>
    match P.hs with
    | none => s
    | some h =>
      if ¬ h.initiator ∨ h.epoch ≠ hdrEpoch i.frame ∨ msg.length ≠ 4461 then s
      else match s.takeStep P.owner s.partners.hsClass i.partner msg.length finishPlan with
      | .error r => s.refuseFrame i.port r
      | .ok s =>
        match s.partnerKeys P with
        | none => s.endHandshake i.partner St.keyInvalid 0
        | some (lk, pk) =>
          let ssK := prim (.decaps 0x1002) [h.secret.take (skLen 0x1002), msg.take 1088] 32
          let ssX := montgomery 0x5701 (h.secret.drop (skLen 0x1002)) (sliceOf msg 1088 32)
          let th := soundingTh h.initMsg (msg.take 1152)
          if allZero ssX then s.endHandshake i.partner St.keyInvalid 0
          else if ¬ mlDsaOk 0x2002 pk (ascii "psibuaz-sounding") th (msg.drop 1152) then s.endHandshake i.partner St.verifyFail 0
          else
            let okm := soundingOkm ssK ssX th
            let sig := mlDsaSign 0x2002 lk (ascii "psibuaz-sounding") (sha384 (th ++ msg.drop 1152)) (drbgBytes s.draws 32)
            let l := sealedFrames P (fragMax (s.port P.port)) 0x03 h.epoch 0 0 (okm.take 32) (sliceOf okm 64 12) sig
            ((s.drawn 32).egressAll P l).goLive i.partner i.port (liveEpoch okm true h.epoch l.length s.time.elapsed)) s

/-- FINISH: opened under the key of its handshake, verified at AL2, and the responder's side goes live. -/
def execFinishFrame (t : Nat) (s : State) : Out :=
  frameRow 0x03 t (fun s i P =>
    match P.hs with
    | none => s
    | some h =>
      let b := i.frame
      if h.initiator ∨ h.epoch ≠ hdrEpoch b then s
      else match s.takeOpen i P with
      | .error r => s.refuseFrame i.port r
      | .ok s =>
        match gcmOpen (h.okm.take 32) (frameNonce (sliceOf h.okm 64 12) (hdrSeq b)) (b.take 24) (b.drop 24) with
        | none => (s.drop i.port 8).endHandshake i.partner St.tagFail 0
        | some m =>
          match s.reassemble i m with
          | (v, none) => v
          | (v, some (_, msg)) =>
            match v.takeStep P.owner v.partners.hsClass i.partner msg.length (opsPlan [(0x2202, true)]) with
            | .error r => v.refuseFrame i.port r
            | .ok v =>
              match v.partnerKeys P with
              | none => v.endHandshake i.partner St.keyInvalid 0
              | some (_, pk) =>
                let th := soundingTh h.initMsg (h.replyMsg.take 1152)
                if mlDsaOk 0x2002 pk (ascii "psibuaz-sounding") (sha384 (th ++ h.replyMsg.drop 1152)) msg then
                  v.goLive i.partner i.port (liveEpoch h.okm false h.epoch (hdrCount b) v.time.elapsed)
                else v.endHandshake i.partner St.verifyFail 0) s

/-! ### Timers (R339, R342) -/

/-- HANDSHAKE_RETRANSMIT: INIT or REPLY again, at most three times; then the handshake is abandoned. -/
def execHandshakeRetransmit (partner t : Nat) (s : State) : Out :=
  let u := s.at_ t
  within (decide (partner < 2 ^ 24)) s (
    match u.partner? partner with
    | none => u
    | some P =>
      match P.hs with
      | none => u
      | some h =>
        if u.time.elapsed < h.sentAt + 250000000 then u
        else if 3 ≤ h.tries then u.endHandshake partner St.aborted 1
        else
          let v := u.modPartner partner fun P => { P with hs := some { h with tries := h.tries + 1, sentAt := u.time.elapsed } }
          v.egressAll P (plainFrames P (fragMax (u.port P.port)) (if h.initiator then 0x01 else 0x02) h.epoch 0
            (if h.initiator then h.initMsg else h.replyMsg)))

/-- The age at which a new Sounding starts: 23 h, or 2^31 frames of a direction. -/
def rekeyDue (E : Epoch) (now : Nat) : Bool := decide (E.live + 82800 * 10 ^ 9 ≤ now) || decide (2 ^ 31 ≤ E.frames)

/-- The age at which the keys end: 24 h, or 2^32 − 1 frames. -/
def expiryDue (E : Epoch) (now : Nat) : Bool := decide (E.live + 86400 * 10 ^ 9 ≤ now) || decide (2 ^ 32 - 1 ≤ E.frames)

/-- REKEY_TIMER: the device starts a new Sounding by itself. -/
def execRekeyTimer (partner t : Nat) (s : State) : Out :=
  let u := s.at_ t
  within (decide (partner < 2 ^ 24)) s (
    match u.partner? partner with
    | none => u
    | some P =>
      if P.usable ∧ P.hs.isNone ∧ (P.session.any fun E => rekeyDue E u.time.elapsed) ∧ u.roleFits P ∧ (u.port P.port).link ∧
          u.handshakes < 4096 ∧ ¬ u.chartStops ∧ ¬ u.faults.safe.on then
        (let start (v : State) : State :=
          match v.takeStep P.owner v.partners.hsClass partner 0 initPlan with
          | .error r => v.refused r
          | .ok w => w.startSounding partner none
         match u.touch partner with
         | .ready => start u
         | .wait v => start v
         | .full v => v)
      else u)

/-- EPOCH_EXPIRY: the session's keys are destroyed. -/
def execEpochExpiry (partner t : Nat) (s : State) : Out :=
  let u := s.at_ t
  within (decide (partner < 2 ^ 24)) s (
    match u.partner? partner with
    | none => u
    | some P => if P.session.any fun E => expiryDue E u.time.elapsed then u.dropKeys partner else u)

/-- OLD_EPOCH_GRACE_END: frames under the old epoch are no longer received. -/
def execOldEpochGraceEnd (partner t : Nat) (s : State) : Out :=
  let u := s.at_ t
  within (decide (partner < 2 ^ 24)) s (
    u.modPartner partner fun P => if P.old.any fun o => decide (o.2 ≤ u.time.elapsed) then { P with old := none } else P)

end Sys2Proof.Machine
end

