-- ==== Sys2Proof/Machine/LineCode.lean ====
section
/-! DEFINITION. The line code of a Meridian link: RS(544,514) over GF(2^10), the block of two codewords, its header and its
flits, and the dealing of symbols over four lanes (17_meridian.md R390). The field polynomial, the generator, the order of
bits in symbols and of symbols in codewords are the model's (log 99, PRESUMED and DESIGN CHOICE). -/

namespace Sys2Proof.Machine

/-- A symbol of the code: an element of GF(2^10). -/
abbrev Symbol := BitVec 10

/-- The product with α, a root of x^10 + x^3 + 1 (log 99, PRESUMED: Ethernet's field). -/
def Symbol.timesAlpha (a : Symbol) : Symbol := (a <<< 1) ^^^ (if a.msb then 0x009#10 else 0#10)

/-- The product of two elements, bit by bit of the second. -/
def gfMul (a b : Symbol) : Symbol :=
  (List.range 10).foldr (fun i acc => acc.timesAlpha ^^^ (if b.getLsbD i then a else 0#10)) 0#10

/-- Power `n` of α. -/
def gfAlpha : Nat → Symbol
  | 0 => 1#10
  | n + 1 => (gfAlpha n).timesAlpha

/-- The generator polynomial with roots α^0 to α^29, highest coefficient first (log 99, PRESUMED). -/
def rsGenerator : List Symbol :=
  (List.range 30).foldl (fun g j => List.zipWith (· ^^^ ·) (g ++ [0#10]) (0#10 :: g.map (gfMul (gfAlpha j)))) [1#10]

/-- One step of the division by the generator: `reg` is the remainder so far, `m` the next symbol. -/
def rsStep (reg : List Symbol) (m : Symbol) : List Symbol :=
  let f := m ^^^ reg.headD 0#10
  List.zipWith (· ^^^ ·) (reg.drop 1 ++ [0#10]) ((rsGenerator.drop 1).map (gfMul f))

/-- A codeword of RS(544,514): 514 data symbols, then the 30 parity symbols. -/
def rsCodeword (data : List Symbol) : List Symbol := data ++ data.foldl rsStep (List.replicate 30 0#10)

/-- The 10,280 data bits of a block: the 5-byte header, BLOCK_COUNT and a zero byte, and five flits. -/
def blockBytes (count : BitVec 32) (flits : List Bytes) : Bytes := le 4 count.toNat ++ [0#8] ++ flits.flatten

/-- A block's data as 1,028 symbols of 10 bits, the lowest bits first (log 99). -/
def blockSymbols (b : Bytes) : List Symbol :=
  let n := fromLE b
  (List.range 1028).map fun i => BitVec.ofNat 10 (n >>> (10 * i))

/-- Every second element of a list, from its first. -/
def evens {α : Type} : List α → List α
  | [] => []
  | [a] => [a]
  | a :: _ :: rest => a :: evens rest

/-- Two lists, element by element in turn. -/
def interleave {α : Type} : List α → List α → List α
  | a :: as, b :: bs => a :: b :: interleave as bs
  | as, [] => as
  | [], bs => bs

/-- The symbols of a block on the line: its data dealt to two codewords in turn, and the codewords interleaved symbol by
symbol. -/
def lineSymbols (count : BitVec 32) (flits : List Bytes) : List Symbol :=
  let d := blockSymbols (blockBytes count flits)
  interleave (rsCodeword (evens d)) (rsCodeword (evens (d.drop 1)))

/-- The symbols that lane `i` of four carries, dealt round robin. -/
def laneOf {α : Type} (i : Nat) (l : List α) : List α :=
  ((List.zip (List.range l.length) l).filter fun x => x.1 % 4 == i).map (·.2)

/-- A block as the four lanes carry it. -/
def lineBlock (count : BitVec 32) (flits : List Bytes) : List (List Symbol) :=
  let l := lineSymbols count flits
  (List.range 4).map fun i => laneOf i l

end Sys2Proof.Machine
end

