-- ==== Sys2Proof/Machine/Meridian.lean ====
section
/-! DEFINITION. Meridian links: flits, replay and credits, bring-up, the handshake against the roster, sealed messages and
their forwarding (17_meridian.md R389-R400). -/

namespace Sys2Proof.Machine

/-! ### Registers and lookups (R412) -/

/-- Counter MER.LINK_ERR[k][j] advances. -/
def State.linkErr (s : State) (k j : Nat) : State := s.bump (0xC0010 + 0x100 * k + 4 * j)

/-- The link that MER.ROUTE names for a node. -/
def State.merRoute (s : State) (n : Nat) : Option Nat :=
  let b := (s.reg (0xC8000 + 4 * (n / 4)) >>> (8 * (n % 4))) % 256
  if bitOf b 2 then some (b % 4) else none

/-- The link carries messages: its keys are in force, and it is up, being renewed, or being retrained. -/
def Link.carries (L : Link) : Bool := !L.keyIn.isEmpty && (L.mode == .up || L.mode == .handshake || L.mode == .training)

/-- The link runs flits. -/
def Link.runs (L : Link) : Bool := L.mode == .up || (L.mode == .handshake && !L.keyIn.isEmpty)

/-- The link whose peer is node `n`, if one carries messages. -/
def State.peerLink (s : State) (n : Nat) : Option Nat :=
  (tkeys s.cluster.links fun _ L => L.carries && L.peer == n).head?

/-- The entry of the roster that matches this device's own digest (R397). -/
def State.ownDigest (s : State) : Bytes := sha384 (pubOf 0x2003 (s.deviceKey false))

/-- The roster entry of a digest. -/
def Roster.byDigest (R : Roster) (d : Bytes) : Option RosterEntry := R.entries.find? fun e => e.digest == d

/-- This device is listed in its roster. -/
def State.inRoster (s : State) : Bool := s.cluster.roster.any fun R => (R.byDigest s.ownDigest).isSome

/-! ### Flits (R391) -/

/-- Bytes 0-251 of a flit, then their CRC-32. -/
def flitBytes (ftype seq ack credit flags : Nat) (payload : Bytes) : Bytes :=
  let b := le 1 ftype ++ [0#8] ++ le 2 seq ++ le 2 ack ++ le 1 credit ++ le 1 flags ++ fit 244 payload
  b ++ le 4 (crc32 b).toNat

/-- A flit goes out on the line: it joins the block being formed, and the fifth sends the block on the lanes (R390). -/
def Link.transmit (L : Link) (f : Bytes) : Link :=
  let b := L.block ++ [f]
  let L := { L with out := f :: L.out }
  if b.length < 5 then { L with block := b }
  else { L with block := [], blocks := L.blocks + 1, lanes := lineBlock L.blocks b }

/-- A flit goes out, with the highest SEQ received in order and the credits owed; one that is not idle takes the next SEQ
and stays in the replay buffer of 512 flits (R392, R393). -/
def State.sendFlit (s : State) (k ftype flags : Nat) (payload : Bytes) : State :=
  s.modLink k fun L =>
    let c0 := min L.owed0 15
    let c1 := min L.owed1 15
    let f := flitBytes ftype L.sendSeq ((L.recvSeq + 65535) % 65536) (c0 + 16 * c1) flags payload
    let kept := L.replay ++ [(L.sendSeq, f, 0)]
    { L.transmit f with
      owed0 := L.owed0 - c0, owed1 := L.owed1 - c1,
      sendSeq := if ftype = 0 then L.sendSeq else (L.sendSeq + 1) % 65536,
      replay := if ftype = 0 then L.replay else kept.drop (kept.length - 512) }

/-- One waiting message flit goes out where its VC has a credit. -/
def State.pumpOne (s : State) (k : Nat) (q : Bytes) : State :=
  let L := s.link k
  let flags := leAt q 0 1
  let vc1 := bitOf flags 0
  if (if vc1 then L.credit1 else L.credit0) = 0 then s.modLink k fun L => { L with queued := L.queued ++ [q] }
  else (s.modLink k fun L =>
    if vc1 then { L with credit1 := L.credit1 - 1 } else { L with credit0 := L.credit0 - 1 }).sendFlit k 1 flags (q.drop 1)

/-- The waiting message flits go out in order as far as credits reach. -/
def State.pump (s : State) (k : Nat) : State :=
  if (s.link k).runs then
    (s.link k).queued.foldl (fun u q => u.pumpOne k q) (s.modLink k fun L => { L with queued := [] })
  else s

/-- The line never stops: idle flits complete the block that is being formed. -/
def State.fillBlock (s : State) (k : Nat) : Nat → State
  | 0 => s
  | n + 1 => if (s.link k).block = [] then s else (s.sendFlit k 0 0 []).fillBlock k n

/-- What a tick sends on the links that run: the blocks begun go out (log 99). -/
def State.lineTick (s : State) : State :=
  eachOf (tkeys s.cluster.links fun _ L => L.runs && !L.block.isEmpty) (fun u k => u.fillBlock k 4) s

/-- Credits still owed go back in idle flits. -/
def State.creditFlits (s : State) (k : Nat) : Nat → State
  | 0 => s
  | n + 1 => if (s.link k).owed0 = 0 ∧ (s.link k).owed1 = 0 then s else (s.sendFlit k 0 0 []).creditFlits k n

/-! ### Messages (R399) -/

/-- Requests travel on VC0, responses on VC1. -/
def merVc (type : Nat) : Nat := if [0x02, 0x04, 0x06, 0x09, 0x11, 0x14].contains type then 1 else 0

/-- HOPS_LEFT at the source: four hops for tether traffic (R407), else the largest value. -/
def merHops (type : Nat) : Nat := if 0x10 ≤ type then 4 else 15

/-- The 16-byte header. -/
def merHeader (dst src type hops len ctr : Nat) : Bytes := le 2 dst ++ le 2 src ++ le 1 type ++ le 1 hops ++ le 2 len ++ le 8 ctr

/-- A message as flits that wait: FLAGS, then up to 244 bytes. -/
def merFlits (vc : Nat) (msg : Bytes) : List Bytes :=
  let fs := fragments 244 msg
  (List.zip (List.range fs.length) fs).map fun x =>
    le 1 (vc + 2 * b2n (x.1 == 0) + 4 * b2n (x.1 + 1 == fs.length)) ++ x.2

/-- A message is sealed for the hop of link `k` and queued on it (R395, R399). -/
def State.postOn (s : State) (k dst src type hops : Nat) (body : Bytes) : State :=
  let L := s.link k
  if L.carries then
    let h := merHeader dst src type hops body.length L.ctrOut
    let m := h ++ gcmSeal L.keyOut (frameNonce L.ivOut L.ctrOut) h body
    (s.modLink k fun L => { L with ctrOut := L.ctrOut + 1, queued := L.queued ++ merFlits (merVc type) m }).pump k
  else s.bump 0xC1020

/-- A received message waits for its type's command. -/
def State.toInbox (s : State) (k src type : Nat) (body : Bytes) : State :=
  { s with cluster := { s.cluster with inbox := s.cluster.inbox ++ [{ link := k, src := src, type := type, body := body }] } }

/-- A message from this node: to itself, to a linked peer for the exchanges of neighbours, else where MER.ROUTE leads. -/
def State.merSend (s : State) (dst type : Nat) (body : Bytes) : State :=
  if dst = s.cluster.node then s.toInbox 4 dst type body
  else match (if type ∈ [0x07, 0x08, 0x09] then s.peerLink dst else s.merRoute dst) with
  | some k => s.postOn k dst s.cluster.node type (merHops type) body
  | none => s.bump 0xC1020

/-- A new request: its REQ_ID is drawn, and it waits for its response (R400). -/
def State.merAsk (s : State) (dst type : Nat) (body tag : Bytes) (tried : List Nat := []) : State :=
  let id := fromLE (drbgBytes s.draws 8)
  let t := s.drawn 8
  let r : MerReq := { id := id, dst := dst, type := type, body := le 8 id ++ body, sentAt := s.time.elapsed,
                      first := s.time.elapsed, tag := tag, tried := tried }
  { t with cluster := { t.cluster with requests := t.cluster.requests ++ [r] } }.merSend dst type r.body

/-- A message that has arrived whole: opened under the hop's keys, then delivered, or forwarded with one hop less
(R395, R399). -/
def State.merArrive (s : State) (k : Nat) (raw : Bytes) : State :=
  let L := s.link k
  let h := raw.take 16
  let n := leAt h 6 2
  let ctr := leAt h 8 8
  let ct := sliceOf raw 16 (n + 16)
  let dst := leAt h 0 2 % 16384
  let src := leAt h 2 2 % 16384
  let hops := leAt h 5 1
  let deliver (t : State) (m : Bytes) : State :=
    if dst = t.cluster.node then t.toInbox k src (leAt h 4 1) m
    else if hops ≤ 1 then t.bump 0xC1020
    else match t.merRoute dst with
    | some j => t.postOn j dst src (leAt h 4 1) (hops - 1) m
    | none => t.bump 0xC1020
  match (if L.ctrIn < ctr then gcmOpen L.keyIn (frameNonce L.ivIn ctr) h ct else none) with
  | some m => deliver (s.modLink k fun L => { L with ctrIn := ctr }) m
  | none =>
    match (if L.ctrInOld < ctr ∧ L.keyInOld ≠ [] then gcmOpen L.keyInOld (frameNonce L.ivInOld ctr) h ct else none) with
    | some m => deliver (s.modLink k fun L => { L with ctrInOld := ctr }) m
    | none => s

/-! ### Bring-up and retrain (R392-R394) -/

/-- A retrain starts; it is counted, and it keeps the replay buffer and what waits. -/
def State.retrain (s : State) (k : Nat) : State :=
  if (s.link k).enable ∧ (s.link k).mode ≠ .training then
    (s.modLink k fun L => { L with mode := .training }).linkErr k 3
  else s

/-- Link `k` exists in the variant. -/
def State.hasLink (s : State) (k : Nat) : Bool := decide (k < portsOf s.variant)

/-- A write of MER.LINK_CTRL[k]: setting ENABLE starts bring-up and releases the link from a fence; clearing it takes the
link down; RETRAIN starts a retrain. -/
def State.writeLinkCtrl (s : State) (k : Nat) (v : BitVec 32) : State :=
  if ¬ s.hasLink k then s
  else
    let was := (s.link k).enable
    let t := if v.getLsbD 0 ∧ ¬ was then
        eachOf ((List.range 7).map (256 + 8 * k + ·)) State.leaveFence
          (s.modLink k fun L => { L with enable := true, mode := .training, fails := 0 })
      else if ¬ v.getLsbD 0 ∧ was then (s.linkDown k (s.link k).reason).modLink k fun L => { L with enable := false }
      else s
    if v.getLsbD 1 then t.retrain k else t

/-- LINK_ENABLE. -/
def execLinkEnable (k : Nat) (value : BitVec 32) (t : Nat) (s : State) : Out :=
  within (decide (k < 4)) s (managed (s.at_ t) ((s.at_ t).writeLinkCtrl k value))

/-- LINK_RETRAIN: a requested or forced retrain. -/
def execLinkRetrain (k t : Nat) (s : State) : Out :=
  within (decide (k < 4)) s (if s.hasLink k then (s.at_ t).retrain k else s.at_ t)

/-- LINK_RETRY: a link that has been down for 10 s tries again. -/
def execLinkRetry (k t : Nat) (s : State) : Out :=
  let u := s.at_ t
  within (decide (k < 4)) s (
    if u.hasLink k ∧ (u.link k).enable ∧ (u.link k).mode = .down ∧ (u.link k).downAt + 10 ^ 10 ≤ u.time.elapsed then u.modLink k fun L => { L with mode := .training }
    else u)

/-- CREDIT_TIMEOUT: flits wait and their VC has no credit. -/
def execCreditTimeout (k t : Nat) (s : State) : Out :=
  let u := s.at_ t
  within (decide (k < 4)) s (
    let L := u.link k
    if u.hasLink k ∧ L.runs ∧ L.queued.any fun q => (if bitOf (leAt q 0 1) 0 then L.credit1 else L.credit0) == 0 then
      (u.event (259 + 8 * k) 0x31 k).retrain k
    else u)

/-- MERIDIAN_LINK_REKEY: the same handshake renews the keys of a link that stays in use. -/
def execMeridianLinkRekey (k t : Nat) (s : State) : Out :=
  let u := s.at_ t
  within (decide (k < 4)) s (
    let L := u.link k
    if L.mode = .up ∧ (2 ^ 31 ≤ max L.ctrOut L.ctrIn ∨ L.upAt + 82800 * 10 ^ 9 ≤ u.time.elapsed) then
      u.modLink k fun L => { L with mode := .handshake }
    else u)

/-! ### The handshake (R395, R397) -/

/-- What the peer's ML-DSA-87 chain gives: its alias key, its DeviceID key's digest, whether it verifies, and the debug
flag (an X.509 chain, whose contents are free values: log 1). -/
def peerAlias (chain : Bytes) : Bytes := prim (.certificate 0) [chain] 2592
/-- SHA-384 of the peer's DeviceID ML-DSA-87 public key. -/
def peerDigest (chain : Bytes) : Bytes := sha384 (prim (.certificate 1) [chain] 2592)
/-- The chain verifies. -/
def chainOk (chain : Bytes) : Bool := Config.primBool (.certificate 2) [chain]
/-- The alias certificate carries the debug flag. -/
def chainDebug (chain : Bytes) : Bool := Config.primBool (.certificate 3) [chain]

/-- The context of the link handshake's signatures, and the customisation of its KMAC. -/
def merLabel : Bytes := ascii "psibuaz-meridian"

/-- The hop keys that a handshake with a peer yields, where the peer's signature verifies; this side is the initiator or
the responder. -/
def State.hopKeys (s : State) (p : PeerHello) (initiator : Bool) : Option Bytes :=
  let d := s.draws
  if initiator then
    let kem := pairOf 0x1002 (drbgBytes d 64)
    let x := pairOf 0x5701 (drbgBytes (d + 64) 32)
    let ssX := montgomery 0x5701 x.sk (sliceOf p.payload 1088 32)
    let th := soundingTh (kem.pk ++ x.pk ++ drbgBytes (d + 96) 32) p.payload
    if p.payload.length = 1152 ∧ ¬ allZero ssX ∧ mlDsaOk 0x2003 (peerAlias p.chain) merLabel th p.signature then
      some (kmac256 (prim (.decaps 0x1002) [kem.sk, p.payload.take 1088] 32 ++ ssX) th merLabel 88)
    else none
  else
    let x := pairOf 0x5701 (drbgBytes d 32)
    let kem := prim (.encaps 0x1002) [p.payload.take 1184, drbgBytes (d + 64) 32] (1088 + 32)
    let ssX := montgomery 0x5701 x.sk (sliceOf p.payload 1184 32)
    let th := soundingTh p.payload (kem.take 1088 ++ x.pk ++ drbgBytes (d + 32) 32)
    let own := s.aliasSign merLabel th (d + 96)
    if p.payload.length = 1248 ∧ ¬ allZero ssX ∧ mlDsaOk 0x2003 (peerAlias p.chain) merLabel (sha384 (th ++ own)) p.signature then
      some (kmac256 (kem.drop 1088 ++ ssX) th merLabel 88)
    else none

/-- The reason for which a peer is refused, if it is: 6 not in the roster, 7 the peer not in it, 4 a debug peer,
8 signature. -/
def State.peerRefused (s : State) (p : PeerHello) : Option Nat :=
  match s.cluster.roster with
  | none => some 6
  | some R =>
    if ¬ s.inRoster then some 6
    else if ¬ chainOk p.chain then some 8
    else match R.byDigest (peerDigest p.chain) with
    | none => some 7
    | some e =>
      if chainDebug p.chain ∧ ¬ e.flags.getLsbD 1 then some 4
      else if (s.hopKeys p (decide (s.cluster.node < e.node))).isNone then some 8 else none

/-- Replayed flits go out again as they are. -/
def State.resendAll (s : State) (k : Nat) : State :=
  s.modLink k fun L => (L.replay.map (·.2.1)).foldl Link.transmit L

/-- Message flits of a VC in the replay buffer. -/
def Link.unacked (L : Link) (vc : Nat) : Nat :=
  (L.replay.filter fun r => leAt r.2.1 0 1 == 1 && leAt r.2.1 7 1 % 2 == vc).length

/-- The link goes up with new hop keys: after a retrain the replay buffer is resent; a peer that joins is logged. -/
def State.linkGoesUp (s : State) (k : Nat) (e : RosterEntry) (initiator : Bool) (okm : Bytes) : State :=
  let L := s.link k
  let joined := L.keyIn.isEmpty
  let trained := L.mode == .training
  let kIR := okm.take 32
  let kRI := sliceOf okm 32 32
  let ivIR := sliceOf okm 64 12
  let ivRI := sliceOf okm 76 12
  let t := s.modLink k fun L => { L with
    mode := .up, peer := e.node, peerDev := e.digest, fails := 0, upAt := s.time.elapsed,
    keyInOld := L.keyIn, ivInOld := L.ivIn, ctrInOld := L.ctrIn, ctrOut := 1, ctrIn := 0,
    keyIn := if initiator then kRI else kIR, keyOut := if initiator then kIR else kRI,
    ivIn := if initiator then ivRI else ivIR, ivOut := if initiator then ivIR else ivRI }
  let t := if trained then
      (t.modLink k fun L => { L with
        credit0 := 128 - L.unacked 0, credit1 := 128 - L.unacked 1, owed0 := 0, owed1 := 0 }).resendAll k
    else t
  let t := { t with cluster := { t.cluster with member := true } }
  (if joined then t.logEvent 7 0x0070 ([1#8] ++ le 2 e.node) else t).pump k

/-- LINK_UP: the handshake with a peer ends. A refusal is recorded; a peer with a newer roster is asked for it. -/
def execLinkUp (k : Nat) (peer : PeerHello) (t : Nat) (s : State) : Out :=
  let u := s.at_ t
  within (decide (k < 4)) s (
    if ¬ u.hasLink k ∨ ((u.link k).mode ≠ .training ∧ (u.link k).mode ≠ .handshake) then u
    else match u.peerRefused peer with
    | some r => (u.event (260 + 8 * k) 0x31 k).attemptFails k r
    | none =>
      match u.cluster.roster.bind fun R => R.byDigest (peerDigest peer.chain) with
      | none => u
      | some e =>
        let ini := decide (u.cluster.node < e.node)
        let v := (u.drawn (if ini then 160 else 128)).linkGoesUp k e ini ((u.hopKeys peer ini).getD [])
        if (v.cluster.roster.map (·.version)).getD 0 < peer.rosterVersion then
          { v with cluster := { v.cluster with rosterIn := [] } }.merAsk e.node 0x08 (le 4 0) []
        else v)

/-! ### Flits received (R392, R393) -/

/-- SEQ `q` is at or before ACK `a`, modulo 2^16. -/
def ackCovers (a q : Nat) : Bool := decide ((a + 65536 - q) % 65536 < 32768)

/-- What any good flit returns: its ACK frees the replay buffer, its CREDIT the VCs. -/
def Link.returns (L : Link) (f : Bytes) : Link :=
  let c := leAt f 6 1
  { L with
    replay := L.replay.filter fun r => !ackCovers (leAt f 4 2) r.1,
    credit0 := min 128 (L.credit0 + c % 16), credit1 := min 128 (L.credit1 + c / 16) }

/-- A NAK: every flit after its ACK goes out again; the eighth time for one of them, or a point outside the buffer, is
recorded and starts a retrain. -/
def State.nak (s : State) (k : Nat) (f : Bytes) : State :=
  let first := (leAt f 4 2 + 1) % 65536
  let t := s.modLink k fun L => { L with replay := L.replay.map fun r => (r.1, r.2.1, r.2.2 + 1) }
  let L := t.link k
  let outside := match L.replay with
    | [] => L.sendSeq != first
    | r :: _ => r.1 != first
  if outside || L.replay.any (fun r => decide (8 ≤ r.2.2)) then (t.event (257 + 8 * k) 0x31 k).retrain k
  else t.resendAll k

/-- A flit is dropped: NAK names the flit after the last received in order. -/
def State.sendNak (s : State) (k : Nat) : State := (s.linkErr k 2).sendFlit k 2 0 [1#8]

/-- The payload of a message flit joins its VC's message; the last one makes it whole. -/
def State.msgFlit (s : State) (k : Nat) (f : Bytes) : State :=
  let flags := leAt f 7 1
  let vc1 := bitOf flags 0
  let data := sliceOf f 8 244
  let t := s.modLink k fun L =>
    let part := (if bitOf flags 1 then [] else if vc1 then L.part1 else L.part0) ++ data
    if vc1 then { L with part1 := part, owed1 := L.owed1 + 1 } else { L with part0 := part, owed0 := L.owed0 + 1 }
  if bitOf flags 2 then
    let raw := if vc1 then (t.link k).part1 else (t.link k).part0
    (t.modLink k fun L => if vc1 then { L with part1 := [] } else { L with part0 := [] }).merArrive k raw
  else t

/-- A good flit: an idle one only returns credits; another one counts when its SEQ is the next expected. -/
def State.goodFlit (s : State) (k : Nat) (f : Bytes) : State :=
  let ty := leAt f 0 1
  if ty = 0 then (s.modLink k fun L => L.returns f).pump k
  else if leAt f 2 2 ≠ (s.link k).recvSeq then s
  else
    let t := s.modLink k fun L => { L.returns f with recvSeq := (L.recvSeq + 1) % 65536 }
    let t := if ty = 1 then t.msgFlit k f
      else if ty = 2 ∧ leAt f 8 1 = 1 then t.nak k f
      else if ty = 2 ∧ leAt f 8 1 = 2 then t.retrain k else t
    (t.pump k).creditFlits k 20

/-- The codewords that the decoder of link `k` has corrected since the last flit are counted (R412). -/
def State.corrected (s : State) (k c : Nat) : State := if c = 0 then s else s.bumpBy (0xC0010 + 0x100 * k) 32 c

/-- FLIT_RECEIVED: a flit of an uncorrectable codeword (no count of corrected ones), or whose CRC fails, is dropped and answered
with NAK. -/
def execFlitReceived (k : Nat) (flit : List Byte) (fec : Option Nat) (t : Nat) (s : State) : Out :=
  let u := s.at_ t
  within (decide (k < 4)) s (
    if ¬ u.hasLink k ∨ ¬ (u.link k).runs then u
    else match fec with
    | none =>
      let v := ((u.linkErr k 1).event (258 + 8 * k) 0x31 k)
      if (v.link k).runs then v.sendNak k else v
    | some c =>
      let v := u.corrected k c
      if flit.length ≠ 256 ∨ leAt flit 252 4 ≠ (crc32 (flit.take 252)).toNat then v.sendNak k else v.goodFlit k flit)

end Sys2Proof.Machine
end

