-- ==== Sys2Proof/Machine/Cluster.lean ====
section
/-! DEFINITION. Clusters: the roster, marks and the pilot, leases, delegated trees, cross-chained logbooks, and the resending
of requests (17_meridian.md R396-R406). -/

namespace Sys2Proof.Machine

/-! ### The roster (R396, R397) -/

/-- The entries of a roster image. -/
def rosterEntries (b : Bytes) : List RosterEntry :=
  (List.range (leAt b 6 2)).map fun i =>
    { digest := sliceOf b (64 + 64 * i) 48, node := leAt b (112 + 64 * i) 2, flags := BitVec.ofNat 8 (leAt b (114 + 64 * i) 1) }

/-- The image's fields and reserved fields are in order. -/
def rosterFormat (b : Bytes) : Bool :=
  let n := leAt b 6 2
  leAt b 0 4 == 0x54534F52 && leAt b 4 2 == 1 && decide (1 ≤ n) && decide (n ≤ 16384) && leAt b 12 4 == b.length &&
  b.length == 64 + 64 * n + 4635 && allZero (sliceOf b 24 40) &&
  ((List.range n).all fun i => decide (leAt b (112 + 64 * i) 2 < 16384) && decide (leAt b (114 + 64 * i) 1 < 8) &&
    allZero (sliceOf b (115 + 64 * i) 13))

/-- Names of the four replicated floors: ROSTER_VERSION, CHART.FLOOR, the policy floor, OMOD.FLOOR; their 16 bytes are free
values (log 45). -/
def floorName (k : Nat) : Bytes := prim (.image 11) [le 1 k] 16

/-- A mark of this node. -/
def State.markOf (s : State) (name : Bytes) : Nat := ((s.cluster.marks.find? fun m => m.1 == name).map (·.2)).getD 0

/-- The cluster floor `k` as this node knows it (R402). -/
def State.clusterFloor (s : State) (k : Nat) : Nat := max (s.markOf (floorName k)) ((tget s.cluster.proposed k).getD 0)

/-- This device's own value of a replicated floor. -/
def State.localFloor (s : State) (k : Nat) : Nat :=
  match k with
  | 0 => (s.cluster.roster.map (·.version)).getD 0
  | 1 => s.chart.floor
  | 2 => s.auth.floor
  | _ => s.service.floor

/-- The reason for which a roster image is refused, if it is. -/
def State.rosterRefused (s : State) (b : Bytes) : Option Nat :=
  let es := rosterEntries b
  let pilots := (es.filter fun e => e.flags.getLsbD 0).length
  firstFail [(1, rosterFormat b), (2, s.sigBlockOk (ascii "psibuaz-roster") b),
    (3, decide ((es.map (·.digest)).Nodup ∧ (es.map (·.node)).Nodup)),
    (4, decide (1 ≤ pilots ∧ pilots ≤ 7)), (5, decide (s.clusterFloor 0 ≤ leAt b 8 4))]

/-- A roster takes effect: this node's ID and place come from its entry, and links to peers it does not list go down. -/
def State.installRoster (s : State) (b : Bytes) : State :=
  let R : Roster := { image := b, version := leAt b 8 4, clusterId := leAt b 16 8, entries := rosterEntries b }
  let me := R.byDigest s.ownDigest
  let t := { s with cluster := { s.cluster with
    roster := some R, node := (me.map (·.node)).getD 0, pilotSet := me.any fun e => e.flags.getLsbD 0 } }
  eachOf (tkeys t.cluster.links fun _ L => L.carries && (R.byDigest L.peerDev).isNone) (fun u k => u.linkDown k 7) t

/-- The image at MER.ROSTER_ADDR is checked and installed, or refused with its REASON. -/
def State.loadRoster (u : State) : State :=
  let a := u.reg 0xC1008
  let n := leAt (u.hostRead a 64) 12 4
  let n := if n ≤ 64 + 64 * 16384 + 4635 then n else 64
  let b := u.hostRead a n
  match (if (u.readFault a (max n 64)).isSome then some 1 else u.rosterRefused b) with
  | some r => { u with cluster := { u.cluster with loadReason := r } }
  | none => { u.installRoster b with cluster := { (u.installRoster b).cluster with loadReason := 0 } }

/-- ROSTER_LOAD. -/
def execRosterLoad (t : Nat) (s : State) : Out :=
  done s (if portsOf s.variant = 0 then s.at_ t else managed (s.at_ t) (s.at_ t).loadRoster)

/-! ### Messages by type, and answers (R399, R400) -/

/-- The oldest message of a type, taken. -/
def State.takeMessage (s : State) (type : Nat) : Option (Message × State) :=
  (s.cluster.inbox.find? fun m => m.type == type).map fun m =>
    (m, { s with cluster := { s.cluster with inbox := s.cluster.inbox.erase m } })

/-- A command on the oldest message of its type; with none waiting it changes nothing. -/
def merRow (type t : Nat) (f : State → Message → State) (s : State) : Out :=
  let u := s.at_ t
  done s (match u.takeMessage type with
    | none => u
    | some (m, v) => f v m)

/-- REQ_ID of a message. -/
def Message.req (m : Message) : Nat := leAt m.body 0 8

/-- A protocol violation on marks or leases is recorded on the link that carried it (R411). -/
def State.violation (s : State) (m : Message) : State := if m.link < 4 then s.event (261 + 8 * m.link) 0x31 m.link else s

/-- A response to a request, kept for the request's repeats. -/
def State.merAnswer (s : State) (src id type : Nat) (body : Bytes) : State :=
  let b := le 8 id ++ body
  { s with cluster := { s.cluster with answers := ((src, id, type, b) :: s.cluster.answers).take 65536 } }.merSend src type b

/-- A request is handled once; a repeat gets the earlier answer. -/
def State.once (s : State) (m : Message) (f : State → State) : State :=
  match s.cluster.answers.find? fun a => a.1 == m.src && a.2.1 == m.req with
  | some a => s.merSend m.src a.2.2.1 a.2.2.2
  | none => f s

/-- The request that a response answers; it no longer waits. -/
def State.takeRequest (s : State) (m : Message) (type : Nat) : Option (MerReq × State) :=
  (s.cluster.requests.find? fun r => r.id == m.req && r.type == type && r.dst == m.src).map fun r =>
    (r, { s with cluster := { s.cluster with requests := s.cluster.requests.filter fun x => x.id != r.id } })

/-! ### Marks (R401, R402) -/

/-- Nodes of the pilot set, in ascending order. -/
def State.pilots (s : State) : List Nat :=
  match s.cluster.roster with
  | none => []
  | some R => sortBy (fun n => n) ((R.entries.filter fun e => e.flags.getLsbD 0).map (·.node))

/-- A mark is stored. -/
def State.setMark (s : State) (name : Bytes) (v : Nat) : State :=
  { s with cluster := { s.cluster with marks := (s.cluster.marks.filter fun m => m.1 != name) ++ [(name, v)] } }

/-- Key tags among the marks. -/
def State.tagCount (s : State) : Nat :=
  (s.cluster.marks.filter fun m => !((List.range 4).any fun k => floorName k == m.1)).length

/-- A LEASE_GRANT body: status, start, end. -/
def grantBody (status lo hi : Nat) : Bytes := le 1 status ++ le 8 lo ++ le 8 hi

/-- A proposal that a majority has acknowledged succeeds: its lease is granted, or its floor stands. -/
def State.settleProposal (s : State) (p : Proposal) : State :=
  if s.pilots.length / 2 + 1 ≤ p.acks.length then
    let t := { s with cluster := { s.cluster with
      proposals := s.cluster.proposals.filter fun x => x.name != p.name || x.value != p.value,
      requests := s.cluster.requests.filter fun r => r.type != 0x01 || r.body.drop 8 != p.name ++ le 8 p.value } }
    match p.lease with
    | some (who, rid, start) => t.merAnswer who rid 0x04 (grantBody 0 start p.value)
    | none => t
  else { s with cluster := { s.cluster with
    proposals := (s.cluster.proposals.filter fun x => x.name != p.name || x.value != p.value) ++ [p] } }

/-- A value is proposed for a name: this node acknowledges it where it is in the pilot set and the value is above its mark,
and asks every other member. -/
def State.propose (s : State) (name : Bytes) (value : Nat) (lease : Option (Nat × Nat × Nat)) : State :=
  let own := s.cluster.pilotSet && decide (s.markOf name < value)
  let t := if own then s.setMark name value else s
  let p : Proposal := { name := name, value := value, acks := if own then [s.cluster.node] else [], best := 0, lease := lease }
  let others := s.pilots.filter (· != s.cluster.node)
  let t := t.settleProposal p
  if t.cluster.proposals.any fun x => x.name == name && x.value == value then
    others.foldl (fun u n => u.merAsk n 0x01 (name ++ le 8 value) name) t
  else t

/-- MARK_PROPOSE: a member of the pilot set stores a value above its mark and acknowledges it, or returns its mark. -/
def execMarkPropose (t : Nat) (s : State) : Out :=
  merRow 0x01 t (fun s m =>
    let name := sliceOf m.body 8 16
    let v := leAt m.body 24 8
    if m.body.length ≠ 32 ∨ ¬ s.cluster.pilotSet then s.violation m
    else s.once m fun s =>
      if s.markOf name < v then (s.setMark name v).merAnswer m.src m.req 0x02 (le 1 1 ++ le 8 v)
      else s.merAnswer m.src m.req 0x02 (le 1 0 ++ le 8 (s.markOf name))) s

/-- The smallest INVOCATION_LIMIT seen of a tag, as the cap of its marks; 0 stands for no lower limit. -/
def State.capOf (s : State) (tag : Bytes) : Nat :=
  let c := ((s.cluster.caps.find? fun m => m.1 == tag).map (·.2)).getD 0
  if c = 0 then 2 ^ 64 - 1 else c

/-- A lease of a tag is proposed from `start` for a requester; EXHAUSTED where the cap leaves nothing, or the tag would be
one too many. -/
def State.proposeLease (s : State) (tag : Bytes) (start who rid : Nat) : State :=
  let v := min (start + 2 ^ 20) (s.capOf tag)
  if v ≤ start ∨ (65536 ≤ s.tagCount ∧ (s.cluster.marks.any fun m => m.1 == tag) = false) then
    s.merAnswer who rid 0x04 (grantBody 1 0 0)
  else s.propose tag v (some (who, rid, start))

/-- The value that a NACK returns for a replicated floor is adopted. -/
def State.adoptFloor (s : State) (name : Bytes) (v : Nat) : State :=
  let f (q : Table Nat) (k : Nat) : Table Nat := if floorName k == name then tput q k (max v ((tget q k).getD 0)) else q
  let p := (List.range 4).foldl f s.cluster.proposed
  { s with cluster := { s.cluster with proposed := p } }

/-- MARK_REPLY: an acknowledgement counts toward the majority; after a NACK the proposer adopts the value returned, and a
lease is proposed again from it. -/
def execMarkReply (t : Nat) (s : State) : Out :=
  merRow 0x02 t (fun s m =>
    if m.body.length ≠ 17 then s.violation m
    else match s.takeRequest m 0x01 with
    | none => s
    | some (r, u) =>
      let name := sliceOf r.body 8 16
      let v := leAt r.body 24 8
      match u.cluster.proposals.find? fun p => p.name == name && p.value == v with
      | none => u
      | some p =>
        if leAt m.body 8 1 = 1 then
          u.settleProposal { p with acks := if p.acks.contains m.src then p.acks else p.acks ++ [m.src] }
        else
          let best := leAt m.body 9 8
          let w := { u with cluster := { u.cluster with
            proposals := u.cluster.proposals.filter fun x => x.name != name || x.value != v } }
          match p.lease with
          | some (who, rid, _) => w.proposeLease name (max best (w.markOf name)) who rid
          | none => w.adoptFloor name best) s

/-! ### Leases of nonce counters (R403, R404) -/

/-- KEY_TAG. -/
def keyTag (material : Bytes) : Bytes := (kmac256 material [] (ascii "psibuaz-keytag") 32).take 16

/-- LEASE_REQ: any member of the pilot set may serve it; its limit lowers the tag's cap. -/
def execLeaseReq (t : Nat) (s : State) : Out :=
  merRow 0x03 t (fun s m =>
    let tag := sliceOf m.body 8 16
    let lim := leAt m.body 24 8
    if m.body.length ≠ 40 ∨ leAt m.body 32 8 ≠ 2 ^ 20 ∨ ¬ s.cluster.pilotSet then s.violation m
    else s.once m fun s =>
      if s.cluster.proposals.any fun p => p.lease.any fun l => l.1 == m.src && l.2.1 == m.req then s
      else
        let cap := if lim = 0 then s.capOf tag else min lim (s.capOf tag)
        let u : State := { s with cluster := { s.cluster with
          caps := (s.cluster.caps.filter fun (c : Bytes × Nat) => c.1 != tag) ++ [(tag, cap)] } }
        u.proposeLease tag (u.markOf tag) m.src m.req) s

/-- The live secret key of a tag that takes its counter from leases. -/
def State.keyOfTag (s : State) (tag : Bytes) : Option Nat :=
  (s.keys.live.find? fun e => e.2.shared && e.2.hbs.isNone && keyTag e.2.material == tag).map (·.1)

/-- The end of the last range that a key has been granted. -/
def Key.leasedTo (K : Key) : Nat := ((K.nextLease.orElse fun _ => K.lease).map (·.2)).getD 0

/-- LEASE_GRANT: the range is written to the NVS and logged before any of its values is used; a range that is not the one
asked for is a violation. -/
def execLeaseGrant (t : Nat) (s : State) : Out :=
  merRow 0x04 t (fun s m =>
    let st := leAt m.body 8 1
    let lo := leAt m.body 9 8
    let hi := leAt m.body 17 8
    if m.body.length ≠ 25 then s.violation m
    else match s.takeRequest m 0x03 with
    | none => s
    | some (r, u) =>
      match u.keyOfTag r.tag with
      | none => u
      | some i =>
        match u.key? i with
        | none => u
        | some K =>
          if st ≠ 0 then u.modKey i fun K => { K with asked := false }
          else if hi ≤ lo ∨ 2 ^ 20 < hi - lo ∨ lo < K.leasedTo then u.violation m
          else if K.nextLease.isSome then u
          else (u.modKey i fun K => { K with nextLease := some (lo, hi), asked := false }).logEvent 7 0x0070
            ([3#8] ++ le 2 m.src ++ r.tag ++ le 8 lo ++ le 8 hi)) s

/-- A key that needs a further lease: three quarters of its lease are used, or a job found no value left. -/
def Key.wantsLease (K : Key) : Bool :=
  K.shared && K.hbs.isNone && K.nextLease.isNone &&
  (K.asked || (match K.lease with | some (lo, hi) => decide (3 * (hi - lo) ≤ 4 * (K.ctr - lo)) | none => false))

/-- Ask for the leases that keys need (R403; 18, R424: not in the safe state). -/
def State.askLeases (s : State) : State :=
  if ¬ s.cluster.member ∨ s.faults.safe.on then s
  else
    (s.keys.live.filter fun e => e.2.wantsLease).foldl (fun u e =>
      let tag := keyTag e.2.material
      if u.cluster.requests.any fun r => r.type == 0x03 && r.tag == tag then u
      else u.merAsk (u.reg 0xC1014 % 16384) 0x03 (tag ++ le 8 e.2.limit ++ le 8 (2 ^ 20)) tag) s

/-- Propose the floors that have been raised (R402). -/
def State.proposeFloors (s : State) : State :=
  if ¬ s.cluster.member then s
  else eachOf (List.range 4) (fun u k =>
    if (tget u.cluster.proposed k).getD 0 < u.localFloor k then
      { u with cluster := { u.cluster with proposed := tput u.cluster.proposed k (u.localFloor k) } }.propose
        (floorName k) (u.localFloor k) none
    else u) s

/-! ### Delegated trees (R405) -/

/-- A stateful key of two or more levels that may be shared. -/
def Key.delegates (K : Key) : Bool :=
  K.shared && K.kind == .priv && (K.hbs.any fun H => H.holder.isNone && (H.types.length ≥ 2 || (H.types.any fun x =>
    decide (2 ≤ x.2) && decide (0x3C00 ≤ K.alg))))

/-- The lowest bottom tree that the holder has neither reserved leaves of, nor built, nor given away. -/
def Hbs.freeTree (H : Hbs) : Option Nat :=
  let n := max H.perTree 1
  let lo := ceilDiv (max H.endAt (max H.next H.ready)) n
  ((List.range (H.given.length + 1)).map (lo + ·)).find? fun q => !H.given.contains q && decide ((q + 1) * n ≤ H.limit)

/-- The length of the signed roots above a bottom tree. -/
def upperLen (K : Key) (H : Hbs) : Nat :=
  if K.alg / 0x100 = 0x34 then hssSigLen H.types - 4 - lmsSigLen (H.types.getLastD (0, 0)).1 (H.types.getLastD (0, 0)).2
  else xmssSigLen true (psetOf K.alg)

/-- DELEGATE_REQ: the holder signs the root with a leaf of the level above and gives the global leaf range of a bottom tree
that it never uses itself. Without the key or a free tree, the status is 1. -/
def execDelegateReq (t : Nat) (s : State) : Out :=
  merRow 0x05 t (fun s m =>
    let tag := sliceOf m.body 8 16
    s.once m fun s =>
      match s.keys.live.find? fun e => e.2.delegates && keyTag e.2.pubPart == tag with
      | none => s.merAnswer m.src m.req 0x06 (grantBody 1 0 0)
      | some (i, K) =>
        match K.hbs.bind fun H => H.freeTree.map fun q => (H, q) with
        | none => s.merAnswer m.src m.req 0x06 (grantBody 1 0 0)
        | some (H, q) =>
          let r := H.signRoots q s.draws
          let sig := if K.alg / 0x100 = 0x34 then fit (upperLen K H) (hssUpper K.alg K.material r.1 q (m.body.drop 24))
            else prim (.hbsSign K.alg) [K.material, le 8 q, m.body.drop 24] (upperLen K H)
          ((s.modKey i fun K => { K with hbs := some { r.1 with given := sortBy (fun n => n) (H.given ++ [q]) } }).drawn r.2).merAnswer
            m.src m.req 0x06 (grantBody 0 (q * H.perTree) ((q + 1) * H.perTree) ++ sig)) s

/-- DELEGATE_GRANT: the lessee's record holds the range as its lease. -/
def execDelegateGrant (t : Nat) (s : State) : Out :=
  merRow 0x06 t (fun s m =>
    let lo := leAt m.body 9 8
    let hi := leAt m.body 17 8
    match s.takeRequest m 0x05 with
    | none => s
    | some (r, u) =>
      if m.body.length < 25 ∨ (leAt m.body 8 1 = 0 ∧ hi ≤ lo) then u.violation m
      else if leAt m.body 8 1 ≠ 0 then u
      else match u.keys.live.find? fun e => (e.2.hbs.any fun H => H.holder == some m.src) && keyTag e.2.pubPart == r.tag with
      | none => u
      | some (i, _) =>
        (u.modKey i fun K => { K with hbs := K.hbs.map fun H => { H with
          leaseLo := lo, leaseHi := some hi, reserved := lo, next := lo, ready := hi, pendingTo := none,
          upper := m.body.drop 25 } }).logEvent 7 0x0070
          ([3#8] ++ le 2 m.src ++ r.tag ++ le 8 lo ++ le 8 hi)) s

/-- A lessee whose range is used up asks its holder for a further one; the root it sends is that of a new tree. -/
def State.askTrees (s : State) : State :=
  if ¬ s.cluster.member ∨ s.faults.safe.on then s
  else
    (s.keys.live.filter fun e => e.2.hbs.any fun H => H.holder.isSome && decide (H.limit ≤ H.next)).foldl (fun u e =>
      let tag := keyTag e.2.pubPart
      if u.cluster.requests.any fun r => r.type == 0x05 && r.tag == tag then u
      else
        let d := u.draws
        let root := prim (.hbsRoot e.2.alg) [drbgBytes d 64] 64
        (u.drawn 64).merAsk ((e.2.hbs.bind (·.holder)).getD 0) 0x05 (tag ++ root) tag) s

/-! ### Cross-chaining (R406) -/

/-- The 56-byte block of a logbook register (15, R365). -/
def State.regBlock (s : State) (r : Nat) : Bytes :=
  let L := s.logReg r
  L.value ++ le 4 L.count ++ le 2 L.epoch ++ zeros 2

/-- AUDIT_SEQ of the last record before a snapshot (15, R366). -/
def State.lastAudit (s : State) : Nat := s.log.seq - 1

/-- CROSS: the neighbour's AUDIT_SEQ and digest are chained into LOG[7]. -/
def execCross (t : Nat) (s : State) : Out :=
  merRow 0x07 t (fun s m =>
    if m.body.length ≠ 56 then s else s.logEvent 7 0x0070 ([4#8] ++ le 2 m.src ++ m.body)) s

/-- CROSS_INTERVAL: every member sends CROSS to each peer linked to it. -/
def execCrossInterval (t : Nat) (s : State) : Out :=
  let u := s.at_ t
  let b := le 8 u.lastAudit ++ sha384 ((List.range 8).flatMap u.regBlock)
  done s (if u.cluster.member then
    eachOf (tkeys u.cluster.links fun _ L => L.carries) (fun v k => v.postOn k (v.link k).peer v.cluster.node 0x07 1 b) u
  else u)

/-! ### The roster over a link (R397) -/

/-- Bytes of a roster that one message carries. -/
def rosterChunk : Nat := 32768

/-- ROSTER_GET: the part of this node's roster image from an offset. -/
def execRosterGet (t : Nat) (s : State) : Out :=
  merRow 0x08 t (fun s m =>
    let img := (s.cluster.roster.map (·.image)).getD []
    let off := leAt m.body 8 4
    s.merSend m.src 0x09 (le 8 m.req ++ le 4 off ++ le 4 img.length ++ sliceOf img off rosterChunk)) s

/-- ROSTER_DATA: the next part of a newer roster; the whole image is checked and installed like a loaded one. -/
def execRosterData (t : Nat) (s : State) : Out :=
  merRow 0x09 t (fun s m =>
    match s.takeRequest m 0x08 with
    | none => s
    | some (_, u) =>
      let off := leAt m.body 8 4
      let total := leAt m.body 12 4
      let part := m.body.drop 16
      if off ≠ u.cluster.rosterIn.length ∨ part = [] ∨ 64 + 64 * 16384 + 4635 < total then u
      else
        let b := u.cluster.rosterIn ++ part
        if b.length < total then
          { u with cluster := { u.cluster with rosterIn := b } }.merAsk m.src 0x08 (le 4 b.length) []
        else
          let v := { u with cluster := { u.cluster with rosterIn := [] } }
          if (v.cluster.roster.map (·.version)).getD 0 < leAt b 8 4 then
            (match v.rosterRefused b with
             | some r => { v with cluster := { v.cluster with loadReason := r } }
             | none => v.installRoster b)
          else v) s

/-! ### Requests that wait (R400, R402) -/

/-- The pilot member that takes the place of those that did not answer: the next in ascending node ID. -/
def State.nextPilot (s : State) (last : Nat) (tried : List Nat) : Option Nat :=
  let ps := s.pilots
  ((ps.filter fun n => decide (last < n)) ++ (ps.filter fun n => decide (n ≤ last))).find? fun n => !tried.contains n

/-- A request fails: a lease is asked of the next member of the pilot set. -/
def State.requestFails (s : State) (r : MerReq) : State :=
  let t := { s with cluster := { s.cluster with requests := s.cluster.requests.filter fun x => x.id != r.id } }
  if r.type = 0x03 ∧ ¬ s.faults.safe.on then
    match t.nextPilot r.dst (r.dst :: r.tried) with
    | some n => t.merAsk n 0x03 (r.body.drop 8) r.tag (r.dst :: r.tried)
    | none => t
  else t

/-- MERIDIAN_REQUEST_RESEND: 10 ms after it was last sent a request goes out again, for up to 1 s. -/
def execMeridianRequestResend (req t : Nat) (s : State) : Out :=
  let u := s.at_ t
  done s (match u.cluster.requests.find? fun r => r.id == req with
    | none => u
    | some r =>
      if u.time.elapsed < r.sentAt + 10000000 then u
      else if r.first + 1000000000 ≤ u.time.elapsed then u.requestFails r
      else
        let again := u.cluster.requests.map fun (x : MerReq) => if x.id = r.id then { x with sentAt := u.time.elapsed } else x
        { u with cluster := { u.cluster with requests := again } }.merSend r.dst r.type r.body)

/-- What a tick starts: proposals of raised floors, and requests for leases. -/
def State.clusterTick (s : State) : State := s.proposeFloors.askLeases.askTrees

end Sys2Proof.Machine
end

