-- ==== Sys2Proof/Machine/FaultCmds.lean ====
section
/-! DEFINITION. The fault collector's commands: events, acknowledgements, windows, releases, injection, configuration, and
the exit from the safe state (18_faults_safety.md R413-R435; 11, R273-R274). -/

namespace Sys2Proof.Machine

/-- The variant has the unit of a source: its tiles, Quadrants, ports, links and rails. -/
def State.hasSource (s : State) (n : Nat) : Bool :=
  srcListed n &&
  (if n < 96 then n < tilesOf s.variant
   else if n < 128 then (n - 96) / 8 < quadsOf s.variant
   else if 208 ≤ n && n ≤ 211 then pmemsOf s.variant == 2
   else if 224 ≤ n && n < 256 then (n - 224) / 8 < portsOf s.variant
   else if 256 ≤ n && n < 288 then (n - 256) / 8 < portsOf s.variant
   else if 320 ≤ n && n ≤ 323 then n - 320 < quadsOf s.variant else true)

/-- What a detected event does beside the collector: the job that read an uncorrectable error, or a private-memory line
whose MAC failed, completes with MCHECK (01, R29, R35); PMEM.ERR counts the events of a port (22, R484); a field port's link goes down; an attempt to train a Meridian link
has failed (17, R394); a tile whose PLL unlocks stops its crossing, and its Quadrant's die-to-die link records that (01, R39); the
DRBG is unhealthy. -/
def State.eventSide (s : State) (src sub : Nat) (job : Option Nat) : State :=
  let t := match job with
    | some j => if sub = 0x02 ∨ sub = 0x22 then s.endJob j St.mcheck 0 else s
    | none => s
  if sub = 0x21 ∧ 224 ≤ src ∧ src < 256 then t.modPort ((src - 224) / 8) fun P => { P with link := false }
  else if 256 ≤ src ∧ src < 288 ∧ src % 8 = 0 ∧ (t.link ((src - 256) / 8)).mode = .training then
    t.attemptFails ((src - 256) / 8) (t.link ((src - 256) / 8)).reason
  else if 192 ≤ src ∧ src < 212 then t.bump (0xB0010 + 0x100 * ((src - 192) / 16) + 4 * ((src - 192) % 16))
  else if sub = 0x1A ∧ src < 96 then t.event (99 + 8 * (src / 24)) 0x03 src
  else if sub = 0x26 then { t with pins := { t.pins with entropyBad := true } }
  else t

/-! ### Two events of one source in one collector cycle (R414, R433) -/

/-- The order of R414 for a merged record: B-immediate, A-immediate, counted, log. -/
def dispRank : Disp → Nat
  | .b => 3
  | .a => 2
  | .counted => 1
  | .log => 0

/-- The collector cycle, at 400 MHz, that holds `ns` of the elapsed count (R413). -/
def collectorCycle (ns : Nat) : Nat := ns * 2 / 5

/-- One event that arrives in collector cycle `c`. With a record of the same source from the same cycle it makes one
record: REAL and INJ are ORed, the sub-cause of the higher disposition stays, and between equals the higher code; the
merged record is counted once and has the real reaction (R414, R433). Two writes of FLT.FORCE are never one cycle. -/
def State.collect (s : State) (c src sub aux : Nat) (real inj dry : Bool) (job : Option Nat) : State :=
  let S := s.src src
  let mark := fun (t : State) => t.modSrc src fun x => { x with
    cycle := some c, injCyc := !real, count0 := S.count, start0 := S.start }
  if S.cycle ≠ some c ∨ (S.injCyc ∧ ¬ real) then mark (s.handle src sub aux real inj dry job)
  else
    let was := dispRank ((dispOf s src S.lastSub job).getD .log)
    let now := dispRank ((dispOf s src sub job).getD .log)
    let up := decide (was < now) || (was == now && decide (S.lastSub < sub))
    let sub' := if up then sub else S.lastSub
    let aux' := if up then aux else S.aux
    let acted := S.real || !S.dry
    let flags := fun (t : State) => t.modSrc src fun x => { x with
      real := S.real || real, inj := S.inj || inj, dry := S.dry || dry, lastSub := sub', aux := aux', cycle := some c,
      injCyc := S.injCyc && !real, count0 := S.count0, start0 := S.start0 }
    if acted ∧ now ≤ was then flags s
    else
      let t := s.modSrc src fun x => { x with count := S.count0, start := S.start0, total := S.total - 1 }
      flags (t.handle src sub' aux' true (S.inj || inj) false job)

/-- FAULT_EVENT: an event that the variant can record and R416 lists reaches the collector. -/
def execFaultEvent (src sub aux : Nat) (job : Option Nat) (t : Nat) (s : State) : Out :=
  let u := s.at_ t
  within (srcListed src) s
    (if u.hasSource src ∧ (dispOf u src sub job).isSome then 
      (u.eventSide src sub job).collect (collectorCycle u.time.elapsed) src sub (aux % 65536) true false false job else u)

/-- The reaction on a source that waits for its acknowledgement. -/
def State.waiting (s : State) (src : Nat) : Option Nat :=
  (s.faults.reacts.find? fun e => e.2.source == src && e.2.cls == 1 && e.2.state == 1).map fun e => e.2.id

/-- FENCE_ACK: the unit has stopped; its reaction is fenced. -/
def execFenceAck (src t : Nat) (s : State) : Out :=
  let u := s.at_ t
  within (srcListed src) s (match u.waiting src with
    | none => u
    | some id => u.modReact id fun r => { r with state := 2, ack := some (u.time.elapsed - r.began) })

/-- The single escalation (R419): FENCE_ACK_TIMEOUT is recorded under the reaction's own ID, and the reaction becomes
class B; in the safe state it adds to the conditions only (R424). -/
def State.escalate (s : State) (src id : Nat) (r : Reaction) : State :=
  let t := s.modSrc src fun S => { S with
    total := satAdd 32 S.total 1, lastAt := s.binTime, lastSub := 0x04, real := true, inj := r.inj, conseq := true,
    dry := false, rid := id, attn := true }
  let t := t.modReact id fun r => { r with state := 4, cls := 2 }
  if s.faults.safe.on then
    { t with faults := { t.faults with safe := { t.faults.safe with multi := true } } }.logEvent 5 0x0050
      (le 1 0x04 ++ le 2 src ++ le 4 id)
  else t.enterSafe src 0x04 id r.inj

/-- FENCE_ACK_TIMEOUT: 10 µs have passed since the reaction's start without an acknowledgement. -/
def execFenceAckTimeout (src t : Nat) (s : State) : Out :=
  let u := s.at_ t
  within (srcListed src) s (match (u.waiting src).bind u.react? with
    | none => u
    | some r => if r.began + 10000 ≤ u.time.elapsed then u.escalate src r.id r else u)

/-- CONSEQ_WINDOW_CLOSE: 50 µs after the unit left its fence, the window of a reaction closes (R421, R422). -/
def execConseqWindowClose (id t : Nat) (s : State) : Out :=
  let u := s.at_ t
  done s (match (u.react? id).bind (·.back) with
    | none => u
    | some b => if b + 50000 ≤ u.time.elapsed then
        (u.modReact id fun r => if r.endAt = 0 then { r with endAt := u.binTime } else r) else u)

/-! ### Return to service (R415, R420) -/

/-- A Quadrant that no source fences any more reopens its gate, and its tiles take their self-test (R97). -/
def State.returnQuadrant (s : State) (q : Nat) : State :=
  if (List.range 4).any fun j => (s.src (96 + 8 * q + j)).fenced then s
  else
    let S := s.faults.safe
    let g := if S.on then tput S.gates q true else tdel S.gates q
    let t := { s with faults := { s.faults with safe := { S with gates := g } } }
    eachOf ((List.range 24).map (24 * q + ·)) (fun u n =>
      if n < tilesOf s.variant ∧ (u.tile n).mode = .fenced ∧ ¬ (u.src n).fenced then
        u.modTile n fun T => if S.on then { T with bySafe := true } else { T with mode := .selfTest } else u) t

/-- FLT.RELEASE (R420): it ends the fence of a Quadrant or a field port; any other write is discarded. -/
def State.fltRelease (s : State) (v : BitVec 32) : State :=
  let n := v.toNat % 512
  if ¬ (s.src n).fenced then s
  else if 96 ≤ n ∧ n < 128 then (s.leaveFence n).returnQuadrant ((n - 96) / 8)
  else if 224 ≤ n ∧ n < 256 then
    let p := (n - 224) / 8
    let t := s.leaveFence n
    if (List.range 3).any fun j => (t.src (224 + 8 * p + j)).fenced then t
    else t.modPort p fun P => { P with stopped := false }
  else s

/-- FLT_RELEASE. -/
def execFltRelease (value : BitVec 32) (s : State) : Out := done s (managed s (s.fltRelease value))

/-- HELM_CORE_RECOVERY: a core that stopped for a fence returns after its reset and self-test; in the safe state it
returns with the exit (R415). A core reset frees its locks (16, R387). -/
def execHelmCoreRecovery (core : Nat) (ok : Bool) (t : Nat) (s : State) : Out :=
  let u := s.at_ t
  within (decide (core < 8)) s (
    if (u.src (128 + core)).fenced ∧ ok ∧ ¬ u.pins.gated then
      let v := (u.leaveFence (128 + core)).modCore core fun C => { C with stopped := u.faults.safe.on, bySafe := u.faults.safe.on }
      { v with service := { v.service with locks := v.service.locks.filter fun e => e.2 != core } }
    else u)

/-! ### Injection and configuration (R418, R431-R433) -/

/-- A scope is open: by grant, or in RAW (19, R449). -/
def State.scope (s : State) (bit : Nat) : Bool := s.lc.state == .raw || bitOf s.lc.grant.toNat bit

/-- An injection is accepted (R432). -/
def State.injectOk (s : State) (src : Nat) (wet : Bool) : Bool :=
  match s.lc.state with
  | .raw => true
  | .test => true
  | .returned => true
  | .provision => !wet || s.scope 5
  | .owned => !wet || s.scope 5
  | .deployed => injectable src && (!wet || s.scope 5)
  | .scrapped => false

/-- A write of FLT.FORCE[s]: WET and SUBCAUSE are kept; FORCE injects one event and clears (R431). A sub-cause that R416
does not list for the source is a value out of range, and the write is discarded. -/
def State.fltForce (s : State) (src : Nat) (v : BitVec 32) : State :=
  let wet := bitOf v.toNat 1
  let sub := bitsOf v.toNat 15 8
  let keep := s.setReg (0x6000C + 0x20 * src) (2 * b2n wet + 256 * sub)
  if ¬ bitOf v.toNat 0 then (if sub = 0 ∨ (dispOf s src sub none).isSome then keep else s)
  else if ¬ s.injectOk src wet then { s with faults := { s.faults with forceDen := true } }
  else if (dispOf s src sub none).isNone then s
  else keep.collect (collectorCycle s.time.elapsed + 1) src sub 0 false true (!wet) none

/-- FLT_FORCE. -/
def execFltForce (src : Nat) (value : BitVec 32) (s : State) : Out :=
  within (decide (src < 512)) s (if s.hasSource src then managed s (s.fltForce src value) else s)

/-- A write of FLT.CFG[s]: any value in range in RAW, TEST and RETURNED and under FAULT_CONFIG; otherwise only a stricter
one (R418). -/
def State.fltCfg (s : State) (src : Nat) (v : BitVec 32) : State :=
  let n := bitsOf v.toNat 7 0
  let w := bitsOf v.toNat 23 8
  let a := bitsOf v.toNat 25 24
  let S := s.src src
  let free := s.lc.state = .raw ∨ s.lc.state = .test ∨ s.lc.state = .returned ∨ s.scope 4
  if n = 0 ∨ w = 0 ∨ a = 3 then s
  else if free ∨ (S.action ≤ a ∧ n ≤ S.n ∧ S.w ≤ w) then s.modSrc src fun S => { S with n := n, w := w, action := a }
  else { s with faults := { s.faults with cfgDen := true } }

/-- FLT_CFG_WRITE. -/
def execFltCfgWrite (src : Nat) (value : BitVec 32) (s : State) : Out :=
  within (decide (src < 512)) s (if s.hasSource src then managed s (s.fltCfg src value) else s)

/-- ATTN is cleared, except while the cause is present (R430). -/
def State.attnClear (s : State) (src : Nat) : State :=
  s.modSrc src fun S => { S with attn := S.attn && S.present }

/-- ATTN_CLEAR. -/
def execAttnClear (src : Nat) (s : State) : Out :=
  within (decide (src < 512)) s (if s.hasSource src then managed s (s.attnClear src) else s)

/-- SAFE_CTRL_ENTER: a REQUEST event on source 386 (R430). -/
def execSafeCtrlEnter (s : State) : Out := done s (managed s (s.event 386 0x2D 0))

/-! ### SAFE_EXIT (11, R273, R274; R425, R426) -/

/-- The indices of the recovery keys under which signatures of a block verify: each signature of 4,631 bytes carries its
key's index (11, R273). -/
def quorumKeys (keys : List Bytes) (ctx : Bytes) (msg sigs : Bytes) (n : Nat) : List Nat :=
  ((List.range n).filterMap fun i =>
    let k := leAt sigs (4631 * i) 1
    match keys[k]? with
    | some pk => if mlOk pk (sliceOf sigs (4631 * i + 4) 4627) then some k else none
    | none => none).eraseDups
where
  /-- ML-DSA-87 in pure mode with the context. -/
  mlOk (pk sig : Bytes) : Bool :=
    Config.primBool (.verify 0x2003) [pk, [0#8] ++ le 1 ctx.length ++ ctx ++ msg, sig]

/-- Why a recovery token is refused, in the order of R274; none when it is accepted. -/
def State.exitRefused (s : State) (tok : Bytes) : Option Nat :=
  let n := leAt tok 6 1
  let S := s.faults.safe
  if ¬ S.on then some 0x0110
  else if s.lc.state ≠ .owned ∧ s.lc.state ≠ .deployed then some 0x0111
  else if tok.length < 64 ∨ leAt tok 0 4 ≠ 0x54495845 ∨ leAt tok 4 2 ≠ 1 ∨ n = 0 ∨ 8 < n ∨ leAt tok 7 1 ≠ 0 ∨
      ¬ allZero (sliceOf tok 48 16) ∨ tok.length ≠ 64 + 4631 * n ∨
      ((List.range n).any fun i => 7 < leAt tok (64 + 4631 * i) 1 || !allZero (sliceOf tok (65 + 4631 * i) 3)) then some 0x0112
  else if sliceOf tok 8 32 ≠ S.challenge then some 0x0113
  else if leAt tok 40 8 < s.binTime then some 0x0114
  else if (quorumKeys s.lc.recovery (ascii "psibuaz-exit") (tok.take 64) (tok.drop 64) n).length < max s.lc.quorumM 1 then
    some 0x0115
  else if s.causePresent ∨ S.resetOnly then some 0x0116
  else none

/-- The tiles that the safe state fenced return, but for those that fail their self-test (R426; 04, R98). Every tile that an
interrupted chart operation had reconfigured is loaded again for the running chart; one that its own fence keeps out of service
stays fenced (03, R73; log 92). -/
def State.tilesBack (s : State) (failed : List Nat) : State :=
  let named := fun (n : Nat) => match s.chart.running, (s.tile n).asg with
    | some c, some r => s.mcodeOf c r
    | _, _ => none
  let again := tkeys s.tiles fun n T => T.mode == .fenced && T.reload && !failed.contains n && !s.pins.gated
  let lost := again.filter fun n => !(named n).all McodeEntry.sound
  let bad := fun (n : Nat) => failed.contains n || s.pins.gated || lost.contains n
  let back := fun (n : Nat) (T : Tile) =>
    if T.mode = .fenced ∧ T.bySafe then
      if bad n then { T with fence := 2, bySafe := false, reload := false, change := 0 }
      else { T with mode := T.home, fence := 0, bySafe := false, reload := false, change := 0 }
    else if T.reload then { T with reload := false, change := 0 } else T
  let t := eachOf (again.filter fun n => !bad n) (fun u n => u.modTile n fun T => T.load (named n)) s
  let t := eachOf lost (fun u n => u.event 293 0x33 n) t
  let t := eachOf (tkeys s.tiles fun n T => T.mode == .fenced && T.bySafe && !bad n) State.leaveFence t
  { t with tiles := tmap t.tiles back }

/-- The device leaves the safe state (R426). -/
def State.leaveSafe (s : State) (failed : List Nat) (tok : Bytes) : State :=
  let t := s.tilesBack failed
  let free := fun (C : Core) => if C.bySafe ∧ ¬ s.pins.gated then { C with stopped := false, bySafe := false } else C
  let ports := tmap t.partners.ports fun _ P => { P with safeStop := false }
  let reacts := tmap t.faults.reacts fun _ r =>
    if r.state = 5 ∨ r.state = 4 then { r with state := 3, back := some s.time.elapsed } else r
  let S := t.faults.safe
  let t := { t with
    service := { t.service with cores := tmap t.service.cores fun _ C => free C },
    partners := { t.partners with ports := ports },
    faults := { t.faults with
      reacts := reacts,
      safe := { S with on := false, challenge := [], gates := S.gates.filter fun g => !g.2 } } }
  t.logEvent 5 0x0051 (sha384 tok ++ le 2 0)

/-- SAFE_EXIT on behalf of a job: the challenge, or the token's checks; a refusal is logged. -/
def State.safeExit (s : State) (j : Nat) (J : Job) (failed : List Nat) : State :=
  if 2 ≤ J.param.toNat then s.badField j
  else if J.param = 1 then
    (if s.faults.safe.on then s.reply j J s.faults.safe.challenge 0 else s.deny j 0x0110)
  else match s.exitRefused J.input with
  | some r => (s.logEvent 5 0x0052 (sha384 J.input ++ le 2 r)).deny j r
  | none => (s.leaveSafe failed J.input).endAdmin j St.ok 0

/-- SAFE_EXIT. -/
def execSafeExit (j : Nat) (failedTiles : List Nat) (s : State) : Out :=
  adminRow 0x0020 j (fun s J => s.safeExit j J failedTiles) s

end Sys2Proof.Machine
end

