-- ==== Sys2Proof/Machine/Mailbox.lean ====
section
/-! DEFINITION. Mailboxes, the runtime's replies and the locks (16_service_complex.md R381-R388). -/

namespace Sys2Proof.Machine

/-! ### Who sends and who receives (R381) -/

/-- The sender of mailbox `n`. -/
def senderOf (n : Nat) : Master :=
  if n < 512 then (if n % 2 = 0 then .host 0 else if n = 1 then .runtime else .host (n / 2))
  else if n = 512 ∨ n = 514 then .host 0
  else if n = 513 then .module 0
  else if n = 515 then .module 1
  else if n = 516 then .runtime else .binnacle

/-- The receiver of mailbox `n`. -/
def receiverOf (n : Nat) : Master :=
  if n < 512 then (if n % 2 = 1 then .host 0 else if n = 0 then .runtime else .host (n / 2))
  else if n = 513 ∨ n = 515 then .host 0
  else if n = 512 then .module 0
  else if n = 514 then .module 1
  else if n = 516 then .binnacle else .runtime

/-- The other mailbox of a pair. -/
def pairMate (n : Nat) : Nat := if n % 2 = 0 then n + 1 else n - 1

/-- A host function reaches its mailboxes while its BAR0 answers. -/
def State.reaches (s : State) (m : Master) : Bool :=
  match m with
  | .host f => s.barOn f
  | _ => true

/-! ### Writes, reads and recalls (R382, R383) -/

/-- The wake event of a receiver. -/
def State.wake (s : State) (m : Master) : State :=
  match m with
  | .host f => s.msix f (if f = 0 then 2 else 0)
  | .module k =>
    let t := s.wakeModule k 2
    { t with service := { t.service with woken := m :: t.service.woken } }
  | _ => { s with service := { s.service with woken := m :: s.service.woken } }

/-- A word arrives at a receiver: a VF's VF.EVENT shows it (22, R478, R481). -/
def State.arrived (s : State) (m : Master) : State :=
  match m with
  | .host f => if f = 0 then s else s.setBits (vfEventKey f) 2
  | _ => s

/-- A write of MBOX.TX[n] by its sender. -/
def State.mboxWrite (s : State) (n : Nat) (w : BitVec 32) : State :=
  if (s.mbox n).full then s.modMbox n fun M => { M with dropped := true } else ((s.mboxStore n w).arrived (receiverOf n)).wake (receiverOf n)

/-- MBOX_TX_WRITE: another master's write is discarded. -/
def State.mboxTx (s : State) (m : Master) (n : Nat) (w : BitVec 32) : State :=
  if m = senderOf n ∧ s.reaches m then s.mboxWrite n w else s

/-- MBOX_TX_WRITE. -/
def execMboxTxWrite (m : Master) (n : Nat) (word : BitVec 32) (t : Nat) (s : State) : Out :=
  within (decide (n < 518)) s ((s.at_ t).mboxTx m n word)

/-- A mailbox empties: CROSS_FULL of its pair clears. -/
def State.mboxEmpty (s : State) (n : Nat) : State :=
  (s.modMbox n fun M => { M with full := false, cross := false }).modMbox (pairMate n) fun M => { M with cross := false }

/-- The receiver takes the word; PF0's mailbox 1 then takes the next reply that waits. -/
def State.mboxTake (s : State) (n : Nat) : State :=
  if (s.mbox n).full then
    let t := (s.mboxEmpty n).modMbox n fun M => { M with read := true }
    if n = 1 then t.flushReplies else t
  else s

/-- What a read of the lower half or of the whole register returns. -/
def Mbox.reading (M : Mbox) : BitVec 64 := if M.full then BitVec.ofNat 64 (M.word.toNat + 2 ^ 32) else 0

/-- The value of a read, kept as the last value that a register returned. -/
def State.returns (s : State) (v : BitVec 64) : State := { s with host := { s.host with lastRead := v } }

/-! ### The runtime (R386) -/

/-- The runtime's reply to a request. -/
def State.replyTo (s : State) (w : Nat) : Nat :=
  let arg := w % 2 ^ 24
  match w / 2 ^ 24 with
  | 1 => 0x81000000 + arg
  | 2 => 0x82000000 + (arg % 256) * 0x10000 + (if arg < 2 then (s.module arg).state else 0)
  | c => 0xFF000000 + c

/-- The runtime reads mailbox 0 and answers; a request read while 16 replies wait is discarded. -/
def State.runtimeTakes (s : State) : State :=
  if (s.mbox 0).full then
    (s.mboxTake 0).runtimeSays (BitVec.ofNat 32 (s.replyTo (s.mbox 0).word.toNat))
  else s

/-- A request of a code waits. -/
def State.requestIs (s : State) (code : Nat) : Bool := (s.mbox 0).full && (s.mbox 0).word.toNat / 2 ^ 24 == code

/-- PING. -/
def execPing (s : State) : Out := done s (if s.requestIs 1 then s.runtimeTakes else s)

/-- QUERY_OMOD. -/
def execQueryOmod (s : State) : Out := done s (if s.requestIs 2 then s.runtimeTakes else s)

/-- A read of MBOX.RX[n] by its receiver; to another master it reads as zero. -/
def State.mboxRx (s : State) (m : Master) (n : Nat) (half : Half) : State :=
  let M := s.mbox n
  if m ≠ receiverOf n ∨ ¬ s.reaches m then s.returns 0
  else match half with
  | .both => ((if n = 0 then s.runtimeTakes else s.mboxTake n)).returns M.reading
  | .lower =>
    ((if n = 0 then s.runtimeTakes else s.mboxTake n).modMbox n fun X => { X with latch := some M.full }).returns
      (if M.full then BitVec.ofNat 64 M.word.toNat else 0)
  | .upper => (s.modMbox n fun X => { X with latch := none }).returns (BitVec.ofNat 64 (b2n (M.latch.getD false)))

/-- MBOX_RX_READ. -/
def execMboxRxRead (m : Master) (n : Nat) (half : Half) (s : State) : Out := within (decide (n < 518)) s (s.mboxRx m n half)

/-- A recall by the sender. -/
def State.recall (s : State) (m : Master) (n : Nat) : State :=
  if m ≠ senderOf n ∨ ¬ s.reaches m then s
  else if (s.mbox n).full then (s.mboxEmpty n).modMbox n fun M => { M with recalled := true }
  else s.modMbox n fun M => { M with miss := true }

/-- MBOX_RECALL. -/
def execMboxRecall (m : Master) (n : Nat) (s : State) : Out := within (decide (n < 518)) s (s.recall m n)

/-- CROSS_FULL: both mailboxes of a pair FULL together for more than 1 s; both receivers are woken again, once (R385). -/
def execCrossFull (n : Nat) (t : Nat) (s : State) : Out :=
  let u := s.at_ t
  let a := u.mbox n
  let b := u.mbox (pairMate n)
  within (decide (n < 518)) s (
    if a.full ∧ b.full ∧ max a.since b.since + 1000000000 < u.time.elapsed ∧ ¬ a.cross then
      (((u.modMbox n fun M => { M with cross := true }).modMbox (pairMate n) fun M => { M with cross := true }).wake
        (receiverOf n)).wake (receiverOf (pairMate n))
    else u)

/-- AGE: milliseconds since the write. -/
def State.mboxAge (s : State) (n : Nat) : Nat :=
  if (s.mbox n).full then min ((s.time.elapsed - (s.mbox n).since) / 1000000) 65535 else 0

/-! ### Locks (R387) -/

/-- The master has access to the locks: a core that runs an owner module has none, and PF0 only through its BAR0. -/
def State.lockUser (s : State) (m : Nat) : Bool :=
  if m = 9 then s.barOn 0 else decide (m < 9) && !(s.service.handover && (m == 6 || m == 7))

/-- A read of LOCK.ACQ[k]. -/
def State.lockTake (s : State) (m k : Nat) : State :=
  if ¬ s.lockUser m then s
  else match tget s.service.locks k with
  | some o => s.returns (BitVec.ofNat 64 (o + 1))
  | none => { s with service := { s.service with locks := tput s.service.locks k m } }.returns 0

/-- LOCK_ACQUIRE. -/
def execLockAcquire (m : Nat) (k : Nat) (s : State) : Out := within (decide (m < 10) && decide (k < 256)) s (s.lockTake m k)

/-- A write of LOCK.ACQ[k]. -/
def State.lockFree (s : State) (m k : Nat) : State :=
  if ¬ s.lockUser m then s
  else if tget s.service.locks k = some m then { s with service := { s.service with locks := tdel s.service.locks k } }
  else { s with service := { s.service with lockErr := satAdd 32 s.service.lockErr 1 } }

/-- LOCK_RELEASE. -/
def execLockRelease (m : Nat) (k : Nat) (s : State) : Out := within (decide (m < 10) && decide (k < 256)) s (s.lockFree m k)

end Sys2Proof.Machine
end

