-- ==== Sys2Proof/Machine/Omod.lean ====
section
/-! DEFINITION. Owner modules: handover, load, stop, exceptions, and the runtime's calls (16_service_complex.md
R372-R376). -/

namespace Sys2Proof.Machine

/-! ### Handover (R372) -/

/-- A module holds no running code. -/
def Module.idle (M : Module) : Bool := M.state == 0 || M.state == 4

/-- A write of OMOD.CFG. -/
def State.writeHandover (s : State) (b : Bool) : State :=
  let now := s.service.next.getD s.service.handover
  if b = now ∨ ¬ (s.lc.state = .owned ∨ s.lc.state = .deployed) ∨ ¬ (s.module 0).idle ∨ ¬ (s.module 1).idle then s
  else { s with service := { s.service with next := some b } }

/-- HANDOVER. -/
def execHandover (value : BitVec 32) (s : State) : Out := done s (managed s (s.writeHandover (value.getLsbD 0)))

/-! ### Load (R373, R374) -/

/-- Where module code stands in the address space of its core. -/
def codeBase : Nat := 0x10000

/-- The format of a module image. -/
def moduleFormat (b : Bytes) : Bool :=
  let code := leAt b 0x10 4
  let entry := leAt b 0x18 8
  leAt b 0 4 == 0x444F4D4F && leAt b 4 2 == 1 && leAt b 6 2 == 0 && allZero (sliceOf b 0x28 24) &&
  leAt b 0x0C 4 == 64 + code + 4635 && b.length == 64 + code + 4635 && decide (4096 ≤ code) && decide (code ≤ 16777216) &&
  code % 4096 == 0 && decide (16 ≤ leAt b 0x14 4) && decide (leAt b 0x14 4 ≤ 1024) && decide (codeBase ≤ entry) &&
  decide (entry < codeBase + code)

/-- The sealed owner-module region of private memory has room (its size is open: log 43). -/
def State.moduleRoom (s : State) (m mib : Nat) : Bool := Config.primBool (.image 9) [le 4 mib, le 4 (s.module (1 - m)).memMib]

/-- The image as PF0's fetch path reads it: none where a read fails. -/
def State.moduleImage (s : State) (a : Nat) : Bytes :=
  let n := leAt (s.hostRead a 64) 0x0C 4
  if (s.readFault a 64).isSome ∨ (s.readFault a (min n 16781915)).isSome then [] else s.hostRead a (min n 16781915)

/-- Why a load is refused, in the order of R374. -/
def State.loadRefused (s : State) (m : Nat) (b : Bytes) : Option Nat :=
  firstFail [(5, s.service.done && s.service.handover && (s.module m).idle), (1, moduleFormat b),
    (2, s.sigBlockOk (ascii "psibuaz-omod") b), (3, decide (s.service.floor ≤ leAt b 8 4)), (4, s.moduleRoom m (leAt b 0x14 4))]

/-- A firmware stage in LOG[1]: its stage ID, version and digest. -/
def State.stageEvent (s : State) (stage version : Nat) (image : Bytes) : State :=
  s.logEvent 1 0x0010 (le 8 stage ++ le 4 version ++ sha384 image)

/-- A load of module `m`. -/
def State.loadModule (s : State) (m : Nat) : State :=
  let b := s.moduleImage (s.module m).image
  match s.loadRefused m b with
  | some r => s.modModule m fun M => { M with reason := r }
  | none =>
    let code := leAt b 0x10 4
    let t := (s.moduleState m 1).modModule m fun M => { M with
      reason := 0, cause := 0, addr := 0, ident := leAt b 0x20 8, memMib := leAt b 0x14 4, codeLen := code, ring := none,
      waiting := none, owner := true, region := memWriteN [] 0 (sliceOf b 64 code) }
    let t := { t with
      queues := tdel t.queues (4096 + m),
      service := { t.service with floor := max t.service.floor (leAt b 8 4) } }
    (t.stageEvent (leAt b 0x20 8) (leAt b 8 4) b).moduleState m 2

/-- OMOD_LOAD. -/
def execOmodLoad (m : Nat) (t : Nat) (s : State) : Out := within (decide (m < 2)) s (managed (s.at_ t) ((s.at_ t).loadModule m))

/-! ### Stop and exceptions (R375) -/

/-- STOP. -/
def State.stopCommand (s : State) (m : Nat) : State :=
  if (s.module m).idle then s else s.stopModule m 4 0 0

/-- OMOD_STOP. -/
def execOmodStop (m : Nat) (t : Nat) (s : State) : Out := within (decide (m < 2)) s (managed (s.at_ t) ((s.at_ t).stopCommand m))

/-- An exception other than ECALL stops a module; it is recorded on its core's source. -/
def State.moduleFault (s : State) (m cause addr : Nat) : State :=
  if (s.module m).state ≠ 2 ∨ cause = 8 then s else (s.stopModule m 5 (cause % 256) addr).event (134 + m) 0x25 0

/-- MODULE_EXCEPTION. -/
def execModuleException (m : Nat) (cause : Nat) (addr : Nat) (t : Nat) (s : State) : Out :=
  within (decide (m < 2)) s ((s.at_ t).moduleFault m cause addr)

/-! ### The runtime's calls (R376) -/

/-- An argument or result register of core `6 + m`: a0 is x10. -/
def State.arg (s : State) (m i : Nat) : BitVec 64 := (tget (s.core (6 + m)).x (10 + i)).getD 0

/-- A result in a0 or a1. -/
def State.result (s : State) (m i v : Nat) : State :=
  s.modCore (6 + m) fun C => { C with x := tput C.x (10 + i) (BitVec.ofNat 64 v) }

/-- A call of module `m`: the module runs and does not wait. -/
def callRow (m : Nat) (s u : State) (f : State → State) : Out :=
  within (decide (m < 2)) s (if (u.module m).state = 2 ∧ (u.module m).waiting.isNone ∧ ¬ (u.core (6 + m)).stopped then f u else u)

/-- The rings of RING_INIT fit. -/
def State.ringsOk (s : State) (m : Nat) : Bool :=
  let a := (s.arg m 0).toNat
  let b := (s.arg m 1).toNat
  let n := (s.arg m 2).toNat
  decide (4 ≤ n) && decide (n ≤ 12) && a % 4096 == 0 && b % 4096 == 0 && decide (a + 64 * 2 ^ n ≤ s.regionLen m) &&
  decide (b + 32 * 2 ^ n ≤ s.regionLen m)

/-- RING_INIT: the module's one queue pair, in indirect mode. -/
def execRingInit (m : Nat) (s : State) : Out :=
  callRow m s s fun u =>
    if (u.module m).ring.isSome ∨ ¬ u.ringsOk m then u.result m 0 1
    else
      let Q : Queue := { mode := .enabled, fn := 0x101, sqBase := (u.arg m 0).toNat, cqBase := (u.arg m 1).toNat,
                         sqLog2 := (u.arg m 2).toNat, cqLog2 := (u.arg m 2).toNat, isModule := some m }
      ({ u with queues := tput u.queues (4096 + m) Q }.modModule m fun M => { M with ring := some (4096 + m) }).result m 0 0

/-- A doorbell of the module's ring, and 1 in a0 where the ring is missing or fenced. -/
def State.moduleBell (s : State) (m kind : Nat) : State :=
  match (s.module m).ring with
  | none => s.result m 0 1
  | some q =>
    if (s.queue q).mode = .fenced then s.result m 0 1
    else
      let t := s.doorbell q kind (BitVec.ofNat 32 (s.arg m 0).toNat) 0
      t.result m 0 (b2n ((t.queue q).mode == .fenced))

/-- DOORBELL. -/
def execDoorbell (m : Nat) (s : State) : Out := callRow m s s fun u => u.moduleBell m 0

/-- CQ_HEAD. -/
def execCqHead (m : Nat) (s : State) : Out := callRow m s s fun u => u.moduleBell m 1

/-- MBOX_SEND. -/
def execMboxSend (m : Nat) (t : Nat) (s : State) : Out :=
  callRow m s (s.at_ t) fun u =>
    (u.mboxWrite (513 + 2 * m) (BitVec.ofNat 32 (u.arg m 0).toNat)).result m 0 (b2n (u.mbox (513 + 2 * m)).full)

/-- MBOX_RECV. -/
def execMboxRecv (m : Nat) (s : State) : Out :=
  callRow m s s fun u =>
    let M := u.mbox (512 + 2 * m)
    ((u.mboxTake (512 + 2 * m)).result m 0 (if M.full then M.word.toNat else 0)).result m 1 (b2n M.full)

/-- A completion that the module has not acknowledged stands in its ring. -/
def State.moduleDone (s : State) (m : Nat) : Bool :=
  match (s.module m).ring with
  | some q => (s.queue q).cqTail != (s.queue q).cqHead
  | none => false

/-- WAIT: it returns at once for a completion or a word that is there already. -/
def execWait (m : Nat) (t : Nat) (s : State) : Out :=
  callRow m s (s.at_ t) fun u =>
    if u.moduleDone m then u.result m 0 1
    else if (u.mbox (512 + 2 * m)).full then u.result m 0 2
    else u.modModule m fun M => { M with waiting := some (u.time.elapsed + 1000 * max 1 (min (u.arg m 0).toNat 1000000)) }

/-- WAIT_TIMEOUT. -/
def execWaitTimeout (m : Nat) (t : Nat) (s : State) : Out :=
  let u := s.at_ t
  within (decide (m < 2)) s (if (u.module m).waiting.any fun e => decide (e ≤ u.time.elapsed) then u.wakeModule m 0 else u)

/-- TIME. -/
def execTime (m : Nat) (t : Nat) (s : State) : Out := callRow m s (s.at_ t) fun u => u.result m 0 u.helmTime

/-- EXIT. -/
def execExit (m : Nat) (t : Nat) (s : State) : Out := callRow m s (s.at_ t) fun u => u.stopCommand m

end Sys2Proof.Machine
end

