-- ==== Sys2Proof/Machine/Functions.lean ====
section
/-! DEFINITION. Function level resets: of a VF, of PF0, by VF Enable and by D3hot, and their ends
(11_functions_and_sharing.md R268-R271; 22, R494). -/

namespace Sys2Proof.Machine

/-- The background commands that an FLR of function `f` takes over: the quiesce of the function and the commands on its
queues; they complete with ABORTED when it ends (R268). -/
def State.takenOver (s : State) (f : Nat) : List Nat :=
  ((s.fn f).quiesce.bind (·.job)).toList ++
  tkeys s.jobs fun _ J => match J.bg with
    | some (q, _) => (s.queue q).fn == f && J.fn != f
    | none => false

/-- The session keys of a function are destroyed; their indices wait for the background scrub (R203, R270). -/
def State.dropSession (s : State) (f : Nat) : State :=
  let gone := tkeys s.keys.live fun _ K => K.owner == f && !K.persistent
  let t := eachOf gone State.dropKey s
  { t with keys := { t.keys with scrubbing := t.keys.scrubbing ++ gone.map fun i => (f, i) } }

/-- The partner contexts that a function registered leave the Context Directory and are unusable (R269). -/
def State.dropPartners (s : State) (f : Nat) : State :=
  { s with partners := { s.partners with table := tmap s.partners.table fun _ P =>
      if P.owner = f then { P with dead := true, inSlot := false, spilled := false, moving := false, scrub := true, armed := false,
                                   session := none, old := none, hs := none, reas := none } else P } }

/-- A function's work in tile SRAM is scrubbed (01, R30). -/
def State.forgetFn (s : State) (f : Nat) : State :=
  { s with tiles := s.tiles.map fun e => (e.1, e.2.scrubFn f) }

/-- The first 10 ms of an FLR of function `f` (R269): consumption stops, jobs are aborted and write nothing more, keyed
slots, session keys and partner contexts go. PF0 keeps its queue 0 (R271). -/
def State.beginFlr (s : State) (f : Nat) : State :=
  let taken := s.takenOver f
  let s : State := { s with host := { s.host with reads := s.host.reads.filter fun r => r.1 != f } }
  let t := s.modFn f fun F => { F with
    flr := true, flrDone := false, quiesce := none, quiesced := false, flrJobs := F.flrJobs ++ taken, held := [],
    backlog := [], latch := [], wideLatch := [], lowHalf := [] }
  let t := eachOf taken (fun u j => u.modJob j fun J => { J with bg := none, phase := .background }) t
  let qs := (t.queuesOf f).filter fun q => !(f == 0 && q == 0)
  let t := eachOf qs (fun u q => u.modQueue q fun Q => { Q with
    mode := .quiescing, armed := false, chain := none, skip := false, pendN := 0, revise := none, cache := [] }) t
  let t := eachOf ((t.jobsOfFn f).filter fun j => ((t.job? j).map fun J => !(f == 0 && J.admin)).getD false) (fun u j =>
    if ((u.job? j).map fun J => J.phase == .openChain).getD false then u.endJob j St.aborted 0 else u.abortJob j) t
  let t := t.forgetFn f
  (((t.dropSlots fun _ b => b.fn == f).dropSession f).dropPartners f).opStart 0x0003 f 1

/-- VF_FLR: an FLR of a VF that SR-IOV has enabled begins. -/
def execVfFlr (f t : Nat) (s : State) : Out :=
  let u := s.at_ t
  within (decide (1 ≤ f ∧ f < 0x100)) s (if (u.fn f).enabled ∧ ¬ (u.fn f).flr then u.beginFlr f else u)

/-- Every enabled VF begins an FLR and is enabled no longer (R271). -/
def State.clearVfs (s : State) : State :=
  let fs := tkeys s.fns fun f F => 0 < f && f < 0x100 && F.enabled
  let t := eachOf fs (fun u f => (if (u.fn f).flr then u else u.beginFlr f).modFn f fun F => { F with enabled := false }) s
  { t with host := { t.host with numVfs := 0 } }

/-- VF_ENABLE_CLEAR. -/
def execVfEnableClear (t : Nat) (s : State) : Out := done s (s.at_ t).clearVfs

/-- An FLR of PF0: VF Enable is cleared, then PF0's own queues but queue 0, session keys and slots are reset (R271), and PF0's
locks are freed (16, R387). -/
def State.pf0Flr (s : State) : State :=
  let t := s.clearVfs
  let t := { t with service := { t.service with locks := t.service.locks.filter fun e => e.2 != 9 } }
  if (t.fn 0).flr then t else t.beginFlr 0

/-- PF0_FLR. -/
def execPf0Flr (t : Nat) (s : State) : Out := done s (s.at_ t).pf0Flr

/-- D3HOT_ENTRY: an FLR of PF0, whose BAR0 responds no more (22, R494). -/
def execD3hotEntry (t : Nat) (s : State) : Out :=
  let u := (s.at_ t).pf0Flr
  done s { u with host := { u.host with d3hot := true } }

/-- The registers of function `f` return to their reset values; what the manager set for it stays (R269, R270). -/
def State.resetFnRegs (s : State) (f : Nat) : State :=
  let drop := [vfEventKey f, admqKey f 0, admqKey f 1, admqKey f 2] ++ (List.range 8).map (fnErr f)
  let cfg := fun k => decide (0x20000000 + 0x1000 * f ≤ k) && decide (k < 0x20001000 + 0x1000 * f)
  { s with regs := s.regs.filter fun e => !cfg e.1 && (f == 0 || !drop.contains e.1) }

/-- An FLR ends (R269, R271): the function's queues and jobs are gone, its registers are at their reset values, what it
took over completes with ABORTED, and PF0 is told of a VF's. -/
def State.endFlr (s : State) (f : Nat) : State :=
  let js := (s.jobsOfFn f).filter fun j => ((s.job? j).map fun J => !(f == 0 && J.admin)).getD false
  let t := eachOf js (fun u j => (u.endJob j St.aborted 0).dropJob j) s
  let t := { t with queues := t.queues.filter fun e => !(e.2.fn == f && !(f == 0 && e.1 == 0) && e.2.isModule.isNone) }
  let taken := (t.fn f).flrJobs
  let t := t.modFn f fun F => { F with
    flr := false, flrDone := true, scrub := true, flrJobs := [], ctrl := 0, delayUs := 0, jobsPerMs := 1, holdUs := 0, scale := 1,
    seed := 0, rng := 0, msStart := 0, msCount := 0, throttled := false, mask := if f = 0 then F.mask else [],
    pba := if f = 0 then F.pba else [], deficit := 0, lastQ := 0 }
  let t := eachOf taken (fun u j => u.endAdmin j St.aborted 0) (t.resetFnRegs f)
  (if f = 0 then t else t.glbEvent 1).settle

/-- FLR_COMPLETE. -/
def execFlrComplete (f t : Nat) (s : State) : Out :=
  let u := s.at_ t
  within (decide (f < 0x100)) s (if (u.fn f).flr then u.endFlr f else u)

/-- VF_SCRUB_COMPLETE: the sealed copies of the destroyed keys and contexts are zeroed; their indices and partner IDs are
free again (R270). -/
def execVfScrubComplete (f t : Nat) (s : State) : Out :=
  let u := s.at_ t
  within (decide (f < 0x100)) s (
    if (u.fn f).scrub ∧ ¬ (u.fn f).flr then
      let v := u.modFn f fun F => { F with scrub := false }
      let v := { v with
        keys := { v.keys with scrubbing := v.keys.scrubbing.filter fun e => e.1 != f },
        partners := { v.partners with table := v.partners.table.filter fun e => !(e.2.dead && e.2.owner == f) } }
      (v.opStep 0x0003 f 1).opEnd 0x0003 f
    else u)

end Sys2Proof.Machine
end

