-- ==== Sys2Proof/Machine/Reset.lean ====
section
/-! DEFINITION. The resets: POR_N, PERST_N, a device reset, and Hot Reset (20_boot_landfall.md R452, R453;
23_electrical_package.md R496, R500-R502). BOOT follows as a command of its own. -/

namespace Sys2Proof.Machine

/-! ### What a device reset keeps (R452) -/

/-- The key store after a device reset: what the NVS holds. Session keys are gone, and every keyed slot is dropped
(09_key_store.md R201, R203; 06, R146). -/
def KeyStore.kept (K : KeyStore) : KeyStore :=
  let live := K.live.filter fun e => e.2.persistent
  { gens := K.gens, live := live, counters := K.counters.filter fun e => (tget live e.1).isSome, slotGen := K.slotGen,
    created := K.created }

/-- The logbook after a device reset: its registers and the audit region; owners and the export ring are reset
(15_logbook_attestation.md R352, R357, R360). -/
def Logbook.kept (L : Logbook) : Logbook :=
  { regs := tmap L.regs fun _ r => { r with reserved := [], barrier := [], owner := 0 },
    seq := L.seq, prev := L.prev, records := L.records, regionMib := L.regionMib, nextMib := L.nextMib,
    nearFull := L.nearFull, gapFirst := L.gapFirst }

/-- The logbook after power-on: AUDIT_SEQ resumes at the next checkpoint boundary, and the region has the size that the NVS
holds (R352, R359, R360). -/
def Logbook.powerOn (L : Logbook) : Logbook :=
  { seq := ceilDiv L.seq 1048576 * 1048576, regionMib := L.nextMib.getD 4096, nextMib := L.nextMib }

/-- The life cycle after a device reset: grants end (19_lifecycle_debug.md R450). -/
def LifeCycle.kept (L : LifeCycle) : LifeCycle :=
  { L with resumed := false, grant := 0, debugged := false, busy := false, reason := 0, refuseUntil := 0, fails := 0 }

/-- A device reset: every unit returns to its reset state but the NVS and always-on domain, the logbook registers, the
audit region and OTP; the permit lines fall; a new challenge nonce is drawn (R452; 13, R317; 19, R447). What stands outside
the device stays: host memory, the pins' levels, what it has put out. -/
def State.deviceReset (s : State) : State :=
  let k := s.dropSlots fun _ _ => true
  { variant := s.variant, grade := s.grade,
    lc := { s.lc.kept with nonce := drbgBytes s.draws 32 },
    time := { almanac := s.time.checkpoint, checkpoint := s.time.checkpoint, signedOnly := s.time.signedOnly },
    pins := { s.pins with permit := 0 },
    boot := { forceReason := s.boot.forceReason, confirmRec := s.boot.confirmRec, chains := s.boot.chains },
    flash := s.flash,
    chart := { slotA := s.chart.slotA, slotB := s.chart.slotB, floor := s.chart.floor, commitTime := s.chart.commitTime,
               mcode := s.chart.mcode, mcFloors := s.chart.mcFloors },
    keys := k.keys.kept,
    log := s.log.kept,
    auth := { running := s.auth.running, next := s.auth.next, floor := s.auth.floor, seqs := s.auth.seqs },
    partners := { mode1 := s.partners.modeNvs, modeNvs := s.partners.modeNvs },
    service := { floor := s.service.floor },
    cluster := { roster := s.cluster.roster, node := s.cluster.node, pilotSet := s.cluster.pilotSet, marks := s.cluster.marks,
                 caps := s.cluster.caps, tetherOn := s.cluster.tetherOn, bar4 := s.cluster.tetherOn },
    host := { readFaults := s.host.readFaults, writeFaults := s.host.writeFaults, pmem0 := s.host.pmem0, pmem1 := s.host.pmem1 },
    pmem := s.pmem,
    hostMem := s.hostMem, draws := s.draws + 32, outbox := s.outbox, pending := s.pending }

/-- A POR_N reset: a device reset, and the always-on domain, the logbook registers and the audit region too; the strap and
the SMBus address are sampled as POR_N is released (23, R496). -/
def State.powerOnReset (s : State) (strap : Bool) (smb : Nat) : State :=
  let t := s.deviceReset
  { t with
    log := s.log.powerOn, pmem := { nonce := s.pmem.nonce, nvsKeys := s.pmem.nvsKeys },
    pins := { t.pins with strap := strap, smbAddr := smb % 4, filtered := true, run := [], heldNext := none,
                          gated := false, alwaysOnOsc := false } }

/-- A low pulse takes effect: not below the glitch-rejection width, always from the minimum width; between the two either
may happen, which is a free value (23, R501; log 47). -/
def pulseTaken (width glitch least draw : Nat) : Bool :=
  decide (least ≤ width) || (decide (glitch ≤ width) && Config.primBool (.image 12) [le 8 width, le 8 draw])

/-- POR_N_ASSERT. -/
def execPorNAssert (widthNs : Nat) (strap : Bool) (smbAddr : Nat) (s : State) : Out :=
  done s (if pulseTaken widthNs 1000 10000 s.draws then s.powerOnReset strap smbAddr else s)

/-- PERST_N_ASSERT: the strap is sampled as PERST_N is released (R453). -/
def execPerstNAssert (widthNs : Nat) (strap : Bool) (s : State) : Out :=
  done s (
    if pulseTaken widthNs 1000 100000 s.draws then
      let t := s.deviceReset
      { t with pins := { t.pins with strap := strap } }
    else s)

/-- DEVICE_RESET: the manager writes BOOT.CTRL.DEVICE_RESET. -/
def execDeviceReset (s : State) : Out := done s (managedBoot s s.deviceReset)

/-- A device reset whose boot stays in Landfall mode. -/
def State.landfallReset (s : State) : State :=
  let t := s.deviceReset
  { t with boot := { t.boot with forceReason := 9 } }

/-- LANDFALL_RESET: the manager writes BOOT.CTRL.LANDFALL. -/
def execLandfallReset (s : State) : Out := done s (managedBoot s s.landfallReset)

/-- HOT_RESET: Hot Reset, link disable or DL_Down acts as an FLR of PF0. -/
def execHotReset (t : Nat) (s : State) : Out := done s (s.at_ t).pf0Flr

end Sys2Proof.Machine
end

