-- ==== Sys2Proof/Machine/Spdm.lean ====
section
/-! DEFINITION. The SPDM responder: connection state, measurements, certificates, sessions, chunks and the vendor-defined
quote (15_logbook_attestation.md R362-R367; 22_registers.md R491). The layout of standard messages is SPDM's own
(log 46, PRESUMED). -/

namespace Sys2Proof.Machine

/-! ### Messages (log 46) -/

/-- Request code, Param1, Param2 of a message. -/
def rqCode (b : Bytes) : Nat := leAt b 1 1
/-- Param1. -/
def rqP1 (b : Bytes) : Nat := leAt b 2 1
/-- Param2. -/
def rqP2 (b : Bytes) : Nat := leAt b 3 1

/-- The SPDM version byte of a connection; 1.0 before capabilities. -/
def Spdm.verByte (c : Spdm) : Nat := if c.version = 0 then 0x10 else c.version

/-- A response message. -/
def Spdm.say (c : Spdm) (code p1 p2 : Nat) (body : Bytes) : Bytes := le 1 c.verByte ++ le 1 code ++ le 1 p1 ++ le 1 p2 ++ body

/-- ERROR with a code. -/
def Spdm.err (c : Spdm) (code : Nat) : Bytes := c.say 0x7F code 0 []

/-- InvalidRequest. -/
def eInvalid : Nat := 0x01
/-- UnexpectedRequest. -/
def eUnexpected : Nat := 0x04
/-- UnsupportedRequest. -/
def eUnsupported : Nat := 0x07
/-- SessionLimitExceeded. -/
def eSessions : Nat := 0x0A
/-- SessionRequired. -/
def eNoSession : Nat := 0x0B
/-- LargeResponse. -/
def eLarge : Nat := 0x0F
/-- VersionMismatch. -/
def eVersion : Nat := 0x41

/-- What answers a request: the state after, and the response. -/
abbrev Responder := State → Transport → Bytes → State × Bytes

/-- A request with a response that enters the connection's transcript. -/
def State.recorded (s : State) (tr : Transport) (req rsp : Bytes) : State × Bytes :=
  (s.modSpdm tr fun c => { c with transcript := c.transcript ++ req ++ rsp }, rsp)

/-! ### What is reported (R363, R365, R366) -/

/-- The life-cycle code of the device-state block, and of LC.STATUS. -/
def lifeCode : LifeState → Nat
  | .raw => 0 | .test => 1 | .provision => 2 | .owned => 3 | .deployed => 4 | .returned => 5 | .scrapped => 6

/-- The firmware security version in force. -/
def State.svn (s : State) : Nat := (s.boot.bundle.map (·.svn)).getD 0

/-- The 24-byte device-state block. -/
def State.deviceBlock (s : State) : Bytes :=
  le 1 (lifeCode s.lc.state) ++ le 1 (b2n s.lc.debugged + 2 * b2n s.boot.landfall) ++ zeros 2 ++ le 4 s.lc.grant.toNat ++
  le 4 ((s.chart.running.map (·.version)).getD 0) ++ le 4 ((s.auth.running.map (·.version)).getD 0) ++ le 1 s.svn ++ zeros 7

/-- The block of measurement index `i`: a logbook register, or the device state. -/
def State.measurement (s : State) (i : Nat) : Bytes := if i ≤ 64 then s.regBlock (i - 1) else s.deviceBlock

/-- The record of one index: DMTF measurement, raw bit stream. -/
def State.measRecord (s : State) (i : Nat) : Bytes :=
  let v := s.measurement i
  le 1 i ++ [1#8] ++ le 2 (v.length + 3) ++ [0x84#8] ++ le 2 v.length ++ v

/-- The alias certificate that layer 1 issues under a DeviceID key: subject key, SVN, image digests, model and the debug
flag go into it; its bytes are a free value (log 1). -/
def State.aliasCert (s : State) (p384 : Bool) : Bytes :=
  let k := if p384 then pubOf 0x5002 (s.aliasKey true) else pubOf 0x2003 (s.aliasKey false)
  let ins := [k, s.deviceKey p384, le 1 s.svn, (s.boot.bundle.map (·.fsbl)).getD [], (s.boot.bundle.map (·.runtime)).getD [],
    le 1 (variantBit s.variant), [BitVec.ofNat 8 (b2n s.lc.debugged)]]
  prim (.certificate (if p384 then 4 else 5)) ins (Config.primNat (.certificate (if p384 then 4 else 5)) ins % 8192)

/-- A chain: the stored certificates, then the alias certificate. Slots 0 and 2 are P-384, 1 and 3 ML-DSA-87. -/
def State.chainOf (s : State) (slot : Nat) : Option Bytes :=
  (tget s.boot.chains slot).map fun c => c ++ s.aliasCert (slot % 2 == 0)

/-- A P-384 chain as SPDM carries it: length, the root's hash, the certificates. -/
def State.spdmChain (s : State) (slot : Nat) : Option Bytes :=
  (s.chainOf slot).map fun c =>
    le 2 (52 + c.length) ++ zeros 2 ++ sha384 (prim (.certificate 6) [c] (Config.primNat (.certificate 6) [c] % 8192)) ++ c

/-- A signature under the P-384 alias key over a message's hash. -/
def State.aliasSign384 (s : State) (label : String) (msg : Bytes) : Bytes :=
  prim (.sign 0x5002) [s.aliasKey true, ascii label, sha384 msg] 96

/-- The hash of every measurement, as a summary. -/
def State.measSummary (s : State) (kind : Nat) : Bytes :=
  if kind = 0 then [] else sha384 ((List.range 65).flatMap fun i => s.measRecord (i + 1))

/-! ### Responses -/

/-- VERSION: 1.2 and 1.3; the connection starts again. -/
def spdmVersion : Responder := fun s tr req =>
  let rsp := ({} : Spdm).say 0x04 0 0 ([0#8, 2#8] ++ le 2 0x1200 ++ le 2 0x1300)
  (s.modSpdm tr fun _ => { stage := 1, transcript := req ++ rsp }, rsp)

/-- CAPABILITIES: the connection takes the requester's version and transfer size; the flags are free (log 1). -/
def spdmCapabilities : Responder := fun s tr req =>
  let c := s.spdmOf tr
  let v := leAt req 0 1
  if c.stage ≠ 1 then (s, c.err eUnexpected)
  else if v ≠ 0x12 ∧ v ≠ 0x13 then (s, c.err eVersion)
  else
    let c' : Spdm := { c with version := v, stage := 2, limit := if req.length < 16 then 65536 else leAt req 12 4 }
    let rsp := c'.say 0x61 0 0 (prim (.spdm 0x61) [le 1 v] 16)
    (s.modSpdm tr fun _ => c').recorded tr req rsp

/-- ALGORITHMS: ECDSA P-384, SHA-384, secp384r1 and AES-256-GCM, which the request must offer. -/
def spdmAlgorithms : Responder := fun s tr req =>
  let c := s.spdmOf tr
  if c.stage ≠ 2 then (s, c.err eUnexpected)
  else if ¬ bitOf (leAt req 8 4) 7 ∨ ¬ bitOf (leAt req 12 4) 1 then (s, c.err eInvalid)
  else
    let alg (ty v : Nat) : Bytes := le 1 ty ++ [0x20#8] ++ le 2 v
    let rsp := c.say 0x63 4 0 (le 2 52 ++ le 1 1 ++ le 1 2 ++ le 4 4 ++ le 4 0x80 ++ le 4 2 ++ zeros 16 ++
      alg 2 0x10 ++ alg 3 2 ++ alg 4 0 ++ alg 5 1)
    (s.modSpdm tr fun c => { c with stage := 3 }).recorded tr req rsp

/-- DIGESTS of the P-384 chains. -/
def spdmDigests : Responder := fun s tr req =>
  let slots := [0, 2].filter fun i => (s.chainOf i).isSome
  s.recorded tr req ((s.spdmOf tr).say 0x01 0 ((slots.map (2 ^ ·)).sum) (slots.flatMap fun i => sha384 ((s.spdmChain i).getD [])))

/-- CERTIFICATE: a part of a slot's chain. -/
def spdmCertificate : Responder := fun s tr req =>
  let c := s.spdmOf tr
  let slot := rqP1 req % 16
  match (if slot = 0 ∨ slot = 2 then s.spdmChain slot else none) with
  | none => (s, c.err eInvalid)
  | some b =>
    let off := leAt req 4 2
    if req.length < 8 ∨ b.length ≤ off then (s, c.err eInvalid)
    else
      let part := sliceOf b off (leAt req 6 2)
      s.recorded tr req (c.say 0x02 slot 0 (le 2 part.length ++ le 2 (b.length - off - part.length) ++ part))

/-- CHALLENGE_AUTH. -/
def spdmChallenge : Responder := fun s tr req =>
  let c := s.spdmOf tr
  let slot := rqP1 req
  match (if slot = 0 ∨ slot = 2 then s.spdmChain slot else none) with
  | none => (s, c.err eInvalid)
  | some b =>
    if req.length < 36 then (s, c.err eInvalid)
    else
      let head := c.say 0x03 slot (2 ^ slot) (sha384 b ++ drbgBytes s.draws 32 ++ s.measSummary (rqP2 req) ++ zeros 2 ++
        (if c.version = 0x13 then sliceOf req 36 8 else []))
      (s.drawn 32).recorded tr req (head ++ s.aliasSign384 "responder-challenge_auth signing" (c.transcript ++ req ++ head))

/-- MEASUREMENTS: how many indices there are, one of them, or all in one snapshot; signed on request. -/
def spdmMeasurements : Responder := fun s tr req =>
  let c := s.spdmOf tr
  let op := rqP2 req
  let signed := bitOf (rqP1 req) 0
  let recs := if op = 0 then [] else if op = 0xFF then (List.range 65).flatMap fun i => s.measRecord (i + 1) else s.measRecord op
  let count := if op = 0 then 0 else if op = 0xFF then 65 else 1
  if 65 < op ∧ op ≠ 0xFF ∨ (signed ∧ req.length < 36) then (s, c.err eInvalid)
  else
    let head := c.say 0x60 (if op = 0 then 65 else 0) 0 (le 1 count ++ le 3 recs.length ++ recs ++ drbgBytes s.draws 32 ++ zeros 2)
    let sig := if signed then s.aliasSign384 "responder-measurements signing" (c.transcript ++ req ++ head) else []
    (s.drawn 32).recorded tr req (head ++ sig)

/-- SET_CERTIFICATE: the owner's chains, slots 2 and 3, in OWNED only. -/
def spdmSetCertificate : Responder := fun s tr req =>
  let c := s.spdmOf tr
  let slot := rqP1 req % 16
  if s.lc.state ≠ .owned ∨ (slot ≠ 2 ∧ slot ≠ 3) ∨ req.length ≤ 4 then (s, c.err eInvalid)
  else ({ s with boot := { s.boot with chains := tput s.boot.chains slot (req.drop 4) } }).recorded tr req (c.say 0x6E slot 0 [])

/-! ### Sessions -/

/-- The session of a transport that a session message belongs to: the latest (log 46). -/
def State.sessionOn (s : State) (tr : Transport) : Option SpdmSession := s.host.sessions.find? fun x => x.transport == tr

/-- Change a session. -/
def State.modSession (s : State) (id : Nat) (f : SpdmSession → SpdmSession) : State :=
  { s with host := { s.host with sessions := s.host.sessions.map fun x => if x.id = id then f x else x } }

/-- KEY_EXCHANGE_RSP: at most four sessions exist across all transports (R364). -/
def spdmKeyExchange : Responder := fun s tr req =>
  let c := s.spdmOf tr
  let slot := rqP2 req
  match (if slot = 0 ∨ slot = 2 then s.spdmChain slot else none) with
  | none => (s, c.err eInvalid)
  | some _ =>
    if req.length < 40 + 96 then (s, c.err eInvalid)
    else if 4 ≤ s.host.sessions.length then (s, c.err eSessions)
    else
      let d := s.draws
      let x := pairOf 0x5202 (drbgBytes d 48)
      let id := s.host.nextSess % 65536
      let ss := prim (.agree 0x5202) [x.sk, sliceOf req 40 96] 48
      let head := c.say 0x64 0 0 (le 2 id ++ zeros 2 ++ drbgBytes (d + 48) 32 ++ x.pk.drop 1 ++ s.measSummary (rqP1 req) ++ zeros 2)
      let signed := head ++ s.aliasSign384 "responder-key_exchange_rsp signing" (c.transcript ++ req ++ head)
      let rsp := signed ++ prim (.hmac 0x03) [ss, c.transcript ++ req ++ signed] 48
      let t := s.drawn 80
      ({ t with host := { t.host with
        nextSess := t.host.nextSess + 1, sessions := { transport := tr, id := id, secret := ss } :: t.host.sessions } }).recorded tr req rsp

/-- A message of a session; without one, SessionRequired. -/
def inSession (f : State → SpdmSession → Spdm → Bytes → State × Bytes) : Responder := fun s tr req =>
  match s.sessionOn tr with
  | none => (s, (s.spdmOf tr).err eNoSession)
  | some x => f s x (s.spdmOf tr) req

/-- FINISH_RSP. -/
def spdmFinish : Responder := inSession fun s x c req =>
  if prim (.hmac 0x03) [x.secret, c.transcript ++ req.take (req.length - 48)] 48 ≠ req.drop (req.length - 48) ∨ x.finished then
    (s, c.err eInvalid)
  else (s.modSession x.id fun x => { x with finished := true }).recorded x.transport req (c.say 0x65 0 0 [])

/-- HEARTBEAT_ACK. -/
def spdmHeartbeat : Responder := inSession fun s _ c _ => (s, c.say 0x68 0 0 [])

/-- KEY_UPDATE_ACK: 1 updates one direction, 2 both, 3 verifies. -/
def spdmKeyUpdate : Responder := inSession fun s x c req =>
  if ¬ x.finished ∨ rqP1 req = 0 ∨ 3 < rqP1 req then (s, c.err eInvalid)
  else (s.modSession x.id fun x => { x with updates := x.updates + (if rqP1 req = 3 then 0 else 1) },
    c.say 0x69 (rqP1 req) (rqP2 req) [])

/-- END_SESSION_ACK. -/
def spdmEndSession : Responder := inSession fun s x c _ =>
  ({ s with host := { s.host with sessions := s.host.sessions.filter fun y => y.id != x.id } }, c.say 0x6C 0 0 [])

/-! ### Vendor-defined requests (R367) -/

/-- The payload of a request of StandardID 3 and vendor 0x1FD4. -/
def vendorPayload (req : Bytes) : Option Bytes :=
  if leAt req 4 2 = 3 ∧ leAt req 6 1 = 2 ∧ leAt req 7 2 = 0x1FD4 ∧ leAt req 9 2 + 11 = req.length then some (req.drop 11) else none

/-- A vendor-defined response. -/
def Spdm.vendor (c : Spdm) (payload : Bytes) : Bytes :=
  c.say 0x7E 0 0 (le 2 3 ++ [2#8] ++ le 2 0x1FD4 ++ le 2 payload.length ++ payload)

/-- GET_PQ_CHAIN: a part of the vendor's or the owner's ML-DSA-87 chain. -/
def spdmPqChain : Responder := fun s tr req =>
  let c := s.spdmOf tr
  match vendorPayload req with
  | none => (s, c.err eInvalid)
  | some p =>
    let slot := leAt p 1 1
    match (if slot = 0 then s.chainOf 1 else if slot = 1 then s.chainOf 3 else none) with
    | none => (s, c.err eInvalid)
    | some b =>
      if p.length ≠ 10 ∨ leAt p 0 1 ≠ 1 then (s, c.err eInvalid)
      else (s, c.vendor (sliceOf b (leAt p 2 4) (leAt p 6 4)))

/-- The signed part of a quote: nonce, mask, the blocks of the registers selected in ascending order, the device state and
AUDIT_SEQ. -/
def State.quoteBody (s : State) (nonce : Bytes) (mask : Nat) : Bytes :=
  nonce ++ le 8 mask ++ ((List.range 64).filter (bitOf mask)).flatMap s.regBlock ++ s.deviceBlock ++ le 8 s.lastAudit

/-- PQ_QUOTE. -/
def spdmPqQuote : Responder := fun s tr req =>
  let c := s.spdmOf tr
  match vendorPayload req with
  | none => (s, c.err eInvalid)
  | some p =>
    if p.length ≠ 41 ∨ leAt p 0 1 ≠ 2 then (s, c.err eInvalid)
    else
      let b := s.quoteBody (sliceOf p 1 32) (leAt p 33 8)
      (s.drawn 32, c.vendor (b ++ s.aliasSign (ascii "psibuaz-quote") b s.draws))

/-! ### What is let in -/

/-- The responder of a request code. -/
def spdmFor (req : Bytes) : Option Responder :=
  match rqCode req with
  | 0x81 => some spdmDigests
  | 0x82 => some spdmCertificate
  | 0x83 => some spdmChallenge
  | 0x84 => some spdmVersion
  | 0xE0 => some spdmMeasurements
  | 0xE1 => some spdmCapabilities
  | 0xE3 => some spdmAlgorithms
  | 0xE4 => some spdmKeyExchange
  | 0xE5 => some spdmFinish
  | 0xE8 => some spdmHeartbeat
  | 0xE9 => some spdmKeyUpdate
  | 0xEC => some spdmEndSession
  | 0xEE => some spdmSetCertificate
  | 0xFE => some (if leAt req 11 1 = 2 then spdmPqQuote else spdmPqChain)
  | _ => none

/-- The transport is served: the management port in Landfall mode only, the host's own once the device has booted. -/
def State.transportOn (s : State) (tr : Transport) : Bool :=
  match tr with
  | .management => s.boot.landfall
  | _ => s.boot.ready || s.boot.landfall

/-- A request of code `code` answered by `f`, or by the ERROR that stops it first: the layout, the version, the order of
the connection, or no identity (R362). -/
def State.answerSpdm (s : State) (tr : Transport) (code : Nat) (f : Responder) (req : Bytes) : State × Bytes :=
  let c := s.spdmOf tr
  if req.length < 4 ∨ rqCode req ≠ code then (s, c.err eInvalid)
  else if code = 0x84 then (if leAt req 0 1 = 0x10 then f s tr req else (s, c.err eVersion))
  else if code = 0xE1 then f s tr req
  else if leAt req 0 1 ≠ c.version then (s, c.err eVersion)
  else if c.stage < 2 ∨ (c.stage < 3 ∧ code ≠ 0xE3) then (s, c.err eUnexpected)
  else if code ≠ 0xE3 ∧ s.lc.dus.isNone then (s, c.err eUnsupported)
  else f s tr req

/-- Where the writable bits of a configuration word are kept among the plain registers. -/
def cfgKey (f off : Nat) : Nat := 0x20000000 + 0x1000 * f + off

/-- A DOE data object. -/
def doeObject (type : Nat) (b : Bytes) : Bytes :=
  let n := ceilDiv b.length 4
  le 2 1 ++ le 1 type ++ [0#8] ++ le 4 (2 + n) ++ fit (4 * n) b

/-- A DOE response is ready: it is read from the mailbox, and vector 3 is sent where the interrupt is enabled. -/
def State.doeReady (s : State) (b : Bytes) : State :=
  let t := { s with host := { s.host with doeObj := b } }
  if s.host.doeIrq then (t.setReg (cfgKey 0 0x1CC) 2).msix 0 3 else t

/-- A response goes out, in chunks where it is longer than the requester takes; DOE raises its interrupt where enabled. -/
def State.sendSpdm (s : State) (tr : Transport) (rsp : Bytes) : State :=
  let c := s.spdmOf tr
  let (t, b) := if c.limit < rsp.length then
      (s.modSpdm tr fun c => { c with chunkOut := some (1, 0, rsp) }, c.say 0x7F eLarge 0 [1#8])
    else (s, rsp)
  let t := t.emit (.spdm tr b)
  if tr = .doe then t.doeReady (doeObject 1 b) else t

/-- One request on a transport. SCRAPPED answers VERSION and CAPABILITIES only; a DOE object of more than 65,536 bytes
sets DOE Error and is discarded (R491). -/
def spdmRow (tr : Transport) (code : Nat) (f : Responder) (req : Bytes) (s : State) : Out :=
  done s (
    if tr = .doe ∧ 65536 < req.length then { s with host := { s.host with doeErr := true } }
    else if ¬ s.transportOn tr ∨ (s.lc.state = .scrapped ∧ code ≠ 0x84 ∧ code ≠ 0xE1) then s
    else
      let r := s.answerSpdm tr code f req
      r.1.sendSpdm tr r.2)

/-- GET_VERSION. -/
def execGetVersion (tr : Transport) (req : List Byte) (s : State) : Out := spdmRow tr 0x84 spdmVersion req s
/-- GET_CAPABILITIES. -/
def execGetCapabilities (tr : Transport) (req : List Byte) (s : State) : Out := spdmRow tr 0xE1 spdmCapabilities req s
/-- NEGOTIATE_ALGORITHMS. -/
def execNegotiateAlgorithms (tr : Transport) (req : List Byte) (s : State) : Out := spdmRow tr 0xE3 spdmAlgorithms req s
/-- GET_DIGESTS. -/
def execGetDigests (tr : Transport) (req : List Byte) (s : State) : Out := spdmRow tr 0x81 spdmDigests req s
/-- GET_CERTIFICATE. -/
def execGetCertificate (tr : Transport) (req : List Byte) (s : State) : Out := spdmRow tr 0x82 spdmCertificate req s
/-- CHALLENGE. -/
def execChallenge (tr : Transport) (req : List Byte) (s : State) : Out := spdmRow tr 0x83 spdmChallenge req s
/-- GET_MEASUREMENTS. -/
def execGetMeasurements (tr : Transport) (req : List Byte) (s : State) : Out := spdmRow tr 0xE0 spdmMeasurements req s
/-- KEY_EXCHANGE. -/
def execKeyExchange (tr : Transport) (req : List Byte) (s : State) : Out := spdmRow tr 0xE4 spdmKeyExchange req s
/-- FINISH. -/
def execSpdmFinish (tr : Transport) (req : List Byte) (s : State) : Out := spdmRow tr 0xE5 spdmFinish req s
/-- HEARTBEAT. -/
def execHeartbeat (tr : Transport) (req : List Byte) (s : State) : Out := spdmRow tr 0xE8 spdmHeartbeat req s
/-- KEY_UPDATE. -/
def execKeyUpdate (tr : Transport) (req : List Byte) (s : State) : Out := spdmRow tr 0xE9 spdmKeyUpdate req s
/-- END_SESSION. -/
def execEndSession (tr : Transport) (req : List Byte) (s : State) : Out := spdmRow tr 0xEC spdmEndSession req s
/-- SET_CERTIFICATE. -/
def execSetCertificate (tr : Transport) (req : List Byte) (s : State) : Out := spdmRow tr 0xEE spdmSetCertificate req s
/-- GET_PQ_CHAIN. -/
def execGetPqChain (tr : Transport) (req : List Byte) (s : State) : Out := spdmRow tr 0xFE spdmPqChain req s
/-- PQ_QUOTE. -/
def execPqQuote (tr : Transport) (req : List Byte) (s : State) : Out := spdmRow tr 0xFE spdmPqQuote req s

/-! ### Chunks -/

/-- CHUNK_SEND: the parts of a large request; the last one is acknowledged together with the answer to the whole. -/
def spdmChunkSend : Responder := fun s tr req =>
  let c := s.spdmOf tr
  let h := rqP2 req
  let n := leAt req 4 2
  let size := leAt req 8 4
  let data := sliceOf req (if n = 0 then 16 else 12) size
  let before := match c.chunkIn with
    | some (h', n', b) => if n = 0 then some [] else if h' = h ∧ n' = n then some b else none
    | none => if n = 0 then some [] else none
  match before with
  | none => (s, c.err eInvalid)
  | some b =>
    let t := s.modSpdm tr fun c => { c with chunkIn := some (h, n + 1, b ++ data) }
    if ¬ bitOf (rqP1 req) 0 then (t, c.say 0x05 0 h (le 2 n))
    else
      let whole := b ++ data
      let u := t.modSpdm tr fun c => { c with chunkIn := none }
      let r := match spdmFor whole with
        | some f => u.answerSpdm tr (rqCode whole) f whole
        | none => (u, c.err eUnsupported)
      (r.1, c.say 0x05 0 h (le 2 n ++ r.2))

/-- CHUNK_GET: the next part of a large response. -/
def spdmChunkGet : Responder := fun s tr req =>
  let c := s.spdmOf tr
  match c.chunkOut with
  | none => (s, c.err eUnexpected)
  | some (h, n, b) =>
    if rqP2 req ≠ h ∨ leAt req 4 2 ≠ n then (s, c.err eInvalid)
    else
      let room := c.limit - (if n = 0 then 16 else 12)
      let part := b.take room
      let last := decide (b.length ≤ room)
      (s.modSpdm tr fun c => { c with chunkOut := if last then none else some (h, n + 1, b.drop room) },
        c.say 0x06 (b2n last) h (le 2 n ++ zeros 2 ++ le 4 part.length ++ (if n = 0 then le 4 b.length else []) ++ part))

/-- CHUNK_SEND. -/
def execChunkSend (tr : Transport) (req : List Byte) (s : State) : Out := spdmRow tr 0x85 spdmChunkSend req s
/-- CHUNK_GET. -/
def execChunkGet (tr : Transport) (req : List Byte) (s : State) : Out := spdmRow tr 0x86 spdmChunkGet req s

/-- DOE Abort discards any object in progress, and clears DOE Error (R491). -/
def State.doeAbort (s : State) : State :=
  { s with host := { s.host with doeIn := [], doeObj := [], doeErr := false } }.modSpdm .doe fun c =>
    { c with chunkIn := none, chunkOut := none }

/-- DOE_ABORT. -/
def execDoeAbort (s : State) : Out := done s s.doeAbort

end Sys2Proof.Machine
end

