-- ==== Sys2Proof/Machine/LifeCycle.lean ====
section
/-! DEFINITION. Life-cycle transitions, debug grants and the debug TAP (19_lifecycle_debug.md R436-R450). -/

namespace Sys2Proof.Machine

/-! ### States and their OTP codes (R436, R440, R441) -/

/-- The OTP code of a state. -/
def lifeOtp (l : LifeState) : BitVec 128 :=
  if l = .scrapped then BitVec.allOnes 128 else BitVec.ofNat 128 (2 ^ (16 * lifeCode l) - 1)

/-- The states, in the order of their codes. -/
def lifeStates : List LifeState := [.raw, .test, .provision, .owned, .deployed, .returned, .scrapped]

/-- The state of a copy that equals a code exactly. -/
def lifeOfCopy (c : BitVec 128) : Option LifeState := lifeStates.find? fun l => lifeOtp l == c

/-- The state that three copies decode to, and whether all agree; without two equal valid copies the device behaves as
SCRAPPED. -/
def lifeDecode (a b c : BitVec 128) : LifeState × Bool :=
  let two (x y : BitVec 128) : Option LifeState := if x = y then lifeOfCopy x else none
  match (two a b).orElse fun _ => (two a c).orElse fun _ => two b c with
  | some l => (l, a == b && b == c)
  | none => (.scrapped, false)

/-- A transition of R436. -/
def lifeStep (a b : LifeState) : Bool :=
  match a, b with
  | .raw, .test => true
  | .test, .provision => true
  | .provision, .owned => true
  | .owned, .deployed => true
  | .owned, .returned => true
  | .deployed, .returned => true
  | .scrapped, _ => false
  | _, .scrapped => true
  | _, _ => false

/-! ### Authorisation blocks (R445, R446) -/

/-- Bytes up to the end of OWNER_DATA. -/
def authSigned (b : Bytes) : Nat := 96 + leAt b 80 4

/-- OWNER_DATA. -/
def authOwner (b : Bytes) : Bytes := sliceOf b 96 (leAt b 80 4)

/-- Owner data in order: chart key, M, N, and N recovery keys. -/
def ownerDataOk (d : Bytes) : Bool :=
  let m := leAt d 2592 1
  let n := leAt d 2593 1
  decide (1 ≤ m) && decide (m ≤ n) && decide (n ≤ 8) && leAt d 2594 2 == 0 && d.length == 2596 + 2592 * n

/-- The recovery keys of owner data. -/
def ownerKeys (d : Bytes) : List Bytes := (List.range (leAt d 2593 1)).map fun i => sliceOf d (2596 + 2592 * i) 2592

/-- Line 1 of R448: the layout of a block of a kind. -/
def authFormat (b : Bytes) (kind : Nat) : Bool :=
  let v := leAt b 12 1
  let o := leAt b 13 1
  let d := leAt b 80 4
  decide (96 ≤ b.length) && decide (b.length ≤ 65536) && leAt b 0 4 == 0x48545541 && leAt b 4 2 == 1 && leAt b 6 1 == kind &&
  (if kind = 1 then leAt b 8 4 == 0 else leAt b 7 1 == 0) && decide (v ≤ 1) && decide (o ≤ 8) && leAt b 14 2 == 0 &&
  allZero (sliceOf b 84 12) &&
  (if kind = 1 ∧ leAt b 7 1 = 3 then ownerDataOk (authOwner b) else d == 0) &&
  b.length == 96 + d + 4631 * v + 4631 * o &&
  (List.range o).all fun i => decide (leAt b (96 + d + 4631 * v + 4631 * i) 1 < 8) &&
    leAt b (96 + d + 4631 * v + 4631 * i + 1) 3 == 0

/-- DBG.CHALLENGE (R447). -/
def State.challenge (s : State) : Bytes :=
  le 4 0x4C484344 ++ le 2 1 ++ le 1 (lifeCode s.lc.state) ++ le 1 (b2n s.lc.debugged) ++ le 16 s.lc.deviceId.toNat ++
  fit 32 s.lc.nonce ++ le 4 s.lc.grant.toNat ++ zeros 4

/-- The label of the signatures. -/
def authLabel : Bytes := ascii "psibuaz-auth"

/-- The vendor's signature is there and verifies under the manufacturing key of mask ROM in RAW, else under the vendor
debug and life-cycle keys of OTP; which public key a KEY_ID names is a free value (log 47). -/
def State.vendorSigned (s : State) (b : Bytes) : Bool :=
  let o := authSigned b
  leAt b 12 1 == 1 &&
  mlDsaOk 0x2003 (prim (.image 13) [le 1 (b2n (s.lc.state == .raw)), s.lc.vendorKeys, sliceOf b o 4] 2592) authLabel (b.take o)
    (sliceOf b (o + 4) 4627)

/-- At least M owner signatures verify under distinct keys. -/
def ownerSigned (keys : List Bytes) (m : Nat) (b : Bytes) : Bool :=
  let o := authSigned b
  decide (1 ≤ m) &&
  decide (m ≤ (quorumKeys keys authLabel (b.take o) (b.drop (o + 4631 * leAt b 12 1)) (leAt b 13 1)).length)

/-- The target of a transition. -/
def authTarget (b : Bytes) : Option LifeState := lifeStates[leAt b 7 1]?

/-- The scopes that a state allows (R449). -/
def scopeAllowed : LifeState → Nat
  | .test => 0xFF
  | .returned => 0xFF
  | .provision => 0x7B
  | .owned => 0x7B
  | .deployed => 0x7B
  | _ => 0

/-- The request is one that R436 or R449 allows. -/
def State.authAllowed (s : State) (b : Bytes) (kind : Nat) : Bool :=
  if kind = 1 then (authTarget b).any fun t => lifeStep s.lc.state t
  else s.lc.state != .raw && s.lc.state != .scrapped && (leAt b 8 4 &&& scopeAllowed s.lc.state) == leAt b 8 4

/-- The request needs the vendor's signature. -/
def State.needsVendor (s : State) (b : Bytes) (kind : Nat) : Bool :=
  if kind = 2 then true
  else match authTarget b with
  | some .test => true
  | some .provision => true
  | some .owned => true
  | some .scrapped => s.lc.state != .owned && s.lc.state != .deployed
  | _ => false

/-- The request needs the owner's quorum. -/
def State.needsOwner (s : State) (b : Bytes) (kind : Nat) : Bool :=
  if kind = 2 then s.lc.state == .owned || s.lc.state == .deployed
  else match authTarget b with
  | some .owned => true
  | some .deployed => true
  | some .returned => true
  | some .scrapped => s.lc.state == .owned || s.lc.state == .deployed
  | _ => false

/-- The owner's keys and M that the request is checked against. -/
def State.ownerQuorum (s : State) (b : Bytes) (kind : Nat) : List Bytes × Nat :=
  if kind = 1 ∧ leAt b 7 1 = 3 then (ownerKeys (authOwner b), leAt b (96 + 2592) 1) else (s.lc.recovery, s.lc.quorumM)

/-- The reason for which a request is refused, if it is (R448). -/
def State.authRefused (s : State) (b : Bytes) (kind : Nat) : Option Nat :=
  let q := s.ownerQuorum b kind
  firstFail [(1, authFormat b kind), (2, sliceOf b 16 64 == s.challenge), (3, s.authAllowed b kind),
    (4, !s.needsVendor b kind || s.vendorSigned b), (5, !s.needsOwner b kind || ownerSigned q.1 q.2 b),
    (6, !s.lc.busy && decide (s.lc.refuseUntil ≤ s.time.elapsed)), (7, s.lc.state != .scrapped)]

/-- A new nonce, after every request and reset (R447). -/
def State.newNonce (s : State) : State :=
  { s with lc := { s.lc with nonce := drbgBytes s.draws 32 } }.drawn 32

/-- A refused request: its reason, the count, and 1 s in which further ones are refused. -/
def State.refuseAuth (s : State) (r : Nat) : State :=
  { s with lc := { s.lc with
      reason := r, fails := satAdd 32 s.lc.fails 1, refuseUntil := s.time.elapsed + 1000000000 } }.newNonce

/-! ### Transitions (R442-R444) -/

/-- Step 1: every function is quiesced with the abort option, authority service and sessions stop, modules stop. -/
def State.stopAll (s : State) : State :=
  let js := tkeys s.jobs fun _ J => J.src != .internal
  let t := eachOf js (fun u j => (u.endJob j St.aborted 0).complete j) s
  let t := { t with auth := { t.auth with orders := [] } }
  let t := eachOf (tkeys t.partners.table fun _ _ => true) State.dropKeys t
  (t.stopCommand 0).stopCommand 1

/-- The whole NVS apart from the life-cycle area is erased; the certificates of the identity stay with it (log 47). -/
def State.eraseNvs (s : State) : State :=
  { s with
    chart := { s.chart with slotA := none, slotB := none, floor := 0, commitTime := 0, mcode := [], mcFloors := [] },
    keys := {}, pmem := { nonce := s.pmem.nonce },
    auth := { s.auth with running := none, next := none, floor := 0, seqs := [] },
    log := { s.log with nextMib := none },
    time := { s.time with checkpoint := 0, signedOnly := false },
    partners := { s.partners with modeNvs := false },
    service := { s.service with floor := 0 },
    boot := { s.boot with confirmRec := none },
    cluster := { s.cluster with roster := none, node := 0, pilotSet := false, marks := [], caps := [], tetherOn := false },
    lc := { s.lc with dr := none, pmk := none, ownerRoot := none, chartKey := [], quorumM := 0, recovery := [] } }

/-- The erasures of the transition to RETURNED: the key and owner regions, the committed charts and the owner area; PMK is
destroyed and drawn anew. -/
def State.eraseOwner (s : State) : State :=
  let t := { s with
    chart := { s.chart with slotA := none, slotB := none, floor := 0 },
    keys := { gens := s.keys.gens }, pmem := { nonce := s.pmem.nonce },
    auth := { s.auth with running := none, next := none, floor := 0, seqs := [] },
    log := { s.log with nextMib := none },
    time := { s.time with signedOnly := false },
    service := { s.service with floor := 0 },
    flash := { s.flash with ownerArea := [] },
    boot := { s.boot with chains := tdel (tdel s.boot.chains 2) 3 },
    lc := { s.lc with ownerRoot := none, chartKey := [], quorumM := 0, recovery := [], pmk := some (drbgBytes s.draws 32) } }
  t.drawn 32

/-- Step 3: the steps of a transition. Drawing again what is already programmed changes nothing (R444). -/
def State.transitionSteps (s : State) (to_ : LifeState) (owner : Bytes) : State :=
  match to_ with
  | .test => if s.lc.dus.isSome then s else { s with lc := { s.lc with dus := some (drbgBytes s.draws 32) } }.drawn 32
  | .provision =>
    let t := s.eraseNvs
    { t with lc := { t.lc with dr := some (drbgBytes t.draws 32), pmk := some (drbgBytes (t.draws + 32) 32) } }.drawn 64
  | .owned =>
    let t := { s with lc := { s.lc with
        chartKey := owner.take 2592, quorumM := leAt owner 2592 1, recovery := ownerKeys owner, state := .owned,
        ownerRoot := some (drbgBytes s.draws 32), sealGen := s.lc.sealGen + 1 } }.resealKeys
    { t with lc := { t.lc with state := s.lc.state } }.drawn 32
  | .returned => s.eraseOwner
  | .scrapped => s.eraseNvs
  | _ => s

/-- PROGRESS_TOTAL of a transition; the sizes of the NVS areas that the spec does not give are free values (log 47). -/
def State.transitionTotal (s : State) (to_ : LifeState) : Nat :=
  3 + (match to_ with
    | .test => 1
    | .provision => Config.primNat (.image 14) [] + 2
    | .owned => 1 + s.keys.live.length
    | .returned => Config.primNat (.image 15) [] + 1 + 64
    | .scrapped => Config.primNat (.image 14) []
    | _ => 0)

/-- Steps 3 to 5: the table's steps, the three OTP copies, the record in LOG[0], and the intent record cleared. -/
def State.finishTransition (s : State) (i : Intent) : State :=
  let t := s.transitionSteps i.target i.owner
  let c := lifeOtp i.target
  let t := { t with lc := { t.lc with copyA := c, copyB := c, copyC := c } }
  let t := t.logEvent 0 0x0002 (le 1 (lifeCode i.source) ++ le 1 (lifeCode i.target) ++ i.digest)
  { t with lc := { t.lc with intent := none } }

/-- An accepted transition runs to its end: the functions stop, the intent record is written, the steps run, and the device
resets itself. -/
def State.transition (s : State) (b : Bytes) (to_ : LifeState) : State :=
  let t := ({ s with lc := { s.lc with busy := true } }.newNonce).opStart 0x0010 0 (s.transitionTotal to_)
  let i : Intent := { source := s.lc.state, target := to_, digest := sha384 b, owner := authOwner b }
  let t := { t.stopAll with lc := { t.stopAll.lc with intent := some i } }
  ((t.finishTransition i).opEnd 0x0010 0).deviceReset

/-! ### Debug grants (R450; 15, R368; 09, R206) -/

/-- In DEPLOYED, jobs that pin NO_DEBUG keys are aborted, and what the device holds of such keys is scrubbed. -/
def State.barDebugKeys (s : State) : State :=
  if s.lc.state ≠ .deployed then s
  else
    let noDebug (k : Nat) : Bool := (s.key? k).any fun K => K.flags.getLsbD 0
    let ks := tkeys s.keys.live fun k _ => noDebug k
    let js := tkeys s.jobs fun _ J => J.pin.any noDebug
    let t := eachOf js State.abortJob s
    let t := { t with keys := { t.keys with cache := t.keys.cache.filter fun e => !ks.contains e.1 } }
    let drop (n : Nat) : Bool := (tget t.keys.slots n).any fun b => noDebug (handleIdx b.key)
    { t with tiles := t.tiles.map fun e => (e.1, { e.2 with resident := e.2.resident.filter fun n => !drop n }) }

/-- A grant takes effect: the keys it bars, the record, DEBUGGED and the debug alias, then its scope. -/
def State.grantDebug (s : State) (scope : Nat) : State :=
  let t := s.barDebugKeys
  let t := t.logEvent 0 0x0003 (sha384 s.challenge ++ le 4 scope)
  { t with
    lc := { t.lc with debugged := true, grant := t.lc.grant ||| BitVec.ofNat 32 scope },
    host := { t.host with sessions := [] } }.newNonce

/-- A request arrives, through LC.CTRL, the Landfall port or the TAP: it is refused, or it takes effect. The answer is the
reason, 0 where it is accepted. -/
def State.submitAuth (s : State) (b : Bytes) (kind : Nat) : State × Nat :=
  match s.authRefused b kind with
  | some r => (s.refuseAuth r, r)
  | none =>
    if kind = 2 then (s.grantDebug (leAt b 8 4), 0)
    else match authTarget b with
    | some to_ => (s.transition b to_, 0)
    | none => (s, 0)

/-- The block at LC.REQ_ADDR; a block that cannot be read, or whose length is out of range, is a format failure. -/
def State.lcBlock (s : State) : Bytes :=
  let a := s.reg 0xE0050
  let n := s.reg 0xE0058
  if n < 96 ∨ 65536 < n ∨ (s.readFault a n).isSome then [] else s.hostRead a n

/-- TRANSITION: LC.CTRL.TRANSITION. -/
def execTransition (t : Nat) (s : State) : Out :=
  let u := s.at_ t
  done s (managedBoot u (u.submitAuth u.lcBlock 1).1)

/-- DEBUG: LC.CTRL.DEBUG. -/
def execDebugGrant (t : Nat) (s : State) : Out :=
  let u := s.at_ t
  done s (managedBoot u (u.submitAuth u.lcBlock 2).1)

/-! ### The debug TAP (R438, R449, R451) -/

/-- A factory test mode is open. -/
def State.factoryOpen (s : State) : Bool :=
  s.lc.state == .raw || ((s.lc.state == .test || s.lc.state == .returned) && bitOf s.lc.grant.toNat 7)

/-- The TAP decodes an instruction in the present state and grant. -/
def State.tapDecodes (s : State) : TapInstr → Bool
  | .samplePreload => s.scope 0
  | .extest => s.scope 0 && s.faults.safe.on
  | .helmDebug => s.scope 1
  | .binnacleDebug => s.scope 2
  | .tileDebug => s.scope 3
  | .factoryTest => s.factoryOpen
  | _ => true

/-- LC.STATE as it reads. -/
def State.lcState (s : State) : Nat := lifeCode s.lc.state + 8 * b2n s.lc.allAgree + 16 * b2n s.lc.resumed

/-- What an instruction shifts out; IDCODE's value is a free value, as the spec gives none (log 47). -/
def State.tapOut (s : State) : TapInstr → Bytes
  | .idcode => prim (.image 16) [le 1 (variantBit s.variant)] 4
  | .readLcState => le 4 s.lcState
  | .readDeviceId => le 16 s.lc.deviceId.toNat
  | .readChallenge => s.challenge
  | _ => []

/-- TAP_INSTRUCTION: an instruction that the state and grant do not allow is not decoded, and the TAP holds BYPASS. The
authorisation register takes a debug block. -/
def execTapInstruction (ir : TapInstr) (payload : List Byte) (t : Nat) (s : State) : Out :=
  let u := s.at_ t
  let i := if u.tapDecodes ir then ir else .bypass
  let v := { u with boot := { u.boot with tap := i } }
  done s (match i with
    | .authorise => (v.submitAuth payload 2).1
    | _ => v.emit (.tap (v.tapOut i)))

end Sys2Proof.Machine
end

