-- ==== Sys2Proof/Machine/Firmware.lean ====
section
/-! DEFINITION. The boot flash, the firmware bundle and its checks, patch images, and the firmware commands
(20_boot_landfall.md R454-R462; 04_engine_tiles.md R81, R99). -/

namespace Sys2Proof.Machine

/-! ### The boot directory (R454) -/

/-- The copy in use is copy A: it is valid, and copy B is not valid or not newer. -/
def Flash.useA (F : Flash) : Bool :=
  match F.dirSeqA, F.dirSeqB with
  | some a, some b => decide (b.1 ≤ a.1)
  | some _, none => true
  | none, _ => false

/-- The directory in force: sequence, ACTIVE, TRY; slot A and no try where no copy is valid (log 48). -/
def Flash.dir (F : Flash) : Nat × Nat × Nat := ((if F.useA then F.dirSeqA else F.dirSeqB)).getD (0, 0, 0)

/-- ACTIVE. -/
def Flash.active (F : Flash) : Nat := F.dir.2.1
/-- TRY. -/
def Flash.try_ (F : Flash) : Nat := F.dir.2.2

/-- The directory is written to the other copy, its sequence raised by one. -/
def Flash.writeDir (F : Flash) (active tryBit : Nat) : Flash :=
  let d := some (F.dir.1 + 1, active, tryBit)
  if F.useA then { F with dirSeqB := d } else { F with dirSeqA := d }

/-- The contents of a slot: 0 is A, 1 is B. -/
def Flash.slot (F : Flash) (k : Nat) : Bytes := if k = 0 then F.slotA else F.slotB

/-- A slot erased and written. -/
def Flash.putSlot (F : Flash) (k : Nat) (b : Bytes) : Flash := if k = 0 then { F with slotA := b } else { F with slotB := b }

/-! ### The bundle (R455) -/

/-- A component record. -/
structure Component where
  type    : Nat
  off     : Nat
  len     : Nat
  version : Nat
  digest  : Bytes
deriving DecidableEq, Repr

/-- COMPONENT_COUNT. -/
def componentCount (b : Bytes) : Nat := leAt b 7 1

/-- BUNDLE_LEN. -/
def bundleLen (b : Bytes) : Nat := leAt b 12 4

/-- The record of component `i`. -/
def componentAt (b : Bytes) (i : Nat) : Component :=
  let o := 64 + 64 * i
  { type := leAt b o 2, off := leAt b (o + 4) 4, len := leAt b (o + 8) 4, version := leAt b (o + 12) 4,
    digest := sliceOf b (o + 16) 48 }

/-- The records of a bundle, in order. -/
def components (b : Bytes) : List Component := (List.range (componentCount b)).map (componentAt b)

/-- The bytes of a component. -/
def Component.image (c : Component) (b : Bytes) : Bytes := sliceOf b c.off c.len

/-- The component's digest is that of its bytes. -/
def Component.digestOk (c : Component) (b : Bytes) : Bool := sha384 (c.image b) == c.digest

/-- The component of a type that occurs once. -/
def componentOf (b : Bytes) (type : Nat) : Component := ((components b).find? fun c => c.type == type).getD ⟨0, 0, 0, 0, []⟩

/-- Where the signature block begins. -/
def bundleSigAt (b : Bytes) : Nat := 64 + 64 * componentCount b

/-- Line 1 of R462: the layout of a bundle. -/
def bundleFormat (b : Bytes) : Bool :=
  let n := componentCount b
  let cs := components b
  leAt b 0 4 == 0x57465A50 && leAt b 4 2 == 1 && decide (leAt b 6 1 ≤ 128) && decide (4 ≤ n) && decide (n ≤ 40) &&
  decide (bundleLen b ≤ 25165824) && decide (bundleLen b ≤ b.length) && decide (bundleSigAt b + 6247 ≤ bundleLen b) &&
  decide (leAt b 24 1 < 8) && allZero (sliceOf b 25 39) && leAt b (bundleSigAt b + 4) 4 == 0 &&
  ((List.range n).all fun i => leAt b (64 + 64 * i + 2) 2 == 0) &&
  (cs.all fun c => decide (1 ≤ c.type) && decide (c.type ≤ 5) && decide (c.off + c.len ≤ bundleLen b)) &&
  ([1, 2, 3, 4].all fun k => (cs.filter fun c => c.type == k).length == 1) &&
  (componentOf b 1).len == 2648

/-- The LMS and ML-DSA-87 signatures of a signature block verify under a vendor-keys component. -/
def vendorSignatures (keys ctx signed sig : Bytes) : Bool :=
  Config.primBool (.verify 0x3400) [keys.take 56, signed, sliceOf sig 8 1612] &&
  mlDsaOk 0x2003 (keys.drop 56) ctx signed (sliceOf sig 1620 4627)

/-- The vendor-keys component. -/
def bundleKeys (b : Bytes) : Bytes := (componentOf b 1).image b

/-- The digest of the vendor keys is one of OTP, or in RAW of mask ROM; the digests are a free value (log 48). -/
def State.keysKnown (s : State) (keys : Bytes) : Bool :=
  Config.primBool (.image 17) [le 1 (b2n (s.lc.state == .raw)), s.lc.vendorKeys, sha384 keys]

/-- The checks of step 3 of R456, in order, with their reasons of R462. -/
def State.bundleRefused (s : State) (b : Bytes) : Option Nat :=
  firstFail [(1, bundleFormat b), (2, s.keysKnown (bundleKeys b)),
    (2, vendorSignatures (bundleKeys b) (ascii "psibuaz-fw") (b.take (bundleSigAt b)) (b.drop (bundleSigAt b))),
    (4, bitOf (leAt b 24 1) (variantBit s.variant)), (3, decide (s.lc.thermometer ≤ leAt b 6 1)),
    (5, (componentOf b 2).digestOk b)]

/-- A slot passes step 3 of R456: FW.SLOT[s].VALID. -/
def State.slotValid (s : State) (k : Nat) : Bool := (s.bundleRefused (s.flash.slot k)).isNone

/-! ### Patch images (04, R81, R99) -/

/-- An entry: its key is served by the personality, its address and window are in range, its reserved bytes are zero. -/
def patchEntryOk (p : Bytes) (i : Nat) : Bool :=
  let o := 0x40 + 8 * i
  let key := leAt p o 2
  ((decide (0xFFF0 ≤ key) && decide (key ≤ 0xFFF3)) || (definedOp key && persOf key == leAt p 6 1)) &&
  decide (leAt p (o + 2) 2 < 8192) && decide (1 ≤ leAt p (o + 4) 1) && decide (leAt p (o + 4) 1 ≤ 16) &&
  leAt p (o + 5) 3 == 0

/-- The checks of R99 on the layout, the words and the entry keys. -/
def patchFormat (p : Bytes) : Bool :=
  let n := patchEntries p
  leAt p 0 4 == 0x48434D50 && leAt p 4 2 == 1 && persOk (leAt p 6 1) && leAt p 7 1 == 0 && decide (1 ≤ n) &&
  decide (n ≤ 1024) && decide (leAt p 0x10 4 ≤ leAt p 0x0C 4) && leAt p 0x14 4 == 211111 + 8 * n && p.length == 211111 + 8 * n &&
  allZero (sliceOf p 0x20 32) && ((List.range n).all (patchEntryOk p)) &&
  ([0xFFF0, 0xFFF1, 0xFFF2, 0xFFF3].all fun k => (List.range n).any fun i => leAt p (0x40 + 8 * i) 2 == k) &&
  ((List.range 8192).all fun a => wordOk (sliceOf p (0x40 + 8 * n + 25 * a) 25)) && leAt p (0x40 + 8 * n + 204800 + 4) 4 == 0

/-- Both signatures of a patch image verify under the vendor keys. -/
def patchSigned (keys p : Bytes) : Bool :=
  let o := p.length - 6247
  vendorSignatures keys (ascii "psibuaz-mcode") (p.take o) (p.drop o)

/-- The directory entry of an image. -/
def patchEntry (p : Bytes) : McodeEntry :=
  { setId := leAt p 8 2, pers := leAt p 6 1, version := leAt p 0x0C 4, floor := leAt p 0x10 4, digest := sha384 p,
    image := p }

/-- The directory after an entry is installed: the floor rises, lower versions of the set go, the entry takes the lowest
free place; an image that is installed already stays. -/
def ChartState.install (C : ChartState) (e : McodeEntry) : ChartState :=
  let fl := max ((tget C.mcFloors e.setId).getD 0) e.floor
  let kept := C.mcode.filter fun x => !(x.2.setId == e.setId && decide (x.2.version < fl))
  { C with
    mcFloors := tput C.mcFloors e.setId fl,
    mcode := if kept.any fun x => x.2 == e then kept
             else tput kept ((lowestFree (fun i => (tget kept i).isSome) 128 0).getD 128) e }

/-- An image installs only when every check of R99 passes. -/
def ChartState.installImage (C : ChartState) (keys p : Bytes) : ChartState :=
  if patchSigned keys p && patchFormat p && decide ((tget C.mcFloors (leAt p 8 2)).getD 0 ≤ leAt p 0x0C 4) then
    C.install (patchEntry p) else C

/-- The patch images of a bundle, in order. -/
def bundlePatches (b : Bytes) : List Bytes := ((components b).filter fun c => c.type == 5).map fun c => c.image b

/-- The directory after every image of a bundle. -/
def ChartState.installAll (C : ChartState) (b : Bytes) : ChartState :=
  (bundlePatches b).foldl (fun c p => c.installImage (bundleKeys b) p) C

/-- The directory of 32 entries holds the bundle's images. -/
def State.patchRoom (s : State) (b : Bytes) : Bool :=
  ((s.chart.installAll b).mcode).all fun e => decide (e.1 < 32)

/-- The images of a bundle that pass are installed, each with its record in LOG[1] (15, R356; log 43). -/
def State.installPatches (s : State) (b : Bytes) : State :=
  (bundlePatches b).foldl (fun (t : State) p =>
    let c := t.chart.installImage (bundleKeys b) p
    let u : State := { t with chart := c }
    if c = t.chart then t else u.stageEvent (Config.primNat (.image 10) [[5#8]]) (leAt p 0x0C 4) p) s

/-! ### STAGE (R460) -/

/-- A firmware command ends with a reason; 0 where it succeeded. -/
def State.fwEnds (s : State) (r : Nat) : State := { s with boot := { s.boot with fwBusy := false, fwReason := r } }

/-- Staging, a life-cycle transition or a chart operation is in progress. -/
def State.fwBusyNow (s : State) : Bool := s.boot.fwBusy || s.lc.busy || s.chart.op.isSome

/-- The slot that is not running; in Landfall mode, the slot that is not ACTIVE. -/
def State.idleSlot (s : State) : Nat := 1 - ((s.boot.bundle.map (·.slot)).getD s.flash.active)

/-- The checks of STAGE: those of the boot, the digest of every component, and the format of every patch image. -/
def State.stageRefused (s : State) (b : Bytes) : Option Nat :=
  (s.bundleRefused b).orElse fun _ =>
    firstFail [(5, (components b).all fun c => c.digestOk b), (1, (bundlePatches b).all patchFormat)]

/-- Sectors of 64 KiB. -/
def sectors (n : Nat) : Nat := ceilDiv n 65536

/-- Steps 2 to 5 of R460 with a bundle for a slot: a failure leaves TRY clear. -/
def State.stageBundle (s : State) (b : Bytes) (slot : Nat) : State :=
  let t := s.opStart 0x0020 0 (1 + sectors b.length)
  match s.stageRefused b with
  | some r =>
    let t := if s.flash.try_ = 0 then t else { t with flash := t.flash.writeDir t.flash.active 0 }
    (t.opEnd 0x0020 0).fwEnds r
  | none =>
    let t := { t with flash := (t.flash.putSlot slot b).writeDir t.flash.active 1 }
    ((t.opStep 0x0020 0 (1 + sectors b.length)).opEnd 0x0020 0).fwEnds 0

/-- The bundle in host memory; one that cannot be read, or whose FW.SRC_LEN is not its BUNDLE_LEN, fails the format
(log 48). -/
def State.fwSource (s : State) : Bytes :=
  let a := s.reg 0xE1018
  let n := s.reg 0xE1020
  if 25165824 < n ∨ (s.readFault a n).isSome ∨ a % 8 ≠ 0 then []
  else
    let b := s.hostRead a n
    if bundleLen b = n then b else []

/-- FW.CTRL.STAGE. -/
def State.stage (s : State) : State :=
  if s.fwBusyNow then s.fwEnds 6 else s.stageBundle s.fwSource s.idleSlot

/-- STAGE. -/
def execStage (t : Nat) (s : State) : Out := done s (managedBoot (s.at_ t) (s.at_ t).stage)

/-! ### ACTIVATE, CONFIRM, COMMIT_SVN (R461, R462) -/

/-- FW.CTRL.ACTIVATE. -/
def State.activate (s : State) : State :=
  if s.fwBusyNow then s.fwEnds 6
  else if s.flash.try_ = 1 then s.deviceReset
  else s.fwEnds 8

/-- ACTIVATE. -/
def execActivate (s : State) : Out := done s (managedBoot s s.activate)

/-- The steps of a confirmation after its record: the patch images, the directory, and the record cleared. -/
def State.finishConfirm (s : State) (slot : Nat) : State :=
  let t := s.installPatches (s.flash.slot slot)
  { t with flash := t.flash.writeDir slot 0, boot := { t.boot with confirmRec := none } }

/-- FW.CTRL.CONFIRM: on a try boot that has reached READY. -/
def State.confirm (s : State) : State :=
  if s.fwBusyNow then s.fwEnds 6
  else match s.boot.bundle with
  | none => s.fwEnds 8
  | some B =>
    if ¬ s.boot.tryBoot ∨ ¬ s.boot.ready then s.fwEnds 8
    else if ¬ s.patchRoom (s.flash.slot B.slot) then s.fwEnds 9
    else
      let t : State := { s with boot := { s.boot with confirmRec := some B.slot } }
      let u := t.finishConfirm B.slot
      { u with boot := { u.boot with confirmed := true } }.fwEnds 0

/-- CONFIRM. -/
def execConfirm (s : State) : Out := done s (managedBoot s s.confirm)

/-- FW.CTRL.COMMIT_SVN: on a confirmed boot whose SECURITY_VERSION is above the thermometer. -/
def State.commitSvn (s : State) : State :=
  if s.fwBusyNow then s.fwEnds 6
  else if s.boot.bundle.isNone ∨ (s.boot.tryBoot ∧ ¬ s.boot.confirmed) ∨ s.svn ≤ s.lc.thermometer then s.fwEnds 8
  else
    let n := s.svn - s.lc.thermometer
    let t := (s.opStart 0x0021 0 n).opStep 0x0021 0 n
    ((({ t with lc := { t.lc with thermometer := s.svn } }).opEnd 0x0021 0).fwEnds 0)

/-- COMMIT_SVN. -/
def execCommitSvn (s : State) : Out := done s (managedBoot s s.commitSvn)

/-- FW.SLOT[k] as it reads. -/
def State.fwSlot (s : State) (k : Nat) : Nat :=
  let b := s.flash.slot k
  leAt b 8 4 + 2 ^ 32 * leAt b 6 1 + 2 ^ 40 * b2n (s.slotValid k) + 2 ^ 41 * b2n (s.flash.active == k) +
  2 ^ 42 * b2n (s.flash.try_ == 1 && s.flash.active != k)

end Sys2Proof.Machine
end

