-- ==== Sys2Proof/Machine/Pins.lean ====
section
/-! DEFINITION. Supplies, clocks, temperature, SAFE_REQ_N and the permit readback (18_faults_safety.md R425-R430;
23_electrical_package.md R498, R505-R509). -/

namespace Sys2Proof.Machine

/-- A level cause ends. -/
def State.causeEnds (s : State) (src : Nat) : State := s.modSrc src fun S => { S with present := false }

/-! ### The safety outputs and the SMBus address (18, R430; R496, R500) -/

/-- A rail of the first two steps of the power-up order is out of tolerance: Helm, Binnacle or an I/O rail. -/
def State.railsLow (s : State) : Bool := s.pins.rails.any fun k => k == 4 || k == 5 || k == 8 || k == 9

/-- The level of SAFE_N, true where it is released: low for as long as SAFE.STATUS.SAFE is 1 (R430), released while a rail of
the first two steps is out of tolerance (R500; log 102). -/
def State.safeN (s : State) : Bool := !s.faults.safe.on || s.railsLow

/-- The level of FAULT_N: low while an ATTN is set or the device is in the safe state. -/
def State.faultN (s : State) : Bool := !(s.faults.safe.on || s.faults.sources.any fun e => e.2.attn) || s.railsLow

/-- The SMBus target address (R496). -/
def State.smbTarget (s : State) : Nat := 0x4C + s.pins.smbAddr

/-! ### Supplies (R498) -/

/-- The code of a rail. -/
def railCode : Rail → Nat
  | .quad q => q | .helm => 4 | .bin => 5 | .sd => 6 | .hsd => 7 | .io => 8 | .io33 => 9

/-- The source of a rail: the four I/O and SerDes rails share 326. -/
def railSrc (k : Nat) : Nat := 320 + min k 6

/-- The variant uses the rail. -/
def State.hasRail (s : State) : Rail → Bool
  | .quad q => q < quadsOf s.variant
  | _ => true

/-- A rail's number is one of the supply table's. -/
def railOk : Rail → Bool
  | .quad q => q < 4
  | _ => true

/-- SUPPLY: a rail has been outside its tolerance for `ns`; past 2 µs that is an event. -/
def execSupply (rail : Rail) (ns t : Nat) (s : State) : Out :=
  let u := s.at_ t
  let k := railCode rail
  within (railOk rail) s (
    if ns ≤ 2000 ∨ ¬ u.hasRail rail ∨ u.pins.rails.contains k then u
    else { u with pins := { u.pins with rails := u.pins.rails ++ [k] } }.event (railSrc k) 0x27 0)

/-- SUPPLY_RECOVERY: the rail has been back in tolerance for `ns`; after 1 ms its cause ends. -/
def execSupplyRecovery (rail : Rail) (ns t : Nat) (s : State) : Out :=
  let u := s.at_ t
  let k := railCode rail
  within (railOk rail) s (
    if ns < 1000000 ∨ ¬ u.pins.rails.contains k then u
    else
      let v := { u with pins := { u.pins with rails := u.pins.rails.filter (· != k) } }
      if v.pins.rails.any fun r => railSrc r == railSrc k then v else v.causeEnds (railSrc k))

/-! ### Clocks (R507) -/

/-- The code of a reference clock. -/
def clockCode : RefClock → Nat
  | .peRefclk => 0 | .fpRefclk => 1 | .mrRefclk => 2 | .sysclk => 3

/-- The source of a clock: the two 156.25 MHz clocks share 328. -/
def clockSrc (k : Nat) : Nat := if k = 0 then 327 else if k = 3 then 329 else 328

/-- The variant needs the clock (R506). -/
def State.hasClock (s : State) (c : RefClock) : Bool := !(s.variant == .pz8810 && c == .mrRefclk)

/-- The clock domains that a reference clock drives stop: both sides of their crossings with the Helm core cluster are reset,
the FIFOs' contents are discarded, and the cluster's crossbar records a crossing timeout that names the unit (01, R39). The
always-on domain goes on without SYSCLK. -/
def State.crossingsStop (s : State) (k : Nat) : State :=
  let ports := List.range (portsOf s.variant)
  match k with
  | 0 => s.event 137 0x03 160
  | 1 => eachOf ports (fun u p => (u.flushPort p).event 137 0x03 (224 + 8 * p)) s
  | 2 => eachOf ports (fun u p => (u.flushLink p).event 137 0x03 (256 + 8 * p)) s
  | _ => s

/-- CLOCK_LOSS: losing SYSCLK leaves the always-on domain on its own oscillator until POR_N. -/
def execClockLoss (clk : RefClock) (t : Nat) (s : State) : Out :=
  let u := s.at_ t
  let k := clockCode clk
  done s (
    if ¬ u.hasClock clk ∨ u.pins.clocks.contains k then u
    else { u with pins := { u.pins with
        clocks := u.pins.clocks ++ [k], alwaysOnOsc := u.pins.alwaysOnOsc || k == 3 } }.event (clockSrc k) 0x28 0 |>.crossingsStop k)

/-- CLOCK_RECOVERY: the clock has stayed within its recovery band for `ns`; after 10 ms its cause ends. -/
def execClockRecovery (clk : RefClock) (ns t : Nat) (s : State) : Out :=
  let u := s.at_ t
  let k := clockCode clk
  done s (
    if ns < 10000000 ∨ ¬ u.pins.clocks.contains k then u
    else
      let v := { u with pins := { u.pins with clocks := u.pins.clocks.filter (· != k) } }
      if v.pins.clocks.any fun c => clockSrc c == clockSrc k then v else v.causeEnds (clockSrc k))

/-! ### Temperature (R509) -/

/-- The grade's maximum in °C. -/
def State.gradeMax (s : State) : Nat := match s.grade with | .ix => 105 | .cx => 95

/-- TEMPERATURE_LIMIT: the highest reading has stood at `celsius` for `ns`; each condition of R509 that holds acts. -/
def execTemperatureLimit (celsius ns t : Nat) (s : State) : Out :=
  let u := s.at_ t
  let g := u.gradeMax
  let hot := decide (125 < celsius ∧ 10000 ≤ ns)
  let crit := hot || decide (g + 10 < celsius ∧ 1000000 ≤ ns)
  let v := if g - 5 < celsius ∧ 1000000 ≤ ns then u.event 330 0x29 0 else u
  done s (
    if crit then
      { v with pins := { v.pins with tempCrit := true, gated := v.pins.gated || hot } }.event 330 0x2A 0
    else v)

/-- TEMPERATURE_RECOVERY: the reading falls below the grade maximum. -/
def execTemperatureRecovery (celsius t : Nat) (s : State) : Out :=
  let u := s.at_ t
  done s (if celsius < u.gradeMax then { u with pins := { u.pins with tempCrit := false } }.causeEnds 330 else u)

/-- ENTROPY_HEALTH_RECOVERY: the health test of the entropy source passes again (R425). -/
def execEntropyHealthRecovery (t : Nat) (s : State) : Out :=
  let u := s.at_ t
  done s ({ u with pins := { u.pins with entropyBad := false } }.causeEnds 291)

/-! ### SAFE_REQ_N (R427, R428) -/

/-- The filtered level changes: low is a REQUEST on source 384 and starts the HELD records; high ends the cause. -/
def State.filtered (s : State) (level : Bool) : State :=
  let t := { s with pins := { s.pins with
    filtered := level, run := [], heldNext := if level then none else some (s.time.elapsed + 60000000000) } }
  if level then t.causeEnds 384 else t.event 384 0x2D 0

/-- One sample of SAFE_REQ_N at 1 MHz: five that disagree with the filtered level change it; an edge that comes to nothing
is a CHATTER_EDGE, and so is the edge that undoes it. -/
def State.sample (s : State) (x : Bool) : State :=
  let P := s.pins
  let t := { s with pins := { P with raw := x } }
  if x = P.filtered then
    if P.run.isEmpty then t
    else (({ t with pins := { t.pins with run := [] } }).event 385 0x2F 0).event 385 0x2F 0
  else if P.run.length = 4 then t.filtered x
  else { t with pins := { t.pins with run := P.run ++ [x] } }

/-- Samples in order. -/
def State.samples (s : State) (l : List Bool) : State := l.foldl State.sample s

/-- SAFE_REQ_N_EDGE: samples that bring the filtered falling edge. -/
def execSafeReqNEdge (samples : List Bool) (t : Nat) (s : State) : Out := done s ((s.at_ t).samples samples)
/-- CHATTER_EDGE: samples whose edges the filter rejects. -/
def execChatterEdge (samples : List Bool) (t : Nat) (s : State) : Out := done s ((s.at_ t).samples samples)
/-- SAFE_REQ_N_RELEASE: samples that bring the filtered level back high. -/
def execSafeReqNRelease (samples : List Bool) (t : Nat) (s : State) : Out := done s ((s.at_ t).samples samples)

/-- HELD: 60 s of the Binnacle timer have passed with SAFE_REQ_N low. -/
def execHeld (t : Nat) (s : State) : Out :=
  let u := s.at_ t
  done s (match u.pins.heldNext with
    | some d =>
      if ¬ u.pins.filtered ∧ d ≤ u.time.elapsed then
        { u with pins := { u.pins with heldNext := some (d + 60000000000) } }.event 384 0x2E 0
      else u
    | none => u)

/-! ### Permit readback (R429, R505) -/

/-- The readback of a line as sampled, and whether it disagrees with the line. -/
def State.readback (s : State) (n : Nat) (level : Bool) : State :=
  let put := fun (x : BitVec 8) (b : Bool) => if b then x ||| (1#8 <<< n) else x &&& ~~~ (1#8 <<< n)
  { s with pins := { s.pins with
      permitFb := put s.pins.permitFb level, mismatch := put s.pins.mismatch (level != s.pins.permit.getLsbD n) } }

/-- PERMIT_MISMATCH: 51 consecutive samples of PERMIT_FB[n] that disagree with PERMIT[n] are an event. -/
def execPermitMismatch (n : Nat) (level : Bool) (samples t : Nat) (s : State) : Out :=
  let u := (s.at_ t).readback n level
  within (decide (n < 8)) s (
    if 51 ≤ samples ∧ level ≠ u.pins.permit.getLsbD n ∧ ¬ (u.src (392 + n)).present then u.event (392 + n) 0x30 0 else u)

/-- PERMIT_READBACK_AGREE: the readback agrees with its line again. -/
def execPermitReadbackAgree (n : Nat) (level : Bool) (t : Nat) (s : State) : Out :=
  let u := (s.at_ t).readback n level
  within (decide (n < 8)) s (if level = u.pins.permit.getLsbD n then u.causeEnds (392 + n) else u)

end Sys2Proof.Machine
end

