-- ==== Sys2Proof/Machine/Tether.lean ====
section
/-! DEFINITION. Tethered devices: what a device without a host link and its lead send each other, and the shares of the
release budget (17_meridian.md R407-R410). The bodies of the messages are the model's own (log 52). -/

namespace Sys2Proof.Machine

/-! ### The release budget (01_architecture.md R60; R409) -/

/-- The release budget in MB/s at a trained speed and width; below 3.0 the spec states none, and it is a free value
(log 49). -/
def linkBudget (gen width : Nat) : Nat :=
  let full := match gen with
    | 6 => 100000 | 5 => 50000 | 4 => 25000 | 3 => 12500 | _ => Config.primNat (.image 18) [le 1 gen]
  full * width / 16

/-- The tethered devices of this lead that are online. -/
def State.online (s : State) : List (Nat × Tether) := s.cluster.tether.filter fun e => e.2.online

/-- The lead's share of its release budget, and the share of a tethered device with a given BUDGET_GBPS, in MB/s. -/
def State.shares (s : State) : Nat × (Nat → Nat) :=
  let B := linkBudget s.host.gen s.host.width
  let S := (s.online.map fun e => e.2.budget * 1000).sum
  let F := min 4000 (B / 2)
  if S ≤ B - F then (B - S, fun b => b * 1000) else (F, fun b => max 1 (b * 1000 * (B - F) / S))

/-- The shares are computed again, and every online device is told its own; each applies its share from its next tick. -/
def State.reshare (s : State) : State :=
  let r := s.shares
  s.online.foldl (fun u e => u.merAsk e.2.node 0x13 ([2#8] ++ le 4 0 ++ le 1 4 ++ le 8 (r.2 e.2.budget)) [])
    { s with host := { s.host with budgetNext := some r.1 } }

/-- A tethered device comes online or goes offline. -/
def State.setOnline (s : State) (d : Nat) (on : Bool) : State :=
  if (s.tether d).online = on then s else (s.modTether d fun T => { T with online := on }).reshare

/-- The tethered device of this lead that node `n` is. -/
def State.tetherOf (s : State) (n : Nat) : Option Nat :=
  (s.cluster.tether.find? fun e => e.2.valid && e.2.node == n).map (·.1)

/-! ### What a tick sends -/

/-- A tethered device sends a write, or the use of a vector, to its lead. -/
def State.sendWrite (s : State) (lead : Nat) (x : Option Nat × Nat × Bytes) : State :=
  let id := drbgBytes s.draws 8
  let post (u : State) (b : Bytes) : State := u.merSend lead 0x12 (id ++ b)
  match x.1 with
  | some v => post (s.drawn 8) ([1#8] ++ le 8 v)
  | none =>
    (List.range (ceilDiv x.2.2.length 4096)).foldl (fun u i =>
      post u ([0#8] ++ le 8 (x.2.1 + 4096 * i) ++ sliceOf x.2.2 (4096 * i) (min 4096 (x.2.2.length - 4096 * i)))) (s.drawn 8)

/-- A tethered device asks its lead for a host range, 4 KiB at a time. -/
def State.sendRead (s : State) (lead a n : Nat) : State :=
  (List.range (ceilDiv n 4096)).foldl (fun u i =>
    u.merAsk lead 0x10 (le 8 (a + 4096 * i) ++ le 2 (min 4096 (n - 4096 * i))) []) s

/-- What a tethered device has to send goes to its lead, and a lead asks each device that it lists and that is not online;
in the safe state neither sends anything (18, R424). -/
def State.tetherTick (s : State) : State :=
  if s.faults.safe.on then s
  else if s.cluster.tethered then
    (match s.cluster.lead with
     | none => s
     | some l =>
       let out := s.cluster.tetherOut
       let ask := s.cluster.tetherAsk
       let t : State := { s with cluster := { s.cluster with tetherOut := [], tetherAsk := [] } }
       ask.foldl (fun u r => u.sendRead l r.1 r.2) (out.foldl (fun u x => u.sendWrite l x) t))
  else
    (s.cluster.tether.filter fun e => e.2.valid && !e.2.online).foldl (fun u e =>
      if (u.merRoute e.2.node).isSome ∧ (u.cluster.requests.any fun r => r.type == 0x13 && r.dst == e.2.node) = false then
        u.merAsk e.2.node 0x13 ([2#8] ++ le 4 0 ++ le 1 4 ++ le 8 (e.2.budget * 1000)) []
      else u) s

/-! ### The lead's side (R408) -/

/-- TETHER_RD: a lead reads its host's memory for an online tethered device of its own, under PF0. -/
def execTetherRd (t : Nat) (s : State) : Out :=
  merRow 0x10 t (fun s m =>
    let a := leAt m.body 8 8
    let n := leAt m.body 16 2
    if (s.tetherOf m.src).isNone ∨ s.faults.safe.on ∨ m.body.length ≠ 18 ∨ n = 0 ∨ 4096 < n then s
    else s.once m fun s =>
      match s.readFault a n with
      | some k => s.merAnswer m.src m.req 0x11 (le 1 k)
      | none => s.merAnswer m.src m.req 0x11 ([0#8] ++ s.hostRead a n)) s

/-- TETHER_WR: a lead writes its host's memory for a tethered device, or sends the device's MSI-X vector `v` as its own
vector 1024 + 16 d + v. -/
def execTetherWr (t : Nat) (s : State) : Out :=
  merRow 0x12 t (fun s m =>
    let a := leAt m.body 9 8
    let data := m.body.drop 17
    match s.tetherOf m.src with
    | none => s
    | some d =>
      if s.faults.safe.on ∨ m.body.length < 17 ∨ 4096 < data.length then s
      else if leAt m.body 8 1 = 1 then (if a < 16 ∧ data = [] then s.msix 0 (1024 + 16 * d + a) else s)
      else if (s.writeFault a data.length).isSome then s
      else s.hostWrite a data) s

/-- TETHER_REG_CPL: the value of a register access through BAR4 is what the lead's read returned; the answer to a share
brings the device online. -/
def execTetherRegCpl (t : Nat) (s : State) : Out :=
  merRow 0x14 t (fun s m =>
    match s.takeRequest m 0x13 with
    | none => s
    | some (r, u) =>
      match leAt r.body 8 1, u.tetherOf m.src with
      | 0, _ => { u with host := { u.host with lastRead := BitVec.ofNat 64 (leAt m.body 8 8) } }
      | 2, some d => u.setOnline d true
      | _, _ => u) s

/-! ### The tethered device's side -/

/-- TETHER_CPL: read data returns to the tethered device. A read that failed at the lead's host fails here. -/
def execTetherCpl (t : Nat) (s : State) : Out :=
  merRow 0x11 t (fun s m =>
    match s.takeRequest m 0x10 with
    | none => s
    | some (r, u) =>
      let a := leAt r.body 8 8
      let n := leAt r.body 16 2
      let k := leAt m.body 8 1
      if k ≠ 0 then { u with host := { u.host with readFaults := u.host.readFaults ++ [(a, n, k)] } }
      else { u with hostMem := memWriteN u.hostMem a (fit n (m.body.drop 9)) }) s

/-- The link that MER.ROUTE names for a node has been down for 100 ms, or the node has no route, or it has left a read
unanswered for 100 ms (a lead in the safe state, 18, R424). -/
def State.pathLost (s : State) (n : Nat) : Bool :=
  (s.cluster.requests.any fun r => r.type == 0x10 && r.dst == n && decide (r.first + 100000000 ≤ s.time.elapsed)) ||
  match s.merRoute n with
  | none => true
  | some k => !(s.link k).carries && decide ((s.link k).downAt + 100000000 ≤ s.time.elapsed)

/-- TETHER_PATH_LOST: a tethered device that has lost its lead records a class B event on the source of the link that led
there and enters the safe state; a lead that has lost a device marks it offline. -/
def execTetherPathLost (node t : Nat) (s : State) : Out :=
  let u := s.at_ t
  within (decide (node < 16384)) s (
    if ¬ u.pathLost node then u
    else if u.cluster.tethered then
      (if u.cluster.lead = some node then
        u.event (262 + 8 * ((u.merRoute node).getD 0)) 0x31 ((u.merRoute node).getD 0) else u)
    else match u.tetherOf node with
    | some d => u.setOnline d false
    | none => u)

end Sys2Proof.Machine
end

