-- ==== Sys2Proof/Machine/Boot.lean ====
section
/-! DEFINITION. The boot: the ROM's and the first stage's steps up to READY or to Landfall mode, the self-tests, and the
release budget of the host link (20_boot_landfall.md R444, R453, R456-R458, R463, R464; 03, R72; 02, R60; 17, R407). -/

namespace Sys2Proof.Machine

/-! ### Self-tests (R463) -/

/-- The results as the clocks allow them: no tile and no Helm core whose clock is gated until POR_N passes (23, R509; log 102). -/
def State.seen (s : State) (r : TestResults) : TestResults :=
  if s.pins.gated then { r with tiles := List.range (tilesOf s.variant), cores := List.range 8 } else r

/-- The tests that send the device to Landfall mode all passed. -/
def State.testsPass (s : State) (r : TestResults) : Bool :=
  let r := s.seen r
  r.entropyOk && r.binnacleOk && decide (4 ≤ (s.firmwareCores.filter fun c => !r.cores.contains c).length)

/-- The units whose self-test failed are fenced: Quadrants, tiles, and Helm cores; where fewer than four firmware cores
remain, the failed cores stop. -/
def State.fenceFailed (s : State) (r : TestResults) : State :=
  let r := s.seen r
  let t := eachOf (r.quadrants.filter (· < quadsOf s.variant)) (fun u q => u.event (96 + 8 * q) 0x02 0) s
  let t := eachOf (r.tiles.filter (· < tilesOf s.variant)) (fun u n => u.tileFails n 2 true) t
  if s.testsPass r then eachOf (r.cores.filter (· < 8)) (fun u c => u.event (128 + c) 0x17 0) t
  else eachOf (r.cores.filter (· < 8)) (fun u c => u.modCore c fun C => { C with stopped := true }) t

/-- Units of PROGRESS_TOTAL of a self-test: one for each test and each tile. -/
def State.testUnits (s : State) : Nat := 5 + tilesOf s.variant

/-- The self-tests under operation 0x0030. -/
def State.selfTests (s : State) (r : TestResults) : State :=
  let t := s.opStart 0x0030 0 s.testUnits
  ((t.fenceFailed r).opStep 0x0030 0 s.testUnits).opEnd 0x0030 0

/-! ### Landfall mode (R464) -/

/-- The text of a number. -/
def uartNat (label : String) (n : Nat) : String := label ++ toString n

/-- A boot phase, printed on the UART (R466; log 49). -/
def State.toPhase (s : State) (p : Nat) : State :=
  { s with boot := { s.boot with phase := p } }.emit (.uart (uartNat "phase " p))

/-- The device enters Landfall mode with a reason. -/
def State.enterLandfall (s : State) (r : Nat) : State :=
  let t := s.toPhase 6
  { t with boot := { t.boot with landfall := true, reason := r, forceReason := 0 } }.emit (.uart (uartNat "landfall " r))

/-! ### Step 1: the life cycle (R441, R444) -/

/-- A copy holds every bit of one code and none outside another. -/
def copyBetween (lo hi c : BitVec 128) : Bool := c &&& lo == lo && c &&& ~~~ hi == 0

/-- The three copies allow an intent record to be completed. -/
def LifeCycle.intentOk (L : LifeCycle) (i : Intent) : Bool :=
  [L.copyA, L.copyB, L.copyC].all (copyBetween (lifeOtp i.source) (lifeOtp i.target))

/-- The state is decoded; a copy that is outvoted is recorded (R441). -/
def State.decodeLife (s : State) : State :=
  let (l, agree) := lifeDecode s.lc.copyA s.lc.copyB s.lc.copyC
  let t := { s with lc := { s.lc with state := l, allAgree := agree } }
  if agree ∨ l = .scrapped then t else t.event 290 0x34 0

/-- Step 1 of R456: an intent record is completed, and the state is decoded; copies that do not fit the record leave the
device as SCRAPPED. -/
def State.bootLife (s : State) : State :=
  match s.lc.intent with
  | none => s.decodeLife
  | some i =>
    if s.lc.intentOk i then
      let t := (s.finishTransition i).deviceReset
      { t with lc := { t.lc with resumed := true } }.decodeLife
    else { s with lc := { s.lc with state := .scrapped } }

/-! ### Steps 2 to 5: the slot (R456) -/

/-- The slot chosen, its bundle, and whether it is a try; TRY is cleared before the other slot is chosen once. -/
def State.chooseSlot (s : State) : State × Nat × Bool :=
  if s.flash.try_ = 1 then ({ s with flash := s.flash.writeDir s.flash.active 0 }, 1 - s.flash.active, true)
  else (s, s.flash.active, false)

/-- The slot that boots: the chosen one, or the other where that fails. -/
def State.bootSlot (s : State) (k : Nat) : Option Nat :=
  if s.slotValid k then some k else if s.slotValid (1 - k) then some (1 - k) else none

/-- The compound device identifier of layer 1 (15, R362). -/
def State.cdiOf (s : State) (fsbl runtime : Bytes) (svn : Nat) : Option Bytes :=
  if s.lc.state = .raw then none
  else s.lc.dus.map fun d => kmac256 d (fsbl ++ runtime ++ le 1 svn ++ le 1 (lifeCode s.lc.state)) (ascii "psibuaz-cdi") 32

/-- Layer 0 and the boot record (R456; 15, R356). -/
def State.handOver (s : State) (k : Nat) (isTry : Bool) : State :=
  let b := s.flash.slot k
  let fsbl := (componentOf b 2).digest
  let rt := (componentOf b 3).digest
  let svn := leAt b 6 1
  let t := { s with boot := { s.boot with
    bundle := some { slot := k, version := leAt b 8 4, svn := svn, fsbl := fsbl, runtime := rt }, tryBoot := isTry,
    confirmed := !isTry, cdi := s.cdiOf fsbl rt svn } }
  (t.logEvent 0 0x0001 (le 1 (lifeCode s.lc.state) ++ le 1 svn ++ fsbl)).toPhase 1

/-! ### Steps of the first stage (R457) -/

/-- The runtime and the Binnacle firmware have their digests. -/
def laterStagesOk (b : Bytes) : Bool := (componentOf b 3).digestOk b && (componentOf b 4).digestOk b

/-- A later stage is recorded in LOG[1]; its stage ID is a free value (log 43). -/
def State.stageRecord (s : State) (b : Bytes) (type : Nat) : State :=
  s.stageEvent (Config.primNat (.image 10) [le 1 type]) (componentOf b type).version ((componentOf b type).image b)

/-- Steps 1 and 2: the later stages, and a confirmation record that a reset interrupted. -/
def State.laterStages (s : State) (b : Bytes) : State :=
  let t := ((s.stageRecord b 3).stageRecord b 4).toPhase 2
  match t.boot.confirmRec with
  | none => t
  | some k => t.finishConfirm k

/-- Step 3: private memory as it is populated; port 1 only where the variant has it. -/
def State.bringMemory (s : State) (env : BootEnv) : State :=
  { s with host := { s.host with
    pmem0 := min env.pmemGib0 1024, pmem1 := if pmemsOf s.variant = 2 then min env.pmemGib1 1024 else 0 } }

/-- A persistent key as the NVS recovers it: its nonce counter resumes at the checkpoint, its invocation count at its own,
and a stateful key at the end of its reservation (06, R137; 08, R181; 09, R208). -/
def Key.recovered (K : Key) (c : CounterRec) : Key :=
  { K with ctr := c.ckpt, uses := c.uses, destroy := none, asked := false,
           hbs := K.hbs.map fun H => { H with next := H.skip H.reserved, pendingTo := none, preparing := false } }

/-- Step 4: the records of the NVS. -/
def State.recoverNvs (s : State) : State :=
  { s with keys := { s.keys with
    live := tmap s.keys.live fun i K => K.recovered ((tget s.keys.counters i).getD {}),
    counters := tmap s.keys.counters fun _ c => { c with pending := none } } }

/-- Every tile of the variant is present. -/
def State.tilesPresent (s : State) : State :=
  eachOf (List.range (tilesOf s.variant)) (fun u n => u.modTile n fun T => { T with mode := .parked }) s

/-- PORT.MAC[p] comes from OTP (14, R351). -/
def State.otpMacs (s : State) : State :=
  eachOf (List.range (portsOf s.variant)) (fun u p =>
    u.modPort p fun P => { P with mac := BitVec.ofNat 48 (fromBE (sliceOf u.lc.mac (6 * p) 6)) }) s

/-! ### Step 6: the chart (03, R72) -/

/-- A committed slot may be loaded: it passes R63, its floor included. -/
def State.slotCharts (s : State) : List (Nat × ChartSlot) :=
  ([(0, s.chart.slotA), (1, s.chart.slotB)].filterMap fun e => e.2.map fun c => (e.1, c)).filter fun e =>
    e.2.valid && (s.chartRefused e.2.image false).isNone

/-- The image that boot loads and its SOURCE: the slot of the higher version, then of the higher sequence, else the chart
area of the boot flash. -/
def State.bootChart (s : State) : Option (Nat × Bytes) :=
  let better (a b : Nat × ChartSlot) : Bool :=
    decide (leAt b.2.image 8 4 < leAt a.2.image 8 4) || (leAt b.2.image 8 4 == leAt a.2.image 8 4 && decide (b.2.seq < a.2.seq))
  match s.slotCharts with
  | [a] => some (a.1, a.2.image)
  | a :: b :: _ => if better b a then some (b.1, b.2.image) else some (a.1, a.2.image)
  | [] =>
    let img := s.flash.chartArea.take (leAt s.flash.chartArea 0xC 4)
    if (s.chartRefused img false).isNone then some (2, img) else none

/-- A tile takes its record of the chart that boot loads; a fenced one stays fenced, and one whose control store has not the
digest of its directory entry is fenced (04, R98, R100). -/
def State.bootTile (s : State) (c : Chart) (n : Nat) : State :=
  match c.tiles[n]? with
  | none => s
  | some r =>
    let t := (s.loadMcode n c r).modTile n fun T => { T with
      asg := some r, mhz := r.mhz, mode := if T.mode = .fenced then .fenced else if r.pers = 0 then .parked else .idle }
    if (s.mcodeOf c r).all McodeEntry.sound ∨ (s.tile n).mode = .fenced then t else t.tileFails n 2 false

/-- The chart is loaded: the running chart, the tiles, the package power limit, whose clocks the first tick sets (03, R68), and LOG[2]. The floor and the time of the last
commit are the NVS's. -/
def State.loadBootChart (s : State) (src : Nat) (img : Bytes) : State :=
  let c := decodeChart img
  let t := s.applyChart img c
  let t := { t with chart := { t.chart with
    floor := s.chart.floor, commitTime := s.chart.commitTime, source := src, powerW := if c.powerW = 0 then 195 else c.powerW,
    powerNext := if c.powerW = 0 then t.chart.powerNext else some c.powerW } }
  eachOf (List.range (tilesOf s.variant)) (fun u n => u.bootTile c n) t

/-! ### READY (R452, R457, R458) -/

/-- The level causes that hold now, as source and sub-cause (18, R416). -/
def State.levelCauses (s : State) : List (Nat × Nat) :=
  let P := s.pins
  (P.rails.map fun k => (railSrc k, 0x27)) ++ (P.clocks.map fun k => (clockSrc k, 0x28)) ++
  (if P.tempCrit then [(330, 0x2A)] else []) ++ (if P.entropyBad then [(291, 0x26)] else []) ++
  (if P.filtered then [] else [(384, 0x2D)]) ++
  (((List.range 8).filter fun n => P.mismatch.getLsbD n).map fun n => (392 + n, 0x30))

/-- Level causes send the device into the safe state. -/
def State.meetCauses (s : State) : State := s.levelCauses.foldl (fun u c => u.event c.1 c.2 0) s

/-- The device is tethered: the NVS enables it, its roster entry says so, and a lead answers within four hops (17, R407). -/
def State.tethers (s : State) (env : BootEnv) : Bool :=
  s.cluster.tetherOn && (s.cluster.roster.bind fun R => R.byDigest s.ownDigest).any (fun e => e.flags.getLsbD 2) &&
  env.leadHops.any fun h => decide (h ≤ 4)

/-- The host link as it trained. -/
def State.linkTrained (s : State) (h : Nat × Nat × Bool × Bool) : State :=
  { s with host := { s.host with gen := h.1, width := h.2.1, cxl := h.2.2.1, cache := h.2.2.2, budget := linkBudget h.1 h.2.1 } }

/-- Time has passed since the reset's release: the ticks go on from there. -/
def State.bootTime (s : State) (ms : Nat) : State :=
  let t := s.at_ (s.time.elapsed + ms * 1000000)
  { t with
    time := { t.time with nextTick := (t.time.elapsed / 10000 + 1) * 10000, ticks := t.time.elapsed / 10000 },
    boot := { t.boot with timeMs := ms } }

/-- Steps 7 and 8: keys, READY, and the level causes. -/
def State.reachReady (s : State) (ms : Nat) : State :=
  let t := ({ s.copyKeys with keys := { s.keys with ready := true } }.bootTime ms).toPhase 5
  { t with boot := { t.boot with ready := true, landfall := false, reason := 0, forceReason := 0 } }.meetCauses

/-- Steps 6 to 8, once the self-tests have passed. -/
def State.bootOn (s : State) (env : BootEnv) : State :=
  match s.bootChart with
  | none => s.enterLandfall 4
  | some (src, img) =>
    let t := ((s.toPhase 4).loadBootChart src img)
    match env.hostLink with
    | some h => (t.linkTrained h).reachReady env.bootMs
    | none =>
      if t.tethers env then
        ({ t with cluster := { t.cluster with tethered := true }, host := { t.host with budget := 1 } }).reachReady env.bootMs
      else t.enterLandfall 2

/-- The first stage with the bundle of slot `k` (R457); a later stage whose digest fails leaves no valid firmware (log 49). -/
def State.firstStage (s : State) (k : Nat) (env : BootEnv) : State :=
  let b := s.flash.slot k
  if ¬ laterStagesOk b then s.enterLandfall 3
  else
    let t := (s.laterStages b).bringMemory env
    if t.host.pmem0 < 16 then t.enterLandfall 5
    else
      let u := t.recoverNvs.tilesPresent.otpMacs.toPhase 3
      let ok := u.testsPass env.tests
      let v := u.selfTests env.tests
      if ok then v.bootOn env else v.enterLandfall 6

/-- The boot of R456 and R457 (log 49 for the order of the Landfall reasons). -/
def State.bootRun (s : State) (env : BootEnv) : State :=
  let s := { s with boot := { s.boot with booted := true } }.toPhase 0
  if ¬ env.nvsOk then (s.decodeLife).enterLandfall (if s.decodeLife.lc.state = .scrapped then 7 else 8)
  else
    let t := s.bootLife
    let t := { t with boot := { t.boot with booted := true } }
    if t.lc.state = .scrapped then t.enterLandfall 7
    else if t.pins.strap then t.enterLandfall 1
    else if t.boot.forceReason = 9 then t.enterLandfall 9
    else
      let (u, k, isTry) := t.chooseSlot
      match u.bootSlot k with
      | none => u.enterLandfall 3
      | some k' => (u.handOver k' (isTry && k' == k)).firstStage k' env

/-- BOOT: it runs once after each reset. -/
def execBoot (env : BootEnv) (s : State) : Out := done s (if s.boot.booted then s else s.bootRun env)

end Sys2Proof.Machine
end

