-- ==== Sys2Proof/Machine/Code.lean ====
section
/-! DEFINITION. Family 0x4: HQC and Classic McEliece (07_code_and_classical.md R152-R163). -/

namespace Sys2Proof.Machine

/-- HQC_KEYGEN: its seeds are drawn (R156). -/
def execHqcKeygen (j : Nat) (s : State) : Out := keygenRow 0x40 j s

/-- HQC_ENCAPS: m and the salt are drawn (R156). -/
def execHqcEncaps (j : Nat) (s : State) : Out := computeRow 0x41 j (fun s J => s.encapsOut J 64 false) s

/-- HQC_DECAPS. -/
def execHqcDecaps (j : Nat) (s : State) : Out := computeRow 0x42 j (fun s J => s.decapsOut J false) s

/-- MCELIECE_KEYGEN: the private and the public key are two keys; a zero DST writes nothing; the returned value holds the
public-key handle and the attempts (R155, R160, R161). -/
def execMcelieceKeygen (j : Nat) (s : State) : Out :=
  computeRow 0x44 j (fun s J =>
    let P := makePair J.opcode s.draws (if J.pbit 12 then some (J.auxPart 0) else none)
    let alg := algOf J.opcode
    let out := if J.dst = 0 then [] else P.pk
    if P.bad then (runaway, P.draws)
    else ({ output := out, result := s.newHandle J 0 + out.length * 2 ^ 32,
            ret := le 4 (s.newHandle J 1) ++ le 2 P.tries,
            keys := J.newKey 0 (defaultKey alg .priv J.fn P.sk P.pk none) ++
              J.newKey 1 (defaultKey alg .pub J.fn P.pk [] none) }, P.draws)) s

/-- MCELIECE_ENCAPS: one error vector is drawn (R163). -/
def execMcelieceEncaps (j : Nat) (s : State) : Out := computeRow 0x45 j (fun s J => s.encapsOut J 32 false) s

/-- MCELIECE_DECAPS. -/
def execMcelieceDecaps (j : Nat) (s : State) : Out := computeRow 0x46 j (fun s J => s.decapsOut J false) s

end Sys2Proof.Machine
end

