-- ==== Sys2Proof/Machine/Digest.lean ====
section
/-! DEFINITION. Family 0x7: the digest engine and its keyed slots (06_hash_signatures_and_digests.md R141-R151). -/

namespace Sys2Proof.Machine

/-! ### MACs and key derivation -/

/-- HMAC with a hash of the code table. -/
def hmac (c : Nat) (key msg : Bytes) : Bytes := prim (.hmac c) [key, msg] (hashLen c)

/-- KMAC or KMACXOF. -/
def kmac (c : Nat) (key msg cust : Bytes) (xof : Bool) (n : Nat) : Bytes :=
  prim (.kmac c) (if xof then [key, msg, cust, [1#8]] else [key, msg, cust]) n

/-- The blocks T(i) of HKDF-Expand, the first block's number and how many remain (RFC 5869). -/
def hkdfBlocks (c : Nat) (prk info : Bytes) : Nat → Nat → Bytes → Bytes
  | 0, _, _ => []
  | n + 1, i, prev =>
    let b := hmac c prk (prev ++ info ++ le 1 i)
    b ++ hkdfBlocks c prk info n (i + 1) b

/-- HKDF: one invocation keyed with the salt, then as many keyed with PRK as the length needs (R144). -/
def hkdf (c : Nat) (salt ikm info : Bytes) (n : Nat) : Bytes :=
  let prk := hmac c (if salt.isEmpty then zeros (hashLen c) else salt) ikm
  (hkdfBlocks c prk info (ceilDiv n (hashLen c)) 1 []).take n

/-- The counter-mode KDF (R143). -/
def counterKdf (prf : Bytes → Bytes) (w : Nat) (fixed : Bytes) (n : Nat) : Bytes :=
  ((List.range (ceilDiv n w)).flatMap fun i => prf (be 4 (i + 1) ++ fixed)).take n

/-! ### Results -/

/-- A digest or tag goes to DST, or, with LOGBOOK_DEST, into a logbook register (R142, R149). -/
def Job.digestOut (J : Job) (d : Bytes) : JobOut :=
  match J.logTarget with
  | some r => { extend := some (r, d) }
  | none => { output := d, result := d.length }

/-- DIGEST. -/
def execDigest (j : Nat) (s : State) : Out :=
  computeRow 0x70 j (fun _ J =>
    pureOut (J.digestOut (prim (.hash (psetOf J.opcode)) [J.input] (hashLen (psetOf J.opcode))))) s

/-- XOF: for cSHAKE the function name and the customisation stand at AUX, N first. -/
def execXof (j : Nat) (s : State) : Out :=
  computeRow 0x71 j (fun _ J =>
    let c := psetOf J.opcode
    let ns := if 0x23 ≤ c then [sliceOf J.auxIn 0 (J.pfield 39 32), sliceOf J.auxIn (J.pfield 39 32) (J.pfield 51 40)] else []
    pureOut (J.digestOut (prim (.hash c) (J.input :: ns) (J.pfield 31 0)))) s

/-- Length of an HMAC tag: OUT_LEN, or the full length when that is zero. -/
def Job.tagBytes (J : Job) : Nat := if J.pfield 31 0 = 0 then hashLen (psetOf J.opcode) else J.pfield 31 0

/-- The customisation string of a KMAC: the slot's, or the one at AUX. -/
def State.custOf (s : State) (J : Job) (off : Nat) : Bytes :=
  match J.slot.bind fun k => tget s.keys.slots k with
  | some b => b.cust
  | none => sliceOf J.auxIn off (J.pfield 51 40)

/-- The tag of an HMAC job. -/
def State.hmacTag (s : State) (J : Job) : Bytes := (hmac (psetOf J.opcode) (s.keyBytes J) J.input).take J.tagBytes

/-- The tag of a KMAC job whose customisation string is at an offset of AUX. -/
def State.kmacTag (s : State) (J : Job) (off : Nat) : Bytes :=
  kmac (psetOf J.opcode) (s.keyBytes J) J.input (s.custOf J off) (J.pbit 53) (J.pfield 31 0)

/-- HMAC_GENERATE. -/
def execHmacGenerate (j : Nat) (s : State) : Out :=
  computeRow 0x72 j (fun s J => pureOut (J.digestOut (s.hmacTag J))) s

/-- HMAC_VERIFY. -/
def execHmacVerify (j : Nat) (s : State) : Out :=
  computeRow 0x73 j (fun s J => pureOut (verdictOf (s.hmacTag J == J.auxIn.take J.tagBytes))) s

/-- KMAC_GENERATE. -/
def execKmacGenerate (j : Nat) (s : State) : Out :=
  computeRow 0x74 j (fun s J => pureOut (J.digestOut (s.kmacTag J 0))) s

/-- KMAC_VERIFY: the tag stands at AUX before the customisation string. -/
def execKmacVerify (j : Nat) (s : State) : Out :=
  computeRow 0x75 j (fun s J =>
    pureOut (verdictOf (s.kmacTag J (J.pfield 31 0) == J.auxIn.take (J.pfield 31 0)))) s

/-- HKDF: salt at SRC, info at AUX, the output a new key (R142). -/
def execHkdf (j : Nat) (s : State) : Out :=
  computeRow 0x76 j (fun s J =>
    pureOut (s.secretOut J (hkdf (psetOf J.opcode) J.input (s.keyBytes J) J.auxIn (J.pfield 31 0)) [])) s

/-- COUNTER_KDF (R143). -/
def execCounterKdf (j : Nat) (s : State) : Out :=
  computeRow 0x77 j (fun s J =>
    let c := psetOf J.opcode
    let key := s.keyBytes J
    let out := if c = 0x31 ∨ c = 0x32 then
        counterKdf (fun m => kmac c key m [] false (if c = 0x31 then 32 else 64)) (if c = 0x31 then 32 else 64) J.auxIn (J.pfield 31 0)
      else counterKdf (hmac c key) (hashLen c) J.auxIn (J.pfield 31 0)
    pureOut (s.secretOut J out [])) s

/-! ### Keyed slots (R146) -/

/-- Slots that other jobs are about to bind. -/
def State.slotsTaken (s : State) : List Nat := s.jobs.filterMap fun e => (e.2.out.bind (·.bind)).map (·.1)

/-- KEYED_SLOT_LOAD: the lowest free slot that has not retired; the handle holds its index and generation. -/
def execKeyedSlotLoad (j : Nat) (s : State) : Out :=
  computeRow 0x78 j (fun s J =>
    match lowestFree (fun k => (tget s.keys.slots k).isSome || 1048575 < s.slotGenOf k || s.slotsTaken.contains k) 4096 0 with
    | none => pureOut { status := St.ctxFull, result := 1 }
    | some k => pureOut {
        result := k + s.slotGenOf k * 4096,
        bind := some (k, { key := J.handle, code := J.pfield 7 0, cust := J.auxIn, fn := J.fn }) }) s

/-- KEYED_SLOT_DROP. -/
def execKeyedSlotDrop (j : Nat) (s : State) : Out :=
  computeRow 0x79 j (fun s J =>
    match s.slotOf J.fn J.handle with
    | some (k, _) => pureOut { drop := some k }
    | none => pureOut (keyFails false)) s

end Sys2Proof.Machine
end

