-- ==== Sys2Proof/Machine/Symm.lean ====
section
/-! DEFINITION. Family 0x6: AES modes, XTS, key wrap and ChaCha20-Poly1305 (08_symmetric.md R176-R197). The block
functions are free (log 1); nonces, counter blocks, data units, lengths and the order of tag and data are the spec's. -/

namespace Sys2Proof.Machine

/-! ### Nonces (R180) -/

/-- A nonce of `n` bytes: NODE_ID, two zero bits, and the counter value. -/
def nonceBytes (n node ctr : Nat) : Bytes := be n (node % 2 ^ 14 * 2 ^ (8 * n - 14) + ctr)

/-- The nonce of an encryption job. -/
def State.nonceOf (s : State) (J : Job) : Bytes :=
  nonceBytes (nonceLen J.opcode J.param.toNat) s.cluster.node (J.ctr.getD 0)

/-! ### Keystreams (R180, R193, R194) -/

/-- The counter blocks of GCM, of a generated CTR block and of a supplied one; of CCM; and of ChaCha20. -/
def counterBlock (op p : Nat) (nonce : Bytes) (i : Nat) : Bytes :=
  match kindOf op, operOf op with
  | .ctr, _ => if bitOf p 24 then be 16 ((fromBE nonce + i) % 2 ^ 128) else nonce ++ be 4 (i % 2 ^ 32)
  | _, 0 => nonce ++ be 4 ((i + 2) % 2 ^ 32)
  | _, 1 => nonce ++ be 4 ((i + 2) % 2 ^ 32)
  | _, 2 => le 1 (14 - nonce.length) ++ nonce ++ be (15 - nonce.length) (i + 1)
  | _, 3 => le 1 (14 - nonce.length) ++ nonce ++ be (15 - nonce.length) (i + 1)
  | _, _ => le 4 (i + 1) ++ nonce

/-- The data of a stream job under its nonce or counter block. -/
def State.streamed (s : State) (J : Job) (nonce : Bytes) : Bytes :=
  let cha := decide (9 ≤ operOf J.opcode)
  underStream (if cha then 0x6900 else 0x6000) (if cha then 64 else 16) (s.keyBytes J)
    (counterBlock J.opcode J.param.toNat nonce) J.input

/-- The tag of an authenticated mode over its ciphertext: one function for both directions of GCM (0), CCM (1) and
ChaCha20-Poly1305 (4); CCM's first block holds the tag length (SP 800-38C). -/
def State.aeadTag (s : State) (J : Job) (nonce aad text : Bytes) : Bytes :=
  let n := tagLen J.opcode J.param.toNat
  let mode := if 9 ≤ operOf J.opcode then 4 else operOf J.opcode / 2
  prim (.aeadTag mode) ([s.keyBytes J, nonce, aad, text] ++ (if mode = 1 then [le 1 n] else [])) n

/-- All of the job's input is here. -/
def Job.whole (J : Job) : Bool := decide (J.totalLen ≤ J.input.length)

/-- An authenticated encryption: ciphertext, then tag; the nonce is returned (R178, R185). -/
def sealRow (hi j : Nat) (s : State) : Out :=
  computeRow hi j (fun s J =>
    let nonce := s.nonceOf J
    let c := s.streamed J nonce
    let out := if J.whole then c ++ s.aeadTag J nonce J.auxIn c else c
    pureOut { output := out, result := out.length, ret := nonce }) s

/-- An authenticated decryption: AUX holds nonce, tag and associated data; a tag that differs is TAG_FAIL (R178, R197). -/
def openRow (hi j : Nat) (s : State) : Out :=
  computeRow hi j (fun s J =>
    let p := J.param.toNat
    let nl := nonceLen J.opcode p
    let tl := tagLen J.opcode p
    let nonce := J.auxIn.take nl
    let bad := J.whole && s.aeadTag J nonce (J.auxIn.drop (nl + tl)) J.input != sliceOf J.auxIn nl tl
    let m := s.streamed J nonce
    pureOut { status := if bad then St.tagFail else St.ok, output := m, result := if bad then 0 else m.length }) s

/-- AES_GCM_ENCRYPT. -/
def execAesGcmEncrypt (j : Nat) (s : State) : Out := sealRow 0x60 j s
/-- AES_GCM_DECRYPT. -/
def execAesGcmDecrypt (j : Nat) (s : State) : Out := openRow 0x61 j s
/-- AES_CCM_ENCRYPT. -/
def execAesCcmEncrypt (j : Nat) (s : State) : Out := sealRow 0x62 j s
/-- AES_CCM_DECRYPT. -/
def execAesCcmDecrypt (j : Nat) (s : State) : Out := openRow 0x63 j s
/-- CHACHA20_POLY1305_SEAL. -/
def execChacha20Poly1305Seal (j : Nat) (s : State) : Out := sealRow 0x69 j s
/-- CHACHA20_POLY1305_OPEN. -/
def execChacha20Poly1305Open (j : Nat) (s : State) : Out := openRow 0x6A j s

/-- AES_CTR: a supplied block is incremented whole; of a generated one only the low 32 bits (R194). -/
def execAesCtr (j : Nat) (s : State) : Out :=
  computeRow 0x64 j (fun s J =>
    let sup := J.pbit 24
    let nonce := if sup then J.auxIn else nonceBytes 12 s.cluster.node (J.ctr.getD 0)
    let c := s.streamed J nonce
    pureOut { output := c, result := c.length, ret := if sup then [] else nonce }) s

/-! ### XTS (R195) -/

/-- The whole data units of a string, each under its own number. -/
def xtsUnits (enc : Bool) (key : Bytes) (u tweak : Nat) (data : Bytes) : Bytes :=
  (List.range (data.length / u)).flatMap fun i =>
    prim (.xts 0x6500 enc) [key, le 16 ((tweak + i) % 2 ^ 128), sliceOf data (u * i) u] u

/-- XTS in one direction; a key whose halves are equal is KEY_INVALID. -/
def xtsRow (hi j : Nat) (enc : Bool) (s : State) : Out :=
  computeRow hi j (fun s J =>
    let key := s.keyBytes J
    if key.take (key.length / 2) = key.drop (key.length / 2) then pureOut (keyFails false)
    else
      let c := xtsUnits enc key (J.pfield 56 32) (fromLE J.auxIn) J.input
      pureOut { output := c, result := c.length }) s

/-- XTS_AES_ENCRYPT. -/
def execXtsAesEncrypt (j : Nat) (s : State) : Out := xtsRow 0x65 j true s
/-- XTS_AES_DECRYPT. -/
def execXtsAesDecrypt (j : Nat) (s : State) : Out := xtsRow 0x66 j false s

/-! ### Key wrap (R196) -/

/-- Bytes wrapped under KW or KWP. -/
def wrapBytes (kwp : Bool) (key m : Bytes) : Bytes := prim (.wrap kwp) [key, m] (8 * ceilDiv m.length 8 + 8)

/-- Bytes unwrapped, where the integrity check holds: wrapping them again gives the input. -/
def unwrapBytes (kwp : Bool) (key c : Bytes) : Option Bytes :=
  let n := if kwp then c.length - 15 + Config.primNat (.unwrap kwp) [key, c] % 8 else c.length - 8
  let m := prim (.unwrap kwp) [key, c] n
  if wrapBytes kwp key m = c then some m else none

/-- AES_KW_WRAP. -/
def execAesKwWrap (j : Nat) (s : State) : Out :=
  computeRow 0x67 j (fun s J =>
    let c := wrapBytes (J.pbit 25) (s.keyBytes J) J.input
    pureOut { output := c, result := c.length }) s

/-- AES_KW_UNWRAP: a failed integrity check is TAG_FAIL. -/
def execAesKwUnwrap (j : Nat) (s : State) : Out :=
  computeRow 0x68 j (fun s J =>
    match unwrapBytes (J.pbit 25) (s.keyBytes J) J.input with
    | some m => pureOut { output := m, result := m.length }
    | none => pureOut { status := St.tagFail }) s

end Sys2Proof.Machine
end

