-- ==== Sys2Proof/Machine/KeyStore.lean ====
section
/-! DEFINITION. Family 0x8: the key management jobs, and the writes of the cache partitions (09_key_store.md R211-R220). -/

namespace Sys2Proof.Machine

/-! ### GENERATE (R214) -/

/-- GENERATE: a SECRET key draws its bytes; a PRIVATE key runs its family's keygen and returns the public key. -/
def State.generateOut (s : State) (J : Job) : Result :=
  let T := parseTemplate J.auxIn
  if templateKind T = .secret then
    ({ result := s.newHandle J 0, keys := J.newKey 0 (templateKey T (drbgBytes s.draws T.len) [] false) }, T.len)
  else
    let P := makePair T.alg s.draws (if J.pbit 12 then some (J.auxPart 1) else none)
    let out := if J.dst = 0 then [] else P.pk
    if P.bad then (runaway, P.draws)
    else
      let two := decide (T.alg / 0x100 = 0x44)
      ({ output := out, result := s.newHandle J 0 + out.length * 2 ^ 32,
         ret := if two then le 4 (s.newHandle J 1) ++ le 2 P.tries else [],
         keys := J.newKey 0 (templateKey T P.sk P.pk false) ++
           (if two then J.newKey 1 (defaultKey T.alg .pub J.fn P.pk [] none) else []) }, P.draws)

/-- GENERATE. -/
def execGenerateKey (j : Nat) (s : State) : Out := computeRow 0x80 j (fun s J => s.generateOut J) s

/-! ### IMPORT (R215, R216) -/

/-- The shared key of a hybrid envelope. -/
def envelopeKey (ssKem ssX ct epk pub : Bytes) : Bytes :=
  kmac256 (ssKem ++ ssX) (ct ++ epk ++ pub) (ascii "psibuaz-import") 32

/-- The payload of a hybrid envelope for the import key of a handle, where it opens (R216). -/
def openEnvelope (handle : Nat) (sk env : Bytes) : Option Bytes :=
  let ct := sliceOf env 12 1088
  let epk := sliceOf env 1100 32
  let n := leAt env 1132 4
  let kem := sk.take 2400
  let x := sk.drop 2400
  let ssX := montgomery 0x5701 x epk
  let key := envelopeKey (prim (.decaps 0x1002) [kem, ct] 32) ssX ct epk (pubOf 0x5701 x)
  if leAt env 0 4 = 0x4B455A50 ∧ leAt env 4 2 = 1 ∧ leAt env 6 2 = 0 ∧ leAt env 8 4 = handle ∧
      env.length = 1136 + n + 16 ∧ ¬ allZero ssX then
    gcmOpen key (zeros 12) (env.take 1136) (env.drop 1136)
  else none

/-- A hybrid envelope to a recipient's public key, from 64 drawn bytes (R216, R218). -/
def makeEnvelope (handle : Nat) (pub payload rnd : Bytes) : Bytes :=
  let ek := pub.take 1184
  let px := pub.drop 1184
  let r := prim (.encaps 0x1002) [ek, rnd.take 32] (1088 + 32)
  let ct := r.take 1088
  let x := prim (.privateKey 0x5701) [rnd.drop 32] 32
  let epk := pubOf 0x5701 x
  let key := envelopeKey (r.drop 1088) (montgomery 0x5701 x px) ct epk px
  let head := le 4 0x4B455A50 ++ le 2 1 ++ zeros 2 ++ le 4 handle ++ ct ++ epk ++ le 4 payload.length
  head ++ gcmSeal key (zeros 12) head payload

/-- A length that an algorithm gives for key material. -/
def materialFits (T : Template) (len : Nat) : Bool :=
  match templateKind T with
  | .secret => secretFits T.alg len
  | .priv => skLen T.alg == len || T.alg / 0x100 == 0x59
  | .pub => publicFits T.alg len

/-- A public key passes its standard's check; every ML-DSA and SLH-DSA key of the right length does (05, R106). -/
def publicOk (alg : Nat) (pk : Bytes) : Bool :=
  if stateful alg then statefulPubOk alg pk
  else if alg / 0x100 = 0x20 ∨ alg / 0x100 = 0x30 then true
  else if alg / 0x100 = 0x59 then (rsaParse (psetOf alg) pk).isSome
  else if alg / 0x100 = 0x54 then edKeyOk alg pk
  else Config.primBool (.keyCheck alg) [pk]

/-- The stores that a key from a blob needs (R220): its owner's quota, the persistent area and a counter record. -/
def State.blobRoom (s : State) (J : Job) (T : Template) (len : Nat) : Option Nat :=
  let pers := T.flags.getLsbD 1
  if s.quotaOf T.owner ≤ s.liveOf T.owner then some 5
  else if pers ∧ s.persistFull J.newIdx len then some 3
  else if pers ∧ s.recordsFull J.newIdx then some 2 else none

/-- A key comes in with its template (R215, R220, R131). -/
def State.importOut (s : State) (J : Job) (T : Template) (m : Bytes) : JobOut :=
  if stateful T.alg ∧ templateKind T = .priv then { status := St.policyDeny }
  else if ¬ templateOk T J.fn ∨ T.len ≠ m.length ∨ ¬ materialFits T m.length then { status := St.malformed }
  else if templateKind T = .pub ∧ ¬ publicOk T.alg m then keyFails false
  else match s.blobRoom J T m.length with
  | some r => { status := St.ctxFull, result := r }
  | none =>
    { result := s.newHandle J 0,
      keys := J.newKey 0 (templateKey T m (if templateKind T = .priv then pubOf T.alg m else []) true) }

/-- IMPORT: a blob that does not open is TAG_FAIL. -/
def execImportKey (j : Nat) (s : State) : Out :=
  computeRow 0x81 j (fun s J =>
    let f := J.pfield 3 0
    let key := s.keyBytes J
    let payload := if f = 3 then some (J.auxIn.take 64 ++ J.input)
      else if f = 1 then (if key.length = 32 then unwrapBytes true key J.input else none)
      else openEnvelope J.handle key J.input
    match payload with
    | none => pureOut { status := St.tagFail }
    | some b => pureOut (s.importOut J (parseTemplate (b.take 64)) (b.drop 64))) s

/-! ### EXPORT_WRAPPED (R218) -/

/-- The record of a key as a template: the fields marked device are zero. -/
def exportRecord (K : Key) : Bytes :=
  attrBytes { K with flags := K.flags &&& 7#8, uses := 0, created := 0, parent := 0, ctr := 0 }

/-- EXPORT_WRAPPED. -/
def execExportWrapped (j : Nat) (s : State) : Out :=
  computeRow 0x82 j (fun s J =>
    let w := J.pfield 31 0
    let f := J.pfield 35 32
    match J.pin.bind s.key? with
    | none => pureOut (keyFails false)
    | some K =>
      let payload := exportRecord K ++ K.material
      let kek := ((s.keyByHandle w).map (·.material)).getD []
      let blob := if f = 3 then K.material
        else if f = 1 then wrapBytes true kek payload
        else makeEnvelope w kek payload (drbgBytes s.draws 64)
      ({ output := blob, result := blob.length }, if f = 2 then 64 else 0)) s

/-! ### DESTROY, GET_ATTRIBUTES, GET_IMPORT_KEY (R213, R217, R219) -/

/-- DESTROY: the key, invisible since admission, is scrubbed; DESTROY_SCRUB ends it. -/
def execDestroyKey (j : Nat) (s : State) : Out := computeRow 0x83 j (fun _ _ => pureOut {}) s

/-- GET_ATTRIBUTES: the record, then the material of a PUBLIC key. -/
def execGetAttributes (j : Nat) (s : State) : Out :=
  computeRow 0x84 j (fun s J =>
    match s.jobKey J with
    | none => pureOut (keyFails false)
    | some K =>
      let b := attrBytes K ++ (if K.kind = .pub then K.material else [])
      pureOut { output := b, result := b.length }) s

/-- GET_IMPORT_KEY: a session key of ALG 0x8101; its two public keys, its handle, and the alias signature over them. -/
def execGetImportKey (j : Nat) (s : State) : Out :=
  computeRow 0x85 j (fun s J =>
    let kem := prim (.privateKey 0x1002) [drbgBytes s.draws 64] 2400
    let x := prim (.privateKey 0x5701) [drbgBytes (s.draws + 64) 32] 32
    let h := s.newHandle J 0
    let pub := pubOf 0x1002 kem ++ pubOf 0x5701 x
    let body := pub ++ le 4 h
    ({ output := body ++ s.aliasSign (ascii "psibuaz-impkey") body (s.draws + 96), result := h,
       keys := J.newKey 0 { alg := 0x8101, kind := .priv, usage := 0x1000#32, owner := J.fn, expPol := 0, minAl := 1,
                            limit := J.pfield 15 0, material := kem ++ x, pubPart := pub } }, 128)) s

/-! ### Cache partitions (R211) -/

/-- Two slot ranges meet. -/
def slotsMeet (a b : Nat × Nat) : Bool := decide (0 < a.2 ∧ 0 < b.2 ∧ a.1 < b.1 + b.2 ∧ b.1 < a.1 + a.2)

/-- The partition of a function as last written. -/
def State.partWritten (s : State) (f : Nat) : Nat × Nat := (tget s.keys.partNext f).getD (s.partitionOf f)

/-- A write of KEY.CACHE_QUOTA[f]: one that would overlap another partition or end past slot 32,768 is discarded and sets
QUOTA_ERR; a valid one takes effect at the next tick. -/
def State.writePartition (s : State) (f : Nat) (v : BitVec 32) : State :=
  let p := (bitsOf v.toNat 14 0, bitsOf v.toNat 31 16)
  if 32768 < p.1 + p.2 ∨ ((List.range 0x102).any fun g => g != f && slotsMeet p (s.partWritten g)) then
    { s with keys := { s.keys with quotaErr := true } }
  else { s with keys := { s.keys with partNext := tput s.keys.partNext f p } }

/-- KEY_CACHE_QUOTA_WRITE. -/
def execKeyCacheQuotaWrite (f : Nat) (value : BitVec 32) (s : State) : Out :=
  within (decide (f ≤ 0x101)) s (managed s (s.writePartition f value))

/-! ### The staging overflow region (12, R297) -/

/-- A write of RECK.OVERFLOW_CFG: discarded whole when a field lies outside its range. -/
def State.writeOverflow (s : State) (v : BitVec 32) : State :=
  let m := bitsOf v.toNat 11 0
  let n := bitsOf v.toNat 27 12
  if 2 ≤ m ∧ 64 ≤ n then s.setReg 0x30038 (m + n * 4096) else s

/-- OVERFLOW_CFG_WRITE. -/
def execOverflowCfgWrite (value : BitVec 32) (s : State) : Out := done s (managed s (s.writeOverflow value))

end Sys2Proof.Machine
end

