-- ==== Sys2Proof/Machine/Logbook.lean ====
section
/-! DEFINITION. The manager's logbook commands and the export of audit records (15_logbook_attestation.md R355, R357,
R360, R361). -/

namespace Sys2Proof.Machine

/-- A write of LOG.ROLL: an open register rolls once the extends reserved before the write are settled. -/
def State.writeRoll (s : State) (v : BitVec 32) : State :=
  let r := v.toNat % 64
  if r < 16 ∨ (s.logReg r).epoch = 0xFFFF then s else s.logBarrier r .roll

/-- LOG_ROLL. -/
def execLogRoll (value : BitVec 32) (s : State) : Out := done s (managed s (s.writeRoll value))

/-- A write of LOG.OWNER[r]: the new owner counts at once; the OWNER_CHANGE record follows the extends already reserved. -/
def State.writeOwner (s : State) (r : Nat) (v : BitVec 32) : State :=
  let new := v.toNat % 512
  if r < 16 ∨ 64 ≤ r then s
  else (s.modLog r fun L => { L with owner := new }).logBarrier r (.ownerChange (s.logReg r).owner new)

/-- LOG_OWNER. -/
def execLogOwner (r : Nat) (value : BitVec 32) (s : State) : Out := within (decide (r < 64)) s (managed s (s.writeOwner r value))

/-- The export ring has a free entry. -/
def Logbook.ringRoom (l : Logbook) : Bool := decide (diff32 l.tail l.head < 2 ^ l.log2)

/-- The oldest record goes to the export ring; its slot in the region is free again. -/
def State.exportOne (s : State) : State :=
  match s.log.records with
  | [] => s
  | r :: rest =>
    let a := s.log.base + 256 * (s.log.tail.toNat % 2 ^ s.log.log2)
    if ¬ s.log.exportOn ∨ ¬ s.log.ringRoom ∨ (s.writeFault a 256).isSome then s
    else
      let t := s.hostWrite a r
      { t with log := { t.log with
        records := rest, tail := t.log.tail + 1,
        nearFull := t.log.nearFull && decide (t.log.capacity ≤ rest.length + t.log.reserve) } }

/-- Every record that the ring takes. -/
def State.exportAll (s : State) : Nat → State
  | 0 => s
  | n + 1 => s.exportOne.exportAll n

/-- AUDIT_EXPORT: records are copied in sequence order as far as the ring has room. -/
def execAuditExport (t : Nat) (s : State) : Out := done s ((s.at_ t).exportAll s.log.records.length)

/-- A write of AUDIT.EXPORT_HEAD under the index rules of the rings (10_job_rings.md R228, R229). -/
def State.writeExportHead (s : State) (v : BitVec 32) : State :=
  if diff32 v s.log.head ≤ diff32 s.log.tail s.log.head then { s with log := { s.log with head := v } }
  else { s with log := { s.log with headErr := true } }

/-- AUDIT_EXPORT_HEAD. -/
def execAuditExportHead (value : BitVec 32) (s : State) : Out := done s (managed s (s.writeExportHead value))

/-- A write of AUDIT.REGION_MIB goes to the NVS. -/
def State.writeRegionMib (s : State) (v : BitVec 32) : State :=
  let n := v.toNat % 65536
  if n < 256 then s else { s with log := { s.log with nextMib := some n } }

/-- AUDIT_REGION_MIB. -/
def execAuditRegionMib (value : BitVec 32) (s : State) : Out := done s (managed s (s.writeRegionMib value))

end Sys2Proof.Machine
end

