-- ==== Sys2Proof/Machine/Recovery.lean ====
section
/-! DEFINITION. The recovery protocol, the UART's text commands and the management port's neighbour answer
(20_boot_landfall.md R463-R467). -/

namespace Sys2Proof.Machine

/-! ### What the answers show (R467, R468) -/

/-- BOOT.STATUS as it reads. -/
def State.bootStatus (s : State) : Nat :=
  let B := s.boot
  B.phase % 8 + 8 * b2n B.ready + 16 * B.reason + 256 * ((B.bundle.map (·.slot)).getD 0) + 512 * b2n B.tryBoot +
  1024 * b2n s.pins.strap

/-- Progress slot `i`. -/
def State.prog (s : State) (i : Nat) : Progress := (tget s.progress i).getD {}

/-- PROGRESS.OP of a slot. -/
def Progress.opWord (p : Progress) : Nat := p.op + 2 ^ 16 * p.state + 2 ^ 18 * p.fn

/-- PROGRESS_PERMILLE. -/
def Progress.permille (p : Progress) : Nat := if p.total = 0 then 0 else 1000 * p.pos / p.total

/-- The 16 slots, 32 bytes each as their registers lie. -/
def State.progressAll (s : State) : Bytes :=
  (List.range 16).flatMap fun i =>
    let p := s.prog i
    le 4 p.opWord ++ zeros 4 ++ le 8 p.pos ++ le 8 p.total ++ le 4 p.permille ++ zeros 4

/-! ### Messages (R465) -/

/-- The carriers' numbers. -/
def rcvIdx : RcvPort → Nat
  | .management => 0 | .pf => 1

/-- A response. -/
def rcvMessage (op status seq : Nat) (body : Bytes) : Bytes :=
  le 4 0x56434552 ++ le 1 1 ++ le 1 (op + 0x80) ++ le 2 status ++ le 4 seq ++ le 4 body.length ++ body

/-- A response leaves by its carrier: the management port, or host memory at RCV.RESP_ADDR. -/
def State.rcvSend (s : State) (tr : RcvPort) (addr : Nat) (m : Bytes) : State :=
  match tr with
  | .management => s.emit (.recovery .management m)
  | .pf => if (s.writeFault addr m.length).isSome then s else s.hostWrite addr m

/-- The recovery protocol serves a carrier: in Landfall mode, the PF's while its BAR0 answers. -/
def State.rcvOn (s : State) (tr : RcvPort) : Bool := s.boot.landfall && (tr == .management || !s.host.d3hot)

/-- A request: the SEQ answered last receives its answer again; SCRAPPED serves HELLO alone; else it acts, and is answered
with a status and a body. -/
def State.recovery (s : State) (tr : RcvPort) (seq op : Nat) (f : State → State × Nat × Bytes) : State :=
  let addr := s.reg 0xE2008
  if ¬ s.rcvOn tr ∨ (s.lc.state = .scrapped ∧ op ≠ 1) then s
  else if tget s.boot.rcvSeq (rcvIdx tr) = some seq then s.rcvSend tr addr ((tget s.boot.rcvAnswer (rcvIdx tr)).getD [])
  else
    let (t, status, body) := f s
    let m := rcvMessage op status seq body
    let u := { t with boot := { t.boot with
      rcvSeq := tput t.boot.rcvSeq (rcvIdx tr) seq, rcvAnswer := tput t.boot.rcvAnswer (rcvIdx tr) m } }
    u.rcvSend tr addr m

/-- HELLO. -/
def execHello (tr : RcvPort) (seq : Nat) (s : State) : Out :=
  done s (s.recovery tr seq 0x01 fun u => (u, 0, u.challenge ++ le 4 u.lcState ++ le 4 u.bootStatus))

/-- READ_PROGRESS. -/
def execReadProgress (tr : RcvPort) (seq : Nat) (s : State) : Out :=
  done s (s.recovery tr seq 0x02 fun u => (u, 0, u.progressAll))

/-- A chunk's body: an 8-byte offset and up to 1,024 bytes, which lie within `size` bytes. -/
def chunkOk (body : Bytes) (size : Nat) : Bool :=
  decide (8 ≤ body.length) && decide (body.length ≤ 1032) && decide (leAt body 0 8 + (body.length - 8) ≤ size)

/-- A chunk laid over what is there. -/
def putChunk (old body : Bytes) : Bytes := overlay old (leAt body 0 8) (body.drop 8)

/-- FW_WRITE: a chunk of a bundle, to the slot that is not ACTIVE. -/
def execFwWrite (tr : RcvPort) (seq : Nat) (body : List Byte) (s : State) : Out :=
  done s (s.recovery tr seq 0x03 fun u =>
    if chunkOk body 25165824 then
      let k := 1 - u.flash.active
      ({ u with flash := u.flash.putSlot k (putChunk (u.flash.slot k) body) }, 0, [])
    else (u, 1, []))

/-- FW_FINISH: R460 from its step 2 on that slot. -/
def execFwFinish (tr : RcvPort) (seq : Nat) (body : List Byte) (s : State) : Out :=
  done s (s.recovery tr seq 0x04 fun u =>
    let k := 1 - u.flash.active
    let b := (u.flash.slot k).take (leAt body 0 4)
    if u.fwBusyNow then (u.fwEnds 6, 6, [])
    else if body.length ≠ 4 ∨ bundleLen b ≠ leAt body 0 4 then (u.fwEnds 1, 1, [])
    else
      let t := u.stageBundle b k
      (t, t.boot.fwReason, []))

/-- AUTH_WRITE: a chunk of an authorisation block. -/
def execAuthWrite (tr : RcvPort) (seq : Nat) (body : List Byte) (s : State) : Out :=
  done s (s.recovery tr seq 0x05 fun u =>
    if chunkOk body 65536 then ({ u with boot := { u.boot with authBuf := putChunk u.boot.authBuf body } }, 0, [])
    else (u, 1, []))

/-- AUTH_SUBMIT: as through LC.CTRL; the block's KIND says whether it is a transition or a debug request. -/
def execAuthSubmit (tr : RcvPort) (seq : Nat) (t : Nat) (s : State) : Out :=
  done s ((s.at_ t).recovery tr seq 0x06 fun u =>
    let b := u.boot.authBuf
    let v := { u with boot := { u.boot with authBuf := [] } }
    let (w, r) := v.submitAuth b (if leAt b 6 1 = 2 then 2 else 1)
    (w, r, []))

/-- CHART_WRITE: a chunk of a chart, to the chart area. -/
def execChartWrite (tr : RcvPort) (seq : Nat) (body : List Byte) (s : State) : Out :=
  done s (s.recovery tr seq 0x07 fun u =>
    if chunkOk body 1048576 then ({ u with flash := { u.flash with chartArea := putChunk u.flash.chartArea body } }, 0, [])
    else (u, 1, []))

/-- CHART_FINISH: the checks of R63 on the chart area, SAFE before any other; a refused image is the last refused chart (03, R76). -/
def execChartFinish (tr : RcvPort) (seq : Nat) (body : List Byte) (s : State) : Out :=
  done s (s.recovery tr seq 0x08 fun u =>
    let img := u.flash.chartArea.take (if body.length = 4 then leAt body 0 4 else leAt u.flash.chartArea 0xC 4)
    let r := if u.faults.safe.on then 0x000C else (u.chartRefused img false).getD 0
    (if r = 0 then u else { u with chart := { u.chart with lastReason := r } }, r, []))

/-- The self-tests on demand; a failure that R463 gives to Landfall mode shows as its reason. -/
def State.testAgain (s : State) (r : TestResults) : State :=
  let t := s.selfTests r
  if s.testsPass r then t else { t with boot := { t.boot with reason := 6 } }

/-- SELF_TEST. -/
def execSelfTest (tr : RcvPort) (seq : Nat) (res : TestResults) (s : State) : Out :=
  done s (s.recovery tr seq 0x09 fun u => (u.testAgain res, 0, []))

/-- RECOVERY_RESET: a normal boot, or one that stays in Landfall mode. -/
def execRecoveryReset (tr : RcvPort) (seq : Nat) (body : List Byte) (s : State) : Out :=
  done s (s.recovery tr seq 0x0A fun u =>
    if body = [0#8] then (u.deviceReset, 0, [])
    else if body = [1#8] then (u.landfallReset, 0, [])
    else (u, 1, []))

/-! ### The UART (R466) -/

/-- A text command is taken: in Landfall mode; in SCRAPPED only what reads the life cycle (19, R439; log 50). -/
def State.uartOn (s : State) : Bool := s.boot.landfall && s.lc.state != .scrapped

/-- UART_STATE. -/
def execUartState (s : State) : Out :=
  done s (if s.boot.landfall then
    (s.emit (.uart (uartNat "state " s.lcState))).emit (.uart (uartNat "boot " s.bootStatus)) else s)

/-- UART_PROGRESS: the slots that hold an operation. -/
def execUartProgress (s : State) : Out :=
  done s (if s.uartOn then
    eachOf (List.range 16) (fun u i =>
      let p := u.prog i
      if p.state = 0 then u
      else u.emit (.uart (uartNat "progress " p.op ++ uartNat " " p.pos ++ uartNat " " p.total))) s
  else s)

/-- UART_SELFTEST. -/
def execUartSelftest (res : TestResults) (s : State) : Out := done s (if s.uartOn then s.testAgain res else s)

/-- UART_RESET. -/
def execUartReset (landfall : Bool) (s : State) : Out :=
  done s (if s.uartOn then (if landfall then s.landfallReset else s.deviceReset) else s)

/-! ### The management port's address (R465) -/

/-- The management MAC of OTP: the last of the MAC addresses. -/
def State.managementMac (s : State) : Bytes := fit 6 (s.lc.mac.drop (s.lc.mac.length - 6))

/-- The IPv6 link-local address of a MAC (RFC 4291, modified EUI-64; log 50). -/
def linkLocal (mac : Bytes) : Bytes :=
  [0xFE#8, 0x80#8] ++ zeros 6 ++ (mac.take 1).map (· ^^^ 2#8) ++ sliceOf mac 1 2 ++ [0xFF#8, 0xFE#8] ++ sliceOf mac 3 3

/-- NEIGHBOUR_SOLICITATION: the port answers for its own address, with its MAC, in Landfall mode. -/
def execNeighbourSolicitation (target : List Byte) (s : State) : Out :=
  done s (
    if s.boot.landfall ∧ s.lc.state ≠ .scrapped ∧ target = linkLocal s.managementMac then
      s.emit (.neighbour (target ++ s.managementMac))
    else s)

end Sys2Proof.Machine
end

