-- ==== Sys2Proof/Machine/Time.lean ====
section
/-! DEFINITION. The Almanac's disciplines and corrections, PTP messages on the slow path, and the pulse output
(14_partners_ports_time.md R346-R351). -/

namespace Sys2Proof.Machine

/-- ALM.REFUSED advances (R348). -/
def State.almRefuse (s : State) : State := s.bump 0x9002C

/-- The selected source has locked; under SIGNED_ONLY that does not make the Almanac trusted (R349). -/
def State.lockGained (s : State) : State :=
  if s.time.signedOnly then s else s.gainTrust

/-! ### Sources (R346) -/

/-- A change of discipline: lock starts again. -/
def State.almSource (s : State) (v : Nat) : State :=
  let n := v % 4
  if n = 3 ∨ n = s.time.source then s
  else { s with time := { s.time with source := n, locked := false, lockRun := 0, lastAdj := none, servo := .none } }.timeEvent 3
    s.time.almanac s.time.almanac

/-- ALM_SOURCE: a write of ALM.CFG.SOURCE. -/
def execAlmSource (value : BitVec 32) (s : State) : Out := done s (managed s (s.almSource value.toNat))

/-- SIGNED_ONLY can only be set. -/
def State.setSignedOnly (s : State) : State := { s with time := { s.time with signedOnly := true } }

/-- SIGNED_ONLY. -/
def execSignedOnly (s : State) : Out := done s (managed s s.setSignedOnly)

/-- The phase that the servo sets out to correct after an edge: its law is the servo's own (log 40). -/
def servoFor (err : Int) (n : Nat) : Slew :=
  let m := err.natAbs
  let k := Config.primNat (.image 5) [le 8 m, le 8 n] % (2 * m + 1)
  if k ≤ m then .lose 1000 (m - k) 0 else .gain 1000 (k - m) 0

/-- PPS_IN_EDGE: the error of the edge, and under SOURCE 1 the lock and the servo. -/
def execPpsInEdge (errNs : Int) (t : Nat) (s : State) : Out :=
  let u := s.at_ t
  let T := u.time
  done s (
    if T.source ≠ 1 then { u with time := { T with ppsErr := errNs } }
    else
      let run := if errNs.natAbs ≤ 100 then T.lockRun + 1 else 0
      let locked := if 1000 < errNs.natAbs then false else T.locked || decide (8 ≤ run)
      let v := { u with time := { T with ppsErr := errNs, lockRun := run, locked := locked, servo := servoFor errNs T.elapsed } }
      if locked ∧ ¬ T.locked then v.lockGained else v)

/-- PPS_LOCK_LOSS: three edges are missed. -/
def execPpsLockLoss (t : Nat) (s : State) : Out :=
  let u := s.at_ t
  done s (if u.time.source = 1 then { u with time := { u.time with locked := false, lockRun := 0 } } else u)

/-! ### Corrections by the host (R348) -/

/-- The corrections of the last 3,600 s. -/
def recentCorrections (T : TimeState) : List (Nat × Nat) := T.accepted.filter fun e => decide (T.elapsed < e.1 + 3600000000000)

/-- An offset that is applied: forward at once, backward as a slew at 1,000 ppm. -/
def TimeState.offset (T : TimeState) (v : Int) : TimeState :=
  if 0 ≤ v then { T with almanac := T.almanac + v.toNat }.sync
  else match T.slew with
  | .lose k r c => { T with slew := .lose k (r + v.natAbs) c }
  | _ => { T with slew := .lose 1000 v.natAbs 0 }

/-- The run of small offsets, at least 100 ms apart. -/
def offsetRun (T : TimeState) (m : Nat) : Nat :=
  if 1000 < m then 0
  else if T.lastAdj.any fun l => decide (T.elapsed < l + 100000000) then 1
  else T.lockRun + 1

/-- A write of ALM.ADJ_OFFSET. -/
def State.adjOffset (s : State) (v : Int) : State :=
  let T := s.time
  let m := v.natAbs
  if T.source ≠ 2 ∨ T.stepBound < ((recentCorrections T).map (·.2)).sum + m then s.almRefuse
  else
    let run := offsetRun T m
    let locked := if 10000 < m then false else T.locked || decide (16 ≤ run)
    let U := T.offset v
    let t := { s with time := { U with
      accepted := (T.elapsed, m) :: recentCorrections T, lockRun := run, lastAdj := some T.elapsed, locked := locked } }
    if locked ∧ ¬ T.locked then t.lockGained else t

/-- ALM_ADJ_OFFSET. -/
def execAlmAdjOffset (value : BitVec 64) (s : State) : Out := done s (managed s (s.adjOffset value.toInt))

/-- A write of ALM.ADJ_FREQ. -/
def State.setAdjFreq (s : State) (v : Int) : State :=
  if v.natAbs ≤ 100000 then { s with time := { s.time with adjFreq := v } } else s.almRefuse

/-- ALM_ADJ_FREQ. -/
def execAlmAdjFreq (value : BitVec 32) (s : State) : Out := done s (managed s (s.setAdjFreq value.toInt))

/-- A write of ALM.SET: a step forward while the Almanac is not trusted and SIGNED_ONLY is clear. -/
def State.setAlmanac (s : State) (v : Nat) : State :=
  if s.time.signedOnly then s
  else if s.time.trusted ∨ v < s.time.almanac then s.almRefuse
  else { s with time := { s.time with almanac := v, slew := .none, servo := .none }.sync }.timeEvent 1 s.time.almanac v

/-- ALM_SET. -/
def execAlmSet (value : BitVec 64) (s : State) : Out := done s (managed s (s.setAlmanac value.toNat))

/-- A write of ALM.STEP_BOUND; a value outside 1,000-1,000,000,000 is discarded. -/
def State.setStepBound (s : State) (v : Nat) : State :=
  if v < 1000 ∨ 1000000000 < v then s
  else if s.time.trusted then s.almRefuse
  else { s with time := { s.time with stepBound := v } }.timeEvent 2 s.time.almanac s.time.almanac

/-- ALM_STEP_BOUND. -/
def execAlmStepBound (value : BitVec 32) (s : State) : Out := done s (managed s (s.setStepBound value.toNat))

/-! ### The passing of time -/

/-- ALMANAC_CHECKPOINT: the time is written to the NVS. -/
def execAlmanacCheckpoint (t : Nat) (s : State) : Out :=
  let u := s.at_ t
  done s { u with time := { u.time with checkpoint := u.time.almanac } }

/-- A slew has nothing left to lose. -/
def Slew.over : Slew → Bool
  | .lose _ r _ => r == 0
  | .gain _ r _ => r == 0
  | .none => false

/-- ALMANAC_SLEW_END: SLEWING clears once the target is reached. -/
def execAlmanacSlewEnd (t : Nat) (s : State) : Out :=
  let u := s.at_ t
  done s (if u.time.slew.over then { u with time := { u.time with slew := .none } } else u)

/-- PPS_OUT rises at a second boundary of the Almanac and falls 100 ms later. -/
def execPpsOut (t : Nat) (s : State) : Out :=
  let u := s.at_ t
  let into := u.time.almanac % 1000000000
  done s (
    if u.time.ppsOut then
      (if u.time.ppsFall ≤ u.time.elapsed then { u with time := { u.time with ppsOut := false } } else u)
    else if into < 100000000 then
      { u with time := { u.time with ppsOut := true, ppsFall := u.time.elapsed + (100000000 - into) } }
    else u)

/-! ### PTP (R347) -/

/-- PTP_RX: a port whose role a LOAD_CHART changes drops it (03, R69); else the message with its timestamp goes to the lowest free receive buffer; with none free it is dropped. -/
def execPtpRx (p : Nat) (frame : List Byte) (t : Nat) (s : State) : Out :=
  let u := s.at_ t
  within (decide (p < 4)) s (
    if ¬ u.receives p ∨ ¬ isPtp frame then u
    else if u.roleChanging p then u.drop p 5
    else match (List.range 8).find? fun b => !(u.port p).rxFull.getLsbD b with
    | none => u.drop p 1
    | some b =>
      if 246 < frame.length then u.drop p 1
      else
        let P := u.port p
        (u.modPort p fun _ => { P with
          rxFull := P.rxFull ||| BitVec.ofNat 8 (2 ^ b),
          rx := tput P.rx b (fit 256 (le 8 (u.portTime p) ++ le 2 frame.length ++ frame)) }).msix 0 1)

/-- Where the PTP message of a frame begins, and whether UDP carries it. -/
def ptpAt (f : Bytes) : Nat × Bool :=
  match etherBody f with
  | (e, b) =>
    let h := f.length - b.length
    if e = 0x0800 then (h + 4 * (leAt b 0 1 % 16) + 8, true) else if e = 0x86DD then (h + 48, true) else (h, false)

/-- The UDP checksum of a frame recomputed. -/
def reSum (f : Bytes) : Bytes :=
  match etherBody f with
  | (e, b) =>
    let h := f.length - b.length
    let fix (v6 : Bool) (src dst : Bytes) (at_ : Nat) : Bytes :=
      let d := f.drop at_
      let len := fromBE (sliceOf d 4 2)
      let c := inetSum (pseudoHeader v6 src dst len ++ overlay (d.take len) 6 [0#8, 0#8])
      overlay f (at_ + 6) (be 2 (if c = 0 then 0xFFFF else c))
    if e = 0x0800 then fix false (sliceOf b 12 4) (sliceOf b 16 4) (h + 4 * (leAt b 0 1 % 16))
    else if e = 0x86DD then fix true (sliceOf b 8 16) (sliceOf b 24 16) (h + 40)
    else f

/-- One-step handling: originTimestamp of a Sync message, else the residence time added to correctionField. -/
def oneStepFrame (f : Bytes) (now residence : Nat) : Bytes :=
  let k := (ptpAt f).1
  let g :=
    if leAt f k 1 % 16 = 0 then overlay f (k + 34) (be 6 (now / 1000000000) ++ be 4 (now % 1000000000))
    else overlay f (k + 8) (be 8 ((fromBE (sliceOf f (k + 8) 8) + residence * 65536) % 2 ^ 64))
  if (ptpAt f).2 then reSum g else g

/-- The frame in a transmit buffer, laid out as in a receive buffer. -/
def txFrame (b : Bytes) : Bytes := (b.drop 10).take (leAt b 8 2)

/-- TX_GO of buffer `b`: the message is sent, and TX_DONE set; while the port cannot send, TX_GO stays set. -/
def State.sendPtp (s : State) (p b : Nat) : State :=
  let P := s.port p
  if ¬ s.egressOn p then s.modPort p fun P => { P with txGo := P.txGo ||| BitVec.ofNat 4 (2 ^ b) }
  else
    let one := P.oneStep.getLsbD b
    let f := txFrame ((tget P.tx b).getD (zeros 256))
    let g := if one then oneStepFrame f (s.portTime p) (Config.primNat (.image 6) [le 8 s.time.elapsed, le 1 b]) else f
    let ts := if one then P.txTs else tput P.txTs b (s.portTime p)
    ((s.emit (.frame p g)).modPort p fun P => { P with
      txDone := P.txDone ||| BitVec.ofNat 4 (2 ^ b), txGo := P.txGo &&& ~~~ BitVec.ofNat 4 (2 ^ b), txTs := ts }).msix 0 1

/-- TX_GO. -/
def execTxGo (p b : Nat) (t : Nat) (s : State) : Out :=
  let u := s.at_ t
  within (decide (p < 4) && decide (b < 4)) s (u.sendPtp p b)

/-- The buffers whose TX_GO is still set are sent. -/
def State.sendWaiting (s : State) (p : Nat) : State :=
  eachOf ((List.range 4).filter fun b => (s.port p).txGo.getLsbD b) (fun u b => u.sendPtp p b) s

/-- FIELD_PORT_LINK_UP: PCS and FEC align; the PTP messages that wait are sent. -/
def execFieldPortLinkUp (p : Nat) (t : Nat) (s : State) : Out :=
  let u := s.at_ t
  within (decide (p < 4)) s (
    if p < portsOf u.variant ∧ (¬ u.partners.mode1 ∨ p = 0) ∧ (u.port p).role ≠ 0 ∧ ¬ (u.port p).stopped then
      (u.modPort p fun P => { P with link := true }).sendWaiting p
    else u)

end Sys2Proof.Machine
end

