-- ==== Sys2Proof/Machine/Tick.lean ====
section
/-! DEFINITION. The Reckoner's tick: what takes effect at it, in the order of R279 (12_deadlines.md R279, R290, R291; 03,
R67, R68; 07, R159; 09, R211; 11, R265; 16, R372; 17, R409; 21, R471; 23, R508). -/

namespace Sys2Proof.Machine

/-! ### Fallback and re-placement (03, R67; 12, R290; 18, R420) -/

/-- Unfenced tiles of a group. -/
def State.unfenced (s : State) (g : Nat) : Nat := ((s.groupTiles g).filter fun n => (s.tile n).unfenced).length

/-- Fallback starts and ends. -/
def State.fallbackTick (s : State) : State :=
  let gs := ((s.chart.running.map (·.groups)).getD []).filter fun r => r.minTiles != 0 && decide (s.unfenced r.id < r.minTiles)
  { s with chart := { s.chart with fallback := gs.map (·.id) } }

/-- A run that has not started and whose tile is fenced, or whose core has stopped. -/
def State.stranded (s : State) (r : RunAt) : Bool :=
  r.run.mode == .waiting && (match r.run.server with
    | .tile n => (s.tile n).mode == .fenced
    | .core c => (s.core c).stopped)

/-- The lanes of the kind of a lane. -/
def lanesLike (l : Option Nat) : List (Option Nat) :=
  match l with
  | none => [none]
  | some k => if sha2Lane k then (List.range 16).map some else (List.range 8).map fun i => some (16 + i)

/-- Another core for a stranded run, under R285. -/
def State.otherCore (s : State) (J : Job) (r : RunAt) : Option Run :=
  ((sortBy (fun c => s.load (.core c)) s.firmwareCores).find? fun c =>
    !s.committed r.job || { s with acceptSeq := J.acceptSeq }.corePasses c r.run.cycles r.run.effAt).map fun c =>
      { r.run with server := .core c }

/-- The steps of partner sessions are routed as function 0x100 (03, R65; log 94). -/
def Job.routeFn (J : Job) : Option Nat := if J.src = .internal ∧ famOf J.opcode = 10 then some 0x100 else none

/-- Another tile for a stranded run, under R284; a C7 run goes where R289 allows. -/
def State.otherTile (s : State) (J : Job) (r : RunAt) : Option Run :=
  let D : Demand :=
    { fn := J.fn, cls := J.cls, quad := J.quadrant.getD 4, len := 0, lat := 0, post := 0, plan := [], slot := J.slot, route := J.routeFn }
  let taken := r.step.runs.filterMap fun x => if x = r.run then none else some x.server
  let cs := (s.candidates D r.step.group).filter fun c => !taken.contains (.tile c.1)
  let u := { s with acceptSeq := J.acceptSeq }
  (cs.flatMap fun c => (lanesLike r.run.lane).map fun l => (c.1, l)).findSome? fun x =>
    if s.committed r.job then
      (if u.tilePasses x.1 r.step.pers x.2 r.run.cycles r.run.effAt r.run.windows then some { r.run with server := .tile x.1, lane := x.2 }
       else none)
    else if s.placedOn x.1 + 1 ≤ 16 ∧ s.windowsOn x.1 + r.run.windows ≤ 8 then some { r.run with server := .tile x.1, lane := x.2 }
    else none

/-- Another server for a stranded run. -/
def State.replacement (s : State) (J : Job) (r : RunAt) : Option Run :=
  match r.run.server with
  | .tile _ => s.otherTile J r
  | .core _ => s.otherCore J r

/-- A stranded run is placed again, or its job completes with FENCED. -/
def State.replaceRun (s : State) (r : RunAt) : State :=
  match s.job? r.job with
  | none => s
  | some J =>
    if J.phase = .ended ∨ J.phase = .delayed then s
    else match s.replacement J r with
    | some x => s.modJob r.job fun J => J.mapRuns fun i y => if i = r.idx ∧ y = r.run then x else y
    | none => s.stopJob r.job .fence

/-- The waiting runs of a RETILE's changed tiles, placed on the remaining tiles; none while they do not all fit (03, R74). -/
def State.movedRuns (s : State) (o : ChartOp) : Option State :=
  let rs := s.allRuns.filter fun r => r.run.mode == .waiting && (match r.run.server with
    | .tile n => o.tiles.contains n && (s.tile n).mode != .fenced
    | .core _ => false)
  (sortBy (fun r => r.run.effAt) rs).foldl (fun (acc : Option State) r => acc.bind fun u =>
    match u.job? r.job with
    | none => some u
    | some J => (u.replacement J r).map fun x => u.modJob r.job fun J => J.mapRuns fun i y => if i = r.idx ∧ y = r.run then x else y) (some s)

/-- The changed tiles of a RETILE that have left the capacity drain once their groups' commitments fit within the remaining
tiles: each run that waits on them passes on another (03, R74; log 92). -/
def State.retileTick (s : State) : State :=
  match s.chart.op with
  | none => s
  | some o =>
    if o.removed ∧ o.phase = 2 ∧ ¬ o.draining then
      match s.movedRuns o with
      | none => s
      | some t => t.retileDrain o
    else s

/-- The stranded runs in effective-deadline order. -/
def State.replaceAll (s : State) : State :=
  (sortBy (fun r => r.run.effAt) (s.allRuns.filter s.stranded)).foldl State.replaceRun s

/-! ### The power limit (03, R68; 12, R291; 23, R508) -/

/-- Draw of a tile at a clock, in µW. -/
def tileUw (f : Nat) : Nat := 900000 + 8125 * (f - 1200) / 10

/-- A tile as the power model sees it: number, priority, clock; a parked one has clock 0. -/
abbrev PowerTile := Nat × Nat × Nat

/-- Demand of the package, in µW: `off` tiles of the chart are OFF. -/
def packageUw (off : Nat) (l : List PowerTile) : Nat :=
  46200000 + 120000 * off + (l.map fun t => if t.2.2 = 0 then 120000 else tileUw t.2.2).sum

/-- The tiles of one priority `k` steps of 50 MHz lower, none below 1,200 MHz. -/
def lowered (p k : Nat) (l : List PowerTile) : List PowerTile :=
  l.map fun t => if t.2.1 = p then (t.1, p, if t.2.2 ≤ 1200 then t.2.2 else max 1200 (t.2.2 - 50 * k)) else t

/-- The throttle order: priority by priority, the fewest steps that meet the limit. -/
def throttled (off limit : Nat) : List Nat → List PowerTile → List PowerTile
  | [], l => l
  | p :: ps, l =>
    match (List.range 17).find? fun k => packageUw off (lowered p k l) ≤ limit with
    | some k => lowered p k l
    | none => throttled off limit ps (lowered p 16 l)

/-- Tiles parked one by one until the limit is met. -/
def parkUntil (off limit : Nat) : List Nat → List PowerTile → List PowerTile
  | [], l => l
  | n :: ns, l =>
    if packageUw off l ≤ limit then l
    else parkUntil off limit ns (l.map fun t => if t.1 = n then (t.1, t.2.1, 0) else t)

/-- The tiles of the running chart that are not OFF, at their chart clocks. -/
def State.powerTiles (s : State) : List PowerTile :=
  (List.range (tilesOf s.variant)).filterMap fun n =>
    (s.tile n).asg.bind fun r => if r.pers = 0 then none else some (n, r.prio, r.mhz)

/-- The target of every tile under a limit in W; the order of parking within a priority is free (log 30). -/
def State.powerTargets (s : State) (w : Nat) : List PowerTile :=
  let l := s.powerTiles
  let off := tilesOf s.variant - l.length
  let t := throttled off (w * 1000000) [0, 1, 2, 3] l
  let order := sortBy (fun x => x.2.1) (sortBy (fun x => Config.primNat (.image 3) [le 2 x.1]) t)
  parkUntil off (w * 1000000) (order.map (·.1)) t

/-- The runs that execute on tile `n` keep what they have done before its clock changes. -/
def State.foldDone (s : State) (n : Nat) : State :=
  let f := (s.tile n).mhz
  { s with jobs := tmap s.jobs fun _ J => J.mapRuns fun _ r =>
    if r.server = .tile n ∧ r.mode = .running then
      { r with done := r.done + (s.time.elapsed - r.started) * f / 1000, started := s.time.elapsed } else r }

/-- Tile `n` runs at a clock. -/
def State.setClock (s : State) (n f : Nat) : State :=
  if (s.tile n).mhz = f then s else (s.foldDone n).modTile n fun T => { T with mhz := f }

/-- A target is set; a raise applies in full, and a tile that is no longer to be parked serves again. -/
def State.setTarget (s : State) (x : PowerTile) : State :=
  let n := x.1
  let f := if x.2.2 = 0 then 1200 else x.2.2
  let t := s.modTile n fun T => { T with
    target := f, parked := x.2.2 == 0, mode := if x.2.2 != 0 && T.mode == .parked then .idle else T.mode }
  if (s.tile n).mhz < f then t.setClock n f else t

/-- Every committed run on tile `n` passes R284 at a clock. -/
def State.fitsAt (s : State) (n f : Nat) : Bool :=
  let rs := (s.runsAt (.tile n)).filter fun r => s.committed r.job
  (rs.flatMap fun r => lanesOf r.step.pers r.run.lane).eraseDups.all fun l =>
    demandOk s.time.elapsed f 8320 (byDeadline ((rs.filter fun r => meets r.run.lane l).map fun r =>
      (r.run.effAt, s.orderOf r.job, s.remaining r.run)))

/-- A clock falls toward its target as far as the committed runs allow. -/
def State.fallClock (s : State) (n : Nat) : State :=
  let T := s.tile n
  if T.target = 0 ∨ T.mhz ≤ T.target then s
  else
    let f := (((List.range ((T.mhz - T.target) / 50 + 1)).map fun i => T.target + 50 * i).find? (s.fitsAt n)).getD T.mhz
    s.setClock n f

/-- A tile that is to park asks its running C7 job to stop at its next safe point, or parks. -/
def State.parkTick (s : State) (n : Nat) : State :=
  if ¬ (s.tile n).parked then s
  else
    let js := (s.jobsAt (.tile n) .running).filter fun j => !s.committed j
    (eachOf js (fun u j => u.modJob j fun J => { J with request := if J.request = .none then .preempt else J.request }) s).parkNow n

/-- The tiles that committed work keeps above their targets. -/
def State.heldUp (s : State) : List Nat :=
  tkeys s.tiles fun n T => (T.target != 0 && decide (T.target < T.mhz)) ||
    (T.parked && (s.runsAt (.tile n)).any fun r => s.committed r.job)

/-- A time of the elapsed count as Almanac time. -/
def State.asTime (s : State) (e : Nat) : Nat := s.helmTime + (e - s.time.elapsed)

/-- Step 3 of the tick: a new limit, and the clocks that fall toward it; the commands that waited complete. -/
def State.powerTick (s : State) : State :=
  let t := match s.chart.powerNext with
    | none => s
    | some w =>
      let u := { s with chart := { s.chart with powerW := w, powerNext := none } }
      (u.powerTargets w).foldl State.setTarget u
  let ns := tkeys t.tiles fun _ _ => true
  let t := eachOf ns State.parkTick (eachOf ns State.fallClock t)
  let held := t.heldUp
  let last := (((held.flatMap fun n => (t.runsAt (.tile n)).filter fun r => t.committed r.job).map fun r => r.run.effAt).max?).getD t.time.elapsed
  let t := { t with chart := { t.chart with
    powerPend := !held.isEmpty,
    fullForce := if held.isEmpty ∧ s.chart.powerNext.isNone then t.chart.fullForce else t.asTime last } }
  if s.chart.powerNext.isNone then t
  else
    let t' := { t with chart := { t.chart with powerJobs := [] } }
    eachOf t.chart.powerJobs (fun u j => u.endAdmin j St.ok 0 (le 8 u.helmTime)) t'

/-! ### Shares, perturbation (11, R265; 12, R287; 21, R471) -/

/-- The latest acceptance plus class deadline among the admitted jobs of a function in a group, as the elapsed count. -/
def State.lastDeadline (s : State) (f g : Nat) : Nat :=
  (((s.jobs.filter fun e => e.2.fn == f && e.2.live && e.2.cls != 7 && e.2.units.any fun u => u.1 == g).map fun e =>
    e.2.deadline.getD 0).max?).getD 0

/-- A list of shares with some replaced. -/
def sharesWith (old : List Nat) (es : List (Nat × Nat)) : List Nat :=
  (List.range 33).map fun g => ((es.find? fun e => e.1 == g).map (·.2)).getD (old.getD g 0)

/-- A share change takes effect, and its commands complete. -/
def State.shareApply (s : State) (f : Nat) : State :=
  match (s.fn f).change with
  | none => s
  | some c =>
    let below := (c.shares.filter fun e => decide (e.2 < s.commitOf f e.1)).map (·.1)
    let low := (c.shares.filter fun e => decide (e.2 < s.shareOf f e.1) && decide (e.2 ≤ s.commitOf f e.1)).map (·.1)
    let full := ((below.map fun g => s.lastDeadline f g).max?).getD 0
    let t := s.modFn f fun F => { F with
      shares := sharesWith F.shares c.shares, change := none, noBorrow := (F.noBorrow ++ low).eraseDups,
      weight := (c.limits.map (·.1)).getD F.weight, maxQueues := (c.limits.map (·.2.1)).getD F.maxQueues,
      safety := (c.limits.map (·.2.2)).getD F.safety }
    eachOf c.jobs (fun u j => u.endAdmin j St.ok (b2n (!below.isEmpty))
      (le 8 (u.asTime (max u.time.elapsed full)))) (t.liftBorrow f)

/-- The controls of a function return to their reset values. -/
def Fn.clearControls (F : Fn) : Fn :=
  { F with ctrl := 0, delayUs := 0, jobsPerMs := 1, holdUs := 0, scale := 1, seed := 0, rng := 0, msStart := 0, msCount := 0,
           throttled := false }

/-- ENABLED follows SET_PERTURBATION. -/
def State.pertApply (s : State) (f : Nat) : State :=
  match (s.fn f).pertNext with
  | none => s
  | some b => s.modFn f fun F => { (if b then F else F.clearControls) with pert := b, pertNext := none }

/-! ### Key-cache partitions and reserved runs (09, R211; 07, R159) -/

/-- The written partitions are in force; unpinned keys outside their function's new partition are evicted. -/
def State.partitionTick (s : State) : State :=
  if s.keys.partNext.isEmpty then s
  else
    let t : State := { s with keys := { s.keys with
      partition := s.keys.partNext.foldl (fun p e => tput p e.1 e.2) s.keys.partition, partNext := [] } }
    let t := t.evictOutside
    let holds (h : Nat × Nat × Nat) : Bool :=
      let (b, n) := t.partitionOf (((t.job? h.1).map (·.fn)).getD 0)
      decide (b ≤ h.2.1) && decide (h.2.1 + h.2.2 ≤ b + n)
    { t with keys := { t.keys with runHolds := t.keys.runHolds.filter holds } }

/-- The rank of a run: the latest completion deadline among the jobs that pin keys in it; a job that runs as C7, be it by an
overrun, ranks after every deadline. -/
def State.runRank (s : State) (a len : Nat) : Nat :=
  (((s.jobs.filter fun e => e.2.pin.any fun k => (s.cachedIn a len).contains k).map fun e =>
    match e.2.deadline with
    | some d => if e.2.overrun then 2 ^ 128 else d + 1
    | none => 2 ^ 128).max?).getD 0

/-- A run is reserved for a waiting job that has none. -/
def State.holdRun (s : State) (j : Nat) : State :=
  match s.job? j with
  | none => s
  | some J =>
    if s.keys.runHolds.any (fun h => h.1 == j) then s
    else
      let len := slotsOf (((s.jobKey J).map fun k => k.material.length).getD 0)
      let ok := (s.runStarts J.fn len).filter fun a => s.keys.runHolds.all fun h => !overlaps a len h.2.1 h.2.2
      match leastBy (fun a => s.runRank a len * 65536 + a) ok with
      | none => s
      | some a => { s with keys := { s.keys with runHolds := s.keys.runHolds ++ [(j, a, len)] } }

/-- A waiting job is decided on again; it is accepted once its run is free. -/
def State.takeRun (s : State) (j : Nat) : State :=
  match s.job? j with
  | none => s
  | some J => if s.chartStops then s else (s.decide_ j J).getD s

/-- The runs that waiting jobs hold; a hold whose job no longer waits is dropped, each waiting job takes one, and the jobs whose
runs are free are accepted (R159). -/
def State.runTick (s : State) : State :=
  if s.faults.safe.on then { s with keys := { s.keys with runHolds := [] } }
  else
    let waits := fun (J : Job) => J.phase == .staged && J.runWait
    let t := { s with keys := { s.keys with runHolds := s.keys.runHolds.filter fun h => (s.job? h.1).any waits } }
    eachOf ((sortBy (fun e => e.2.seq) (t.jobs.filter fun e => waits e.2)).map (·.1)) (fun u j => (u.holdRun j).takeRun j) t

/-! ### The service cores, the release budget and the overflow region (16, R372; 17, R409; 12, R297) -/

/-- Cores 6 and 7 leave firmware use or return to it. -/
def State.handoverTick (s : State) : State :=
  let h := s.service.next.getD s.service.handover
  let idle := [6, 7].all fun c => (s.runsAt (.core c)).isEmpty
  { s with service := { s.service with handover := h, next := none, done := h && (idle || (s.service.handover && s.service.done)) } }

/-- A new share of the release budget. -/
def State.budgetTick (s : State) : State :=
  { s with host := { s.host with budget := s.host.budgetNext.getD s.host.budget, budgetNext := none } }

/-- A new size of the overflow region, once it is empty. -/
def State.overflowTick (s : State) : State :=
  let n := bitsOf (s.reg 0x30038) 27 12
  if s.overflowUsed = 0 then { s with overflowMib := if n = 0 then 2048 else n } else s

/-! ### TICK -/

/-- The clock reaches the tick. -/
def State.toTick (s : State) : State :=
  let t := s.at_ s.time.nextTick
  { t with time := { t.time with nextTick := s.time.nextTick + 10000, ticks := s.time.ticks + 1 } }

/-- Steps 1 and 2. -/
def State.tickChart (s : State) : State := s.chartCommit.retileRemove.retileTick.tilesReturn.fallbackTick.replaceAll

/-- Step 4. -/
def State.tickShares (s : State) : State :=
  let fs := tkeys s.fns fun _ _ => true
  eachOf fs State.pertApply (eachOf fs State.shareApply s)

/-- What else a tick applies: policies, group fan-out, cores, budgets, and the requests of the cluster. -/
def State.tickRest (s : State) : State := s.policyTick.fanoutTick.handoverTick.budgetTick.overflowTick.clusterTick.tetherTick.lineTick

/-- TICK. -/
def execTick (s : State) : Out :=
  done s (((s.toTick.tickChart.powerTick.tickShares).partitionTick).tickRest.runTick)

end Sys2Proof.Machine
end

