-- ==== Sys2Proof/Machine/RegMap.lean ====
section
/-! DEFINITION. The register map: what each register of PF BAR0 and VF BAR0 reads as (22_registers.md R476-R486, and the
register section that ends each chapter). A register is given by its first offset, with its width in bytes and its value;
an offset that no register covers reads as zero (R476). -/

namespace Sys2Proof.Machine

/-- A 32-bit register. -/
def r32 (v : Nat) : Option (Nat × Nat) := some (4, v % 2 ^ 32)

/-- A 64-bit register. -/
def r64 (v : Nat) : Option (Nat × Nat) := some (8, v % 2 ^ 64)

/-- The index of a register of an array: `off` is `base + stride * i` with `i < n`. -/
def ixAt (off base stride n : Nat) : Option Nat :=
  if base ≤ off ∧ (off - base) % stride = 0 ∧ (off - base) / stride < n then some ((off - base) / stride) else none

/-- The element of an array that `off` lies in, and the offset within it. -/
def within? (off base stride n : Nat) : Option (Nat × Nat) :=
  if base ≤ off ∧ (off - base) / stride < n then some ((off - base) / stride, (off - base) % stride) else none

/-- Ones below bit `n`. -/
def ones (n : Nat) : Nat := 2 ^ n - 1

/-! ### Identification and the global block (R477-R483) -/

/-- Field ports that R4 and R326 leave. -/
def State.portCount (s : State) : Nat := if s.partners.mode1 then min 1 (portsOf s.variant) else portsOf s.variant

/-- A field port is there. -/
def State.hasPort (s : State) (p : Nat) : Bool := decide (p < s.portCount)

/-- ID.PART. -/
def State.idPart (s : State) : Nat :=
  (match s.variant with | .pz8840 => 0x8840 | .pz8820 => 0x8820 | .pz8810 => 0x8810) + 0xB0 * 2 ^ 16 +
  (match s.grade with | .ix => 1 | .cx => 2) * 2 ^ 24

/-- ID.UNITS. -/
def State.idUnits (s : State) : Nat :=
  ones (quadsOf s.variant) + 2 ^ 4 * ones s.portCount + 2 ^ 8 * ones (portsOf s.variant) + 2 ^ 12 * ones (pmemsOf s.variant) +
  2 ^ 14 * b2n (decide (16 ≤ s.host.pmem0)) + 2 ^ 15 * b2n (s.host.pmem1 != 0) +
  2 ^ 16 * (if s.variant = .pz8810 then 0x1B else 0x1F) + 2 ^ 21 * b2n (s.portCount != 0) + 2 ^ 22

/-- The identification registers that PF0 and every VF see. -/
def State.idReg (s : State) (off : Nat) : Option (Nat × Nat) :=
  match off with
  | 0x00 => r32 s.idPart
  | 0x04 => r32 ((s.boot.bundle.map (·.version)).getD 0)
  | 0x08 => r32 s.idUnits
  | 0x10 => r64 (ones (min 64 (tilesOf s.variant)))
  | 0x18 => r32 (ones (tilesOf s.variant - 64))
  | 0x20 => r64 (4096 + 255 * 2 ^ 16 + 2048 * 2 ^ 24 + 64 * 2 ^ 36 + 16384 * 2 ^ 43)
  | _ => none

/-- FN.STATE[f] (11, R276). -/
def State.fnStateReg (s : State) (f : Nat) : Nat :=
  let F := s.fn f
  s.fnState f + 2 ^ 3 * b2n F.safety + 2 ^ 4 * b2n F.pert + 2 ^ 5 * b2n F.flrDone + 2 ^ 6 * b2n F.scrub +
  2 ^ 8 * s.queuesHeld f + 2 ^ 20 * F.weight

/-- ADMQ registers of function `f`: 0 the submission base, 8 the completion base, 0x10 CFG. -/
def State.admqReg (s : State) (f o : Nat) : Option (Nat × Nat) :=
  match o with
  | 0x00 => r64 (s.reg (admqKey f 0))
  | 0x08 => r64 (s.reg (admqKey f 1))
  | 0x10 => r32 (s.reg (admqKey f 2) + 2 ^ 16 * b2n ((s.queue f).mode != .absent))
  | _ => none

/-- GLB.STATUS. -/
def State.glbStatus (s : State) : Nat :=
  b2n s.boot.ready + 2 * b2n s.faults.safe.on + 4 * b2n s.faults.safe.halt + 8 * b2n s.boot.landfall +
  16 * b2n s.chart.op.isSome + 32 * b2n s.lc.busy + 64 * b2n s.boot.fwBusy

/-- The block at 0x000_0000. -/
def State.blockGlobal (s : State) (off : Nat) : Option (Nat × Nat) :=
  if off < 0x30 then s.idReg off
  else match off with
  | 0x1000 => r32 s.glbStatus
  | 0x1004 => r32 (s.reg 0x1004)
  | 0x1008 => r32 (s.host.gen + 2 ^ 3 * s.host.width + 2 ^ 8 * b2n s.host.cxl + 2 ^ 9 * b2n s.host.cache)
  | 0x100C => r32 (s.host.budget / 1000 % 256)
  | 0x1010 => r32 s.chart.powerW
  | 0x1018 => r64 (s.reg 0x1018)
  | _ =>
    if 0x1100 ≤ off ∧ off < 0x1120 then s.admqReg 0 (off - 0x1100)
    else if 0x2000 ≤ off ∧ off < 0x4000 ∧ off % 4 = 0 then r32 (s.reg off)
    else match ixAt off 0x4000 4 256 with
    | some f => r32 (s.fnStateReg f)
    | none => none

/-! ### Queues (10, R252) -/

/-- The doorbell registers of a queue, as they read. -/
def Queue.bellReg (Q : Queue) (o : Nat) : Option (Nat × Nat) :=
  match o with
  | 0 => r32 Q.sqTail.toNat
  | 4 => r32 Q.cqHead.toNat
  | 8 => r64 0
  | _ => none

/-- The code of a queue's state. -/
def qmodeCode : QMode → Nat
  | .absent => 0 | .enabled => 1 | .fenced => 2 | .quiescing => 3 | .halted => 4

/-- A REVISE holds consumption. -/
def Queue.reviseHolds (Q : Queue) : Bool := Q.revise.any fun r => r.1 == Q.sqHead

/-- The QCFG registers of queue `q`; of an absent queue they are zero. -/
def Queue.cfgReg (Q : Queue) (q o : Nat) : Option (Nat × Nat) :=
  if Q.mode = .absent then (if o % 4 = 0 then r32 0 else none)
  else match o with
  | 0 => r32 (Q.sqLog2 + 2 ^ 5 * Q.cqLog2 + 2 ^ 10 * b2n Q.chained + 2 ^ 11 * b2n Q.safety + 2 ^ 12 * b2n (decide (q < 256)) +
      2 ^ 13 * b2n Q.poll + 2 ^ 16 * Q.fn)
  | 4 => r32 (qmodeCode Q.mode + 2 ^ 3 * b2n Q.cqWait + 2 ^ 4 * b2n Q.reviseHolds + 2 ^ 5 * b2n Q.tooLate + 2 ^ 8 * Q.reason +
      2 ^ 15 * Q.reserved)
  | 8 => r32 Q.sqHead.toNat
  | 12 => r32 Q.cqTail.toNat
  | _ => none

/-! ### The Reckoner (12, R297) -/

/-- RECK.OVERFLOW_CFG: the reset value until it is written. -/
def State.overflowCfg (s : State) : Nat := if s.reg 0x30038 = 0 then 256 + 2048 * 2 ^ 12 else s.reg 0x30038

/-- Committed runs placed in group `g`. -/
def State.placedIn (s : State) (g : Nat) : Nat :=
  (s.allRuns.filter fun r => r.step.group == g && s.committed r.job).length

/-- RECK.TILE[n]; zero for a tile that the variant lacks. -/
def State.reckTile (s : State) (n : Nat) : Nat :=
  if n < tilesOf s.variant then s.placedOn n + 2 ^ 6 * s.windowsOn n + 2 ^ 32 * ceilDiv (s.load (.tile n)) 1024 else 0

/-- The block at 0x003_0000. -/
def State.blockReck (s : State) (o : Nat) : Option (Nat × Nat) :=
  match o with
  | 0x00 => r32 (s.reg 0x30000 % 65536 + 2 ^ 16 * b2n s.chart.powerPend + 2 ^ 17 * b2n s.overflowWait)
  | 0x08 => r64 s.time.elapsed
  | 0x10 => r64 s.time.ticks
  | 0x18 => r64 (s.reg 0x30018)
  | 0x20 => r64 (s.reg 0x30020)
  | 0x28 => r32 (s.reg 0x30028)
  | 0x2C => r32 (s.reg 0x3002C)
  | 0x30 => r64 s.chart.fullForce
  | 0x38 => r32 s.overflowCfg
  | 0x3C => r32 (ceilDiv s.overflowUsed (2 ^ 20))
  | 0x40 => r32 (s.reg 0x30040)
  | _ =>
    match ixAt o 0x100 4 8, ixAt o 0x200 8 33, ixAt o 0x400 4 33, ixAt o 0x1000 8 96 with
    | some c, _, _, _ => r32 ((s.chart.running.bind fun k => k.deadlines[c]?).getD 0)
    | _, some g, _, _ => r64 (s.heldIn g + 2 ^ 11 * s.unassigned g + 2 ^ 32 * s.placedIn g)
    | _, _, some g, _ => r32 (s.commitOf (s.reg 0x30040) g + 2 ^ 11 * s.shareOf (s.reg 0x30040) g)
    | _, _, _, some n => r64 (s.reckTile n)
    | _, _, _, _ => none

/-! ### Tiles and charts (03, R76; 04, R101) -/

/-- The code of a tile's state. -/
def tmodeCode : TileMode → Nat
  | .absent => 0 | .parked => 1 | .idle => 2 | .busy => 3 | .draining => 4 | .reconfiguring => 5 | .fenced => 6 | .selfTest => 7

/-- A fenced tile shows its self-test from the reload of its control store on, 250 µs after its fence (04, R97; log 79). -/
def State.testShown (s : State) (n : Nat) : Bool :=
  (s.tile n).mode == .fenced && s.reloads n && decide ((s.tile n).since + 250000 ≤ s.time.elapsed)

/-- The registers of tile `n`; those of an absent tile read as zero (00, R4). -/
def State.tileReg (s : State) (n o : Nat) : Option (Nat × Nat) :=
  let T := s.tile n
  let a := T.asg.getD ⟨0, 0xFF, 0, 0, 0xFF⟩
  if tilesOf s.variant ≤ n then none
  else match o with
  | 0x00 => r32 (a.pers + 2 ^ 8 * a.group + 2 ^ 16 * a.mhz + 2 ^ 28 * T.change)
  | 0x04 => r32 ((if s.testShown n then 7 else tmodeCode T.mode) + 2 ^ 8 * T.fence)
  | 0x08 => r32 (T.setId + 2 ^ 16 * T.mcPers)
  | 0x0C => r32 T.mcVersion
  | 0x10 => r32 (T.slots.length + 2 ^ 8 * T.windowsHeld.length)
  | 0x14 => r32 (T.mcAddr + 2 ^ 13 * T.mcKind + 2 ^ 16 * T.mcCause)
  | 0x18 => r32 T.mcCount
  | 0x1C => r32 (T.mhz + 2 ^ 12 * b2n (T.parked && T.mode == .parked))
  | 0x20 => r64 T.jobs
  | _ => none

/-- CHART.GROUP[g]. -/
def State.chartGroup (s : State) (g : Nat) : Nat :=
  let ts := s.tiles.filter fun e => e.2.asg.any fun r => r.pers != 0 && r.group == g
  let un := ts.filter fun e => e.2.unfenced
  let p := (s.chart.running.bind fun c => c.persOf g).getD 0
  un.length + 2 ^ 8 * ts.length + 2 ^ 16 * p + 2 ^ 19 * b2n (s.chart.fallback.contains g)

/-- The chart and microcode directory registers, from 0x004_F000. -/
def State.chartReg (s : State) (o : Nat) : Option (Nat × Nat) :=
  let C := s.chart
  match o with
  | 0x00 => r32 ((C.running.map (·.version)).getD 0)
  | 0x04 => r32 C.floor
  | 0x08 => r64 ((C.running.map (·.id)).getD 0)
  | 0x10 => r32 ((C.op.map (·.phase)).getD 0 + 2 ^ 3 * b2n (C.op.any (·.retile)) + 2 ^ 4 * C.source + 2 ^ 8 * C.lastReason)
  | 0x18 => r64 C.commitTime
  | 0x20 => r32 C.noRoute
  | _ =>
    match ixAt o 0x100 4 32, within? o 0x200 0x10 32 with
    | some g, _ => r32 (s.chartGroup g)
    | _, some (k, w) =>
      let e := tget C.mcode k
      (match w with
       | 0 => r32 ((e.map fun e => e.setId + 2 ^ 16 * e.pers + 2 ^ 19).getD 0)
       | 4 => r32 ((e.map (·.version)).getD 0)
       | 8 => r32 ((e.map fun e => (tget C.mcFloors e.setId).getD 0).getD 0)
       | _ => none)
    | _, _ => none

/-- The block at 0x004_0000. -/
def State.blockTiles (s : State) (o : Nat) : Option (Nat × Nat) :=
  if o < 0x6000 then s.tileReg (o / 0x100) (o % 0x100) else if 0xF000 ≤ o then s.chartReg (o - 0xF000) else none

/-! ### Keys (09, R221) -/

/-- Retired indices: at generation 255 with no key. -/
def State.retired (s : State) : Nat :=
  (s.keys.gens.filter fun e => e.2 == 255 && (tget s.keys.live e.1).isNone).length

/-- The block at 0x005_0000. -/
def State.blockKeys (s : State) (o : Nat) : Option (Nat × Nat) :=
  let K := s.keys
  match o with
  | 0x00 => r32 (b2n K.quotaErr + 2 * b2n K.ready)
  | 0x04 => r32 K.live.length
  | 0x08 => r32 s.retired
  | 0x10 => r64 K.created
  | 0x18 => r32 (262144 - K.counters.length)
  | 0x1C => r32 ((24 * 2 ^ 20 - s.persistUsed) / 1024)
  | 0x20 => r64 (s.reg 0x50020)
  | 0x28 => r64 (s.reg 0x50028)
  | _ =>
    match ixAt o 0x1000 4 0x102, ixAt o 0x2000 4 0x102 with
    | some f, _ => r32 ((s.partWritten f).1 + 2 ^ 16 * (s.partWritten f).2)
    | _, some f => r32 (s.quotaOf f)
    | _, _ => none

/-! ### Faults and the safe state (18, R434, R435) -/

/-- A consequential window covers the source. -/
def State.covered (s : State) (n : Nat) : Bool :=
  s.faults.reacts.any fun e =>
    e.2.id != 0 && e.2.endAt == 0 && (e.2.back.all fun b => decide (s.time.elapsed < b + 50000)) && ownSource e.2 n

/-- The registers of fault source `n`. -/
def State.fltReg (s : State) (n o : Nat) : Option (Nat × Nat) :=
  let S := s.src n
  if ¬ s.hasSource n then none
  else match o with
  | 0x00 => r32 (S.n + 2 ^ 8 * S.w + 2 ^ 24 * S.action + 2 ^ 26 * b2n (hasA n) + 2 ^ 27 * b2n (injectable n))
  | 0x04 => r32 (S.count + 2 ^ 8 * b2n S.attn + 2 ^ 9 * b2n (s.covered n) + 2 ^ 10 * b2n S.fenced + 2 ^ 11 * b2n S.present)
  | 0x08 => r32 S.total
  | 0x0C => r32 (s.reg (0x6000C + 0x20 * n))
  | 0x10 => r64 S.lastAt
  | 0x18 => r64 (S.lastSub + 2 ^ 8 * b2n S.real + 2 ^ 9 * b2n S.inj + 2 ^ 10 * b2n S.conseq + 2 ^ 11 * b2n S.dry +
      2 ^ 16 * S.aux + 2 ^ 32 * S.rid)
  | _ => none

/-- The registers of REACT[k]. -/
def State.reactReg (s : State) (k o : Nat) : Option (Nat × Nat) :=
  let r := (tget s.faults.reacts k).getD {}
  match o with
  | 0x00 => r64 (r.id + 2 ^ 32 * r.source + 2 ^ 41 * r.cls + 2 ^ 43 * r.state)
  | 0x08 => r64 r.start
  | 0x10 => r64 (if r.id = 0 then 0 else r.ack.getD 0xFFFFFFFF)
  | 0x18 => r64 r.endAt
  | _ => none

/-- The block at 0x007_0000. -/
def State.blockSafe (s : State) (o : Nat) : Option (Nat × Nat) :=
  let S := s.faults.safe
  match o with
  | 0x00 => r32 (b2n S.on + 2 * b2n S.halt + 4 * b2n S.resetOnly + 8 * b2n s.causePresent + 16 * b2n S.multi + 2 ^ 16 * S.first)
  | 0x08 => r64 S.entry
  | 0x10 => r32 S.reaction
  | 0x14 => r32 0
  | 0x18 => r32 (b2n s.pins.raw + 2 * b2n (!s.pins.filtered))
  | 0x20 => r32 (s.pins.permit.toNat + 2 ^ 8 * s.pins.permitFb.toNat + 2 ^ 16 * s.pins.mismatch.toNat)
  | 0x30 => r32 (b2n s.faults.forceDen + 2 * b2n s.faults.cfgDen + 4 * b2n (s.faults.sources.any fun e => e.2.attn))
  | 0x34 => r32 s.faults.nextId
  | 0x38 => r32 0
  | _ =>
    match within? o 0x1000 0x20 64 with
    | some (k, w) => s.reactReg k w
    | none => none

/-! ### Mailboxes, locks, owner modules (16, R388) -/

/-- MBOX.CTRL[n]. -/
def State.mboxCtrl (s : State) (n : Nat) : Nat :=
  let M := s.mbox n
  b2n M.full + 2 * b2n M.dropped + 4 * b2n M.read + 16 * b2n M.recalled + 32 * b2n M.miss + 64 * b2n M.cross +
  2 ^ 16 * s.mboxAge n

/-- A host function is the sender or the receiver of a mailbox (R381). -/
def mboxParty (f n : Nat) : Bool := senderOf n == .host f || receiverOf n == .host f

/-- The registers of mailbox `n` as function `f` sees them without taking the word. -/
def State.mboxReg (s : State) (f n o : Nat) : Option (Nat × Nat) :=
  match o with
  | 0 => r32 0
  | 4 => r32 (if mboxParty f n then s.mboxCtrl n else 0)
  | 8 => r64 (if receiverOf n = .host f then (s.mbox n).reading.toNat else 0)
  | _ => none

/-- LOCK.PEEK[k]. -/
def State.lockPeek (s : State) (k : Nat) : Nat := ((tget s.service.locks k).map (· + 1)).getD 0

/-- The block at 0x008_0000. -/
def State.blockService (s : State) (o : Nat) : Option (Nat × Nat) :=
  match within? o 0 0x10 518, ixAt o 0x4000 4 256, ixAt o 0x4400 4 256, within? o 0x5010 0x20 2 with
  | some (n, w), _, _, _ => s.mboxReg 0 n w
  | _, some k, _, _ => r32 (s.lockPeek k)
  | _, _, some k, _ => r32 (s.lockPeek k)
  | _, _, _, some (m, w) =>
    let M := s.module m
    (match w with
     | 0 => r64 M.image
     | 8 => r32 0
     | 12 => r32 (M.state + 2 ^ 3 * M.reason + 2 ^ 8 * M.cause + 2 ^ 16 * (M.ident % 65536))
     | _ => none)
  | _, _, _, _ =>
    match o with
    | 0x4800 => r32 s.service.lockErr
    | 0x5000 => r32 (b2n (s.service.next.getD s.service.handover) + 2 * b2n s.service.done)
    | 0x5004 => r32 s.service.floor
    | _ => none

/-! ### The Almanac, field ports and private memory (14, R351; 22, R484) -/

/-- The block at 0x009_0000. -/
def State.blockTime (s : State) (o : Nat) : Option (Nat × Nat) :=
  let T := s.time
  match o with
  | 0x00 => r64 T.almanac
  | 0x08 => r32 (b2n T.trusted + 2 * b2n T.locked + 4 * b2n (T.slew != .none))
  | 0x0C => r32 (T.source + 4 * b2n T.signedOnly)
  | 0x10 => r32 T.stepBound
  | 0x18 => r64 0
  | 0x20 => r64 0
  | 0x28 => r32 (twosOf 32 T.adjFreq)
  | 0x2C => r32 (s.reg 0x9002C)
  | 0x30 => r32 (twosOf 32 T.ppsErr)
  | _ => none

/-- The registers of field port `p`. -/
def State.portReg (s : State) (p o : Nat) : Option (Nat × Nat) :=
  let P := s.port p
  if ¬ s.hasPort p then none
  else match o with
  | 0x00 => r32 ((if p = 0 then b2n s.partners.modeNvs else 0) + 2 * b2n P.jumbo)
  | 0x04 => r32 (b2n P.link + 2 * P.role)
  | 0x08 => r64 P.mac.toNat
  | 0x10 => r32 P.etherType.toNat
  | 0x14 => r32 P.udpPort
  | _ => if (ixAt o 0x40 4 15).isSome then r32 (s.reg (0xA0000 + 0x100 * p + o)) else none

/-- Partners with a session (14, R344). -/
def State.activePartners (s : State) : Nat := tcount s.partners.table fun _ P => P.session.isSome

/-- PTP.CTRL and PTP.TX_TS of port `p`. -/
def State.ptpReg (s : State) (p o : Nat) : Option (Nat × Nat) :=
  let P := s.port p
  if ¬ s.hasPort p then none
  else if o = 0xC00 then r32 (P.rxFull.toNat + 2 ^ 8 * P.txGo.toNat + 2 ^ 12 * P.oneStep.toNat + 2 ^ 16 * P.txDone.toNat)
  else match ixAt o 0xC08 8 4 with
  | some b => r64 ((tget P.txTs b).getD 0)
  | none => none

/-- The block at 0x00A_0000, but for its byte buffers. DESIGN CHOICE (log 100): on a PZ-8810 PSESS.CFG, which is no port's, stays,
and templates and neighbour entries go with the ports. -/
def State.blockPorts (s : State) (o : Nat) : Option (Nat × Nat) :=
  if o < 0x400 then s.portReg (o / 0x100) (o % 0x100)
  else match o with
  | 0x800 => r32 (s.partners.hsClass + 2 ^ 3 * s.partners.inClass)
  | 0x808 => r32 s.activePartners
  | 0x80C => r32 s.partners.full
  | 0x810 => r64 s.partners.spills
  | _ => if 0x8000 ≤ o ∧ o < 0xC000 then s.ptpReg ((o - 0x8000) / 0x1000) ((o - 0x8000) % 0x1000) else none

/-- Installed GiB behind private memory port `p`. -/
def State.pmemGib (s : State) (p : Nat) : Nat := if p = 0 then s.host.pmem0 else s.host.pmem1

/-- The registers of private memory port `p`. Its trained width is a free value (log 51). -/
def State.pmemReg (s : State) (p o : Nat) : Option (Nat × Nat) :=
  let g := s.pmemGib p
  if pmemsOf s.variant ≤ p then none
  else match o with
  | 0x00 => r32 (if g = 0 then 1 else 3 + 2 ^ 3 * (Config.primNat (.image 20) [le 1 p] % 9))
  | 0x04 => r32 (g + 2 ^ 16 * (g * 7 / 8))
  | 0x20 => r64 ((tget s.pmem.again p).getD 0)
  | _ => if (ixAt o 0x10 4 4).isSome then r32 (s.reg (0xB0000 + 0x100 * p + o)) else none

/-- PMEM.REGION[i]: the sizes that the spec gives; the other sizes and the bases are free values (log 51). -/
def State.pmemRegion (s : State) (i : Nat) : Nat :=
  let size := match i with
    | 2 => s.log.regionMib | 5 => s.overflowMib | 7 => 0 | _ => Config.primNat (.image 21) [le 1 i] % 2 ^ 32
  if i = 7 then 0 else regionBase i / 2 ^ 20 + 2 ^ 32 * size

/-- The block at 0x00B_0000. -/
def State.blockPmem (s : State) (o : Nat) : Option (Nat × Nat) :=
  if o < 0x200 then s.pmemReg (o / 0x100) (o % 0x100)
  else if o = 0x1000 then
    r32 (b2n s.interleaved + 2 * b2n (s.host.pmem1 != 0))
  else match ixAt o 0x1100 8 8 with
  | some i => r64 (s.pmemRegion i)
  | none => none

/-! ### Meridian (17, R412) -/

/-- The code of a link's state. -/
def linkCode : LinkMode → Nat
  | .absent => 0 | .down => 1 | .training => 2 | .handshake => 3 | .up => 4

/-- The registers of link `k`. -/
def State.linkReg (s : State) (k o : Nat) : Option (Nat × Nat) :=
  let L := s.link k
  if ¬ s.hasLink k then none
  else match o with
  | 0x00 => r32 (b2n L.enable)
  | 0x04 => r32 (linkCode L.mode + 2 ^ 3 * L.reason + 2 ^ 8 * (if L.mode = .up then L.peer else 0))
  | _ => if (ixAt o 0x10 4 4).isSome then r32 (s.reg (0xC0000 + 0x100 * k + o)) else none

/-- MER.CROSS_CFG: its reset value until it is written. -/
def State.crossMs (s : State) : Nat := (tget s.regs 0xC1018).getD 1000

/-- The block at 0x00C_0000. -/
def State.blockMeridian (s : State) (o : Nat) : Option (Nat × Nat) :=
  let C := s.cluster
  if o < 0x400 then s.linkReg (o / 0x100) (o % 0x100)
  else if portsOf s.variant = 0 then none
  else match o with
  | 0x1000 => r32 (C.node + 2 ^ 14 * b2n C.member + 2 ^ 15 * b2n C.pilotSet + 2 ^ 16 * b2n C.tethered)
  | 0x1004 => r32 ((C.roster.map (·.version)).getD 0)
  | 0x1008 => r64 (s.reg 0xC1008)
  | 0x1010 => r32 (2 ^ 4 * C.loadReason)
  | 0x1014 => r32 (s.reg 0xC1014)
  | 0x1018 => r32 s.crossMs
  | 0x1020 => r32 (s.reg 0xC1020)
  | 0x2000 => r32 (b2n C.tetherOn + 2 * b2n (C.tether.any fun e => e.2.online))
  | _ =>
    match ixAt o 0x3000 4 63, ixAt o 0x8000 4 4096 with
    | some d, _ =>
      let T := s.tether d
      r32 (T.node + 2 ^ 14 * b2n T.valid + 2 ^ 15 * b2n T.online + 2 ^ 16 * T.budget)
    | _, some w => r32 (s.reg (0xC8000 + 4 * w))
    | _, _ => none

/-! ### The logbook (15, R369) -/

/-- LOG.COUNT[r]. -/
def State.logCountReg (s : State) (r : Nat) : Nat :=
  let L := s.logReg r
  L.count + 2 ^ 32 * L.epoch + 2 ^ 48 * b2n (s.logFull r)

/-- The block at 0x00D_0000, but for LOG.VALUE. -/
def State.blockLog (s : State) (o : Nat) : Option (Nat × Nat) :=
  let L := s.log
  match o with
  | 0x1800 => r32 0
  | 0x2000 => r64 L.seq
  | 0x2008 => r32 (b2n L.nearFull + 2 * b2n L.headErr + 4 * b2n L.exportOn)
  | 0x200C => r32 (L.nextMib.getD 4096)
  | 0x2010 => r64 L.base
  | 0x2018 => r32 L.log2
  | 0x201C => r32 L.head.toNat
  | 0x2020 => r32 L.tail.toNat
  | 0x2024 => r32 L.lost
  | _ =>
    match ixAt o 0x1000 8 64, ixAt o 0x1440 4 48 with
    | some r, _ => r64 (s.logCountReg r)
    | _, some i => r32 (s.logReg (16 + i)).owner
    | _, _ => none

/-! ### The life cycle, boot, firmware and recovery (19, R451; 20, R468) -/

/-- LC.STATUS. -/
def State.lcStatus (s : State) : Nat := b2n s.lc.busy + 2 * b2n s.lc.intent.isSome + 2 ^ 8 * s.lc.reason

/-- The block at 0x00E_0000, but for its wide registers. -/
def State.blockLife (s : State) (o : Nat) : Option (Nat × Nat) :=
  match o with
  | 0x0000 => r32 s.lcState
  | 0x0050 => r64 (s.reg 0xE0050)
  | 0x0058 => r32 (s.reg 0xE0058)
  | 0x005C => r32 0
  | 0x0060 => r32 s.lcStatus
  | 0x00C0 => r32 s.lc.grant.toNat
  | 0x00C4 => r32 s.lc.fails
  | 0x1000 => r32 s.bootStatus
  | 0x1004 => r32 0
  | 0x1008 => r32 s.boot.timeMs
  | 0x1010 => r32 (s.lc.thermometer + 2 ^ 8 * s.svn)
  | 0x1018 => r64 (s.reg 0xE1018)
  | 0x1020 => r32 (s.reg 0xE1020)
  | 0x1024 => r32 0
  | 0x1028 => r32 (b2n s.boot.fwBusy + 2 ^ 8 * s.boot.fwReason)
  | 0x1030 => r64 (s.fwSlot 0)
  | 0x1038 => r64 (s.fwSlot 1)
  | 0x2000 => r64 (s.reg 0xE2000)
  | 0x2008 => r64 (s.reg 0xE2008)
  | 0x2010 => r32 0
  | _ => none

/-! ### Perturbation and progress (21, R475; 20, R468) -/

/-- The perturbation registers of function `f`. -/
def State.pertReg (s : State) (f o : Nat) : Option (Nat × Nat) :=
  let F := s.fn f
  match o with
  | 0x00 => r32 (F.ctrl.toNat + 2 ^ 8 * b2n F.pert)
  | 0x04 => r32 F.delayUs
  | 0x08 => r32 (F.jobsPerMs + 2 ^ 16 * F.holdUs)
  | 0x0C => r32 F.scale
  | 0x10 => r32 F.seed.toNat
  | 0x14 => r32 (s.reg (0xF0014 + 0x20 * f))
  | _ => none

/-- The progress registers of slot `i`. -/
def State.progReg (s : State) (i o : Nat) : Option (Nat × Nat) :=
  let p := s.prog i
  match o with
  | 0x00 => r32 p.opWord
  | 0x08 => r64 p.pos
  | 0x10 => r64 p.total
  | 0x18 => r32 p.permille
  | _ => none

/-! ### The maps (R485, R486) -/

/-- The register of PF BAR0 that begins at `off`: its width in bytes and its value. -/
def State.pfReg (s : State) (off : Nat) : Option (Nat × Nat) :=
  let o := off % 0x10000
  match off / 0x10000 with
  | 0 => s.blockGlobal o
  | 1 => (s.queue (o / 0x10)).bellReg (o % 0x10)
  | 2 => (s.queue (o / 0x10)).cfgReg (o / 0x10) (o % 0x10)
  | 3 => s.blockReck o
  | 4 => s.blockTiles o
  | 5 => s.blockKeys o
  | 6 => s.fltReg (o / 0x20) (o % 0x20)
  | 7 => s.blockSafe o
  | 8 => s.blockService o
  | 9 => s.blockTime o
  | 10 => s.blockPorts o
  | 11 => s.blockPmem o
  | 12 => s.blockMeridian o
  | 13 => s.blockLog o
  | 14 => s.blockLife o
  | 15 => if o < 0x2000 then s.pertReg (o / 0x20) (o % 0x20) else none
  | 16 => if o < 0x200 then s.progReg (o / 0x20) (o % 0x20) else none
  | _ => none

/-- A VF's own queue by its local number. -/
def State.vfQueue (s : State) (f l : Nat) : Queue × Nat :=
  match s.addressed f l with
  | some q => (s.queue q, q)
  | none => ({}, 256)

/-- The register of the BAR0 of VF `f` that begins at `off` (R478, R486). -/
def State.vfReg (s : State) (f off : Nat) : Option (Nat × Nat) :=
  let o := off % 0x1000
  match off / 0x1000 with
  | 0 =>
    if off < 0x30 then s.idReg off
    else (match off with
      | 0x30 => r32 (f + 2 ^ 8 * (s.fn f).maxQueues + 2 ^ 16 * s.queuesHeld f)
      | 0x100 => r32 (s.fnState f + 2 ^ 3 * b2n (s.fn f).pert + 2 ^ 4 * b2n s.boot.ready + 2 ^ 5 * b2n s.faults.safe.on)
      | 0x104 => r32 (s.reg (vfEventKey f))
      | _ => none)
  | 1 => if o < 0x400 then (s.vfQueue f (o / 0x10)).1.bellReg (o % 0x10) else none
  | 2 => if o < 0x400 then (s.vfQueue f (o / 0x10)).1.cfgReg (s.vfQueue f (o / 0x10)).2 (o % 0x10) else none
  | 3 => if (ixAt o 0 4 8).isSome then r32 (s.reg (fnErr f (o / 4))) else none
  | 4 => s.admqReg f o
  | 5 =>
    (match o with
     | 0x00 => r32 0
     | 0x04 => s.mboxReg f (2 * f + 1) 4
     | 0x08 => s.mboxReg f (2 * f) 8
     | 0x10 => s.mboxReg f (2 * f) 4
     | _ => none)
  | 6 => s.pertReg f o
  | _ => none

/-- The register of a function's BAR0 that begins at `off`. -/
def State.barReg (s : State) (f off : Nat) : Option (Nat × Nat) := if f = 0 then s.pfReg off else s.vfReg f off

/-! ### Wide registers and byte buffers -/

/-- The bytes of an OTP copy. -/
def State.lcCopy (s : State) (c : Nat) : Bytes :=
  le 16 (match c with | 0 => s.lc.copyA | 1 => s.lc.copyB | _ => s.lc.copyC).toNat

/-- The register wider than 64 bits that `off` lies in: its first offset, its bytes, and what a read of its lowest word
latches beside them, which for LOG.VALUE[r] is LOG.COUNT[r] (15, R369; 19, R451). -/
def State.wideReg (s : State) (off : Nat) : Option (Nat × Bytes × Bytes) :=
  match within? off 0xD0000 0x40 64 with
  | some (r, w) => if w < 48 then some (0xD0000 + 0x40 * r, fit 48 (s.logReg r).value, le 8 (s.logCountReg r)) else none
  | none =>
    match within? off 0xE0010 0x10 3 with
    | some (c, _) => some (0xE0010 + 0x10 * c, s.lcCopy c, [])
    | none =>
      if 0xE0040 ≤ off ∧ off < 0xE0050 then some (0xE0040, le 16 s.lc.deviceId.toNat, [])
      else if 0xE0080 ≤ off ∧ off < 0xE00C0 then some (0xE0080, fit 64 s.challenge, [])
      else none

/-- A byte buffer among the registers: a template, a neighbour entry, a PTP receive or transmit buffer. -/
inductive Area
  | template (t : Nat) | neighbour (e : Nat) | ptpRx (p b : Nat) | ptpTx (p b : Nat)
deriving DecidableEq, Repr

/-- The buffer that `off` lies in, and the offset within it. -/
def State.areaAt (s : State) (off : Nat) : Option (Area × Nat) :=
  if portsOf s.variant = 0 then none
  else match within? off 0xA1000 0x20 64, within? off 0xA2000 0x10 1024, within? off 0xA8000 0x1000 4 with
  | some (t, w), _, _ => some (.template t, w)
  | _, some (e, w), _ => some (.neighbour e, w)
  | _, _, some (p, w) =>
    if ¬ s.hasPort p then none
    else if w < 0x800 then some (.ptpRx p (w / 0x100), w % 0x100)
    else if w < 0xC00 then some (.ptpTx p ((w - 0x800) / 0x100), (w - 0x800) % 0x100)
    else none
  | _, _, _ => none

/-- The bytes of a buffer. -/
def State.areaBytes (s : State) : Area → Bytes
  | .template t => s.template t
  | .neighbour e => s.neighbour e
  | .ptpRx p b => (tget (s.port p).rx b).getD (zeros 256)
  | .ptpTx p b => (tget (s.port p).tx b).getD (zeros 256)

end Sys2Proof.Machine
end

