-- ==== Sys2Proof/Machine/RegWrite.lean ====
section
/-! DEFINITION. What a write of a register does, and what a read of one clears (00_scope.md, access table, R14, R15; 22,
R476-R488, and the register section that ends each chapter; log 51). -/

namespace Sys2Proof.Machine

/-! ### RC fields (00_scope.md R14) -/

/-- The RC registers of PF BAR0 that stand among the plain registers. -/
def rcPlain (off : Nat) : Bool :=
  (decide (0x2000 ≤ off) && decide (off < 0x4000)) ||
  [0x30018, 0x30020, 0x30028, 0x3002C, 0x50020, 0x50028, 0x9002C, 0xC1020].contains off ||
  ((List.range 4).any fun p => (ixAt off (0xA0040 + 0x100 * p) 4 15).isSome) ||
  ((List.range 2).any fun p => (ixAt off (0xB0010 + 0x100 * p) 4 4).isSome) ||
  ((List.range 4).any fun k => (ixAt off (0xC0010 + 0x100 * k) 4 4).isSome) ||
  (ixAt off 0xF0014 0x20 256).isSome

/-- The RC fields of the PF BAR0 register that begins at `off` are cleared. -/
def State.pfClear (s : State) (off : Nat) : State :=
  if rcPlain off then (if s.reg off = 0 then s else s.setReg off 0)
  else match off with
  | 0x4F020 => { s with chart := { s.chart with noRoute := 0 } }
  | 0x84800 => { s with service := { s.service with lockErr := 0 } }
  | 0xA080C => { s with partners := { s.partners with full := 0 } }
  | 0xA0810 => { s with partners := { s.partners with spills := 0 } }
  | 0xB0020 => { s with pmem := { s.pmem with again := tdel s.pmem.again 0 } }
  | 0xB0120 => { s with pmem := { s.pmem with again := tdel s.pmem.again 1 } }
  | 0xD2024 => { s with log := { s.log with lost := 0 } }
  | 0xE00C4 => { s with lc := { s.lc with fails := 0 } }
  | _ =>
    match ixAt off 0x40018 0x100 96, ixAt off 0x60008 0x20 512 with
    | some n, _ => if n < tilesOf s.variant then s.modTile n fun T => { T with mcCount := 0 } else s
    | _, some n => if s.hasSource n then s.modSrc n fun S => { S with total := 0 } else s
    | _, _ => s

/-- The RC fields of the register that begins at `off` in the BAR0 of function `f` are cleared. -/
def State.regClear (s : State) (f off : Nat) : State :=
  if f = 0 then s.pfClear off
  else match ixAt off 0x3000 4 8 with
  | some k => s.setReg (fnErr f k) 0
  | none => if off = 0x6014 then s.setReg (0xF0014 + 0x20 * f) 0 else s

/-! ### Writes, block by block -/

/-- The bits of `old` that a W1C write of `v` leaves. -/
def w1c (old v : Nat) : Nat := old - (old &&& v)

/-- A base of queue 0 of function `f` is written while the queue is absent (11, R254). -/
def State.writeAdmq (s : State) (f o v : Nat) : State :=
  match o with
  | 0x00 => if (s.queue f).mode = .absent then s.setReg (admqKey f 0) v else s
  | 0x08 => if (s.queue f).mode = .absent then s.setReg (admqKey f 1) v else s
  | 0x10 => s.admqCfg f (BitVec.ofNat 32 v)
  | _ => s

/-- A doorbell register is written by function `f`. -/
def State.writeBell (s : State) (f i o v : Nat) : State :=
  match o with
  | 0 => s.barDoorbell f i 0 (BitVec.ofNat 32 v) 0
  | 4 => s.barDoorbell f i 1 (BitVec.ofNat 32 v) 0
  | 8 => s.barDoorbell f i 2 (BitVec.ofNat 32 v) (bitsOf v 47 32 + 1)
  | _ => s

/-- The block at 0x000_0000. -/
def State.writeGlobal (s : State) (o v : Nat) : State :=
  if o = 0x1004 then s.setReg 0x1004 (w1c (s.reg 0x1004) v)
  else if 0x1100 ≤ o ∧ o < 0x1120 then s.writeAdmq 0 (o - 0x1100) v
  else match ixAt o 0x4000 4 256 with
  | some f => if bitOf v 5 then s.modFn f fun F => { F with flrDone := false } else s
  | none => s

/-- The block at 0x003_0000. -/
def State.writeReck (s : State) (o v : Nat) : State :=
  match o with
  | 0x38 => s.writeOverflow (BitVec.ofNat 32 v)
  | 0x40 => if v % 512 ≤ 0x101 then s.setReg 0x30040 (v % 512) else s
  | _ => s

/-- The block at 0x005_0000. -/
def State.writeKeys (s : State) (o v : Nat) : State :=
  if o = 0 then (if bitOf v 0 then { s with keys := { s.keys with quotaErr := false } } else s)
  else match ixAt o 0x1000 4 0x102, ixAt o 0x2000 4 0x102 with
  | some f, _ => s.writePartition f (BitVec.ofNat 32 v)
  | _, some f => { s with keys := { s.keys with quota := tput s.keys.quota f (v % 2 ^ 25) } }
  | _, _ => s

/-- The registers of fault source `n`. -/
def State.writeFlt (s : State) (n o v : Nat) : State :=
  if ¬ s.hasSource n then s
  else match o with
  | 0x00 => s.fltCfg n (BitVec.ofNat 32 v)
  | 0x04 => if bitOf v 8 then s.attnClear n else s
  | 0x0C => s.fltForce n (BitVec.ofNat 32 v)
  | _ => s

/-- The block at 0x007_0000. -/
def State.writeSafe (s : State) (o v : Nat) : State :=
  match o with
  | 0x14 => if bitOf v 0 then s.event 386 0x2D 0 else s
  | 0x30 => { s with faults := { s.faults with
      forceDen := s.faults.forceDen && !bitOf v 0, cfgDen := s.faults.cfgDen && !bitOf v 1 } }
  | 0x38 => s.fltRelease (BitVec.ofNat 32 v)
  | _ => s

/-- MBOX.CTRL[n] is written by a party to the mailbox. -/
def State.writeMboxCtrl (s : State) (f n v : Nat) : State :=
  if ¬ mboxParty f n then s
  else
    let t := s.modMbox n fun M => { M with
      dropped := M.dropped && !bitOf v 1, read := M.read && !bitOf v 2, recalled := M.recalled && !bitOf v 4,
      miss := M.miss && !bitOf v 5 }
    if bitOf v 3 then t.recall (.host f) n else t

/-- The block at 0x008_0000. -/
def State.writeService (s : State) (o v : Nat) : State :=
  match within? o 0 0x10 518, ixAt o 0x4000 4 256, within? o 0x5010 0x20 2 with
  | some (n, w), _, _ =>
    if w = 0 then s.mboxTx (.host 0) n (BitVec.ofNat 32 v) else if w = 4 then s.writeMboxCtrl 0 n v else s
  | _, some k, _ => s.lockFree 9 k
  | _, _, some (m, w) =>
    if w = 0 then s.modModule m fun M => { M with image := v }
    else if w = 8 then
      (let t := if bitOf v 0 then s.loadModule m else s
       if bitOf v 1 then t.stopCommand m else t)
    else s
  | _, _, _ => if o = 0x5000 then s.writeHandover (bitOf v 0) else s

/-- The block at 0x009_0000. -/
def State.writeTime (s : State) (o v : Nat) : State :=
  match o with
  | 0x0C => (let t := s.almSource (v % 4); if bitOf v 2 then t.setSignedOnly else t)
  | 0x10 => s.setStepBound v
  | 0x18 => s.setAlmanac v
  | 0x20 => s.adjOffset (signedOf 64 v)
  | 0x28 => s.setAdjFreq (signedOf 32 v)
  | _ => s

/-- The registers of field port `p`. -/
def State.writePort (s : State) (p o v : Nat) : State :=
  if ¬ s.hasPort p then s
  else match o with
  | 0x00 =>
    let t := s.modPort p fun P => { P with jumbo := bitOf v 1 }
    if p = 0 ∧ s.variant = .pz8840 then { t with partners := { t.partners with modeNvs := bitOf v 0 } } else t
  | 0x08 => s.modPort p fun P => { P with mac := BitVec.ofNat 48 v }
  | 0x10 => s.modPort p fun P => { P with etherType := BitVec.ofNat 16 v }
  | 0x14 => s.modPort p fun P => { P with udpPort := v % 65536 }
  | _ => s

/-- PTP.CTRL[p]. -/
def State.writePtp (s : State) (p v : Nat) : State :=
  if ¬ s.hasPort p then s
  else
    let t := s.modPort p fun P => { P with
      rxFull := P.rxFull &&& ~~~ BitVec.ofNat 8 v, txDone := P.txDone &&& ~~~ BitVec.ofNat 4 (bitsOf v 19 16),
      oneStep := BitVec.ofNat 4 (bitsOf v 15 12) }
    eachOf ((List.range 4).filter fun b => bitOf v (8 + b)) (fun u b => u.sendPtp p b) t

/-- The block at 0x00A_0000, but for its byte buffers; a class of 7 leaves its field as it is. -/
def State.writePorts (s : State) (o v : Nat) : State :=
  if o < 0x400 then s.writePort (o / 0x100) (o % 0x100) v
  else if o = 0x800 then
    { s with partners := { s.partners with
      hsClass := if v % 8 = 7 then s.partners.hsClass else v % 8,
      inClass := if v / 8 % 8 = 7 then s.partners.inClass else v / 8 % 8 } }
  else match ixAt o 0x8C00 0x1000 4 with
  | some p => s.writePtp p v
  | none => s

/-- MER.TETHER[d] is written; a budget out of range discards the write. A device that is no longer named goes offline, and a
new budget changes the shares (17, R409). -/
def State.writeTether (s : State) (d v : Nat) : State :=
  let T := s.tether d
  let b := bitsOf v 23 16
  if b = 0 ∨ 50 < b then s
  else
    let same := T.node == v % 2 ^ 14 && bitOf v 14
    let t := s.modTether d fun T => { T with
      node := v % 2 ^ 14, valid := bitOf v 14, online := T.online && same, budget := b }
    if T.online && (!same || T.budget != b) then t.reshare else t

/-- The block at 0x00C_0000. -/
def State.writeMeridian (s : State) (o v : Nat) : State :=
  if portsOf s.variant = 0 then s
  else match ixAt o 0 0x100 4, ixAt o 0x3000 4 63, ixAt o 0x8000 4 4096 with
  | some k, _, _ => s.writeLinkCtrl k (BitVec.ofNat 32 v)
  | _, some d, _ => s.writeTether d v
  | _, _, some w => s.setReg (0xC8000 + 4 * w) (v &&& 0x07070707)
  | _, _, _ =>
    match o with
    | 0x1008 => s.setReg 0xC1008 v
    | 0x1010 => if bitOf v 0 then s.loadRoster else s
    | 0x1014 => s.setReg 0xC1014 (v % 2 ^ 14)
    | 0x1018 => if 100 ≤ v % 65536 ∧ v % 65536 ≤ 60000 then s.setReg 0xC1018 (v % 65536) else s
    | 0x2000 => { s with cluster := { s.cluster with tetherOn := bitOf v 0 } }
    | _ => s

/-- The block at 0x00D_0000; the export ring's base and size are fixed while it is enabled (15, R369). -/
def State.writeLog (s : State) (o v : Nat) : State :=
  let L := s.log
  match o with
  | 0x1800 => s.writeRoll (BitVec.ofNat 32 v)
  | 0x2008 => { s with log := { L with headErr := L.headErr && !bitOf v 1, exportOn := bitOf v 2 } }
  | 0x200C => s.writeRegionMib (BitVec.ofNat 32 v)
  | 0x2010 => if L.exportOn then s else { s with log := { L with base := v / 4096 * 4096 } }
  | 0x2018 => if L.exportOn ∨ v % 32 < 10 ∨ 24 < v % 32 then s else { s with log := { L with log2 := v % 32 } }
  | 0x201C => s.writeExportHead (BitVec.ofNat 32 v)
  | _ =>
    match ixAt o 0x1440 4 48 with
    | some i => s.writeOwner (16 + i) (BitVec.ofNat 32 v)
    | none => s

/-! ### The recovery protocol through the PF (20, R465) -/

/-- The state that a meaning leaves. -/
def State.after (s : State) (o : Out) : State := match o with | .next t => t | _ => s

/-- RCV.CTRL.GO: the request at RCV.REQ_ADDR is served. SELF_TEST, whose outcome its own command carries, is not run here. -/
def State.rcvGo (s : State) : State :=
  let h := s.hostRead (s.reg 0xE2000) 16
  let seq := leAt h 8 4
  let n := leAt h 12 4
  let body := s.hostRead (s.reg 0xE2000 + 16) (min n 1032)
  if (s.readFault (s.reg 0xE2000) (16 + min n 1032)).isSome ∨ leAt h 0 4 ≠ 0x56434552 ∨ leAt h 4 1 ≠ 1 ∨ 1032 < n then s
  else match leAt h 5 1 with
  | 0x01 => s.after (execHello .pf seq s)
  | 0x02 => s.after (execReadProgress .pf seq s)
  | 0x03 => s.after (execFwWrite .pf seq body s)
  | 0x04 => s.after (execFwFinish .pf seq body s)
  | 0x05 => s.after (execAuthWrite .pf seq body s)
  | 0x06 => s.after (execAuthSubmit .pf seq s.time.elapsed s)
  | 0x07 => s.after (execChartWrite .pf seq body s)
  | 0x08 => s.after (execChartFinish .pf seq body s)
  | 0x0A => s.after (execRecoveryReset .pf seq body s)
  | _ => s

/-- FW.CTRL. -/
def State.writeFwCtrl (s : State) (v : Nat) : State :=
  let a := if bitOf v 0 then s.stage else s
  let b := if bitOf v 2 then a.confirm else a
  let c := if bitOf v 3 then b.commitSvn else b
  if bitOf v 1 then c.activate else c

/-- The block at 0x00E_0000. -/
def State.writeLife (s : State) (o v : Nat) : State :=
  match o with
  | 0x0050 => s.setReg 0xE0050 v
  | 0x0058 => s.setReg 0xE0058 v
  | 0x005C =>
    (let t := if bitOf v 0 then (s.submitAuth s.lcBlock 1).1 else s
     if bitOf v 1 then (t.submitAuth t.lcBlock 2).1 else t)
  | 0x1004 => if bitOf v 1 then s.landfallReset else if bitOf v 0 then s.deviceReset else s
  | 0x1018 => s.setReg 0xE1018 v
  | 0x1020 => s.setReg 0xE1020 v
  | 0x1024 => s.writeFwCtrl v
  | 0x2000 => s.setReg 0xE2000 v
  | 0x2008 => s.setReg 0xE2008 v
  | 0x2010 => if bitOf v 0 then s.rcvGo else s
  | _ => s

/-- The perturbation controls of function `f`: written only while they are enabled; a write with a value out of range is
discarded whole. A SEED of zero draws the generator's state from the DRBG (21, R471, R472). -/
def State.writePert (s : State) (f o v : Nat) : State :=
  if ¬ (s.fn f).pert then s
  else match o with
  | 0x00 => s.modFn f fun F => { F with ctrl := BitVec.ofNat 5 v }
  | 0x04 => if v % 1024 ≤ 1000 then s.modFn f fun F => { F with delayUs := v % 1024 } else s
  | 0x08 =>
    if v % 65536 = 0 ∨ 1000 < bitsOf v 25 16 then s
    else s.modFn f fun F => { F with jobsPerMs := v % 65536, holdUs := bitsOf v 25 16 }
  | 0x0C => if 1 ≤ v % 32 ∧ v % 32 ≤ 16 then s.modFn f fun F => { F with scale := v % 32 } else s
  | 0x10 =>
    if v % 2 ^ 32 = 0 then
      (s.drawn 4).modFn f fun F => { F with seed := 0, rng := BitVec.ofNat 32 (fromLE (drbgBytes s.draws 4)) }
    else s.modFn f fun F => { F with seed := BitVec.ofNat 32 v, rng := BitVec.ofNat 32 v }
  | _ => s

/-! ### The maps -/

/-- A write of the PF BAR0 register that begins at `off`. -/
def State.pfWrite (s : State) (off v : Nat) : State :=
  let o := off % 0x10000
  match off / 0x10000 with
  | 0 => s.writeGlobal o v
  | 1 => s.writeBell 0 (o / 0x10) (o % 0x10) v
  | 3 => s.writeReck o v
  | 5 => s.writeKeys o v
  | 6 => s.writeFlt (o / 0x20) (o % 0x20) v
  | 7 => s.writeSafe o v
  | 8 => s.writeService o v
  | 9 => s.writeTime o v
  | 10 => s.writePorts o v
  | 12 => s.writeMeridian o v
  | 13 => s.writeLog o v
  | 14 => s.writeLife o v
  | 15 => if o < 0x2000 then s.writePert (o / 0x20) (o % 0x20) v else s
  | _ => s

/-- A write of the register that begins at `off` in the BAR0 of VF `f`. -/
def State.vfWrite (s : State) (f off v : Nat) : State :=
  let o := off % 0x1000
  match off / 0x1000 with
  | 0 => if off = 0x104 then s.setReg (vfEventKey f) (w1c (s.reg (vfEventKey f)) v) else s
  | 1 => if o < 0x400 then s.writeBell f (o / 0x10) (o % 0x10) v else s
  | 4 => s.writeAdmq f o v
  | 5 =>
    (match o with
     | 0x00 => s.mboxTx (.host f) (2 * f + 1) (BitVec.ofNat 32 v)
     | 0x04 => s.writeMboxCtrl f (2 * f + 1) v
     | 0x10 => s.writeMboxCtrl f (2 * f) v
     | _ => s)
  | 6 => s.writePert f o v
  | _ => s

/-- A write of the register that begins at `off` in a function's BAR0. -/
def State.regWrite (s : State) (f off v : Nat) : State := if f = 0 then s.pfWrite off v else s.vfWrite f off v

/-! ### Accesses of BAR0 (00_scope.md R17, R18; 20, R458, R464; 11, R269) -/

/-- The registers of function `f` that answer now: PF0 in Landfall mode exposes the identification, life-cycle, boot,
firmware, recovery and progress registers; before READY only BOOT.STATUS. -/
def State.exposes (s : State) (f off : Nat) : Bool :=
  if f ≠ 0 ∨ s.boot.ready then s.barOn f
  else if s.boot.landfall then
    decide (off < 0x30) || (decide (0xE0000 ≤ off) && decide (off < 0xF0000)) ||
    (decide (0x100000 ≤ off) && decide (off < 0x110000))
  else off / 4 == 0xE1000 / 4

/-- The mailbox whose MBOX.RX function `f` has at `off` or four bytes below. -/
def rxOf (f off : Nat) : Option (Nat × Bool) :=
  if f = 0 then
    (match within? off 0x80000 0x10 518 with
     | some (n, 8) => some (n, false)
     | some (n, 12) => some (n, true)
     | _ => none)
  else if off = 0x5008 then some (2 * f, false)
  else if off = 0x500C then some (2 * f, true)
  else none

/-- The lock whose LOCK.ACQ lies at `off`. -/
def lockOf (f off : Nat) : Option Nat := if f = 0 then ixAt off 0x84000 4 256 else none

/-- A read of a word of a register wider than 64 bits: the lowest word latches the whole, and the later words, and those of
the latched LOG.COUNT, come from the latch (15, R369; 19, R451). -/
def State.wideRead (s : State) (f off : Nat) : Option (State × Nat) :=
  if f ≠ 0 then none
  else match s.wideReg off with
  | some (a, bs, more) =>
    if off = a then
      some (s.modFn 0 fun F => { F with wideLatch := tput F.wideLatch a (bs ++ more) }, leAt bs 0 4)
    else some (s, leAt ((tget (s.fn 0).wideLatch a).getD bs) (off - a) 4)
  | none =>
    match within? off 0xD1000 8 64 with
    | some (r, w) =>
      (tget (s.fn 0).wideLatch (0xD0000 + 0x40 * r)).map fun ls =>
        (if w = 4 then s.modFn 0 fun F => { F with wideLatch := tdel F.wideLatch (0xD0000 + 0x40 * r) } else s, leAt ls (48 + w) 4)
    | none => none

/-- A 32-bit read of a register: what it returns and what it leaves; `take` is false through BAR4, whose reads clear,
acquire and take nothing (R488). -/
def State.read32 (s : State) (f off : Nat) (take : Bool) : State :=
  let clear (u : State) (o : Nat) : State := if take then u.regClear f o else u
  match (if take then lockOf f off else none), (if take then rxOf f off else none), (if f = 0 then s.areaAt off else none),
    s.wideRead f off with
  | some k, _, _, _ => s.lockTake 9 k
  | _, some (n, up), _, _ => s.mboxRx (.host f) n (if up then .upper else .lower)
  | _, _, some (A, w), _ => s.returns (BitVec.ofNat 64 (leAt (s.areaBytes A) w 4))
  | _, _, _, some (t, v) => t.returns (BitVec.ofNat 64 v)
  | _, _, _, _ =>
    match s.barReg f off, (if off % 8 = 4 then s.barReg f (off - 4) else none) with
    | some (8, v), _ =>
      (clear (s.modFn f fun F => { F with latch := tput F.latch off (BitVec.ofNat 32 (v >>> 32)) }) off).returns
        (BitVec.ofNat 64 (v % 2 ^ 32))
    | some (_, v), _ => (clear s off).returns (BitVec.ofNat 64 v)
    | none, some (8, v) =>
      (match tget (s.fn f).latch (off - 4) with
       | some h => (s.modFn f fun F => { F with latch := tdel F.latch (off - 4) }).returns (BitVec.ofNat 64 h.toNat)
       | none => s.returns (BitVec.ofNat 64 (v >>> 32)))
    | none, _ => s.returns 0

/-- A 64-bit read: of a mailbox word whole, else of the two halves of a register or of two registers, the lower first. -/
def State.read64 (s : State) (f off : Nat) (take : Bool) : State :=
  match (if take then rxOf f off else none) with
  | some (n, false) => s.mboxRx (.host f) n .both
  | _ =>
    let lo := s.read32 f off take
    let hi := lo.read32 f (off + 4) take
    hi.returns (BitVec.ofNat 64 (lo.host.lastRead.toNat % 2 ^ 32 + 2 ^ 32 * (hi.host.lastRead.toNat % 2 ^ 32)))

/-- The bytes of a template that it holds: the reserved bits of FLOW_LABEL and the last eight bytes read as zero
(00, R15; 14, R329). -/
def keptTemplate (b : Bytes) : Bytes := b.take 23 ++ (sliceOf b 23 1).map (· &&& 0x0F) ++ zeros 8

/-- The bytes of a neighbour entry that it holds: the reserved bits of FLAGS and the last six bytes read as zero (R15). -/
def keptNeighbour (b : Bytes) : Bytes := b.take 9 ++ (sliceOf b 9 1).map (· &&& 0x01) ++ zeros 6

/-- Bytes are written over a buffer, whose reserved bits they leave at zero; receive buffers are read-only. -/
def State.writeArea (s : State) (A : Area) (w : Nat) (b : Bytes) : State :=
  match A with
  | .template t =>
    { s with partners := { s.partners with templates := tput s.partners.templates t (keptTemplate (overlay (s.template t) w b)) } }
  | .neighbour e =>
    { s with partners := { s.partners with
      neighbours := tput s.partners.neighbours e (keptNeighbour (overlay (s.neighbour e) w b)) } }
  | .ptpTx p i => s.modPort p fun P => { P with tx := tput P.tx i (overlay ((tget P.tx i).getD (zeros 256)) w b) }
  | .ptpRx _ _ => s

/-- A 32-bit write; a half of a 64-bit register takes effect with the upper half (R18). -/
def State.write32 (s : State) (f off v : Nat) : State :=
  match (if f = 0 then s.areaAt off else none) with
  | some (A, w) => s.writeArea A w (le 4 v)
  | none =>
    match s.barReg f off, (if off % 8 = 4 then s.barReg f (off - 4) else none) with
    | some (8, _), _ => s.modFn f fun F => { F with lowHalf := tput F.lowHalf off (BitVec.ofNat 32 v) }
    | some (_, _), _ => s.regWrite f off v
    | none, some (8, old) =>
      let lo := ((tget (s.fn f).lowHalf (off - 4)).map BitVec.toNat).getD (old % 2 ^ 32)
      (s.modFn f fun F => { F with lowHalf := tdel F.lowHalf (off - 4) }).regWrite f (off - 4) (lo + 2 ^ 32 * v)
    | none, _ => s

/-- A 64-bit write: of a 64-bit register whole, else of two 32-bit registers, the lower first. -/
def State.write64 (s : State) (f off v : Nat) : State :=
  match (if f = 0 then s.areaAt off else none), s.barReg f off with
  | some (A, w), _ => s.writeArea A w (le 8 v)
  | none, some (8, _) => s.regWrite f off v
  | none, _ => (s.write32 f off (v % 2 ^ 32)).write32 f (off + 4) (v >>> 32)

/-- What a write through BAR4 does beside its value: it clears the RC fields of the register, or takes a mailbox word
(R488). -/
def State.bar4Touch (s : State) (f off : Nat) : State :=
  match rxOf f off with
  | some (n, _) => (s.mboxRx (.host f) n .both).returns s.host.lastRead
  | none =>
    match s.barReg f off, (if off % 8 = 4 then s.barReg f (off - 4) else none) with
    | none, some (8, _) => s.regClear f (off - 4)
    | _, _ => s.regClear f off

/-- An aligned write of a function's BAR0, or through BAR4, whose writes of LOCK.ACQ are discarded. -/
def State.accessWrite (s : State) (f off v : Nat) (wide bar4 : Bool) : State :=
  if bar4 ∧ (lockOf f off).isSome then s
  else
    let t := if bar4 then (if wide ∧ (rxOf f off).isNone then (s.bar4Touch f off).bar4Touch f (off + 4) else s.bar4Touch f off) else s
    if wide then t.write64 f off v else t.write32 f off v

/-- The queue whose STATE, SQ_HEAD or CQ_TAIL a read of function `f` at `off` takes in (10, R232, R252). -/
def State.cfgQueue (s : State) (f off : Nat) (wide : Bool) : Option Nat :=
  let base := if f = 0 then 0x20000 else 0x2000
  let n := if f = 0 then 4096 else 64
  match within? off base 0x10 n with
  | some (i, w) => if w = 0 ∧ !wide then none else if f = 0 then some i else s.addressed f i
  | none => none

/-- A read waits behind a doorbell write to its queue that is held (R232; 21, R472). -/
def State.readWaits (s : State) (f off : Nat) (wide : Bool) : Bool :=
  (s.cfgQueue f off wide).any fun q => (s.fn (s.queue q).fn).heldFor q

/-- What a read of the QCFG registers returns. -/
def State.cfgPeek (s : State) (f off : Nat) (wide : Bool) : Nat :=
  let word := fun (o : Nat) => ((s.barReg f o).map (·.2)).getD 0
  word off + (if wide then 2 ^ 32 * word (off + 4) else 0)

/-- A read joins those that wait. -/
def State.waitRead (s : State) (f off : Nat) (wide : Bool) : State :=
  { s with host := { s.host with reads := s.host.reads ++ [(f, off, wide)] } }

/-- An aligned access of a function's BAR0, or one through the lead's BAR4. -/
def State.access (s : State) (f off : Nat) (a : Access) (bar4 : Bool) : State :=
  if ¬ s.exposes f off then
    (match a with
     | .read32 | .read64 => s.returns 0
     | _ => s)
  else match a with
  | .read32 => if !bar4 && s.readWaits f off false then s.waitRead f off false else s.read32 f off (!bar4)
  | .read64 => if !bar4 && s.readWaits f off true then s.waitRead f off true else s.read64 f off (!bar4)
  | .write32 v => s.accessWrite f off v.toNat false bar4
  | .write64 v => s.accessWrite f off v.toNat true bar4

/-- The reads that waited behind held doorbells and no longer do return what their registers hold now. -/
def State.readsReturn (s : State) : State :=
  let done := s.host.reads.filter fun r => !s.readWaits r.1 r.2.1 r.2.2
  done.foldl (fun u r => u.returns (BitVec.ofNat 64 (s.cfgPeek r.1 r.2.1 r.2.2)))
    { s with host := { s.host with reads := s.host.reads.filter fun r => s.readWaits r.1 r.2.1 r.2.2 } }

/-- PERT_DOORBELL_HOLD: the held doorbells of a function that are due are processed in order, and the reads behind them return
(R232; 21, R472). -/
def execPertDoorbellHold (fn t : Nat) (s : State) : Out :=
  let u := s.at_ t
  let due := (u.fn fn).held.takeWhile fun H => H.due ≤ u.time.elapsed
  let v := u.modFn fn fun F => { F with held := F.held.drop due.length }
  within (okFn fn) s (due.foldl (fun w H => w.heldDoorbell H) v).readsReturn

/-- Bytes of an access. -/
def accBytes : Access → Nat
  | .read32 | .write32 _ => 4
  | .read64 | .write64 _ => 8

/-- An access reads. -/
def accReads : Access → Bool
  | .read32 | .read64 => true
  | _ => false

/-- All ones in each 32-bit lane of a width in bytes. -/
def allOnes (n : Nat) : BitVec 64 := BitVec.ofNat 64 (2 ^ (8 * n) - 1)

/-- An access that R17 does not accept: it reads as all ones or is discarded, and it is recorded. -/
def State.refuseAccess (s : State) (f bytes : Nat) (reads : Bool) : State :=
  (if reads then s.returns (allOnes bytes) else s).badAccess f

end Sys2Proof.Machine
end

