-- ==== Sys2Proof/Machine/PciConfig.lean ====
section
/-! DEFINITION. Configuration space of PF0 and of the VFs: the type 0 header, the capabilities, and what a write of them does
(00_scope.md R1, R2; 22_registers.md R488-R494). The registers inside a capability that the spec does not list have the
layout of the PCI Express standard (log 81, PRESUMED). -/

namespace Sys2Proof.Machine

/-! ### Words that software writes -/

/-- The writable bits of the words that the device only stores, and their reset value (log 81). -/
def cfgPlain (bar4 pf : Bool) (off : Nat) : Nat × Nat :=
  match pf, off with
  | _, 0x04 => (0x0546, 0)
  | true, 0x0C => (0xFF, 0)
  | true, 0x10 => (0xFC000000, 0)
  | true, 0x14 => (0xFFFFFFFF, 0)
  | true, 0x18 => (0xFFFF0000, 0)
  | true, 0x1C => (0xFFFFFFFF, 0)
  | true, 0x24 => (if bar4 then 0xFFFFFFFF else 0, 0)
  | true, 0x3C => (0xFF, 0)
  | _, 0x58 => (0x7FFF, 0x2810)
  | true, 0x60 => (0x0FFF, 0)
  | _, 0x78 => (0xFFFF, 0)
  | true, 0x80 => (0xFFFF, 6)
  | _, 0xB0 => (0xC0000000, 0)
  | true, 0x108 => (0xFFFFFFFF, 0)
  | true, 0x10C => (0xFFFFFFFF, 0x00462030)
  | true, 0x114 => (0xFFFFFFFF, 0x00002000)
  | true, 0x118 => (0x140, 0)
  | true, 0x180 => (0xFFFFFFFF, 1)
  | true, 0x184 => (0xFFFF0000, 0)
  | true, 0x188 => (0xFFFFFFFF, 0)
  | true, 0x18C => (0xFFFFF000, 0)
  | true, 0x190 => (0xFFFFFFFF, 0)
  | true, 0x1A4 => (0x801F0000, 0)
  | false, 0x114 => (0x801F0000, 0)
  | true, 0x204 => (0x80000000, 0x80000000)
  | _, _ => (0, 0)

/-- What such a word holds. -/
def State.cfgHeld (s : State) (f off : Nat) : Nat :=
  (tget s.regs (cfgKey f off)).getD (cfgPlain s.cluster.bar4 (f == 0) off).2

/-! ### What the words read as -/

/-- The header of an extended capability: its ID, version and the next one's offset. -/
def extCap (id ver next : Nat) : Nat := id + 2 ^ 16 * ver + 2 ^ 20 * next

/-- The read-only bits that PF0 and the VFs share: the Class Code, Revision ID and the PCI Express and MSI-X capabilities
(R1, R490, R492). -/
def cfgCommon (f off : Nat) : Nat :=
  match off with
  | 0x04 => 0x00100000
  | 0x08 => 0x108000B0
  | 0x50 => 0x0002B010
  | 0x54 => 0x10008022
  | 0x5C => 0x00000106
  | 0x74 => 0x0003001F
  | 0x7C => 0x0000007E
  | 0xB0 => 0x11 + 2 ^ 16 * (if f = 0 then 2047 else 63)
  | 0xB4 => 2
  | 0xB8 => (if f = 0 then 0x8000 else 0x800) + 2
  | _ => 0

/-- The bits of SR-IOV Control (R492). -/
def State.sriovCtl (s : State) : Nat :=
  b2n (s.fns.any fun e => 0 < e.1 && e.1 < 0x100 && e.2.enabled) + 8 * (s.reg (cfgKey 0 0x168) / 8 % 2) + 16 * b2n s.host.ari

/-- The bits of DOE Control and DOE Status (R491). -/
def State.doeStatus (s : State) : Nat :=
  2 * (s.reg (cfgKey 0 0x1CC) / 2 % 2) + 4 * b2n s.host.doeErr + 2 ^ 31 * b2n (!s.host.doeObj.isEmpty)

/-- The read-only bits of PF0's words (R489-R492). -/
def State.cfgPf (s : State) (off : Nat) : Nat :=
  match off with
  | 0x00 => 0x88401FD4
  | 0x10 | 0x18 => 4
  | 0x20 => if s.cluster.bar4 then 0xC else 0
  | 0x2C => 0x00001FD4
  | 0x34 => 0x40
  | 0x40 => 0x00035001
  | 0x44 => if s.host.d3hot then 3 else 0
  | 0x60 => 2 ^ 16 * (s.host.gen + 16 * s.host.width)
  | 0x100 => extCap 0x0001 2 0x148
  | 0x148 => extCap 0x0003 1 0x158
  | 0x14C => s.lc.deviceId.toNat % 2 ^ 32
  | 0x150 => s.lc.deviceId.toNat / 2 ^ 32 % 2 ^ 32
  | 0x158 => extCap 0x000E 1 0x160
  | 0x160 => extCap 0x0010 1 0x1A0
  | 0x164 => 2
  | 0x168 => s.sriovCtl
  | 0x16C => 255 + 2 ^ 16 * 255
  | 0x170 => s.host.numVfs
  | 0x174 => 1 + 2 ^ 16
  | 0x178 => 0x88410000
  | 0x17C => 1
  | 0x184 | 0x18C => 4
  | 0x1A0 => extCap 0x000F 1 0x1B0
  | 0x1A4 => 0x20
  | 0x1B0 => extCap 0x000D 1 0x1C0
  | 0x1C0 => extCap 0x002E 1 0x1E0
  | 0x1C4 => 1 + 2 * 3
  | 0x1C8 => 2 * b2n s.host.doeIrq
  | 0x1CC => s.doeStatus
  | 0x1D4 => leAt s.host.doeObj 0 4
  | 0x1E0 => extCap 0x0019 1 0x200
  | 0x200 => extCap 0x0025 1 0x210
  | 0x204 => 1
  | 0x210 => extCap 0x0026 1 0x240
  | 0x240 => extCap 0x002A 1 0x280
  | 0x280 => extCap 0x0031 1 0x2C0
  | 0x2C0 => extCap 0x0027 1 0x300
  | 0x300 => extCap 0x0023 1 0x340
  | 0x304 | 0x344 | 0x364 => 0x1E98 + 2 ^ 20 * (if off = 0x304 then 0x3C else 0x20)
  | 0x308 => 2 ^ 16 * 3
  | 0x340 => extCap 0x0023 1 0x360
  | 0x348 => 7
  | 0x360 => extCap 0x0023 1 0
  | 0x368 => 8
  | _ => 0

/-- The read-only bits of a VF's words: the device ID of R2, PF0's class code, and PCI Express with FLR, MSI-X, ARI and ATS
(R492). -/
def cfgVf (off : Nat) : Nat :=
  match off with
  | 0x00 => 0x88411FD4
  | 0x2C => 0x00001FD4
  | 0x34 => 0x50
  | 0x100 => extCap 0x000E 1 0x110
  | 0x110 => extCap 0x000F 1 0
  | 0x114 => 0x20
  | _ => 0

/-- A 32-bit word of the configuration space of function `f`. -/
def State.cfgWord (s : State) (f off : Nat) : Nat :=
  (cfgCommon f off ||| (if f = 0 then s.cfgPf off else cfgVf off)) ||| s.cfgHeld f off

/-! ### What a write does -/

/-- VF Enable is set: VF1 to VF NumVFs are enabled, or VF1 to VF7 while ARI Capable Hierarchy is clear (R492). -/
def State.enableVfs (s : State) : State :=
  let n := if s.host.ari then min s.host.numVfs 255 else min s.host.numVfs 7
  eachOf ((List.range n).map (· + 1)) (fun u f => u.modFn f fun F => { F with enabled := true }) s

/-- SR-IOV Control is written: VF Enable enables or ends the VFs; VF MSE is stored; ARI Capable Hierarchy is PF0's. -/
def State.writeSriov (s : State) (v : Nat) : State :=
  let on := s.sriovCtl % 2 == 1
  let t := { s with host := { s.host with ari := if on then s.host.ari else bitOf v 4 } }.setReg (cfgKey 0 0x168) (v &&& 8)
  if on == bitOf v 0 then t else if bitOf v 0 then t.enableVfs else t.clearVfs

/-- Power Management: D3hot acts as an FLR of PF0; D0 finds PF0 in its post-FLR state (R494). -/
def State.writePower (s : State) (v : Nat) : State :=
  match v % 4 with
  | 3 => if s.host.d3hot then s else { s.pf0Flr with host := { s.pf0Flr.host with d3hot := true } }
  | 0 => { s with host := { s.host with d3hot := false } }
  | _ => s

/-- Initiate FLR of Device Control. -/
def State.initiateFlr (s : State) (f : Nat) : State :=
  if f = 0 then s.pf0Flr else if (s.fn f).flr then s else s.beginFlr f

/-- The vendor, type and length of a DOE data object, in bytes; a length of 0 stands for 2^18 words (log 81). -/
def doeHeader (b : Bytes) : Nat × Nat × Nat :=
  (leAt b 0 2, leAt b 2 1, 4 * (if leAt b 4 4 % 2 ^ 18 = 0 then 2 ^ 18 else leAt b 4 4 % 2 ^ 18))

/-- DOE Discovery: the protocol of an index, and the next index (R491). -/
def doeDiscovery (i : Nat) : Bytes := le 2 1 ++ le 1 (if i < 3 then i else 0) ++ le 1 (if i < 2 then i + 1 else 0)

/-- DOE Go: the object in the mailbox is answered by its protocol; one that is not of its length or of an unknown protocol is
discarded with DOE Error (R491). -/
def State.doeGo (s : State) : State :=
  let b := s.host.doeIn
  let (vendor, type, n) := doeHeader b
  let t := { s with host := { s.host with doeIn := [] } }
  if vendor ≠ 1 ∨ 2 < type ∨ b.length ≠ n then { t with host := { t.host with doeErr := true } }
  else if type = 0 then t.doeReady (doeObject 0 (doeDiscovery (leAt b 8 1)))
  else
    let req := b.drop 8
    match (match rqCode req with | 0x85 => some spdmChunkSend | 0x86 => some spdmChunkGet | _ => spdmFor req) with
    | some f => t.after (spdmRow .doe (rqCode req) f req t)
    | none => t.sendSpdm .doe ((t.spdmOf .doe).err eUnsupported)

/-- The DOE mailbox is written: Control, Status, the write mailbox, or the read mailbox, which a write moves on. -/
def State.writeDoe (s : State) (off v : Nat) : State :=
  match off with
  | 0x1C8 =>
    (let t := { s with host := { s.host with doeIrq := bitOf v 1 } }
     if bitOf v 0 then t.doeAbort else if bitOf v 31 then t.doeGo else t)
  | 0x1CC => if bitOf v 1 then s.setReg (cfgKey 0 0x1CC) 0 else s
  | 0x1D0 =>
    if s.host.doeErr then s
    else if 65536 ≤ s.host.doeIn.length then { s with host := { s.host with doeIn := [], doeErr := true } }
    else { s with host := { s.host with doeIn := s.host.doeIn ++ le 4 v } }
  | 0x1D4 => { s with host := { s.host with doeObj := s.host.doeObj.drop 4 } }
  | _ => s

/-- A 32-bit write of the configuration space of function `f`. -/
def State.cfgWrite (s : State) (f off v : Nat) : State :=
  let m := (cfgPlain s.cluster.bar4 (f == 0) off).1
  let t := if m = 0 then s else s.setReg (cfgKey f off) (v &&& m)
  if off = 0x58 then (if bitOf v 15 then t.initiateFlr f else t)
  else if f ≠ 0 then t
  else match off with
  | 0x44 => t.writePower v
  | 0x168 => t.writeSriov v
  | 0x170 => if s.sriovCtl % 2 = 1 then t else { t with host := { t.host with numVfs := v % 65536 } }
  | 0x1C8 | 0x1CC | 0x1D0 | 0x1D4 => t.writeDoe off v
  | _ => t

/-- The configuration space of a function answers: PF0's always, a VF's while it is enabled. -/
def State.cfgOn (s : State) (f : Nat) : Bool := f == 0 || (s.fn f).enabled

/-- An access of configuration space; one of a function that is not there reads as all ones. -/
def State.accessCfg (s : State) (f off : Nat) (a : Access) : State :=
  match a with
  | .read32 => s.returns (BitVec.ofNat 64 (if s.cfgOn f then s.cfgWord f off else 0xFFFFFFFF))
  | .read64 => s.returns (BitVec.ofNat 64 (if s.cfgOn f then s.cfgWord f off + 2 ^ 32 * s.cfgWord f (off + 4) else 2 ^ 64 - 1))
  | .write32 v => if s.cfgOn f then s.cfgWrite f off v.toNat else s
  | .write64 v => if s.cfgOn f then (s.cfgWrite f off (v.toNat % 2 ^ 32)).cfgWrite f (off + 4) (v.toNat >>> 32) else s

end Sys2Proof.Machine
end

