-- ==== Sys2Proof/Machine/HostPort.lean ====
section
/-! DEFINITION. The host port: accesses of the windows, the link's retraining, address translation, telemetry, and the
registers of a tethered device that its lead reaches through BAR4 (00_scope.md R17, R18; 17, R408; 22, R482-R488, R493;
log 51, 52). -/

namespace Sys2Proof.Machine

/-! ### BAR2: the MSI-X table and the pending bits (R487) -/

/-- Where the words of a function's MSI-X table are kept among the plain registers. -/
def msixKey (f off : Nat) : Nat := 0x12000000 + 0x10000 * f + off

/-- Vectors of a function. -/
def vectorsOf (f : Nat) : Nat := if f = 0 then 2048 else 64

/-- The pending-bit word `w` of a function. -/
def State.pbaWord (s : State) (f w : Nat) : Nat :=
  ((List.range 32).map fun i => if (s.fn f).pba.contains (32 * w + i) then 2 ^ i else 0).sum

/-- A 32-bit word of BAR2. -/
def State.bar2Word (s : State) (f off : Nat) : Nat :=
  if off < 16 * vectorsOf f then
    (if off % 16 = 12 then b2n ((s.fn f).mask.contains (off / 16)) else s.reg (msixKey f off))
  else
    let p := if f = 0 then 0x8000 else 0x800
    if p ≤ off ∧ off < p + vectorsOf f / 8 then s.pbaWord f ((off - p) / 4) else 0

/-- A 32-bit write of BAR2: the mask bit of Vector Control masks or unmasks; the PBA is read-only. -/
def State.bar2Write (s : State) (f off v : Nat) : State :=
  if off < 16 * vectorsOf f then
    (if off % 16 = 12 then
      (if bitOf v 0 then s.modFn f fun F => { F with
         mask := if F.mask.contains (off / 16) then F.mask else F.mask ++ [off / 16] }
       else s.unmask f (off / 16))
     else s.setReg (msixKey f off) v)
  else s

/-- An access of BAR2. -/
def State.accessBar2 (s : State) (f off : Nat) (a : Access) : State :=
  match a with
  | .read32 => s.returns (BitVec.ofNat 64 (s.bar2Word f off))
  | .read64 => s.returns (BitVec.ofNat 64 (s.bar2Word f off + 2 ^ 32 * s.bar2Word f (off + 4)))
  | .write32 v => s.bar2Write f off v.toNat
  | .write64 v => (s.bar2Write f off (v.toNat % 2 ^ 32)).bar2Write f (off + 4) (v.toNat >>> 32)

/-! ### BAR4: the tethered devices of a lead (R488; 17, R408, R410) -/

/-- The operation, offset, size and value of a TETHER_REG. -/
def tetherRegBody (off : Nat) (a : Access) : Bytes :=
  let v := match a with | .write32 v => v.toNat | .write64 v => v.toNat | _ => 0
  le 1 (if accReads a then 0 else 1) ++ le 4 off ++ le 1 (accBytes a) ++ le 8 v

/-- An access of BAR4: slot 63 reads as zero, an offline slot as all ones; else it travels as TETHER_REG, and a read returns
with TETHER_REG_CPL. -/
def State.accessBar4 (s : State) (off : Nat) (a : Access) : State :=
  let d := off / 2 ^ 26
  if ¬ s.cluster.bar4 then s
  else if d = 63 then (if accReads a then s.returns 0 else s)
  else if ¬ (s.tether d).online ∨ s.faults.safe.on then (if accReads a then s.returns (allOnes (accBytes a)) else s)
  else s.merAsk (s.tether d).node 0x13 (tetherRegBody (off % 2 ^ 26) a) []

/-- TETHER_REG: an access of its lead reaches the tethered device's PF BAR0; or the lead tells it its share, which it applies
from its next tick. -/
def execTetherReg (t : Nat) (s : State) : Out :=
  merRow 0x13 t (fun s m =>
    let b := m.body
    let off := leAt b 9 4
    let v := leAt b 14 8
    let wide := leAt b 13 1 == 8
    if ¬ s.cluster.tethered ∨ s.faults.safe.on ∨ b.length ≠ 22 then s
    else match leAt b 8 1 with
    | 0 => s.once m fun s =>
      let u := (s.access 0 off (if wide then .read64 else .read32) true)
      (u.merAnswer m.src m.req 0x14 (le 8 u.host.lastRead.toNat)).returns s.host.lastRead
    | 1 => s.once m fun s =>
      (s.access 0 off (if wide then .write64 (BitVec.ofNat 64 v) else .write32 (BitVec.ofNat 32 v)) true).merAnswer
        m.src m.req 0x14 (le 8 0)
    | 2 => s.once m fun s =>
      let u : State := { s with
        cluster := { s.cluster with lead := some m.src }, host := { s.host with budgetNext := some v } }
      u.merAnswer m.src m.req 0x14 (le 8 0)
    | _ => s) s

/-! ### The commands -/

/-- The size of a window of a function. -/
def windowSize (bar : Window) (f : Nat) : Nat :=
  match bar with
  | .pfBar0 => 2 ^ 26 | .vfBar0 => 2 ^ 16 | .bar4 => 2 ^ 32
  | .bar2 => if f = 0 then 2 ^ 16 else 2 ^ 12
  | .config => 2 ^ 12

/-- A function has a window. -/
def hasWindow (bar : Window) (f : Nat) : Bool :=
  match bar with
  | .pfBar0 | .bar4 => f == 0
  | .vfBar0 => decide (0 < f) && decide (f < 256)
  | .bar2 | .config => decide (f < 256)

/-- A function's windows respond: PF0's outside D3hot, a VF's while SR-IOV has enabled it. -/
def State.responds (s : State) (f : Nat) : Bool := if f = 0 then !s.host.d3hot else (s.fn f).enabled

/-- REGISTER_WRITE: an access of a window, a write or a read, takes effect by the register's access type; what a read returns
stands in `host.lastRead`. -/
def execRegisterWrite (bar : Window) (fn off : Nat) (acc : Access) (s : State) : Out :=
  within (hasWindow bar fn && decide (off + accBytes acc ≤ windowSize bar fn)) s (
    if bar = .config then
      (if off % 4 ≠ 0 then (if accReads acc then s.returns (allOnes (accBytes acc)) else s) else s.accessCfg fn off acc)
    else if ¬ s.responds fn then s
    else match bar with
    | .config => s
    | .pfBar0 | .vfBar0 =>
      if off % accBytes acc ≠ 0 then s.refuseAccess fn (accBytes acc) (accReads acc) else s.access fn off acc false
    | .bar2 => if off % accBytes acc ≠ 0 then s else s.accessBar2 fn off acc
    | .bar4 =>
      if ¬ s.cluster.bar4 then s
      else if off % accBytes acc ≠ 0 then s.refuseAccess 0 (accBytes acc) (accReads acc) else s.accessBar4 off acc)

/-- R17 accepts an access: naturally aligned, of 32 or 64 bits. -/
def accepted (off bytes : Nat) : Bool := (bytes == 4 || bytes == 8) && off % bytes == 0

/-- BAD_ACCESS: an access of BAR0 that R17 does not accept reads as all ones or is discarded, and is recorded. -/
def execBadAccess (fn off bytes : Nat) (write : Bool) (t : Nat) (s : State) : Out :=
  let u := s.at_ t
  within (okFn fn) s (if ¬ u.responds fn ∨ accepted off bytes then u else u.refuseAccess fn (min 8 (4 * ceilDiv bytes 4)) (!write))

/-- A retrain that slows the link may slow the release of the jobs accepted before it, whose guarantee ends (R482; log 102). -/
def State.slowedBy (s : State) (gen width : Nat) : State :=
  if linkBudget gen width < linkBudget s.host.gen s.host.width then
    { s with jobs := tmap s.jobs fun _ J =>
      if J.accepted.isSome && decide (J.released < J.relBytes) then { J with uncovered := true } else J }
  else s

/-- HOST_LINK_RETRAIN: GLB.HOST_LINK takes the new speed and width, and the release budget follows from the next tick; a
lead's shares are computed again (R482; 17, R409). -/
def execHostLinkRetrain (gen width : Nat) (s : State) : Out :=
  let u := s.slowedBy gen width
  let t : State := { u with host := { u.host with gen := gen, width := width } }
  within (decide (gen ≤ 6) && decide (width ≤ 16)) s (
    if s.cluster.tethered then t
    else if t.online.isEmpty then { t with host := { t.host with budgetNext := some (linkBudget gen width) } }
    else t.reshare)

/-- ATS_INVALIDATION: the device stops using the translations of a range, and then completes the request. A later use asks
again; the host's answer is what host memory shows (R493). -/
def execAtsInvalidation (fn addr len : Nat) (s : State) : Out :=
  within (okFn fn && decide (addr + len ≤ 2 ^ 64)) s (s.emit (.ats fn))

/-- TELEMETRY_PERIOD: the averages of the period that ends, and the count of periods. -/
def execTelemetryPeriod (powerW tempC : Nat) (s : State) : Out :=
  let n := (bitsOf (s.reg 0x1018) 63 32 + 1) % 2 ^ 32
  done s (s.setReg 0x1018 (powerW % 1024 + 2 ^ 16 * (tempC % 256) + 2 ^ 32 * n))

end Sys2Proof.Machine
end

