-- ==== Sys2Proof/Machine/Lattice.lean ====
section
/-! DEFINITION. Families 0x1 and 0x2: ML-KEM, ML-DSA and FN-DSA (05_lattice.md R102-R123). -/

namespace Sys2Proof.Machine

/-! ### ML-KEM (R107-R110) -/

/-- ML_KEM_KEYGEN: d and z come from AUX or the DRBG (R107). -/
def execMlKemKeygen (j : Nat) (s : State) : Out := keygenRow 0x10 j s

/-- ML_KEM_ENCAPS. -/
def execMlKemEncaps (j : Nat) (s : State) : Out := computeRow 0x11 j (fun s J => s.encapsOut J 32 true) s

/-- ML_KEM_DECAPS. -/
def execMlKemDecaps (j : Nat) (s : State) : Out := computeRow 0x12 j (fun s J => s.decapsOut J true) s

/-! ### ML-DSA (R111-R119) -/

/-- ML_DSA_KEYGEN. -/
def execMlDsaKeygen (j : Nat) (s : State) : Out := keygenRow 0x20 j s

/-- ML_DSA_SIGN: rnd is zero or drawn; iteration i passes first, and RESULT[47:32] is i + 1; 128 batches of eight without
one end the job with MCHECK (R114-R117). -/
def execMlDsaSign (j : Nat) (s : State) : Out :=
  computeRow 0x21 j (fun s J =>
    let alg := algOf J.opcode
    let n := if J.pbit 8 then 0 else 32
    let rnd := if J.pbit 8 then zeros 32 else drbgBytes s.draws 32
    let ins := [s.keyBytes J, J.mPrime (if J.pfield 7 0 = 0 then [] else J.auxPart 0), rnd]
    let its := attemptsOf alg ins
    if decide (1024 < its) || Config.primBool (.shortfall J.opcode) ins then (runaway, n)
    else
      let sig := prim (.sign alg) ins (sigLen alg)
      ({ output := sig, result := sig.length + its * 2 ^ 32 }, n)) s

/-- ML_DSA_VERIFY. -/
def execMlDsaVerify (j : Nat) (s : State) : Out := computeRow 0x22 j (fun s J => pureOut (s.dsaVerify J)) s

/-! ### FN-DSA (R120-R122) -/

/-- FN_DSA_KEYGEN: attempts until FIPS 206 accepts f and g; past 48 the loop is runaway. -/
def execFnDsaKeygen (j : Nat) (s : State) : Out := keygenRow 0x24 j s

/-- FN_DSA_SIGN: a drawn salt of 40 bytes, then attempts, each of which fails or not by what it draws alone; past 64 the loop
is runaway. -/
def execFnDsaSign (j : Nat) (s : State) : Out :=
  computeRow 0x25 j (fun s J =>
    let alg := algOf J.opcode
    let n := firstPass J.opcode (s.draws + 40) 64 0
    let drew := 40 + 32 * min n 64
    if 64 < n then (runaway, drew)
    else
      let sig := prim (.sign alg) [s.keyBytes J, J.mPrime (if J.pfield 7 0 = 0 then [] else J.auxPart 0),
        drbgBytes s.draws 40, drbgBytes (s.draws + 40 + 32 * (n - 1)) 32] (sigLen alg)
      ({ output := sig, result := sig.length + n * 2 ^ 32 }, drew)) s

/-- FN_DSA_VERIFY: a key that does not decode is KEY_INVALID. -/
def execFnDsaVerify (j : Nat) (s : State) : Out :=
  computeRow 0x26 j (fun s J =>
    if Config.primBool (.keyCheck (algOf J.opcode)) [s.pubBytes J (J.auxPart 0)] then pureOut (s.dsaVerify J)
    else pureOut (keyFails false)) s

end Sys2Proof.Machine
end

