-- ==== Sys2Proof/Machine/Float.lean ====
section
/-! DEFINITION. Floating-point arithmetic of binary32 and binary64 as the F and D extensions do it: exact results,
rounded once, with their flags (16_service_complex.md R380). -/

namespace Sys2Proof.Machine

/-- A format: widths of exponent and fraction. -/
structure Fmt where
  ew : Nat
  mw : Nat
deriving DecidableEq, Repr

/-- binary32. -/
def f32 : Fmt := ⟨8, 23⟩
/-- binary64. -/
def f64 : Fmt := ⟨11, 52⟩

/-- Width. -/
def Fmt.width (F : Fmt) : Nat := 1 + F.ew + F.mw
/-- Exponent bias. -/
def Fmt.bias (F : Fmt) : Nat := 2 ^ (F.ew - 1) - 1
/-- The exponent of the last place of a subnormal. -/
def Fmt.emin (F : Fmt) : Int := 1 - (F.bias : Int) - (F.mw : Int)

/-- A value: not a number, an infinity, or (−1)^s · m · 2^e. -/
inductive FNum
  | nan (signaling : Bool)
  | inf (s : Bool)
  | fin (s : Bool) (m : Nat) (e : Int)
deriving DecidableEq, Repr

/-- The value of a bit pattern. -/
def Fmt.unpack (F : Fmt) (x : Nat) : FNum :=
  let f := x % 2 ^ F.mw
  let e := x / 2 ^ F.mw % 2 ^ F.ew
  let s := x / 2 ^ (F.ew + F.mw) % 2 == 1
  if e = 2 ^ F.ew - 1 then (if f = 0 then .inf s else .nan (f < 2 ^ (F.mw - 1)))
  else if e = 0 then .fin s f F.emin
  else .fin s (2 ^ F.mw + f) (F.emin + (e : Int) - 1)

/-- The sign bit in place. -/
def Fmt.signed (F : Fmt) (s : Bool) (x : Nat) : Nat := b2n s * 2 ^ (F.ew + F.mw) + x
/-- An infinity. -/
def Fmt.infinity (F : Fmt) (s : Bool) : Nat := F.signed s ((2 ^ F.ew - 1) * 2 ^ F.mw)
/-- The canonical NaN. -/
def Fmt.canonical (F : Fmt) : Nat := (2 ^ F.ew - 1) * 2 ^ F.mw + 2 ^ (F.mw - 1)
/-- The largest finite magnitude. -/
def Fmt.largest (F : Fmt) (s : Bool) : Nat := F.signed s ((2 ^ F.ew - 1) * 2 ^ F.mw - 1)
/-- The sign bit flipped. -/
def Fmt.neg (F : Fmt) (x : Nat) : Nat := (x + 2 ^ (F.ew + F.mw)) % 2 ^ F.width

/-- A result with its flags: NV 16, DZ 8, OF 4, UF 2, NX 1. -/
abbrev FRes := Nat × Nat

/-- Rounding adds one in the last place: the remainder `rem` of a place worth `2 · half`, `sticky` for what lies below it.
Modes: 0 to nearest even, 1 toward zero, 2 down, 3 up, 4 to nearest away. -/
def roundUp (rm : Nat) (s odd : Bool) (rem half : Nat) (sticky : Bool) : Bool :=
  match rm with
  | 0 => decide (half < rem) || (rem == half && (sticky || odd))
  | 2 => s && (rem != 0 || sticky)
  | 3 => !s && (rem != 0 || sticky)
  | 4 => decide (half ≤ rem)
  | _ => false

/-- `m · 2^e` as a multiple of `2^q`, rounded; and whether that was inexact. -/
def roundAt (rm : Nat) (s : Bool) (m : Nat) (e q : Int) (sticky : Bool) : Nat × Bool :=
  if q ≤ e then
    let M := m * 2 ^ (e - q).toNat
    (M + b2n (roundUp rm s (M % 2 == 1) 0 1 sticky), sticky)
  else
    let d := (q - e).toNat
    let M := m / 2 ^ d
    let rem := m % 2 ^ d
    (M + b2n (roundUp rm s (M % 2 == 1) rem (2 ^ (d - 1)) sticky), rem != 0 || sticky)

/-- The result of an overflow. -/
def Fmt.overflow (F : Fmt) (rm : Nat) (s : Bool) : FRes :=
  (if rm = 1 ∨ (rm = 2 ∧ ¬ s) ∨ (rm = 3 ∧ s) then F.largest s else F.infinity s, 5)

/-- The nearest value in a rounding mode to the exact `(−1)^s · m · 2^e`, `m` not zero; tininess is detected after
rounding. -/
def Fmt.round (F : Fmt) (rm : Nat) (s : Bool) (m : Nat) (e : Int) (sticky : Bool) : FRes :=
  let top : Int := e + (Nat.log2 m : Int)
  let qu : Int := top - (F.mw : Int)
  let q : Int := max qu F.emin
  let r := roundAt rm s m e q sticky
  let bits := ((q - F.emin).toNat) * 2 ^ F.mw + r.1
  let bits := if F.emin < q ∨ 2 ^ F.mw ≤ r.1 then bits else r.1
  let low : Int := F.emin + (F.mw : Int)
  let tiny := decide (top < low) && !(top == low - 1 && decide (2 ^ (F.mw + 1) ≤ (roundAt rm s m e qu sticky).1))
  if (2 ^ F.ew - 1) * 2 ^ F.mw ≤ bits then F.overflow rm s
  else (F.signed s bits, b2n r.2 + (if tiny && r.2 then 2 else 0))

/-- The NV flag where an operand signals. -/
def nvOf (l : List FNum) : Nat := if l.any fun x => x == .nan true then 16 else 0

/-- Some operand is not a number. -/
def anyNan (l : List FNum) : Bool := l.any fun x => match x with | .nan _ => true | _ => false

/-- The exact sum of two finite values, rounded. -/
def Fmt.sumFin (F : Fmt) (rm : Nat) (s : Bool) (m : Nat) (e : Int) (s' : Bool) (m' : Nat) (e' : Int) : FRes :=
  let q := min e e'
  let x : Int := (if s then -1 else 1) * (m * 2 ^ (e - q).toNat : Nat)
  let y : Int := (if s' then -1 else 1) * (m' * 2 ^ (e' - q).toNat : Nat)
  let t := x + y
  if t = 0 then (F.signed (if m = 0 ∧ m' = 0 ∧ s = s' then s else rm == 2) 0, 0)
  else F.round rm (decide (t < 0)) t.natAbs q false

/-- A sum. -/
def Fmt.add (F : Fmt) (rm a b : Nat) : FRes :=
  let x := F.unpack a
  let y := F.unpack b
  if anyNan [x, y] then (F.canonical, nvOf [x, y])
  else match x, y with
  | .inf s, .inf s' => if s = s' then (F.infinity s, 0) else (F.canonical, 16)
  | .inf s, _ => (F.infinity s, 0)
  | _, .inf s => (F.infinity s, 0)
  | .fin s m e, .fin s' m' e' => F.sumFin rm s m e s' m' e'
  | _, _ => (F.canonical, 0)

/-- A difference. -/
def Fmt.sub (F : Fmt) (rm a b : Nat) : FRes := F.add rm a (F.neg b)

/-- A product. -/
def Fmt.mul (F : Fmt) (rm a b : Nat) : FRes :=
  let x := F.unpack a
  let y := F.unpack b
  if anyNan [x, y] then (F.canonical, nvOf [x, y])
  else match x, y with
  | .inf s, .inf s' => (F.infinity (s != s'), 0)
  | .inf s, .fin s' m _ => if m = 0 then (F.canonical, 16) else (F.infinity (s != s'), 0)
  | .fin s m _, .inf s' => if m = 0 then (F.canonical, 16) else (F.infinity (s != s'), 0)
  | .fin s m e, .fin s' m' e' =>
    if m = 0 ∨ m' = 0 then (F.signed (s != s') 0, 0) else F.round rm (s != s') (m * m') (e + e') false
  | _, _ => (F.canonical, 0)

/-- The exact product of two values that are numbers: none where it is an infinity times zero. -/
def exactMul (x y : FNum) : Option FNum :=
  match x, y with
  | .inf s, .inf s' => some (.inf (s != s'))
  | .inf s, .fin s' m _ => if m = 0 then none else some (.inf (s != s'))
  | .fin s m _, .inf s' => if m = 0 then none else some (.inf (s != s'))
  | .fin s m e, .fin s' m' e' => some (.fin (s != s') (m * m') (e + e'))
  | _, _ => some (.nan false)

/-- A fused multiply-add: a · b + c rounded once. -/
def Fmt.fma (F : Fmt) (rm a b c : Nat) : FRes :=
  let x := F.unpack a
  let y := F.unpack b
  let z := F.unpack c
  match exactMul x y with
  | none => (F.canonical, 16)
  | some p =>
    if anyNan [x, y, z] then (F.canonical, nvOf [x, y, z])
    else match p, z with
    | .inf s, .inf s' => if s = s' then (F.infinity s, 0) else (F.canonical, 16)
    | .inf s, _ => (F.infinity s, 0)
    | _, .inf s => (F.infinity s, 0)
    | .fin s m e, .fin s' m' e' => F.sumFin rm s m e s' m' e'
    | _, _ => (F.canonical, 0)

/-- A quotient. -/
def Fmt.div (F : Fmt) (rm a b : Nat) : FRes :=
  let x := F.unpack a
  let y := F.unpack b
  if anyNan [x, y] then (F.canonical, nvOf [x, y])
  else match x, y with
  | .inf _, .inf _ => (F.canonical, 16)
  | .inf s, .fin s' _ _ => (F.infinity (s != s'), 0)
  | .fin s _ _, .inf s' => (F.signed (s != s') 0, 0)
  | .fin s m e, .fin s' m' e' =>
    if m' = 0 then (if m = 0 then (F.canonical, 16) else (F.infinity (s != s'), 8))
    else if m = 0 then (F.signed (s != s') 0, 0)
    else
      let k := 2 * F.mw + 4
      F.round rm (s != s') (m * 2 ^ k / m') (e - k - e') (m * 2 ^ k % m' != 0)
  | _, _ => (F.canonical, 0)

/-- The quiet comparison "less than": a signaling NaN raises NV. -/
def Fmt.lt (F : Fmt) (a b : Nat) : Bool × Nat :=
  let x := F.unpack a
  let y := F.unpack b
  if anyNan [x, y] then (false, nvOf [x, y])
  else
    (match x, y with
     | .inf s, .inf s' => s && !s'
     | .inf s, _ => s
     | _, .inf s => !s
     | .fin s m e, .fin s' m' e' =>
       let q := min e e'
       decide ((if s then -1 else 1) * ((m * 2 ^ (e - q).toNat : Nat) : Int) < (if s' then -1 else 1) * ((m' * 2 ^ (e' - q).toNat : Nat) : Int))
     | _, _ => false, 0)

/-- A signed integer to the format. -/
def Fmt.ofInt (F : Fmt) (rm : Nat) (x : Int) : FRes :=
  if x = 0 then (0, 0) else F.round rm (decide (x < 0)) x.natAbs 0 false

/-- A value to a signed integer of `n` bits, saturating; NV on overflow or NaN. -/
def Fmt.toInt (F : Fmt) (rm n a : Nat) : FRes :=
  let hi : Nat := 2 ^ (n - 1) - 1
  let lo : Nat := 2 ^ (n - 1)
  match F.unpack a with
  | .nan _ => (hi, 16)
  | .inf s => (if s then lo else hi, 16)
  | .fin s m e =>
    let r := roundAt rm s m e 0 false
    if s then (if lo < r.1 then (lo, 16) else (twosOf n (-(r.1 : Int)), b2n r.2))
    else if hi < r.1 then (hi, 16) else (r.1, b2n r.2)

/-- The conjugate's imaginary part: the sign flipped, a NaN canonical. -/
def Fmt.negPart (F : Fmt) (a : Nat) : Nat := if anyNan [F.unpack a] then F.canonical else F.neg a

/-- A part that passes through, a NaN canonical. -/
def Fmt.samePart (F : Fmt) (a : Nat) : Nat := if anyNan [F.unpack a] then F.canonical else a

end Sys2Proof.Machine
end

