-- ==== Sys2Proof/Machine/Pelorus.lean ====
section
/-! DEFINITION. The Pelorus vector extension of the Helm cores (16_service_complex.md R377-R380). -/

namespace Sys2Proof.Machine

/-! ### Registers, elements, exceptions -/

/-- Vector register `i`. -/
def Core.vreg (C : Core) (i : BitVec 5) : BitVec 128 := (tget C.v i.toNat).getD 0

/-- Integer register `i`; x0 is zero. -/
def Core.xreg (C : Core) (i : BitVec 5) : BitVec 64 := if i = 0 then 0 else (tget C.x i.toNat).getD 0

/-- A vector register is written, and XS is Dirty. -/
def Core.setV (C : Core) (i : BitVec 5) (v : BitVec 128) : Core := { C with v := tput C.v i.toNat v, xs := 3 }

/-- An integer register is written; x0 discards. -/
def Core.setX (C : Core) (i : BitVec 5) (v : BitVec 64) : Core := if i = 0 then C else { C with x := tput C.x i.toNat v }

/-- Width of an element of an integer instruction. -/
def elemBits (w : BitVec 2) : Nat := 8 * 2 ^ w.toNat

/-- The elements of `n` bits of a register, element 0 first. -/
def elems (n : Nat) (v : BitVec 128) : List Nat := (List.range (128 / n)).map fun i => v.toNat / 2 ^ (n * i) % 2 ^ n

/-- The register of a list of elements of `n` bits. -/
def ofElems (n : Nat) (l : List Nat) : BitVec 128 := BitVec.ofNat 128 (l.foldr (fun x acc => x % 2 ^ n + 2 ^ n * acc) 0)

/-- An exception: on a core that runs an owner module it stops the module (R375); a firmware core records it. -/
def State.raise (s : State) (c cause addr : Nat) : State :=
  if s.moduleOn c then s.moduleFault (c - 6) cause addr else s.modCore c fun C => { C with exc := some (cause, addr) }

/-- The address of an instruction, which the model does not hold: free (log 43). -/
def State.pcOf (s : State) (c : Nat) : Nat := Config.primNat (.image 8) [le 1 c, le 8 s.time.elapsed]

/-- A Pelorus instruction on core `c`: illegal while XS is Off or where its form is not legal, else its effect. -/
def pelorus (c : Nat) (legal : Core → Bool) (f : Core → Core) (s : State) : Out :=
  within (decide (c < 8)) s (
    if (s.core c).stopped then s
    else if (s.core c).xs = 0 ∨ ¬ legal (s.core c) then s.raise c 2 (s.pcOf c)
    else s.modCore c f)

/-- A write of CSR pmod (R379). -/
def execPmodWrite (core : Nat) (value : BitVec 64) (s : State) : Out :=
  let q := value.toNat
  pelorus core (fun _ => true) (fun C => { C with
    xs := 3, pmod := if q % 2 = 1 ∧ 3 ≤ q ∧ q ≤ 2 ^ 31 - 1 then BitVec.ofNat 31 q else 0 }) s

/-! ### Integer, funct3 0b000 -/

/-- An element-wise instruction on two vector registers. -/
def intOp (core : Nat) (rd rs1 rs2 : BitVec 5) (w : BitVec 2) (f : Nat → Nat → Nat → Nat) (s : State) : Out :=
  let n := elemBits w
  pelorus core (fun _ => true)
    (fun C => C.setV rd (ofElems n (List.zipWith (f n) (elems n (C.vreg rs1)) (elems n (C.vreg rs2))))) s

/-- A logic instruction: W must be 0b11. -/
def logicOp (core : Nat) (rd rs1 rs2 : BitVec 5) (w : BitVec 2) (f : BitVec 128 → BitVec 128 → BitVec 128) (s : State) : Out :=
  pelorus core (fun _ => w == 3) (fun C => C.setV rd (f (C.vreg rs1) (C.vreg rs2))) s

/-- A shift by x[rs2] modulo the width. -/
def shiftOp (core : Nat) (rd rs1 rs2 : BitVec 5) (w : BitVec 2) (f : Nat → Nat → Nat → Nat) (s : State) : Out :=
  let n := elemBits w
  pelorus core (fun _ => true)
    (fun C => C.setV rd (ofElems n ((elems n (C.vreg rs1)).map fun a => f n a ((C.xreg rs2).toNat % n)))) s

/-- All ones of a width where a condition holds. -/
def maskOf (n : Nat) (b : Bool) : Nat := if b then 2 ^ n - 1 else 0

/-- VADD. -/
def execVadd (core : Nat) (rd rs1 rs2 : BitVec 5) (w : BitVec 2) (s : State) : Out :=
  intOp core rd rs1 rs2 w (fun n a b => (a + b) % 2 ^ n) s

/-- VSUB. -/
def execVsub (core : Nat) (rd rs1 rs2 : BitVec 5) (w : BitVec 2) (s : State) : Out :=
  intOp core rd rs1 rs2 w (fun n a b => (a + 2 ^ n - b) % 2 ^ n) s

/-- VMUL: the low half. -/
def execVmul (core : Nat) (rd rs1 rs2 : BitVec 5) (w : BitVec 2) (s : State) : Out :=
  intOp core rd rs1 rs2 w (fun n a b => a * b % 2 ^ n) s

/-- VMULH: the high half of the signed product. -/
def execVmulh (core : Nat) (rd rs1 rs2 : BitVec 5) (w : BitVec 2) (s : State) : Out :=
  intOp core rd rs1 rs2 w (fun n a b => twosOf n (signedOf n a * signedOf n b / (2 ^ n : Nat))) s

/-- VAND. -/
def execVand (core : Nat) (rd rs1 rs2 : BitVec 5) (w : BitVec 2) (s : State) : Out :=
  logicOp core rd rs1 rs2 w (· &&& ·) s

/-- VOR. -/
def execVor (core : Nat) (rd rs1 rs2 : BitVec 5) (w : BitVec 2) (s : State) : Out :=
  logicOp core rd rs1 rs2 w (· ||| ·) s

/-- VXOR. -/
def execVxor (core : Nat) (rd rs1 rs2 : BitVec 5) (w : BitVec 2) (s : State) : Out :=
  logicOp core rd rs1 rs2 w (· ^^^ ·) s

/-- VSLL. -/
def execVsll (core : Nat) (rd rs1 rs2 : BitVec 5) (w : BitVec 2) (s : State) : Out :=
  shiftOp core rd rs1 rs2 w (fun n a k => a * 2 ^ k % 2 ^ n) s

/-- VSRL. -/
def execVsrl (core : Nat) (rd rs1 rs2 : BitVec 5) (w : BitVec 2) (s : State) : Out :=
  shiftOp core rd rs1 rs2 w (fun _ a k => a / 2 ^ k) s

/-- VSRA. -/
def execVsra (core : Nat) (rd rs1 rs2 : BitVec 5) (w : BitVec 2) (s : State) : Out :=
  shiftOp core rd rs1 rs2 w (fun n a k => twosOf n (signedOf n a / (2 ^ k : Nat))) s

/-- VMIN. -/
def execVmin (core : Nat) (rd rs1 rs2 : BitVec 5) (w : BitVec 2) (s : State) : Out :=
  intOp core rd rs1 rs2 w (fun n a b => if signedOf n a ≤ signedOf n b then a else b) s

/-- VMAX. -/
def execVmax (core : Nat) (rd rs1 rs2 : BitVec 5) (w : BitVec 2) (s : State) : Out :=
  intOp core rd rs1 rs2 w (fun n a b => if signedOf n a ≤ signedOf n b then b else a) s

/-- VSHUF: W 0b00 only. -/
def execVshuf (core : Nat) (rd rs1 rs2 : BitVec 5) (w : BitVec 2) (s : State) : Out :=
  pelorus core (fun _ => w == 0)
    (fun C => C.setV rd (ofElems 8 ((elems 8 (C.vreg rs2)).map fun i => (elems 8 (C.vreg rs1)).getD (i % 16) 0))) s

/-! ### Floating point, funct3 0b001 -/

/-- The format that W names: 0b10 and 0b00 f32, 0b11 and 0b01 f64. -/
def fmtOf (w : BitVec 2) : Fmt := if w.getLsbD 0 then f64 else f32

/-- The rounding mode of frm; a reserved value rounds in a mode that the spec does not state (log 43). -/
def Core.rm (C : Core) : Nat := if C.frm.toNat < 5 then C.frm.toNat else Config.primNat (.image 7) [le 1 C.frm.toNat] % 5

/-- Elements with flags written back: flags accumulate. -/
def Core.setF (C : Core) (rd : BitVec 5) (n : Nat) (l : List FRes) : Core :=
  { C.setV rd (ofElems n (l.map (·.1))) with fflags := C.fflags ||| BitVec.ofNat 5 (l.foldl (fun acc r => acc ||| r.2) 0) }

/-- An element-wise operation on two registers; `all` where complex forms are allowed too. -/
def floatOp (core : Nat) (rd rs1 rs2 : BitVec 5) (w : BitVec 2) (legal : Bool) (f : Fmt → Nat → Nat → Nat → FRes) (s : State) : Out :=
  let F := fmtOf w
  pelorus core (fun _ => legal)
    (fun C => C.setF rd F.width (List.zipWith (f F C.rm) (elems F.width (C.vreg rs1)) (elems F.width (C.vreg rs2)))) s

/-- W names real elements. -/
def realW (w : BitVec 2) : Bool := w.getLsbD 1
/-- W names complex elements. -/
def complexW (w : BitVec 2) : Bool := !w.getLsbD 1

/-- The parts of a list of complex elements, real first. -/
def pairs : List Nat → List (Nat × Nat)
  | a :: b :: rest => (a, b) :: pairs rest
  | _ => []

/-- Two results in the order of the parts. -/
def unpairs (l : List (FRes × FRes)) : List FRes := l.flatMap fun p => [p.1, p.2]

/-- Flags joined to a result. -/
def withFlags (r : FRes) (f : Nat) : FRes := (r.1, r.2 ||| f)

/-- (a + bi)(c + di): re = fma(a, c, −RN(b·d)), im = fma(a, d, RN(b·c)). -/
def complexMul (F : Fmt) (rm : Nat) (x y : Nat × Nat) : FRes × FRes :=
  let bd := F.mul rm x.2 y.2
  let bc := F.mul rm x.2 y.1
  (withFlags (F.fma rm x.1 y.1 (F.neg bd.1)) bd.2, withFlags (F.fma rm x.1 y.2 bc.1) bc.2)

/-- A sum of parts with the flags of the product. -/
def accPart (F : Fmt) (rm a : Nat) (p : FRes) : FRes := withFlags (F.add rm a p.1) p.2

/-- VFADD: every W, complex parts separately. -/
def execVfadd (core : Nat) (rd rs1 rs2 : BitVec 5) (w : BitVec 2) (s : State) : Out :=
  floatOp core rd rs1 rs2 w true (fun F rm a b => F.add rm a b) s

/-- VFSUB. -/
def execVfsub (core : Nat) (rd rs1 rs2 : BitVec 5) (w : BitVec 2) (s : State) : Out :=
  floatOp core rd rs1 rs2 w true (fun F rm a b => F.sub rm a b) s

/-- VFMUL. -/
def execVfmul (core : Nat) (rd rs1 rs2 : BitVec 5) (w : BitVec 2) (s : State) : Out :=
  floatOp core rd rs1 rs2 w (realW w) (fun F rm a b => F.mul rm a b) s

/-- VFMA: rd = fma(rs1, rs2, rd). -/
def execVfma (core : Nat) (rd rs1 rs2 : BitVec 5) (w : BitVec 2) (s : State) : Out :=
  let F := fmtOf w
  pelorus core (fun _ => realW w)
    (fun C => C.setF rd F.width (List.zipWith (fun p c => F.fma C.rm p.1 p.2 c)
      (List.zip (elems F.width (C.vreg rs1)) (elems F.width (C.vreg rs2))) (elems F.width (C.vreg rd)))) s

/-- VCMUL. -/
def execVcmul (core : Nat) (rd rs1 rs2 : BitVec 5) (w : BitVec 2) (s : State) : Out :=
  let F := fmtOf w
  pelorus core (fun _ => complexW w)
    (fun C => C.setF rd F.width (unpairs (List.zipWith (complexMul F C.rm)
      (pairs (elems F.width (C.vreg rs1))) (pairs (elems F.width (C.vreg rs2)))))) s

/-- VCMAC: rd = RN(rd + VCMUL(rs1, rs2)), parts separately. -/
def execVcmac (core : Nat) (rd rs1 rs2 : BitVec 5) (w : BitVec 2) (s : State) : Out :=
  let F := fmtOf w
  pelorus core (fun _ => complexW w)
    (fun C => C.setF rd F.width (List.zipWith (accPart F C.rm) (elems F.width (C.vreg rd)) (unpairs (List.zipWith (complexMul F C.rm)
      (pairs (elems F.width (C.vreg rs1))) (pairs (elems F.width (C.vreg rs2))))))) s

/-- VCCONJ: the conjugate of rs1; rs2 is zero. -/
def execVcconj (core : Nat) (rd rs1 rs2 : BitVec 5) (w : BitVec 2) (s : State) : Out :=
  let F := fmtOf w
  pelorus core (fun _ => complexW w && rs2 == 0)
    (fun C => C.setF rd F.width (unpairs ((pairs (elems F.width (C.vreg rs1))).map fun p => ((F.samePart p.1, 0), (F.negPart p.2, 0))))) s

/-- VFDIV. -/
def execVfdiv (core : Nat) (rd rs1 rs2 : BitVec 5) (w : BitVec 2) (s : State) : Out :=
  floatOp core rd rs1 rs2 w (realW w) (fun F rm a b => F.div rm a b) s

/-- VFCVTFI: signed integers to the format; rs2 is zero. -/
def execVfcvtfi (core : Nat) (rd rs1 rs2 : BitVec 5) (w : BitVec 2) (s : State) : Out :=
  let F := fmtOf w
  pelorus core (fun _ => realW w && rs2 == 0)
    (fun C => C.setF rd F.width ((elems F.width (C.vreg rs1)).map fun a => F.ofInt C.rm (signedOf F.width a))) s

/-- VFCVTIF: the format to signed integers; rs2 is zero. -/
def execVfcvtif (core : Nat) (rd rs1 rs2 : BitVec 5) (w : BitVec 2) (s : State) : Out :=
  let F := fmtOf w
  pelorus core (fun _ => realW w && rs2 == 0)
    (fun C => C.setF rd F.width ((elems F.width (C.vreg rs1)).map fun a => F.toInt C.rm F.width a)) s

/-- VFLT: all ones where rs1 < rs2. -/
def execVflt (core : Nat) (rd rs1 rs2 : BitVec 5) (w : BitVec 2) (s : State) : Out :=
  floatOp core rd rs1 rs2 w (realW w) (fun F _ a b => (maskOf F.width (F.lt a b).1, (F.lt a b).2)) s

/-! ### Modular, funct3 0b010 -/

/-- A modular instruction on 32-bit lanes: W 0b10, pmod not zero. -/
def modOp (core : Nat) (rd rs1 rs2 : BitVec 5) (w : BitVec 2) (legal : Bool) (f : Nat → Nat → Nat → Nat) (s : State) : Out :=
  pelorus core (fun C => w == 2 && C.pmod != 0 && legal)
    (fun C => C.setV rd (ofElems 32 (List.zipWith (fun p c => f p.1 p.2 c % C.pmod.toNat)
      (List.zip (elems 32 (C.vreg rs1)) (elems 32 (C.vreg rs2))) (elems 32 (C.vreg rd))))) s

/-- VMADD. -/
def execVmadd (core : Nat) (rd rs1 rs2 : BitVec 5) (w : BitVec 2) (s : State) : Out :=
  modOp core rd rs1 rs2 w true (fun a b _ => a + b) s

/-- VMSUB: the representative of rs1 − rs2. -/
def execVmsub (core : Nat) (rd rs1 rs2 : BitVec 5) (w : BitVec 2) (s : State) : Out :=
  pelorus core (fun C => w == 2 && C.pmod != 0)
    (fun C => C.setV rd (ofElems 32 (List.zipWith (fun (a b : Nat) => (((a : Int) - (b : Int)) % (C.pmod.toNat : Int)).toNat)
      (elems 32 (C.vreg rs1)) (elems 32 (C.vreg rs2))))) s

/-- VMMUL. -/
def execVmmul (core : Nat) (rd rs1 rs2 : BitVec 5) (w : BitVec 2) (s : State) : Out :=
  modOp core rd rs1 rs2 w true (fun a b _ => a * b) s

/-- VMMAC: (rd + rs1 × rs2) mod q. -/
def execVmmac (core : Nat) (rd rs1 rs2 : BitVec 5) (w : BitVec 2) (s : State) : Out :=
  modOp core rd rs1 rs2 w true (fun a b c => c + a * b) s

/-- VMRED: rs1 mod q; rs2 is zero. -/
def execVmred (core : Nat) (rd rs1 rs2 : BitVec 5) (w : BitVec 2) (s : State) : Out :=
  modOp core rd rs1 rs2 w (rs2 == 0) (fun a _ _ => a) s

/-! ### Moves and compares -/

/-- VMV: W 0b11, rs2 zero. -/
def execVmv (core : Nat) (rd rs1 rs2 : BitVec 5) (w : BitVec 2) (s : State) : Out :=
  pelorus core (fun _ => w == 3 && rs2 == 0) (fun C => C.setV rd (C.vreg rs1)) s

/-- VEXT: element rs2 of v[rs1], sign-extended, to x[rd]. -/
def execVext (core : Nat) (rd rs1 rs2 : BitVec 5) (w : BitVec 2) (s : State) : Out :=
  let n := elemBits w
  pelorus core (fun _ => decide (rs2.toNat < 128 / n))
    (fun C => C.setX rd (BitVec.ofInt 64 (signedOf n ((elems n (C.vreg rs1)).getD rs2.toNat 0)))) s

/-- VINS: element rs2 of v[rd] takes the low bits of x[rs1]. -/
def execVins (core : Nat) (rd rs1 rs2 : BitVec 5) (w : BitVec 2) (s : State) : Out :=
  let n := elemBits w
  pelorus core (fun _ => decide (rs2.toNat < 128 / n))
    (fun C => C.setV rd (ofElems n ((elems n (C.vreg rd)).set rs2.toNat ((C.xreg rs1).toNat % 2 ^ n)))) s

/-- VSPLAT: every element of v[rd] takes the low bits of x[rs1]; rs2 is zero. -/
def execVsplat (core : Nat) (rd rs1 rs2 : BitVec 5) (w : BitVec 2) (s : State) : Out :=
  let n := elemBits w
  pelorus core (fun _ => rs2 == 0)
    (fun C => C.setV rd (ofElems n (List.replicate (128 / n) ((C.xreg rs1).toNat % 2 ^ n)))) s

/-- VSEQ. -/
def execVseq (core : Nat) (rd rs1 rs2 : BitVec 5) (w : BitVec 2) (s : State) : Out :=
  intOp core rd rs1 rs2 w (fun n a b => maskOf n (a == b)) s

/-- VSLT. -/
def execVslt (core : Nat) (rd rs1 rs2 : BitVec 5) (w : BitVec 2) (s : State) : Out :=
  intOp core rd rs1 rs2 w (fun n a b => maskOf n (decide (signedOf n a < signedOf n b))) s

/-- VSLTU. -/
def execVsltu (core : Nat) (rd rs1 rs2 : BitVec 5) (w : BitVec 2) (s : State) : Out :=
  intOp core rd rs1 rs2 w (fun n a b => maskOf n (decide (a < b))) s

/-- VSEL: rd = (rd AND rs1) OR (NOT rd AND rs2); W 0b11. -/
def execVsel (core : Nat) (rd rs1 rs2 : BitVec 5) (w : BitVec 2) (s : State) : Out :=
  pelorus core (fun _ => w == 3)
    (fun C => C.setV rd ((C.vreg rd &&& C.vreg rs1) ||| (~~~ C.vreg rd &&& C.vreg rs2))) s

/-! ### Memory -/

/-- The byte of a module's region that an address of its core names. -/
def State.moduleAt (s : State) (m a : Nat) : Option Nat :=
  if codeBase ≤ a ∧ a < codeBase + s.regionLen m then some (a - codeBase) else none

/-- The first of 16 bytes from `a` that a module may not access: none mapped, or code for a store. -/
def State.moduleDenied (s : State) (m a : Nat) (store : Bool) : Option Nat :=
  ((List.range 16).map fun i => (a + i) % 2 ^ 64).find? fun x =>
    match s.moduleAt m x with
    | none => true
    | some o => store && decide (o < (s.module m).codeLen)

/-- The address of a load or store. -/
def Core.addr (C : Core) (rs1 : BitVec 5) (off : BitVec 12) : Nat := (C.xreg rs1 + off.signExtend 64).toNat

/-- The address that a page fault reports: that of the access where its own page is denied, else the second page. -/
def faultAddr (a x : Nat) : Nat := if x / 4096 = a / 4096 then a else x / 4096 * 4096

/-- A 16-byte access of core `c`: XS, then both pages, then the effect. -/
def memOp (c : Nat) (rs1 : BitVec 5) (off : BitVec 12) (store : Bool) (f : State → Nat → State) (s : State) : Out :=
  within (decide (c < 8)) s (
    let C := s.core c
    let a := C.addr rs1 off
    if C.stopped then s
    else if C.xs = 0 then s.raise c 2 (s.pcOf c)
    else match (if s.moduleOn c then s.moduleDenied (c - 6) a store else none) with
    | some x => s.raise c (if store then 15 else 13) (faultAddr a x)
    | none => f s a)

/-- 16 bytes as a core reads them. -/
def State.coreRead (s : State) (c a : Nat) : Bytes :=
  if s.moduleOn c then memReadN (s.module (c - 6)).region (a - codeBase) 16
  else (List.range 16).map fun i => memRead s.service.helmMem ((a + i) % 2 ^ 64)

/-- 16 bytes as a core writes them. -/
def State.coreWrite (s : State) (c a : Nat) (b : Bytes) : State :=
  if s.moduleOn c then s.modModule (c - 6) fun M => { M with region := memWriteN M.region (a - codeBase) b }
  else
    let mem := (List.zip (List.range 16) b).foldl (fun m x => memWrite m ((a + x.1) % 2 ^ 64) x.2) s.service.helmMem
    { s with service := { s.service with helmMem := mem } }

/-- VLD. -/
def execVld (core : Nat) (rd rs1 : BitVec 5) (off : BitVec 12) (s : State) : Out :=
  memOp core rs1 off false (fun s a => s.modCore core fun C => C.setV rd (BitVec.ofNat 128 (fromLE (s.coreRead core a)))) s

/-- VST. -/
def execVst (core : Nat) (rs2 rs1 : BitVec 5) (off : BitVec 12) (s : State) : Out :=
  memOp core rs1 off true (fun s a => s.coreWrite core a (le 16 ((s.core core).vreg rs2).toNat)) s

end Sys2Proof.Machine
end

