-- ==== Sys2Proof/Machine/TestCmds.lean ====
section
/-! DEFINITION. The test commands of family 0xF (02_operations_catalogue.md R46, R513). -/

namespace Sys2Proof.Machine

/-- TIMED_NOP: nothing but the time it takes; RESULT is zero. -/
def execTimedNop (j : Nat) (s : State) : Out :=
  match s.job? j with
  | none => noIndex
  | some J =>
    done s (if J.opcode = 0xF000 ∧ J.computing then s.modJob j fun J => { J with out := some {} } else s)

/-- KNOWN_ANSWER: the built-in vector of an opcode runs; a mismatch is a self-test machine check. -/
def execKnownAnswer (j : Nat) (isMatch : Bool) (s : State) : Out :=
  match s.job? j with
  | none => noIndex
  | some J =>
    done s (
      if J.opcode = 0xF001 ∧ J.computing then
        s.modJob j fun J => { J with out := some { status := if isMatch then St.ok else St.mcheck } }
      else s)

/-- FORCE_COMPARE_FAIL: the job's queue is armed, so that one comparison of a later job fails; a queue that is armed keeps the
one arming in force (R46). -/
def execForceCompareFail (j : Nat) (s : State) : Out :=
  match s.job? j with
  | none => noIndex
  | some J =>
    done s (
      if J.opcode = 0xF002 ∧ J.computing then
        let t := s.modJob j fun J => { J with out := some {} }
        match J.src with
        | .ring q => t.modQueue q fun Q => if Q.armed then Q else { Q with armed := true, armedAt := J.seq }
        | .internal => t
      else s)

end Sys2Proof.Machine
end

