-- ==== Sys2Proof/Machine/Dispatch.lean ====
section
/-! DEFINITION. The effect of each command: one arm per constructor of Instr. -/

namespace Sys2Proof.Machine

def exec (i : Instr) (s : State) : Host.Outcome State Fault Refusal :=
  match i with
  | .porNAssert widthNs strap smbAddr => Sys2Proof.Machine.execPorNAssert widthNs strap smbAddr s
  | .perstNAssert widthNs strap => Sys2Proof.Machine.execPerstNAssert widthNs strap s
  | .deviceReset => Sys2Proof.Machine.execDeviceReset s
  | .landfallReset => Sys2Proof.Machine.execLandfallReset s
  | .hotReset t => Sys2Proof.Machine.execHotReset t s
  | .boot env => Sys2Proof.Machine.execBoot env s
  | .supply rail ns t => Sys2Proof.Machine.execSupply rail ns t s
  | .clockLoss clk t => Sys2Proof.Machine.execClockLoss clk t s
  | .temperatureLimit celsius ns t => Sys2Proof.Machine.execTemperatureLimit celsius ns t s
  | .safeReqNEdge samples t => Sys2Proof.Machine.execSafeReqNEdge samples t s
  | .chatterEdge samples t => Sys2Proof.Machine.execChatterEdge samples t s
  | .held t => Sys2Proof.Machine.execHeld t s
  | .permitMismatch n level samples t => Sys2Proof.Machine.execPermitMismatch n level samples t s
  | .faultEvent src sub aux job t => Sys2Proof.Machine.execFaultEvent src sub aux job t s
  | .fenceAck src t => Sys2Proof.Machine.execFenceAck src t s
  | .fenceAckTimeout src t => Sys2Proof.Machine.execFenceAckTimeout src t s
  | .conseqWindowClose id t => Sys2Proof.Machine.execConseqWindowClose id t s
  | .fltRelease value => Sys2Proof.Machine.execFltRelease value s
  | .fltForce src value => Sys2Proof.Machine.execFltForce src value s
  | .fltCfgWrite src value => Sys2Proof.Machine.execFltCfgWrite src value s
  | .attnClear src => Sys2Proof.Machine.execAttnClear src s
  | .safeCtrlEnter => Sys2Proof.Machine.execSafeCtrlEnter s
  | .helmCoreRecovery core ok t => Sys2Proof.Machine.execHelmCoreRecovery core ok t s
  | .tick => Sys2Proof.Machine.execTick s
  | .chartDrainComplete t => Sys2Proof.Machine.execChartDrainComplete t s
  | .tileReconfigComplete n digestOk testOk t => Sys2Proof.Machine.execTileReconfigComplete n digestOk testOk t s
  | .tileReloadComplete n digestOk testOk t => Sys2Proof.Machine.execTileReloadComplete n digestOk testOk t s
  | .msixModTimer q t => Sys2Proof.Machine.execMsixModTimer q t s
  | .msixUnmask fn vec => Sys2Proof.Machine.execMsixUnmask fn vec s
  | .admqEnable fn value => Sys2Proof.Machine.execAdmqEnable fn value s
  | .dbSqTail fn idx value mem => Sys2Proof.Machine.execDbSqTail fn idx value mem s
  | .dbCqHead fn idx value => Sys2Proof.Machine.execDbCqHead fn idx value s
  | .dbRevise fn idx first countM1 => Sys2Proof.Machine.execDbRevise fn idx first countM1 s
  | .tailWordChange q value mem => Sys2Proof.Machine.execTailWordChange q value mem s
  | .consumeEntry t => Sys2Proof.Machine.execConsumeEntry t s
  | .fetchStage j t => Sys2Proof.Machine.execFetchStage j t s
  | .windowInputArrival j bytes t => Sys2Proof.Machine.execWindowInputArrival j bytes t s
  | .admission j t => Sys2Proof.Machine.execAdmission j t s
  | .keyCacheFillDone j tagOk t => Sys2Proof.Machine.execKeyCacheFillDone j tagOk t s
  | .contextSpillDone partner ok t => Sys2Proof.Machine.execContextSpillDone partner ok t s
  | .dispatch u t => Sys2Proof.Machine.execDispatch u t s
  | .safePointAction j t => Sys2Proof.Machine.execSafePointAction j t s
  | .watchdog j microCycles addr t => Sys2Proof.Machine.execWatchdog j microCycles addr t s
  | .machineCheck n cause addr job t => Sys2Proof.Machine.execMachineCheck n cause addr job t s
  | .commitAck j t => Sys2Proof.Machine.execCommitAck j t s
  | .commitTimeout j addr t => Sys2Proof.Machine.execCommitTimeout j addr t s
  | .logbookExtend t => Sys2Proof.Machine.execLogbookExtend t s
  | .runEnd j mismatch t => Sys2Proof.Machine.execRunEnd j mismatch t s
  | .segmentRelease j mismatch t => Sys2Proof.Machine.execSegmentRelease j mismatch t s
  | .completionWrite j t => Sys2Proof.Machine.execCompletionWrite j t s
  | .pertCompletionDelay j t => Sys2Proof.Machine.execPertCompletionDelay j t s
  | .pertDoorbellHold fn t => Sys2Proof.Machine.execPertDoorbellHold fn t s
  | .hbsPreparation key t => Sys2Proof.Machine.execHbsPreparation key t s
  | .destroyScrub j t => Sys2Proof.Machine.execDestroyScrub j t s
  | .vfScrubComplete f t => Sys2Proof.Machine.execVfScrubComplete f t s
  | .createQueue j => Sys2Proof.Machine.execCreateQueue j s
  | .destroyQueue j => Sys2Proof.Machine.execDestroyQueue j s
  | .enableQueue j => Sys2Proof.Machine.execEnableQueue j s
  | .setShare j => Sys2Proof.Machine.execSetShare j s
  | .quiesceFunction j => Sys2Proof.Machine.execQuiesceFunction j s
  | .queryFunction j => Sys2Proof.Machine.execQueryFunction j s
  | .loadChart j => Sys2Proof.Machine.execLoadChart j s
  | .retile j => Sys2Proof.Machine.execRetile j s
  | .queryChart j => Sys2Proof.Machine.execQueryChart j s
  | .safeExit j failedTiles => Sys2Proof.Machine.execSafeExit j failedTiles s
  | .queryProgress j => Sys2Proof.Machine.execQueryProgress j s
  | .setPowerLimit j => Sys2Proof.Machine.execSetPowerLimit j s
  | .setPerturbation j => Sys2Proof.Machine.execSetPerturbation j s
  | .timedNop j => Sys2Proof.Machine.execTimedNop j s
  | .knownAnswer j isMatch => Sys2Proof.Machine.execKnownAnswer j isMatch s
  | .forceCompareFail j => Sys2Proof.Machine.execForceCompareFail j s
  | .mlKemKeygen j => Sys2Proof.Machine.execMlKemKeygen j s
  | .mlKemEncaps j => Sys2Proof.Machine.execMlKemEncaps j s
  | .mlKemDecaps j => Sys2Proof.Machine.execMlKemDecaps j s
  | .mlDsaKeygen j => Sys2Proof.Machine.execMlDsaKeygen j s
  | .mlDsaSign j => Sys2Proof.Machine.execMlDsaSign j s
  | .mlDsaVerify j => Sys2Proof.Machine.execMlDsaVerify j s
  | .fnDsaKeygen j => Sys2Proof.Machine.execFnDsaKeygen j s
  | .fnDsaSign j => Sys2Proof.Machine.execFnDsaSign j s
  | .fnDsaVerify j => Sys2Proof.Machine.execFnDsaVerify j s
  | .slhDsaKeygen j => Sys2Proof.Machine.execSlhDsaKeygen j s
  | .slhDsaSign j => Sys2Proof.Machine.execSlhDsaSign j s
  | .slhDsaVerify j => Sys2Proof.Machine.execSlhDsaVerify j s
  | .hssKeygen j => Sys2Proof.Machine.execHssKeygen j s
  | .hssSign j => Sys2Proof.Machine.execHssSign j s
  | .hssVerify j => Sys2Proof.Machine.execHssVerify j s
  | .hssLeafStatus j => Sys2Proof.Machine.execHssLeafStatus j s
  | .xmssKeygen j => Sys2Proof.Machine.execXmssKeygen j s
  | .xmssSign j => Sys2Proof.Machine.execXmssSign j s
  | .xmssVerify j => Sys2Proof.Machine.execXmssVerify j s
  | .xmssLeafStatus j => Sys2Proof.Machine.execXmssLeafStatus j s
  | .xmssmtKeygen j => Sys2Proof.Machine.execXmssmtKeygen j s
  | .xmssmtSign j => Sys2Proof.Machine.execXmssmtSign j s
  | .xmssmtVerify j => Sys2Proof.Machine.execXmssmtVerify j s
  | .xmssmtLeafStatus j => Sys2Proof.Machine.execXmssmtLeafStatus j s
  | .hqcKeygen j => Sys2Proof.Machine.execHqcKeygen j s
  | .hqcEncaps j => Sys2Proof.Machine.execHqcEncaps j s
  | .hqcDecaps j => Sys2Proof.Machine.execHqcDecaps j s
  | .mcelieceKeygen j => Sys2Proof.Machine.execMcelieceKeygen j s
  | .mcelieceEncaps j => Sys2Proof.Machine.execMcelieceEncaps j s
  | .mcelieceDecaps j => Sys2Proof.Machine.execMcelieceDecaps j s
  | .ecdsaKeygen j => Sys2Proof.Machine.execEcdsaKeygen j s
  | .ecdsaSign j => Sys2Proof.Machine.execEcdsaSign j s
  | .ecdsaVerify j => Sys2Proof.Machine.execEcdsaVerify j s
  | .ecdh j => Sys2Proof.Machine.execEcdh j s
  | .eddsaKeygen j => Sys2Proof.Machine.execEddsaKeygen j s
  | .eddsaSign j => Sys2Proof.Machine.execEddsaSign j s
  | .eddsaVerify j => Sys2Proof.Machine.execEddsaVerify j s
  | .montgomeryKeygen j => Sys2Proof.Machine.execMontgomeryKeygen j s
  | .montgomeryKeyAgreement j => Sys2Proof.Machine.execMontgomeryKeyAgreement j s
  | .rsaKeygen j => Sys2Proof.Machine.execRsaKeygen j s
  | .rsaSign j => Sys2Proof.Machine.execRsaSign j s
  | .rsaVerify j => Sys2Proof.Machine.execRsaVerify j s
  | .oaepEncrypt j => Sys2Proof.Machine.execOaepEncrypt j s
  | .oaepDecrypt j => Sys2Proof.Machine.execOaepDecrypt j s
  | .aesGcmEncrypt j => Sys2Proof.Machine.execAesGcmEncrypt j s
  | .aesGcmDecrypt j => Sys2Proof.Machine.execAesGcmDecrypt j s
  | .aesCcmEncrypt j => Sys2Proof.Machine.execAesCcmEncrypt j s
  | .aesCcmDecrypt j => Sys2Proof.Machine.execAesCcmDecrypt j s
  | .aesCtr j => Sys2Proof.Machine.execAesCtr j s
  | .xtsAesEncrypt j => Sys2Proof.Machine.execXtsAesEncrypt j s
  | .xtsAesDecrypt j => Sys2Proof.Machine.execXtsAesDecrypt j s
  | .aesKwWrap j => Sys2Proof.Machine.execAesKwWrap j s
  | .aesKwUnwrap j => Sys2Proof.Machine.execAesKwUnwrap j s
  | .chacha20Poly1305Seal j => Sys2Proof.Machine.execChacha20Poly1305Seal j s
  | .chacha20Poly1305Open j => Sys2Proof.Machine.execChacha20Poly1305Open j s
  | .digest j => Sys2Proof.Machine.execDigest j s
  | .xof j => Sys2Proof.Machine.execXof j s
  | .hmacGenerate j => Sys2Proof.Machine.execHmacGenerate j s
  | .hmacVerify j => Sys2Proof.Machine.execHmacVerify j s
  | .kmacGenerate j => Sys2Proof.Machine.execKmacGenerate j s
  | .kmacVerify j => Sys2Proof.Machine.execKmacVerify j s
  | .hkdf j => Sys2Proof.Machine.execHkdf j s
  | .counterKdf j => Sys2Proof.Machine.execCounterKdf j s
  | .keyedSlotLoad j => Sys2Proof.Machine.execKeyedSlotLoad j s
  | .keyedSlotDrop j => Sys2Proof.Machine.execKeyedSlotDrop j s
  | .generateKey j => Sys2Proof.Machine.execGenerateKey j s
  | .importKey j => Sys2Proof.Machine.execImportKey j s
  | .exportWrapped j => Sys2Proof.Machine.execExportWrapped j s
  | .destroyKey j => Sys2Proof.Machine.execDestroyKey j s
  | .getAttributes j => Sys2Proof.Machine.execGetAttributes j s
  | .getImportKey j => Sys2Proof.Machine.execGetImportKey j s
  | .submitOrder j t => Sys2Proof.Machine.execSubmitOrder j t s
  | .policyUpdate j t => Sys2Proof.Machine.execPolicyUpdate j t s
  | .queryOrder j => Sys2Proof.Machine.execQueryOrder j s
  | .timeSetOrder j t => Sys2Proof.Machine.execTimeSetOrder j t s
  | .queryPolicy j => Sys2Proof.Machine.execQueryPolicy j s
  | .permitStatus j => Sys2Proof.Machine.execPermitStatus j s
  | .decisionCommit o endorseFails t => Sys2Proof.Machine.execDecisionCommit o endorseFails t s
  | .permitEnd n t => Sys2Proof.Machine.execPermitEnd n t s
  | .registerPartner j => Sys2Proof.Machine.execRegisterPartner j s
  | .deregisterPartner j => Sys2Proof.Machine.execDeregisterPartner j s
  | .soundingInitiate j t => Sys2Proof.Machine.execSoundingInitiate j t s
  | .soundingAccept j => Sys2Proof.Machine.execSoundingAccept j s
  | .send j => Sys2Proof.Machine.execSend j s
  | .receive j t => Sys2Proof.Machine.execReceive j t s
  | .rekey j t => Sys2Proof.Machine.execRekey j t s
  | .closeSession j => Sys2Proof.Machine.execCloseSession j s
  | .fieldFrameReceived p frame t => Sys2Proof.Machine.execFieldFrameReceived p frame t s
  | .initFrame t => Sys2Proof.Machine.execInitFrame t s
  | .replyFrame t => Sys2Proof.Machine.execReplyFrame t s
  | .finishFrame t => Sys2Proof.Machine.execFinishFrame t s
  | .dataFrame t => Sys2Proof.Machine.execDataFrame t s
  | .orderFrame t => Sys2Proof.Machine.execOrderFrame t s
  | .responseFrame t => Sys2Proof.Machine.execResponseFrame t s
  | .closeFrame t => Sys2Proof.Machine.execCloseFrame t s
  | .handshakeRetransmit partner t => Sys2Proof.Machine.execHandshakeRetransmit partner t s
  | .reassemblyTimeout partner t => Sys2Proof.Machine.execReassemblyTimeout partner t s
  | .noReceiveTimeout fn t => Sys2Proof.Machine.execNoReceiveTimeout fn t s
  | .rekeyTimer partner t => Sys2Proof.Machine.execRekeyTimer partner t s
  | .epochExpiry partner t => Sys2Proof.Machine.execEpochExpiry partner t s
  | .oldEpochGraceEnd partner t => Sys2Proof.Machine.execOldEpochGraceEnd partner t s
  | .ptpRx p frame t => Sys2Proof.Machine.execPtpRx p frame t s
  | .txGo p b t => Sys2Proof.Machine.execTxGo p b t s
  | .ppsInEdge errNs t => Sys2Proof.Machine.execPpsInEdge errNs t s
  | .ppsLockLoss t => Sys2Proof.Machine.execPpsLockLoss t s
  | .almAdjOffset value => Sys2Proof.Machine.execAlmAdjOffset value s
  | .almAdjFreq value => Sys2Proof.Machine.execAlmAdjFreq value s
  | .almSet value => Sys2Proof.Machine.execAlmSet value s
  | .almStepBound value => Sys2Proof.Machine.execAlmStepBound value s
  | .almSource value => Sys2Proof.Machine.execAlmSource value s
  | .signedOnly => Sys2Proof.Machine.execSignedOnly s
  | .almanacCheckpoint t => Sys2Proof.Machine.execAlmanacCheckpoint t s
  | .logRoll value => Sys2Proof.Machine.execLogRoll value s
  | .logOwner r value => Sys2Proof.Machine.execLogOwner r value s
  | .auditExport t => Sys2Proof.Machine.execAuditExport t s
  | .auditExportHead value => Sys2Proof.Machine.execAuditExportHead value s
  | .auditRegionMib value => Sys2Proof.Machine.execAuditRegionMib value s
  | .getVersion tr req => Sys2Proof.Machine.execGetVersion tr req s
  | .getCapabilities tr req => Sys2Proof.Machine.execGetCapabilities tr req s
  | .negotiateAlgorithms tr req => Sys2Proof.Machine.execNegotiateAlgorithms tr req s
  | .getDigests tr req => Sys2Proof.Machine.execGetDigests tr req s
  | .getCertificate tr req => Sys2Proof.Machine.execGetCertificate tr req s
  | .challenge tr req => Sys2Proof.Machine.execChallenge tr req s
  | .getMeasurements tr req => Sys2Proof.Machine.execGetMeasurements tr req s
  | .keyExchange tr req => Sys2Proof.Machine.execKeyExchange tr req s
  | .spdmFinish tr req => Sys2Proof.Machine.execSpdmFinish tr req s
  | .heartbeat tr req => Sys2Proof.Machine.execHeartbeat tr req s
  | .keyUpdate tr req => Sys2Proof.Machine.execKeyUpdate tr req s
  | .endSession tr req => Sys2Proof.Machine.execEndSession tr req s
  | .chunkSend tr req => Sys2Proof.Machine.execChunkSend tr req s
  | .chunkGet tr req => Sys2Proof.Machine.execChunkGet tr req s
  | .setCertificate tr req => Sys2Proof.Machine.execSetCertificate tr req s
  | .getPqChain tr req => Sys2Proof.Machine.execGetPqChain tr req s
  | .pqQuote tr req => Sys2Proof.Machine.execPqQuote tr req s
  | .doeAbort => Sys2Proof.Machine.execDoeAbort s
  | .atsInvalidation fn addr len => Sys2Proof.Machine.execAtsInvalidation fn addr len s
  | .hostLinkRetrain gen width => Sys2Proof.Machine.execHostLinkRetrain gen width s
  | .vfFlr f t => Sys2Proof.Machine.execVfFlr f t s
  | .pf0Flr t => Sys2Proof.Machine.execPf0Flr t s
  | .vfEnableClear t => Sys2Proof.Machine.execVfEnableClear t s
  | .d3hotEntry t => Sys2Proof.Machine.execD3hotEntry t s
  | .keyCacheQuotaWrite f value => Sys2Proof.Machine.execKeyCacheQuotaWrite f value s
  | .overflowCfgWrite value => Sys2Proof.Machine.execOverflowCfgWrite value s
  | .mboxTxWrite m n word t => Sys2Proof.Machine.execMboxTxWrite m n word t s
  | .mboxRxRead m n half => Sys2Proof.Machine.execMboxRxRead m n half s
  | .mboxRecall m n => Sys2Proof.Machine.execMboxRecall m n s
  | .crossFull n t => Sys2Proof.Machine.execCrossFull n t s
  | .ping => Sys2Proof.Machine.execPing s
  | .queryOmod => Sys2Proof.Machine.execQueryOmod s
  | .lockAcquire m k => Sys2Proof.Machine.execLockAcquire m k s
  | .lockRelease m k => Sys2Proof.Machine.execLockRelease m k s
  | .handover value => Sys2Proof.Machine.execHandover value s
  | .omodLoad m t => Sys2Proof.Machine.execOmodLoad m t s
  | .omodStop m t => Sys2Proof.Machine.execOmodStop m t s
  | .moduleException m cause addr t => Sys2Proof.Machine.execModuleException m cause addr t s
  | .ringInit m => Sys2Proof.Machine.execRingInit m s
  | .doorbell m => Sys2Proof.Machine.execDoorbell m s
  | .cqHead m => Sys2Proof.Machine.execCqHead m s
  | .mboxSend m t => Sys2Proof.Machine.execMboxSend m t s
  | .mboxRecv m => Sys2Proof.Machine.execMboxRecv m s
  | .wait m t => Sys2Proof.Machine.execWait m t s
  | .time m t => Sys2Proof.Machine.execTime m t s
  | .exit m t => Sys2Proof.Machine.execExit m t s
  | .pmodWrite core value => Sys2Proof.Machine.execPmodWrite core value s
  | .vadd core rd rs1 rs2 w => Sys2Proof.Machine.execVadd core rd rs1 rs2 w s
  | .vsub core rd rs1 rs2 w => Sys2Proof.Machine.execVsub core rd rs1 rs2 w s
  | .vmul core rd rs1 rs2 w => Sys2Proof.Machine.execVmul core rd rs1 rs2 w s
  | .vmulh core rd rs1 rs2 w => Sys2Proof.Machine.execVmulh core rd rs1 rs2 w s
  | .vand core rd rs1 rs2 w => Sys2Proof.Machine.execVand core rd rs1 rs2 w s
  | .vor core rd rs1 rs2 w => Sys2Proof.Machine.execVor core rd rs1 rs2 w s
  | .vxor core rd rs1 rs2 w => Sys2Proof.Machine.execVxor core rd rs1 rs2 w s
  | .vsll core rd rs1 rs2 w => Sys2Proof.Machine.execVsll core rd rs1 rs2 w s
  | .vsrl core rd rs1 rs2 w => Sys2Proof.Machine.execVsrl core rd rs1 rs2 w s
  | .vsra core rd rs1 rs2 w => Sys2Proof.Machine.execVsra core rd rs1 rs2 w s
  | .vmin core rd rs1 rs2 w => Sys2Proof.Machine.execVmin core rd rs1 rs2 w s
  | .vmax core rd rs1 rs2 w => Sys2Proof.Machine.execVmax core rd rs1 rs2 w s
  | .vshuf core rd rs1 rs2 w => Sys2Proof.Machine.execVshuf core rd rs1 rs2 w s
  | .vfadd core rd rs1 rs2 w => Sys2Proof.Machine.execVfadd core rd rs1 rs2 w s
  | .vfsub core rd rs1 rs2 w => Sys2Proof.Machine.execVfsub core rd rs1 rs2 w s
  | .vfmul core rd rs1 rs2 w => Sys2Proof.Machine.execVfmul core rd rs1 rs2 w s
  | .vfma core rd rs1 rs2 w => Sys2Proof.Machine.execVfma core rd rs1 rs2 w s
  | .vcmul core rd rs1 rs2 w => Sys2Proof.Machine.execVcmul core rd rs1 rs2 w s
  | .vcmac core rd rs1 rs2 w => Sys2Proof.Machine.execVcmac core rd rs1 rs2 w s
  | .vcconj core rd rs1 rs2 w => Sys2Proof.Machine.execVcconj core rd rs1 rs2 w s
  | .vfdiv core rd rs1 rs2 w => Sys2Proof.Machine.execVfdiv core rd rs1 rs2 w s
  | .vfcvtfi core rd rs1 rs2 w => Sys2Proof.Machine.execVfcvtfi core rd rs1 rs2 w s
  | .vfcvtif core rd rs1 rs2 w => Sys2Proof.Machine.execVfcvtif core rd rs1 rs2 w s
  | .vflt core rd rs1 rs2 w => Sys2Proof.Machine.execVflt core rd rs1 rs2 w s
  | .vmadd core rd rs1 rs2 w => Sys2Proof.Machine.execVmadd core rd rs1 rs2 w s
  | .vmsub core rd rs1 rs2 w => Sys2Proof.Machine.execVmsub core rd rs1 rs2 w s
  | .vmmul core rd rs1 rs2 w => Sys2Proof.Machine.execVmmul core rd rs1 rs2 w s
  | .vmmac core rd rs1 rs2 w => Sys2Proof.Machine.execVmmac core rd rs1 rs2 w s
  | .vmred core rd rs1 rs2 w => Sys2Proof.Machine.execVmred core rd rs1 rs2 w s
  | .vmv core rd rs1 rs2 w => Sys2Proof.Machine.execVmv core rd rs1 rs2 w s
  | .vext core rd rs1 rs2 w => Sys2Proof.Machine.execVext core rd rs1 rs2 w s
  | .vins core rd rs1 rs2 w => Sys2Proof.Machine.execVins core rd rs1 rs2 w s
  | .vsplat core rd rs1 rs2 w => Sys2Proof.Machine.execVsplat core rd rs1 rs2 w s
  | .vseq core rd rs1 rs2 w => Sys2Proof.Machine.execVseq core rd rs1 rs2 w s
  | .vslt core rd rs1 rs2 w => Sys2Proof.Machine.execVslt core rd rs1 rs2 w s
  | .vsltu core rd rs1 rs2 w => Sys2Proof.Machine.execVsltu core rd rs1 rs2 w s
  | .vsel core rd rs1 rs2 w => Sys2Proof.Machine.execVsel core rd rs1 rs2 w s
  | .vld core rd rs1 off => Sys2Proof.Machine.execVld core rd rs1 off s
  | .vst core rs2 rs1 off => Sys2Proof.Machine.execVst core rs2 rs1 off s
  | .linkEnable k value t => Sys2Proof.Machine.execLinkEnable k value t s
  | .linkRetrain k t => Sys2Proof.Machine.execLinkRetrain k t s
  | .linkUp k peer t => Sys2Proof.Machine.execLinkUp k peer t s
  | .linkRetry k t => Sys2Proof.Machine.execLinkRetry k t s
  | .flitReceived k flit fec t => Sys2Proof.Machine.execFlitReceived k flit fec t s
  | .creditTimeout k t => Sys2Proof.Machine.execCreditTimeout k t s
  | .rosterLoad t => Sys2Proof.Machine.execRosterLoad t s
  | .markPropose t => Sys2Proof.Machine.execMarkPropose t s
  | .markReply t => Sys2Proof.Machine.execMarkReply t s
  | .leaseReq t => Sys2Proof.Machine.execLeaseReq t s
  | .leaseGrant t => Sys2Proof.Machine.execLeaseGrant t s
  | .delegateReq t => Sys2Proof.Machine.execDelegateReq t s
  | .delegateGrant t => Sys2Proof.Machine.execDelegateGrant t s
  | .cross t => Sys2Proof.Machine.execCross t s
  | .crossInterval t => Sys2Proof.Machine.execCrossInterval t s
  | .rosterGet t => Sys2Proof.Machine.execRosterGet t s
  | .rosterData t => Sys2Proof.Machine.execRosterData t s
  | .meridianRequestResend req t => Sys2Proof.Machine.execMeridianRequestResend req t s
  | .tetherRd t => Sys2Proof.Machine.execTetherRd t s
  | .tetherCpl t => Sys2Proof.Machine.execTetherCpl t s
  | .tetherWr t => Sys2Proof.Machine.execTetherWr t s
  | .tetherReg t => Sys2Proof.Machine.execTetherReg t s
  | .tetherRegCpl t => Sys2Proof.Machine.execTetherRegCpl t s
  | .tetherPathLost node t => Sys2Proof.Machine.execTetherPathLost node t s
  | .transition t => Sys2Proof.Machine.execTransition t s
  | .debugGrant t => Sys2Proof.Machine.execDebugGrant t s
  | .stage t => Sys2Proof.Machine.execStage t s
  | .activate => Sys2Proof.Machine.execActivate s
  | .confirm => Sys2Proof.Machine.execConfirm s
  | .commitSvn => Sys2Proof.Machine.execCommitSvn s
  | .hello tr seq => Sys2Proof.Machine.execHello tr seq s
  | .readProgress tr seq => Sys2Proof.Machine.execReadProgress tr seq s
  | .fwWrite tr seq body => Sys2Proof.Machine.execFwWrite tr seq body s
  | .fwFinish tr seq body => Sys2Proof.Machine.execFwFinish tr seq body s
  | .authWrite tr seq body => Sys2Proof.Machine.execAuthWrite tr seq body s
  | .authSubmit tr seq t => Sys2Proof.Machine.execAuthSubmit tr seq t s
  | .chartWrite tr seq body => Sys2Proof.Machine.execChartWrite tr seq body s
  | .chartFinish tr seq body => Sys2Proof.Machine.execChartFinish tr seq body s
  | .selfTest tr seq res => Sys2Proof.Machine.execSelfTest tr seq res s
  | .recoveryReset tr seq body => Sys2Proof.Machine.execRecoveryReset tr seq body s
  | .uartState => Sys2Proof.Machine.execUartState s
  | .uartProgress => Sys2Proof.Machine.execUartProgress s
  | .uartSelftest res => Sys2Proof.Machine.execUartSelftest res s
  | .uartReset landfall => Sys2Proof.Machine.execUartReset landfall s
  | .badAccess fn off bytes write t => Sys2Proof.Machine.execBadAccess fn off bytes write t s
  | .registerWrite bar fn off acc => Sys2Proof.Machine.execRegisterWrite bar fn off acc s
  | .supplyRecovery rail ns t => Sys2Proof.Machine.execSupplyRecovery rail ns t s
  | .clockRecovery clk ns t => Sys2Proof.Machine.execClockRecovery clk ns t s
  | .temperatureRecovery celsius t => Sys2Proof.Machine.execTemperatureRecovery celsius t s
  | .safeReqNRelease samples t => Sys2Proof.Machine.execSafeReqNRelease samples t s
  | .permitReadbackAgree n level t => Sys2Proof.Machine.execPermitReadbackAgree n level t s
  | .entropyHealthRecovery t => Sys2Proof.Machine.execEntropyHealthRecovery t s
  | .fieldPortLinkUp p t => Sys2Proof.Machine.execFieldPortLinkUp p t s
  | .meridianLinkRekey k t => Sys2Proof.Machine.execMeridianLinkRekey k t s
  | .almanacSlewEnd t => Sys2Proof.Machine.execAlmanacSlewEnd t s
  | .ppsOut t => Sys2Proof.Machine.execPpsOut t s
  | .partnerScrubComplete partner t => Sys2Proof.Machine.execPartnerScrubComplete partner t s
  | .flrComplete f t => Sys2Proof.Machine.execFlrComplete f t s
  | .waitTimeout m t => Sys2Proof.Machine.execWaitTimeout m t s
  | .neighbourSolicitation target => Sys2Proof.Machine.execNeighbourSolicitation target s
  | .tapInstruction ir payload t => Sys2Proof.Machine.execTapInstruction ir payload t s
  | .rejectionBudgetEnd j t => Sys2Proof.Machine.execRejectionBudgetEnd j t s
  | .telemetryPeriod powerW tempC => Sys2Proof.Machine.execTelemetryPeriod powerW tempC s

end Sys2Proof.Machine
end

