-- ==== Sys2Proof/Safety.lean ====
section
/-! DEFINITION. What the statements mean by a command that completes, by a job that computes, and by a waiting queue that
is well formed. -/

namespace Sys2Proof.Machine

/-- Command `c` completes at `s` in a state that `P` describes. -/
def Completes (c : Instr) (s : State) (P : State → Prop) : Prop := ∃ t, exec c s = .next t ∧ P t

/-- Job `j` of the in-flight table is `J`, of opcode `op`, and its main step executes now (12_deadlines.md R281). -/
def State.running (s : State) (j : Nat) (J : Job) (op : Nat) : Prop :=
  s.job? j = some J ∧ J.opcode = op ∧ J.computing = true

/-- `s` after job `j` has computed the result `o` and drawn `n` DRBG bytes: its entry of the in-flight table holds the result,
and nothing else has changed. -/
def State.computed (s : State) (j : Nat) (o : JobOut) (n : Nat) : State :=
  { s with
    jobs := tmod s.jobs j fun J => { J with draw := s.draws, out := some { o with seen := J.input.length } }
    draws := s.draws + n }

/-- The command computes a result that `P` describes, with the DRBG bytes that it drew, and changes nothing else. -/
def Computes (c : Instr) (j : Nat) (s : State) (P : JobOut → Nat → Prop) : Prop :=
  ∃ o n, exec c s = .next (s.computed j o n) ∧ P o n

/-- A result that releases nothing: no output, no key, no extend, no slot. -/
def JobOut.withheld (o : JobOut) : Prop :=
  o.output = [] ∧ o.keys = [] ∧ o.extend = none ∧ o.bind = none ∧ o.drop = none ∧ o.result = 0 ∧ o.ret = []

/-- The result creates, under the `i`-th index that the job has reserved, one key of an algorithm and a kind, owned by the
job's function, with `n` bytes of material (05_lattice.md R103). -/
def JobOut.makes (o : JobOut) (J : Job) (i alg : Nat) (kind : KeyKind) (n : Nat) : Prop :=
  ∀ k, J.newIdx[i]? = some k →
    ∃ K ∈ o.keys, K.1 = k ∧ K.2.alg = alg ∧ K.2.kind = kind ∧ K.2.owner = J.fn ∧ K.2.material.length = n

/-- A verdict that releases nothing: OK where it holds, VERIFY_FAIL where it does not (05_lattice.md R106). -/
def JobOut.verdict (o : JobOut) : Prop := o.withheld ∧ (o.status = St.ok ∨ o.status = St.verifyFail)

/-- A key that fails its standard's check: KEY_INVALID, nothing released (05_lattice.md R123 row 7). -/
def JobOut.keyRefused (o : JobOut) : Prop := o.withheld ∧ o.status = St.keyInvalid

/-- A machine check: nothing released (05_lattice.md R117; 07_code_and_classical.md R157). -/
def JobOut.mchecked (o : JobOut) : Prop := o.withheld ∧ o.status = St.mcheck

/-- Every waiting command is well formed. -/
def State.queueOk (s : State) : Prop := ∀ c ∈ s.pending, c.wellFormed = true

/-- The machine runs: it does not stop at `s`. -/
def State.safe (s : State) : Prop := ∃ t, step s = .next t

end Sys2Proof.Machine
end

