-- ==== Sys2Proof/Certificates/Slice0/Obligations.lean ====
section
/-! DEFINITION. The statements for the provers: what each family of commands does to the state, what it leaves as it was, and
the rules of the whole machine. -/

open Sys2Proof Sys2Proof.Machine

/-! ### Pelorus (16_service_complex.md R377-R380) -/

/-- A Helm core that can execute a Pelorus instruction: within the numbering, not stopped, XS not Off (R378). -/
abbrev Executes (s : State) (core : Nat) : Prop := core < 8 ∧ (s.core core).stopped = false ∧ (s.core core).xs ≠ 0

/-- The element of index `i` and width `n` of vector register `r` of a core. -/
abbrev lane (s : State) (core n : Nat) (r : BitVec 5) (i : Nat) : BitVec n := ((s.core core).vreg r).extractLsb' (n * i) n

/-- R380, integer arithmetic: on every legal core the instruction completes; the destination register alone is written, XS
becomes Dirty, and each element of W's width is the sum, difference, low half of the product, high half of the signed
product, or signed minimum or maximum of the source elements, modulo 2^width. -/
def Obligations.PelorusArithmeticActsOnEachLane : Prop :=
  ∀ (s : State) (core : Nat) (rd rs1 rs2 : BitVec 5) (w : BitVec 2), Executes s core →
    ∀ n : Nat, n = 8 * 2 ^ w.toNat →
    let a := lane s core n rs1
    let b := lane s core n rs2
    (∃ v, exec (.vadd core rd rs1 rs2 w) s = .next (s.modCore core (·.setV rd v)) ∧
      ∀ i < 128 / n, v.extractLsb' (n * i) n = a i + b i) ∧
    (∃ v, exec (.vsub core rd rs1 rs2 w) s = .next (s.modCore core (·.setV rd v)) ∧
      ∀ i < 128 / n, v.extractLsb' (n * i) n = a i - b i) ∧
    (∃ v, exec (.vmul core rd rs1 rs2 w) s = .next (s.modCore core (·.setV rd v)) ∧
      ∀ i < 128 / n, v.extractLsb' (n * i) n = a i * b i) ∧
    (∃ v, exec (.vmulh core rd rs1 rs2 w) s = .next (s.modCore core (·.setV rd v)) ∧
      ∀ i < 128 / n, v.extractLsb' (n * i) n = (((a i).signExtend (2 * n)) * ((b i).signExtend (2 * n))).extractLsb' n n) ∧
    (∃ v, exec (.vmin core rd rs1 rs2 w) s = .next (s.modCore core (·.setV rd v)) ∧
      ∀ i < 128 / n, v.extractLsb' (n * i) n = if (a i).sle (b i) then a i else b i) ∧
    (∃ v, exec (.vmax core rd rs1 rs2 w) s = .next (s.modCore core (·.setV rd v)) ∧
      ∀ i < 128 / n, v.extractLsb' (n * i) n = if (a i).sle (b i) then b i else a i)

/-- R380, logic on 128 bits with W = 0b11, the select of funct3 0b110, the move, and the shifts by x[rs2] modulo the
width; each writes its destination register alone. R380, shuffles, compares and moves between register files: VSHUF (W 0b00), VSEQ, VSLT and VSLTU give all ones or
zero, VEXT sign-extends the element that rs2 names and x0 discards it, VINS replaces that element alone, VSPLAT fills. -/
def Obligations.PelorusLogicShiftsComparesAndMoves : Prop :=
  (∀ (s : State) (core : Nat) (rd rs1 rs2 : BitVec 5) (w : BitVec 2), Executes s core →
    let C := s.core core
    exec (.vand core rd rs1 rs2 3) s = .next (s.modCore core (·.setV rd (C.vreg rs1 &&& C.vreg rs2))) ∧
    exec (.vor core rd rs1 rs2 3) s = .next (s.modCore core (·.setV rd (C.vreg rs1 ||| C.vreg rs2))) ∧
    exec (.vxor core rd rs1 rs2 3) s = .next (s.modCore core (·.setV rd (C.vreg rs1 ^^^ C.vreg rs2))) ∧
    exec (.vsel core rd rs1 rs2 3) s =
      .next (s.modCore core (·.setV rd ((C.vreg rd &&& C.vreg rs1) ||| (~~~ C.vreg rd &&& C.vreg rs2)))) ∧
    exec (.vmv core rd rs1 0 3) s = .next (s.modCore core (·.setV rd (C.vreg rs1))) ∧
    ∀ n : Nat, n = 8 * 2 ^ w.toNat →
    let a := lane s core n rs1
    let k := (C.xreg rs2).toNat % n
    (∃ v, exec (.vsll core rd rs1 rs2 w) s = .next (s.modCore core (·.setV rd v)) ∧
      ∀ i < 128 / n, v.extractLsb' (n * i) n = a i <<< k) ∧
    (∃ v, exec (.vsrl core rd rs1 rs2 w) s = .next (s.modCore core (·.setV rd v)) ∧
      ∀ i < 128 / n, v.extractLsb' (n * i) n = a i >>> k) ∧
    (∃ v, exec (.vsra core rd rs1 rs2 w) s = .next (s.modCore core (·.setV rd v)) ∧
      ∀ i < 128 / n, v.extractLsb' (n * i) n = (a i).sshiftRight k)) ∧
  (∀ (s : State) (core : Nat) (rd rs1 rs2 : BitVec 5) (w : BitVec 2), Executes s core →
    let C := s.core core
    (∃ v, exec (.vshuf core rd rs1 rs2 0) s = .next (s.modCore core (·.setV rd v)) ∧
      ∀ i < 16, v.extractLsb' (8 * i) 8 = lane s core 8 rs1 ((lane s core 8 rs2 i).toNat % 16)) ∧
    ∀ n : Nat, n = 8 * 2 ^ w.toNat →
    let a := lane s core n rs1
    let b := lane s core n rs2
    (∃ v, exec (.vseq core rd rs1 rs2 w) s = .next (s.modCore core (·.setV rd v)) ∧
      ∀ i < 128 / n, v.extractLsb' (n * i) n = if a i = b i then BitVec.allOnes n else 0) ∧
    (∃ v, exec (.vslt core rd rs1 rs2 w) s = .next (s.modCore core (·.setV rd v)) ∧
      ∀ i < 128 / n, v.extractLsb' (n * i) n = if (a i).slt (b i) then BitVec.allOnes n else 0) ∧
    (∃ v, exec (.vsltu core rd rs1 rs2 w) s = .next (s.modCore core (·.setV rd v)) ∧
      ∀ i < 128 / n, v.extractLsb' (n * i) n = if (a i).ult (b i) then BitVec.allOnes n else 0) ∧
    (∃ v, exec (.vsplat core rd rs1 0 w) s = .next (s.modCore core (·.setV rd v)) ∧
      ∀ i < 128 / n, v.extractLsb' (n * i) n = (C.xreg rs1).setWidth n) ∧
    (rs2.toNat < 128 / n →
      exec (.vext core rd rs1 rs2 w) s =
        .next (s.modCore core fun C => if rd = 0 then C else { C with x := tput C.x rd.toNat ((a rs2.toNat).signExtend 64) }) ∧
      ∃ v, exec (.vins core rd rs1 rs2 w) s = .next (s.modCore core (·.setV rd v)) ∧
        ∀ i < 128 / n, v.extractLsb' (n * i) n = if i = rs2.toNat then (C.xreg rs1).setWidth n else lane s core n rd i))

/-- R380, modular instructions with W = 0b10 and pmod = q not zero: each 32-bit lane is the r in [0, q) congruent to the
exact result. -/
def Obligations.PelorusModularLanesAreReduced : Prop :=
  ∀ (s : State) (core : Nat) (rd rs1 rs2 : BitVec 5), Executes s core → (s.core core).pmod ≠ 0 →
    let q : Int := (s.core core).pmod.toNat
    let a := fun i => ((lane s core 32 rs1 i).toNat : Int)
    let b := fun i => ((lane s core 32 rs2 i).toNat : Int)
    let d := fun i => ((lane s core 32 rd i).toNat : Int)
    let holds := fun (o : Out) (r : Nat → Int) => ∃ v, o = .next (s.modCore core (·.setV rd v)) ∧
      ∀ i < 4, ((v.extractLsb' (32 * i) 32).toNat : Int) = r i % q
    holds (exec (.vmadd core rd rs1 rs2 2) s) (fun i => a i + b i) ∧
    holds (exec (.vmsub core rd rs1 rs2 2) s) (fun i => a i - b i) ∧
    holds (exec (.vmmul core rd rs1 rs2 2) s) (fun i => a i * b i) ∧
    holds (exec (.vmmac core rd rs1 rs2 2) s) (fun i => d i + a i * b i) ∧
    holds (exec (.vmred core rd rs1 0 2) s) a

/-- R379 and R380, memory: a write of pmod keeps an odd value from 3 to 2^31 − 1 and sets 0 otherwise; a VLD or VST of a
core that runs no owner module moves 16 bytes, byte 0 at the lowest address, and no other byte of its memory changes. R378: while XS is Off, or where a W is not allowed, an unused field is not zero, an index reaches the element count or
pmod is 0, the instruction raises illegal-instruction and changes nothing else. -/
def Obligations.PelorusMemoryModulusAndTraps : Prop :=
  (∀ (s : State) (core : Nat) (rd rs1 rs2 : BitVec 5) (off : BitVec 12) (q : BitVec 64), Executes s core →
    exec (.pmodWrite core q) s = .next (s.modCore core fun C => { C with
      xs := 3, pmod := if q.toNat % 2 = 1 ∧ 3 ≤ q.toNat ∧ q.toNat < 2 ^ 31 then q.setWidth 31 else 0 }) ∧
    (s.moduleOn core = false → memWf s.service.helmMem = true →
      let a := ((s.core core).xreg rs1 + off.signExtend 64).toNat
      (∃ v, exec (.vld core rd rs1 off) s = .next (s.modCore core (·.setV rd v)) ∧
        ∀ i < 16, v.extractLsb' (8 * i) 8 = memRead s.service.helmMem ((a + i) % 2 ^ 64)) ∧
      ∃ m, exec (.vst core rs2 rs1 off) s = .next { s with service := { s.service with helmMem := m } } ∧
        memWf m = true ∧
        (∀ i < 16, memRead m ((a + i) % 2 ^ 64) = lane s core 8 rs2 i) ∧
        ∀ b, (∀ i < 16, b ≠ (a + i) % 2 ^ 64) → memRead m b = memRead s.service.helmMem b) ∧
    (State.reset.core core).pmod = 0) ∧
  (∀ (s : State) (core : Nat) (rd rs1 rs2 : BitVec 5) (w : BitVec 2), core < 8 → (s.core core).stopped = false →
    let trap : Out := .next { s.raise core 2 (s.pcOf core) with pending := s.pending }
    ((s.core core).xs = 0 → exec (.vadd core rd rs1 rs2 w) s = trap ∧ exec (.vld core rd rs1 0) s = trap ∧
      exec (.vst core rs2 rs1 0) s = trap ∧ exec (.vfadd core rd rs1 rs2 w) s = trap ∧ exec (.vmadd core rd rs1 rs2 w) s = trap) ∧
    (w ≠ 3 → exec (.vand core rd rs1 rs2 w) s = trap ∧ exec (.vor core rd rs1 rs2 w) s = trap ∧
      exec (.vxor core rd rs1 rs2 w) s = trap ∧ exec (.vsel core rd rs1 rs2 w) s = trap ∧ exec (.vmv core rd rs1 rs2 w) s = trap) ∧
    (w ≠ 0 → exec (.vshuf core rd rs1 rs2 w) s = trap) ∧
    (w.getLsbD 1 = true → exec (.vcmul core rd rs1 rs2 w) s = trap ∧ exec (.vcmac core rd rs1 rs2 w) s = trap ∧
      exec (.vcconj core rd rs1 rs2 w) s = trap) ∧
    (w.getLsbD 1 = false → exec (.vfmul core rd rs1 rs2 w) s = trap ∧ exec (.vfma core rd rs1 rs2 w) s = trap ∧
      exec (.vfdiv core rd rs1 rs2 w) s = trap ∧ exec (.vflt core rd rs1 rs2 w) s = trap ∧
      exec (.vfcvtfi core rd rs1 rs2 w) s = trap ∧ exec (.vfcvtif core rd rs1 rs2 w) s = trap) ∧
    (rs2 ≠ 0 → exec (.vmv core rd rs1 rs2 w) s = trap ∧ exec (.vsplat core rd rs1 rs2 w) s = trap ∧
      exec (.vcconj core rd rs1 rs2 w) s = trap ∧ exec (.vfcvtfi core rd rs1 rs2 w) s = trap ∧
      exec (.vfcvtif core rd rs1 rs2 w) s = trap ∧ exec (.vmred core rd rs1 rs2 w) s = trap) ∧
    (128 / (8 * 2 ^ w.toNat) ≤ rs2.toNat → exec (.vext core rd rs1 rs2 w) s = trap ∧ exec (.vins core rd rs1 rs2 w) s = trap) ∧
    (w ≠ 2 ∨ (s.core core).pmod = 0 → exec (.vmadd core rd rs1 rs2 w) s = trap ∧ exec (.vmsub core rd rs1 rs2 w) s = trap ∧
      exec (.vmmul core rd rs1 rs2 w) s = trap ∧ exec (.vmmac core rd rs1 rs2 w) s = trap ∧ exec (.vmred core rd rs1 rs2 w) s = trap))

/-- The rounding mode that frm names; a value that the F extension reserves is left out of the statements (log 43). -/
abbrev RoundsBy (s : State) (core rm : Nat) : Prop := (s.core core).frm.toNat = rm ∧ rm < 5

/-- What a floating-point instruction on elements of `n` bits leaves on its core: the destination register, XS Dirty, and
the flags of every element accumulated in fflags. -/
abbrev floatDone (s : State) (core n : Nat) (rd : BitVec 5) (r : Nat → FRes) (o : Out) : Prop :=
  ∃ v f, o = .next (s.modCore core fun C => { C.setV rd v with fflags := C.fflags ||| f }) ∧
    (∀ i < 128 / n, (v.extractLsb' (n * i) n).toNat = (r i).1 % 2 ^ n) ∧
    ∀ k < 5, f.getLsbD k = true ↔ ∃ i < 128 / n, (r i).2.testBit k = true

/-- R380, floating point: element by element in the format that W names, rounded by frm, with the flags of every element
accumulated; VFADD and VFSUB take every W, complex parts separately; VCMUL has re = fma(a, c, −RN(b·d)) and
im = fma(a, d, RN(b·c)); VCMAC adds it to rd; VCCONJ negates the imaginary part. R380: a NaN result is the canonical NaN, and an operand that is not a number gives one. -/
def Obligations.PelorusFloatRoundsAndCollectsFlags : Prop :=
  (∀ (s : State) (core rm : Nat) (rd rs1 rs2 : BitVec 5) (w : BitVec 2), Executes s core → RoundsBy s core rm →
    ∀ F : Fmt, F = (if w.getLsbD 0 then f64 else f32) →
    let n := F.width
    let a := fun i => (lane s core n rs1 i).toNat
    let b := fun i => (lane s core n rs2 i).toNat
    let d := fun i => (lane s core n rd i).toNat
    floatDone s core n rd (fun i => F.add rm (a i) (b i)) (exec (.vfadd core rd rs1 rs2 w) s) ∧
    floatDone s core n rd (fun i => F.sub rm (a i) (b i)) (exec (.vfsub core rd rs1 rs2 w) s) ∧
    (w.getLsbD 1 = true →
      floatDone s core n rd (fun i => F.mul rm (a i) (b i)) (exec (.vfmul core rd rs1 rs2 w) s) ∧
      floatDone s core n rd (fun i => F.fma rm (a i) (b i) (d i)) (exec (.vfma core rd rs1 rs2 w) s) ∧
      floatDone s core n rd (fun i => F.div rm (a i) (b i)) (exec (.vfdiv core rd rs1 rs2 w) s) ∧
      floatDone s core n rd (fun i => (if (F.lt (a i) (b i)).1 then 2 ^ n - 1 else 0, (F.lt (a i) (b i)).2))
        (exec (.vflt core rd rs1 rs2 w) s) ∧
      floatDone s core n rd (fun i => F.ofInt rm (lane s core n rs1 i).toInt) (exec (.vfcvtfi core rd rs1 0 w) s) ∧
      floatDone s core n rd (fun i => F.toInt rm n (a i)) (exec (.vfcvtif core rd rs1 0 w) s)) ∧
    (w.getLsbD 1 = false →
      let product := fun i =>
        let k := i / 2 * 2
        if i % 2 = 0 then
          ((F.fma rm (a k) (b k) (F.neg (F.mul rm (a (k + 1)) (b (k + 1))).1)).1,
           (F.fma rm (a k) (b k) (F.neg (F.mul rm (a (k + 1)) (b (k + 1))).1)).2 ||| (F.mul rm (a (k + 1)) (b (k + 1))).2)
        else
          ((F.fma rm (a k) (b (k + 1)) (F.mul rm (a (k + 1)) (b k)).1).1,
           (F.fma rm (a k) (b (k + 1)) (F.mul rm (a (k + 1)) (b k)).1).2 ||| (F.mul rm (a (k + 1)) (b k)).2)
      floatDone s core n rd product (exec (.vcmul core rd rs1 rs2 w) s) ∧
      floatDone s core n rd (fun i => ((F.add rm (d i) (product i).1).1, (F.add rm (d i) (product i).1).2 ||| (product i).2))
        (exec (.vcmac core rd rs1 rs2 w) s) ∧
      floatDone s core n rd (fun i => (if i % 2 = 0 then F.samePart (a i) else F.negPart (a i), 0))
        (exec (.vcconj core rd rs1 0 w) s))) ∧
  (∀ (F : Fmt) (rm a b c : Nat), F = f32 ∨ F = f64 →
    let isNaN := fun x => x / 2 ^ F.mw % 2 ^ F.ew = 2 ^ F.ew - 1 ∧ x % 2 ^ F.mw ≠ 0
    (∀ r ∈ [F.add rm a b, F.sub rm a b, F.mul rm a b, F.div rm a b, F.fma rm a b c], isNaN r.1 → r.1 = F.canonical) ∧
    (isNaN a ∨ isNaN b → ∀ r ∈ [F.add rm a b, F.sub rm a b, F.mul rm a b, F.div rm a b, F.fma rm a b c], r.1 = F.canonical) ∧
    (isNaN c → (F.fma rm a b c).1 = F.canonical))

/-! ### What an operation computes (05, 06, 07, 08) -/

/-- R102, R103, R105, R107-R109, ML-KEM: keygen returns ek and stores dk, with d and z from the DRBG unless SEEDED;
encapsulation draws 32 bytes, returns the ciphertext and stores the secret; decapsulation stores the secret and releases
nothing; a key that fails its check is KEY_INVALID. R102, R105, R106, R114-R117, R121, R122, ML-DSA and FN-DSA: keygen returns pk and stores sk; a signature has the length of
its set, with the iterations or attempts run in RESULT[47:32], at least one and at most 1,024 or 64; the device draws 32
bytes of rnd unless DETERMINISTIC, and always the 40-byte salt, with 32 bytes for each FN-DSA attempt (log 1); past the cap MCHECK and nothing; a verification only
answers, and an ML-DSA verification is never KEY_INVALID. -/
def Obligations.LatticeJobsComputeTheirResults : Prop :=
  (∀ row ∈ [(1, 800, 1632, 768), (2, 1184, 2400, 1088), (3, 1568, 3168, 1568)], ∀ (s : State) (j : Nat) (J : Job),
    let (p, ek, dk, ct) := row
    (s.running j J (0x1000 + p) → Computes (.mlKemKeygen j) j s fun o n =>
      n = (if bitOf J.param.toNat 12 then 0 else 64) ∧
      o.status = St.ok ∧ o.output.length = ek ∧ o.result = s.newHandle J 0 + ek * 2 ^ 32 ∧
        o.makes J 0 (0x1000 + p) .priv dk) ∧
    (s.running j J (0x1100 + p) → Computes (.mlKemEncaps j) j s fun o n =>
      (n = 32 ∧ o.status = St.ok ∧ o.output.length = ct ∧ o.result = s.newHandle J 0 + ct * 2 ^ 32 ∧
        o.makes J 0 0x7000 .secret 32) ∨ (n = 0 ∧ o.keyRefused)) ∧
    (s.running j J (0x1200 + p) → Computes (.mlKemDecaps j) j s fun o n =>
      n = 0 ∧ ((o.status = St.ok ∧ o.output = [] ∧ o.result = s.newHandle J 0 ∧ o.makes J 0 0x7000 .secret 32) ∨
        (o.keyRefused ∧ o.badKey = true)))) ∧
  ((∀ row ∈ [(1, 1312, 2560, 2420), (2, 1952, 4032, 3309), (3, 2592, 4896, 4627)], ∀ (s : State) (j : Nat) (J : Job),
    let (p, pk, sk, sg) := row
    (s.running j J (0x2000 + p) → Computes (.mlDsaKeygen j) j s fun o n =>
      n = (if bitOf J.param.toNat 12 then 0 else 32) ∧
      ((o.status = St.ok ∧ o.output.length = pk ∧ o.result = s.newHandle J 0 + pk * 2 ^ 32 ∧
        o.makes J 0 (0x2000 + p) .priv sk) ∨ o.mchecked)) ∧
    (s.running j J (0x2100 + p) → Computes (.mlDsaSign j) j s fun o n =>
      n = (if bitOf J.param.toNat 8 then 0 else 32) ∧
      ((o.status = St.ok ∧ o.output.length = sg ∧ o.keys = [] ∧
        ∃ i, 1 ≤ i ∧ i ≤ 1024 ∧ o.result = sg + i * 2 ^ 32) ∨ o.mchecked)) ∧
    (s.running j J (0x2200 + p) → Computes (.mlDsaVerify j) j s fun o n => n = 0 ∧ o.verdict)) ∧
  (∀ row ∈ [(1, 897, 1281, 666), (2, 1793, 2305, 1280)], ∀ (s : State) (j : Nat) (J : Job),
    let (p, pk, sk, sg) := row
    (s.running j J (0x2400 + p) → Computes (.fnDsaKeygen j) j s fun o n =>
      ((o.status = St.ok ∧ n ≤ 48 * 32 ∧ o.output.length = pk ∧ o.result = s.newHandle J 0 + pk * 2 ^ 32 ∧
        o.makes J 0 (0x2400 + p) .priv sk) ∨ o.mchecked)) ∧
    (s.running j J (0x2500 + p) → Computes (.fnDsaSign j) j s fun o n =>
      (o.status = St.ok ∧ o.output.length = sg ∧ o.keys = [] ∧
        ∃ i, 1 ≤ i ∧ i ≤ 64 ∧ n = 40 + 32 * i ∧ o.result = sg + i * 2 ^ 32) ∨ (n = 40 + 32 * 64 ∧ o.mchecked)) ∧
    (s.running j J (0x2600 + p) → Computes (.fnDsaVerify j) j s fun o n => n = 0 ∧ (o.verdict ∨ o.keyRefused))))

/-- R124-R126, SLH-DSA: 2n bytes of public key, 4n of private key stored, a signature of its set's length with
RESULT[47:32] zero; keygen draws 3n bytes unless SEEDED and signing n bytes unless DETERMINISTIC; verification only answers
and is never KEY_INVALID. R132-R134, R151, stateful signatures: keygen stores a private key whose leaf state has no leaf used, its whole tree and
the block that PARAM names; a sign with a reserved leaf v returns v and the leaves that remain, RESULT its length, and the
leaf state of the key is not the computing's to change; a verification answers OK, VERIFY_FAIL or KEY_INVALID; leaf
status returns the next leaf, RESERVED_END and the flags. -/
def Obligations.HashSignatureJobsComputeTheirResults : Prop :=
  (∀ row ∈ [(1, 16, 7856), (2, 16, 17088), (3, 24, 16224), (4, 24, 35664), (5, 32, 29792), (6, 32, 49856),
      (7, 16, 7856), (8, 16, 17088), (9, 24, 16224), (10, 24, 35664), (11, 32, 29792), (12, 32, 49856)],
    ∀ (s : State) (j : Nat) (J : Job),
    let (p, m, sg) := row
    (s.running j J (0x3000 + p) → (bitOf J.param.toNat 12 → (J.auxPart 0).length = 3 * m) →
      Computes (.slhDsaKeygen j) j s fun o n =>
        n = (if bitOf J.param.toNat 12 then 0 else 3 * m) ∧ o.status = St.ok ∧ o.output.length = 2 * m ∧
        o.result = s.newHandle J 0 + 2 * m * 2 ^ 32 ∧ o.makes J 0 (0x3000 + p) .priv (4 * m)) ∧
    (s.running j J (0x3100 + p) → Computes (.slhDsaSign j) j s fun o n =>
      n = (if bitOf J.param.toNat 8 then 0 else m) ∧ o.status = St.ok ∧ o.output.length = sg ∧ o.result = sg ∧ o.keys = []) ∧
    (s.running j J (0x3200 + p) → Computes (.slhDsaVerify j) j s fun o n => n = 0 ∧ o.verdict)) ∧
  (∀ (s : State) (j : Nat) (J : Job) (op : Nat), s.running j J op →
    let fresh := fun (o : JobOut) => o.status = St.ok ∧ o.result = s.newHandle J 0 + o.output.length * 2 ^ 32 ∧
      ∀ k, J.newIdx[0]? = some k → ∃ K H, o.keys = [(k, K)] ∧ K.alg = op ∧ K.kind = .priv ∧ K.owner = J.fn ∧
        K.hbs = some H ∧ H.next = 0 ∧ H.block = bitsOf J.param.toNat 41 32 + 1
    let signed := fun (o : JobOut) => ∀ i K H v, J.pin = some i → s.key? i = some K → K.hbs = some H → J.leaf = some v →
      o.status = St.ok ∧ o.keys = [] ∧ o.result = o.output.length ∧
      o.ret = le 8 v ++ le 4 (min (H.limit - (v + 1)) 0xFFFFFFFF)
    let status := fun (o : JobOut) => ∀ i K H, J.pin = some i → s.key? i = some K → K.hbs = some H →
      o.status = St.ok ∧ o.output = [] ∧ o.keys = [] ∧ o.result = H.skip H.next ∧ o.ret = le 8 H.reserved ++ le 4 H.flags
    (op / 0x100 = 0x34 → Computes (.hssKeygen j) j s fun o n => 64 ≤ n ∧ fresh o) ∧
    (op / 0x100 = 0x38 → Computes (.xmssKeygen j) j s fun o n => n = 4 * (xmssSet false (op % 256)).2.2.1 ∧ fresh o) ∧
    (op / 0x100 = 0x3C → Computes (.xmssmtKeygen j) j s fun o n => n = 4 * (xmssSet true (op % 256)).2.2.1 ∧ fresh o) ∧
    (op / 0x100 = 0x35 → Computes (.hssSign j) j s fun o _ => signed o) ∧
    (op / 0x100 = 0x39 → Computes (.xmssSign j) j s fun o n => n = 0 ∧ signed o) ∧
    (op / 0x100 = 0x3D → Computes (.xmssmtSign j) j s fun o n => n = 0 ∧ signed o) ∧
    (op / 0x100 = 0x36 → Computes (.hssVerify j) j s fun o n => n = 0 ∧ (o.verdict ∨ o.keyRefused)) ∧
    (op / 0x100 = 0x3A → Computes (.xmssVerify j) j s fun o n => n = 0 ∧ (o.verdict ∨ o.keyRefused)) ∧
    (op / 0x100 = 0x3E → Computes (.xmssmtVerify j) j s fun o n => n = 0 ∧ (o.verdict ∨ o.keyRefused)) ∧
    (op / 0x100 = 0x37 → Computes (.hssLeafStatus j) j s fun o n => n = 0 ∧ status o) ∧
    (op / 0x100 = 0x3B → Computes (.xmssLeafStatus j) j s fun o n => n = 0 ∧ status o) ∧
    (op / 0x100 = 0x3F → Computes (.xmssmtLeafStatus j) j s fun o n => n = 0 ∧ status o))

/-- R152, R153, R155-R157, R160, R163, code-based KEMs: sizes of their sets; HQC draws 64 bytes, Classic McEliece 32 bytes; a
McEliece keygen makes a private and a public key and writes nothing where DST is zero; decapsulation always completes with
OK; a shortfall is MCHECK and releases nothing. -/
def Obligations.CodeBasedKemJobsComputeTheirResults : Prop :=
  (∀ row ∈ [(1, 2249, 2289, 4481), (2, 4522, 4562, 9026), (3, 7245, 7285, 14469)], ∀ (s : State) (j : Nat) (J : Job),
    let (p, pk, sk, ct) := row
    (s.running j J (0x4000 + p) → Computes (.hqcKeygen j) j s fun o n => (bitOf J.param.toNat 12 = false → n = 64) ∧
      ((o.status = St.ok ∧ o.output.length = pk ∧ o.result = s.newHandle J 0 + pk * 2 ^ 32 ∧
        o.makes J 0 (0x4000 + p) .priv sk) ∨ o.mchecked)) ∧
    (s.running j J (0x4100 + p) → Computes (.hqcEncaps j) j s fun o n => n = 64 ∧
      ((o.status = St.ok ∧ o.output.length = ct ∧ o.result = s.newHandle J 0 + ct * 2 ^ 32 ∧ o.makes J 0 0x7000 .secret 64) ∨
        o.mchecked)) ∧
    (s.running j J (0x4200 + p) → Computes (.hqcDecaps j) j s fun o n => n = 0 ∧
      o.status = St.ok ∧ o.output = [] ∧ o.result = s.newHandle J 0 ∧ o.makes J 0 0x7000 .secret 64)) ∧
  (∀ row ∈ [(1, 261120, 6492, 96), (2, 524160, 13608, 156), (3, 1044992, 13932, 208), (4, 1047319, 13948, 194)],
    ∀ (s : State) (j : Nat) (J : Job),
    let (p, pk, sk, ct) := row
    (s.running j J (0x4400 + p) → Computes (.mcelieceKeygen j) j s fun o n =>
      n = (if bitOf J.param.toNat 12 then 0 else 32) ∧
      ((o.status = St.ok ∧ o.output.length = (if J.dst = 0 then 0 else pk) ∧
        o.result = s.newHandle J 0 + (if J.dst = 0 then 0 else pk) * 2 ^ 32 ∧ o.ret.take 4 = le 4 (s.newHandle J 1) ∧
        o.makes J 0 (0x4400 + p) .priv sk ∧ o.makes J 1 (0x4400 + p) .pub pk) ∨ o.mchecked)) ∧
    (s.running j J (0x4500 + p) → Computes (.mcelieceEncaps j) j s fun o n => n = 32 ∧
      ((o.status = St.ok ∧ o.output.length = ct ∧ o.result = s.newHandle J 0 + ct * 2 ^ 32 ∧ o.makes J 0 0x7000 .secret 32) ∨
        o.mchecked)) ∧
    (s.running j J (0x4600 + p) → Computes (.mcelieceDecaps j) j s fun o n => n = 0 ∧
      o.status = St.ok ∧ o.output = [] ∧ o.result = s.newHandle J 0 ∧ o.makes J 0 0x7000 .secret 32))

/-- R152, R153, R164-R169, elliptic curves: keygen writes the public key and stores the private key; an ECDSA signature with
SIG_DER = 0 has twice the order's length and 32 drawn bytes when hedged; EdDSA draws nothing; ECDH and the Montgomery
curves store the secret and write nothing, and a peer key that fails, or an all-zero secret, is KEY_INVALID; verifications
answer. -/
def Obligations.EllipticCurveJobsComputeTheirResults : Prop :=
  ∀ (s : State) (j : Nat) (J : Job),
    let made := fun (o : JobOut) (alg pk sk : Nat) =>
      (o.status = St.ok ∧ o.output.length = pk ∧ o.result = s.newHandle J 0 + pk * 2 ^ 32 ∧ o.makes J 0 alg .priv sk) ∨ o.mchecked
    let agreed := fun (o : JobOut) (z : Nat) =>
      (o.status = St.ok ∧ o.output = [] ∧ o.result = s.newHandle J 0 ∧ o.makes J 0 0x7000 .secret z) ∨ o.keyRefused
    (∀ row ∈ [(1, 65, 32), (2, 97, 48), (3, 133, 66)],
      let (p, pk, k) := row
      (s.running j J (0x5000 + p) → bitOf J.param.toNat 12 = false → Computes (.ecdsaKeygen j) j s fun o n =>
        n = k ∧ made o (0x5000 + p) pk k) ∧
      (s.running j J (0x5100 + p) → Computes (.ecdsaSign j) j s fun o n => n = (if bitOf J.param.toNat 8 then 0 else 32) ∧
        ((o.status = St.ok ∧ o.keys = [] ∧ o.result = o.output.length ∧
          (bitOf J.param.toNat 13 = false → o.output.length = 2 * k)) ∨ o.mchecked)) ∧
      (s.running j J (0x5200 + p) → Computes (.ecdsaVerify j) j s fun o n => n = 0 ∧ (o.verdict ∨ o.keyRefused)) ∧
      (s.running j J (0x5300 + p) → Computes (.ecdh j) j s fun o n => n = 0 ∧ agreed o k)) ∧
    (∀ row ∈ [(1, 32, 64), (2, 57, 114)],
      let (p, k, sg) := row
      (s.running j J (0x5400 + p) → bitOf J.param.toNat 12 = false → Computes (.eddsaKeygen j) j s fun o n =>
        n = k ∧ made o (0x5400 + p) k k) ∧
      (s.running j J (0x5500 + p) → Computes (.eddsaSign j) j s fun o n =>
        n = 0 ∧ o.status = St.ok ∧ o.keys = [] ∧ o.output.length = sg ∧ o.result = sg) ∧
      (s.running j J (0x5600 + p) → Computes (.eddsaVerify j) j s fun o n => n = 0 ∧ (o.verdict ∨ o.keyRefused))) ∧
    (∀ row ∈ [(1, 32), (2, 56)],
      let (p, k) := row
      (s.running j J (0x5700 + p) → bitOf J.param.toNat 12 = false → Computes (.montgomeryKeygen j) j s fun o n =>
        n = k ∧ made o (0x5700 + p) k k) ∧
      (s.running j J (0x5800 + p) → Computes (.montgomeryKeyAgreement j) j s fun o n => n = 0 ∧ agreed o k))

/-- R152, R155, R170-R173, RSA with a modulus of k bits in steps of 256: a signature and an OAEP ciphertext have the length of
the modulus; PSS draws SALT_LEN bytes and OAEP the hash length, and a private operation the bytes that blind it (log 1); a failed decryption is VERIFY_FAIL and releases nothing,
and with AS_KEY the message becomes a key and nothing is written. -/
def Obligations.RsaJobsComputeTheirResults : Prop :=
  ∀ (s : State) (j : Nat) (J : Job) (p : Nat), 8 ≤ p → p ≤ 16 →
    (s.running j J (0x5900 + p) → bitOf J.param.toNat 12 = false → Computes (.rsaKeygen j) j s fun o _ =>
      (o.status = St.ok ∧ o.result = s.newHandle J 0 + o.output.length * 2 ^ 32 ∧
        o.makes J 0 (0x5900 + p) .priv (80 * p)) ∨ o.mchecked) ∧
    (s.running j J (0x5A00 + p) → Computes (.rsaSign j) j s fun o n =>
      n = (if bitOf J.param.toNat 15 then bitsOf J.param.toNat 31 24 else 0) + blindLen ∧
      o.status = St.ok ∧ o.keys = [] ∧ o.output.length = 32 * p ∧ o.result = 32 * p) ∧
    (s.running j J (0x5B00 + p) → Computes (.rsaVerify j) j s fun o n => n = 0 ∧ (o.verdict ∨ o.keyRefused)) ∧
    (s.running j J (0x5C00 + p) → Computes (.oaepEncrypt j) j s fun o n =>
      (n = hashLen (bitsOf J.param.toNat 23 16) ∧ o.status = St.ok ∧ o.keys = [] ∧ o.output.length = 32 * p ∧ o.result = 32 * p) ∨
        (n = 0 ∧ o.keyRefused)) ∧
    (s.running j J (0x5D00 + p) → Computes (.oaepDecrypt j) j s fun o n => n = blindLen ∧
      ((o.withheld ∧ o.status = St.verifyFail) ∨
        (bitOf J.param.toNat 14 = false ∧ o.status = St.ok ∧ o.keys = [] ∧ o.result = o.output.length) ∨
        (bitOf J.param.toNat 14 = true ∧ o.status = St.ok ∧ o.output = [] ∧ o.result = s.newHandle J 0 ∧
          o.makes J 0 0x7000 .secret (bitsOf J.param.toNat 51 44))))

/-- R178, R180, R185, R193-R196, family 0x6: an encryption returns the ciphertext, the tag last once all input is here, and
the nonce NODE_ID ‖ 0b00 ‖ CTR that the device built; a decryption returns as many bytes as it took and answers TAG_FAIL
where the tag differs; CTR and XTS keep the length; XTS with equal halves is KEY_INVALID; a wrap adds 8 bytes. -/
def Obligations.SymmetricJobsComputeTheirResults : Prop :=
  ∀ (s : State) (j : Nat) (J : Job) (op : Nat), s.running j J op →
    let nl := nonceLen op J.param.toNat
    let tl := if J.totalLen ≤ J.input.length then tagLen op J.param.toNat else 0
    let sealed := fun (o : JobOut) (n : Nat) => n = 0 ∧ o.status = St.ok ∧ o.keys = [] ∧
      o.output.length = J.input.length + tl ∧ o.result = J.input.length + tl ∧
      o.ret = be nl (s.cluster.node % 2 ^ 14 * 2 ^ (8 * nl - 14) + J.ctr.getD 0)
    let opened := fun (o : JobOut) (n : Nat) => n = 0 ∧ o.keys = [] ∧ o.output.length = J.input.length ∧
      ((o.status = St.ok ∧ o.result = J.input.length) ∨ (o.status = St.tagFail ∧ o.result = 0))
    (op / 0x100 = 0x60 → Computes (.aesGcmEncrypt j) j s sealed) ∧
    (op / 0x100 = 0x62 → Computes (.aesCcmEncrypt j) j s sealed) ∧
    (op / 0x100 = 0x69 → Computes (.chacha20Poly1305Seal j) j s sealed) ∧
    (op / 0x100 = 0x61 → Computes (.aesGcmDecrypt j) j s opened) ∧
    (op / 0x100 = 0x63 → Computes (.aesCcmDecrypt j) j s opened) ∧
    (op / 0x100 = 0x6A → Computes (.chacha20Poly1305Open j) j s opened) ∧
    (op / 0x100 = 0x64 → Computes (.aesCtr j) j s fun o n => n = 0 ∧ o.status = St.ok ∧ o.keys = [] ∧
      o.output.length = J.input.length ∧ o.result = J.input.length ∧
      (bitOf J.param.toNat 24 = true → o.ret = [])) ∧
    (let u := bitsOf J.param.toNat 56 32
     let xts := fun (o : JobOut) (n : Nat) => n = 0 ∧
       ((o.status = St.ok ∧ o.keys = [] ∧ o.output.length = J.input.length / u * u ∧ o.result = J.input.length / u * u) ∨ o.keyRefused)
     (op / 0x100 = 0x65 → Computes (.xtsAesEncrypt j) j s xts) ∧ (op / 0x100 = 0x66 → Computes (.xtsAesDecrypt j) j s xts)) ∧
    (op / 0x100 = 0x67 → Computes (.aesKwWrap j) j s fun o n => n = 0 ∧ o.status = St.ok ∧ o.keys = [] ∧
      o.output.length = 8 * ((J.input.length + 7) / 8) + 8 ∧ o.result = o.output.length) ∧
    (op / 0x100 = 0x68 → Computes (.aesKwUnwrap j) j s fun o n => n = 0 ∧
      ((o.status = St.ok ∧ o.keys = [] ∧ o.result = o.output.length) ∨ (o.withheld ∧ o.status = St.tagFail)))

/-- R142, R143, R146, R149, family 0x7: a digest or tag is written to DST with its length in RESULT, or with LOGBOOK_DEST is
an extend of the register and nothing is written; verifications answer; HKDF and the counter KDF store OUT_LEN bytes as a
key and write nothing; a keyed slot is bound to the lowest free slot of 4,096, or CTX_FULL, and a drop frees its own. -/
def Obligations.DigestJobsComputeTheirResults : Prop :=
  ∀ (s : State) (j : Nat) (J : Job) (op : Nat), s.running j J op →
    let len := bitsOf J.param.toNat 31 0
    let dest := fun (o : JobOut) (n k : Nat) => n = 0 ∧ o.status = St.ok ∧ o.keys = [] ∧
      (J.logTarget = none → o.output.length = k ∧ o.result = k ∧ o.extend = none) ∧
      (∀ r, J.logTarget = some r → o.output = [] ∧ ∃ d, o.extend = some (r, d) ∧ d.length = k)
    let derived := fun (o : JobOut) (n : Nat) => n = 0 ∧ o.status = St.ok ∧ o.output = [] ∧ o.result = s.newHandle J 0 ∧
      (0 < hashLen (op % 256) ∨ op % 256 = 0x31 ∨ op % 256 = 0x32 → o.makes J 0 0x7000 .secret len)
    (op / 0x100 = 0x70 → Computes (.digest j) j s fun o n => dest o n (hashLen (op % 256))) ∧
    (op / 0x100 = 0x71 → Computes (.xof j) j s fun o n => dest o n len) ∧
    (op / 0x100 = 0x72 → Computes (.hmacGenerate j) j s fun o n =>
      dest o n (min (if len = 0 then hashLen (op % 256) else len) (hashLen (op % 256)))) ∧
    (op / 0x100 = 0x74 → Computes (.kmacGenerate j) j s fun o n => dest o n len) ∧
    (op / 0x100 = 0x73 → Computes (.hmacVerify j) j s fun o n => n = 0 ∧ o.verdict) ∧
    (op / 0x100 = 0x75 → Computes (.kmacVerify j) j s fun o n => n = 0 ∧ o.verdict) ∧
    (op / 0x100 = 0x76 → 0 < hashLen (op % 256) → Computes (.hkdf j) j s derived) ∧
    (op / 0x100 = 0x77 → Computes (.counterKdf j) j s derived) ∧
    (op / 0x100 = 0x78 → Computes (.keyedSlotLoad j) j s fun o n => n = 0 ∧ o.output = [] ∧ o.keys = [] ∧
      ((o.status = St.ctxFull ∧ o.bind = none) ∨
       ∃ k b, k < 4096 ∧ tget s.keys.slots k = none ∧ (∀ i < k, (tget s.keys.slots i).isSome ∨ 1048575 < s.slotGenOf i ∨ i ∈ s.slotsTaken) ∧
         o.status = St.ok ∧ o.bind = some (k, b) ∧ b.key = J.handle ∧ b.fn = J.fn ∧ o.result = k + s.slotGenOf k * 4096)) ∧
    (op / 0x100 = 0x79 → Computes (.keyedSlotDrop j) j s fun o n => n = 0 ∧ o.output = [] ∧
      ((∃ k b, s.slotOf J.fn J.handle = some (k, b) ∧ o.status = St.ok ∧ o.drop = some k) ∨
       (s.slotOf J.fn J.handle = none ∧ o.keyRefused)))

/-- R46, R513, the test commands: TIMED_NOP computes nothing and answers OK; KNOWN_ANSWER answers OK where its vector
matches and MCHECK where it does not; FORCE_COMPARE_FAIL arms the queue that it came from and nothing else, and leaves an
arming that is in force as it is. -/
def Obligations.TestCommandsComputeTheirResults : Prop :=
  ∀ (s : State) (j : Nat) (J : Job) (isMatch : Bool),
    (s.running j J 0xF000 → exec (.timedNop j) s = .next (s.modJob j fun J => { J with out := some {} })) ∧
    (s.running j J 0xF001 → exec (.knownAnswer j isMatch) s =
      .next (s.modJob j fun J => { J with out := some { status := if isMatch then St.ok else St.mcheck } })) ∧
    (∀ q, s.running j J 0xF002 → J.src = .ring q → exec (.forceCompareFail j) s =
      .next ((s.modJob j fun J => { J with out := some {} }).modQueue q fun Q =>
        if Q.armed then Q else { Q with armed := true, armedAt := J.seq }))

/-! ### Resets, boot, pins (18_faults_safety.md; 20_boot_landfall.md; 23_electrical_package.md) -/

/-- What every device reset leaves (R452): jobs, queues, tiles, faults, mailboxes and locks are gone, PERMIT is low, session
keys are destroyed and the persistent ones kept, grants have ended, and the NVS, OTP, the boot flash and everything outside
the device are as they were. -/
abbrev Restarted (s t : State) : Prop :=
  t.jobs = [] ∧ t.queues = [] ∧ t.tiles = [] ∧ t.fns = [] ∧ t.regs = [] ∧ t.faults = {} ∧ t.pins.permit = 0 ∧
  t.service.mboxes = [] ∧ t.service.locks = [] ∧ t.boot.ready = false ∧ t.boot.landfall = false ∧ t.boot.booted = false ∧
  t.keys.slots = [] ∧ (∀ e, e ∈ t.keys.live ↔ e ∈ s.keys.live ∧ e.2.persistent = true) ∧
  t.lc = { s.lc with nonce := drbgBytes s.draws 32, grant := 0, debugged := false, busy := false, reason := 0, refuseUntil := 0,
                     fails := 0, resumed := false } ∧
  t.time.almanac = s.time.checkpoint ∧ t.time.checkpoint = s.time.checkpoint ∧ t.time.elapsed = 0 ∧ t.time.trusted = false ∧
  t.chart.running = none ∧ t.chart.slotA = s.chart.slotA ∧ t.chart.slotB = s.chart.slotB ∧ t.chart.floor = s.chart.floor ∧
  t.auth.running = s.auth.running ∧ t.auth.floor = s.auth.floor ∧ t.auth.seqs = s.auth.seqs ∧ t.cluster.roster = s.cluster.roster ∧
  t.flash = s.flash ∧ t.variant = s.variant ∧ t.grade = s.grade ∧ t.hostMem = s.hostMem ∧ t.outbox = s.outbox ∧ t.pending = s.pending

/-- The logbook registers' values, counts and epochs, and the audit records, are kept. -/
abbrev LogKept (s t : State) : Prop :=
  (∀ r, (t.logReg r).value = (s.logReg r).value ∧ (t.logReg r).count = (s.logReg r).count ∧ (t.logReg r).epoch = (s.logReg r).epoch) ∧
  t.log.records = s.log.records ∧ t.log.seq = s.log.seq

/-- R452, R453, R501: a POR_N pulse of 10 µs, a PERST_N pulse of 100 µs and BOOT.CTRL's two bits reset the device; POR_N alone
clears the logbook registers and the audit region; each pin samples the strap; LANDFALL forces Landfall mode; a pulse
below 1 µs does nothing; a reset clears the boot's state, whatever phase it was in. -/
def Obligations.ResetsKeepWhatTheyKeep : Prop :=
  ∀ (s : State) (w smb : Nat) (strap : Bool),
    (10000 ≤ w → Completes (.porNAssert w strap smb) s fun t => Restarted s t ∧ t.log.regs = [] ∧ t.log.records = [] ∧
      t.pins.strap = strap ∧ t.pins.smbAddr = smb % 4 ∧ t.pins.gated = false) ∧
    (100000 ≤ w → Completes (.perstNAssert w strap) s fun t => Restarted s t ∧ LogKept s t ∧
      t.pins = { s.pins with permit := 0, strap := strap }) ∧
    ((s.boot.ready = true ∨ s.boot.landfall = true) ∧ s.host.d3hot = false →
      (Completes .deviceReset s fun t => Restarted s t ∧ LogKept s t ∧ t.pins = { s.pins with permit := 0 } ∧
        t.boot.forceReason = s.boot.forceReason) ∧
      Completes .landfallReset s fun t => Restarted s t ∧ LogKept s t ∧ t.pins = { s.pins with permit := 0 } ∧
        t.boot.forceReason = 9) ∧
    (w < 1000 → exec (.porNAssert w strap smb) s = .next s ∧ exec (.perstNAssert w strap) s = .next s)

/-- The device is in Landfall mode for a reason (R464). -/
abbrev InLandfall (t : State) (reason : Nat) : Prop := t.boot.landfall = true ∧ t.boot.ready = false ∧ t.boot.reason = reason

/-- R456-R458, R464: a boot that finds the LANDFALL strap, a forced Landfall mode, no valid slot, no chart, no host link or an
unreadable NVS ends in Landfall mode with that reason; otherwise it ends READY with the chart of its NVS or flash running;
a boot runs once after each reset. -/
def Obligations.BootEndsReadyOrInLandfallMode : Prop :=
  ∀ (s : State) (env : BootEnv), s.boot.ready = false →
    (s.boot.booted = true → exec (.boot env) s = .next s) ∧
    (s.boot.booted = false → s.lc.state ≠ .scrapped → lifeDecode s.lc.copyA s.lc.copyB s.lc.copyC = (s.lc.state, true) →
      s.lc.allAgree = true → s.lc.intent = none →
      (env.nvsOk = false → Completes (.boot env) s fun t => InLandfall t 8) ∧
      (env.nvsOk = true → s.pins.strap = true → Completes (.boot env) s fun t => InLandfall t 1) ∧
      (env.nvsOk = true → s.pins.strap = false → s.boot.forceReason = 9 → Completes (.boot env) s fun t => InLandfall t 9) ∧
      (env.nvsOk = true → s.pins.strap = false → s.boot.forceReason ≠ 9 → s.flash.try_ ≠ 1 →
        (s.slotValid s.flash.active = false → s.slotValid (1 - s.flash.active) = false →
          Completes (.boot env) s fun t => InLandfall t 3) ∧
        (s.slotValid s.flash.active = true → laterStagesOk (s.flash.slot s.flash.active) = true →
          (env.pmemGib0 < 16 → Completes (.boot env) s fun t => InLandfall t 5) ∧
          (16 ≤ env.pmemGib0 → s.boot.confirmRec = none → env.tests = ⟨true, true, [], [], []⟩ → 4 ≤ s.firmwareCores.length →
            (s.bootChart = none → Completes (.boot env) s fun t => InLandfall t 4) ∧
            (∀ src img, s.bootChart = some (src, img) →
              (env.hostLink = none → s.cluster.tetherOn = false → Completes (.boot env) s fun t => InLandfall t 2) ∧
              (∀ h, env.hostLink = some h → s.levelCauses = [] → Completes (.boot env) s fun t =>
                t.boot.ready = true ∧ t.boot.landfall = false ∧ t.boot.reason = 0 ∧ t.boot.phase = 5 ∧ t.keys.ready = true ∧
                t.chart.running = some (decodeChart img) ∧ t.chart.image = img ∧ t.faults.safe.on = s.faults.safe.on ∧
                t.host.gen = h.1 ∧ t.host.width = h.2.1 ∧ t.pins = s.pins))))))

/-- A level cause: the device is in the safe state, the permit lines have fallen if it entered it now, and the cause stands
on its source. -/
abbrev CauseHolds (s t : State) (src : Nat) : Prop :=
  t.faults.safe.on = true ∧ (t.src src).present = true ∧
  (s.faults.safe.on = false → t.pins.permit = 0 ∧ t.faults.safe.first = src)

/-- Only time, the pins and the collector have changed. -/
abbrev OnlyPins (s t : State) (now : Nat) : Prop :=
  t = { s with time := s.time.to now, pins := t.pins, faults := t.faults }

/-- R425, R498, R507, R509: a rail outside its tolerance for more than 2 µs, a lost clock and a critical temperature are level
causes of class B on their sources; each ends, and the device stays in the safe state, once its own condition has been
good for 1 ms, 10 ms, or below the grade maximum; above 125 °C the clocks are gated as well. -/
def Obligations.SupplyClockAndTemperatureAreLevelCauses : Prop :=
  ∀ (s : State) (now ns : Nat),
    (∀ r, railOk r = true → s.hasRail r = true →
      (2000 < ns → s.pins.rails.contains (railCode r) = false → Completes (.supply r ns now) s fun t =>
        CauseHolds s t (railSrc (railCode r)) ∧ t.pins.rails = s.pins.rails ++ [railCode r]) ∧
      (ns ≤ 2000 → exec (.supply r ns now) s = .next (s.at_ now)) ∧
      (1000000 ≤ ns → s.pins.rails = [railCode r] → Completes (.supplyRecovery r ns now) s fun t =>
        OnlyPins s t now ∧ t.pins = { s.pins with rails := [] } ∧ (t.src (railSrc (railCode r))).present = false ∧
        t.faults.safe = s.faults.safe) ∧
      (ns < 1000000 → exec (.supplyRecovery r ns now) s = .next (s.at_ now))) ∧
    (∀ c, s.hasClock c = true →
      (s.pins.clocks.contains (clockCode c) = false → Completes (.clockLoss c now) s fun t =>
        CauseHolds s t (clockSrc (clockCode c)) ∧ t.pins.clocks = s.pins.clocks ++ [clockCode c] ∧
        t.pins.alwaysOnOsc = (s.pins.alwaysOnOsc || c == .sysclk)) ∧
      (10000000 ≤ ns → s.pins.clocks = [clockCode c] → Completes (.clockRecovery c ns now) s fun t =>
        OnlyPins s t now ∧ t.pins = { s.pins with clocks := [] } ∧ (t.src (clockSrc (clockCode c))).present = false ∧
        t.faults.safe = s.faults.safe)) ∧
    (∀ c, (s.gradeMax + 10 < c ∧ 1000000 ≤ ns) ∨ (125 < c ∧ 10000 ≤ ns) → Completes (.temperatureLimit c ns now) s fun t =>
      CauseHolds s t 330 ∧ t.pins.tempCrit = true ∧ t.pins.gated = (s.pins.gated || decide (125 < c ∧ 10000 ≤ ns))) ∧
    (∀ c, c < s.gradeMax → Completes (.temperatureRecovery c now) s fun t =>
      OnlyPins s t now ∧ t.pins = { s.pins with tempCrit := false } ∧ (t.src 330).present = false ∧ t.faults.safe = s.faults.safe) ∧
    Completes (.entropyHealthRecovery now) s fun t =>
      OnlyPins s t now ∧ t.pins = { s.pins with entropyBad := false } ∧ (t.src 291).present = false ∧ t.faults.safe = s.faults.safe

/-- R427, R428: a sample that disagrees with the filtered level and four more like it change the level: low enters the safe
state and starts the HELD records of every 60 s, high ends the cause and nothing else; one to four such samples followed
by one that agrees change nothing but add two CHATTER_EDGE records on source 385. R429, R505: 51 samples of PERMIT_FB[n] that disagree with PERMIT[n] are a class B level cause on source 392 + n; 50 are
not; agreement ends the cause, in the safe state too. -/
def Obligations.SafeRequestAndPermitReadbackPins : Prop :=
  (∀ (s : State) (now : Nat), s.pins.run = [] →
    (s.pins.filtered = true → Completes (.safeReqNEdge (List.replicate 5 false) now) s fun t =>
      CauseHolds s t 384 ∧ t.pins.filtered = false ∧ t.pins.run = [] ∧
      t.pins.heldNext = some ((s.time.to now).elapsed + 60000000000)) ∧
    (s.pins.filtered = false → Completes (.safeReqNRelease (List.replicate 5 true) now) s fun t =>
      OnlyPins s t now ∧ t.pins = { s.pins with filtered := true, raw := true, heldNext := none } ∧
      (t.src 384).present = false ∧ t.faults.safe = s.faults.safe) ∧
    (∀ k, 1 ≤ k → k ≤ 4 → Completes (.chatterEdge (List.replicate k (!s.pins.filtered) ++ [s.pins.filtered]) now) s fun t =>
      t.pins.filtered = s.pins.filtered ∧ t.pins.run = [] ∧ (t.src 384).present = (s.src 384).present ∧
      (t.src 385).total = satAdd 32 (satAdd 32 (s.src 385).total 1) 1) ∧
    (∀ d, s.pins.filtered = false → s.pins.heldNext = some d → d ≤ (s.time.to now).elapsed → Completes (.held now) s fun t =>
      OnlyPins s t now ∧ t.pins = { s.pins with heldNext := some (d + 60000000000) } ∧ (t.src 384).lastSub = 0x2E ∧
      (t.src 384).total = satAdd 32 (s.src 384).total 1 ∧ t.faults.safe = s.faults.safe)) ∧
  (∀ (s : State) (n now samples : Nat), n < 8 →
    let drive := s.pins.permit.getLsbD n
    ((s.src (392 + n)).present = false → 51 ≤ samples → Completes (.permitMismatch n (!drive) samples now) s fun t =>
      CauseHolds s t (392 + n) ∧ t.pins.permitFb.getLsbD n = !drive ∧ t.pins.mismatch.getLsbD n = true) ∧
    (samples < 51 → Completes (.permitMismatch n (!drive) samples now) s fun t => OnlyPins s t now ∧ t.faults = s.faults) ∧
    (Completes (.permitReadbackAgree n drive now) s fun t => OnlyPins s t now ∧
      t.pins.permit = s.pins.permit ∧ t.pins.permitFb.getLsbD n = drive ∧ t.pins.mismatch.getLsbD n = false ∧
      (t.src (392 + n)).present = false ∧ t.faults.safe = s.faults.safe))

/-! ### The collector, reactions and the safe state (18_faults_safety.md; 11_functions_and_sharing.md R273, R274) -/

/-- The collector has not recorded source `n` in this cycle, and no consequential window covers a record of sub-cause `sub`
of the source. -/
abbrev Clear (s : State) (now n sub : Nat) : Prop :=
  (s.src n).cycle ≠ some (collectorCycle (s.time.to now).elapsed) ∧ (s.at_ now).windowOf n sub 0 = none

/-- R417: a counted record in an open window advances COUNT and TOTAL and nothing else while COUNT stays below N; in a new
window COUNT restarts at 1; at N the count is cleared and a class A source without a fence starts the reaction of the next
ID, which fences its tile with FENCE_REASON 3. A forced event is counted as injected, a release frees a field port, ATTN that
is no longer present clears, and a fenced core whose tests pass returns (R415, R420, R430, R431). -/
def Obligations.CountedEventsReactAtTheirThreshold : Prop :=
  (∀ (s : State) (n now : Nat), n < tilesOf s.variant → Clear s now n 1 →
    let S := s.src n
    let us := (s.time.to now).elapsed / 1000
    let opened := S.count ≠ 0 ∧ us - S.start < S.w * 1000
    (opened → S.count + 1 < S.n → Completes (.faultEvent n 1 0 none now) s fun t =>
      t = { s with time := s.time.to now, faults := t.faults } ∧ (t.src n).count = S.count + 1 ∧ (t.src n).start = S.start ∧
      (t.src n).total = satAdd 32 S.total 1 ∧ t.faults.nextId = s.faults.nextId ∧ t.faults.safe = s.faults.safe ∧
      ∀ m, m ≠ n → t.src m = s.src m) ∧
    (¬ opened → 1 < S.n → Completes (.faultEvent n 1 0 none now) s fun t =>
      t = { s with time := s.time.to now, faults := t.faults } ∧ (t.src n).count = 1 ∧ (t.src n).start = us ∧
      (t.src n).total = satAdd 32 S.total 1 ∧ t.faults.nextId = s.faults.nextId) ∧
    (opened → S.n ≤ S.count + 1 → S.action = 1 → S.fenced = false → (s.tile n).mode ≠ .fenced →
      Completes (.faultEvent n 1 0 none now) s fun t =>
        (t.src n).count = 0 ∧ (t.src n).fenced = true ∧ (t.src n).attn = true ∧ t.faults.nextId = s.faults.nextId + 1 ∧
        (t.tile n).mode = .fenced ∧ (t.tile n).fence = 3 ∧ t.faults.safe.on = s.faults.safe.on ∧
        ∃ r, t.react? s.faults.nextId = some r ∧ r.source = n ∧ r.cls = 1 ∧ r.state = 1)) ∧
  ∀ (s : State) (n now : Nat), n < 512 → s.hasSource n = true → s.barOn 0 = true →
    (Completes (.attnClear n) s fun t => (t.src n).attn = ((s.src n).attn && (s.src n).present)) ∧
    (∀ p, n = 224 + 8 * p → p < 4 → (s.src n).fenced = true → (s.src (n + 1)).fenced = false → (s.src (n + 2)).fenced = false →
      Completes (.fltRelease (BitVec.ofNat 32 n)) s fun t => (t.src n).fenced = false ∧ (t.port p).stopped = false) ∧
    (∀ sub, (dispOf s n sub none).isSome → 0 < sub → sub < 256 → s.injectOk n false = true →
      (s.src n).cycle ≠ some (collectorCycle s.time.elapsed + 1) → Completes (.fltForce n (BitVec.ofNat 32 (1 + 256 * sub))) s fun t =>
        (t.src n).total = satAdd 32 (s.src n).total 1 ∧ (t.src n).dry = true ∧ (t.src n).inj = true) ∧
    ∀ c, c < 8 → n = 128 + c → (s.src n).fenced = true → s.pins.gated = false → s.faults.safe.on = false →
      Completes (.helmCoreRecovery c true now) s fun t => (t.core c).stopped = false ∧ (t.src n).fenced = false

/-- R415, R416, R419, R421: an immediate class A cause fences its tile at once, with the next reaction ID; a further one on a
fenced unit starts nothing; the acknowledgement makes the reaction fenced; without one after 10 µs it becomes class B
and the device enters the safe state, keeping the ID; 50 µs after the unit left its fence the window closes. -/
def Obligations.ClassAReactionFencesAndEscalates : Prop :=
  ∀ (s : State) (n now : Nat), n < tilesOf s.variant →
    (Clear s now n 0x14 →
      ((s.src n).fenced = false → (s.tile n).mode ≠ .fenced → Completes (.faultEvent n 0x14 0 none now) s fun t =>
        (t.src n).fenced = true ∧ (t.src n).attn = true ∧ (t.src n).rid = s.faults.nextId ∧
        (t.tile n).mode = .fenced ∧ (t.tile n).fence = 1 ∧ (t.tile n).slots = [] ∧
        ∃ r, t.react? s.faults.nextId = some r ∧ r.source = n ∧ r.cls = 1 ∧ r.state = 1) ∧
      ((s.src n).fenced = true → Completes (.faultEvent n 0x14 0 none now) s fun t =>
        t = { s with time := s.time.to now, faults := t.faults } ∧ t.faults.nextId = s.faults.nextId ∧
        t.faults.reacts = s.faults.reacts ∧ (t.src n).total = satAdd 32 (s.src n).total 1)) ∧
    (∀ id r, s.waiting n = some id → s.react? id = some r →
      (Completes (.fenceAck n now) s fun t => t = { s with time := s.time.to now, faults := t.faults } ∧
        t.react? id = some { r with state := 2, ack := some ((s.time.to now).elapsed - r.began) }) ∧
      (r.began + 10000 ≤ (s.time.to now).elapsed → Completes (.fenceAckTimeout n now) s fun t =>
        t.faults.safe.on = true ∧ t.react? id = some { r with state := 4, cls := 2 } ∧
        t.faults.nextId = s.faults.nextId ∧ (t.src n).lastSub = 0x04 ∧ (t.src n).rid = id ∧
        (s.faults.safe.on = false → t.pins.permit = 0 ∧ t.faults.safe.reaction = id)) ∧
      ((s.time.to now).elapsed < r.began + 10000 → exec (.fenceAckTimeout n now) s = .next (s.at_ now))) ∧
    (∀ id r b, s.react? id = some r → r.back = some b → r.endAt = 0 → b + 50000 ≤ (s.time.to now).elapsed →
      Completes (.conseqWindowClose id now) s fun t => t = { s with time := s.time.to now, faults := t.faults } ∧
        t.react? id = some { r with endAt := (s.at_ now).binTime } ∧ t.faults.sources = s.faults.sources)

/-- R422, R423, R430: setting SAFE.CTRL.ENTER outside the safe state enters it: PERMIT falls, every release gate of the
variant and the Helm gate close, every present tile is fenced, every firmware core and every field port's egress stop,
a fresh challenge is drawn, and a job that is neither administrative nor in a no-return zone nor past its END completes
SAFE_STATE; no key is lost. -/
def Obligations.SafeStateEntryStopsTheDevice : Prop :=
  ∀ s : State, s.barOn 0 = true → s.faults.safe.on = false → Completes .safeCtrlEnter s fun t =>
    t.faults.safe.on = true ∧ t.faults.safe.first = 386 ∧ t.pins.permit = 0 ∧ t.auth.permits = [] ∧
    t.faults.safe.challenge = drbgBytes s.draws 32 ∧ t.faults.safe.entry = s.binTime ∧
    (∀ g, g < quadsOf s.variant ∨ g = 4 → (tget t.faults.safe.gates g).isSome) ∧
    (∀ n, (t.tile n).mode = .fenced ∨ (t.tile n).mode = .absent) ∧
    (∀ c < 6, (t.core c).stopped = true) ∧ (∀ p < portsOf s.variant, (t.port p).safeStop = true) ∧
    (∀ j J, s.job? j = some J → J.admin = false → J.phase ≠ .ended → J.phase ≠ .delayed → (J.isRunning && J.zone) = false →
      J.atEnd = false → J.released = 0 → ∃ K, t.job? j = some K ∧ K.phase = .ended ∧ K.status = St.safeState) ∧
    t.time = s.time ∧ (∀ i, (t.key? i).map (fun K => { K with hbs := none }) = (s.key? i).map (fun K => { K with hbs := none })) ∧ t.chart.running = s.chart.running ∧ t.pending = s.pending

/-- Job `j` is an administrative command whose turn it is: staged, the first of its queue 0, not held by FENCE_BEFORE
(11_functions_and_sharing.md R257). -/
abbrev AdminTurn (s : State) (j : Nat) (J : Job) (op : Nat) : Prop :=
  s.job? j = some J ∧ J.opcode = op ∧ J.phase = .staged ∧ s.adminBefore J = false ∧ s.fenceWaits J = false ∧ J.released = 0 ∧
  J.steps = []

/-- Job `j` has ended with a status, a RESULT and nothing released. -/
abbrev Answered (t : State) (j status result : Nat) : Prop :=
  ∃ K, t.job? j = some K ∧ K.phase = .ended ∧ K.status = status ∧ K.result = result ∧ K.out = none

/-- R273, R274, R425, R426: SAFE_EXIT with PARAM 1 returns the challenge; a token that passes the checks ends the safe state:
tiles and gates that it closed come back (one that an interrupted chart operation had reconfigured with a sound reload), firmware cores and port egress resume, PERMIT stays as it is and counts are
not cleared; the first failed check is the reason of POLICY_DENY, and the safe state and its challenge stay. -/
def Obligations.SafeExitNeedsAValidToken : Prop :=
  ∀ (s : State) (j : Nat) (J : Job), AdminTurn s j J 0x0020 → s.faults.safe.on = true →
    (J.param = 1 → s.memOf J = none → s.writeFault J.dst s.faults.safe.challenge.length = none →
      Completes (.safeExit j []) s fun t => Answered t j St.ok 0 ∧ t.faults = s.faults ∧
        t.hostMem = memWriteN s.hostMem J.dst s.faults.safe.challenge) ∧
    (∀ r, J.param = 0 → s.exitRefused J.input = some r → Completes (.safeExit j []) s fun t =>
      Answered t j St.policyDeny r ∧ t.faults = s.faults ∧ t.pins = s.pins) ∧
    (J.param = 0 → s.exitRefused J.input = none → s.pins.gated = false → Completes (.safeExit j []) s fun t =>
      Answered t j St.ok 0 ∧ t.faults.safe.on = false ∧ t.faults.safe.challenge = [] ∧ t.pins = s.pins ∧
      (∀ g, tget t.faults.safe.gates g ≠ some true) ∧
      (∀ n, (s.tile n).mode = .fenced → (s.tile n).bySafe = true →
        ((s.tile n).reload = true → ∀ c r, s.chart.running = some c → (s.tile n).asg = some r →
          (s.mcodeOf c r).all McodeEntry.sound = true) → (t.tile n).mode = (s.tile n).home ∧ (t.tile n).fence = 0) ∧
      (∀ n, (s.tile n).mode = .fenced → (s.tile n).bySafe = false → (t.tile n).mode = .fenced ∧ (t.tile n).fence = (s.tile n).fence) ∧
      (∀ c, (t.core c).stopped = ((s.core c).stopped && !(s.core c).bySafe)) ∧ (∀ p, (t.port p).safeStop = false) ∧
      ∀ n, (t.src n).count = (s.src n).count ∧ (t.src n).attn = (s.src n).attn)

/-- R418: after a device reset every source has its default N, W and ACTION; in PROVISION, OWNED and DEPLOYED without the
FAULT_CONFIG scope a write of FLT.CFG that does not make the source stricter is discarded; elsewhere every value in range
is accepted; no write changes a disposition. -/
def Obligations.SourceConfigurationOnlyGetsStricter : Prop :=
  (∀ (s : State), (s.boot.ready = true ∨ s.boot.landfall = true) → s.host.d3hot = false →
    ∀ cmd ∈ [Instr.deviceReset, .landfallReset], Completes cmd s fun t => ∀ n, srcListed n = true →
      (t.src n).n = (if n = 138 then 4 else if (224 ≤ n ∧ n ≤ 287) ∨ n = 385 then 64 else 16) ∧
      (t.src n).w = (if n = 385 then 1 else 1000) ∧
      (t.src n).action = (if n = 138 then 2 else if hasA n then 1 else 2)) ∧
  (∀ (s : State) (w smb : Nat) (strap : Bool),
    (10000 ≤ w → Completes (.porNAssert w strap smb) s fun t => ∀ n, t.src n = srcDefault n) ∧
    (100000 ≤ w → Completes (.perstNAssert w strap) s fun t => ∀ n, t.src n = srcDefault n)) ∧
  ∀ (s : State) (src N W A : Nat) (v : BitVec 32), src < 512 → s.hasSource src = true → s.barOn 0 = true →
    1 ≤ N → N ≤ 255 → 1 ≤ W → W ≤ 65535 → A ≤ 2 → v = BitVec.ofNat 32 (N + 2 ^ 8 * W + 2 ^ 24 * A) →
    let S := s.src src
    let stricter := S.action ≤ A ∧ N ≤ S.n ∧ S.w ≤ W
    let anyState := s.lc.state = .raw ∨ s.lc.state = .test ∨ s.lc.state = .returned ∨ s.lc.grant.getLsbD 4 = true
    (anyState ∨ stricter → exec (.fltCfgWrite src v) s = .next (s.modSrc src fun S => { S with n := N, w := W, action := A })) ∧
    (¬ anyState → ¬ stricter →
      exec (.fltCfgWrite src v) s = .next { s with faults := { s.faults with cfgDen := true } }) ∧
    (∀ t, exec (.fltCfgWrite src v) s = .next t → ∀ m sub job, dispOf t m sub job = dispOf s m sub job)

/-- R415, R420, R430-R432: ATTN clears except while the cause is present; FLT.RELEASE ends the fence of a field port, and
discards a source that is not fenced; a dry injection advances TOTAL and COUNT stays; an injection that the life cycle
refuses only sets FORCE_DENIED; a Helm core that passes its self-test returns to service and its locks are freed. R17, R458,
R464: before READY a write of the manager to the blocks that only answer in operation is discarded. The manager's writes of
the logbook take effect once the device is READY: an owner, the export ring's head and the region's next size, and a record
is exported (R357, R360, R361). -/
def Obligations.SourceControlsAndWritesBeforeReady : Prop :=
  (∀ (s : State) (src now : Nat), src < 512 → s.hasSource src = true → s.barOn 0 = true →
    exec (.attnClear src) s = .next (s.modSrc src fun S => { S with attn := S.attn && S.present }) ∧
    ((s.src src).fenced = false → exec (.fltRelease (BitVec.ofNat 32 src)) s = .next s) ∧
    (∀ p, src = 224 + 8 * p → p < 4 → (s.src src).fenced = true → (s.src (src + 1)).fenced = false →
      (s.src (src + 2)).fenced = false → Completes (.fltRelease (BitVec.ofNat 32 src)) s fun t =>
        (t.src src).fenced = false ∧ (t.port p).stopped = false ∧ t.faults.safe = s.faults.safe ∧
        t = { s with faults := t.faults, partners := t.partners }) ∧
    (∀ sub, (dispOf s src sub none).isSome → 0 < sub → sub < 256 →
      (s.injectOk src false = true → (s.src src).cycle ≠ some (collectorCycle s.time.elapsed + 1) →
        Completes (.fltForce src (BitVec.ofNat 32 (1 + 256 * sub))) s fun t =>
          (t.src src).total = satAdd 32 (s.src src).total 1 ∧ (t.src src).count = (s.src src).count ∧ (t.src src).dry = true ∧
          (t.src src).inj = true ∧ (t.src src).real = false ∧ (t.src src).lastSub = sub ∧
          t = { s with faults := t.faults, regs := t.regs } ∧ t.faults.nextId = s.faults.nextId ∧ t.faults.safe = s.faults.safe) ∧
      (∀ wet, s.injectOk src wet = false →
        exec (.fltForce src (BitVec.ofNat 32 (1 + 2 * wet.toNat + 256 * sub))) s =
          .next { s with faults := { s.faults with forceDen := true } })) ∧
    (∀ c, c < 8 → src = 128 + c → (s.src src).fenced = true → s.pins.gated = false → s.faults.safe.on = false →
      Completes (.helmCoreRecovery c true now) s fun t =>
        (t.core c).stopped = false ∧ (t.src src).fenced = false ∧ (∀ k, tget t.service.locks k ≠ some c) ∧
        t = { s with time := s.time.to now, faults := t.faults, service := t.service })) ∧
  (∀ (s : State) (src p : Nat) (v : BitVec 32) (v64 : BitVec 64), s.boot.ready = false → src < 512 → p < portsOf s.variant →
    exec (.fltRelease v) s = .next s ∧ exec (.fltForce src v) s = .next s ∧ exec (.fltCfgWrite src v) s = .next s ∧
    exec (.attnClear src) s = .next s ∧ exec .safeCtrlEnter s = .next s ∧ exec (.almAdjOffset v64) s = .next s ∧
    exec (.almAdjFreq v) s = .next s ∧ exec (.almSet v64) s = .next s ∧ exec (.almStepBound v) s = .next s ∧
    exec (.almSource v) s = .next s ∧ exec .signedOnly s = .next s ∧ exec (.logRoll v) s = .next s ∧
    exec (.overflowCfgWrite v) s = .next s ∧ exec (.handover v) s = .next s) ∧
  ∀ s : State, s.barOn 0 = true →
    (∀ r, 16 ≤ r → r < 64 → ∀ v : BitVec 32, (s.logReg r).barrier = [] → (s.logReg r).reserved = [] → Completes (.logOwner r v) s fun t =>
      (t.logReg r).owner = v.toNat % 512) ∧
    (∀ v : BitVec 32, (v - s.log.head).toNat ≤ (s.log.tail - s.log.head).toNat → Completes (.auditExportHead v) s fun t =>
      t.log.head = v ∧ t.log.tail = s.log.tail ∧ t.log.records = s.log.records) ∧
    (∀ v : BitVec 32, 256 ≤ v.toNat % 65536 → Completes (.auditRegionMib v) s fun t =>
      t.log.nextMib = some (v.toNat % 65536) ∧ t.log.regionMib = s.log.regionMib) ∧
    ∀ now a, s.log.records = [a] → s.log.exportOn = true → s.log.ringRoom = true →
      let slot := s.log.base + 256 * (s.log.tail.toNat % 2 ^ s.log.log2)
      s.writeFault slot 256 = none → Completes (.auditExport now) s fun t => t.hostMem = memWriteN s.hostMem slot a ∧ t.log.records = []

/-! ### Charts, the tick and the administrative commands (03_chart.md; 11_functions_and_sharing.md; 12_deadlines.md R279) -/

/-- The power limit that a commit leaves: one that waited for it, else the chart's, else the one in force (R68). -/
abbrev limitAfter (s : State) (o : ChartOp) : Nat :=
  o.power.getD (if o.chart.powerW = 0 then s.chart.powerNext.getD s.chart.powerW else o.chart.powerW)

/-- R63, R70, R71, R74, R275: an accepted LOAD_CHART drains every present tile, an accepted RETILE only those whose record
differs, and the running chart stays; a refused image answers its reason and changes no other chart state; once drained,
tiles reconfigure; a tile that fails stays fenced with reason 4 and is counted; a SET_POWER_LIMIT of 90 to 195 W waits for
the tick or the commit; QUERY_CHART writes the running image. -/
def Obligations.ChartCommandsDrainAndReconfigure : Prop :=
  (∀ (s : State) (j : Nat) (J : Job) (retile : Bool), AdminTurn s j J (if retile then 0x0011 else 0x0010) →
    s.faults.safe.on = false → J.param = 0 →
    let cmd : Instr := if retile then .retile j else .loadChart j
    (∀ r, s.chartRefused J.input retile = some r → Completes cmd s fun t =>
      Answered t j (if r = 1 then St.malformed else St.policyDeny) r ∧ t.chart = { s.chart with lastReason := r }) ∧
    (s.chartRefused J.input retile = none → Completes cmd s fun t =>
      (∃ o, t.chart = { s.chart with op := some o } ∧ o.job = j ∧ o.retile = retile ∧ o.image = J.input ∧
        o.chart = decodeChart J.input ∧ o.phase = 2 ∧ o.doneList = [] ∧ o.failed = [] ∧
        ∀ n, n ∈ o.tiles ↔ n < tilesOf s.variant ∧
          (retile = false ∨ (decodeChart J.input).tiles[n]? ≠ s.chart.running.bind fun c => c.tiles[n]?)) ∧
      (∀ n, t.tile n = if retile then s.tile n else if n < tilesOf s.variant then (s.tile n).drain else s.tile n))) ∧
  (∀ (s : State) (o : ChartOp) (now : Nat), s.chart.op = some o →
    (o.phase = 2 → s.drained o = true → Completes (.chartDrainComplete now) s fun t =>
      (∃ p, t.chart = { s.chart with op := some { o with phase := p } } ∧ (p = 3 ∨ p = 4)) ∧
      ∀ n ∈ o.tiles, (s.tile n).reconfigurable = true → (t.tile n).change = 2 ∧
        ((s.tile n).stuck = false → (t.tile n).mode = .reconfiguring)) ∧
    (o.phase = 2 → s.drained o = false → exec (.chartDrainComplete now) s = .next (s.at_ now)) ∧
    (∀ n ok, o.phase = 3 → n < 96 → o.tiles.contains n = true → o.doneList.contains n = false → (s.tile n).change = 2 →
      (s.tile n).mode = .reconfiguring → Completes (.tileReconfigComplete n true ok now) s fun t =>
        (∃ p, t.chart.op = some { o with phase := p, doneList := o.doneList ++ [n], failed := if ok then o.failed else o.failed ++ [n] } ∧
          (p = 3 ∨ p = 4)) ∧
        t.chart.running = s.chart.running ∧ (ok = false → (t.tile n).mode = .fenced ∧ (t.tile n).fence = 4))) ∧
  (∀ (s : State) (n now : Nat), n < 96 → s.reloads n = true → s.opHolds n = false → s.faults.safe.on = false →
    (Completes (.tileReloadComplete n true true now) s fun t => (t.tile n).mode = .selfTest ∧ (t.tile n).returning = true ∧
      t = { s with time := s.time.to now, tiles := t.tiles }) ∧
    ((s.tile n).change ≠ 2 → Completes (.tileReloadComplete n true false now) s fun t =>
      (t.tile n).mode = .fenced ∧ (t.tile n).fence = 2)) ∧
  (∀ (s : State) (j : Nat) (J : Job), AdminTurn s j J 0x0022 → s.faults.safe.on = false →
    (90 ≤ J.param.toNat → J.param.toNat ≤ 195 → s.chart.op = none → Completes (.setPowerLimit j) s fun t =>
      t.chart = { s.chart with powerNext := some J.param.toNat, powerJobs := s.chart.powerJobs ++ [j] } ∧
      t.job? j = some { J with phase := .background }) ∧
    (J.param.toNat < 90 ∨ 195 < J.param.toNat → Completes (.setPowerLimit j) s fun t => Answered t j St.malformed 0 ∧ t.chart = s.chart)) ∧
  ∀ (s : State) (j : Nat) (J : Job), AdminTurn s j J 0x0012 → J.param = 0 → s.memOf J = none →
    s.writeFault J.dst s.chart.image.length = none → Completes (.queryChart j) s fun t =>
      Answered t j St.ok s.chart.image.length ∧ t.hostMem = memWriteN s.hostMem J.dst s.chart.image

/-- R67, R68, R71, R74, R211, R265, R279, R409, R471, R508: a tick stands 10 µs after the last; at it a chart whose tiles are
done commits, with its records, floor, NVS slot and power limit, and its command answers the tiles that failed; written
shares, partitions, budgets, perturbation enables and the handover are in force; a returning tile serves again. -/
def Obligations.TickCommitsWhatWaitsForIt : Prop :=
  ∀ s : State, Completes .tick s fun t =>
    t.time = { s.time.to s.time.nextTick with nextTick := s.time.nextTick + 10000, ticks := s.time.ticks + 1 } ∧
    (∀ o, s.chart.op = some o → o.phase = 4 →
      t.chart.op = none ∧ t.chart.running = some o.chart ∧ t.chart.image = o.image ∧
      t.chart.floor = max s.chart.floor o.chart.version ∧ t.chart.powerW = limitAfter s o ∧
      t.chart.slotA = (s.chart.store o.image).slotA ∧ t.chart.slotB = (s.chart.store o.image).slotB ∧
      ∀ K, s.job? o.job = some K → K.phase = .background → K.released = 0 → Answered t o.job St.ok (o.failed.length * 2 ^ 16)) ∧
    (∀ w, s.chart.op = none → s.chart.powerNext = some w → t.chart.powerW = w) ∧ t.chart.powerNext = none ∧
    (∀ f F c, tget s.fns f = some F → F.change = some c → (t.fn f).change = none ∧ (t.fn f).shares = sharesWith F.shares c.shares ∧
      (t.fn f).weight = (c.limits.map (·.1)).getD F.weight ∧ (t.fn f).maxQueues = (c.limits.map (·.2.1)).getD F.maxQueues ∧
      (t.fn f).safety = (c.limits.map (·.2.2)).getD F.safety) ∧
    (∀ f F b, tget s.fns f = some F → F.pertNext = some b → (t.fn f).pert = b ∧ (t.fn f).pertNext = none ∧
      (b = false → (t.fn f).ctrl = 0)) ∧
    t.keys.partNext = [] ∧ ((s.keys.partNext.map (·.1)).Nodup → ∀ e ∈ s.keys.partNext, tget t.keys.partition e.1 = some e.2) ∧
    t.host.budget = s.host.budgetNext.getD s.host.budget ∧ t.host.budgetNext = none ∧
    t.service.handover = s.service.next.getD s.service.handover ∧ t.service.next = none ∧
    (∀ n, (s.tile n).returning = true → (s.tile n).mode = .selfTest → s.chart.op = none →
      (t.tile n).returning = false ∧ (t.tile n).fence = 0 ∧ (t.tile n).mode ≠ .selfTest ∧ (t.tile n).mode ≠ .fenced) ∧
    t.pins = s.pins ∧ t.lc = s.lc ∧ t.faults.safe.on = s.faults.safe.on

/-- R258-R261: CREATE_QUEUE takes the lowest free global ID from 256 and, for a VF, the lowest free local number from 1,
builds the queue that its block describes and returns both numbers; past MAX_QUEUES it is QUEUE_LIMIT; a queue 0 cannot be
destroyed; a queue without jobs is destroyed at once; ENABLE_QUEUE resumes a fenced queue at its head or at NEW_HEAD. The
commands on a function complete: SET_SHARE waits for its tick, an idle function is quiesced, the two queries write their
blocks, and SET_PERTURBATION takes its setting (R263-R266, R275, R467, R471). -/
def Obligations.QueueCommandsCreateDestroyAndEnable : Prop :=
  (∀ (s : State) (j : Nat) (J : Job) (q n : Nat), AdminTurn s j J 0x0001 → s.faults.safe.on = false → J.param = 0 →
    createOk J.input J.fn = true → s.freeQueue = some q → (if J.fn = 0 then some q else s.freeLocal J.fn) = some n →
    let held := ((s.queuesOf J.fn).filter fun q => 256 ≤ q && q < 4096).length
    let Q := newQueue J.input J.fn q n
    256 ≤ q ∧ q < 4096 ∧ (s.queue q).mode = .absent ∧ (∀ p, 256 ≤ p → p < q → (s.queue p).mode ≠ .absent) ∧
    ((s.fn J.fn).maxQueues ≤ held → Completes (.createQueue j) s fun t => Answered t j St.queueLimit 0 ∧ t.queues = s.queues) ∧
    (held < (s.fn J.fn).maxQueues → (Q.safety = true → (s.fn J.fn).safety = true) → (Q.poll = true → s.host.cache = true) →
      Completes (.createQueue j) s fun t => Answered t j St.ok (q + n * 2 ^ 16) ∧ t.queue q = Q ∧ Q.mode = .enabled ∧
        Q.sqHead = 0 ∧ Q.sqTail = 0 ∧ Q.cqHead = 0 ∧ Q.cqTail = 0 ∧ ∀ p, p ≠ q → t.queue p = s.queue p) ∧
    (held < (s.fn J.fn).maxQueues → Q.safety = true → (s.fn J.fn).safety = false → Completes (.createQueue j) s fun t =>
      Answered t j St.policyDeny 0x0106 ∧ t.queues = s.queues)) ∧
  (∀ (s : State) (j : Nat) (J : Job), AdminTurn s j J 0x0002 → s.faults.safe.on = false → J.param.toNat < 4096 →
    (s.addressed J.fn J.param.toNat = none → Completes (.destroyQueue j) s fun t =>
      Answered t j St.policyDeny 0x0102 ∧ t.queues = s.queues) ∧
    (∀ q, s.addressed J.fn J.param.toNat = some q →
      (q < 256 → Completes (.destroyQueue j) s fun t => Answered t j St.policyDeny 0x0108 ∧ t.queues = s.queues) ∧
      (256 ≤ q → s.queueBusy q = true → Completes (.destroyQueue j) s fun t =>
        Answered t j St.policyDeny 0x0103 ∧ t.queues = s.queues) ∧
      (256 ≤ q → s.queueBusy q = false → s.jobsOfQueue q = [] → (∀ f z, (s.fn f).quiesce = some z → z.job ≠ some j) →
        Completes (.destroyQueue j) s fun t =>
        Answered t j St.ok 0 ∧ (t.queue q).mode = .absent))) ∧
  (∀ (s : State) (j q : Nat) (J : Job) (jump : Bool) (head : BitVec 32), AdminTurn s j J 0x0003 → s.faults.safe.on = false →
    q < 4096 → J.param.toNat = q + 2 ^ 16 * jump.toNat + 2 ^ 32 * (if jump then head.toNat else 0) →
    let Q := s.queue q
    (Q.mode = .enabled ∨ Q.mode = .halted → Completes (.enableQueue j) s fun t => Answered t j St.policyDeny 0x0108 ∧ t.queues = s.queues) ∧
    (Q.mode = .fenced ∨ Q.mode = .quiescing → s.queueBusy q = false →
      (jump = true → (Q.sqTail - Q.sqHead).toNat < (head - Q.sqHead).toNat → Completes (.enableQueue j) s fun t =>
        Answered t j St.malformed 0 ∧ t.queues = s.queues) ∧
      ((jump = true → (head - Q.sqHead).toNat ≤ (Q.sqTail - Q.sqHead).toNat) → s.jobsOfQueue q = [] →
        (∀ f z, (s.fn f).quiesce = some z → z.job ≠ some j) →
        Completes (.enableQueue j) s fun t => Answered t j St.ok 0 ∧ (t.queue q).mode = .enabled ∧
          (t.queue q).sqHead = (if jump then head else Q.sqHead) ∧ (t.queue q).sqTail = Q.sqTail))) ∧
  ∀ (s : State) (j f : Nat) (J : Job) (b : Bool), s.faults.safe.on = false → s.fnExists f = true → f < 0x100 →
    (AdminTurn s j J 0x0004 → J.param = 0 → shareOk J.input = true → leAt J.input 0 2 = f → (s.fn f).quiesce = none →
      (s.fn f).flrJobs = [] → s.shareOver f (shareEntries J.input) = false → Completes (.setShare j) s fun t =>
        t.job? j = some { J with phase := .background } ∧ ∃ c, (t.fn f).change = some c ∧ c.shares = shareEntries J.input ∧ j ∈ c.jobs) ∧
    (AdminTurn s j J 0x0005 → J.param.toNat = f + 2 ^ 16 * b.toNat → s.fnBusy f = false → s.quiesceLeft f = [] →
      Completes (.quiesceFunction j) s fun t => Answered t j St.ok 0 ∧ (t.fn f).quiesced = true) ∧
    (AdminTurn s j J 0x0006 → J.param.toNat = f → J.fn = 0 ∨ J.fn = f → s.memOf J = none → s.writeFault J.dst 96 = none →
      Completes (.queryFunction j) s fun t => Answered t j St.ok 0 ∧ t.hostMem = memWriteN s.hostMem J.dst (s.fnBlock f)) ∧
    (AdminTurn s j J 0x0021 → J.param.toNat < 0x40 → J.fn = 0 → s.memOf J = none → s.writeFault J.dst 32 = none →
      Completes (.queryProgress j) s fun t => Answered t j St.ok 0) ∧
    (AdminTurn s j J 0x0023 → J.param.toNat = f + 2 ^ 16 * b.toNat → Completes (.setPerturbation j) s fun t =>
      Answered t j St.ok 0 ∧ (t.fn f).pertNext = some b)

/-- R253, R263-R266, R272, R275, R467, R471: a SET_SHARE whose shares stay within 1,024 waits for the tick and one that does
not changes nothing; a quiesce of an idle function stops its queues and answers at once; QUERY_FUNCTION and QUERY_PROGRESS
write their blocks, of 96 and 32 bytes; SET_PERTURBATION waits for the tick; in the safe state every command but QUERY_FUNCTION, QUERY_CHART, SAFE_EXIT and
QUERY_PROGRESS completes SAFE_STATE, a chart with the reason SAFE. -/
def Obligations.FunctionCommandsShareQuiesceAndQuery : Prop :=
  (∀ (s : State) (j : Nat) (J : Job), AdminTurn s j J 0x0004 → s.faults.safe.on = false → J.param = 0 → shareOk J.input = true →
    let f := leAt J.input 0 2
    s.fnExists f = true → (s.fn f).quiesce = none → (s.fn f).flrJobs = [] →
    (s.shareOver f (shareEntries J.input) = true → Completes (.setShare j) s fun t =>
      Answered t j St.policyDeny 0x0105 ∧ t.fns = s.fns) ∧
    (s.shareOver f (shareEntries J.input) = false → Completes (.setShare j) s fun t =>
      t.job? j = some { J with phase := .background } ∧ (t.fn f).shares = (s.fn f).shares ∧
      (∃ c, (t.fn f).change = some c ∧ c.shares = shareEntries J.input ∧ j ∈ c.jobs) ∧ ∀ g, g ≠ f → t.fn g = s.fn g)) ∧
  (∀ (s : State) (j f : Nat) (J : Job) (abort : Bool), AdminTurn s j J 0x0005 → s.faults.safe.on = false → f < 0x100 →
    J.param.toNat = f + 2 ^ 16 * abort.toNat →
    (s.fnExists f = false → Completes (.quiesceFunction j) s fun t => Answered t j St.policyDeny 0x0102 ∧ t.queues = s.queues) ∧
    (s.fnExists f = true → s.fnBusy f = true → Completes (.quiesceFunction j) s fun t =>
      Answered t j St.policyDeny 0x0103 ∧ t.queues = s.queues) ∧
    (s.fnExists f = true → s.fnBusy f = false → s.quiesceLeft f = [] → Completes (.quiesceFunction j) s fun t =>
      Answered t j St.ok 0 ∧ (t.fn f).quiesced = true ∧ (t.fn f).shares = (s.fn f).shares ∧
      (∀ q Q, tget s.queues q = some Q → Q.fn = f → Q.mode ≠ .absent → (f ≠ 0 ∨ q ≠ 0) → (t.queue q).mode = .quiescing))) ∧
  (∀ (s : State) (j f : Nat) (J : Job), AdminTurn s j J 0x0006 → f < 0x10000 → J.param.toNat = f → s.fnExists f = true →
    (J.fn = 0 ∨ J.fn = f) → s.memOf J = none → s.writeFault J.dst 96 = none → Completes (.queryFunction j) s fun t =>
      Answered t j St.ok 0 ∧ (s.fnBlock f).length = 96 ∧ t.hostMem = memWriteN s.hostMem J.dst (s.fnBlock f)) ∧
  (∀ (s : State) (j op : Nat) (J : Job), AdminTurn s j J 0x0021 → op < 0x40 → J.param.toNat = op → J.fn = 0 → s.memOf J = none →
    s.writeFault J.dst 32 = none → Completes (.queryProgress j) s fun t =>
      Answered t j St.ok 0 ∧ ∃ b : Bytes, b.length = 32 ∧ t.hostMem = memWriteN s.hostMem J.dst b ∧ leAt b 18 2 = op ∧
        leAt b 24 8 = s.helmTime % 2 ^ 64) ∧
  (∀ (s : State) (j f : Nat) (J : Job) (on : Bool), AdminTurn s j J 0x0023 → s.faults.safe.on = false → f < 0x100 →
    J.param.toNat = f + 2 ^ 16 * on.toNat → s.fnExists f = true → Completes (.setPerturbation j) s fun t =>
      Answered t j St.ok 0 ∧ t.fn f = { s.fn f with pertNext := some on } ∧ ∀ g, g ≠ f → t.fn g = s.fn g) ∧
  (∀ (s : State) (j : Nat) (J : Job) (retile : Bool), s.faults.safe.on = true →
    AdminTurn s j J (if retile then 0x0011 else 0x0010) → Completes (if retile then .retile j else .loadChart j) s fun t =>
      Answered t j St.safeState 0x000C ∧ t.chart = { s.chart with lastReason := 0x000C } ∧ t.tiles = s.tiles) ∧
  ∀ (s : State) (j op : Nat) (J : Job) (cmd : Instr), s.faults.safe.on = true → AdminTurn s j J op →
    (op, cmd) ∈ [(0x0001, Instr.createQueue j), (0x0002, .destroyQueue j), (0x0003, .enableQueue j), (0x0004, .setShare j),
      (0x0005, .quiesceFunction j), (0x0022, .setPowerLimit j), (0x0023, .setPerturbation j)] →
    Completes cmd s fun t => Answered t j St.safeState 0 ∧ t.queues = s.queues ∧ t.fns = s.fns

/-! ### Job rings (10_job_rings.md; 11_functions_and_sharing.md R254) -/

/-- Function `f` writes a doorbell of its queue `q`, which it addresses by `i`: its BAR0 answers, the queue is its own and
enabled, no perturbation holds doorbells, and none of the queue is held. -/
abbrev Rings (s : State) (f i q : Nat) : Prop :=
  f < 256 ∧ i < 4096 ∧ s.barOn f = true ∧ s.addressed f i = some q ∧ (s.queue q).fn = f ∧ (s.queue q).mode = .enabled ∧
  (s.fn f).pert = false ∧ (s.fn f).heldFor q = false

/-- R229: a new tail or completion head is lapping when it advances, or leaves occupied or remaining, more than the ring
holds; a lapping doorbell is malformed and not stored; one that repeats the stored value is valid, as is one that fills
the ring exactly; a tail that moves backward always laps. A queue with CACHE_POLL takes no tail from its doorbell. -/
def Obligations.LappingDoorbellsAreMalformed : Prop :=
  (∀ (s : State) (f i q : Nat) (v : BitVec 32) (mem : HostWrites), Rings s f i q →
    let Q := s.queue q
    let u : State := { s with hostMem := writeRuns s.hostMem mem }
    let tailLaps := (2 ^ Q.sqLog2 < (v - Q.sqTail).toNat) ∨ (2 ^ Q.sqLog2 < (v - Q.sqHead).toNat)
    let headLaps := (2 ^ Q.cqLog2 < (v - Q.cqHead).toNat) ∨ (2 ^ Q.cqLog2 < (Q.cqTail - v).toNat)
    (Q.poll = false → ¬ tailLaps →
      exec (.dbSqTail f i v mem) s = .next (u.modQueue q fun Q => { Q with sqTail := v, revise := none })) ∧
    (¬ headLaps → exec (.dbCqHead f i v) s = .next (s.modQueue q fun Q => { Q with cqHead := v })) ∧
    (Q.poll = false → tailLaps → exec (.dbSqTail f i v mem) s = .next { u.malformed q 6 with pending := s.pending } ∧
      (u.malformed q 6 |>.queue q).sqTail = Q.sqTail) ∧
    (headLaps → exec (.dbCqHead f i v) s = .next { s.malformed q 7 with pending := s.pending } ∧
      (s.malformed q 7 |>.queue q).cqHead = Q.cqHead) ∧
    (Q.poll = true → exec (.dbSqTail f i v mem) s = .next u) ∧
    (v = Q.sqTail → (Q.sqTail - Q.sqHead).toNat ≤ 2 ^ Q.sqLog2 → ¬ tailLaps) ∧
    (∀ k, 0 < k → k ≤ 2 ^ 31 → Q.sqLog2 ≤ 16 → v = Q.sqTail - BitVec.ofNat 32 k → tailLaps)) ∧
  lapping 0x000000F0 0xFFFFFFF8 0xFFFFFFF0 false 256 = false ∧ lapping 0x000000F1 0x000000F0 0xFFFFFFF0 false 256 = true

/-- R243, R244: a malformed doorbell or entry on a queue that is neither a queue 0 nor a SAFETY queue fences that queue with its
reason, its indices as they were; on the others it halts the device, every queue with it, in the safe state. R234, R235, R472: a REVISE holds consumption at the first entry of its range not yet consumed and reports those that were;
a change of the tail word is a tail write; DOORBELL_HOLD keeps a doorbell until it is due and then processes it, no doorbell
of its queue overtakes it (R232), and a read of the queue's STATE returns only after it. -/
def Obligations.MalformedQueuesFenceAndHeldDoorbells : Prop :=
  (∀ (s : State) (q reason : Nat), (s.queue q).mode = .enabled →
    let Q := s.queue q
    let t := s.malformed q reason
    (t.queue q).sqHead = Q.sqHead ∧ (t.queue q).sqTail = Q.sqTail ∧ (t.queue q).cqHead = Q.cqHead ∧
    (256 ≤ q → Q.safety = false → (t.queue q).mode = .fenced ∧ (t.queue q).reason = reason ∧
      t.faults = s.faults ∧ (∀ p, p ≠ q → (t.queue p).mode = (s.queue p).mode)) ∧
    (q < 256 ∨ Q.safety = true → t.faults.safe.on = true ∧ t.faults.safe.halt = true ∧
      ∀ p, (t.queue p).mode = .halted ∨ (t.queue p).mode = .absent)) ∧
  ((∀ (s : State) (f i q m : Nat) (first : BitVec 32), Rings s f i q → (s.queue q).revise = none → m < 65536 →
    let Q := s.queue q
    let n := min (m + 1) (2 ^ Q.sqLog2)
    ((first - Q.sqHead).toNat < 2 ^ 31 → Completes (.dbRevise f i first m) s fun t =>
      t.queue q = { Q with revise := some (first, n), tooLate := false, cache := Q.cache.filter fun c => n ≤ diff32 c.1 first } ∧ t = { s with queues := t.queues, regs := t.regs }) ∧
    (∀ k, k = (Q.sqHead - first).toNat → 0 < k → k < 2 ^ 31 → Completes (.dbRevise f i first m) s fun t =>
      t.queue q = { Q with revise := if k < n then some (Q.sqHead, n - k) else none, tooLate := true,
                           cache := Q.cache.filter fun c => n ≤ diff32 c.1 first } ∧
      t = { s with queues := t.queues, regs := t.regs } ∧ t.reg (fnErr f 7) = satAdd 32 (s.reg (fnErr f 7)) (min n k))) ∧
  (∀ (s : State) (q : Nat) (v : BitVec 32) (mem : HostWrites), q < 4096 → (s.queue q).mode = .enabled → (s.queue q).poll = true →
    (s.fn (s.queue q).fn).pert = false → (s.fn (s.queue q).fn).heldFor q = false → lapping v (s.queue q).sqTail (s.queue q).sqHead false (2 ^ (s.queue q).sqLog2) = false →
    Completes (.tailWordChange q v mem) s fun t => t.queue q = { s.queue q with sqTail := v, revise := none } ∧
      t.hostMem = memWriteN (writeRuns s.hostMem mem) (s.queue q).tailWord (le 4 v.toNat) ∧ ∀ p, p ≠ q → t.queue p = s.queue p) ∧
  (∀ (s : State) (f i q : Nat) (v : BitVec 32) (mem : HostWrites), f < 256 → i < 4096 → s.barOn f = true →
    s.addressed f i = some q → (s.queue q).fn = f → (s.queue q).poll = false → (s.fn f).pert = true →
    (s.fn f).ctrl.getLsbD 3 = true → 0 < (s.fn f).holdUs → Completes (.dbSqTail f i v mem) s fun t =>
      t.queues = s.queues ∧ (t.fn f).held = (s.fn f).held ++
        [{ queue := q, kind := 0, value := v, count := 0, due := s.time.elapsed + 1000 * (s.fn f).holdUs }]) ∧
  (∀ (s : State) (f i q : Nat) (v : BitVec 32), f < 256 → i < 4096 → s.barOn f = true → s.addressed f i = some q →
    (s.queue q).fn = f → (s.fn f).pert = false → (s.fn f).heldFor q = true → Completes (.dbCqHead f i v) s fun t =>
      t.queues = s.queues ∧ (t.fn f).held = (s.fn f).held ++
        [{ queue := q, kind := 1, value := v, count := 0, due := s.time.elapsed }]) ∧
  (∀ (s : State) (q : Nat), q < 4096 → s.barOn 0 = true → let off := 0x20004 + 0x10 * q
    ((s.fn (s.queue q).fn).heldFor q = true → exec (.registerWrite .pfBar0 0 off .read32) s =
      .next { s with host := { s.host with reads := s.host.reads ++ [(0, off, false)] } }) ∧
    ((s.fn (s.queue q).fn).heldFor q = false → s.host.reads = [(0, off, false)] →
      s.readsReturn =
        { s with host := { s.host with
          reads := [], lastRead := BitVec.ofNat 64 ((((s.queue q).cfgReg q 4).map (·.2)).getD 0) } })) ∧
  ∀ (s : State) (f now : Nat) (H : HeldDoorbell), f < 256 → (s.fn f).held = [H] →
    (H.due ≤ (s.time.to now).elapsed → H.kind = 1 → (s.queue H.queue).mode = .enabled →
      lapping H.value (s.queue H.queue).cqHead (s.queue H.queue).cqTail true (2 ^ (s.queue H.queue).cqLog2) = false →
      Completes (.pertDoorbellHold f now) s fun t => (t.fn f).held = [] ∧ (t.queue H.queue).cqHead = H.value ∧
        ∀ p, p ≠ H.queue → t.queue p = s.queue p) ∧
    ((s.time.to now).elapsed < H.due → Completes (.pertDoorbellHold f now) s fun t => (t.fn f).held = [H] ∧ t.queues = s.queues))

/-- R251, R254: ENABLE of ADMQ.CFG brings queue 0 of the function up with both indices at 0 where both bases are aligned and
both sizes lie in 4 to 16, and otherwise sets CFG_ERR and leaves it absent; once set it stays; MOD_TIME after the first
pending completion the message goes out and the count clears; unmasking sends what was pending. -/
def Obligations.QueueZeroIsEnabledAndMessagesModerated : Prop :=
  (∀ (s : State) (f : Nat) (v : BitVec 32), f < 256 → s.barOn f = true → v.getLsbD 16 = true →
    let sq := v.toNat % 32
    let cq := v.toNat / 32 % 32
    let a := s.reg (admqKey f 0)
    let b := s.reg (admqKey f 1)
    let good := 4 ≤ sq ∧ sq ≤ 16 ∧ 4 ≤ cq ∧ cq ≤ 16 ∧ a % 4096 = 0 ∧ b % 4096 = 0
    ((s.queue f).mode ≠ .absent → exec (.admqEnable f v) s = .next s) ∧
    ((s.queue f).mode = .absent → good → Completes (.admqEnable f v) s fun t =>
      t.queue f = { mode := .enabled, fn := f, lnum := 0, sqBase := a, cqBase := b, sqLog2 := sq, cqLog2 := cq, vector := 0,
                    modCount := 1, modTime := 0 } ∧ bitOf (t.reg (admqKey f 2)) 17 = false ∧
      t = { s with queues := t.queues, regs := t.regs } ∧ ∀ p, p ≠ f → t.queue p = s.queue p) ∧
    ((s.queue f).mode = .absent → ¬ good → Completes (.admqEnable f v) s fun t =>
      t.queues = s.queues ∧ bitOf (t.reg (admqKey f 2)) 17 = true ∧ t = { s with regs := t.regs })) ∧
  (∀ (s : State) (q now : Nat), q < 4096 → s.cluster.tethered = false →
    (s.fn (s.queue q).fn).mask.contains (s.queue q).vector = false →
    (0 < (s.queue q).pendN → (s.queue q).pendAt ≤ (s.time.to now).elapsed → exec (.msixModTimer q now) s =
      .next (((s.at_ now).modQueue q fun Q => { Q with pendN := 0 }).emit (.msix (s.queue q).fn (s.queue q).vector))) ∧
    ((s.queue q).pendN = 0 ∨ (s.time.to now).elapsed < (s.queue q).pendAt → exec (.msixModTimer q now) s = .next (s.at_ now))) ∧
  ∀ (s : State) (f v : Nat), f < 256 → v < 64 → s.cluster.tethered = false → Completes (.msixUnmask f v) s fun t =>
    (t.fn f).mask.contains v = false ∧ (t.fn f).pba.contains v = false ∧ (∀ w, w ≠ v → ((t.fn f).mask.contains w = (s.fn f).mask.contains w)) ∧
    t.outbox = (if (s.fn f).pba.contains v then [.msix f v] else []) ++ s.outbox ∧ t = { s with fns := t.fns, outbox := t.outbox }

/-- R225, R228, R230, R233, R242, R244, R262: the next entry is that of the queue whose turn it is, at SQ_HEAD mod the ring's size,
as the prefetch cache holds it (log 96); one that cannot be read is reason 9. A
well-formed entry of an indirect-mode queue is a new job in the fetch stage with the entry's fields, a completion slot reserved, or
completes at once where a check of its queue or function fails; a malformed one is consumed by nothing; with no queue
to serve nothing happens. -/
def Obligations.ConsumptionTakesTheNextEntry : Prop :=
  ∀ (s : State) (now : Nat),
    let u := (s.at_ now).markWaits
    (u.pickQueue = none → exec (.consumeEntry now) s = .next u) ∧
    (∀ q, u.pickQueue = some q → (u.queue q).isModule = none →
      let Q := u.queue q
      ((∀ c ∈ Q.cache, c.1 ≠ Q.sqHead) → Q.sqHead ≠ Q.sqTail → Q.revise = none → u.readFault (u.entryAt q) 64 = none →
        (u.prefetch q).headEntry q = some (u.hostRead (u.entryAt q) 64)) ∧
      (∀ raw, Q.cache.head? = some (Q.sqHead, raw) → (u.prefetch q).headEntry q = some raw) ∧
      ((u.prefetch q).headEntry q = none → 256 ≤ q → Q.safety = false → Completes (.consumeEntry now) s fun t =>
        (t.queue q).mode = .fenced ∧ (t.queue q).reason = 9 ∧ (t.queue q).sqHead = Q.sqHead ∧ t.nextSeq = s.nextSeq) ∧
      ∀ raw, (u.prefetch q).headEntry q = some raw →
      let e := parseEntry raw
      (∀ r, badReason u Q raw = some r → 256 ≤ q → Q.safety = false → Completes (.consumeEntry now) s fun t =>
        (t.queue q).mode = .fenced ∧ (t.queue q).reason = r ∧ (t.queue q).sqHead = Q.sqHead ∧ t.nextSeq = s.nextSeq) ∧
      (badReason u Q raw = none → Q.chained = false → Q.skip = false →
        let J := jobOf Q q e u.nextSeq false
        let consumed := fun (t : State) => (t.queue q).sqHead = Q.sqHead + 1 ∧ (t.queue q).reserved = Q.reserved + 1 ∧
          t.nextSeq = s.nextSeq + 1 ∧ t.hostMem = s.hostMem ∧ (∀ i, i ≠ u.nextSeq → t.job? i = s.job? i)
        (∀ st r, u.functionCheck J q = some (st, r) → Completes (.consumeEntry now) s fun t =>
          consumed t ∧ Answered t u.nextSeq st r) ∧
        (u.functionCheck J q = none → Completes (.consumeEntry now) s fun t =>
          consumed t ∧ ∃ K, t.job? u.nextSeq = some K ∧ K.phase = .fetch ∧ K.src = .ring q ∧ K.fn = Q.fn ∧ K.opcode = leAt raw 0 2 ∧
            K.tag.toNat = leAt raw 4 4 ∧ K.handle = leAt raw 8 4 ∧ K.cls = leAt raw 15 1 ∧ K.srcAddr = leAt raw 16 8 ∧
            K.dst = leAt raw 24 8 ∧ K.totalLen = leAt raw 32 6 ∧ K.aux = leAt raw 40 8 ∧ K.param.toNat = leAt raw 48 8 ∧
            K.accepted = none ∧ K.seq = s.nextSeq)))

/-! ### The life of a job (01_architecture.md; 04_engine_tiles.md; 10_job_rings.md; 12_deadlines.md) -/

/-- Job `j` is staged here and decided by the Reckoner now (12_deadlines.md R288). -/
abbrev Decided (s : State) (j : Nat) (J : Job) : Prop :=
  s.job? j = some J ∧ J.phase = .staged ∧ J.reckoned = true ∧ s.fenceWaits J = false ∧ s.faults.safe.on = false ∧
  s.chartStops = false ∧ s.keyUnitAbsent J = false ∧ J.released = 0 ∧ J.runWait = false ∧ J.commit = .none ∧ J.out = none

/-- R226, R238-R240: a direct entry in order is staged with the bytes at SRC; an INDIRECT one whose fragment lengths do not sum to
TOTAL_LEN is LEN_MISMATCH with the sum, one whose read fails FRAG_FAULT; an entry outside its fields' rules is MALFORMED;
the further input of a windowed job is appended as it arrives. -/
def Obligations.FetchStagesOrRefusesInput : Prop :=
  (∀ (s : State) (j now : Nat) (J : Job), s.job? j = some J → J.phase = .fetch → J.admin = false → J.released = 0 →
    (entryOk J = false → Completes (.fetchStage j now) s fun t => Answered t j St.malformed 0 ∧ t.hostMem = s.hostMem) ∧
    (entryOk J = true → s.memOf J = none →
      (fIndirect J.flags.toNat = false → J.entries = 1 → J.auxParts = [] → J.totalLen ≤ 2097152 → J.totalLen ≤ s.jobMax →
        J.totalLen ≤ s.stagingFree J.quadrant → s.overflowUsed ≤ s.overflowMib * 2 ^ 20 → J.opcode ≠ 0x8000 → J.opcode ≠ 0x8100 →
        ((J.totalLen = 0 ∨ s.readFault J.srcAddr J.totalLen = none) → Completes (.fetchStage j now) s fun t =>
          t.job? j = some { J with input := s.hostRead J.srcAddr J.totalLen, auxIn := [], staged := J.totalLen, overflow := 0,
                                   windowed := false, arrived := J.totalLen, early := false, phase := .staged } ∧
          t = { s with time := s.time.to now, jobs := t.jobs, cluster := t.cluster } ∧ ∀ i, i ≠ j → t.job? i = s.job? i) ∧
        (∀ k, 0 < J.totalLen → s.readFault J.srcAddr J.totalLen = some k → Completes (.fetchStage j now) s fun t =>
          Answered t j St.fragFault 0 ∧ (∃ K, t.job? j = some K ∧ K.ret = [BitVec.ofNat 8 k]) ∧ t.hostMem = s.hostMem)) ∧
      (fIndirect J.flags.toNat = true → J.srcAddr % 16 = 0 → s.readFault J.srcAddr (16 * J.fragCount) = none →
        let fr := parseFrags (s.hostRead J.srcAddr (16 * J.fragCount)) J.fragCount
        (∀ f ∈ fr, f.flags < 2) → (fr.map (·.len)).sum ≠ J.totalLen → Completes (.fetchStage j now) s fun t =>
          Answered t j St.lenMismatch ((fr.map (·.len)).sum % 2 ^ 48) ∧ t.hostMem = s.hostMem))) ∧
  ∀ (s : State) (j now bytes : Nat) (J : Job), s.job? j = some J → J.phase ≠ .ended → J.windowed = true → J.arrived < J.totalLen →
    s.memOf J = none → fIndirect J.flags.toNat = false → J.entries = 1 →
    let n := min bytes (J.totalLen - J.arrived)
    (n = 0 ∨ s.readFault (J.srcAddr + J.arrived) n = none) → Completes (.windowInputArrival j bytes now) s fun t =>
      t.job? j = some { J with input := J.input ++ s.hostRead (J.srcAddr + J.arrived) n, arrived := J.arrived + n, stalled := false } ∧
      t = { s with time := s.time.to now, jobs := t.jobs, cluster := t.cluster }

/-- R123, R199, R208, R237, R288: a demand that fails is NOT_ADMITTED with its reason; the first later check that fails gives its status;
a job that passes is accepted at this moment with its runs, its units and its deadline, its key in the cache counting one
invocation; the fill that it may wait for places it, and a record whose tag fails is MCHECK. -/
def Obligations.AdmissionAcceptsOrAnswers : Prop :=
  (∀ (s : State) (j now : Nat) (J : Job), let u := s.at_ now
    Decided u j J →
    (∀ r, u.rowThree J = .refuse r → Completes (.admission j now) s fun t => Answered t j St.notAdmitted r ∧ t.keys = s.keys) ∧
    (∀ steps units, u.rowThree J = .place steps units →
      (∀ st r, u.laterRows J = some (st, r) → st ≠ St.notAdmitted → Completes (.admission j now) s fun t => Answered t j st r) ∧
      (u.laterRows J = none → J.takesKey = false ∨ (∃ c, tget s.keys.cache (handleIdx (s.keyHandleOf J)) = some c) ∨ J.cachesKey = false →
        Completes (.admission j now) s fun t =>
          (∃ K, t.job? j = some K ∧ K.phase = .placed ∧ K.accepted = some u.time.elapsed ∧ K.steps = steps ∧ K.units = units ∧
            K.acceptSeq = s.acceptSeq ∧ K.cls = J.cls ∧ K.opcode = J.opcode ∧ K.out = J.out ∧
            K.deadline = (if J.cls = 7 then none else some (u.time.elapsed + 1000 * s.deadlineUs J.cls))) ∧
          t.acceptSeq = s.acceptSeq + 1 ∧ t.hostMem = s.hostMem ∧
          (∀ K, u.jobKey J = some K → J.countsUse = true → ∃ K', t.key? (handleIdx (s.keyHandleOf J)) = some K' ∧
            K'.uses = K.uses + 1 ∧ K'.material = K.material)))) ∧
  ∀ (s : State) (j now : Nat) (J : Job), s.job? j = some J → J.phase = .filling → J.released = 0 →
    exec (.keyCacheFillDone j true now) s = .next ((s.at_ now).modJob j fun J => { J with phase := .placed }) ∧
    Completes (.keyCacheFillDone j false now) s fun t => Answered t j St.mcheck 0 ∧
      ∀ i, J.pin = some i → tget t.keys.cache i = none ∧
        ∀ K n, s.key? i = some K → n = 194 + 16 * s.portOf (keyRegion K) i → (t.src n).total = satAdd 32 (s.src n).total 1

/-- R85, R89, R96, R289: a free tile that serves, or a free core, starts the first ready run in the order of R289; at a safe
point a job meets the request that it has, or leaves its no-return zone, and none comes while its durable commit is awaited;
more than 4,096 micro-cycles without one, or a parity error, ends the job with MCHECK and fences the tile for reason 1. A
commit that is acknowledged opens its zone, one that is not ends its job, a posted extend advances its register, and a job
past its rejection budget goes on (R86, R87, R117, R353). -/
def Obligations.DispatchAndSafePointsFollowTheOrder : Prop :=
  (∀ (s : State) (n now : Nat) (x : Cand) (rest : List Cand), n < 96 → (s.tile n).serves = true →
    (∀ e ∈ s.jobs, s.job? e.1 = some e.2) → (∀ r ∈ s.runsAt (.tile n), r.run.mode ≠ .running) →
    (s.at_ now).readyRuns (.tile n) = x :: rest → Completes (.dispatch (.tile n) now) s fun t =>
      (∃ K, t.job? x.job = some K ∧ K.currentHas (.tile n) .running = true) ∧ (t.tile n).mode = .busy ∧
      t = { s with time := s.time.to now, jobs := t.jobs, tiles := t.tiles } ∧ ∀ i, i ≠ x.job → t.job? i = s.job? i) ∧
  (∀ (s : State) (c now : Nat) (x : Cand) (rest : List Cand), c < 8 → (s.core c).stopped = false →
    (∀ e ∈ s.jobs, s.job? e.1 = some e.2) → (∀ r ∈ s.runsAt (.core c), r.run.mode ≠ .running) →
    (s.at_ now).readyRuns (.core c) = x :: rest → Completes (.dispatch (.core c) now) s fun t =>
      (∃ K, t.job? x.job = some K ∧ K.currentHas (.core c) .running = true) ∧
      t = { s with time := s.time.to now, jobs := t.jobs } ∧ ∀ i, i ≠ x.job → t.job? i = s.job? i) ∧
  (∀ (s : State) (j now : Nat) (J : Job), s.job? j = some J → J.isRunning = true → J.atEnd = false → J.holds = false → J.phase = .placed →
    J.released = 0 →
    (J.request = .abort → Completes (.safePointAction j now) s fun t => Answered t j St.aborted 0) ∧
    (J.request = .fence → Completes (.safePointAction j now) s fun t => Answered t j St.fenced 0) ∧
    (J.request = .safe → Completes (.safePointAction j now) s fun t => Answered t j St.safeState 0) ∧
    (J.request = .none → J.windowed = false → J.tilesOf = [] → exec (.safePointAction j now) s =
      .next ((s.at_ now).modJob j fun J => { J with zone := false, request := .none }))) ∧
  (∀ (s : State) (j now : Nat) (J : Job), s.job? j = some J → J.holds = true →
    exec (.safePointAction j now) s = .next (s.at_ now)) ∧
  (∀ (s : State) (j n now c addr : Nat) (J : Job), s.job? j = some J → s.watchTile j J = some n → (s.tile n).mode ≠ .fenced →
    J.phase = .placed → J.released = 0 →
    (4096 < c → Completes (.watchdog j c addr now) s fun t => Answered t j St.mcheck 0 ∧
      (t.tile n).mode = .fenced ∧ (t.tile n).fence = 1 ∧ (t.tile n).mcCause = 5) ∧
    (c ≤ 4096 → exec (.watchdog j c addr now) s = .next (s.at_ now))) ∧
  (∀ (s : State) (j n now cause addr : Nat) (J : Job), s.job? j = some J → n < 96 → (s.tile n).mode ≠ .absent → (s.tile n).mode ≠ .fenced →
    cause = 1 ∨ cause = 2 →
    J.currentHas (.tile n) .running = true → J.phase = .placed → J.released = 0 → Completes (.machineCheck n cause addr (some j) now) s fun t =>
      Answered t j St.mcheck 0 ∧ (t.tile n).mode = .fenced ∧ (t.tile n).fence = 1 ∧ (t.tile n).mcCause = cause ∧
      (t.tile n).mcAddr = addr % 8192 ∧ (t.src n).total = satAdd 32 (s.src n).total 1) ∧
  ∀ (s : State) (j i v now : Nat) (J : Job), s.job? j = some J →
    (∀ K H, J.holds = true → J.out = none → J.pin = some i → J.leaf = some v → s.key? i = some K → K.hbs = some H → J.released = 0 →
      J.phase = .placed →
      (Completes (.commitAck j now) s fun t => t.job? j = some { J with commit := .acked, zone := true }) ∧
      ∀ n addr, J.runTile = some n → Completes (.commitTimeout j addr now) s fun t => Answered t j St.mcheck 0) ∧
    (∀ r d rest, J.phase ≠ .ended → s.log.posted = (r, .extend d (some j)) :: rest → (s.logReg r).barrier = [] →
      Completes (.logbookExtend now) s fun t => (t.logReg r).value = sha384 ((s.logReg r).value ++ d) ∧
        (t.logReg r).count = (s.logReg r).count + 1) ∧
    (J.isRunning = true → (J.current.any fun x => loops x.2.entry) = true → Completes (.rejectionBudgetEnd j now) s fun t =>
      t.job? j = some { J with overrun := true })

/-- R26, R86-R88, R94, R95, R117, R136, R149, R353, R354: an acknowledged commit moves RESERVED_END and opens a no-return
zone; without one the job is MCHECK and the range is consumed; a posted extend advances its register and gives its job count,
register and epoch; a job that ends well releases its output at DST and answers its RESULT; one whose two runs differ
releases nothing; one past the budget of the loop that it runs goes on as C7. A tile dispatches the first ready run, an abort
takes effect at a safe point, and a watchdog or a parity error ends its job and fences its tile (R80, R81, R85, R89, R96). -/
def Obligations.CommitsAndRunEndsReleaseOnlyGoodResults : Prop :=
  (∀ (s : State) (j i v now : Nat) (J : Job) (K : Key) (H : Hbs), s.job? j = some J → J.holds = true → J.out = none →
    J.pin = some i → J.leaf = some v → s.key? i = some K → K.hbs = some H → J.released = 0 → J.phase = .placed →
    let reserved := max H.reserved (min (v + H.block) H.limit)
    (Completes (.commitAck j now) s fun t => t.job? j = some { J with commit := .acked, zone := true } ∧
      (∃ K' H', t.key? i = some K' ∧ K'.hbs = some H' ∧ H'.reserved = reserved ∧ H'.next = H.next) ∧
      t = { s with time := s.time.to now, jobs := t.jobs, keys := t.keys, pmem := t.pmem }) ∧
    (∀ n addr, J.runTile = some n → Completes (.commitTimeout j addr now) s fun t => Answered t j St.mcheck 0 ∧
      ∃ K' H', t.key? i = some K' ∧ K'.hbs = some H' ∧ H'.reserved = reserved ∧ min (v + H.block) H.limit ≤ H'.next)) ∧
  (∀ (s : State) (j r now : Nat) (J : Job) (d : Bytes) (rest : List (Nat × LogWork)), s.job? j = some J → J.phase ≠ .ended →
    s.log.posted = (r, .extend d (some j)) :: rest → (s.logReg r).barrier = [] → Completes (.logbookExtend now) s fun t =>
      let L := s.logReg r
      (t.logReg r).value = sha384 (L.value ++ d) ∧ (t.logReg r).count = L.count + 1 ∧ (t.logReg r).epoch = L.epoch ∧
      t.log.posted = rest ∧ (∀ q, q ≠ r → t.logReg q = s.logReg q) ∧
      ∃ K, t.job? j = some K ∧ K.phase = .ended ∧ K.status = St.ok ∧ K.result = L.count + 1 + r * 2 ^ 32 + L.epoch * 2 ^ 48) ∧
  (∀ (s : State) (j now : Nat) (J : Job) (st : JobStep) (r : Run) (o : JobOut) (mismatch : Bool), s.job? j = some J → J.phase = .placed →
    J.steps = [st] → st.runs = [r] → r.mode = .running → st.kind = .main → J.out = some o → o.status = St.ok → o.extend = none →
    o.tree = none → o.gone = false → J.atEnd = false → J.windowed = false → J.request = .none → J.commit = .none → J.released = 0 → J.al2 = false → J.opcode ≠ 0x8300 →
    famOf J.opcode ≠ 9 → s.memOf J = none → s.gateOf J = none → s.writeFault J.dst o.output.length = none →
    Completes (.runEnd j mismatch now) s fun t => Answered t j St.ok o.result ∧ (∃ K, t.job? j = some K ∧ K.ret = o.ret) ∧
      t.hostMem = (if o.output = [] then s.hostMem else memWriteN s.hostMem J.dst o.output) ∧
      (∀ k ∈ o.keys, o.keys = [k] → (t.key? k.1).map (·.material) = some k.2.material)) ∧
  (∀ (s : State) (j now : Nat) (J : Job) (st : JobStep) (a b : Run) (o : JobOut), s.job? j = some J → J.phase = .placed →
    J.steps = [st] → st.runs = [a, b] → a.mode = .ended → b.mode = .running → st.kind = .main → st.cmp = true → J.out = some o →
    J.atEnd = false → J.windowed = false → J.request = .none → J.commit = .none → J.released = 0 → J.al2 = true → J.opcode ≠ 0x8300 →
    J.opcode ≠ 0xF002 → famOf J.opcode ≠ 9 → s.armedFor J = none → Completes (.runEnd j true now) s fun t =>
      Answered t j St.mcheck 0 ∧ ∀ i, (t.key? i).map (·.material) = (s.key? i).map (·.material)) ∧
  (∀ (s : State) (j now : Nat) (J : Job), s.job? j = some J → J.isRunning = true → (J.current.any fun x => loops x.2.entry) = true →
    exec (.rejectionBudgetEnd j now) s = .next ((s.at_ now).modJob j fun J => { J with overrun := true })) ∧
  ∀ (s : State) (now : Nat), (∀ e ∈ s.jobs, s.job? e.1 = some e.2) →
    (∀ n x rest, n < 96 → (s.tile n).serves = true → (∀ r ∈ s.runsAt (.tile n), r.run.mode ≠ .running) →
      (s.at_ now).readyRuns (.tile n) = x :: rest → Completes (.dispatch (.tile n) now) s fun t =>
        (∃ K, t.job? x.job = some K ∧ K.currentHas (.tile n) .running = true) ∧ (t.tile n).mode = .busy) ∧
    ∀ j J, s.job? j = some J → J.phase = .placed → J.released = 0 →
      (J.isRunning = true → J.atEnd = false → J.holds = false → J.request = .abort → Completes (.safePointAction j now) s fun t =>
        Answered t j St.aborted 0) ∧
      (∀ n c addr, s.watchTile j J = some n → (s.tile n).mode ≠ .fenced → 4096 < c → Completes (.watchdog j c addr now) s fun t =>
        Answered t j St.mcheck 0 ∧ (t.tile n).mode = .fenced ∧ (t.tile n).mcCause = 5) ∧
      (∀ n addr, n < 96 → (s.tile n).mode ≠ .absent → (s.tile n).mode ≠ .fenced → J.currentHas (.tile n) .running = true →
        Completes (.machineCheck n 1 addr (some j) now) s fun t => Answered t j St.mcheck 0 ∧ (t.tile n).mode = .fenced ∧
          (t.tile n).mcCause = 1)

/-- R185, R188, R231, R245-R247, R472: the next 16 KiB of a streamed output are released behind what went before; a completion is 32
bytes in the slot of its index, with PHASE of its pass, and its job leaves the table; COMPLETION_DELAY keeps it for DELAY_US. -/
def Obligations.CompletionsAreWrittenOnceAtTheirIndex : Prop :=
  (∀ (s : State) (j now : Nat) (J : Job) (st : Nat × JobStep) (o : JobOut), s.job? j = some J → J.phase = .placed → J.out = some o →
    J.current = some st → J.streams = true → J.isRunning = true → J.holds = false → J.al2 = false → s.gateOf J = none → s.memOf J = none →
    let data := if kindOf J.opcode = .seal ∧ J.totalLen ≤ o.seen then o.output.length - tagLen J.opcode J.param.toNat else o.output.length
    let n := min 16384 (data - J.released)
    0 < n → s.writeFault (J.dst + J.released) n = none → Completes (.segmentRelease j false now) s fun t =>
      t.hostMem = memWriteN s.hostMem (J.dst + J.released) ((o.output.drop J.released).take n) ∧
      t.job? j = some { J with released := J.released + n } ∧
      t = { s with time := s.time.to now, jobs := t.jobs, hostMem := t.hostMem, cluster := t.cluster }) ∧
  ∀ (s : State) (j q now : Nat) (J : Job), s.job? j = some J → J.src = .ring q → (s.queue q).isModule = none → (s.queue q).chain ≠ some j →
    (s.fn J.fn).flr = false → (s.queue q).mode ≠ .fenced → fNotify J.flags.toNat = false → (∀ f, (s.fn f).quiesce = none) →
    (∀ e ∈ s.jobs, e.2.bg = none) → J.late (s.time.to now).elapsed = false →
    let Q := s.queue q
    let slot := Q.cqBase + 32 * (Q.cqTail.toNat % 2 ^ Q.cqLog2)
    let block := (s.at_ now).completionOf J Q.cqTail Q.cqLog2
    s.writeFault slot 32 = none →
    let written := fun (t : State) (b : Bytes) => t.hostMem = memWriteN s.hostMem slot b ∧ t.job? j = none ∧
      (t.queue q).cqTail = Q.cqTail + 1 ∧ (t.queue q).reserved = Q.reserved - 1 ∧ (t.queue q).mode = Q.mode ∧
      t.keys = (s.dropJob j).keys ∧ t.faults = s.faults ∧ ∀ p, p ≠ q → t.queue p = s.queue p
    block.length = 32 ∧ leAt block 0 4 = J.tag.toNat ∧ leAt block 4 2 = J.status % 65536 ∧ leAt block 8 8 = J.result % 2 ^ 64 ∧
    (leAt block 6 2).testBit 0 = ((Q.cqTail.toNat / 2 ^ Q.cqLog2 + 1) % 2 == 1) ∧ (leAt block 6 2).testBit 1 = false ∧
    (J.phase = .ended → (s.fn J.fn).pert = false → Completes (.completionWrite j now) s fun t => written t block) ∧
    (J.phase = .delayed → J.delayEnd ≤ (s.time.to now).elapsed → Completes (.pertCompletionDelay j now) s fun t => written t block) ∧
    (J.phase = .ended → (s.fn J.fn).pert = true → (s.fn J.fn).ctrl.getLsbD 0 = true → (s.fn J.fn).ctrl.getLsbD 1 = false →
      0 < (s.fn J.fn).delayUs → Completes (.completionWrite j now) s fun t => t.hostMem = s.hostMem ∧ t.queues = s.queues ∧
        t.job? j = some { J with acted := true, phase := .delayed, delayEnd := (s.time.to now).elapsed + 1000 * (s.fn J.fn).delayUs })

/-! ### Keys (09_key_store.md; 12_deadlines.md R297) -/

/-- R204, R213-R219: GENERATE of a SECRET key draws KEY_LEN bytes, makes one key with the template's attributes and returns its
handle; EXPORT_WRAPPED returns the blob and its length; DESTROY releases nothing until its scrub, which takes the key and its
cache slots away; GET_ATTRIBUTES returns the 64 bytes of the record, and the material of a PUBLIC key only; GET_IMPORT_KEY
draws 128 bytes and makes a key of ALG 0x8101; an IMPORT makes one IMPORTED key with the attributes of its blob, or none. R139, R211, R297: a partition that would overlap another or end past slot 32,768 is discarded and sets QUOTA_ERR, any other is in
force at the next tick; a field of RECK.OVERFLOW_CFG outside its range discards the write; the preparation of a stateful key's
next bottom tree runs as a job of class C7 of the key's owner, and the tree is ready when that job ends. -/
def Obligations.KeyCommandsCreateExportAndDestroy : Prop :=
  (∀ (s : State) (j : Nat) (J : Job),
    let T := parseTemplate J.auxIn
    (s.running j J 0x8000 → T.kind = 1 → Computes (.generateKey j) j s fun o n =>
      n = T.len ∧ o.status = St.ok ∧ o.output = [] ∧ o.result = s.newHandle J 0 ∧
      ∀ k, J.newIdx[0]? = some k → ∃ K, o.keys = [(k, K)] ∧ K.alg = T.alg ∧ K.kind = .secret ∧ K.owner = T.owner ∧
        K.flags = T.flags ∧ K.expPol = T.expPol ∧ K.minAl = T.minAl ∧ K.limit = T.limit ∧ K.uses = 0 ∧
        K.usage = BitVec.ofNat 32 T.usage ∧ K.material = drbgBytes s.draws T.len) ∧
    (s.running j J 0x8000 → T.kind = 2 → Computes (.generateKey j) j s fun o _ =>
      (o.status = St.ok ∧ o.result = s.newHandle J 0 + o.output.length * 2 ^ 32 ∧ (J.dst = 0 → o.output = []) ∧
        ∀ k, J.newIdx[0]? = some k → ∃ K ∈ o.keys, K.1 = k ∧ K.2.alg = T.alg ∧ K.2.kind = .priv ∧ K.2.owner = T.owner) ∨ o.mchecked) ∧
    (s.running j J 0x8100 → Computes (.importKey j) j s fun o n => n = 0 ∧ o.output = [] ∧
      ((o.status = St.ok ∧ o.result = s.newHandle J 0 ∧ ∀ k, J.newIdx[0]? = some k → ∃ K, o.keys = [(k, K)] ∧
          K.flags.getLsbD 5 = true ∧ K.uses = 0 ∧ (stateful K.alg && K.kind == .priv) = false) ∨
       (o.keys = [] ∧ (o.status = St.tagFail ∨ o.status = St.policyDeny ∨ o.status = St.malformed ∨ o.status = St.keyInvalid ∨
          o.status = St.ctxFull)))) ∧
    (∀ i K, s.running j J 0x8200 → J.pin = some i → s.key? i = some K → Computes (.exportWrapped j) j s fun o n =>
      o.status = St.ok ∧ o.keys = [] ∧ o.result = o.output.length ∧
      (bitsOf J.param.toNat 35 32 = 3 → n = 0 ∧ o.output = K.material) ∧
      (bitsOf J.param.toNat 35 32 = 1 → n = 0 ∧ o.output.length = 8 * ((64 + K.material.length + 7) / 8) + 8) ∧
      (bitsOf J.param.toNat 35 32 = 2 → n = 64 ∧ o.output.length = 1136 + 64 + K.material.length + 16)) ∧
    (s.running j J 0x8300 → Computes (.destroyKey j) j s fun o n => n = 0 ∧ o.withheld ∧ o.status = St.ok) ∧
    (∀ K, s.running j J 0x8400 → s.jobKey J = some K → Computes (.getAttributes j) j s fun o n =>
      n = 0 ∧ o.status = St.ok ∧ o.keys = [] ∧ o.result = o.output.length ∧ o.output.take 64 = attrBytes K ∧
      (attrBytes K).length = 64 ∧ o.output.drop 64 = (if K.kind = .pub then K.material else [])) ∧
    (s.running j J 0x8500 → Computes (.getImportKey j) j s fun o n =>
      n = 128 ∧ o.status = St.ok ∧ o.output.length = 1184 + 32 + 4 + 4627 ∧ o.result = s.newHandle J 0 ∧
      ∀ k, J.newIdx[0]? = some k → ∃ K, o.keys = [(k, K)] ∧ K.alg = 0x8101 ∧ K.kind = .priv ∧ K.owner = J.fn) ∧
    (∀ now K, s.job? j = some J → J.opcode = 0x8300 → J.out.isSome → s.pinned (handleIdx J.handle) = false → J.phase = .placed →
      J.released = 0 → J.logRes = none → J.commit = .none → (J.out.bind (·.tree)) = none →
      s.key? (handleIdx J.handle) = some K → K.persistent = false →
      Completes (.destroyScrub j now) s fun t => Answered t j St.ok 0 ∧ t.key? (handleIdx J.handle) = none ∧
        tget t.keys.cache (handleIdx J.handle) = none ∧ tget t.keys.counters (handleIdx J.handle) = none ∧ t.hostMem = s.hostMem ∧
        ∀ i, i ≠ handleIdx J.handle → t.key? i = s.key? i)) ∧
  ((∀ (s : State) (f base slots : Nat), f ≤ 0x101 → s.barOn 0 = true → base < 32768 → slots < 65536 →
    let v := BitVec.ofNat 32 (base + 2 ^ 16 * slots)
    let clash := 32768 < base + slots ∨
      ∃ g < 0x102, g ≠ f ∧ 0 < slots ∧ 0 < (s.partWritten g).2 ∧ base < (s.partWritten g).1 + (s.partWritten g).2 ∧
        (s.partWritten g).1 < base + slots
    (clash → exec (.keyCacheQuotaWrite f v) s = .next { s with keys := { s.keys with quotaErr := true } }) ∧
    (¬ clash → exec (.keyCacheQuotaWrite f v) s =
      .next { s with keys := { s.keys with partNext := tput s.keys.partNext f (base, slots) } })) ∧
  (∀ (s : State) (m n : Nat), s.barOn 0 = true → m < 4096 → n < 65536 →
    let v := BitVec.ofNat 32 (m + 4096 * n)
    (2 ≤ m → 64 ≤ n → exec (.overflowCfgWrite v) s = .next (s.setReg 0x30038 (m + n * 4096))) ∧
    (m < 2 ∨ n < 64 → exec (.overflowCfgWrite v) s = .next s)) ∧
  ∀ (s : State) (i now : Nat) (K : Key) (H : Hbs), s.key? i = some K → K.hbs = some H →
    (H.preparing = false → exec (.hbsPreparation i now) s = .next (s.at_ now)) ∧
    (∀ steps, H.preparing = true → s.prepares i = false → s.faults.safe.on = false → s.chartStops = false →
      (s.fn K.owner).quiesce = none → (s.fn K.owner).flr = false →
      (s.at_ now).placePlan ((s.at_ now).prepDemand K H) 0 = some steps → Completes (.hbsPreparation i now) s fun t =>
        (∃ W, t.job? s.nextSeq = some W ∧ W.src = .internal ∧ W.fn = K.owner ∧ W.cls = 7 ∧ W.phase = .placed ∧ W.deadline = none ∧
          W.commit = .needed ∧ W.steps = steps ∧ W.out = some { tree := some i }) ∧
        t = { s with time := s.time.to now, jobs := t.jobs, regs := t.regs, nextSeq := s.nextSeq + 1, acceptSeq := s.acceptSeq + 1 }) ∧
    (∀ (j : Nat) (J : Job) (st : JobStep) (r : Run) (mismatch : Bool), s.job? j = some J → J.src = .internal → J.phase = .placed →
      J.steps = [st] → st.runs = [r] → r.mode = .running → st.kind = .main → J.out = some { tree := some i } → J.atEnd = false →
      J.windowed = false → J.request = .none → J.commit = .acked → J.released = 0 → J.al2 = false → J.opcode = K.alg →
      famOf K.alg = 3 → s.gateOf J = none → Completes (.runEnd j mismatch now) s fun t =>
        t.job? j = none ∧ ∃ K' H', t.key? i = some K' ∧ K'.hbs = some H' ∧ K'.material = K.material ∧ H'.preparing = false ∧
          H'.ready = min (H.skip H.ready + max H.perTree 1) H.limit ∧ H'.next = H.next ∧ H'.reserved = H.reserved))

/-! ### The authority service (13_authority_service.md) -/

/-- Job `j` is a family 0x9 or 0xA job that acts now: staged, nothing before it awaited, outside the safe state
(10_job_rings.md R223, R238; 11_functions_and_sharing.md R272). -/
abbrev ServiceTurn (s : State) (j : Nat) (J : Job) (op : Nat) : Prop :=
  s.job? j = some J ∧ J.opcode = op ∧ J.phase = .staged ∧ s.fenceWaits J = false ∧ s.faults.safe.on = false ∧ J.released = 0 ∧
  J.steps = []

/-- The job has ended with a status, a reason, a rule and the AUDIT_SEQ of its decision, whose receipt stands at DST unless DST
is 0; the newest decision is this one (R313, R314, R320). -/
abbrev OrderAnswered (s t : State) (j : Nat) (J : Job) (env : Bytes) (now status reason rule ver : Nat) : Prop :=
  ∃ K q D rest, t.job? j = some K ∧ K.phase = .ended ∧ K.status = status ∧ K.result = reason + rule * 2 ^ 16 ∧ K.ret = le 8 q ∧
    t.auth.decisions = D :: rest ∧ D.auditSeq = q ∧ D.reason = reason ∧ D.state = (if reason = 0 then 3 else 1) ∧
    t.hostMem = (if J.dst = 0 then s.hostMem
      else memWriteN s.hostMem J.dst (receiptOf env reason q (s.at_ now).helmTime rule s.cluster.node ver))

/-- R306, R307, R313, R314, R321, R324, lines 1 to 7: an order in bad form, without a policy, to an unknown target, under no rule or
under a DENY rule is refused at once by the first line that fails, with its reason and POLICY_DENY; a LOG[3] that can take no
more, or near full, or steps that the Reckoner refuses are NOT_ADMITTED; an order that passes is accepted, and its steps are a job
of the device's own; while a LOAD_CHART has stopped tile admission an order waits. R306, R308-R311, R313, R314, R317, R321, lines 8 to 18 once every signature block has been verified: without trusted time, before
NOT_BEFORE, after NOT_AFTER, with too long a validity or a used SEQUENCE the order is refused and nothing else of the
authority's state moves; an accepted order records its SEQUENCE, raises the permit lines of its rule for PERMIT_MS and no
others, and answers with reason 0; an accepted time-set order makes the time trusted and steps it forward to NEW_TIME. A
permit line falls when its hold time has passed, and not before. The update that installs the policy and the queries complete (R318,
R320, R322). -/
def Obligations.OrdersAreCheckedDecidedAndPermitted : Prop :=
  (∀ (s : State) (j now : Nat) (J : Job), let u := s.at_ now
    let env := J.input
    s.memOf J = none → (J.dst = 0 ∨ s.writeFault J.dst 96 = none) →
    (s.chartStops = true →
      (ServiceTurn s j J 0x9000 → exec (.submitOrder j now) s = .next u) ∧
      (ServiceTurn s j J 0x9300 → exec (.timeSetOrder j now) s = .next u)) ∧
    (ServiceTurn s j J 0x9000 → s.chartStops = false →
      let refused := fun (r rule ver : Nat) => Completes (.submitOrder j now) s fun t =>
        OrderAnswered s t j J env now (if r = 0x0207 then St.notAdmitted else St.policyDeny) r rule ver ∧
        t.pins = s.pins ∧ t.auth.orders = s.auth.orders ∧ t.auth.seqs = s.auth.seqs ∧ t.auth.buckets = s.auth.buckets
      (wellFormedOrder env false = false → refused 0x0201 0xFFFF 0) ∧
      (wellFormedOrder env false = true → s.auth.running = none → refused 0x0203 0xFFFF 0) ∧
      ∀ P, wellFormedOrder env false = true → s.auth.running = some P →
        (s.targetKnown env = false → refused 0x0204 0xFFFF P.version) ∧
        (s.targetKnown env = true → P.rules.find? (s.ruleMatches env) = none → refused 0x0205 0xFFFF P.version) ∧
        ∀ R, s.targetKnown env = true → P.rules.find? (s.ruleMatches env) = some R →
          (R.deny = true → refused 0x0206 R.id P.version) ∧
          (R.deny = false → (s.logFrozen 3 = true ∨ s.log.nearFull = true) → refused 0x0207 R.id P.version) ∧
          (R.deny = false → ∀ r, u.serviceAsk R.cls u.orderPost (u.orderPlan env P (some R)) = .refuse r → refused 0x0207 R.id P.version) ∧
          (R.deny = false → s.logFrozen 3 = false → s.log.nearFull = false → j < s.nextSeq → ∀ steps units,
            u.serviceAsk R.cls u.orderPost (u.orderPlan env P (some R)) = .place steps units →
            Completes (.submitOrder j now) s fun t =>
              (∃ K, t.job? j = some K ∧ K.phase = .background ∧ K.accepted = some u.time.elapsed) ∧
              (∃ W, t.job? s.nextSeq = some W ∧ W.phase = .placed ∧ W.steps = steps ∧ W.units = units ∧ W.al2 = true ∧ W.fn = 0x100) ∧
              (∃ o, tget t.auth.orders s.auth.nextOrder = some o ∧ o.job = some j ∧ o.work = s.nextSeq ∧ o.envelope = env ∧
                o.policy = P ∧ o.rule = some R ∧ o.arrival = u.helmTime) ∧
              t.auth.decisions = s.auth.decisions ∧ t.hostMem = s.hostMem ∧ t.pins = s.pins ∧ t.log = s.log)) ∧
    (ServiceTurn s j J 0x9300 → s.chartStops = false →
      (wellFormedOrder env true = false → Completes (.timeSetOrder j now) s fun t =>
        OrderAnswered s t j J env now St.policyDeny 0x0201 0xFFFF 0 ∧ t.time = s.time.to now) ∧
      (wellFormedOrder env true = true → s.auth.running = none → Completes (.timeSetOrder j now) s fun t =>
        OrderAnswered s t j J env now St.policyDeny 0x0203 0xFFFF 0 ∧ t.time = s.time.to now) ∧
      ∀ P steps units, wellFormedOrder env true = true → s.auth.running = some P → s.logFrozen 3 = false → s.log.nearFull = false →
        j < s.nextSeq → u.serviceAsk 3 u.orderPost (u.orderPlan env P none) = .place steps units →
        Completes (.timeSetOrder j now) s fun t => t.time = s.time.to now ∧
          ∃ o, tget t.auth.orders s.auth.nextOrder = some o ∧ o.timeSet = true ∧ o.rule = none ∧ o.envelope = env ∧ o.policy = P)) ∧
  ((∀ (s : State) (o j now : Nat) (x : Order) (J W : Job), let u := s.at_ now
    let env := x.envelope
    tget s.auth.orders o = some x → x.job = some j → x.console = none → s.job? j = some J → J.phase = .background → J.released = 0 →
    s.job? x.work = some W → W.phase = .placed → W.released = 0 → x.work ≠ j → s.memOf J = none → s.faults.safe.on = false →
    (J.dst = 0 ∨ s.writeFault J.dst 96 = none) →
    (s.verifiesDone x = false → exec (.decisionCommit o false now) s = .next u) ∧
    (s.verifiesDone x = true →
      (∀ R, x.rule = some R →
        let refused := fun (r : Nat) => Completes (.decisionCommit o false now) s fun t =>
          OrderAnswered s t j J env now St.policyDeny r R.id x.policy.version ∧ t.pins = s.pins ∧ t.auth.permits = s.auth.permits ∧
          t.auth.seqs = s.auth.seqs ∧ t.auth.buckets = s.auth.buckets ∧ tget t.auth.orders o = none ∧ t.job? x.work = none
        let T := u.helmTime
        (s.time.trusted = false → refused 0x0208) ∧
        (s.time.trusted = true → T < envNotBefore env → refused 0x0209) ∧
        (s.time.trusted = true → envNotBefore env ≤ T → envNotAfter env < T → refused 0x020A) ∧
        (s.time.trusted = true → envNotBefore env ≤ T → T ≤ envNotAfter env →
          (x.policy.maxValid * 10 ^ 9 < envNotAfter env - envNotBefore env → refused 0x020B) ∧
          (envNotAfter env - envNotBefore env ≤ x.policy.maxValid * 10 ^ 9 →
            ∀ e, s.seqEntry (targetKey env) = some e → envSeq env ≤ e.last → refused 0x020C)) ∧
        (∀ a, u.decideOrder x R = .ok a → R.forward = false → Completes (.decisionCommit o false now) s fun t =>
          OrderAnswered s t j J env now St.ok 0 R.id x.policy.version ∧ t.pins = { s.pins with permit := s.pins.permit ||| R.permit } ∧
          (∃ e, t.seqEntry (targetKey env) = some e ∧ e.last = envSeq env) ∧
          (s.auth.seqs.length < 262144 → ∀ k, k ≠ targetKey env → t.seqEntry k = s.seqEntry k) ∧
          (∀ n < 8, R.permit.getLsbD n = true → ∃ p, tget t.auth.permits n = some p ∧
            p.endAt = max (((tget s.auth.permits n).map (·.endAt)).getD 0) (u.time.elapsed + R.permitMs * 1000000)) ∧
          (∀ n < 8, R.permit.getLsbD n = false → tget t.auth.permits n = tget s.auth.permits n) ∧
          tget t.auth.orders o = none)) ∧
      (x.rule = none →
        (∀ r, u.decideTime x = .error r → Completes (.decisionCommit o false now) s fun t => t.time = u.time ∧ t.pins = s.pins) ∧
        (∀ a, u.decideTime x = .ok a → Completes (.decisionCommit o false now) s fun t =>
          OrderAnswered s t j J env now St.ok 0 0xFFFF x.policy.version ∧ t.time.trusted = true ∧ t.time.accepted = [] ∧
          (u.time.almanac ≤ envNewTime env → t.time.almanac = envNewTime env) ∧
          (envNewTime env < u.time.almanac → t.time.almanac = u.time.almanac ∧
            t.time.slew = .lose 2 (u.time.almanac - envNewTime env) 0) ∧ t.pins = s.pins)))) ∧
  (∀ (s : State) (n now : Nat) (p : Permit), n < 8 → tget s.auth.permits n = some p →
    (p.endAt ≤ (s.time.to now).elapsed → exec (.permitEnd n now) s = .next { s.at_ now with
      pins := { s.pins with permit := s.pins.permit &&& ~~~ (BitVec.ofNat 8 (2 ^ n)) },
      auth := { s.auth with permits := tdel s.auth.permits n } }) ∧
    ((s.time.to now).elapsed < p.endAt → exec (.permitEnd n now) s = .next (s.at_ now))) ∧
  ∀ (s : State) (j now : Nat) (J : Job), s.memOf J = none →
    (s.job? j = some J → J.opcode = 0x9100 → J.phase = .placed → J.stepsEnded = true → J.released = 0 → s.policyRefused J.input = none →
      Completes (.policyUpdate j now) s fun t => Answered t j St.ok 0 ∧ t.auth.next = some (parsePolicy J.input)) ∧
    (∀ d, ServiceTurn s j J 0x9200 → s.auth.decisions.find? (fun d => d.orderId == J.param.toNat) = some d →
      s.writeFault J.dst (s.decisionBlock d).length = none → Completes (.queryOrder j) s fun t =>
        Answered t j St.ok 0 ∧ t.hostMem = memWriteN s.hostMem J.dst (s.decisionBlock d)) ∧
    (∀ P, ServiceTurn s j J 0x9400 → J.param = 0 → s.auth.running = some P → s.writeFault J.dst P.image.length = none →
      Completes (.queryPolicy j) s fun t => Answered t j St.ok P.image.length ∧ t.hostMem = memWriteN s.hostMem J.dst P.image) ∧
    (ServiceTurn s j J 0x9500 → s.writeFault J.dst 128 = none → Completes (.permitStatus j) s fun t =>
      Answered t j St.ok (s.pins.permit.toNat + 256 * s.pins.permitFb.toNat) ∧ t.hostMem = memWriteN s.hostMem J.dst s.permitBlock))

/-- R299, R318, R320, R322, R323: a policy update that fails a check is POLICY_DENY with the first reason and the running policy stays;
one that passes is pending, and its activation time is returned; its verifies are placed first, and while a LOAD_CHART has stopped
tile admission it waits; QUERY_ORDER returns the newest decision with the ORDER_ID,
QUERY_POLICY the running or pending image, and PERMIT_STATUS the 128 bytes of the lines, PERMIT and its readback. An order that is in order is taken, the decision that accepts
it raises its lines, and a line falls when its time has passed (R306, R314, R317). -/
def Obligations.PoliciesPendAndQueriesAnswer : Prop :=
  ∀ (s : State) (j now : Nat) (J : Job), s.memOf J = none →
    (ServiceTurn s j J 0x9100 → let u := s.at_ now
      let ask := u.serviceAsk 4 200 (allVerifies (policySigAt J.input) ((policyBlocks J.input).getD []))
      (s.chartStops = true → exec (.policyUpdate j now) s = .next u) ∧
      (s.chartStops = false →
        (∀ r, ask = .refuse r → Completes (.policyUpdate j now) s fun t =>
          Answered t j St.notAdmitted r ∧ t.auth = s.auth ∧ t.pins = s.pins) ∧
        (∀ steps units, ask = .place steps units → Completes (.policyUpdate j now) s fun t => t.auth = s.auth ∧ t.pins = s.pins ∧
          ∃ K, t.job? j = some K ∧ K.phase = .placed ∧ K.steps = steps ∧ K.units = units ∧ K.cls = 4 ∧
            K.accepted = some u.time.elapsed))) ∧
    (s.job? j = some J → J.opcode = 0x9100 → J.phase = .placed → J.stepsEnded = true → J.released = 0 → let u := s.at_ now
      (∀ r, s.policyRefused J.input = some r → Completes (.policyUpdate j now) s fun t =>
        Answered t j St.policyDeny r ∧ t.auth = s.auth ∧ t.pins = s.pins ∧
        (s.lc.state ≠ .owned → s.lc.state ≠ .deployed → r = 0x0230)) ∧
      (s.policyRefused J.input = none → Completes (.policyUpdate j now) s fun t => let P := parsePolicy J.input
        Answered t j St.ok 0 ∧ t.auth = { s.auth with next := some P } ∧ t.pins = s.pins ∧
        (∃ K, t.job? j = some K ∧ K.ret = le 8 (if P.activate ≤ u.helmTime then u.tickTime else P.activate)) ∧
        (s.lc.state = .owned ∨ s.lc.state = .deployed) ∧ s.auth.floor < leAt J.input 8 4)) ∧
    (let block := fun (cmd : Instr) (b : Bytes) (result : Nat) => s.writeFault J.dst b.length = none →
        Completes cmd s fun t => Answered t j St.ok result ∧ t.hostMem = memWriteN s.hostMem J.dst b ∧
          t.auth = s.auth ∧ t.pins = s.pins ∧ t.time = s.time
     (ServiceTurn s j J 0x9200 →
       (∀ d, s.auth.decisions.find? (fun d => d.orderId == J.param.toNat) = some d → block (.queryOrder j) (s.decisionBlock d) 0) ∧
       (s.auth.decisions.find? (fun d => d.orderId == J.param.toNat) = none →
         block (.queryOrder j) (le 8 J.param.toNat ++ zeros 88) 0)) ∧
     (ServiceTurn s j J 0x9400 → ∀ P, (if bitOf J.param.toNat 0 then s.auth.next else s.auth.running) = some P →
       block (.queryPolicy j) P.image P.image.length) ∧
     (ServiceTurn s j J 0x9500 → s.permitBlock.length = 128 ∧
       block (.permitStatus j) s.permitBlock (s.pins.permit.toNat + 256 * s.pins.permitFb.toNat))) ∧
    (let u := s.at_ now
     s.chartStops = false → s.logFrozen 3 = false → s.log.nearFull = false → j < s.nextSeq → ∀ P steps units, s.auth.running = some P →
      (∀ R, ServiceTurn s j J 0x9000 → wellFormedOrder J.input false = true → s.targetKnown J.input = true →
        P.rules.find? (s.ruleMatches J.input) = some R → R.deny = false →
        u.serviceAsk R.cls u.orderPost (u.orderPlan J.input P (some R)) = .place steps units → Completes (.submitOrder j now) s fun t =>
          ∃ o, tget t.auth.orders s.auth.nextOrder = some o ∧ o.job = some j ∧ o.envelope = J.input ∧ o.rule = some R) ∧
      (ServiceTurn s j J 0x9300 → wellFormedOrder J.input true = true →
        u.serviceAsk 3 u.orderPost (u.orderPlan J.input P none) = .place steps units → Completes (.timeSetOrder j now) s fun t =>
          ∃ o, tget t.auth.orders s.auth.nextOrder = some o ∧ o.job = some j ∧ o.envelope = J.input ∧ o.timeSet = true)) ∧
    (∀ (o : Nat) (x : Order) (W : Job) (R : Rule) (a : Accepted), let u := s.at_ now
      tget s.auth.orders o = some x → x.job = some j → x.console = none → s.job? j = some J → J.phase = .background → J.released = 0 →
      s.job? x.work = some W → W.phase = .placed → W.released = 0 → x.work ≠ j → s.faults.safe.on = false → J.dst = 0 →
      s.verifiesDone x = true → x.rule = some R → R.forward = false → u.decideOrder x R = .ok a →
      Completes (.decisionCommit o false now) s fun t =>
        t.pins = { s.pins with permit := s.pins.permit ||| R.permit } ∧ tget t.auth.orders o = none) ∧
    ∀ n p, n < 8 → tget s.auth.permits n = some p → p.endAt ≤ (s.time.to now).elapsed → Completes (.permitEnd n now) s fun t =>
      t.pins = { s.pins with permit := s.pins.permit &&& ~~~ (BitVec.ofNat 8 (2 ^ n)) } ∧ tget t.auth.permits n = none

/-! ### Partners and frames (14_partners_ports_time.md R326-R345) -/

/-- The context of a partner is where a job or a frame may use it: no session, or one in a slot that is not moving (R344, R345). -/
abbrev CtxReady (P : Partner) : Prop := P.session = none ∨ (P.inSlot = true ∧ P.moving = false)

/-- R334-R336, R339, R340, R342-R344, family 0xA: a registration in order takes the lowest free ID, a record out of order is MALFORMED
and a missing key KEY_INVALID; an unknown partner, no session, a role or a link that is down are POLICY_DENY with their reason;
SOUNDING_ACCEPT arms; a job with steps waits while a LOAD_CHART has stopped tile admission, and is NOT_ADMITTED with the Reckoner's
reason; SEND has its seal placed, and once that has ended hands every fragment to egress and returns their number and the first SEQ; RECEIVE takes a waiting
message or enters the pool; CLOSE_SESSION ends the session; DEREGISTER frees the ID when its scrub has ended. -/
def Obligations.PartnerJobsRegisterSendAndReceive : Prop :=
  ∀ (s : State) (j now : Nat) (J : Job),
    (ServiceTurn s j J 0xA000 → let P := partnerOf J.input
      (recordOk J.input J.fn (portsOf s.variant) = false → Completes (.registerPartner j) s fun t =>
        Answered t j St.malformed 0 ∧ t.partners = s.partners) ∧
      (recordOk J.input J.fn (portsOf s.variant) = true →
        (s.ownKey P.owner P.key 0x2002 .pub = none ∨ s.ownKey P.owner P.localKey 0x2002 .priv = none →
          Completes (.registerPartner j) s fun t => Answered t j St.keyInvalid 0 ∧ t.partners = s.partners) ∧
        ∀ K L, s.ownKey P.owner P.key 0x2002 .pub = some K → s.ownKey P.owner P.localKey 0x2002 .priv = some L →
          (K.usage.getLsbD 1 = false ∨ L.usage.getLsbD 0 = false → Completes (.registerPartner j) s fun t =>
            Answered t j St.policyDeny 0 ∧ t.partners = s.partners) ∧
          (∀ p, K.usage.getLsbD 1 = true → L.usage.getLsbD 0 = true → p < 2 ^ 24 → s.partner? p = none →
            (∀ q < p, (s.partner? q).isSome) → p ≤ s.partners.table.length → Completes (.registerPartner j) s fun t =>
              Answered t j St.ok p ∧ t.partner? p = some P ∧ ∀ q, q ≠ p → t.partner? q = s.partner? q))) ∧
    (∀ row ∈ [(Instr.deregisterPartner j, 0xA100, false), (.soundingInitiate j now, 0xA200, true), (.soundingAccept j, 0xA300, false),
        (.send j, 0xA400, true), (.rekey j now, 0xA600, true), (.closeSession j, 0xA700, false)], ServiceTurn s j J row.2.1 →
      (row.2.2 = true → s.chartStops = true → exec row.1 s = .next (if row.2.1 = 0xA400 then s else s.at_ now)) ∧
      ((row.2.2 = false ∨ s.chartStops = false) → s.partnerFor J = none →
        Completes row.1 s fun t => Answered t j St.policyDeny 0x0304 ∧ t.partners = s.partners)) ∧
    (ServiceTurn s j J 0xA500 → bitOf J.param.toNat 18 = false → s.partnerFor J = none →
      Completes (.receive j now) s fun t => Answered t j St.policyDeny 0x0304 ∧ t.partners = s.partners) ∧
    (∀ P, s.partnerFor J = some P →
      (ServiceTurn s j J 0xA100 → CtxReady P → (∀ h, P.hs = some h → h.job ≠ some j) → Completes (.deregisterPartner j) s fun t =>
        Answered t j St.ok 0 ∧ ∃ Q, t.partner? J.partner = some Q ∧ Q.scrub = true ∧ Q.armed = false ∧ Q.session = none ∧
          Q.old = none ∧ Q.hs = none ∧ ∀ q, q ≠ J.partner → t.partner? q = s.partner? q) ∧
      (ServiceTurn s j J 0xA300 → Completes (.soundingAccept j) s fun t => Answered t j St.ok 0 ∧
        t.partner? J.partner = some { P with armed := decide (J.param = 1) } ∧ ∀ q, q ≠ J.partner → t.partner? q = s.partner? q) ∧
      (∀ row ∈ [(Instr.soundingInitiate j now, 0xA200, false), (.rekey j now, 0xA600, true)], ServiceTurn s j J row.2.1 →
        s.chartStops = false →
        (row.2.2 = true → P.session = none → Completes row.1 s fun t => Answered t j St.policyDeny 0x0301 ∧ t.partners = s.partners) ∧
        (row.2.2 = false ∨ P.session.isSome →
          (s.roleFits P = false → Completes row.1 s fun t => Answered t j St.policyDeny 0x0302 ∧ t.partners = s.partners) ∧
          (s.roleFits P = true → (s.port P.port).link = false → Completes row.1 s fun t =>
            Answered t j St.policyDeny 0x0303 ∧ t.partners = s.partners) ∧
          (s.roleFits P = true → (s.port P.port).link = true → P.hs.isSome → exec row.1 s = .next (s.at_ now)) ∧
          (s.roleFits P = true → (s.port P.port).link = true → P.hs = none →
            (4096 ≤ s.handshakes → Completes row.1 s fun t => Answered t j St.ctxFull 0x0010 ∧ t.partners = s.partners) ∧
            (∀ r, s.handshakes < 4096 → CtxReady P →
              (s.at_ now).takeStep P.owner s.partners.hsClass J.partner 0 initPlan = .error r → Completes row.1 s fun t =>
                Answered t j St.notAdmitted r ∧ t.partners = s.partners) ∧
            (∀ v, s.handshakes < 4096 → CtxReady P → j < s.nextSeq →
              (s.at_ now).takeStep P.owner s.partners.hsClass J.partner 0 initPlan = .ok v → Completes row.1 s fun t =>
                (∃ K, t.job? j = some K ∧ K.phase = .background ∧ K.accepted = some (s.time.to now).elapsed) ∧
                (∃ W, t.job? s.nextSeq = some W ∧ W.phase = .placed ∧ W.fn = P.owner ∧ W.partner = J.partner ∧ W.src = .internal) ∧
                (∃ Q h, t.partner? J.partner = some Q ∧ Q.hs = some h ∧ h.initiator = true ∧ h.job = some j ∧
                  h.epoch = (P.lastEpoch + 1) % 256 ∧ h.initMsg.length = 1248 ∧ Q.session = P.session) ∧
                t.draws = s.draws + 128 ∧ ∀ q, q ≠ J.partner → t.partner? q = s.partner? q)))) ∧
      (ServiceTurn s j J 0xA400 → s.chartStops = false →
        (P.session = none → Completes (.send j) s fun t => Answered t j St.policyDeny 0x0301 ∧ t.partners = s.partners) ∧
        (∀ E, P.session = some E →
          (P.console = true ∨ s.roleFits P = false → Completes (.send j) s fun t =>
            Answered t j St.policyDeny 0x0302 ∧ t.partners = s.partners) ∧
          (P.console = false → s.roleFits P = true → (s.port P.port).link = false → Completes (.send j) s fun t =>
            Answered t j St.policyDeny 0x0303 ∧ t.partners = s.partners) ∧
          (P.console = false → s.roleFits P = true → (s.port P.port).link = true → CtxReady P →
            let ask := s.reckon (s.sendDemand J (fragMax (s.port P.port))) (s.deadlineUs J.cls) 0 0
            (∀ r, ask = .refuse r → Completes (.send j) s fun t => Answered t j St.notAdmitted r ∧ t.partners = s.partners) ∧
            (∀ steps units, ask = .place steps units → Completes (.send j) s fun t => t.partners = s.partners ∧
              ∃ K, t.job? j = some K ∧ K.phase = .placed ∧ K.steps = steps ∧ K.units = units ∧ K.input = J.input ∧
                K.accepted = some s.time.elapsed)))) ∧
      (ServiceTurn s j J 0xA700 →
        (P.session = none → Completes (.closeSession j) s fun t => Answered t j St.policyDeny 0x0301 ∧ t.partners = s.partners) ∧
        (P.session.isSome → CtxReady P → (∀ h, P.hs = some h → h.job ≠ some j) → Completes (.closeSession j) s fun t =>
          Answered t j St.ok 0 ∧ ∃ Q, t.partner? J.partner = some Q ∧ Q.session = none ∧ Q.old = none ∧ Q.hs = none ∧ Q.inSlot = false))) ∧
    (ServiceTurn s j J 0xA500 → (bitOf J.param.toNat 18 = true ∨ (s.partnerFor J).isSome) →
      (s.waitingFor J = none → s.poolCount J.fn < 4096 → exec (.receive j now) s =
        .next ((s.at_ now).modJob j fun J => { J with phase := .pooled })) ∧
      (s.waitingFor J = none → 4096 ≤ s.poolCount J.fn → exec (.receive j now) s = .next (s.at_ now)) ∧
      (∀ o p q msg a, s.waitingFor J = some (o, p, q, msg, a) → s.memOf J = none → s.writeFault J.dst msg.length = none →
        Completes (.receive j now) s fun t => Answered t j St.ok msg.length ∧ (∃ K, t.job? j = some K ∧ K.ret = le 4 p ++ le 8 q) ∧
          t.hostMem = memWriteN s.hostMem J.dst msg ∧ (t.fn o).backlog = (s.fn o).backlog.erase (p, q, msg, a))) ∧
    (∀ P, s.job? j = some J → J.opcode = 0xA400 → J.phase = .placed → J.stepsEnded = true → J.released = 0 → s.partner? J.partner = some P →
      (P.session = none → Completes (.send j) s fun t => Answered t j St.policyDeny 0x0301 ∧ t.partners = s.partners) ∧
      (∀ E, P.session = some E → Completes (.send j) s fun t =>
        let n := (fragments (fragMax (s.port P.port)) J.input).length
        Answered t j St.ok n ∧ (∃ K, t.job? j = some K ∧ K.ret = le 8 E.nextSeq) ∧
        (∃ Q E', t.partner? J.partner = some Q ∧ Q.session = some E' ∧ E'.nextSeq = E.nextSeq + n ∧
          E'.nextMsg = (E.nextMsg + 1) % 2 ^ 32 ∧ E'.keyOut = E.keyOut) ∧ ∀ q, q ≠ J.partner → t.partner? q = s.partner? q)) ∧
    ∀ p P, p < 2 ^ 24 → s.partner? p = some P →
      (P.scrub = true → P.dead = false → Completes (.partnerScrubComplete p now) s fun t => t.partner? p = none ∧
        t = { s with time := s.time.to now, partners := t.partners } ∧ ∀ q, q ≠ p → t.partner? q = s.partner? q) ∧
      (P.moving = true → Completes (.contextSpillDone p true now) s fun t => t.partner? p = some { P with moving := false, moveNs := 0 } ∧
        t = { s with time := s.time.to now, partners := t.partners }) ∧
      (P.moving = true → Completes (.contextSpillDone p false now) s fun t =>
        (∃ Q, t.partner? p = some Q ∧ Q.session = none ∧ Q.old = none ∧ Q.moving = false) ∧
        ∀ n, n = 194 + 16 * s.portOf 1 p → (t.src n).total = satAdd 32 (s.src n).total 1)

/-- `i` is the next frame of a type, of partner `P`, whose context may be used; `u` is the device once it is taken (R345). -/
abbrev NextFrame (s : State) (ty now : Nat) (i : Ingress) (P : Partner) (u : State) : Prop :=
  s.pickFrame ty [] s.partners.ingress = some i ∧ s.partner? i.partner = some P ∧ s.faults.safe.on = false ∧ P.usable = true ∧
  CtxReady P ∧ s.chartStops = false ∧ u = ((s.at_ now).untake i).modPartner i.partner fun P => { P with used := (s.time.to now).elapsed }

/-- The frame's decryption is admitted, which leaves `w`, and it opens under a session's key to `m`, one whole message (R332, R340,
R341, R343). -/
abbrev OpensTo (u : State) (i : Ingress) (P : Partner) (w : State) (E : Epoch) (m : Bytes) : Prop :=
  u.takeOpen i P = .ok w ∧ P.epoch? (hdrEpoch i.frame) = some E ∧
  gcmOpen E.keyIn (frameNonce E.ivIn (hdrSeq i.frame)) (i.frame.take 24) (i.frame.drop 24) = some m ∧ E.fresh (hdrSeq i.frame) = true ∧
  hdrCount i.frame = 1 ∧ P.reas = none

/-- R326, R327, R330-R334, R340, R341, R343, R351: a frame is dropped and counted by the first check that fails, and changes nothing
else; one that passes waits for its type; a sealed frame whose step is refused, whose tag fails or whose SEQ is a replay is
counted under CAPACITY, TAG or REPLAY; a DATA message goes to the oldest RECEIVE, else to the backlog of 256 KiB, else it is
counted under NO_RECEIVE; ORDER, RESPONSE and CLOSE reach the authority service and the session. -/
def Obligations.IncomingFramesAreCheckedInOrder : Prop :=
  (∀ (s : State) (p now : Nat) (f : WireFrame), let u := s.at_ now
    p < 4 → s.receives p = true →
    (f.fcsOk = false → exec (.fieldFrameReceived p f now) s = .next (u.drop p 0)) ∧
    (f.fcsOk = true → isPtp f.bytes = false →
      (s.arrive p f.bytes = none → exec (.fieldFrameReceived p f now) s = .next (u.drop p 1)) ∧
      ∀ a, s.arrive p f.bytes = some a →
        (lengthOk a = false → exec (.fieldFrameReceived p f now) s = .next (u.drop p 2)) ∧
        (lengthOk a = true → formatOk a.body = false → exec (.fieldFrameReceived p f now) s = .next (u.drop p 3)) ∧
        (lengthOk a = true → formatOk a.body = true → s.attributed p a = none → exec (.fieldFrameReceived p f now) s = .next (u.drop p 4)) ∧
        ∀ P, lengthOk a = true → formatOk a.body = true → s.attributed p a = some P →
          let ty := envType a.body
          let role := (typesIn (s.port p).role).contains ty = true ∧ s.roleFits P = true ∧ s.roleChanging p = false
          (¬ role → exec (.fieldFrameReceived p f now) s = .next (u.drop p 5)) ∧
          (role → P.knowsEpoch ty (hdrEpoch a.body) = false → exec (.fieldFrameReceived p f now) s = .next (u.drop p 6)) ∧
          (role → P.knowsEpoch ty (hdrEpoch a.body) = true → s.faults.safe.on = true →
            exec (.fieldFrameReceived p f now) s = .next (u.drop p 14)) ∧
          (role → P.knowsEpoch ty (hdrEpoch a.body) = true → s.faults.safe.on = false → exec (.fieldFrameReceived p f now) s =
            .next { u with partners := { s.partners with ingress := s.partners.ingress ++
              [{ port := p, partner := hdrPartner a.body, frame := a.body.take (leAt a.body 2 2), at_ := u.time.elapsed }] } }))) ∧
  (∀ (s : State) (now : Nat) (i : Ingress) (P : Partner) (u : State),
    ∀ row ∈ [(Instr.dataFrame now, 0x10), (.orderFrame now, 0x11), (.responseFrame now, 0x14), (.closeFrame now, 0x21)],
    (s.chartStops = true ∨ s.pickFrame row.2 [] s.partners.ingress = none → exec row.1 s = .next (s.at_ now)) ∧
    (NextFrame s row.2 now i P u →
      let b := i.frame
      (∀ r, u.takeOpen i P = .error r → exec row.1 s = .next (u.refuseFrame i.port r)) ∧
      ∀ w E, u.takeOpen i P = .ok w → P.epoch? (hdrEpoch b) = some E →
        (gcmOpen E.keyIn (frameNonce E.ivIn (hdrSeq b)) (b.take 24) (b.drop 24) = none → exec row.1 s = .next (w.drop i.port 8)) ∧
        (∀ m, gcmOpen E.keyIn (frameNonce E.ivIn (hdrSeq b)) (b.take 24) (b.drop 24) = some m → E.fresh (hdrSeq b) = false →
          exec row.1 s = .next (w.drop i.port 9)))) ∧
  ∀ (s : State) (now : Nat) (i : Ingress) (P : Partner) (u w : State) (E : Epoch) (m : Bytes),
    let v := w.modPartner i.partner fun P => P.putEpoch (E.accept (hdrSeq i.frame))
    (NextFrame s 0x10 now i P u → OpensTo u i P w E m →
      (∀ j J, w.poolFor P.owner i.partner m.length = some j → w.job? j = some J → J.phase = .pooled → J.released = 0 → s.memOf J = none →
        s.writeFault J.dst m.length = none → Completes (.dataFrame now) s fun t => Answered t j St.ok m.length ∧
          (∃ K, t.job? j = some K ∧ K.ret = le 4 i.partner ++ le 8 (hdrSeq i.frame) ∧ K.accepted = some (s.time.to now).elapsed) ∧
          t.hostMem = memWriteN s.hostMem J.dst m ∧ t.partners = v.partners) ∧
      (w.poolFor P.owner i.partner m.length = none → (s.fn P.owner).backlogBytes + m.length ≤ 262144 →
        exec (.dataFrame now) s = .next (v.modFn P.owner fun F => { F with
          backlog := F.backlog ++ [(i.partner, hdrSeq i.frame, m, (s.time.to now).elapsed)] })) ∧
      (w.poolFor P.owner i.partner m.length = none → 262144 < (s.fn P.owner).backlogBytes + m.length →
        exec (.dataFrame now) s = .next (v.drop i.port 14))) ∧
    (NextFrame s 0x11 now i P u → OpensTo u i P w E m → Completes (.orderFrame now) s fun t =>
      (s.auth.running = none → wellFormedOrder m (envClass m == 0) = true → ∃ D rest, t.auth.decisions = D :: rest ∧
        D.reason = 0x0203 ∧ D.console = some i.partner) ∧ t.pins = s.pins ∧ t.hostMem = s.hostMem) ∧
    (NextFrame s 0x14 now i P u → OpensTo u i P w E m → (s.fn P.owner).backlogBytes + m.length ≤ 262144 →
      (s.auth.decisions.find? ((s.at_ now).answers i.partner m) = none → exec (.responseFrame now) s = .next v) ∧
      (∀ d, m.length = 24 + leAt m 20 4 → leAt m 20 4 ≤ 4096 → leAt m 18 2 = 0 →
        s.auth.decisions.find? ((s.at_ now).answers i.partner m) = some d → Completes (.responseFrame now) s fun t =>
        t.auth.decisions = s.auth.decisions.map (fun x => if x = d then
          { x with state := 5, respStat := leAt m 16 2, respTime := (s.at_ now).helmTime, respDig := sha384 (m.drop 24) } else x) ∧
        t.pins = s.pins)) ∧
    (NextFrame s 0x21 now i P u → OpensTo u i P w E m → Completes (.closeFrame now) s fun t =>
      ∃ Q, t.partner? i.partner = some Q ∧ Q.session = none ∧ Q.old = none ∧ Q.hs = none ∧ (P.hs = none → t.hostMem = s.hostMem))

/-- R337-R339, R342, R344: an INIT to a partner that is neither armed nor auto-accepting is counted; an armed one draws its values,
computes the keys and waits as responder; a REPLY and a FINISH whose signature verifies make the session live under the keys
of R338 with the old epoch kept for one second, and one whose signature does not verify ends the handshake; messages are sent
again after 250 ms at most three times, keys end at 24 h, and an old epoch at the end of its second. -/
def Obligations.SoundingMakesSessionsAndTimersEndThem : Prop :=
  (∀ (s : State) (now : Nat) (i : Ingress) (P : Partner) (u : State),
    hdrCount i.frame = 1 → P.reas = none →
    let msg := i.frame.drop 24
    let e := hdrEpoch i.frame
    (NextFrame s 0x01 now i P u → msg.length = 1248 →
      (P.armed = false → P.autoAccept = false → exec (.initFrame now) s = .next (u.drop i.port 11)) ∧
      (P.armed = true ∨ P.autoAccept = true → P.hs = none →
        (4096 ≤ u.handshakes → exec (.initFrame now) s = .next (u.drop i.port 12)) ∧
        (∀ r, u.handshakes < 4096 → u.takeStep P.owner u.partners.hsClass i.partner 1248 replyPlan = .error r →
          exec (.initFrame now) s = .next (u.refuseFrame i.port r)) ∧
        (∀ w lk pk, u.handshakes < 4096 → u.takeStep P.owner u.partners.hsClass i.partner 1248 replyPlan = .ok w →
          u.partnerKeys P = some (lk, pk) →
          let x := pairOf 0x5701 (drbgBytes s.draws 32)
          allZero (montgomery 0x5701 x.sk (sliceOf msg 1184 32)) = false → Completes (.initFrame now) s fun t =>
            t.draws = s.draws + 128 ∧ ∃ Q h, t.partner? i.partner = some Q ∧ Q.hs = some h ∧ h.initiator = false ∧ h.epoch = e ∧
              h.initMsg = msg ∧ h.replyMsg.length = 4461 ∧ h.okm.length = 88 ∧ Q.session = P.session ∧ Q.lastEpoch = e))) ∧
    (∀ h, NextFrame s 0x02 now i P u → P.hs = some h → h.initiator = true → h.epoch = e → msg.length = 4461 →
      (∀ r, u.takeStep P.owner u.partners.hsClass i.partner 4461 finishPlan = .error r →
        exec (.replyFrame now) s = .next (u.refuseFrame i.port r)) ∧
      ∀ w lk pk, u.takeStep P.owner u.partners.hsClass i.partner 4461 finishPlan = .ok w → u.partnerKeys P = some (lk, pk) →
      let th := sha384 (h.initMsg ++ msg.take 1152)
      let ssK := prim (.decaps 0x1002) [h.secret.take (skLen 0x1002), msg.take 1088] 32
      let ssX := montgomery 0x5701 (h.secret.drop (skLen 0x1002)) (sliceOf msg 1088 32)
      let signed := mlDsaOk 0x2002 pk (ascii "psibuaz-sounding") th (msg.drop 1152)
      allZero ssX = false →
      (signed = false → Completes (.replyFrame now) s fun t =>
        (∃ Q, t.partner? i.partner = some Q ∧ Q.hs = none ∧ Q.session = P.session) ∧
        ∀ j J, h.job = some j → j < s.nextSeq → s.job? j = some J → J.phase = .background → J.released = 0 → Answered t j St.verifyFail 0) ∧
      (signed = true → P.inSlot = true → Completes (.replyFrame now) s fun t =>
        let okm := kmac256 (ssK ++ ssX) th (ascii "psibuaz-sounding") 88
        t.draws = s.draws + 32 ∧
        (∃ Q E, t.partner? i.partner = some Q ∧ Q.hs = none ∧ Q.session = some E ∧ E.num = e ∧ E.keyOut = okm.take 32 ∧
          E.keyIn = sliceOf okm 32 32 ∧ E.ivOut = sliceOf okm 64 12 ∧ E.ivIn = sliceOf okm 76 12 ∧
          Q.old = P.session.map fun X => (X, (s.time.to now).elapsed + 1000000000)) ∧
        ∀ j J, h.job = some j → j < s.nextSeq → s.job? j = some J → J.phase = .background → J.released = 0 → Answered t j St.ok 0)) ∧
    (∀ h m w x, NextFrame s 0x03 now i P u → P.hs = some h → h.initiator = false → h.epoch = e → u.takeOpen i P = .ok w →
      w.takeStep P.owner w.partners.hsClass i.partner m.length (opsPlan [(0x2202, true)]) = .ok x →
      gcmOpen (h.okm.take 32) (frameNonce (sliceOf h.okm 64 12) (hdrSeq i.frame)) (i.frame.take 24) (i.frame.drop 24) = some m →
      ∀ lk pk, u.partnerKeys P = some (lk, pk) →
      let th := sha384 (h.initMsg ++ h.replyMsg.take 1152)
      let signed := mlDsaOk 0x2002 pk (ascii "psibuaz-sounding") (sha384 (th ++ h.replyMsg.drop 1152)) m
      (signed = false → Completes (.finishFrame now) s fun t =>
        ∃ Q, t.partner? i.partner = some Q ∧ Q.hs = none ∧ Q.session = P.session) ∧
      (signed = true → P.inSlot = true → Completes (.finishFrame now) s fun t =>
        ∃ Q E, t.partner? i.partner = some Q ∧ Q.hs = none ∧ Q.session = some E ∧ E.num = e ∧ E.keyIn = h.okm.take 32 ∧
          E.keyOut = sliceOf h.okm 32 32 ∧ E.ivIn = sliceOf h.okm 64 12 ∧ E.ivOut = sliceOf h.okm 76 12))) ∧
  ∀ (s : State) (p now : Nat) (P : Partner), p < 2 ^ 24 → s.partner? p = some P → let T := (s.time.to now).elapsed
    (∀ h, P.hs = some h →
      (T < h.sentAt + 250000000 → exec (.handshakeRetransmit p now) s = .next (s.at_ now)) ∧
      (h.sentAt + 250000000 ≤ T → h.tries < 3 → Completes (.handshakeRetransmit p now) s fun t =>
        t.partner? p = some { P with hs := some { h with tries := h.tries + 1, sentAt := T } }) ∧
      (h.sentAt + 250000000 ≤ T → 3 ≤ h.tries → Completes (.handshakeRetransmit p now) s fun t =>
        t.partner? p = some { P with hs := none } ∧
        ∀ j J, h.job = some j → s.job? j = some J → J.phase = .background → J.released = 0 → Answered t j St.aborted 1)) ∧
    (∀ r, P.reas = some r → r.firstAt + 100000000 ≤ T → Completes (.reassemblyTimeout p now) s fun t =>
      t.partner? p = some { P with reas := none } ∧ t = { s with time := s.time.to now, partners := t.partners, regs := t.regs }) ∧
    (∀ E, P.session = some E →
      (E.live + 86400 * 10 ^ 9 ≤ T → Completes (.epochExpiry p now) s fun t =>
        (∃ Q, t.partner? p = some Q ∧ Q.session = none ∧ Q.old = none ∧ Q.hs = P.hs) ∧
        t = { s with time := s.time.to now, partners := t.partners }) ∧
      (E.live + 82800 * 10 ^ 9 ≤ T → P.usable = true → P.hs = none → s.roleFits P = true → (s.port P.port).link = true →
        s.handshakes < 4096 → s.faults.safe.on = false → s.chartStops = false →
        (∃ w, (s.at_ now).takeStep P.owner s.partners.hsClass p 0 initPlan = .ok w) →
        P.inSlot = true → P.moving = false → Completes (.rekeyTimer p now) s fun t =>
          t.draws = s.draws + 128 ∧ ∃ Q h, t.partner? p = some Q ∧ Q.hs = some h ∧ h.initiator = true ∧ h.job = none ∧
            h.epoch = (P.lastEpoch + 1) % 256 ∧ Q.session = P.session) ∧
      (T < E.live + 82800 * 10 ^ 9 → E.frames < 2 ^ 31 → exec (.rekeyTimer p now) s = .next (s.at_ now) ∧
        exec (.epochExpiry p now) s = .next (s.at_ now))) ∧
    (∀ E g, P.old = some (E, g) → g ≤ T → Completes (.oldEpochGraceEnd p now) s fun t =>
      t.partner? p = some { P with old := none } ∧ t = { s with time := s.time.to now, partners := t.partners }) ∧
    (∀ f ≤ 0x100, (s.fn f).backlog = [] → Completes (.noReceiveTimeout f now) s fun t => (t.fn f).backlog = [] ∧
      t = { s with time := s.time.to now, fns := t.fns }) ∧
    (∀ f ≤ 0x100, ∀ q msg, (s.fn f).backlog = [(p, q, msg, 0)] → 100000000 ≤ T → Completes (.noReceiveTimeout f now) s fun t =>
      (t.fn f).backlog = [] ∧ t = { (s.at_ now).drop P.port 14 with fns := t.fns }) ∧
    (∀ k < portsOf s.variant, s.partners.mode1 = false → (s.port k).role ≠ 0 → (s.port k).stopped = false →
      exec (.fieldPortLinkUp k now) s = .next (((s.at_ now).modPort k fun P => { P with link := true }).sendWaiting k))

/-! ### Function resets (11_functions_and_sharing.md R266-R271; 16, R387; 22, R494) -/

/-- No index of a table is listed twice. -/
abbrev Listed {α : Type} (t : Table α) : Prop := ∀ e ∈ t, tget t e.1 = some e.2

/-- R268-R271: an FLR stops the queues of its function, ends each of its jobs that is not executing with ABORTED and asks each that is
to stop at its next safe point, destroys its session keys and makes its partners unusable, writing nothing to the host; when it
ends, its jobs and queues are gone and PF0 is told of a VF's; the scrub frees the partner IDs. Hot Reset and D3hot entry act as
an FLR of PF0, which takes every VF with it, leaves queue 0 and frees PF0's locks. -/
def Obligations.FunctionResetsEndTheirFunctionOnly : Prop :=
  (∀ (s : State) (f now : Nat), 1 ≤ f → f < 0x100 →
    ((s.fn f).enabled = true → (s.fn f).flr = false → Completes (.vfFlr f now) s fun t =>
      (t.fn f).flr = true ∧ (t.fn f).backlog = [] ∧ (t.fn f).held = [] ∧ (t.fn f).quiesce = none ∧
      (t.fn f).shares = (s.fn f).shares ∧ (t.fn f).maxQueues = (s.fn f).maxQueues ∧
      (∀ q Q, tget s.queues q = some Q → Q.fn = f → Q.mode ≠ .absent → (t.queue q).mode = .quiescing) ∧
      (∀ j J, s.job? j = some J → J.fn = f → J.src ≠ .internal → J.phase ≠ .ended → J.phase ≠ .delayed → J.isRunning = false → J.atEnd = false →
        ∃ K, t.job? j = some K ∧ K.phase = .ended ∧ K.status = St.aborted ∧ K.out = none) ∧
      (∀ i K, s.key? i = some K → K.owner = f → K.persistent = false → t.key? i = none) ∧
      (Listed s.keys.live → ∀ i K, s.key? i = some K → K.owner ≠ f ∨ K.persistent = true →
        ∃ K', t.key? i = some K' ∧ K' = { K with hbs := K'.hbs }) ∧
      (∀ p P, s.partner? p = some P → P.owner = f → ∃ Q, t.partner? p = some Q ∧ Q.dead = true ∧ Q.session = none ∧ Q.hs = none) ∧
      (∀ p P, s.partner? p = some P → P.owner ≠ f → t.partner? p = some P) ∧
      t.hostMem = s.hostMem ∧ t.pins = s.pins ∧ t.faults = s.faults ∧ t.auth = s.auth) ∧
    ((s.fn f).enabled = false ∨ (s.fn f).flr = true → exec (.vfFlr f now) s = .next (s.at_ now))) ∧
  (∀ (s : State) (now : Nat),
    (Completes (.vfEnableClear now) s fun t => t.host.numVfs = 0 ∧
      ∀ f F, 0 < f → f < 0x100 → tget s.fns f = some F → F.enabled = true → (t.fn f).enabled = false ∧ (t.fn f).flr = true) ∧
    ∀ row ∈ [(Instr.hotReset now, false), (.pf0Flr now, false), (.d3hotEntry now, true)], (s.fn 0).flr = false →
      Completes row.1 s fun t => (t.fn 0).flr = true ∧ t.host.numVfs = 0 ∧ (∀ k, tget t.service.locks k ≠ some 9) ∧
        t.host.d3hot = (s.host.d3hot || row.2) ∧ t.faults = s.faults ∧ t.pins = s.pins ∧ t.chart = s.chart ∧
        ((∀ e ∈ s.queues, e.1 = 0 → e.2.fn = 0) → (t.queue 0).mode = (s.queue 0).mode) ∧
        (∀ i K, s.key? i = some K → K.owner = 0 → K.persistent = false → t.key? i = none) ∧
        ∀ f F, 0 < f → f < 0x100 → tget s.fns f = some F → F.enabled = true → (t.fn f).enabled = false ∧ (t.fn f).flr = true) ∧
  ∀ (s : State) (f now : Nat), f < 0x100 →
    ((s.fn f).flr = true → (∀ e ∈ s.jobs, e.2.bg = none) → Completes (.flrComplete f now) s fun t =>
      (t.fn f).flr = false ∧ (t.fn f).flrDone = true ∧ (t.fn f).scrub = true ∧ (t.fn f).ctrl = 0 ∧
      (∀ j J, s.job? j = some J → J.fn = f → J.src ≠ .internal → (f ≠ 0 ∨ J.admin = false) → t.job? j = none) ∧
      (∀ q Q, tget s.queues q = some Q → Q.fn = f → (f ≠ 0 ∨ q ≠ 0) → Q.isModule = none → Listed s.queues → (t.queue q).mode = .absent) ∧
      (f ≠ 0 → bitOf (t.reg 0x1004) 1 = true)) ∧
    ((s.fn f).flr = false → exec (.flrComplete f now) s = .next (s.at_ now)) ∧
    ((s.fn f).scrub = true → (s.fn f).flr = false → Completes (.vfScrubComplete f now) s fun t => (t.fn f).scrub = false ∧
      (Listed s.partners.table → ∀ p P, s.partner? p = some P → P.owner = f → P.dead = true → t.partner? p = none) ∧
      (Listed s.partners.table → ∀ p P, s.partner? p = some P → P.owner ≠ f → t.partner? p = some P) ∧ t.keys.live = s.keys.live)

/-! ### Time (14_partners_ports_time.md R346-R350) -/

/-- R346, R348, R349: a correction is applied only under SOURCE 2 and within the step bound over the last hour, forward at once and
backward as a slew of 1,000 ppm, and is otherwise counted in ALM.REFUSED; ALM.SET moves an untrusted Almanac forward only, and is
discarded under SIGNED_ONLY; STEP_BOUND and ADJ_FREQ keep their ranges; a change of source starts lock again. R346, R347, R349, R350: eight edges within 100 ns lock SOURCE 1, and one more than 1 µs off or three missed lose it; PPS_OUT stays
high for 100 ms from a second boundary; the checkpoint is the Almanac of its moment; a received PTP message takes the lowest
free buffer with its port's timestamp and length, or is counted under ALIEN, or under ROLE while the port's role changes; a
transmit buffer that is sent sets TX_DONE, and one whose port cannot send waits. -/
def Obligations.AlmanacIsCorrectedWithinItsBounds : Prop :=
  (∀ s : State, s.barOn 0 = true → let T := s.time
    let refusedOnce := s.bump 0x9002C
    (∀ v : BitVec 32, let n := v.toNat % 4
      (n = 3 ∨ n = T.source → exec (.almSource v) s = .next s) ∧
      (n ≠ 3 → n ≠ T.source → Completes (.almSource v) s fun t =>
        t.time = { T with source := n, locked := false, lockRun := 0, lastAdj := none, servo := .none } ∧ t.pins = s.pins ∧
        t.auth = s.auth)) ∧
    exec .signedOnly s = .next { s with time := { T with signedOnly := true } } ∧
    (∀ v : BitVec 64, let m := v.toInt.natAbs
      let spent := ((recentCorrections T).map (·.2)).sum
      (T.source ≠ 2 ∨ T.stepBound < spent + m → exec (.almAdjOffset v) s = .next refusedOnce) ∧
      (T.source = 2 → spent + m ≤ T.stepBound → Completes (.almAdjOffset v) s fun t =>
        (0 ≤ v.toInt → t.time.almanac = T.almanac + m ∧ t.time.slew = T.slew) ∧
        (v.toInt < 0 → t.time.almanac = T.almanac ∧ (T.slew = .none → t.time.slew = .lose 1000 m 0)) ∧
        t.time.accepted = (T.elapsed, m) :: recentCorrections T ∧ t.time.elapsed = T.elapsed ∧
        (10000 < m → t.time.locked = false ∧ t.time.trusted = T.trusted) ∧
        (T.locked = false → 15 ≤ T.lockRun → m ≤ 1000 → (∀ l, T.lastAdj = some l → l + 100000000 ≤ T.elapsed) →
          t.time.locked = true ∧ t.time.trusted = (T.trusted || !T.signedOnly)))) ∧
    (∀ v : BitVec 32, (v.toInt.natAbs ≤ 100000 → exec (.almAdjFreq v) s = .next { s with time := { T with adjFreq := v.toInt } }) ∧
      (100000 < v.toInt.natAbs → exec (.almAdjFreq v) s = .next refusedOnce)) ∧
    (∀ v : BitVec 64,
      (T.signedOnly = true → exec (.almSet v) s = .next s) ∧
      (T.signedOnly = false → (T.trusted = true ∨ v.toNat < T.almanac) → exec (.almSet v) s = .next refusedOnce) ∧
      (T.signedOnly = false → T.trusted = false → T.almanac ≤ v.toNat → Completes (.almSet v) s fun t =>
        t.time = { T with almanac := v.toNat, slew := .none, servo := .none }.sync ∧ t.pins = s.pins ∧ t.auth = s.auth)) ∧
    (∀ v : BitVec 32, let n := v.toNat
      (n < 1000 ∨ 1000000000 < n → exec (.almStepBound v) s = .next s) ∧
      (1000 ≤ n → n ≤ 1000000000 → T.trusted = true → exec (.almStepBound v) s = .next refusedOnce) ∧
      (1000 ≤ n → n ≤ 1000000000 → T.trusted = false → Completes (.almStepBound v) s fun t => t.time = { T with stepBound := n }))) ∧
  (∀ (s : State) (now : Nat), let T := s.time.to now
    let u := s.at_ now
    (∀ e : Int,
      (T.source ≠ 1 → exec (.ppsInEdge e now) s = .next { u with time := { T with ppsErr := e } }) ∧
      (T.source = 1 → Completes (.ppsInEdge e now) s fun t => t.time.ppsErr = e ∧ t.time.almanac = T.almanac ∧
        (e.natAbs ≤ 100 → t.time.lockRun = T.lockRun + 1) ∧ (100 < e.natAbs → t.time.lockRun = 0) ∧
        (1000 < e.natAbs → t.time.locked = false) ∧
        (100 < e.natAbs → e.natAbs ≤ 1000 → t.time.locked = T.locked) ∧
        (e.natAbs ≤ 100 → T.locked = false → (7 ≤ T.lockRun ↔ t.time.locked = true)) ∧
        (T.locked = false → t.time.locked = true → t.time.trusted = (T.trusted || !T.signedOnly)))) ∧
    exec (.ppsLockLoss now) s = .next (if T.source = 1 then { u with time := { T with locked := false, lockRun := 0 } } else u) ∧
    exec (.almanacCheckpoint now) s = .next { u with time := { T with checkpoint := T.almanac } } ∧
    (∀ k c, T.slew = .lose k 0 c → exec (.almanacSlewEnd now) s = .next { u with time := { T with slew := .none } }) ∧
    (∀ k r c, T.slew = .lose k (r + 1) c → exec (.almanacSlewEnd now) s = .next u) ∧
    (T.ppsOut = false → T.almanac % 1000000000 < 100000000 → exec (.ppsOut now) s = .next { u with time := { T with
      ppsOut := true, ppsFall := T.elapsed + (100000000 - T.almanac % 1000000000) } }) ∧
    (T.ppsOut = true → T.ppsFall ≤ T.elapsed → exec (.ppsOut now) s = .next { u with time := { T with ppsOut := false } }) ∧
    (∀ p f, p < 4 → s.receives p = true → isPtp f = true → s.roleChanging p = true → exec (.ptpRx p f now) s = .next (u.drop p 5)) ∧
    (∀ p f, p < 4 → s.receives p = true → isPtp f = true → s.roleChanging p = false → let P := s.port p
      (P.rxFull = 0xFF#8 → exec (.ptpRx p f now) s = .next (u.drop p 1)) ∧
      (∀ b < 8, P.rxFull.getLsbD b = false → (∀ i < b, P.rxFull.getLsbD i = true) → f.length ≤ 246 → Completes (.ptpRx p f now) s fun t =>
        (t.port p).rxFull = P.rxFull ||| BitVec.ofNat 8 (2 ^ b) ∧
        (∃ m, tget (t.port p).rx b = some m ∧ m.length = 256 ∧ leAt m 0 8 = T.replica p % 2 ^ 64 ∧ leAt m 8 2 = f.length ∧
          sliceOf m 10 f.length = f) ∧ ∀ q, q ≠ p → t.port q = s.port q)) ∧
    ∀ p b, p < 4 → b < 4 →
      (s.egressOn p = false → exec (.txGo p b now) s = .next (u.modPort p fun P => { P with txGo := P.txGo ||| BitVec.ofNat 4 (2 ^ b) })) ∧
      (s.egressOn p = true → Completes (.txGo p b now) s fun t =>
        (t.port p).txDone = (s.port p).txDone ||| BitVec.ofNat 4 (2 ^ b) ∧
        ((s.port p).oneStep.getLsbD b = false → tget (t.port p).txTs b = some (T.replica p) ∧
          Output.frame p (txFrame ((tget (s.port p).tx b).getD (zeros 256))) ∈ t.outbox)))

/-! ### The logbook (15_logbook_attestation.md R353-R361) -/

/-- R354-R357, R360, R361: an open register without reservations rolls at once to SHA-384 of "psibuaz-epoch", its value, its count and
the new epoch, with count 0; with reservations the roll waits; a device register or the last epoch does not roll; a new owner
counts at once and its record extends the register unless that is full; records are exported in order while the ring has room;
an index past the tail sets the error and is not stored; a region size below 256 MiB is discarded. -/
def Obligations.LogbookRollsOwnersAndExport : Prop :=
  ∀ s : State, s.barOn 0 = true →
    (∀ v : BitVec 32, let r := v.toNat % 64
      let L := s.logReg r
      (r < 16 ∨ L.epoch = 0xFFFF → exec (.logRoll v) s = .next s) ∧
      (16 ≤ r → L.epoch ≠ 0xFFFF → L.barrier = [] → L.reserved = [] → Completes (.logRoll v) s fun t =>
        (t.logReg r).value = sha384 (ascii "psibuaz-epoch" ++ L.value ++ le 4 L.count ++ le 2 (L.epoch + 1)) ∧
        (t.logReg r).count = 0 ∧ (t.logReg r).epoch = L.epoch + 1 ∧ (t.logReg r).owner = L.owner ∧
        ∀ q, q ≠ r → t.logReg q = s.logReg q) ∧
      (16 ≤ r → L.epoch ≠ 0xFFFF → L.barrier = [] → L.reserved ≠ [] →
        exec (.logRoll v) s = .next (s.modLog r fun L => { L with barrier := [(L.reserved, .roll)] }))) ∧
    (∀ r, r < 64 → ∀ v : BitVec 32, let L := s.logReg r
      let new := v.toNat % 512
      (r < 16 → exec (.logOwner r v) s = .next s) ∧
      (16 ≤ r → L.barrier = [] → L.reserved = [] → Completes (.logOwner r v) s fun t =>
        (t.logReg r).owner = new ∧ (t.logReg r).epoch = L.epoch ∧
        (L.count ≠ 0xFFFFFFFF → (t.logReg r).value = sha384 (L.value ++ (le 2 L.owner ++ le 2 new)) ∧ (t.logReg r).count = L.count + 1) ∧
        (L.count = 0xFFFFFFFF → (t.logReg r).value = L.value ∧ (t.logReg r).count = L.count) ∧
        ∀ q, q ≠ r → t.logReg q = s.logReg q)) ∧
    (∀ now a rest, s.log.records = a :: rest →
      let slot := s.log.base + 256 * (s.log.tail.toNat % 2 ^ s.log.log2)
      (s.log.exportOn = false ∨ s.log.ringRoom = false ∨ (s.writeFault slot 256).isSome → exec (.auditExport now) s = .next (s.at_ now)) ∧
      (s.log.exportOn = true → s.log.ringRoom = true → s.writeFault slot 256 = none → rest = [] → Completes (.auditExport now) s fun t =>
        t.hostMem = memWriteN s.hostMem slot a ∧ t.log.records = [] ∧ t.log.tail = s.log.tail + 1 ∧ t.log.head = s.log.head ∧
        t.log.regs = s.log.regs ∧ t.log.seq = s.log.seq)) ∧
    (∀ v : BitVec 32, exec (.auditExportHead v) s =
      .next (if (v - s.log.head).toNat ≤ (s.log.tail - s.log.head).toNat then { s with log := { s.log with head := v } }
        else { s with log := { s.log with headErr := true } })) ∧
    ∀ v : BitVec 32, exec (.auditRegionMib v) s =
      .next (if v.toNat % 65536 < 256 then s else { s with log := { s.log with nextMib := some (v.toNat % 65536) } })

/-! ### The SPDM responder (15_logbook_attestation.md R362-R367; 22, R491) -/

/-- The request is answered: the response `rsp` goes out on its transport from the state `u`, which differs from `s` in its
connections, its certificate chains and the DRBG bytes drawn only. -/
abbrev Responds (cmd : Instr) (s : State) (tr : Transport) (P : State → Bytes → Prop) : Prop :=
  ∃ u rsp, exec cmd s = .next (u.sendSpdm tr rsp) ∧ u = { s with host := u.host, boot := u.boot, draws := u.draws } ∧ P u rsp

/-- A connection whose algorithms are negotiated and whose version the request of code `code` names (log 46). -/
abbrev SpdmTurn (s : State) (tr : Transport) (code : Nat) (req : Bytes) : Prop :=
  s.transportOn tr = true ∧ s.lc.state ≠ .scrapped ∧ (tr = .doe → req.length ≤ 65536) ∧ 4 ≤ req.length ∧ rqCode req = code ∧
  leAt req 0 1 = (s.spdmOf tr).version ∧ (s.spdmOf tr).stage = 3 ∧ s.lc.dus.isSome

/-- R362-R367, R491: a transport that is not served, or a SCRAPPED device asked for more than its version and capabilities, does not
answer; a message of another code is InvalidRequest, one out of order UnexpectedRequest, and a device without an identity
answers UnsupportedRequest; each request in its turn is answered by the response of its code, the measurements being the
blocks of the registers and the device state, at most four sessions existing across the transports, and the quote being
signed over nonce, mask, blocks and AUDIT_SEQ. The layout of standard messages is the model's (log 46, PRESUMED). -/
def Obligations.SpdmRequestsAreAnsweredInTurn : Prop :=
  ∀ (s : State) (tr : Transport) (req : Bytes), let c := s.spdmOf tr
    let rows : List (Instr × Nat) := [(.getVersion tr req, 0x84), (.getCapabilities tr req, 0xE1), (.negotiateAlgorithms tr req, 0xE3),
      (.getDigests tr req, 0x81), (.getCertificate tr req, 0x82), (.challenge tr req, 0x83), (.getMeasurements tr req, 0xE0),
      (.keyExchange tr req, 0xE4), (.spdmFinish tr req, 0xE5), (.heartbeat tr req, 0xE8), (.keyUpdate tr req, 0xE9),
      (.endSession tr req, 0xEC), (.setCertificate tr req, 0xEE), (.getPqChain tr req, 0xFE), (.pqQuote tr req, 0xFE),
      (.chunkSend tr req, 0x85), (.chunkGet tr req, 0x86)]
    (∀ row ∈ rows,
      (tr ≠ .doe ∨ req.length ≤ 65536 → s.transportOn tr = false → exec row.1 s = .next s) ∧
      (tr = .doe → 65536 < req.length → exec row.1 s = .next { s with host := { s.host with doeErr := true } }) ∧
      ((tr = .doe → req.length ≤ 65536) → s.transportOn tr = true → s.lc.state = .scrapped → row.2 ≠ 0x84 → row.2 ≠ 0xE1 → exec row.1 s = .next s) ∧
      ((tr = .doe → req.length ≤ 65536) → s.transportOn tr = true → s.lc.state ≠ .scrapped →
        (req.length < 4 ∨ rqCode req ≠ row.2 → exec row.1 s = .next (s.sendSpdm tr (c.err 0x01))) ∧
        (4 ≤ req.length → rqCode req = row.2 → row.2 ≠ 0x84 → row.2 ≠ 0xE1 →
          (leAt req 0 1 ≠ c.version → exec row.1 s = .next (s.sendSpdm tr (c.err 0x41))) ∧
          (leAt req 0 1 = c.version → c.stage < 2 ∨ (c.stage < 3 ∧ row.2 ≠ 0xE3) →
            exec row.1 s = .next (s.sendSpdm tr (c.err 0x04))) ∧
          (leAt req 0 1 = c.version → 3 ≤ c.stage → row.2 ≠ 0xE3 → s.lc.dus = none →
            exec row.1 s = .next (s.sendSpdm tr (c.err 0x07)))))) ∧
    (∀ u rsp, tr ≠ .doe → rsp.length ≤ (State.spdmOf u tr).limit → State.sendSpdm u tr rsp = u.emit (.spdm tr rsp)) ∧
    (s.transportOn tr = true → (tr = .doe → req.length ≤ 65536) → 4 ≤ req.length →
      (rqCode req = 0x84 → leAt req 0 1 = 0x10 → Responds (.getVersion tr req) s tr fun u rsp =>
        rsp = [0x10#8, 0x04#8, 0#8, 0#8, 0#8, 2#8, 0x00#8, 0x12#8, 0x00#8, 0x13#8] ∧ (u.spdmOf tr).stage = 1 ∧
        (u.spdmOf tr).transcript = req ++ rsp ∧ u.draws = s.draws ∧ u.boot = s.boot) ∧
      (rqCode req = 0xE1 → c.stage = 1 → leAt req 0 1 = 0x12 ∨ leAt req 0 1 = 0x13 → Responds (.getCapabilities tr req) s tr fun u rsp =>
        leAt rsp 0 1 = leAt req 0 1 ∧ leAt rsp 1 1 = 0x61 ∧ rsp.length = 20 ∧ (u.spdmOf tr).version = leAt req 0 1 ∧
        (u.spdmOf tr).stage = 2 ∧ u.draws = s.draws)) ∧
    (s.transportOn tr = true → s.lc.state ≠ .scrapped → (tr = .doe → req.length ≤ 65536) → 4 ≤ req.length → rqCode req = 0xE3 →
      leAt req 0 1 = c.version → c.stage = 2 → bitOf (leAt req 8 4) 7 = true → bitOf (leAt req 12 4) 1 = true →
      Responds (.negotiateAlgorithms tr req) s tr fun u rsp => leAt rsp 1 1 = 0x63 ∧ rsp.length = 52 ∧ (u.spdmOf tr).stage = 3 ∧
        u.draws = s.draws) ∧
    (SpdmTurn s tr 0x81 req → Responds (.getDigests tr req) s tr fun u rsp =>
      leAt rsp 1 1 = 0x01 ∧ (leAt rsp 3 1).testBit 0 = (tget s.boot.chains 0).isSome ∧
      (leAt rsp 3 1).testBit 2 = (tget s.boot.chains 2).isSome ∧ u.draws = s.draws) ∧
    (∀ b, SpdmTurn s tr 0x82 req → s.spdmChain 0 = some b → leAt req 2 1 % 16 = 0 → 8 ≤ req.length → leAt req 4 2 < b.length →
      Responds (.getCertificate tr req) s tr fun u rsp => leAt rsp 1 1 = 0x02 ∧
        rsp.drop 8 = sliceOf b (leAt req 4 2) (leAt req 6 2) ∧ u.draws = s.draws) ∧
    (∀ b, SpdmTurn s tr 0x83 req → s.spdmChain 0 = some b → leAt req 2 1 = 0 → 36 ≤ req.length →
      Responds (.challenge tr req) s tr fun u rsp => leAt rsp 1 1 = 0x03 ∧ sliceOf rsp 4 48 = sha384 b ∧
        sliceOf rsp 52 32 = drbgBytes s.draws 32 ∧ u.draws = s.draws + 32) ∧
    (∀ i, SpdmTurn s tr 0xE0 req → leAt req 3 1 = i → 1 ≤ i → i ≤ 65 → bitOf (leAt req 2 1) 0 = false →
      Responds (.getMeasurements tr req) s tr fun u rsp => leAt rsp 1 1 = 0x60 ∧ leAt rsp 4 1 = 1 ∧
        sliceOf rsp 8 (s.measRecord i).length = s.measRecord i ∧ u.draws = s.draws + 32 ∧
        s.measurement i = (if i = 65 then s.deviceBlock else
          (s.logReg (i - 1)).value ++ le 4 (s.logReg (i - 1)).count ++ le 2 (s.logReg (i - 1)).epoch ++ zeros 2)) ∧
    (∀ b, SpdmTurn s tr 0xE4 req → s.spdmChain 0 = some b → leAt req 3 1 = 0 → 136 ≤ req.length →
      (4 ≤ s.host.sessions.length → exec (.keyExchange tr req) s = .next (s.sendSpdm tr (c.err 0x0A))) ∧
      (s.host.sessions.length < 4 → Responds (.keyExchange tr req) s tr fun u rsp => leAt rsp 1 1 = 0x64 ∧ u.draws = s.draws + 80 ∧
        ∃ x, u.host.sessions = x :: s.host.sessions ∧ x.transport = tr ∧ x.finished = false ∧ leAt rsp 4 2 = x.id)) ∧
    (∀ row ∈ [(Instr.spdmFinish tr req, 0xE5), (.heartbeat tr req, 0xE8), (.keyUpdate tr req, 0xE9), (.endSession tr req, 0xEC)],
      SpdmTurn s tr row.2 req → s.sessionOn tr = none → exec row.1 s = .next (s.sendSpdm tr (c.err 0x0B))) ∧
    (∀ x, s.sessionOn tr = some x →
      (SpdmTurn s tr 0xE5 req → x.finished = false →
        let proof := prim (.hmac 0x03) [x.secret, c.transcript ++ req.take (req.length - 48)] 48
        (proof = req.drop (req.length - 48) → Responds (.spdmFinish tr req) s tr fun u rsp => leAt rsp 1 1 = 0x65 ∧
          u.host.sessions = s.host.sessions.map (fun y => if y.id = x.id then { y with finished := true } else y)) ∧
        (proof ≠ req.drop (req.length - 48) → exec (.spdmFinish tr req) s = .next (s.sendSpdm tr (c.err 0x01)))) ∧
      (SpdmTurn s tr 0xE8 req → exec (.heartbeat tr req) s = .next (s.sendSpdm tr (c.say 0x68 0 0 []))) ∧
      (SpdmTurn s tr 0xE9 req → x.finished = true → 1 ≤ leAt req 2 1 → leAt req 2 1 ≤ 3 → Responds (.keyUpdate tr req) s tr fun u rsp =>
        leAt rsp 1 1 = 0x69 ∧ rsp.length = 4 ∧ u.draws = s.draws) ∧
      (SpdmTurn s tr 0xEC req → Responds (.endSession tr req) s tr fun u rsp => leAt rsp 1 1 = 0x6C ∧
        u.host.sessions = s.host.sessions.filter fun y => y.id != x.id)) ∧
    (SpdmTurn s tr 0xEE req → let slot := leAt req 2 1 % 16
      (s.lc.state = .owned → slot = 2 ∨ slot = 3 → 4 < req.length → Responds (.setCertificate tr req) s tr fun u rsp =>
        leAt rsp 1 1 = 0x6E ∧ tget u.boot.chains slot = some (req.drop 4) ∧ ∀ i, i ≠ slot → tget u.boot.chains i = tget s.boot.chains i) ∧
      (s.lc.state ≠ .owned → exec (.setCertificate tr req) s = .next (s.sendSpdm tr (c.err 0x01)))) ∧
    (∀ p, SpdmTurn s tr 0xFE req → vendorPayload req = some p →
      (∀ b, p.length = 10 → leAt p 0 1 = 1 → leAt p 1 1 = 0 → s.chainOf 1 = some b → Responds (.getPqChain tr req) s tr fun u rsp =>
        leAt rsp 1 1 = 0x7E ∧ rsp.drop 11 = sliceOf b (leAt p 2 4) (leAt p 6 4) ∧ u = s) ∧
      (p.length = 41 → leAt p 0 1 = 2 → Responds (.pqQuote tr req) s tr fun u rsp => leAt rsp 1 1 = 0x7E ∧ u.draws = s.draws + 32 ∧
        let body := sliceOf p 1 32 ++ le 8 (leAt p 33 8) ++ ((List.range 64).filter (bitOf (leAt p 33 8))).flatMap s.regBlock ++
          s.deviceBlock ++ le 8 (s.log.seq - 1)
        rsp.drop 11 = body ++ s.aliasSign (ascii "psibuaz-quote") body s.draws)) ∧
    (SpdmTurn s tr 0x85 req → leAt req 4 2 = 0 → bitOf (leAt req 2 1) 0 = false → Responds (.chunkSend tr req) s tr fun u rsp =>
      leAt rsp 1 1 = 0x05 ∧ (u.spdmOf tr).chunkIn = some (leAt req 3 1, 1, sliceOf req 16 (leAt req 8 4)) ∧ u.draws = s.draws) ∧
    (∀ h n b, SpdmTurn s tr 0x86 req → c.chunkOut = some (h, n, b) → leAt req 3 1 = h → leAt req 4 2 = n → 0 < n →
      b.length ≤ c.limit - 12 → Responds (.chunkGet tr req) s tr fun u rsp => leAt rsp 1 1 = 0x06 ∧ leAt rsp 2 1 = 1 ∧
        rsp.drop 12 = b ∧ (u.spdmOf tr).chunkOut = none) ∧
    Completes .doeAbort s fun t => t.host.doeObj = [] ∧ t.host.doeErr = false ∧ (t.spdmOf .doe).chunkIn = none ∧
      (t.spdmOf .doe).chunkOut = none ∧ t = { s with host := t.host }

/-! ### The host port (00_scope.md R17; 22_registers.md R476-R493) -/

/-- R1, R2, R17, R18, R387, R477, R481, R482, R487, R493: an access that R17 does not accept reads as all ones, or is discarded, and is recorded on
the function's source; configuration space reads the Vendor and Device IDs, the Revision ID and the DEVICE_ID of the serial number,
and all ones for a function that is not there (R489, R490; the VF's device ID is that of R2, log 81); ID.PART reads the variant, 0xB0 and the grade; a write of GLB.EVENT clears the bits that it sets; a
read of LOCK.ACQ takes the lock; Vector Control masks its vector; a retrained link sets the budget of the next tick, and a slower one ends the guarantee of the
accepted jobs that have output to release (log 102); an invalidation is completed; the telemetry counts its periods. -/
def Obligations.HostAccessesFollowTheRegisterMap : Prop :=
  (∀ s : State,
    (∀ f acc off, f < 256 → s.responds f = true → off % accBytes acc ≠ 0 →
      off + accBytes acc ≤ windowSize (if f = 0 then .pfBar0 else .vfBar0) f →
      Completes (.registerWrite (if f = 0 then .pfBar0 else .vfBar0) f off acc) s fun t =>
        (t.src (if f = 0 then 161 else 162)).total = satAdd 32 (s.src (if f = 0 then 161 else 162)).total 1 ∧
        (1 < (s.src (if f = 0 then 161 else 162)).n → (s.src (if f = 0 then 161 else 162)).count + 1 < (s.src (if f = 0 then 161 else 162)).n →
          t = { s with faults := t.faults, host := t.host }) ∧
        (accReads acc = true → t.host.lastRead = allOnes (accBytes acc)) ∧ (accReads acc = false → t.host.lastRead = s.host.lastRead)) ∧
    (∀ f off bytes wr now, f < 256 → s.responds f = true → accepted off bytes = false →
      Completes (.badAccess f off bytes wr now) s fun t =>
        (t.src (if f = 0 then 161 else 162)).total = satAdd 32 (s.src (if f = 0 then 161 else 162)).total 1 ∧
        (wr = true → t.host.lastRead = s.host.lastRead)) ∧
    (∀ bar f off acc, bar ≠ .config → hasWindow bar f = true → off + accBytes acc ≤ windowSize bar f → s.responds f = false →
      exec (.registerWrite bar f off acc) s = .next s) ∧
    (∀ f, f < 256 → (∀ off, tget s.regs (cfgKey f off) = none) →
      let reads := fun (off v : Nat) => exec (.registerWrite .config f off .read32) s = .next (s.returns (BitVec.ofNat 64 v))
      (f = 0 → reads 0 0x88401FD4 ∧ reads 8 0x108000B0 ∧ reads 0x34 0x40 ∧ reads 0x14C (s.lc.deviceId.toNat % 2 ^ 32) ∧
        reads 0x150 (s.lc.deviceId.toNat / 2 ^ 32 % 2 ^ 32)) ∧
      (f ≠ 0 → (s.fn f).enabled = true → reads 0 0x88411FD4 ∧ reads 8 0x108000B0 ∧ reads 0x34 0x50) ∧
      (f ≠ 0 → (s.fn f).enabled = false → reads 0 0xFFFFFFFF)) ∧
    (s.boot.ready = true → s.host.d3hot = false →
      (let part := (match s.variant with | .pz8840 => 0x8840 | .pz8820 => 0x8820 | .pz8810 => 0x8810) + 0xB00000 +
        (match s.grade with | .ix => 0x1000000 | .cx => 0x2000000)
       exec (.registerWrite .pfBar0 0 0 .read32) s = .next (s.returns (BitVec.ofNat 64 part))) ∧
      (∀ v : BitVec 32, exec (.registerWrite .pfBar0 0 0x1004 (.write32 v)) s =
        .next (s.setReg 0x1004 (w1c (s.reg 0x1004) v.toNat))) ∧
      (∀ k, k < 256 → exec (.registerWrite .pfBar0 0 (0x84000 + 4 * k) .read32) s = exec (.lockAcquire 9 k) s) ∧
      ∀ vec, vec < 2048 →
        Completes (.registerWrite .bar2 0 (16 * vec + 12) (.write32 1)) s fun t => vec ∈ (t.fn 0).mask ∧ t.outbox = s.outbox ∧
          t = { s with fns := t.fns }) ∧
    (∀ gen width, gen ≤ 6 → width ≤ 16 → s.cluster.tethered = false → s.online.isEmpty = true →
      Completes (.hostLinkRetrain gen width) s fun t =>
        t = { s with host := { s.host with gen := gen, width := width, budgetNext := some (linkBudget gen width) }, jobs := t.jobs } ∧
        (linkBudget s.host.gen s.host.width ≤ linkBudget gen width → t.jobs = s.jobs) ∧
        (linkBudget gen width < linkBudget s.host.gen s.host.width → ∀ j, t.job? j = (s.job? j).map fun J =>
          if J.accepted.isSome ∧ J.released < J.relBytes then { J with uncovered := true } else J)) ∧
    (linkBudget 6 16 = 100000 ∧ linkBudget 5 16 = 50000 ∧ linkBudget 5 8 = 25000 ∧ linkBudget 4 16 = 25000 ∧ linkBudget 3 4 = 3125) ∧
    (∀ f a n, f < 256 → a + n ≤ 2 ^ 64 → exec (.atsInvalidation f a n) s = .next (s.emit (.ats f))) ∧
    ∀ p c, p < 1024 → c < 256 → exec (.telemetryPeriod p c) s =
      .next (s.setReg 0x1018 (p + 2 ^ 16 * c + 2 ^ 32 * ((bitsOf (s.reg 0x1018) 63 32 + 1) % 2 ^ 32))))

/-! ### The service complex (16_service_complex.md R372-R388) -/

/-- R381-R387: a word written to a full mailbox is dropped and marked, another master's write does nothing, and VF.EVENT shows a word that arrives for a VF; the receiver's read
takes the word and empties the mailbox; a recall takes it back or is marked a miss; a pair full for more than one second wakes
both receivers once; PING and QUERY_OMOD are answered by their reply code; a free lock is taken by a read that returns 0 and
a held one returns its owner plus 1, only the owner frees it, and another's release is counted. -/
def Obligations.MailboxesHoldOneWordAndLocksOneOwner : Prop :=
  ∀ s : State,
    (∀ n w now, n < 518 → s.reaches (senderOf n) = true → let M := s.mbox n
      (M.full = true → exec (.mboxTxWrite (senderOf n) n w now) s = .next ((s.at_ now).modMbox n fun M => { M with dropped := true })) ∧
      (M.full = false → Completes (.mboxTxWrite (senderOf n) n w now) s fun t =>
        t.mbox n = { M with word := w, full := true, since := (s.time.to now).elapsed } ∧ (∀ k, k ≠ n → t.mbox k = s.mbox k) ∧
        ∀ f, 0 < f → receiverOf n = .host f → bitOf (t.reg (vfEventKey f)) 1 = true) ∧
      (∀ m, m ≠ senderOf n → exec (.mboxTxWrite m n w now) s = .next (s.at_ now)) ∧
      (M.full = true → Completes (.mboxRecall (senderOf n) n) s fun t => (t.mbox n).full = false ∧ (t.mbox n).recalled = true ∧
        (t.mbox n).word = M.word) ∧
      (M.full = false → exec (.mboxRecall (senderOf n) n) s = .next (s.modMbox n fun M => { M with miss := true })) ∧
      (∀ m, m ≠ senderOf n → exec (.mboxRecall m n) s = .next s)) ∧
    (∀ n, 1 ≤ n → n < 518 → (n = 1 → s.service.replies = []) → s.reaches (receiverOf n) = true → let M := s.mbox n
      (M.full = true → Completes (.mboxRxRead (receiverOf n) n .both) s fun t => (t.mbox n).full = false ∧ (t.mbox n).read = true ∧
        t.host.lastRead = BitVec.ofNat 64 (M.word.toNat + 2 ^ 32) ∧ ∀ k, k ≠ n → k ≠ pairMate n → t.mbox k = s.mbox k) ∧
      (M.full = false → Completes (.mboxRxRead (receiverOf n) n .both) s fun t => t.host.lastRead = 0 ∧ ∀ k, t.mbox k = s.mbox k)) ∧
    (∀ n m h, n < 518 → m ≠ receiverOf n → exec (.mboxRxRead m n h) s = .next (s.returns 0)) ∧
    (∀ n now, n < 518 → let a := s.mbox n
      let b := s.mbox (pairMate n)
      (a.full = true → b.full = true → max a.since b.since + 1000000000 < (s.time.to now).elapsed → a.cross = false →
        Completes (.crossFull n now) s fun t => (t.mbox n).cross = true ∧ (t.mbox (pairMate n)).cross = true ∧ (t.mbox n).full = true) ∧
      (a.cross = true ∨ a.full = false ∨ b.full = false → exec (.crossFull n now) s = .next (s.at_ now))) ∧
    (s.service.replies = [] → (s.mbox 1).full = false →
      (∀ arg, arg < 2 ^ 24 → s.mbox 0 = { s.mbox 0 with full := true, word := BitVec.ofNat 32 (0x01000000 + arg) } →
        Completes .ping s fun t => (t.mbox 0).full = false ∧ (t.mbox 1).full = true ∧
          (t.mbox 1).word = BitVec.ofNat 32 (0x81000000 + arg)) ∧
      (∀ m, m < 2 → (s.module m).state < 256 → s.mbox 0 = { s.mbox 0 with full := true, word := BitVec.ofNat 32 (0x02000000 + m) } →
        Completes .queryOmod s fun t => (t.mbox 0).full = false ∧ (t.mbox 1).full = true ∧
          (t.mbox 1).word = BitVec.ofNat 32 (0x82000000 + m * 0x10000 + (s.module m).state))) ∧
    ∀ m k, m < 10 → k < 256 → s.lockUser m = true →
      (tget s.service.locks k = none → exec (.lockAcquire m k) s =
        .next ({ s with service := { s.service with locks := tput s.service.locks k m } }.returns 0)) ∧
      (∀ o, tget s.service.locks k = some o → exec (.lockAcquire m k) s = .next (s.returns (BitVec.ofNat 64 (o + 1)))) ∧
      (tget s.service.locks k = some m → exec (.lockRelease m k) s =
        .next { s with service := { s.service with locks := tdel s.service.locks k } }) ∧
      (tget s.service.locks k ≠ some m → exec (.lockRelease m k) s =
        .next { s with service := { s.service with lockErr := satAdd 32 s.service.lockErr 1 } })

/-- R372-R376: a handover is pending only in OWNED or DEPLOYED with both modules idle; a load is refused by its first failed check, and
otherwise leaves the module running with its floor and identity recorded; STOP, EXIT and an exception scrub the module and
tell PF0; the calls of a running module act on its ring, its mailboxes and the Almanac and answer in a0 and a1. -/
def Obligations.OwnerModulesLoadCallAndStop : Prop :=
  ∀ (s : State) (m now : Nat), m < 2 →
    (s.barOn 0 = true →
      (∀ v : BitVec 32, let b := v.getLsbD 0
        (b ≠ s.service.next.getD s.service.handover → s.lc.state = .owned ∨ s.lc.state = .deployed → (s.module 0).idle = true →
          (s.module 1).idle = true → exec (.handover v) s = .next { s with service := { s.service with next := some b } }) ∧
        (b = s.service.next.getD s.service.handover ∨ (s.lc.state ≠ .owned ∧ s.lc.state ≠ .deployed) ∨ (s.module 0).idle = false ∨
          (s.module 1).idle = false → exec (.handover v) s = .next s)) ∧
      (let b := s.moduleImage (s.module m).image
       (∀ r, s.loadRefused m b = some r → exec (.omodLoad m now) s = .next ((s.at_ now).modModule m fun M => { M with reason := r })) ∧
       (s.service.done = false → s.loadRefused m b = some 5) ∧
       (s.loadRefused m b = none → Completes (.omodLoad m now) s fun t => (t.module m).state = 2 ∧ (t.module m).reason = 0 ∧
         (t.module m).owner = true ∧ (t.module m).ident = leAt b 0x20 8 ∧ (t.module m).memMib = leAt b 0x14 4 ∧ (t.module m).ring = none ∧
         t.service.floor = max s.service.floor (leAt b 8 4) ∧ ∀ k, k ≠ m → t.module k = s.module k)) ∧
      ((s.module m).idle = true → exec (.omodStop m now) s = .next (s.at_ now)) ∧
      ((s.module m).idle = false → Completes (.omodStop m now) s fun t => (t.module m).state = 4 ∧ (t.module m).region = [] ∧
        (t.core (6 + m)).x = [] ∧ (t.core (6 + m)).v = [])) ∧
    (∀ cause addr, (s.module m).state = 2 → cause ≠ 8 → cause < 256 → Completes (.moduleException m cause addr now) s fun t =>
      (t.module m).state = 5 ∧ (t.module m).cause = cause ∧ (t.module m).addr = addr ∧ (t.module m).region = [] ∧
      (t.src (134 + m)).total = satAdd 32 (s.src (134 + m)).total 1) ∧
    ((s.module m).state = 2 → (s.module m).waiting = none → (s.core (6 + m)).stopped = false →
      let a := fun (t : State) (i : Nat) => t.arg m i
      (Completes (.time m now) s fun t => a t 0 = BitVec.ofNat 64 (s.at_ now).helmTime ∧
        t = { s with time := s.time.to now, service := t.service }) ∧
      (Completes (.exit m now) s fun t => (t.module m).state = 4 ∧ (t.module m).region = []) ∧
      ((s.module m).ring = none → s.ringsOk m = true → Completes (.ringInit m) s fun t => a t 0 = 0 ∧
        (t.module m).ring = some (4096 + m) ∧ (t.queue (4096 + m)).mode = .enabled ∧ (t.queue (4096 + m)).isModule = some m ∧
        (t.queue (4096 + m)).sqBase = (a s 0).toNat ∧ (t.queue (4096 + m)).cqBase = (a s 1).toNat ∧ (t.queue (4096 + m)).fn = 0x101) ∧
      ((s.module m).ring.isSome ∨ s.ringsOk m = false → exec (.ringInit m) s = .next (s.result m 0 1)) ∧
      ((s.module m).ring = none → exec (.doorbell m) s = .next (s.result m 0 1) ∧ exec (.cqHead m) s = .next (s.result m 0 1)) ∧
      (∀ q, (s.module m).ring = some q → (s.queue q).mode = .fenced →
        exec (.doorbell m) s = .next (s.result m 0 1) ∧ exec (.cqHead m) s = .next (s.result m 0 1)) ∧
      (∀ q, (s.module m).ring = some q → (s.queue q).mode = .enabled → (s.fn (s.queue q).fn).pert = false →
        let v := BitVec.ofNat 32 (a s 0).toNat
        let Q := s.queue q
        ((v - Q.sqTail).toNat ≤ 2 ^ Q.sqLog2 → (v - Q.sqHead).toNat ≤ 2 ^ Q.sqLog2 → Completes (.doorbell m) s fun t => a t 0 = 0 ∧
          t.queue q = { Q with sqTail := v, revise := none } ∧ ∀ p, p ≠ q → t.queue p = s.queue p) ∧
        ((v - Q.cqHead).toNat ≤ 2 ^ Q.cqLog2 → (Q.cqTail - v).toNat ≤ 2 ^ Q.cqLog2 → Completes (.cqHead m) s fun t => a t 0 = 0 ∧
          t.queue q = { Q with cqHead := v } ∧ ∀ p, p ≠ q → t.queue p = s.queue p)) ∧
      ((s.mbox (513 + 2 * m)).full = false → Completes (.mboxSend m now) s fun t => a t 0 = 0 ∧ (t.mbox (513 + 2 * m)).full = true ∧
        (t.mbox (513 + 2 * m)).word = BitVec.ofNat 32 (a s 0).toNat) ∧
      ((s.mbox (513 + 2 * m)).full = true → Completes (.mboxSend m now) s fun t => a t 0 = 1 ∧ (t.mbox (513 + 2 * m)).dropped = true ∧
        (t.mbox (513 + 2 * m)).word = (s.mbox (513 + 2 * m)).word) ∧
      (Completes (.mboxRecv m) s fun t => (t.mbox (512 + 2 * m)).full = false ∧
        a t 0 = (if (s.mbox (512 + 2 * m)).full then BitVec.ofNat 64 (s.mbox (512 + 2 * m)).word.toNat else 0) ∧
        a t 1 = (if (s.mbox (512 + 2 * m)).full then 1 else 0)) ∧
      (s.moduleDone m = true → exec (.wait m now) s = .next ((s.at_ now).result m 0 1)) ∧
      (s.moduleDone m = false → (s.mbox (512 + 2 * m)).full = true → exec (.wait m now) s = .next ((s.at_ now).result m 0 2)) ∧
      (s.moduleDone m = false → (s.mbox (512 + 2 * m)).full = false → exec (.wait m now) s = .next ((s.at_ now).modModule m fun M =>
        { M with waiting := some ((s.time.to now).elapsed + 1000 * max 1 (min (a s 0).toNat 1000000)) }))) ∧
    (∀ e, (s.module m).waiting = some e →
      (e ≤ (s.time.to now).elapsed → Completes (.waitTimeout m now) s fun t => (t.module m).waiting = none ∧ t.arg m 0 = 0) ∧
      ((s.time.to now).elapsed < e → exec (.waitTimeout m now) s = .next (s.at_ now)))

/-! ### Meridian (17_meridian.md R389-R410) -/

/-- R390-R397, R411, R412: ENABLE starts bring-up and clearing it takes the link and its keys down; a retrain is counted, and a link
that has been down for 10 s tries again; a block of five flits is 272 symbols on each of four lanes; a peer that the
roster, its chain or its signature rules out is refused with its reason and recorded, and one that passes brings the link up
under the hop keys of the handshake; a flit whose CRC fails is answered with NAK, one out of sequence is ignored, and a good one
frees what it acknowledges and returns its credits. -/
def Obligations.MeridianLinksComeUpAndSealFlits : Prop :=
  ∀ (s : State) (k now : Nat), k < portsOf s.variant → k < 4 → let u := s.at_ now
    let L := s.link k
    (s.barOn 0 = true → ∀ v : BitVec 32,
      (v.getLsbD 0 = true → L.enable = false → Completes (.linkEnable k v now) s fun t =>
        (t.link k).enable = true ∧ (t.link k).mode = .training ∧ (t.link k).fails = 0 ∧ ∀ j, j ≠ k → t.link j = s.link j) ∧
      (v.getLsbD 0 = false → v.getLsbD 1 = false → L.enable = true → Completes (.linkEnable k v now) s fun t =>
        (t.link k).enable = false ∧ (t.link k).mode = .down ∧ (t.link k).keyIn = [] ∧ (t.link k).keyOut = [] ∧ (t.link k).replay = [] ∧
        ∀ j, j ≠ k → t.link j = s.link j)) ∧
    (L.enable = true → L.mode ≠ .training →
      exec (.linkRetrain k now) s = .next ((u.modLink k fun L => { L with mode := .training }).linkErr k 3)) ∧
    (L.enable = false ∨ L.mode = .training → exec (.linkRetrain k now) s = .next u) ∧
    (L.enable = true → L.mode = .down → L.downAt + 10 ^ 10 ≤ u.time.elapsed →
      exec (.linkRetry k now) s = .next (u.modLink k fun L => { L with mode := .training })) ∧
    (L.enable = false ∨ L.mode ≠ .down ∨ u.time.elapsed < L.downAt + 10 ^ 10 → exec (.linkRetry k now) s = .next u) ∧
    (∀ n fs, fs.length = 5 → (lineBlock n fs).length = 4 ∧ ∀ l ∈ lineBlock n fs, l.length = 272) ∧
    (L.runs = true → (L.queued.any fun q => (if bitOf (leAt q 0 1) 0 then L.credit1 else L.credit0) == 0) = true →
      Completes (.creditTimeout k now) s fun t => (t.src (259 + 8 * k)).total = satAdd 32 (s.src (259 + 8 * k)).total 1) ∧
    (L.queued = [] → exec (.creditTimeout k now) s = .next u) ∧
    (L.mode = .up → (2 ^ 31 ≤ L.ctrOut ∨ 2 ^ 31 ≤ L.ctrIn ∨ L.upAt + 82800 * 10 ^ 9 ≤ u.time.elapsed) →
      exec (.meridianLinkRekey k now) s = .next (u.modLink k fun L => { L with mode := .handshake })) ∧
    (L.mode ≠ .up → exec (.meridianLinkRekey k now) s = .next u) ∧
    (∀ p : PeerHello, L.mode = .training →
      (∀ r, s.peerRefused p = some r → Completes (.linkUp k p now) s fun t =>
        (t.src (260 + 8 * k)).total = satAdd 32 (s.src (260 + 8 * k)).total 1 ∧ (t.link k).reason = r ∧
        (L.fails < 2 → (t.link k).mode = .training ∧ (t.link k).fails = L.fails + 1 ∧ (t.link k).keyIn = L.keyIn) ∧
        (2 ≤ L.fails → (t.link k).mode = .down ∧ (t.link k).fails = 0 ∧ (t.link k).keyIn = [])) ∧
      (∀ R e okm, s.peerRefused p = none → s.cluster.roster = some R → R.byDigest (peerDigest p.chain) = some e →
        s.hopKeys p (decide (s.cluster.node < e.node)) = some okm → p.rosterVersion ≤ R.version → L.queued = [] →
        Completes (.linkUp k p now) s fun t => let M := t.link k
          M.mode = .up ∧ M.peer = e.node ∧ M.ctrOut = 1 ∧ M.ctrIn = 0 ∧ M.upAt = u.time.elapsed ∧ t.cluster.member = true ∧
          (s.cluster.node < e.node → M.keyOut = okm.take 32 ∧ M.keyIn = sliceOf okm 32 32 ∧ t.draws = s.draws + 160) ∧
          (e.node ≤ s.cluster.node → M.keyIn = okm.take 32 ∧ M.keyOut = sliceOf okm 32 32 ∧ t.draws = s.draws + 128) ∧
          ∀ j, j ≠ k → t.link j = s.link j)) ∧
    ∀ f : List Byte,
      (L.runs = false → ∀ fec, exec (.flitReceived k f fec now) s = .next u) ∧
      (L.runs = true →
        (f.length ≠ 256 ∨ leAt f 252 4 ≠ (crc32 (f.take 252)).toNat →
          ∀ c, exec (.flitReceived k f (some c) now) s = .next ((u.corrected k c).sendNak k)) ∧
        (f.length = 256 → leAt f 252 4 = (crc32 (f.take 252)).toNat →
          (leAt f 0 1 = 0 → L.queued = [] → Completes (.flitReceived k f (some 0) now) s fun t => let M := t.link k
            M.replay = (L.replay.filter fun r => !ackCovers (leAt f 4 2) r.1) ∧ M.recvSeq = L.recvSeq ∧
            M.credit0 = min 128 (L.credit0 + leAt f 6 1 % 16) ∧ M.credit1 = min 128 (L.credit1 + leAt f 6 1 / 16)) ∧
          (leAt f 0 1 ≠ 0 → leAt f 2 2 ≠ L.recvSeq → exec (.flitReceived k f (some 0) now) s = .next u) ∧
          (leAt f 0 1 = 1 → leAt f 2 2 = L.recvSeq → bitOf (leAt f 7 1) 2 = false → Completes (.flitReceived k f (some 0) now) s fun t =>
            (t.link k).recvSeq = (L.recvSeq + 1) % 65536 ∧ (t.link k).mode = L.mode ∧ ∀ j, j ≠ k → t.link j = s.link j)))

/-- `m` is the oldest waiting message of a type, and `v` the device once it is taken. -/
abbrev MerNext (s : State) (ty now : Nat) (m : Message) (v : State) : Prop :=
  s.cluster.inbox.find? (fun m => m.type == ty) = some m ∧
  v = { s.at_ now with cluster := { s.cluster with inbox := s.cluster.inbox.erase m } }

/-- The message is a request that has not been answered before (R400). -/
abbrev MerFresh (s : State) (m : Message) : Prop := s.cluster.answers.find? (fun a => a.1 == m.src && a.2.1 == m.req) = none

/-- `r` is the request of a type that the message answers (R400). -/
abbrev MerAnswers (s : State) (m : Message) (ty : Nat) (r : MerReq) : Prop :=
  s.cluster.requests.find? (fun r => r.id == m.req && r.type == ty && r.dst == m.src) = some r

/-- R396, R397, R400-R406: a command without a waiting message changes nothing; a roster is installed, on a device that has a Meridian, or refused with its reason; a
pilot acknowledges a value above its mark and returns its mark otherwise, and a repeat gets the same answer; a majority ends a
proposal; a lease request lowers its tag's cap, and a grant is the key's next lease; a delegated tree is given once; CROSS is
chained into LOG[7]; the roster travels in parts; a request is sent again after 10 ms and fails after 1 s. -/
def Obligations.ClusterMessagesKeepMarksAndLeases : Prop :=
  ∀ (s : State) (now : Nat), let u := s.at_ now
    (∀ row ∈ [(Instr.markPropose now, 0x01), (.markReply now, 0x02), (.leaseReq now, 0x03), (.leaseGrant now, 0x04), (.delegateReq now, 0x05),
        (.delegateGrant now, 0x06), (.cross now, 0x07), (.rosterGet now, 0x08), (.rosterData now, 0x09), (.tetherRd now, 0x10),
        (.tetherCpl now, 0x11), (.tetherWr now, 0x12), (.tetherReg now, 0x13), (.tetherRegCpl now, 0x14)],
      s.cluster.inbox.find? (fun m => m.type == row.2) = none → exec row.1 s = .next u) ∧
    (portsOf s.variant = 0 → exec (.rosterLoad now) s = .next u) ∧
    (s.barOn 0 = true → portsOf s.variant ≠ 0 →
      let a := s.reg 0xC1008
      let n := leAt (s.hostRead a 64) 12 4
      let b := s.hostRead a n
      64 ≤ n → n ≤ 64 + 64 * 16384 + 4635 → s.readFault a n = none →
      (∀ r, s.rosterRefused b = some r → exec (.rosterLoad now) s = .next { u with cluster := { s.cluster with loadReason := r } }) ∧
      (s.rosterRefused b = none → Completes (.rosterLoad now) s fun t =>
        (∃ R, t.cluster.roster = some R ∧ R.image = b ∧ R.version = leAt b 8 4) ∧ t.cluster.loadReason = 0 ∧
        ∀ j, (t.link j).carries = true → (s.link j).carries = true)) ∧
    (∀ m v, MerNext s 0x01 now m v → let name := sliceOf m.body 8 16
      let x := leAt m.body 24 8
      (m.body.length = 32 → s.cluster.pilotSet = true →
        (MerFresh s m → s.markOf name < x → Completes (.markPropose now) s fun t => t.markOf name = x ∧
          t.cluster.answers.head? = some (m.src, m.req, 0x02, le 8 m.req ++ (le 1 1 ++ le 8 x))) ∧
        (MerFresh s m → x ≤ s.markOf name → Completes (.markPropose now) s fun t => t.cluster.marks = s.cluster.marks ∧
          t.cluster.answers.head? = some (m.src, m.req, 0x02, le 8 m.req ++ (le 1 0 ++ le 8 (s.markOf name)))) ∧
        (∀ a, s.cluster.answers.find? (fun a => a.1 == m.src && a.2.1 == m.req) = some a →
          exec (.markPropose now) s = .next (v.merSend m.src a.2.2.1 a.2.2.2))) ∧
      (m.body.length ≠ 32 ∨ s.cluster.pilotSet = false → m.link < 4 → Completes (.markPropose now) s fun t =>
        (t.src (261 + 8 * m.link)).total = satAdd 32 (s.src (261 + 8 * m.link)).total 1)) ∧
    (∀ m v r p, MerNext s 0x02 now m v → m.body.length = 17 → MerAnswers s m 0x01 r →
      s.cluster.proposals.find? (fun p => p.name == sliceOf r.body 8 16 && p.value == leAt r.body 24 8) = some p → leAt m.body 8 1 = 1 →
      p.acks.contains m.src = false → p.lease = none → s.pilots.length / 2 ≤ p.acks.length → Completes (.markReply now) s fun t =>
        (∀ x ∈ t.cluster.proposals, ¬ (x.name = p.name ∧ x.value = p.value)) ∧ t.cluster.marks = s.cluster.marks) ∧
    (∀ m v, MerNext s 0x03 now m v → m.body.length = 40 → leAt m.body 32 8 = 2 ^ 20 → s.cluster.pilotSet = true → MerFresh s m →
      (s.cluster.proposals.any fun p => p.lease.any fun l => l.1 == m.src && l.2.1 == m.req) = false → 0 < leAt m.body 24 8 →
      let tag := sliceOf m.body 8 16
      let cap := min (leAt m.body 24 8) (s.capOf tag)
      Completes (.leaseReq now) s fun t => t.cluster.caps.find? (fun c => c.1 == tag) = some (tag, cap) ∧
        (cap ≤ s.markOf tag → t.cluster.marks = s.cluster.marks ∧
          t.cluster.answers.head? = some (m.src, m.req, 0x04, le 8 m.req ++ grantBody 1 0 0))) ∧
    (∀ m v r i K, MerNext s 0x04 now m v → m.body.length = 25 → MerAnswers s m 0x03 r → s.keyOfTag r.tag = some i → s.key? i = some K →
      let lo := leAt m.body 9 8
      let hi := leAt m.body 17 8
      (leAt m.body 8 1 = 0 → lo < hi → hi - lo ≤ 2 ^ 20 → K.leasedTo ≤ lo → K.nextLease = none → Completes (.leaseGrant now) s fun t =>
        t.key? i = some { K with nextLease := some (lo, hi), asked := false }) ∧
      (leAt m.body 8 1 ≠ 0 → Completes (.leaseGrant now) s fun t => t.key? i = some { K with asked := false } ∧ t.log = s.log)) ∧
    (∀ m v, MerNext s 0x05 now m v → MerFresh s m → let tag := sliceOf m.body 8 16
      (s.keys.live.find? (fun e => e.2.delegates && keyTag e.2.pubPart == tag) = none → Completes (.delegateReq now) s fun t =>
        t.cluster.answers.head? = some (m.src, m.req, 0x06, le 8 m.req ++ grantBody 1 0 0) ∧ t.keys = s.keys) ∧
      (∀ i K H q, s.keys.live.find? (fun e => e.2.delegates && keyTag e.2.pubPart == tag) = some (i, K) → s.key? i = some K →
        K.hbs = some H → H.freeTree = some q → Completes (.delegateReq now) s fun t =>
          ∃ K' H', t.key? i = some K' ∧ K'.hbs = some H' ∧ (q ∈ H'.given) ∧ H'.next = H.next ∧ K'.material = K.material)) ∧
    (∀ m v r i K H, MerNext s 0x06 now m v → MerAnswers s m 0x05 r → 25 ≤ m.body.length → leAt m.body 8 1 = 0 →
      leAt m.body 9 8 < leAt m.body 17 8 →
      s.keys.live.find? (fun e => (e.2.hbs.any fun H => H.holder == some m.src) && keyTag e.2.pubPart == r.tag) = some (i, K) →
      s.key? i = some K → K.hbs = some H → Completes (.delegateGrant now) s fun t =>
        ∃ K' H', t.key? i = some K' ∧ K'.hbs = some H' ∧ H'.leaseLo = leAt m.body 9 8 ∧ H'.leaseHi = some (leAt m.body 17 8) ∧
          H'.next = leAt m.body 9 8 ∧ H'.upper = m.body.drop 25) ∧
    (∀ m v, MerNext s 0x07 now m v → m.body.length = 56 → (s.logReg 7).count ≠ 0xFFFFFFFF → Completes (.cross now) s fun t =>
      (t.logReg 7).value = sha384 ((s.logReg 7).value ++ ([4#8] ++ le 2 m.src ++ m.body)) ∧ (t.logReg 7).count = (s.logReg 7).count + 1) ∧
    (s.cluster.member = false → exec (.crossInterval now) s = .next u) ∧
    (s.cluster.member = true → Completes (.crossInterval now) s fun t =>
      t = { s with time := s.time.to now, cluster := t.cluster, regs := t.regs } ∧ t.cluster.marks = s.cluster.marks ∧
      t.cluster.roster = s.cluster.roster ∧ ∀ j, (t.link j).keyOut = (s.link j).keyOut ∧ (t.link j).ctrIn = (s.link j).ctrIn) ∧
    (∀ m v, MerNext s 0x08 now m v → let img := (s.cluster.roster.map (·.image)).getD []
      exec (.rosterGet now) s = .next (v.merSend m.src 0x09
        (le 8 m.req ++ le 4 (leAt m.body 8 4) ++ le 4 img.length ++ sliceOf img (leAt m.body 8 4) 32768))) ∧
    (∀ m v r, MerNext s 0x09 now m v → MerAnswers s m 0x08 r → leAt m.body 8 4 = s.cluster.rosterIn.length → m.body.drop 16 ≠ [] →
      leAt m.body 12 4 ≤ 64 + 64 * 16384 + 4635 → s.cluster.rosterIn.length + (m.body.length - 16) < leAt m.body 12 4 →
      Completes (.rosterData now) s fun t => t.cluster.rosterIn = s.cluster.rosterIn ++ m.body.drop 16 ∧
        t.cluster.roster = s.cluster.roster ∧ t.draws = s.draws + 8) ∧
    ∀ id r, s.cluster.requests.find? (fun r => r.id == id) = some r →
      (u.time.elapsed < r.sentAt + 10000000 → exec (.meridianRequestResend id now) s = .next u) ∧
      (r.sentAt + 10000000 ≤ u.time.elapsed → u.time.elapsed < r.first + 1000000000 → exec (.meridianRequestResend id now) s =
        .next (({ u with cluster := { s.cluster with requests := s.cluster.requests.map fun (x : MerReq) =>
          if x.id = r.id then { x with sentAt := u.time.elapsed } else x } } : State).merSend r.dst r.type r.body)) ∧
      (r.sentAt + 10000000 ≤ u.time.elapsed → r.first + 1000000000 ≤ u.time.elapsed → r.type ≠ 0x03 →
        exec (.meridianRequestResend id now) s =
          .next { u with cluster := { s.cluster with requests := s.cluster.requests.filter fun x => x.id != r.id } })

/-- R407-R410: a lead reads and writes its host's memory for an online device of its own and sends the device's vectors as its own;
a tethered device takes read data into its view of host memory, serves register accesses of its lead and applies the share it
is told from the next tick; the device comes online with its answer, goes offline when its path is lost, and a tethered
device that has lost its lead enters the safe state. The message bodies are the model's (log 52, DESIGN CHOICE). -/
def Obligations.TetheredDevicesUseTheirLeadsHost : Prop :=
  ∀ (s : State) (now : Nat), let u := s.at_ now
    (∀ m v d, MerNext s 0x10 now m v → s.tetherOf m.src = some d → s.faults.safe.on = false → m.body.length = 18 → MerFresh s m →
      let a := leAt m.body 8 8
      let n := leAt m.body 16 2
      0 < n → n ≤ 4096 →
      (s.readFault a n = none → exec (.tetherRd now) s = .next (v.merAnswer m.src m.req 0x11 ([0#8] ++ s.hostRead a n))) ∧
      (∀ k, s.readFault a n = some k → exec (.tetherRd now) s = .next (v.merAnswer m.src m.req 0x11 (le 1 k)))) ∧
    (∀ m v d, MerNext s 0x12 now m v → s.tetherOf m.src = some d → s.faults.safe.on = false → 17 ≤ m.body.length →
      let a := leAt m.body 9 8
      let data := m.body.drop 17
      data.length ≤ 4096 →
      (leAt m.body 8 1 = 0 → s.writeFault a data.length = none → Completes (.tetherWr now) s fun t =>
        t.hostMem = memWriteN s.hostMem a data ∧ t.queues = s.queues) ∧
      (leAt m.body 8 1 = 1 → a < 16 → data = [] → exec (.tetherWr now) s = .next (v.msix 0 (1024 + 16 * d + a)))) ∧
    (∀ m v r, MerNext s 0x11 now m v → MerAnswers s m 0x10 r → let a := leAt r.body 8 8
      let n := leAt r.body 16 2
      (leAt m.body 8 1 = 0 → Completes (.tetherCpl now) s fun t => t.hostMem = memWriteN s.hostMem a (fit n (m.body.drop 9)) ∧
        t.host = s.host) ∧
      (leAt m.body 8 1 ≠ 0 → Completes (.tetherCpl now) s fun t => t.hostMem = s.hostMem ∧
        t.host.readFaults = s.host.readFaults ++ [(a, n, leAt m.body 8 1)])) ∧
    (∀ m v, MerNext s 0x13 now m v → s.cluster.tethered = true → s.faults.safe.on = false → m.body.length = 22 → MerFresh s m →
      (leAt m.body 8 1 = 2 → Completes (.tetherReg now) s fun t => t.host.budgetNext = some (leAt m.body 14 8) ∧
        t.cluster.lead = some m.src ∧ t.host.budget = s.host.budget) ∧
      (leAt m.body 8 1 = 0 → Completes (.tetherReg now) s fun t => t.host.lastRead = s.host.lastRead)) ∧
    (∀ m v r, MerNext s 0x14 now m v → MerAnswers s m 0x13 r →
      (leAt r.body 8 1 = 0 → Completes (.tetherRegCpl now) s fun t => t.host.lastRead = BitVec.ofNat 64 (leAt m.body 8 8) ∧
        t.cluster.tether = s.cluster.tether) ∧
      (∀ d, leAt r.body 8 1 = 2 → s.tetherOf m.src = some d → Completes (.tetherRegCpl now) s fun t => (t.tether d).online = true)) ∧
    ∀ n, n < 16384 →
      (s.cluster.requests = [] → ∀ k, s.merRoute n = some k → (s.link k).carries = true → exec (.tetherPathLost n now) s = .next u) ∧
      (s.merRoute n = none → s.cluster.tethered = true → s.cluster.lead = some n → Completes (.tetherPathLost n now) s fun t =>
        t.faults.safe.on = true ∧ (t.src 262).total = satAdd 32 (s.src 262).total 1) ∧
      (∀ d, s.merRoute n = none → s.cluster.tethered = false → s.tetherOf n = some d → Completes (.tetherPathLost n now) s fun t =>
        (t.tether d).online = false)

/-! ### Life cycle and debug (19_lifecycle_debug.md) -/

/-- The life-cycle and boot blocks answer the manager (R464). -/
abbrev BootOn (s : State) : Prop := (s.boot.ready = true ∨ s.boot.landfall = true) ∧ s.host.d3hot = false

/-- A refused request (R447, R448): the reason, one more in DBG.FAILS, 1 s of further refusals, a new nonce, nothing else. -/
abbrev RequestRefused (s : State) (reason : Nat) : State :=
  { s with
    lc := { s.lc with
      reason := reason, fails := satAdd 32 s.lc.fails 1, refuseUntil := s.time.elapsed + 1000000000,
      nonce := drbgBytes s.draws 32 },
    draws := s.draws + 32 }

/-- The device has reset itself: not booted, no jobs, no queues, no grant, the almanac at its checkpoint. -/
abbrev SelfReset (t : State) : Prop :=
  t.boot.ready = false ∧ t.boot.landfall = false ∧ t.boot.booted = false ∧ t.jobs = [] ∧ t.queues = [] ∧ t.pins.permit = 0 ∧
  t.lc.grant = 0 ∧ t.lc.debugged = false ∧ t.lc.busy = false ∧ t.regs = []

/-- R447-R449: the checks of a request in their order; the first that fails gives its reason, counts the refusal, starts a second
in which requests are refused and draws a new nonce, and changes nothing else. R446: the signatures that each request needs. R449, R450: an accepted debug request ORs its scope into the grant, sets DEBUGGED, ends the sessions of attestation, draws a new
nonce and extends LOG[0]; in DEPLOYED the key cache drops NO_DEBUG keys and a staged job that pins one is aborted; elsewhere
nothing else changes. -/
def Obligations.RequestsAreCheckedAndGrantsWiden : Prop :=
  (∀ (s : State) (now : Nat), BootOn s →
    let u := s.at_ now
    let b := u.lcBlock
    let refused (kind r : Nat) : Prop :=
      (kind = 1 → exec (.transition now) s = .next (RequestRefused u r)) ∧
      (kind = 2 → exec (.debugGrant now) s = .next (RequestRefused u r))
    (s.reg 0xE0058 < 96 ∨ 65536 < s.reg 0xE0058 ∨ leAt b 0 4 ≠ 0x48545541 ∨ leAt b 4 2 ≠ 1 → refused 1 1 ∧ refused 2 1) ∧
    (∀ l, lifeStates[leAt b 7 1]? = some l → lifeStep s.lc.state l = true →
      (u.needsVendor b 1 = true ↔
        l ∈ [LifeState.test, .provision, .owned] ∨ (l = .scrapped ∧ s.lc.state ≠ .owned ∧ s.lc.state ≠ .deployed)) ∧
      (u.needsOwner b 1 = true ↔
        l ∈ [LifeState.owned, .deployed, .returned] ∨ (l = .scrapped ∧ (s.lc.state = .owned ∨ s.lc.state = .deployed))) ∧
      (l = .owned → u.ownerQuorum b 1 = (ownerKeys (authOwner b), leAt b 2688 1)) ∧
      (l ≠ .owned → u.ownerQuorum b 1 = (s.lc.recovery, s.lc.quorumM))) ∧
    u.needsVendor b 2 = true ∧ (u.needsOwner b 2 = true ↔ s.lc.state = .owned ∨ s.lc.state = .deployed) ∧
    (leAt b 6 1 ≠ 1 → refused 1 1) ∧ (leAt b 6 1 ≠ 2 → refused 2 1) ∧
    (∀ kind, (kind = 1 ∨ kind = 2) → authFormat b kind = true →
      (sliceOf b 16 64 ≠ u.challenge → refused kind 2) ∧
      (sliceOf b 16 64 = u.challenge →
        (kind = 1 → (∀ l, lifeStates[leAt b 7 1]? = some l → lifeStep s.lc.state l = false) → refused kind 3) ∧
        (kind = 2 → s.lc.state = .raw ∨ s.lc.state = .scrapped → refused kind 3) ∧
        (kind = 2 → s.lc.state = .deployed ∨ s.lc.state = .owned ∨ s.lc.state = .provision →
          (leAt b 8 4).testBit 2 = true ∨ (leAt b 8 4).testBit 7 = true → refused kind 3) ∧
        (u.authAllowed b kind = true →
          (u.needsVendor b kind = true → leAt b 12 1 = 0 ∨ u.vendorSigned b = false → refused kind 4) ∧
          (u.needsVendor b kind = false ∨ u.vendorSigned b = true →
            (u.needsOwner b kind = true → leAt b 13 1 = 0 → refused kind 5) ∧
            (u.needsOwner b kind = false →
              s.lc.busy = true ∨ (s.time.to now).elapsed < s.lc.refuseUntil → refused kind 6)))))) ∧
  ((∀ (s : State) (now : Nat), BootOn s → let u := s.at_ now
    u.authRefused u.lcBlock 2 = none → Completes (.debugGrant now) s fun t =>
      t.lc = { s.lc with
        grant := s.lc.grant ||| BitVec.ofNat 32 (leAt u.lcBlock 8 4), debugged := true, nonce := t.lc.nonce } ∧
      t.lc.nonce.length = 32 ∧ t.host.sessions = [] ∧
      (s.lc.state ≠ .deployed →
        (u.logFull 0 = false → t.logReg 0 = { s.logReg 0 with
          count := (s.logReg 0).count + 1,
            value := sha384 ((s.logReg 0).value ++ (sha384 u.challenge ++ le 4 (leAt u.lcBlock 8 4))) }) ∧
        t.draws = s.draws + 32 ∧ t.jobs = s.jobs ∧ t.keys = s.keys ∧ t.tiles = s.tiles ∧ t.pins = s.pins ∧
        t.hostMem = s.hostMem ∧ t.chart = s.chart) ∧
      (s.lc.state = .deployed → ∀ i K, s.key? i = some K → K.flags.getLsbD 0 = true →
        tget t.keys.cache i = none ∧
        ∀ j J, s.jobs = [(j, J)] → J.pin = some i → J.phase = .staged → J.steps = [] → J.released = 0 → J.atEnd = false →
          Answered t j St.aborted 0)) ∧
  (∀ (s : State) (payload : List Byte) (now : Nat), let u := s.at_ now
    let v := { u with boot := { u.boot with tap := TapInstr.authorise } }
    (∀ r, v.authRefused payload 2 = some r →
      exec (.tapInstruction .authorise payload now) s = .next (RequestRefused v r)) ∧
    (v.authRefused payload 2 = none → Completes (.tapInstruction .authorise payload now) s fun t =>
      t.lc.grant = s.lc.grant ||| BitVec.ofNat 32 (leAt payload 8 4) ∧ t.lc.debugged = true ∧ t.host.sessions = [])) ∧
  ∀ (s : State) (ir : TapInstr) (payload : List Byte) (now : Nat), ir ≠ .authorise → let u := s.at_ now
    let open_ (bit : Nat) : Bool := s.lc.state == .raw || s.lc.grant.getLsbD bit
    let decoded : Bool := match ir with
      | .samplePreload => open_ 0
      | .extest => open_ 0 && s.faults.safe.on
      | .helmDebug => open_ 1
      | .binnacleDebug => open_ 2
      | .tileDebug => open_ 3
      | .factoryTest => s.lc.state == .raw || ((s.lc.state == .test || s.lc.state == .returned) && s.lc.grant.getLsbD 7)
      | _ => true
    ∃ out, exec (.tapInstruction ir payload now) s = .next
      ({ u with boot := { u.boot with tap := if decoded then ir else .bypass } }.emit (.tap out)) ∧
      (decoded = false → out = []) ∧ (ir = .readChallenge → out = u.challenge) ∧
      (ir = .readLcState → out.length = 4 ∧ leAt out 0 1 % 8 = lifeCode s.lc.state))

/-- R436, R442-R444: an accepted transition programs the three OTP copies with the target's code, clears its intent record, does the
target's steps and resets the device; a boot completes a transition whose record it finds, if every copy lies between the two
codes, and is SCRAPPED otherwise; nothing leaves SCRAPPED. -/
def Obligations.LifeCycleOnlyMovesForward : Prop :=
  (∀ (s : State) (now : Nat) (to_ : LifeState), BootOn s → let u := s.at_ now
    u.authRefused u.lcBlock 1 = none → lifeStates[leAt u.lcBlock 7 1]? = some to_ →
    let owner := authOwner u.lcBlock
    Completes (.transition now) s fun t =>
      SelfReset t ∧ t.lc.copyA = lifeOtp to_ ∧ t.lc.copyB = lifeOtp to_ ∧ t.lc.copyC = lifeOtp to_ ∧ t.lc.intent = none ∧
      t.lc.deviceId = s.lc.deviceId ∧ t.lc.thermometer = s.lc.thermometer ∧
      (to_ = .test → t.lc.dus.isSome ∧ (∀ d, s.lc.dus = some d → t.lc.dus = some d)) ∧
      (to_ = .provision → (∃ d, t.lc.dr = some (drbgBytes d 32) ∧ t.lc.pmk = some (drbgBytes (d + 32) 32)) ∧
        t.keys.live = [] ∧ t.chart.slotA = none ∧ t.chart.slotB = none ∧ t.auth.running = none ∧ t.cluster.roster = none) ∧
      (to_ = .owned → t.lc.chartKey = owner.take 2592 ∧ t.lc.quorumM = leAt owner 2592 1 ∧ t.lc.recovery = ownerKeys owner ∧
        t.lc.ownerRoot.isSome ∧ t.lc.sealGen = s.lc.sealGen + 1) ∧
      (to_ = .returned → t.keys.live = [] ∧ t.keys.counters = [] ∧ t.chart.slotA = none ∧ t.chart.slotB = none ∧
        t.chart.floor = 0 ∧ t.auth.running = none ∧ t.auth.floor = 0 ∧ t.auth.seqs = [] ∧ t.time.signedOnly = false ∧
        t.service.floor = 0 ∧ t.flash.ownerArea = [] ∧ t.lc.ownerRoot = none ∧ t.lc.chartKey = [] ∧ t.lc.recovery = [] ∧
        (∃ d, t.lc.pmk = some (drbgBytes d 32))) ∧
      (to_ = .scrapped → t.lc.dr = none ∧ t.lc.pmk = none ∧ t.lc.ownerRoot = none ∧ t.keys.live = [])) ∧
  (∀ (s : State) (env : BootEnv) (i : Intent), s.boot.booted = false → s.boot.ready = false → env.nvsOk = true → s.lc.intent = some i →
    s.pins.strap = true →
    (s.lc.intentOk i = true → Completes (.boot env) s fun t =>
      t.lc.state = i.target ∧ t.lc.allAgree = true ∧ t.lc.resumed = true ∧ t.lc.intent = none ∧
      InLandfall t (if i.target = .scrapped then 7 else 1)) ∧
    (s.lc.intentOk i = false → Completes (.boot env) s fun t => t.lc.state = .scrapped ∧ InLandfall t 7)) ∧
  (∀ a b : LifeState, lifeStep a b = true ↔
    (a, b) ∈ [(LifeState.raw, LifeState.test), (.test, .provision), (.provision, .owned), (.owned, .deployed), (.owned, .returned),
      (.deployed, .returned)] ∨ (a ≠ .scrapped ∧ b = .scrapped)) ∧
  (∀ (s : State) (l : LifeState), lifeStates[leAt s.lcBlock 7 1]? = some l → lifeStep s.lc.state l = false →
    s.authRefused s.lcBlock 1 ≠ none) ∧
  ∀ a b c l, lifeDecode a b c = (l, true) → l ≠ .scrapped → a = lifeOtp l ∧ b = lifeOtp l ∧ c = lifeOtp l

/-! ### Firmware and recovery (20_boot_landfall.md) -/

/-- R455, R456, R459-R462: a firmware command under way, a transition or a chart operation makes every one of the four busy, reason
6; STAGE of a bundle that fails a check gives the check's reason and leaves TRY clear, any other is written to the idle slot
alone and sets TRY; ACTIVATE resets the device while TRY is set; CONFIRM on a READY try boot installs the bundle's patch
images and makes its slot ACTIVE, and is refused with 9 where the directory has no room; COMMIT_SVN raises the thermometer to
the running version, below which no slot is valid; elsewhere the reason is 8. -/
def Obligations.FirmwareUpdatesKeepTheOtherSlot : Prop :=
  ∀ (s : State) (now : Nat), BootOn s →
    let u := s.at_ now
    let b := u.fwSource
    let k := s.idleSlot
    (s.boot.fwBusy = true ∨ s.lc.busy = true ∨ s.chart.op.isSome →
      exec (.stage now) s = .next { u with boot := { s.boot with fwBusy := false, fwReason := 6 } } ∧
      ∀ c ∈ [Instr.activate, .confirm, .commitSvn],
        exec c s = .next { s with boot := { s.boot with fwBusy := false, fwReason := 6 } }) ∧
    (s.boot.fwBusy = false → s.lc.busy = false → s.chart.op = none →
      (∀ r, u.stageRefused b = some r → Completes (.stage now) s fun t =>
        t.boot = { s.boot with fwReason := r, fwBusy := false } ∧ t.flash.try_ = 0 ∧ t.flash.active = s.flash.active ∧
        t.flash.slotA = s.flash.slotA ∧ t.flash.slotB = s.flash.slotB ∧
        t = { u with boot := t.boot, flash := t.flash, progress := t.progress }) ∧
      (u.stageRefused b = none → Completes (.stage now) s fun t =>
        t.boot = { s.boot with fwReason := 0, fwBusy := false } ∧ t.flash.try_ = 1 ∧ t.flash.active = s.flash.active ∧
        t.flash.slot k = b ∧ t.flash.slot (1 - k) = s.flash.slot (1 - k) ∧ t.flash.chartArea = s.flash.chartArea ∧
        t.flash.ownerArea = s.flash.ownerArea ∧ t = { u with boot := t.boot, flash := t.flash, progress := t.progress }) ∧
      (25165824 < s.reg 0xE1020 ∨ s.reg 0xE1018 % 8 ≠ 0 → u.stageRefused b = some 1) ∧
      (bundleFormat b = true →
        (u.keysKnown (bundleKeys b) = false → u.stageRefused b = some 2) ∧
        (u.keysKnown (bundleKeys b) = true →
          vendorSignatures (bundleKeys b) (ascii "psibuaz-fw") (b.take (bundleSigAt b)) (b.drop (bundleSigAt b)) = true →
          ((leAt b 24 1).testBit (variantBit s.variant) = false → u.stageRefused b = some 4) ∧
          ((leAt b 24 1).testBit (variantBit s.variant) = true →
            (leAt b 6 1 < s.lc.thermometer → u.stageRefused b = some 3) ∧
            (s.lc.thermometer ≤ leAt b 6 1 → (∃ c ∈ components b, sha384 (sliceOf b c.off c.len) ≠ c.digest) →
              u.stageRefused b = some 5)))) ∧
      (s.flash.try_ = 1 → Completes .activate s fun t => Restarted s t ∧ LogKept s t) ∧
      (s.flash.try_ ≠ 1 → exec .activate s = .next { s with boot := { s.boot with fwReason := 8, fwBusy := false } }) ∧
      (s.boot.bundle = none ∨ s.boot.tryBoot = false ∨ s.boot.ready = false →
        exec .confirm s = .next { s with boot := { s.boot with fwReason := 8, fwBusy := false } }) ∧
      (∀ B, s.boot.bundle = some B → s.boot.tryBoot = true → s.boot.ready = true →
        (s.patchRoom (s.flash.slot B.slot) = false →
          exec .confirm s = .next { s with boot := { s.boot with fwReason := 9, fwBusy := false } }) ∧
        (s.patchRoom (s.flash.slot B.slot) = true → Completes .confirm s fun t =>
          t.boot = { s.boot with confirmed := true, confirmRec := none, fwReason := 0, fwBusy := false } ∧
          t.flash.active = B.slot ∧ t.flash.try_ = 0 ∧ t.flash.slotA = s.flash.slotA ∧ t.flash.slotB = s.flash.slotB ∧
          t.chart = s.chart.installAll (s.flash.slot B.slot) ∧ (∀ e ∈ t.chart.mcode, e.1 < 32) ∧ t.lc = s.lc ∧ t.keys = s.keys)) ∧
      (s.boot.bundle = none ∨ (s.boot.tryBoot = true ∧ s.boot.confirmed = false) ∨ s.svn ≤ s.lc.thermometer →
        exec .commitSvn s = .next { s with boot := { s.boot with fwReason := 8, fwBusy := false } }) ∧
      (∀ B, s.boot.bundle = some B → s.boot.tryBoot = false ∨ s.boot.confirmed = true → s.lc.thermometer < B.svn →
        Completes .commitSvn s fun t =>
          t.lc = { s.lc with thermometer := B.svn } ∧ t.boot = { s.boot with fwReason := 0, fwBusy := false } ∧
          t = { s with lc := t.lc, boot := t.boot, progress := t.progress } ∧
          ∀ i, leAt (s.flash.slot i) 6 1 < B.svn → t.slotValid i = false))

/-- A carrier of the recovery protocol is served: in Landfall mode, the PF's while its BAR0 answers. -/
abbrev Served (s : State) (tr : RcvPort) : Prop := s.boot.landfall = true ∧ (tr = .pf → s.host.d3hot = false)

/-- A request acts and is answered: `P` describes the state it leaves, and the STATUS and body of the response, which is kept
for a repetition of its SEQ and leaves by its carrier. -/
abbrev Recovers (cmd : Instr) (s : State) (tr : RcvPort) (seq op : Nat) (P : State → Nat → Bytes → Prop) : Prop :=
  ∃ u status body, P u status body ∧ ∃ m : Bytes, m = rcvMessage op status seq body ∧ m.length = 16 + body.length ∧
    exec cmd s = .next ({ u with boot := { u.boot with
      rcvSeq := tput u.boot.rcvSeq (rcvIdx tr) seq, rcvAnswer := tput u.boot.rcvAnswer (rcvIdx tr) m } }.rcvSend tr (s.reg 0xE2008) m)

/-- A chunk of 1 to 1,024 bytes that lies within `size` bytes. -/
abbrev Chunk (body : Bytes) (size : Nat) : Prop :=
  8 ≤ body.length ∧ body.length ≤ 1032 ∧ leAt body 0 8 + (body.length - 8) ≤ size

/-- `new` is `old` with a chunk laid over it. -/
abbrev Laid (new old body : Bytes) : Prop :=
  ∀ i, new.getD i 0 = if leAt body 0 8 ≤ i ∧ i < leAt body 0 8 + (body.length - 8) then body.getD (8 + i - leAt body 0 8) 0
    else old.getD i 0

/-- R465: outside Landfall mode no request is served, in SCRAPPED HELLO alone; a SEQ answered last gets its answer again;
HELLO and READ_PROGRESS report; chunks of a bundle go to the slot that is not ACTIVE, those of a block and of a chart to
their buffers, and one outside its area is refused; FINISH and SUBMIT act as the manager's commands do; SELF_TEST runs the
tests; RESET resets the device, to a normal boot or to Landfall mode. R465, R466: the UART's commands print, test and reset
in Landfall mode alone; a Neighbour Solicitation for the management port's own address is answered with its MAC, and any
other is not. The four firmware commands complete outside Landfall mode too (R459-R462). -/
def Obligations.RecoveryProtocolAndUartInLandfallMode : Prop :=
  (∀ (s : State) (tr : RcvPort) (seq now : Nat) (body : List Byte) (res : TestResults),
    let k := 1 - s.flash.active
    let rows := [(0x01, Instr.hello tr seq), (0x02, .readProgress tr seq), (0x03, .fwWrite tr seq body), (0x04, .fwFinish tr seq body),
      (0x05, .authWrite tr seq body), (0x07, .chartWrite tr seq body), (0x08, .chartFinish tr seq body),
      (0x09, .selfTest tr seq res), (0x0A, .recoveryReset tr seq body)]
    (∀ op cmd, (op, cmd) ∈ rows →
      (¬ Served s tr ∨ (s.lc.state = .scrapped ∧ op ≠ 1) → exec cmd s = .next s) ∧
      (∀ m, Served s tr → (s.lc.state = .scrapped → op = 1) → tget s.boot.rcvSeq (rcvIdx tr) = some seq →
        tget s.boot.rcvAnswer (rcvIdx tr) = some m →
        (tr = .management → exec cmd s = .next (s.emit (.recovery .management m))) ∧
        (tr = .pf → s.writeFault (s.reg 0xE2008) m.length = none → exec cmd s = .next (s.hostWrite (s.reg 0xE2008) m)))) ∧
    (¬ Served s tr ∨ s.lc.state = .scrapped → exec (.authSubmit tr seq now) s = .next (s.at_ now)) ∧
    (Served s tr → tget s.boot.rcvSeq (rcvIdx tr) ≠ some seq →
      Recovers (.hello tr seq) s tr seq 0x01 (fun u status b =>
        u = s ∧ status = 0 ∧ b.take 64 = s.challenge ∧ b.length = 72 ∧ leAt b 64 1 % 8 = lifeCode s.lc.state) ∧
      (s.lc.state ≠ .scrapped →
        Recovers (.readProgress tr seq) s tr seq 0x02 (fun u status b => u = s ∧ status = 0 ∧ b.length = 512) ∧
        (Chunk body 25165824 → Recovers (.fwWrite tr seq body) s tr seq 0x03 fun u status b =>
          status = 0 ∧ b = [] ∧ Laid (u.flash.slot k) (s.flash.slot k) body ∧ u.flash.slot (1 - k) = s.flash.slot (1 - k) ∧
          u.flash.dir = s.flash.dir ∧ u = { s with flash := u.flash }) ∧
        (¬ Chunk body 25165824 → Recovers (.fwWrite tr seq body) s tr seq 0x03 fun u status b => u = s ∧ status = 1 ∧ b = []) ∧
        (s.fwBusyNow = true → Recovers (.fwFinish tr seq body) s tr seq 0x04 fun u status b =>
          status = 6 ∧ b = [] ∧ u.flash = s.flash) ∧
        (s.fwBusyNow = false →
          let img := (s.flash.slot k).take (leAt body 0 4)
          (body.length ≠ 4 ∨ bundleLen img ≠ leAt body 0 4 → Recovers (.fwFinish tr seq body) s tr seq 0x04 fun u status b =>
            status = 1 ∧ b = [] ∧ u.flash = s.flash) ∧
          (body.length = 4 → bundleLen img = leAt body 0 4 →
            (∀ r, s.stageRefused img = some r → Recovers (.fwFinish tr seq body) s tr seq 0x04 fun u status b =>
              status = r ∧ b = [] ∧ u.flash.try_ = 0 ∧ u.boot.fwReason = r) ∧
            (s.stageRefused img = none → Recovers (.fwFinish tr seq body) s tr seq 0x04 fun u status b =>
              status = 0 ∧ b = [] ∧ u.flash.try_ = 1 ∧ u.flash.slot k = img ∧ u.flash.active = s.flash.active ∧
              u.flash.slot (1 - k) = s.flash.slot (1 - k)))) ∧
        (Chunk body 65536 → Recovers (.authWrite tr seq body) s tr seq 0x05 fun u status b =>
          status = 0 ∧ b = [] ∧ Laid u.boot.authBuf s.boot.authBuf body ∧
          u = { s with boot := { s.boot with authBuf := u.boot.authBuf } }) ∧
        (¬ Chunk body 65536 → Recovers (.authWrite tr seq body) s tr seq 0x05 fun u status b => u = s ∧ status = 1 ∧ b = []) ∧
        (Chunk body 1048576 → Recovers (.chartWrite tr seq body) s tr seq 0x07 fun u status b =>
          status = 0 ∧ b = [] ∧ Laid u.flash.chartArea s.flash.chartArea body ∧
          u = { s with flash := { s.flash with chartArea := u.flash.chartArea } }) ∧
        (¬ Chunk body 1048576 → Recovers (.chartWrite tr seq body) s tr seq 0x07 fun u status b => u = s ∧ status = 1 ∧ b = []) ∧
        (body.length = 4 → Recovers (.chartFinish tr seq body) s tr seq 0x08 fun u status b => b = [] ∧
          status = (if s.faults.safe.on then 0x000C else (s.chartRefused (s.flash.chartArea.take (leAt body 0 4)) false).getD 0) ∧
          u = (if status = 0 then s else { s with chart := { s.chart with lastReason := status } })) ∧
        (4 ≤ s.firmwareCores.length → Recovers (.selfTest tr seq ⟨true, true, [], [], []⟩) s tr seq 0x09 fun u status b =>
          status = 0 ∧ b = [] ∧ u = { s with progress := u.progress }) ∧
        (res.entropyOk = false ∨ res.binnacleOk = false → Recovers (.selfTest tr seq res) s tr seq 0x09 fun u status b =>
          status = 0 ∧ b = [] ∧ u.boot.reason = 6) ∧
        (body = [0#8] → Recovers (.recoveryReset tr seq body) s tr seq 0x0A fun u status b => status = 0 ∧ b = [] ∧
          Restarted s u ∧ u.boot.forceReason = s.boot.forceReason) ∧
        (body = [1#8] → Recovers (.recoveryReset tr seq body) s tr seq 0x0A fun u status b => status = 0 ∧ b = [] ∧
          Restarted s u ∧ u.boot.forceReason = 9) ∧
        (body ≠ [0#8] → body ≠ [1#8] → Recovers (.recoveryReset tr seq body) s tr seq 0x0A fun u status b =>
          u = s ∧ status = 1 ∧ b = []) ∧
        (let v := { s.at_ now with boot := { s.boot with authBuf := [] } }
         leAt s.boot.authBuf 6 1 = 2 →
          (∀ r, v.authRefused s.boot.authBuf 2 = some r → Recovers (.authSubmit tr seq now) s tr seq 0x06 fun u status b =>
            status = r ∧ b = [] ∧ u = RequestRefused v r) ∧
          (v.authRefused s.boot.authBuf 2 = none → Recovers (.authSubmit tr seq now) s tr seq 0x06 fun u status b =>
            status = 0 ∧ b = [] ∧ u.lc.debugged = true ∧
            u.lc.grant = s.lc.grant ||| BitVec.ofNat 32 (leAt s.boot.authBuf 8 4)))))) ∧
  (∀ (s : State) (landfall : Bool) (res : TestResults) (target : List Byte),
    (s.boot.landfall = false → ∀ c ∈ [Instr.uartState, .uartProgress, .uartSelftest res, .uartReset landfall,
      .neighbourSolicitation target], exec c s = .next s) ∧
    (s.boot.landfall = true →
      (∃ a b : String, exec .uartState s = .next { s with outbox := .uart b :: .uart a :: s.outbox }) ∧
      (s.lc.state ≠ .scrapped →
        (∃ out : List String, exec .uartProgress s = .next { s with outbox := out.map Output.uart ++ s.outbox } ∧
          out.length = ((List.range 16).filter fun i => (s.prog i).state != 0).length) ∧
        (4 ≤ s.firmwareCores.length → Completes (.uartSelftest ⟨true, true, [], [], []⟩) s fun t =>
          t = { s with progress := t.progress }) ∧
        (Completes (.uartReset landfall) s fun t => Restarted s t ∧
          t.boot.forceReason = if landfall then 9 else s.boot.forceReason) ∧
        (let own := linkLocal s.managementMac
         own.length = 16 ∧ own.take 2 = [0xFE#8, 0x80#8] ∧
         (target = own → exec (.neighbourSolicitation target) s = .next (s.emit (.neighbour (own ++ s.managementMac)))) ∧
         (target ≠ own → exec (.neighbourSolicitation target) s = .next s))))) ∧
  ∀ (s : State) (now : Nat), BootOn s → s.boot.fwBusy = false → s.lc.busy = false → s.chart.op = none →
    ((s.at_ now).stageRefused (s.at_ now).fwSource = none → Completes (.stage now) s fun t => t.flash.try_ = 1 ∧
      t.flash.slot s.idleSlot = (s.at_ now).fwSource ∧ t.boot.fwReason = 0) ∧
    (s.flash.try_ = 1 → Completes .activate s fun t => Restarted s t ∧ LogKept s t) ∧
    ∀ B, s.boot.bundle = some B →
      (s.boot.tryBoot = true → s.boot.ready = true → s.patchRoom (s.flash.slot B.slot) = true → Completes .confirm s fun t =>
        t.flash.active = B.slot ∧ t.flash.try_ = 0 ∧ t.boot.fwReason = 0) ∧
      (s.boot.tryBoot = false ∨ s.boot.confirmed = true → s.lc.thermometer < B.svn → Completes .commitSvn s fun t =>
        t.lc = { s.lc with thermometer := B.svn } ∧ t.boot.fwReason = 0)

/-! ### The queue, the state after reset, and the encoding of the Pelorus extension -/

/-- A step takes the command at the front of the queue and does exactly what that command does with the queue's rest; on an
empty queue the block idles (the model's choice, log 16). -/
def Obligations.StepRunsTheCommandInFront : Prop :=
  (∀ (s : State) (c : Instr) (rest : List Instr), s.pending = c :: rest → step s = exec c { s with pending := rest }) ∧
  ∀ s : State, s.pending = [] → step s = .next s

/-- From every state whose waiting commands are well formed, a step either goes on, with the rest of the queue as it was, in
order, and still well formed, or stops because the command names a thing that is not there; no command is refused, and no
command adds, drops or reorders another (the queue is the model's, log 16). -/
def Obligations.StepKeepsTheWaitingCommands : Prop :=
  (∀ s : State, s.queueOk →
    (∃ t, step s = .next t ∧ t.pending = s.pending.tail ∧ t.queueOk) ∨ step s = .fault .noSuchIndex) ∧
  (∀ (c : Instr) (s t : State), exec c s = .next t → t.pending = s.pending) ∧
  ∀ (c : Instr) (s : State) (r : Refusal), exec c s ≠ .refused r

/-- R264, R297, R317, R354, R418, R447, R452, R457: after reset nothing is in flight and nothing waits, the device is not READY, the
permit lines are low, it is not in the safe state, every function and every fault source has its default settings, the staging
overflow region has its default size, the logbook registers have extended nothing, and no debug grant is in force. -/
def Obligations.ResetHoldsTheSpecsValues : Prop :=
  let r := State.reset
  r.queueOk ∧ r.pending = [] ∧ r.jobs = [] ∧ memWf r.hostMem = true ∧ r.boot.ready = false ∧ r.boot.landfall = false ∧
  r.boot.phase = 0 ∧ r.keys.ready = false ∧ r.pins.permit = 0 ∧ r.faults.safe.on = false ∧ r.faults.safe.halt = false ∧
  r.time.elapsed = 0 ∧ r.time.trusted = false ∧ r.lc.grant = 0 ∧ r.lc.debugged = false ∧ r.overflowMib = 2048 ∧
  r.pfReg 0x30038 = some (4, 256 + 2048 * 4096) ∧
  (∀ f < 0x100, (r.fn f).weight = 16 ∧ (r.fn f).quiesce = none ∧ ((r.fn f).safety = true ↔ f = 0) ∧
    (r.fn f).maxQueues = (if f = 0 then 3840 else 63)) ∧
  (∀ f, ∀ g < 33, (r.fn f).shares[g]? = some (if f = 0 then 768 else if f = 0x100 then 256 else 0)) ∧
  (∀ n, (r.src n).count = 0 ∧ (r.src n).attn = false ∧ (r.src n).present = false ∧
    ((r.src n).n, (r.src n).w) = (if n = 138 then (4, 1000) else if n = 385 then (64, 1) else
      if 224 ≤ n ∧ n ≤ 287 then (64, 1000) else (16, 1000))) ∧
  (∀ n, (r.logReg n).count = 0 ∧ (r.logReg n).epoch = 0) ∧
  ∀ q, (r.queue q).mode = .absent

/-- R377-R380: a word spells a Pelorus instruction exactly when it is the word that the encoding tables give that instruction, with
every register, width and offset at every value: decoding what is encoded gives the instruction back, no two instructions share
a word, and a word of the major opcode that the tables do not list spells none. -/
def Obligations.PelorusWordsDecodeToWhatTheyEncode : Prop :=
  (∀ (x : BitVec 32) (v : VecInstr), pelorusDecode x = some v ↔ v.encode = x) ∧
  (∀ v w : VecInstr, v.encode = w.encode → v = w) ∧
  ∀ x : BitVec 32, x.extractLsb' 0 7 ≠ 0b0101011#7 → pelorusDecode x = none
end

