-- ==== Sys2Proof/Laws/State.lean ====
section
/-! SUPPORT. What each update of the state leaves alone, one lemma for each field it does not write, and what each
accessor reads after it. -/

namespace Sys2Proof.Machine

/-! ### Sparse tables -/

@[simp] theorem tget_tput_same {α : Type} (t : Table α) (k : Nat) (v : α) : tget (tput t k v) k = some v := by
  induction t with
  | nil => simp [tput, tget]
  | cons e t ih =>
    obtain ⟨i, w⟩ := e
    unfold tput
    split
    · simp [tget]
    · split
      · simp [tget]
      · rename_i h1 h2
        simp [tget, Ne.symm h2, ih]

theorem tget_tput_ne {α : Type} (t : Table α) (k m : Nat) (v : α) (h : m ≠ k) : tget (tput t k v) m = tget t m := by
  induction t with
  | nil => simp [tput, tget, Ne.symm h]
  | cons e t ih =>
    obtain ⟨i, w⟩ := e
    unfold tput
    split
    · simp [tget, Ne.symm h]
    · split
      · rename_i h2
        subst h2
        simp [tget, Ne.symm h]
      · simp [tget, ih]

theorem tget_tput {α : Type} (t : Table α) (k m : Nat) (v : α) :
    tget (tput t k v) m = if m = k then some v else tget t m := by
  split
  · rename_i h
    subst h
    exact tget_tput_same t m v
  · rename_i h
    exact tget_tput_ne t k m v h

theorem tget_tmod {α : Type} (t : Table α) (k m : Nat) (f : α → α) :
    tget (tmod t k f) m = if m = k then (tget t m).map f else tget t m := by
  induction t with
  | nil => simp [tmod, tget]
  | cons e t ih =>
    obtain ⟨i, w⟩ := e
    simp only [tmod, List.map_cons] at ih ⊢
    by_cases h : i = k
    · subst h
      by_cases hm : i = m
      · subst hm
        simp [tget]
      · simp only [↓reduceIte, tget, hm]
        rw [ih]
    · by_cases hm : i = m
      · subst hm
        simp [tget, h]
      · simp only [h, ↓reduceIte, tget, hm]
        rw [ih]

@[simp] theorem tget_tmod_same {α : Type} (t : Table α) (k : Nat) (f : α → α) :
    tget (tmod t k f) k = (tget t k).map f := by simp [tget_tmod]

theorem tget_tdel {α : Type} (t : Table α) (k m : Nat) : tget (tdel t k) m = if m = k then none else tget t m := by
  induction t with
  | nil => simp [tdel, tget]
  | cons e t ih =>
    obtain ⟨i, w⟩ := e
    by_cases h : i = k
    · subst h
      simp only [tdel, bne_self_eq_false, Bool.false_eq_true, not_false_eq_true, List.filter_cons_of_neg, tget] at ih ⊢
      rw [ih]
      split
      · rfl
      · rename_i hm
        simp [Ne.symm hm]
    · simp only [tdel, bne_iff_ne, ne_eq, h, not_false_eq_true, List.filter_cons_of_pos, tget] at ih ⊢
      split
      · rename_i hm
        subst hm
        simp [h]
      · exact ih

/-! ### What each update leaves alone -/

@[simp] theorem State.setReg_variant (s : State) (o v : Nat) : (s.setReg o v).variant = s.variant := rfl
@[simp] theorem State.setReg_grade (s : State) (o v : Nat) : (s.setReg o v).grade = s.grade := rfl
@[simp] theorem State.setReg_lc (s : State) (o v : Nat) : (s.setReg o v).lc = s.lc := rfl
@[simp] theorem State.setReg_time (s : State) (o v : Nat) : (s.setReg o v).time = s.time := rfl
@[simp] theorem State.setReg_pins (s : State) (o v : Nat) : (s.setReg o v).pins = s.pins := rfl
@[simp] theorem State.setReg_boot (s : State) (o v : Nat) : (s.setReg o v).boot = s.boot := rfl
@[simp] theorem State.setReg_flash (s : State) (o v : Nat) : (s.setReg o v).flash = s.flash := rfl
@[simp] theorem State.setReg_progress (s : State) (o v : Nat) : (s.setReg o v).progress = s.progress := rfl
@[simp] theorem State.setReg_chart (s : State) (o v : Nat) : (s.setReg o v).chart = s.chart := rfl
@[simp] theorem State.setReg_tiles (s : State) (o v : Nat) : (s.setReg o v).tiles = s.tiles := rfl
@[simp] theorem State.setReg_queues (s : State) (o v : Nat) : (s.setReg o v).queues = s.queues := rfl
@[simp] theorem State.setReg_jobs (s : State) (o v : Nat) : (s.setReg o v).jobs = s.jobs := rfl
@[simp] theorem State.setReg_nextSeq (s : State) (o v : Nat) : (s.setReg o v).nextSeq = s.nextSeq := rfl
@[simp] theorem State.setReg_acceptSeq (s : State) (o v : Nat) : (s.setReg o v).acceptSeq = s.acceptSeq := rfl
@[simp] theorem State.setReg_lastServed (s : State) (o v : Nat) : (s.setReg o v).lastServed = s.lastServed := rfl
@[simp] theorem State.setReg_lastFn (s : State) (o v : Nat) : (s.setReg o v).lastFn = s.lastFn := rfl
@[simp] theorem State.setReg_overflowMib (s : State) (o v : Nat) : (s.setReg o v).overflowMib = s.overflowMib := rfl
@[simp] theorem State.setReg_fns (s : State) (o v : Nat) : (s.setReg o v).fns = s.fns := rfl
@[simp] theorem State.setReg_keys (s : State) (o v : Nat) : (s.setReg o v).keys = s.keys := rfl
@[simp] theorem State.setReg_log (s : State) (o v : Nat) : (s.setReg o v).log = s.log := rfl
@[simp] theorem State.setReg_auth (s : State) (o v : Nat) : (s.setReg o v).auth = s.auth := rfl
@[simp] theorem State.setReg_partners (s : State) (o v : Nat) : (s.setReg o v).partners = s.partners := rfl
@[simp] theorem State.setReg_service (s : State) (o v : Nat) : (s.setReg o v).service = s.service := rfl
@[simp] theorem State.setReg_cluster (s : State) (o v : Nat) : (s.setReg o v).cluster = s.cluster := rfl
@[simp] theorem State.setReg_faults (s : State) (o v : Nat) : (s.setReg o v).faults = s.faults := rfl
@[simp] theorem State.setReg_host (s : State) (o v : Nat) : (s.setReg o v).host = s.host := rfl
@[simp] theorem State.setReg_hostMem (s : State) (o v : Nat) : (s.setReg o v).hostMem = s.hostMem := rfl
@[simp] theorem State.setReg_pmem (s : State) (o v : Nat) : (s.setReg o v).pmem = s.pmem := rfl
@[simp] theorem State.setReg_draws (s : State) (o v : Nat) : (s.setReg o v).draws = s.draws := rfl
@[simp] theorem State.setReg_outbox (s : State) (o v : Nat) : (s.setReg o v).outbox = s.outbox := rfl
@[simp] theorem State.setReg_pending (s : State) (o v : Nat) : (s.setReg o v).pending = s.pending := rfl

@[simp] theorem State.modTile_variant (s : State) (n : Nat) (f : Tile → Tile) : (s.modTile n f).variant = s.variant := rfl
@[simp] theorem State.modTile_grade (s : State) (n : Nat) (f : Tile → Tile) : (s.modTile n f).grade = s.grade := rfl
@[simp] theorem State.modTile_lc (s : State) (n : Nat) (f : Tile → Tile) : (s.modTile n f).lc = s.lc := rfl
@[simp] theorem State.modTile_time (s : State) (n : Nat) (f : Tile → Tile) : (s.modTile n f).time = s.time := rfl
@[simp] theorem State.modTile_pins (s : State) (n : Nat) (f : Tile → Tile) : (s.modTile n f).pins = s.pins := rfl
@[simp] theorem State.modTile_boot (s : State) (n : Nat) (f : Tile → Tile) : (s.modTile n f).boot = s.boot := rfl
@[simp] theorem State.modTile_flash (s : State) (n : Nat) (f : Tile → Tile) : (s.modTile n f).flash = s.flash := rfl
@[simp] theorem State.modTile_progress (s : State) (n : Nat) (f : Tile → Tile) : (s.modTile n f).progress = s.progress := rfl
@[simp] theorem State.modTile_regs (s : State) (n : Nat) (f : Tile → Tile) : (s.modTile n f).regs = s.regs := rfl
@[simp] theorem State.modTile_chart (s : State) (n : Nat) (f : Tile → Tile) : (s.modTile n f).chart = s.chart := rfl
@[simp] theorem State.modTile_queues (s : State) (n : Nat) (f : Tile → Tile) : (s.modTile n f).queues = s.queues := rfl
@[simp] theorem State.modTile_jobs (s : State) (n : Nat) (f : Tile → Tile) : (s.modTile n f).jobs = s.jobs := rfl
@[simp] theorem State.modTile_nextSeq (s : State) (n : Nat) (f : Tile → Tile) : (s.modTile n f).nextSeq = s.nextSeq := rfl
@[simp] theorem State.modTile_acceptSeq (s : State) (n : Nat) (f : Tile → Tile) : (s.modTile n f).acceptSeq = s.acceptSeq := rfl
@[simp] theorem State.modTile_lastServed (s : State) (n : Nat) (f : Tile → Tile) : (s.modTile n f).lastServed = s.lastServed := rfl
@[simp] theorem State.modTile_lastFn (s : State) (n : Nat) (f : Tile → Tile) : (s.modTile n f).lastFn = s.lastFn := rfl
@[simp] theorem State.modTile_overflowMib (s : State) (n : Nat) (f : Tile → Tile) : (s.modTile n f).overflowMib = s.overflowMib := rfl
@[simp] theorem State.modTile_fns (s : State) (n : Nat) (f : Tile → Tile) : (s.modTile n f).fns = s.fns := rfl
@[simp] theorem State.modTile_keys (s : State) (n : Nat) (f : Tile → Tile) : (s.modTile n f).keys = s.keys := rfl
@[simp] theorem State.modTile_log (s : State) (n : Nat) (f : Tile → Tile) : (s.modTile n f).log = s.log := rfl
@[simp] theorem State.modTile_auth (s : State) (n : Nat) (f : Tile → Tile) : (s.modTile n f).auth = s.auth := rfl
@[simp] theorem State.modTile_partners (s : State) (n : Nat) (f : Tile → Tile) : (s.modTile n f).partners = s.partners := rfl
@[simp] theorem State.modTile_service (s : State) (n : Nat) (f : Tile → Tile) : (s.modTile n f).service = s.service := rfl
@[simp] theorem State.modTile_cluster (s : State) (n : Nat) (f : Tile → Tile) : (s.modTile n f).cluster = s.cluster := rfl
@[simp] theorem State.modTile_faults (s : State) (n : Nat) (f : Tile → Tile) : (s.modTile n f).faults = s.faults := rfl
@[simp] theorem State.modTile_host (s : State) (n : Nat) (f : Tile → Tile) : (s.modTile n f).host = s.host := rfl
@[simp] theorem State.modTile_hostMem (s : State) (n : Nat) (f : Tile → Tile) : (s.modTile n f).hostMem = s.hostMem := rfl
@[simp] theorem State.modTile_pmem (s : State) (n : Nat) (f : Tile → Tile) : (s.modTile n f).pmem = s.pmem := rfl
@[simp] theorem State.modTile_draws (s : State) (n : Nat) (f : Tile → Tile) : (s.modTile n f).draws = s.draws := rfl
@[simp] theorem State.modTile_outbox (s : State) (n : Nat) (f : Tile → Tile) : (s.modTile n f).outbox = s.outbox := rfl
@[simp] theorem State.modTile_pending (s : State) (n : Nat) (f : Tile → Tile) : (s.modTile n f).pending = s.pending := rfl

@[simp] theorem State.modQueue_variant (s : State) (q : Nat) (f : Queue → Queue) : (s.modQueue q f).variant = s.variant := rfl
@[simp] theorem State.modQueue_grade (s : State) (q : Nat) (f : Queue → Queue) : (s.modQueue q f).grade = s.grade := rfl
@[simp] theorem State.modQueue_lc (s : State) (q : Nat) (f : Queue → Queue) : (s.modQueue q f).lc = s.lc := rfl
@[simp] theorem State.modQueue_time (s : State) (q : Nat) (f : Queue → Queue) : (s.modQueue q f).time = s.time := rfl
@[simp] theorem State.modQueue_pins (s : State) (q : Nat) (f : Queue → Queue) : (s.modQueue q f).pins = s.pins := rfl
@[simp] theorem State.modQueue_boot (s : State) (q : Nat) (f : Queue → Queue) : (s.modQueue q f).boot = s.boot := rfl
@[simp] theorem State.modQueue_flash (s : State) (q : Nat) (f : Queue → Queue) : (s.modQueue q f).flash = s.flash := rfl
@[simp] theorem State.modQueue_progress (s : State) (q : Nat) (f : Queue → Queue) : (s.modQueue q f).progress = s.progress := rfl
@[simp] theorem State.modQueue_regs (s : State) (q : Nat) (f : Queue → Queue) : (s.modQueue q f).regs = s.regs := rfl
@[simp] theorem State.modQueue_chart (s : State) (q : Nat) (f : Queue → Queue) : (s.modQueue q f).chart = s.chart := rfl
@[simp] theorem State.modQueue_tiles (s : State) (q : Nat) (f : Queue → Queue) : (s.modQueue q f).tiles = s.tiles := rfl
@[simp] theorem State.modQueue_jobs (s : State) (q : Nat) (f : Queue → Queue) : (s.modQueue q f).jobs = s.jobs := rfl
@[simp] theorem State.modQueue_nextSeq (s : State) (q : Nat) (f : Queue → Queue) : (s.modQueue q f).nextSeq = s.nextSeq := rfl
@[simp] theorem State.modQueue_acceptSeq (s : State) (q : Nat) (f : Queue → Queue) : (s.modQueue q f).acceptSeq = s.acceptSeq := rfl
@[simp] theorem State.modQueue_lastServed (s : State) (q : Nat) (f : Queue → Queue) : (s.modQueue q f).lastServed = s.lastServed := rfl
@[simp] theorem State.modQueue_lastFn (s : State) (q : Nat) (f : Queue → Queue) : (s.modQueue q f).lastFn = s.lastFn := rfl
@[simp] theorem State.modQueue_overflowMib (s : State) (q : Nat) (f : Queue → Queue) : (s.modQueue q f).overflowMib = s.overflowMib := rfl
@[simp] theorem State.modQueue_fns (s : State) (q : Nat) (f : Queue → Queue) : (s.modQueue q f).fns = s.fns := rfl
@[simp] theorem State.modQueue_keys (s : State) (q : Nat) (f : Queue → Queue) : (s.modQueue q f).keys = s.keys := rfl
@[simp] theorem State.modQueue_log (s : State) (q : Nat) (f : Queue → Queue) : (s.modQueue q f).log = s.log := rfl
@[simp] theorem State.modQueue_auth (s : State) (q : Nat) (f : Queue → Queue) : (s.modQueue q f).auth = s.auth := rfl
@[simp] theorem State.modQueue_partners (s : State) (q : Nat) (f : Queue → Queue) : (s.modQueue q f).partners = s.partners := rfl
@[simp] theorem State.modQueue_service (s : State) (q : Nat) (f : Queue → Queue) : (s.modQueue q f).service = s.service := rfl
@[simp] theorem State.modQueue_cluster (s : State) (q : Nat) (f : Queue → Queue) : (s.modQueue q f).cluster = s.cluster := rfl
@[simp] theorem State.modQueue_faults (s : State) (q : Nat) (f : Queue → Queue) : (s.modQueue q f).faults = s.faults := rfl
@[simp] theorem State.modQueue_host (s : State) (q : Nat) (f : Queue → Queue) : (s.modQueue q f).host = s.host := rfl
@[simp] theorem State.modQueue_hostMem (s : State) (q : Nat) (f : Queue → Queue) : (s.modQueue q f).hostMem = s.hostMem := rfl
@[simp] theorem State.modQueue_pmem (s : State) (q : Nat) (f : Queue → Queue) : (s.modQueue q f).pmem = s.pmem := rfl
@[simp] theorem State.modQueue_draws (s : State) (q : Nat) (f : Queue → Queue) : (s.modQueue q f).draws = s.draws := rfl
@[simp] theorem State.modQueue_outbox (s : State) (q : Nat) (f : Queue → Queue) : (s.modQueue q f).outbox = s.outbox := rfl
@[simp] theorem State.modQueue_pending (s : State) (q : Nat) (f : Queue → Queue) : (s.modQueue q f).pending = s.pending := rfl

@[simp] theorem State.modJob_variant (s : State) (j : Nat) (f : Job → Job) : (s.modJob j f).variant = s.variant := rfl
@[simp] theorem State.modJob_grade (s : State) (j : Nat) (f : Job → Job) : (s.modJob j f).grade = s.grade := rfl
@[simp] theorem State.modJob_lc (s : State) (j : Nat) (f : Job → Job) : (s.modJob j f).lc = s.lc := rfl
@[simp] theorem State.modJob_time (s : State) (j : Nat) (f : Job → Job) : (s.modJob j f).time = s.time := rfl
@[simp] theorem State.modJob_pins (s : State) (j : Nat) (f : Job → Job) : (s.modJob j f).pins = s.pins := rfl
@[simp] theorem State.modJob_boot (s : State) (j : Nat) (f : Job → Job) : (s.modJob j f).boot = s.boot := rfl
@[simp] theorem State.modJob_flash (s : State) (j : Nat) (f : Job → Job) : (s.modJob j f).flash = s.flash := rfl
@[simp] theorem State.modJob_progress (s : State) (j : Nat) (f : Job → Job) : (s.modJob j f).progress = s.progress := rfl
@[simp] theorem State.modJob_regs (s : State) (j : Nat) (f : Job → Job) : (s.modJob j f).regs = s.regs := rfl
@[simp] theorem State.modJob_chart (s : State) (j : Nat) (f : Job → Job) : (s.modJob j f).chart = s.chart := rfl
@[simp] theorem State.modJob_tiles (s : State) (j : Nat) (f : Job → Job) : (s.modJob j f).tiles = s.tiles := rfl
@[simp] theorem State.modJob_queues (s : State) (j : Nat) (f : Job → Job) : (s.modJob j f).queues = s.queues := rfl
@[simp] theorem State.modJob_nextSeq (s : State) (j : Nat) (f : Job → Job) : (s.modJob j f).nextSeq = s.nextSeq := rfl
@[simp] theorem State.modJob_acceptSeq (s : State) (j : Nat) (f : Job → Job) : (s.modJob j f).acceptSeq = s.acceptSeq := rfl
@[simp] theorem State.modJob_lastServed (s : State) (j : Nat) (f : Job → Job) : (s.modJob j f).lastServed = s.lastServed := rfl
@[simp] theorem State.modJob_lastFn (s : State) (j : Nat) (f : Job → Job) : (s.modJob j f).lastFn = s.lastFn := rfl
@[simp] theorem State.modJob_overflowMib (s : State) (j : Nat) (f : Job → Job) : (s.modJob j f).overflowMib = s.overflowMib := rfl
@[simp] theorem State.modJob_fns (s : State) (j : Nat) (f : Job → Job) : (s.modJob j f).fns = s.fns := rfl
@[simp] theorem State.modJob_keys (s : State) (j : Nat) (f : Job → Job) : (s.modJob j f).keys = s.keys := rfl
@[simp] theorem State.modJob_log (s : State) (j : Nat) (f : Job → Job) : (s.modJob j f).log = s.log := rfl
@[simp] theorem State.modJob_auth (s : State) (j : Nat) (f : Job → Job) : (s.modJob j f).auth = s.auth := rfl
@[simp] theorem State.modJob_partners (s : State) (j : Nat) (f : Job → Job) : (s.modJob j f).partners = s.partners := rfl
@[simp] theorem State.modJob_service (s : State) (j : Nat) (f : Job → Job) : (s.modJob j f).service = s.service := rfl
@[simp] theorem State.modJob_cluster (s : State) (j : Nat) (f : Job → Job) : (s.modJob j f).cluster = s.cluster := rfl
@[simp] theorem State.modJob_faults (s : State) (j : Nat) (f : Job → Job) : (s.modJob j f).faults = s.faults := rfl
@[simp] theorem State.modJob_host (s : State) (j : Nat) (f : Job → Job) : (s.modJob j f).host = s.host := rfl
@[simp] theorem State.modJob_hostMem (s : State) (j : Nat) (f : Job → Job) : (s.modJob j f).hostMem = s.hostMem := rfl
@[simp] theorem State.modJob_pmem (s : State) (j : Nat) (f : Job → Job) : (s.modJob j f).pmem = s.pmem := rfl
@[simp] theorem State.modJob_draws (s : State) (j : Nat) (f : Job → Job) : (s.modJob j f).draws = s.draws := rfl
@[simp] theorem State.modJob_outbox (s : State) (j : Nat) (f : Job → Job) : (s.modJob j f).outbox = s.outbox := rfl
@[simp] theorem State.modJob_pending (s : State) (j : Nat) (f : Job → Job) : (s.modJob j f).pending = s.pending := rfl

@[simp] theorem State.delJob_variant (s : State) (j : Nat) : (s.delJob j).variant = s.variant := rfl
@[simp] theorem State.delJob_grade (s : State) (j : Nat) : (s.delJob j).grade = s.grade := rfl
@[simp] theorem State.delJob_lc (s : State) (j : Nat) : (s.delJob j).lc = s.lc := rfl
@[simp] theorem State.delJob_time (s : State) (j : Nat) : (s.delJob j).time = s.time := rfl
@[simp] theorem State.delJob_pins (s : State) (j : Nat) : (s.delJob j).pins = s.pins := rfl
@[simp] theorem State.delJob_boot (s : State) (j : Nat) : (s.delJob j).boot = s.boot := rfl
@[simp] theorem State.delJob_flash (s : State) (j : Nat) : (s.delJob j).flash = s.flash := rfl
@[simp] theorem State.delJob_progress (s : State) (j : Nat) : (s.delJob j).progress = s.progress := rfl
@[simp] theorem State.delJob_regs (s : State) (j : Nat) : (s.delJob j).regs = s.regs := rfl
@[simp] theorem State.delJob_chart (s : State) (j : Nat) : (s.delJob j).chart = s.chart := rfl
@[simp] theorem State.delJob_tiles (s : State) (j : Nat) : (s.delJob j).tiles = s.tiles := rfl
@[simp] theorem State.delJob_queues (s : State) (j : Nat) : (s.delJob j).queues = s.queues := rfl
@[simp] theorem State.delJob_nextSeq (s : State) (j : Nat) : (s.delJob j).nextSeq = s.nextSeq := rfl
@[simp] theorem State.delJob_acceptSeq (s : State) (j : Nat) : (s.delJob j).acceptSeq = s.acceptSeq := rfl
@[simp] theorem State.delJob_lastServed (s : State) (j : Nat) : (s.delJob j).lastServed = s.lastServed := rfl
@[simp] theorem State.delJob_lastFn (s : State) (j : Nat) : (s.delJob j).lastFn = s.lastFn := rfl
@[simp] theorem State.delJob_overflowMib (s : State) (j : Nat) : (s.delJob j).overflowMib = s.overflowMib := rfl
@[simp] theorem State.delJob_fns (s : State) (j : Nat) : (s.delJob j).fns = s.fns := rfl
@[simp] theorem State.delJob_keys (s : State) (j : Nat) : (s.delJob j).keys = s.keys := rfl
@[simp] theorem State.delJob_log (s : State) (j : Nat) : (s.delJob j).log = s.log := rfl
@[simp] theorem State.delJob_auth (s : State) (j : Nat) : (s.delJob j).auth = s.auth := rfl
@[simp] theorem State.delJob_partners (s : State) (j : Nat) : (s.delJob j).partners = s.partners := rfl
@[simp] theorem State.delJob_service (s : State) (j : Nat) : (s.delJob j).service = s.service := rfl
@[simp] theorem State.delJob_cluster (s : State) (j : Nat) : (s.delJob j).cluster = s.cluster := rfl
@[simp] theorem State.delJob_faults (s : State) (j : Nat) : (s.delJob j).faults = s.faults := rfl
@[simp] theorem State.delJob_host (s : State) (j : Nat) : (s.delJob j).host = s.host := rfl
@[simp] theorem State.delJob_hostMem (s : State) (j : Nat) : (s.delJob j).hostMem = s.hostMem := rfl
@[simp] theorem State.delJob_pmem (s : State) (j : Nat) : (s.delJob j).pmem = s.pmem := rfl
@[simp] theorem State.delJob_draws (s : State) (j : Nat) : (s.delJob j).draws = s.draws := rfl
@[simp] theorem State.delJob_outbox (s : State) (j : Nat) : (s.delJob j).outbox = s.outbox := rfl
@[simp] theorem State.delJob_pending (s : State) (j : Nat) : (s.delJob j).pending = s.pending := rfl

@[simp] theorem State.modFn_variant (s : State) (n : Nat) (f : Fn → Fn) : (s.modFn n f).variant = s.variant := rfl
@[simp] theorem State.modFn_grade (s : State) (n : Nat) (f : Fn → Fn) : (s.modFn n f).grade = s.grade := rfl
@[simp] theorem State.modFn_lc (s : State) (n : Nat) (f : Fn → Fn) : (s.modFn n f).lc = s.lc := rfl
@[simp] theorem State.modFn_time (s : State) (n : Nat) (f : Fn → Fn) : (s.modFn n f).time = s.time := rfl
@[simp] theorem State.modFn_pins (s : State) (n : Nat) (f : Fn → Fn) : (s.modFn n f).pins = s.pins := rfl
@[simp] theorem State.modFn_boot (s : State) (n : Nat) (f : Fn → Fn) : (s.modFn n f).boot = s.boot := rfl
@[simp] theorem State.modFn_flash (s : State) (n : Nat) (f : Fn → Fn) : (s.modFn n f).flash = s.flash := rfl
@[simp] theorem State.modFn_progress (s : State) (n : Nat) (f : Fn → Fn) : (s.modFn n f).progress = s.progress := rfl
@[simp] theorem State.modFn_regs (s : State) (n : Nat) (f : Fn → Fn) : (s.modFn n f).regs = s.regs := rfl
@[simp] theorem State.modFn_chart (s : State) (n : Nat) (f : Fn → Fn) : (s.modFn n f).chart = s.chart := rfl
@[simp] theorem State.modFn_tiles (s : State) (n : Nat) (f : Fn → Fn) : (s.modFn n f).tiles = s.tiles := rfl
@[simp] theorem State.modFn_queues (s : State) (n : Nat) (f : Fn → Fn) : (s.modFn n f).queues = s.queues := rfl
@[simp] theorem State.modFn_jobs (s : State) (n : Nat) (f : Fn → Fn) : (s.modFn n f).jobs = s.jobs := rfl
@[simp] theorem State.modFn_nextSeq (s : State) (n : Nat) (f : Fn → Fn) : (s.modFn n f).nextSeq = s.nextSeq := rfl
@[simp] theorem State.modFn_acceptSeq (s : State) (n : Nat) (f : Fn → Fn) : (s.modFn n f).acceptSeq = s.acceptSeq := rfl
@[simp] theorem State.modFn_lastServed (s : State) (n : Nat) (f : Fn → Fn) : (s.modFn n f).lastServed = s.lastServed := rfl
@[simp] theorem State.modFn_lastFn (s : State) (n : Nat) (f : Fn → Fn) : (s.modFn n f).lastFn = s.lastFn := rfl
@[simp] theorem State.modFn_overflowMib (s : State) (n : Nat) (f : Fn → Fn) : (s.modFn n f).overflowMib = s.overflowMib := rfl
@[simp] theorem State.modFn_keys (s : State) (n : Nat) (f : Fn → Fn) : (s.modFn n f).keys = s.keys := rfl
@[simp] theorem State.modFn_log (s : State) (n : Nat) (f : Fn → Fn) : (s.modFn n f).log = s.log := rfl
@[simp] theorem State.modFn_auth (s : State) (n : Nat) (f : Fn → Fn) : (s.modFn n f).auth = s.auth := rfl
@[simp] theorem State.modFn_partners (s : State) (n : Nat) (f : Fn → Fn) : (s.modFn n f).partners = s.partners := rfl
@[simp] theorem State.modFn_service (s : State) (n : Nat) (f : Fn → Fn) : (s.modFn n f).service = s.service := rfl
@[simp] theorem State.modFn_cluster (s : State) (n : Nat) (f : Fn → Fn) : (s.modFn n f).cluster = s.cluster := rfl
@[simp] theorem State.modFn_faults (s : State) (n : Nat) (f : Fn → Fn) : (s.modFn n f).faults = s.faults := rfl
@[simp] theorem State.modFn_host (s : State) (n : Nat) (f : Fn → Fn) : (s.modFn n f).host = s.host := rfl
@[simp] theorem State.modFn_hostMem (s : State) (n : Nat) (f : Fn → Fn) : (s.modFn n f).hostMem = s.hostMem := rfl
@[simp] theorem State.modFn_pmem (s : State) (n : Nat) (f : Fn → Fn) : (s.modFn n f).pmem = s.pmem := rfl
@[simp] theorem State.modFn_draws (s : State) (n : Nat) (f : Fn → Fn) : (s.modFn n f).draws = s.draws := rfl
@[simp] theorem State.modFn_outbox (s : State) (n : Nat) (f : Fn → Fn) : (s.modFn n f).outbox = s.outbox := rfl
@[simp] theorem State.modFn_pending (s : State) (n : Nat) (f : Fn → Fn) : (s.modFn n f).pending = s.pending := rfl

@[simp] theorem State.modKey_variant (s : State) (i : Nat) (f : Key → Key) : (s.modKey i f).variant = s.variant := rfl
@[simp] theorem State.modKey_grade (s : State) (i : Nat) (f : Key → Key) : (s.modKey i f).grade = s.grade := rfl
@[simp] theorem State.modKey_lc (s : State) (i : Nat) (f : Key → Key) : (s.modKey i f).lc = s.lc := rfl
@[simp] theorem State.modKey_time (s : State) (i : Nat) (f : Key → Key) : (s.modKey i f).time = s.time := rfl
@[simp] theorem State.modKey_pins (s : State) (i : Nat) (f : Key → Key) : (s.modKey i f).pins = s.pins := rfl
@[simp] theorem State.modKey_boot (s : State) (i : Nat) (f : Key → Key) : (s.modKey i f).boot = s.boot := rfl
@[simp] theorem State.modKey_flash (s : State) (i : Nat) (f : Key → Key) : (s.modKey i f).flash = s.flash := rfl
@[simp] theorem State.modKey_progress (s : State) (i : Nat) (f : Key → Key) : (s.modKey i f).progress = s.progress := rfl
@[simp] theorem State.modKey_regs (s : State) (i : Nat) (f : Key → Key) : (s.modKey i f).regs = s.regs := rfl
@[simp] theorem State.modKey_chart (s : State) (i : Nat) (f : Key → Key) : (s.modKey i f).chart = s.chart := rfl
@[simp] theorem State.modKey_tiles (s : State) (i : Nat) (f : Key → Key) : (s.modKey i f).tiles = s.tiles := rfl
@[simp] theorem State.modKey_queues (s : State) (i : Nat) (f : Key → Key) : (s.modKey i f).queues = s.queues := rfl
@[simp] theorem State.modKey_jobs (s : State) (i : Nat) (f : Key → Key) : (s.modKey i f).jobs = s.jobs := rfl
@[simp] theorem State.modKey_nextSeq (s : State) (i : Nat) (f : Key → Key) : (s.modKey i f).nextSeq = s.nextSeq := rfl
@[simp] theorem State.modKey_acceptSeq (s : State) (i : Nat) (f : Key → Key) : (s.modKey i f).acceptSeq = s.acceptSeq := rfl
@[simp] theorem State.modKey_lastServed (s : State) (i : Nat) (f : Key → Key) : (s.modKey i f).lastServed = s.lastServed := rfl
@[simp] theorem State.modKey_lastFn (s : State) (i : Nat) (f : Key → Key) : (s.modKey i f).lastFn = s.lastFn := rfl
@[simp] theorem State.modKey_overflowMib (s : State) (i : Nat) (f : Key → Key) : (s.modKey i f).overflowMib = s.overflowMib := rfl
@[simp] theorem State.modKey_fns (s : State) (i : Nat) (f : Key → Key) : (s.modKey i f).fns = s.fns := rfl
@[simp] theorem State.modKey_log (s : State) (i : Nat) (f : Key → Key) : (s.modKey i f).log = s.log := rfl
@[simp] theorem State.modKey_auth (s : State) (i : Nat) (f : Key → Key) : (s.modKey i f).auth = s.auth := rfl
@[simp] theorem State.modKey_partners (s : State) (i : Nat) (f : Key → Key) : (s.modKey i f).partners = s.partners := rfl
@[simp] theorem State.modKey_service (s : State) (i : Nat) (f : Key → Key) : (s.modKey i f).service = s.service := rfl
@[simp] theorem State.modKey_cluster (s : State) (i : Nat) (f : Key → Key) : (s.modKey i f).cluster = s.cluster := rfl
@[simp] theorem State.modKey_faults (s : State) (i : Nat) (f : Key → Key) : (s.modKey i f).faults = s.faults := rfl
@[simp] theorem State.modKey_host (s : State) (i : Nat) (f : Key → Key) : (s.modKey i f).host = s.host := rfl
@[simp] theorem State.modKey_hostMem (s : State) (i : Nat) (f : Key → Key) : (s.modKey i f).hostMem = s.hostMem := rfl
@[simp] theorem State.modKey_pmem (s : State) (i : Nat) (f : Key → Key) : (s.modKey i f).pmem = s.pmem := rfl
@[simp] theorem State.modKey_draws (s : State) (i : Nat) (f : Key → Key) : (s.modKey i f).draws = s.draws := rfl
@[simp] theorem State.modKey_outbox (s : State) (i : Nat) (f : Key → Key) : (s.modKey i f).outbox = s.outbox := rfl
@[simp] theorem State.modKey_pending (s : State) (i : Nat) (f : Key → Key) : (s.modKey i f).pending = s.pending := rfl

@[simp] theorem State.modLog_variant (s : State) (r : Nat) (f : LogReg → LogReg) : (s.modLog r f).variant = s.variant := rfl
@[simp] theorem State.modLog_grade (s : State) (r : Nat) (f : LogReg → LogReg) : (s.modLog r f).grade = s.grade := rfl
@[simp] theorem State.modLog_lc (s : State) (r : Nat) (f : LogReg → LogReg) : (s.modLog r f).lc = s.lc := rfl
@[simp] theorem State.modLog_time (s : State) (r : Nat) (f : LogReg → LogReg) : (s.modLog r f).time = s.time := rfl
@[simp] theorem State.modLog_pins (s : State) (r : Nat) (f : LogReg → LogReg) : (s.modLog r f).pins = s.pins := rfl
@[simp] theorem State.modLog_boot (s : State) (r : Nat) (f : LogReg → LogReg) : (s.modLog r f).boot = s.boot := rfl
@[simp] theorem State.modLog_flash (s : State) (r : Nat) (f : LogReg → LogReg) : (s.modLog r f).flash = s.flash := rfl
@[simp] theorem State.modLog_progress (s : State) (r : Nat) (f : LogReg → LogReg) : (s.modLog r f).progress = s.progress := rfl
@[simp] theorem State.modLog_regs (s : State) (r : Nat) (f : LogReg → LogReg) : (s.modLog r f).regs = s.regs := rfl
@[simp] theorem State.modLog_chart (s : State) (r : Nat) (f : LogReg → LogReg) : (s.modLog r f).chart = s.chart := rfl
@[simp] theorem State.modLog_tiles (s : State) (r : Nat) (f : LogReg → LogReg) : (s.modLog r f).tiles = s.tiles := rfl
@[simp] theorem State.modLog_queues (s : State) (r : Nat) (f : LogReg → LogReg) : (s.modLog r f).queues = s.queues := rfl
@[simp] theorem State.modLog_jobs (s : State) (r : Nat) (f : LogReg → LogReg) : (s.modLog r f).jobs = s.jobs := rfl
@[simp] theorem State.modLog_nextSeq (s : State) (r : Nat) (f : LogReg → LogReg) : (s.modLog r f).nextSeq = s.nextSeq := rfl
@[simp] theorem State.modLog_acceptSeq (s : State) (r : Nat) (f : LogReg → LogReg) : (s.modLog r f).acceptSeq = s.acceptSeq := rfl
@[simp] theorem State.modLog_lastServed (s : State) (r : Nat) (f : LogReg → LogReg) : (s.modLog r f).lastServed = s.lastServed := rfl
@[simp] theorem State.modLog_lastFn (s : State) (r : Nat) (f : LogReg → LogReg) : (s.modLog r f).lastFn = s.lastFn := rfl
@[simp] theorem State.modLog_overflowMib (s : State) (r : Nat) (f : LogReg → LogReg) : (s.modLog r f).overflowMib = s.overflowMib := rfl
@[simp] theorem State.modLog_fns (s : State) (r : Nat) (f : LogReg → LogReg) : (s.modLog r f).fns = s.fns := rfl
@[simp] theorem State.modLog_keys (s : State) (r : Nat) (f : LogReg → LogReg) : (s.modLog r f).keys = s.keys := rfl
@[simp] theorem State.modLog_auth (s : State) (r : Nat) (f : LogReg → LogReg) : (s.modLog r f).auth = s.auth := rfl
@[simp] theorem State.modLog_partners (s : State) (r : Nat) (f : LogReg → LogReg) : (s.modLog r f).partners = s.partners := rfl
@[simp] theorem State.modLog_service (s : State) (r : Nat) (f : LogReg → LogReg) : (s.modLog r f).service = s.service := rfl
@[simp] theorem State.modLog_cluster (s : State) (r : Nat) (f : LogReg → LogReg) : (s.modLog r f).cluster = s.cluster := rfl
@[simp] theorem State.modLog_faults (s : State) (r : Nat) (f : LogReg → LogReg) : (s.modLog r f).faults = s.faults := rfl
@[simp] theorem State.modLog_host (s : State) (r : Nat) (f : LogReg → LogReg) : (s.modLog r f).host = s.host := rfl
@[simp] theorem State.modLog_hostMem (s : State) (r : Nat) (f : LogReg → LogReg) : (s.modLog r f).hostMem = s.hostMem := rfl
@[simp] theorem State.modLog_pmem (s : State) (r : Nat) (f : LogReg → LogReg) : (s.modLog r f).pmem = s.pmem := rfl
@[simp] theorem State.modLog_draws (s : State) (r : Nat) (f : LogReg → LogReg) : (s.modLog r f).draws = s.draws := rfl
@[simp] theorem State.modLog_outbox (s : State) (r : Nat) (f : LogReg → LogReg) : (s.modLog r f).outbox = s.outbox := rfl
@[simp] theorem State.modLog_pending (s : State) (r : Nat) (f : LogReg → LogReg) : (s.modLog r f).pending = s.pending := rfl

@[simp] theorem State.modPartner_variant (s : State) (p : Nat) (f : Partner → Partner) : (s.modPartner p f).variant = s.variant := rfl
@[simp] theorem State.modPartner_grade (s : State) (p : Nat) (f : Partner → Partner) : (s.modPartner p f).grade = s.grade := rfl
@[simp] theorem State.modPartner_lc (s : State) (p : Nat) (f : Partner → Partner) : (s.modPartner p f).lc = s.lc := rfl
@[simp] theorem State.modPartner_time (s : State) (p : Nat) (f : Partner → Partner) : (s.modPartner p f).time = s.time := rfl
@[simp] theorem State.modPartner_pins (s : State) (p : Nat) (f : Partner → Partner) : (s.modPartner p f).pins = s.pins := rfl
@[simp] theorem State.modPartner_boot (s : State) (p : Nat) (f : Partner → Partner) : (s.modPartner p f).boot = s.boot := rfl
@[simp] theorem State.modPartner_flash (s : State) (p : Nat) (f : Partner → Partner) : (s.modPartner p f).flash = s.flash := rfl
@[simp] theorem State.modPartner_progress (s : State) (p : Nat) (f : Partner → Partner) : (s.modPartner p f).progress = s.progress := rfl
@[simp] theorem State.modPartner_regs (s : State) (p : Nat) (f : Partner → Partner) : (s.modPartner p f).regs = s.regs := rfl
@[simp] theorem State.modPartner_chart (s : State) (p : Nat) (f : Partner → Partner) : (s.modPartner p f).chart = s.chart := rfl
@[simp] theorem State.modPartner_tiles (s : State) (p : Nat) (f : Partner → Partner) : (s.modPartner p f).tiles = s.tiles := rfl
@[simp] theorem State.modPartner_queues (s : State) (p : Nat) (f : Partner → Partner) : (s.modPartner p f).queues = s.queues := rfl
@[simp] theorem State.modPartner_jobs (s : State) (p : Nat) (f : Partner → Partner) : (s.modPartner p f).jobs = s.jobs := rfl
@[simp] theorem State.modPartner_nextSeq (s : State) (p : Nat) (f : Partner → Partner) : (s.modPartner p f).nextSeq = s.nextSeq := rfl
@[simp] theorem State.modPartner_acceptSeq (s : State) (p : Nat) (f : Partner → Partner) : (s.modPartner p f).acceptSeq = s.acceptSeq := rfl
@[simp] theorem State.modPartner_lastServed (s : State) (p : Nat) (f : Partner → Partner) : (s.modPartner p f).lastServed = s.lastServed := rfl
@[simp] theorem State.modPartner_lastFn (s : State) (p : Nat) (f : Partner → Partner) : (s.modPartner p f).lastFn = s.lastFn := rfl
@[simp] theorem State.modPartner_overflowMib (s : State) (p : Nat) (f : Partner → Partner) : (s.modPartner p f).overflowMib = s.overflowMib := rfl
@[simp] theorem State.modPartner_fns (s : State) (p : Nat) (f : Partner → Partner) : (s.modPartner p f).fns = s.fns := rfl
@[simp] theorem State.modPartner_keys (s : State) (p : Nat) (f : Partner → Partner) : (s.modPartner p f).keys = s.keys := rfl
@[simp] theorem State.modPartner_log (s : State) (p : Nat) (f : Partner → Partner) : (s.modPartner p f).log = s.log := rfl
@[simp] theorem State.modPartner_auth (s : State) (p : Nat) (f : Partner → Partner) : (s.modPartner p f).auth = s.auth := rfl
@[simp] theorem State.modPartner_service (s : State) (p : Nat) (f : Partner → Partner) : (s.modPartner p f).service = s.service := rfl
@[simp] theorem State.modPartner_cluster (s : State) (p : Nat) (f : Partner → Partner) : (s.modPartner p f).cluster = s.cluster := rfl
@[simp] theorem State.modPartner_faults (s : State) (p : Nat) (f : Partner → Partner) : (s.modPartner p f).faults = s.faults := rfl
@[simp] theorem State.modPartner_host (s : State) (p : Nat) (f : Partner → Partner) : (s.modPartner p f).host = s.host := rfl
@[simp] theorem State.modPartner_hostMem (s : State) (p : Nat) (f : Partner → Partner) : (s.modPartner p f).hostMem = s.hostMem := rfl
@[simp] theorem State.modPartner_pmem (s : State) (p : Nat) (f : Partner → Partner) : (s.modPartner p f).pmem = s.pmem := rfl
@[simp] theorem State.modPartner_draws (s : State) (p : Nat) (f : Partner → Partner) : (s.modPartner p f).draws = s.draws := rfl
@[simp] theorem State.modPartner_outbox (s : State) (p : Nat) (f : Partner → Partner) : (s.modPartner p f).outbox = s.outbox := rfl
@[simp] theorem State.modPartner_pending (s : State) (p : Nat) (f : Partner → Partner) : (s.modPartner p f).pending = s.pending := rfl

@[simp] theorem State.modPort_variant (s : State) (p : Nat) (f : Port → Port) : (s.modPort p f).variant = s.variant := rfl
@[simp] theorem State.modPort_grade (s : State) (p : Nat) (f : Port → Port) : (s.modPort p f).grade = s.grade := rfl
@[simp] theorem State.modPort_lc (s : State) (p : Nat) (f : Port → Port) : (s.modPort p f).lc = s.lc := rfl
@[simp] theorem State.modPort_time (s : State) (p : Nat) (f : Port → Port) : (s.modPort p f).time = s.time := rfl
@[simp] theorem State.modPort_pins (s : State) (p : Nat) (f : Port → Port) : (s.modPort p f).pins = s.pins := rfl
@[simp] theorem State.modPort_boot (s : State) (p : Nat) (f : Port → Port) : (s.modPort p f).boot = s.boot := rfl
@[simp] theorem State.modPort_flash (s : State) (p : Nat) (f : Port → Port) : (s.modPort p f).flash = s.flash := rfl
@[simp] theorem State.modPort_progress (s : State) (p : Nat) (f : Port → Port) : (s.modPort p f).progress = s.progress := rfl
@[simp] theorem State.modPort_regs (s : State) (p : Nat) (f : Port → Port) : (s.modPort p f).regs = s.regs := rfl
@[simp] theorem State.modPort_chart (s : State) (p : Nat) (f : Port → Port) : (s.modPort p f).chart = s.chart := rfl
@[simp] theorem State.modPort_tiles (s : State) (p : Nat) (f : Port → Port) : (s.modPort p f).tiles = s.tiles := rfl
@[simp] theorem State.modPort_queues (s : State) (p : Nat) (f : Port → Port) : (s.modPort p f).queues = s.queues := rfl
@[simp] theorem State.modPort_jobs (s : State) (p : Nat) (f : Port → Port) : (s.modPort p f).jobs = s.jobs := rfl
@[simp] theorem State.modPort_nextSeq (s : State) (p : Nat) (f : Port → Port) : (s.modPort p f).nextSeq = s.nextSeq := rfl
@[simp] theorem State.modPort_acceptSeq (s : State) (p : Nat) (f : Port → Port) : (s.modPort p f).acceptSeq = s.acceptSeq := rfl
@[simp] theorem State.modPort_lastServed (s : State) (p : Nat) (f : Port → Port) : (s.modPort p f).lastServed = s.lastServed := rfl
@[simp] theorem State.modPort_lastFn (s : State) (p : Nat) (f : Port → Port) : (s.modPort p f).lastFn = s.lastFn := rfl
@[simp] theorem State.modPort_overflowMib (s : State) (p : Nat) (f : Port → Port) : (s.modPort p f).overflowMib = s.overflowMib := rfl
@[simp] theorem State.modPort_fns (s : State) (p : Nat) (f : Port → Port) : (s.modPort p f).fns = s.fns := rfl
@[simp] theorem State.modPort_keys (s : State) (p : Nat) (f : Port → Port) : (s.modPort p f).keys = s.keys := rfl
@[simp] theorem State.modPort_log (s : State) (p : Nat) (f : Port → Port) : (s.modPort p f).log = s.log := rfl
@[simp] theorem State.modPort_auth (s : State) (p : Nat) (f : Port → Port) : (s.modPort p f).auth = s.auth := rfl
@[simp] theorem State.modPort_service (s : State) (p : Nat) (f : Port → Port) : (s.modPort p f).service = s.service := rfl
@[simp] theorem State.modPort_cluster (s : State) (p : Nat) (f : Port → Port) : (s.modPort p f).cluster = s.cluster := rfl
@[simp] theorem State.modPort_faults (s : State) (p : Nat) (f : Port → Port) : (s.modPort p f).faults = s.faults := rfl
@[simp] theorem State.modPort_host (s : State) (p : Nat) (f : Port → Port) : (s.modPort p f).host = s.host := rfl
@[simp] theorem State.modPort_hostMem (s : State) (p : Nat) (f : Port → Port) : (s.modPort p f).hostMem = s.hostMem := rfl
@[simp] theorem State.modPort_pmem (s : State) (p : Nat) (f : Port → Port) : (s.modPort p f).pmem = s.pmem := rfl
@[simp] theorem State.modPort_draws (s : State) (p : Nat) (f : Port → Port) : (s.modPort p f).draws = s.draws := rfl
@[simp] theorem State.modPort_outbox (s : State) (p : Nat) (f : Port → Port) : (s.modPort p f).outbox = s.outbox := rfl
@[simp] theorem State.modPort_pending (s : State) (p : Nat) (f : Port → Port) : (s.modPort p f).pending = s.pending := rfl

@[simp] theorem State.modCore_variant (s : State) (c : Nat) (f : Core → Core) : (s.modCore c f).variant = s.variant := rfl
@[simp] theorem State.modCore_grade (s : State) (c : Nat) (f : Core → Core) : (s.modCore c f).grade = s.grade := rfl
@[simp] theorem State.modCore_lc (s : State) (c : Nat) (f : Core → Core) : (s.modCore c f).lc = s.lc := rfl
@[simp] theorem State.modCore_time (s : State) (c : Nat) (f : Core → Core) : (s.modCore c f).time = s.time := rfl
@[simp] theorem State.modCore_pins (s : State) (c : Nat) (f : Core → Core) : (s.modCore c f).pins = s.pins := rfl
@[simp] theorem State.modCore_boot (s : State) (c : Nat) (f : Core → Core) : (s.modCore c f).boot = s.boot := rfl
@[simp] theorem State.modCore_flash (s : State) (c : Nat) (f : Core → Core) : (s.modCore c f).flash = s.flash := rfl
@[simp] theorem State.modCore_progress (s : State) (c : Nat) (f : Core → Core) : (s.modCore c f).progress = s.progress := rfl
@[simp] theorem State.modCore_regs (s : State) (c : Nat) (f : Core → Core) : (s.modCore c f).regs = s.regs := rfl
@[simp] theorem State.modCore_chart (s : State) (c : Nat) (f : Core → Core) : (s.modCore c f).chart = s.chart := rfl
@[simp] theorem State.modCore_tiles (s : State) (c : Nat) (f : Core → Core) : (s.modCore c f).tiles = s.tiles := rfl
@[simp] theorem State.modCore_queues (s : State) (c : Nat) (f : Core → Core) : (s.modCore c f).queues = s.queues := rfl
@[simp] theorem State.modCore_jobs (s : State) (c : Nat) (f : Core → Core) : (s.modCore c f).jobs = s.jobs := rfl
@[simp] theorem State.modCore_nextSeq (s : State) (c : Nat) (f : Core → Core) : (s.modCore c f).nextSeq = s.nextSeq := rfl
@[simp] theorem State.modCore_acceptSeq (s : State) (c : Nat) (f : Core → Core) : (s.modCore c f).acceptSeq = s.acceptSeq := rfl
@[simp] theorem State.modCore_lastServed (s : State) (c : Nat) (f : Core → Core) : (s.modCore c f).lastServed = s.lastServed := rfl
@[simp] theorem State.modCore_lastFn (s : State) (c : Nat) (f : Core → Core) : (s.modCore c f).lastFn = s.lastFn := rfl
@[simp] theorem State.modCore_overflowMib (s : State) (c : Nat) (f : Core → Core) : (s.modCore c f).overflowMib = s.overflowMib := rfl
@[simp] theorem State.modCore_fns (s : State) (c : Nat) (f : Core → Core) : (s.modCore c f).fns = s.fns := rfl
@[simp] theorem State.modCore_keys (s : State) (c : Nat) (f : Core → Core) : (s.modCore c f).keys = s.keys := rfl
@[simp] theorem State.modCore_log (s : State) (c : Nat) (f : Core → Core) : (s.modCore c f).log = s.log := rfl
@[simp] theorem State.modCore_auth (s : State) (c : Nat) (f : Core → Core) : (s.modCore c f).auth = s.auth := rfl
@[simp] theorem State.modCore_partners (s : State) (c : Nat) (f : Core → Core) : (s.modCore c f).partners = s.partners := rfl
@[simp] theorem State.modCore_cluster (s : State) (c : Nat) (f : Core → Core) : (s.modCore c f).cluster = s.cluster := rfl
@[simp] theorem State.modCore_faults (s : State) (c : Nat) (f : Core → Core) : (s.modCore c f).faults = s.faults := rfl
@[simp] theorem State.modCore_host (s : State) (c : Nat) (f : Core → Core) : (s.modCore c f).host = s.host := rfl
@[simp] theorem State.modCore_hostMem (s : State) (c : Nat) (f : Core → Core) : (s.modCore c f).hostMem = s.hostMem := rfl
@[simp] theorem State.modCore_pmem (s : State) (c : Nat) (f : Core → Core) : (s.modCore c f).pmem = s.pmem := rfl
@[simp] theorem State.modCore_draws (s : State) (c : Nat) (f : Core → Core) : (s.modCore c f).draws = s.draws := rfl
@[simp] theorem State.modCore_outbox (s : State) (c : Nat) (f : Core → Core) : (s.modCore c f).outbox = s.outbox := rfl
@[simp] theorem State.modCore_pending (s : State) (c : Nat) (f : Core → Core) : (s.modCore c f).pending = s.pending := rfl

@[simp] theorem State.modModule_variant (s : State) (m : Nat) (f : Module → Module) : (s.modModule m f).variant = s.variant := rfl
@[simp] theorem State.modModule_grade (s : State) (m : Nat) (f : Module → Module) : (s.modModule m f).grade = s.grade := rfl
@[simp] theorem State.modModule_lc (s : State) (m : Nat) (f : Module → Module) : (s.modModule m f).lc = s.lc := rfl
@[simp] theorem State.modModule_time (s : State) (m : Nat) (f : Module → Module) : (s.modModule m f).time = s.time := rfl
@[simp] theorem State.modModule_pins (s : State) (m : Nat) (f : Module → Module) : (s.modModule m f).pins = s.pins := rfl
@[simp] theorem State.modModule_boot (s : State) (m : Nat) (f : Module → Module) : (s.modModule m f).boot = s.boot := rfl
@[simp] theorem State.modModule_flash (s : State) (m : Nat) (f : Module → Module) : (s.modModule m f).flash = s.flash := rfl
@[simp] theorem State.modModule_progress (s : State) (m : Nat) (f : Module → Module) : (s.modModule m f).progress = s.progress := rfl
@[simp] theorem State.modModule_regs (s : State) (m : Nat) (f : Module → Module) : (s.modModule m f).regs = s.regs := rfl
@[simp] theorem State.modModule_chart (s : State) (m : Nat) (f : Module → Module) : (s.modModule m f).chart = s.chart := rfl
@[simp] theorem State.modModule_tiles (s : State) (m : Nat) (f : Module → Module) : (s.modModule m f).tiles = s.tiles := rfl
@[simp] theorem State.modModule_queues (s : State) (m : Nat) (f : Module → Module) : (s.modModule m f).queues = s.queues := rfl
@[simp] theorem State.modModule_jobs (s : State) (m : Nat) (f : Module → Module) : (s.modModule m f).jobs = s.jobs := rfl
@[simp] theorem State.modModule_nextSeq (s : State) (m : Nat) (f : Module → Module) : (s.modModule m f).nextSeq = s.nextSeq := rfl
@[simp] theorem State.modModule_acceptSeq (s : State) (m : Nat) (f : Module → Module) : (s.modModule m f).acceptSeq = s.acceptSeq := rfl
@[simp] theorem State.modModule_lastServed (s : State) (m : Nat) (f : Module → Module) : (s.modModule m f).lastServed = s.lastServed := rfl
@[simp] theorem State.modModule_lastFn (s : State) (m : Nat) (f : Module → Module) : (s.modModule m f).lastFn = s.lastFn := rfl
@[simp] theorem State.modModule_overflowMib (s : State) (m : Nat) (f : Module → Module) : (s.modModule m f).overflowMib = s.overflowMib := rfl
@[simp] theorem State.modModule_fns (s : State) (m : Nat) (f : Module → Module) : (s.modModule m f).fns = s.fns := rfl
@[simp] theorem State.modModule_keys (s : State) (m : Nat) (f : Module → Module) : (s.modModule m f).keys = s.keys := rfl
@[simp] theorem State.modModule_log (s : State) (m : Nat) (f : Module → Module) : (s.modModule m f).log = s.log := rfl
@[simp] theorem State.modModule_auth (s : State) (m : Nat) (f : Module → Module) : (s.modModule m f).auth = s.auth := rfl
@[simp] theorem State.modModule_partners (s : State) (m : Nat) (f : Module → Module) : (s.modModule m f).partners = s.partners := rfl
@[simp] theorem State.modModule_cluster (s : State) (m : Nat) (f : Module → Module) : (s.modModule m f).cluster = s.cluster := rfl
@[simp] theorem State.modModule_faults (s : State) (m : Nat) (f : Module → Module) : (s.modModule m f).faults = s.faults := rfl
@[simp] theorem State.modModule_host (s : State) (m : Nat) (f : Module → Module) : (s.modModule m f).host = s.host := rfl
@[simp] theorem State.modModule_hostMem (s : State) (m : Nat) (f : Module → Module) : (s.modModule m f).hostMem = s.hostMem := rfl
@[simp] theorem State.modModule_pmem (s : State) (m : Nat) (f : Module → Module) : (s.modModule m f).pmem = s.pmem := rfl
@[simp] theorem State.modModule_draws (s : State) (m : Nat) (f : Module → Module) : (s.modModule m f).draws = s.draws := rfl
@[simp] theorem State.modModule_outbox (s : State) (m : Nat) (f : Module → Module) : (s.modModule m f).outbox = s.outbox := rfl
@[simp] theorem State.modModule_pending (s : State) (m : Nat) (f : Module → Module) : (s.modModule m f).pending = s.pending := rfl

@[simp] theorem State.modMbox_variant (s : State) (n : Nat) (f : Mbox → Mbox) : (s.modMbox n f).variant = s.variant := rfl
@[simp] theorem State.modMbox_grade (s : State) (n : Nat) (f : Mbox → Mbox) : (s.modMbox n f).grade = s.grade := rfl
@[simp] theorem State.modMbox_lc (s : State) (n : Nat) (f : Mbox → Mbox) : (s.modMbox n f).lc = s.lc := rfl
@[simp] theorem State.modMbox_time (s : State) (n : Nat) (f : Mbox → Mbox) : (s.modMbox n f).time = s.time := rfl
@[simp] theorem State.modMbox_pins (s : State) (n : Nat) (f : Mbox → Mbox) : (s.modMbox n f).pins = s.pins := rfl
@[simp] theorem State.modMbox_boot (s : State) (n : Nat) (f : Mbox → Mbox) : (s.modMbox n f).boot = s.boot := rfl
@[simp] theorem State.modMbox_flash (s : State) (n : Nat) (f : Mbox → Mbox) : (s.modMbox n f).flash = s.flash := rfl
@[simp] theorem State.modMbox_progress (s : State) (n : Nat) (f : Mbox → Mbox) : (s.modMbox n f).progress = s.progress := rfl
@[simp] theorem State.modMbox_regs (s : State) (n : Nat) (f : Mbox → Mbox) : (s.modMbox n f).regs = s.regs := rfl
@[simp] theorem State.modMbox_chart (s : State) (n : Nat) (f : Mbox → Mbox) : (s.modMbox n f).chart = s.chart := rfl
@[simp] theorem State.modMbox_tiles (s : State) (n : Nat) (f : Mbox → Mbox) : (s.modMbox n f).tiles = s.tiles := rfl
@[simp] theorem State.modMbox_queues (s : State) (n : Nat) (f : Mbox → Mbox) : (s.modMbox n f).queues = s.queues := rfl
@[simp] theorem State.modMbox_jobs (s : State) (n : Nat) (f : Mbox → Mbox) : (s.modMbox n f).jobs = s.jobs := rfl
@[simp] theorem State.modMbox_nextSeq (s : State) (n : Nat) (f : Mbox → Mbox) : (s.modMbox n f).nextSeq = s.nextSeq := rfl
@[simp] theorem State.modMbox_acceptSeq (s : State) (n : Nat) (f : Mbox → Mbox) : (s.modMbox n f).acceptSeq = s.acceptSeq := rfl
@[simp] theorem State.modMbox_lastServed (s : State) (n : Nat) (f : Mbox → Mbox) : (s.modMbox n f).lastServed = s.lastServed := rfl
@[simp] theorem State.modMbox_lastFn (s : State) (n : Nat) (f : Mbox → Mbox) : (s.modMbox n f).lastFn = s.lastFn := rfl
@[simp] theorem State.modMbox_overflowMib (s : State) (n : Nat) (f : Mbox → Mbox) : (s.modMbox n f).overflowMib = s.overflowMib := rfl
@[simp] theorem State.modMbox_fns (s : State) (n : Nat) (f : Mbox → Mbox) : (s.modMbox n f).fns = s.fns := rfl
@[simp] theorem State.modMbox_keys (s : State) (n : Nat) (f : Mbox → Mbox) : (s.modMbox n f).keys = s.keys := rfl
@[simp] theorem State.modMbox_log (s : State) (n : Nat) (f : Mbox → Mbox) : (s.modMbox n f).log = s.log := rfl
@[simp] theorem State.modMbox_auth (s : State) (n : Nat) (f : Mbox → Mbox) : (s.modMbox n f).auth = s.auth := rfl
@[simp] theorem State.modMbox_partners (s : State) (n : Nat) (f : Mbox → Mbox) : (s.modMbox n f).partners = s.partners := rfl
@[simp] theorem State.modMbox_cluster (s : State) (n : Nat) (f : Mbox → Mbox) : (s.modMbox n f).cluster = s.cluster := rfl
@[simp] theorem State.modMbox_faults (s : State) (n : Nat) (f : Mbox → Mbox) : (s.modMbox n f).faults = s.faults := rfl
@[simp] theorem State.modMbox_host (s : State) (n : Nat) (f : Mbox → Mbox) : (s.modMbox n f).host = s.host := rfl
@[simp] theorem State.modMbox_hostMem (s : State) (n : Nat) (f : Mbox → Mbox) : (s.modMbox n f).hostMem = s.hostMem := rfl
@[simp] theorem State.modMbox_pmem (s : State) (n : Nat) (f : Mbox → Mbox) : (s.modMbox n f).pmem = s.pmem := rfl
@[simp] theorem State.modMbox_draws (s : State) (n : Nat) (f : Mbox → Mbox) : (s.modMbox n f).draws = s.draws := rfl
@[simp] theorem State.modMbox_outbox (s : State) (n : Nat) (f : Mbox → Mbox) : (s.modMbox n f).outbox = s.outbox := rfl
@[simp] theorem State.modMbox_pending (s : State) (n : Nat) (f : Mbox → Mbox) : (s.modMbox n f).pending = s.pending := rfl

@[simp] theorem State.modLink_variant (s : State) (k : Nat) (f : Link → Link) : (s.modLink k f).variant = s.variant := rfl
@[simp] theorem State.modLink_grade (s : State) (k : Nat) (f : Link → Link) : (s.modLink k f).grade = s.grade := rfl
@[simp] theorem State.modLink_lc (s : State) (k : Nat) (f : Link → Link) : (s.modLink k f).lc = s.lc := rfl
@[simp] theorem State.modLink_time (s : State) (k : Nat) (f : Link → Link) : (s.modLink k f).time = s.time := rfl
@[simp] theorem State.modLink_pins (s : State) (k : Nat) (f : Link → Link) : (s.modLink k f).pins = s.pins := rfl
@[simp] theorem State.modLink_boot (s : State) (k : Nat) (f : Link → Link) : (s.modLink k f).boot = s.boot := rfl
@[simp] theorem State.modLink_flash (s : State) (k : Nat) (f : Link → Link) : (s.modLink k f).flash = s.flash := rfl
@[simp] theorem State.modLink_progress (s : State) (k : Nat) (f : Link → Link) : (s.modLink k f).progress = s.progress := rfl
@[simp] theorem State.modLink_regs (s : State) (k : Nat) (f : Link → Link) : (s.modLink k f).regs = s.regs := rfl
@[simp] theorem State.modLink_chart (s : State) (k : Nat) (f : Link → Link) : (s.modLink k f).chart = s.chart := rfl
@[simp] theorem State.modLink_tiles (s : State) (k : Nat) (f : Link → Link) : (s.modLink k f).tiles = s.tiles := rfl
@[simp] theorem State.modLink_queues (s : State) (k : Nat) (f : Link → Link) : (s.modLink k f).queues = s.queues := rfl
@[simp] theorem State.modLink_jobs (s : State) (k : Nat) (f : Link → Link) : (s.modLink k f).jobs = s.jobs := rfl
@[simp] theorem State.modLink_nextSeq (s : State) (k : Nat) (f : Link → Link) : (s.modLink k f).nextSeq = s.nextSeq := rfl
@[simp] theorem State.modLink_acceptSeq (s : State) (k : Nat) (f : Link → Link) : (s.modLink k f).acceptSeq = s.acceptSeq := rfl
@[simp] theorem State.modLink_lastServed (s : State) (k : Nat) (f : Link → Link) : (s.modLink k f).lastServed = s.lastServed := rfl
@[simp] theorem State.modLink_lastFn (s : State) (k : Nat) (f : Link → Link) : (s.modLink k f).lastFn = s.lastFn := rfl
@[simp] theorem State.modLink_overflowMib (s : State) (k : Nat) (f : Link → Link) : (s.modLink k f).overflowMib = s.overflowMib := rfl
@[simp] theorem State.modLink_fns (s : State) (k : Nat) (f : Link → Link) : (s.modLink k f).fns = s.fns := rfl
@[simp] theorem State.modLink_keys (s : State) (k : Nat) (f : Link → Link) : (s.modLink k f).keys = s.keys := rfl
@[simp] theorem State.modLink_log (s : State) (k : Nat) (f : Link → Link) : (s.modLink k f).log = s.log := rfl
@[simp] theorem State.modLink_auth (s : State) (k : Nat) (f : Link → Link) : (s.modLink k f).auth = s.auth := rfl
@[simp] theorem State.modLink_partners (s : State) (k : Nat) (f : Link → Link) : (s.modLink k f).partners = s.partners := rfl
@[simp] theorem State.modLink_service (s : State) (k : Nat) (f : Link → Link) : (s.modLink k f).service = s.service := rfl
@[simp] theorem State.modLink_faults (s : State) (k : Nat) (f : Link → Link) : (s.modLink k f).faults = s.faults := rfl
@[simp] theorem State.modLink_host (s : State) (k : Nat) (f : Link → Link) : (s.modLink k f).host = s.host := rfl
@[simp] theorem State.modLink_hostMem (s : State) (k : Nat) (f : Link → Link) : (s.modLink k f).hostMem = s.hostMem := rfl
@[simp] theorem State.modLink_pmem (s : State) (k : Nat) (f : Link → Link) : (s.modLink k f).pmem = s.pmem := rfl
@[simp] theorem State.modLink_draws (s : State) (k : Nat) (f : Link → Link) : (s.modLink k f).draws = s.draws := rfl
@[simp] theorem State.modLink_outbox (s : State) (k : Nat) (f : Link → Link) : (s.modLink k f).outbox = s.outbox := rfl
@[simp] theorem State.modLink_pending (s : State) (k : Nat) (f : Link → Link) : (s.modLink k f).pending = s.pending := rfl

@[simp] theorem State.modTether_variant (s : State) (d : Nat) (f : Tether → Tether) : (s.modTether d f).variant = s.variant := rfl
@[simp] theorem State.modTether_grade (s : State) (d : Nat) (f : Tether → Tether) : (s.modTether d f).grade = s.grade := rfl
@[simp] theorem State.modTether_lc (s : State) (d : Nat) (f : Tether → Tether) : (s.modTether d f).lc = s.lc := rfl
@[simp] theorem State.modTether_time (s : State) (d : Nat) (f : Tether → Tether) : (s.modTether d f).time = s.time := rfl
@[simp] theorem State.modTether_pins (s : State) (d : Nat) (f : Tether → Tether) : (s.modTether d f).pins = s.pins := rfl
@[simp] theorem State.modTether_boot (s : State) (d : Nat) (f : Tether → Tether) : (s.modTether d f).boot = s.boot := rfl
@[simp] theorem State.modTether_flash (s : State) (d : Nat) (f : Tether → Tether) : (s.modTether d f).flash = s.flash := rfl
@[simp] theorem State.modTether_progress (s : State) (d : Nat) (f : Tether → Tether) : (s.modTether d f).progress = s.progress := rfl
@[simp] theorem State.modTether_regs (s : State) (d : Nat) (f : Tether → Tether) : (s.modTether d f).regs = s.regs := rfl
@[simp] theorem State.modTether_chart (s : State) (d : Nat) (f : Tether → Tether) : (s.modTether d f).chart = s.chart := rfl
@[simp] theorem State.modTether_tiles (s : State) (d : Nat) (f : Tether → Tether) : (s.modTether d f).tiles = s.tiles := rfl
@[simp] theorem State.modTether_queues (s : State) (d : Nat) (f : Tether → Tether) : (s.modTether d f).queues = s.queues := rfl
@[simp] theorem State.modTether_jobs (s : State) (d : Nat) (f : Tether → Tether) : (s.modTether d f).jobs = s.jobs := rfl
@[simp] theorem State.modTether_nextSeq (s : State) (d : Nat) (f : Tether → Tether) : (s.modTether d f).nextSeq = s.nextSeq := rfl
@[simp] theorem State.modTether_acceptSeq (s : State) (d : Nat) (f : Tether → Tether) : (s.modTether d f).acceptSeq = s.acceptSeq := rfl
@[simp] theorem State.modTether_lastServed (s : State) (d : Nat) (f : Tether → Tether) : (s.modTether d f).lastServed = s.lastServed := rfl
@[simp] theorem State.modTether_lastFn (s : State) (d : Nat) (f : Tether → Tether) : (s.modTether d f).lastFn = s.lastFn := rfl
@[simp] theorem State.modTether_overflowMib (s : State) (d : Nat) (f : Tether → Tether) : (s.modTether d f).overflowMib = s.overflowMib := rfl
@[simp] theorem State.modTether_fns (s : State) (d : Nat) (f : Tether → Tether) : (s.modTether d f).fns = s.fns := rfl
@[simp] theorem State.modTether_keys (s : State) (d : Nat) (f : Tether → Tether) : (s.modTether d f).keys = s.keys := rfl
@[simp] theorem State.modTether_log (s : State) (d : Nat) (f : Tether → Tether) : (s.modTether d f).log = s.log := rfl
@[simp] theorem State.modTether_auth (s : State) (d : Nat) (f : Tether → Tether) : (s.modTether d f).auth = s.auth := rfl
@[simp] theorem State.modTether_partners (s : State) (d : Nat) (f : Tether → Tether) : (s.modTether d f).partners = s.partners := rfl
@[simp] theorem State.modTether_service (s : State) (d : Nat) (f : Tether → Tether) : (s.modTether d f).service = s.service := rfl
@[simp] theorem State.modTether_faults (s : State) (d : Nat) (f : Tether → Tether) : (s.modTether d f).faults = s.faults := rfl
@[simp] theorem State.modTether_host (s : State) (d : Nat) (f : Tether → Tether) : (s.modTether d f).host = s.host := rfl
@[simp] theorem State.modTether_hostMem (s : State) (d : Nat) (f : Tether → Tether) : (s.modTether d f).hostMem = s.hostMem := rfl
@[simp] theorem State.modTether_pmem (s : State) (d : Nat) (f : Tether → Tether) : (s.modTether d f).pmem = s.pmem := rfl
@[simp] theorem State.modTether_draws (s : State) (d : Nat) (f : Tether → Tether) : (s.modTether d f).draws = s.draws := rfl
@[simp] theorem State.modTether_outbox (s : State) (d : Nat) (f : Tether → Tether) : (s.modTether d f).outbox = s.outbox := rfl
@[simp] theorem State.modTether_pending (s : State) (d : Nat) (f : Tether → Tether) : (s.modTether d f).pending = s.pending := rfl

@[simp] theorem State.modSpdm_variant (s : State) (tr : Transport) (f : Spdm → Spdm) : (s.modSpdm tr f).variant = s.variant := rfl
@[simp] theorem State.modSpdm_grade (s : State) (tr : Transport) (f : Spdm → Spdm) : (s.modSpdm tr f).grade = s.grade := rfl
@[simp] theorem State.modSpdm_lc (s : State) (tr : Transport) (f : Spdm → Spdm) : (s.modSpdm tr f).lc = s.lc := rfl
@[simp] theorem State.modSpdm_time (s : State) (tr : Transport) (f : Spdm → Spdm) : (s.modSpdm tr f).time = s.time := rfl
@[simp] theorem State.modSpdm_pins (s : State) (tr : Transport) (f : Spdm → Spdm) : (s.modSpdm tr f).pins = s.pins := rfl
@[simp] theorem State.modSpdm_boot (s : State) (tr : Transport) (f : Spdm → Spdm) : (s.modSpdm tr f).boot = s.boot := rfl
@[simp] theorem State.modSpdm_flash (s : State) (tr : Transport) (f : Spdm → Spdm) : (s.modSpdm tr f).flash = s.flash := rfl
@[simp] theorem State.modSpdm_progress (s : State) (tr : Transport) (f : Spdm → Spdm) : (s.modSpdm tr f).progress = s.progress := rfl
@[simp] theorem State.modSpdm_regs (s : State) (tr : Transport) (f : Spdm → Spdm) : (s.modSpdm tr f).regs = s.regs := rfl
@[simp] theorem State.modSpdm_chart (s : State) (tr : Transport) (f : Spdm → Spdm) : (s.modSpdm tr f).chart = s.chart := rfl
@[simp] theorem State.modSpdm_tiles (s : State) (tr : Transport) (f : Spdm → Spdm) : (s.modSpdm tr f).tiles = s.tiles := rfl
@[simp] theorem State.modSpdm_queues (s : State) (tr : Transport) (f : Spdm → Spdm) : (s.modSpdm tr f).queues = s.queues := rfl
@[simp] theorem State.modSpdm_jobs (s : State) (tr : Transport) (f : Spdm → Spdm) : (s.modSpdm tr f).jobs = s.jobs := rfl
@[simp] theorem State.modSpdm_nextSeq (s : State) (tr : Transport) (f : Spdm → Spdm) : (s.modSpdm tr f).nextSeq = s.nextSeq := rfl
@[simp] theorem State.modSpdm_acceptSeq (s : State) (tr : Transport) (f : Spdm → Spdm) : (s.modSpdm tr f).acceptSeq = s.acceptSeq := rfl
@[simp] theorem State.modSpdm_lastServed (s : State) (tr : Transport) (f : Spdm → Spdm) : (s.modSpdm tr f).lastServed = s.lastServed := rfl
@[simp] theorem State.modSpdm_lastFn (s : State) (tr : Transport) (f : Spdm → Spdm) : (s.modSpdm tr f).lastFn = s.lastFn := rfl
@[simp] theorem State.modSpdm_overflowMib (s : State) (tr : Transport) (f : Spdm → Spdm) : (s.modSpdm tr f).overflowMib = s.overflowMib := rfl
@[simp] theorem State.modSpdm_fns (s : State) (tr : Transport) (f : Spdm → Spdm) : (s.modSpdm tr f).fns = s.fns := rfl
@[simp] theorem State.modSpdm_keys (s : State) (tr : Transport) (f : Spdm → Spdm) : (s.modSpdm tr f).keys = s.keys := rfl
@[simp] theorem State.modSpdm_log (s : State) (tr : Transport) (f : Spdm → Spdm) : (s.modSpdm tr f).log = s.log := rfl
@[simp] theorem State.modSpdm_auth (s : State) (tr : Transport) (f : Spdm → Spdm) : (s.modSpdm tr f).auth = s.auth := rfl
@[simp] theorem State.modSpdm_partners (s : State) (tr : Transport) (f : Spdm → Spdm) : (s.modSpdm tr f).partners = s.partners := rfl
@[simp] theorem State.modSpdm_service (s : State) (tr : Transport) (f : Spdm → Spdm) : (s.modSpdm tr f).service = s.service := rfl
@[simp] theorem State.modSpdm_cluster (s : State) (tr : Transport) (f : Spdm → Spdm) : (s.modSpdm tr f).cluster = s.cluster := rfl
@[simp] theorem State.modSpdm_faults (s : State) (tr : Transport) (f : Spdm → Spdm) : (s.modSpdm tr f).faults = s.faults := rfl
@[simp] theorem State.modSpdm_hostMem (s : State) (tr : Transport) (f : Spdm → Spdm) : (s.modSpdm tr f).hostMem = s.hostMem := rfl
@[simp] theorem State.modSpdm_pmem (s : State) (tr : Transport) (f : Spdm → Spdm) : (s.modSpdm tr f).pmem = s.pmem := rfl
@[simp] theorem State.modSpdm_draws (s : State) (tr : Transport) (f : Spdm → Spdm) : (s.modSpdm tr f).draws = s.draws := rfl
@[simp] theorem State.modSpdm_outbox (s : State) (tr : Transport) (f : Spdm → Spdm) : (s.modSpdm tr f).outbox = s.outbox := rfl
@[simp] theorem State.modSpdm_pending (s : State) (tr : Transport) (f : Spdm → Spdm) : (s.modSpdm tr f).pending = s.pending := rfl

@[simp] theorem State.at_keeps_variant (s : State) (t : Nat) : (s.at_ t).variant = s.variant := rfl
@[simp] theorem State.at_keeps_grade (s : State) (t : Nat) : (s.at_ t).grade = s.grade := rfl
@[simp] theorem State.at_keeps_lc (s : State) (t : Nat) : (s.at_ t).lc = s.lc := rfl
@[simp] theorem State.at_keeps_pins (s : State) (t : Nat) : (s.at_ t).pins = s.pins := rfl
@[simp] theorem State.at_keeps_boot (s : State) (t : Nat) : (s.at_ t).boot = s.boot := rfl
@[simp] theorem State.at_keeps_flash (s : State) (t : Nat) : (s.at_ t).flash = s.flash := rfl
@[simp] theorem State.at_keeps_progress (s : State) (t : Nat) : (s.at_ t).progress = s.progress := rfl
@[simp] theorem State.at_keeps_regs (s : State) (t : Nat) : (s.at_ t).regs = s.regs := rfl
@[simp] theorem State.at_keeps_chart (s : State) (t : Nat) : (s.at_ t).chart = s.chart := rfl
@[simp] theorem State.at_keeps_tiles (s : State) (t : Nat) : (s.at_ t).tiles = s.tiles := rfl
@[simp] theorem State.at_keeps_queues (s : State) (t : Nat) : (s.at_ t).queues = s.queues := rfl
@[simp] theorem State.at_keeps_jobs (s : State) (t : Nat) : (s.at_ t).jobs = s.jobs := rfl
@[simp] theorem State.at_keeps_nextSeq (s : State) (t : Nat) : (s.at_ t).nextSeq = s.nextSeq := rfl
@[simp] theorem State.at_keeps_acceptSeq (s : State) (t : Nat) : (s.at_ t).acceptSeq = s.acceptSeq := rfl
@[simp] theorem State.at_keeps_lastServed (s : State) (t : Nat) : (s.at_ t).lastServed = s.lastServed := rfl
@[simp] theorem State.at_keeps_lastFn (s : State) (t : Nat) : (s.at_ t).lastFn = s.lastFn := rfl
@[simp] theorem State.at_keeps_overflowMib (s : State) (t : Nat) : (s.at_ t).overflowMib = s.overflowMib := rfl
@[simp] theorem State.at_keeps_fns (s : State) (t : Nat) : (s.at_ t).fns = s.fns := rfl
@[simp] theorem State.at_keeps_keys (s : State) (t : Nat) : (s.at_ t).keys = s.keys := rfl
@[simp] theorem State.at_keeps_log (s : State) (t : Nat) : (s.at_ t).log = s.log := rfl
@[simp] theorem State.at_keeps_auth (s : State) (t : Nat) : (s.at_ t).auth = s.auth := rfl
@[simp] theorem State.at_keeps_partners (s : State) (t : Nat) : (s.at_ t).partners = s.partners := rfl
@[simp] theorem State.at_keeps_service (s : State) (t : Nat) : (s.at_ t).service = s.service := rfl
@[simp] theorem State.at_keeps_cluster (s : State) (t : Nat) : (s.at_ t).cluster = s.cluster := rfl
@[simp] theorem State.at_keeps_faults (s : State) (t : Nat) : (s.at_ t).faults = s.faults := rfl
@[simp] theorem State.at_keeps_host (s : State) (t : Nat) : (s.at_ t).host = s.host := rfl
@[simp] theorem State.at_keeps_hostMem (s : State) (t : Nat) : (s.at_ t).hostMem = s.hostMem := rfl
@[simp] theorem State.at_keeps_pmem (s : State) (t : Nat) : (s.at_ t).pmem = s.pmem := rfl
@[simp] theorem State.at_keeps_draws (s : State) (t : Nat) : (s.at_ t).draws = s.draws := rfl
@[simp] theorem State.at_keeps_outbox (s : State) (t : Nat) : (s.at_ t).outbox = s.outbox := rfl
@[simp] theorem State.at_keeps_pending (s : State) (t : Nat) : (s.at_ t).pending = s.pending := rfl

@[simp] theorem State.drawn_variant (s : State) (n : Nat) : (s.drawn n).variant = s.variant := rfl
@[simp] theorem State.drawn_grade (s : State) (n : Nat) : (s.drawn n).grade = s.grade := rfl
@[simp] theorem State.drawn_lc (s : State) (n : Nat) : (s.drawn n).lc = s.lc := rfl
@[simp] theorem State.drawn_time (s : State) (n : Nat) : (s.drawn n).time = s.time := rfl
@[simp] theorem State.drawn_pins (s : State) (n : Nat) : (s.drawn n).pins = s.pins := rfl
@[simp] theorem State.drawn_boot (s : State) (n : Nat) : (s.drawn n).boot = s.boot := rfl
@[simp] theorem State.drawn_flash (s : State) (n : Nat) : (s.drawn n).flash = s.flash := rfl
@[simp] theorem State.drawn_progress (s : State) (n : Nat) : (s.drawn n).progress = s.progress := rfl
@[simp] theorem State.drawn_regs (s : State) (n : Nat) : (s.drawn n).regs = s.regs := rfl
@[simp] theorem State.drawn_chart (s : State) (n : Nat) : (s.drawn n).chart = s.chart := rfl
@[simp] theorem State.drawn_tiles (s : State) (n : Nat) : (s.drawn n).tiles = s.tiles := rfl
@[simp] theorem State.drawn_queues (s : State) (n : Nat) : (s.drawn n).queues = s.queues := rfl
@[simp] theorem State.drawn_jobs (s : State) (n : Nat) : (s.drawn n).jobs = s.jobs := rfl
@[simp] theorem State.drawn_nextSeq (s : State) (n : Nat) : (s.drawn n).nextSeq = s.nextSeq := rfl
@[simp] theorem State.drawn_acceptSeq (s : State) (n : Nat) : (s.drawn n).acceptSeq = s.acceptSeq := rfl
@[simp] theorem State.drawn_lastServed (s : State) (n : Nat) : (s.drawn n).lastServed = s.lastServed := rfl
@[simp] theorem State.drawn_lastFn (s : State) (n : Nat) : (s.drawn n).lastFn = s.lastFn := rfl
@[simp] theorem State.drawn_overflowMib (s : State) (n : Nat) : (s.drawn n).overflowMib = s.overflowMib := rfl
@[simp] theorem State.drawn_fns (s : State) (n : Nat) : (s.drawn n).fns = s.fns := rfl
@[simp] theorem State.drawn_keys (s : State) (n : Nat) : (s.drawn n).keys = s.keys := rfl
@[simp] theorem State.drawn_log (s : State) (n : Nat) : (s.drawn n).log = s.log := rfl
@[simp] theorem State.drawn_auth (s : State) (n : Nat) : (s.drawn n).auth = s.auth := rfl
@[simp] theorem State.drawn_partners (s : State) (n : Nat) : (s.drawn n).partners = s.partners := rfl
@[simp] theorem State.drawn_service (s : State) (n : Nat) : (s.drawn n).service = s.service := rfl
@[simp] theorem State.drawn_cluster (s : State) (n : Nat) : (s.drawn n).cluster = s.cluster := rfl
@[simp] theorem State.drawn_faults (s : State) (n : Nat) : (s.drawn n).faults = s.faults := rfl
@[simp] theorem State.drawn_host (s : State) (n : Nat) : (s.drawn n).host = s.host := rfl
@[simp] theorem State.drawn_hostMem (s : State) (n : Nat) : (s.drawn n).hostMem = s.hostMem := rfl
@[simp] theorem State.drawn_pmem (s : State) (n : Nat) : (s.drawn n).pmem = s.pmem := rfl
@[simp] theorem State.drawn_outbox (s : State) (n : Nat) : (s.drawn n).outbox = s.outbox := rfl
@[simp] theorem State.drawn_pending (s : State) (n : Nat) : (s.drawn n).pending = s.pending := rfl

@[simp] theorem State.emit_variant (s : State) (o : Output) : (s.emit o).variant = s.variant := rfl
@[simp] theorem State.emit_grade (s : State) (o : Output) : (s.emit o).grade = s.grade := rfl
@[simp] theorem State.emit_lc (s : State) (o : Output) : (s.emit o).lc = s.lc := rfl
@[simp] theorem State.emit_time (s : State) (o : Output) : (s.emit o).time = s.time := rfl
@[simp] theorem State.emit_pins (s : State) (o : Output) : (s.emit o).pins = s.pins := rfl
@[simp] theorem State.emit_boot (s : State) (o : Output) : (s.emit o).boot = s.boot := rfl
@[simp] theorem State.emit_flash (s : State) (o : Output) : (s.emit o).flash = s.flash := rfl
@[simp] theorem State.emit_progress (s : State) (o : Output) : (s.emit o).progress = s.progress := rfl
@[simp] theorem State.emit_regs (s : State) (o : Output) : (s.emit o).regs = s.regs := rfl
@[simp] theorem State.emit_chart (s : State) (o : Output) : (s.emit o).chart = s.chart := rfl
@[simp] theorem State.emit_tiles (s : State) (o : Output) : (s.emit o).tiles = s.tiles := rfl
@[simp] theorem State.emit_queues (s : State) (o : Output) : (s.emit o).queues = s.queues := rfl
@[simp] theorem State.emit_jobs (s : State) (o : Output) : (s.emit o).jobs = s.jobs := rfl
@[simp] theorem State.emit_nextSeq (s : State) (o : Output) : (s.emit o).nextSeq = s.nextSeq := rfl
@[simp] theorem State.emit_acceptSeq (s : State) (o : Output) : (s.emit o).acceptSeq = s.acceptSeq := rfl
@[simp] theorem State.emit_lastServed (s : State) (o : Output) : (s.emit o).lastServed = s.lastServed := rfl
@[simp] theorem State.emit_lastFn (s : State) (o : Output) : (s.emit o).lastFn = s.lastFn := rfl
@[simp] theorem State.emit_overflowMib (s : State) (o : Output) : (s.emit o).overflowMib = s.overflowMib := rfl
@[simp] theorem State.emit_fns (s : State) (o : Output) : (s.emit o).fns = s.fns := rfl
@[simp] theorem State.emit_keys (s : State) (o : Output) : (s.emit o).keys = s.keys := rfl
@[simp] theorem State.emit_log (s : State) (o : Output) : (s.emit o).log = s.log := rfl
@[simp] theorem State.emit_auth (s : State) (o : Output) : (s.emit o).auth = s.auth := rfl
@[simp] theorem State.emit_partners (s : State) (o : Output) : (s.emit o).partners = s.partners := rfl
@[simp] theorem State.emit_service (s : State) (o : Output) : (s.emit o).service = s.service := rfl
@[simp] theorem State.emit_cluster (s : State) (o : Output) : (s.emit o).cluster = s.cluster := rfl
@[simp] theorem State.emit_faults (s : State) (o : Output) : (s.emit o).faults = s.faults := rfl
@[simp] theorem State.emit_host (s : State) (o : Output) : (s.emit o).host = s.host := rfl
@[simp] theorem State.emit_hostMem (s : State) (o : Output) : (s.emit o).hostMem = s.hostMem := rfl
@[simp] theorem State.emit_pmem (s : State) (o : Output) : (s.emit o).pmem = s.pmem := rfl
@[simp] theorem State.emit_draws (s : State) (o : Output) : (s.emit o).draws = s.draws := rfl
@[simp] theorem State.emit_pending (s : State) (o : Output) : (s.emit o).pending = s.pending := rfl

/-! ### What each accessor reads after its update -/

theorem State.modTile_tile (s : State) (n m : Nat) (f : Tile → Tile) :
    (s.modTile n f).tile m = if m = n then f (s.tile n) else s.tile m := by
  simp only [State.modTile, State.tile, tget_tput]
  split <;> simp

@[simp] theorem State.modTile_tile_same (s : State) (n : Nat) (f : Tile → Tile) :
    (s.modTile n f).tile n = f (s.tile n) := by simp [State.modTile_tile]

theorem State.modQueue_queue (s : State) (n m : Nat) (f : Queue → Queue) :
    (s.modQueue n f).queue m = if m = n then f (s.queue n) else s.queue m := by
  simp only [State.modQueue, State.queue, tget_tput]
  split <;> simp

@[simp] theorem State.modQueue_queue_same (s : State) (n : Nat) (f : Queue → Queue) :
    (s.modQueue n f).queue n = f (s.queue n) := by simp [State.modQueue_queue]

theorem State.modFn_fn (s : State) (n m : Nat) (f : Fn → Fn) :
    (s.modFn n f).fn m = if m = n then f (s.fn n) else s.fn m := by
  simp only [State.modFn, State.fn, tget_tput]
  split <;> simp

@[simp] theorem State.modFn_fn_same (s : State) (n : Nat) (f : Fn → Fn) :
    (s.modFn n f).fn n = f (s.fn n) := by simp [State.modFn_fn]

theorem State.modLog_logReg (s : State) (n m : Nat) (f : LogReg → LogReg) :
    (s.modLog n f).logReg m = if m = n then f (s.logReg n) else s.logReg m := by
  simp only [State.modLog, State.logReg, tget_tput]
  split <;> simp

@[simp] theorem State.modLog_logReg_same (s : State) (n : Nat) (f : LogReg → LogReg) :
    (s.modLog n f).logReg n = f (s.logReg n) := by simp [State.modLog_logReg]

theorem State.modPort_port (s : State) (n m : Nat) (f : Port → Port) :
    (s.modPort n f).port m = if m = n then f (s.port n) else s.port m := by
  simp only [State.modPort, State.port, tget_tput]
  split <;> simp

@[simp] theorem State.modPort_port_same (s : State) (n : Nat) (f : Port → Port) :
    (s.modPort n f).port n = f (s.port n) := by simp [State.modPort_port]

theorem State.modCore_core (s : State) (n m : Nat) (f : Core → Core) :
    (s.modCore n f).core m = if m = n then f (s.core n) else s.core m := by
  simp only [State.modCore, State.core, tget_tput]
  split <;> simp

@[simp] theorem State.modCore_core_same (s : State) (n : Nat) (f : Core → Core) :
    (s.modCore n f).core n = f (s.core n) := by simp [State.modCore_core]

theorem State.modModule_module (s : State) (n m : Nat) (f : Module → Module) :
    (s.modModule n f).module m = if m = n then f (s.module n) else s.module m := by
  simp only [State.modModule, State.module, tget_tput]
  split <;> simp

@[simp] theorem State.modModule_module_same (s : State) (n : Nat) (f : Module → Module) :
    (s.modModule n f).module n = f (s.module n) := by simp [State.modModule_module]

theorem State.modMbox_mbox (s : State) (n m : Nat) (f : Mbox → Mbox) :
    (s.modMbox n f).mbox m = if m = n then f (s.mbox n) else s.mbox m := by
  simp only [State.modMbox, State.mbox, tget_tput]
  split <;> simp

@[simp] theorem State.modMbox_mbox_same (s : State) (n : Nat) (f : Mbox → Mbox) :
    (s.modMbox n f).mbox n = f (s.mbox n) := by simp [State.modMbox_mbox]

theorem State.modLink_link (s : State) (n m : Nat) (f : Link → Link) :
    (s.modLink n f).link m = if m = n then f (s.link n) else s.link m := by
  simp only [State.modLink, State.link, tget_tput]
  split <;> simp

@[simp] theorem State.modLink_link_same (s : State) (n : Nat) (f : Link → Link) :
    (s.modLink n f).link n = f (s.link n) := by simp [State.modLink_link]

theorem State.modTether_tether (s : State) (n m : Nat) (f : Tether → Tether) :
    (s.modTether n f).tether m = if m = n then f (s.tether n) else s.tether m := by
  simp only [State.modTether, State.tether, tget_tput]
  split <;> simp

@[simp] theorem State.modTether_tether_same (s : State) (n : Nat) (f : Tether → Tether) :
    (s.modTether n f).tether n = f (s.tether n) := by simp [State.modTether_tether]

theorem State.modJob_job (s : State) (j k : Nat) (f : Job → Job) :
    (s.modJob j f).job? k = if k = j then (s.job? k).map f else s.job? k := by
  simp only [State.modJob, State.job?, tget_tmod]

theorem State.delJob_job (s : State) (j k : Nat) : (s.delJob j).job? k = if k = j then none else s.job? k := by
  simp only [State.delJob, State.job?, tget_tdel]

theorem State.modKey_key (s : State) (i k : Nat) (f : Key → Key) :
    (s.modKey i f).key? k = if k = i then (s.key? k).map f else s.key? k := by
  simp only [State.modKey, State.key?, tget_tmod]

theorem State.modPartner_partner (s : State) (p q : Nat) (f : Partner → Partner) :
    (s.modPartner p f).partner? q = if q = p then (s.partner? q).map f else s.partner? q := by
  simp only [State.modPartner, State.partner?, tget_tmod]

theorem State.setReg_reg (s : State) (o v p : Nat) : (s.setReg o v).reg p = if p = o then v else s.reg p := by
  simp only [State.setReg, State.reg, tget_tput]
  split <;> simp

theorem State.modSpdm_spdmOf (s : State) (tr : Transport) (f : Spdm → Spdm) :
    (s.modSpdm tr f).spdmOf tr = f (s.spdmOf tr) := by
  simp [State.modSpdm, State.spdmOf]

end Sys2Proof.Machine
end

