-- ==== Sys2Proof/Laws/Ops.lean ====
section
/-! SUPPORT. What the shared operations answer. -/

namespace Sys2Proof.Machine

/-- A command whose effect leaves the queue alone answers that effect. -/
theorem done_eq {s t : State} (h : t.pending = s.pending) : done s t = .next t := by
  unfold done
  rw [← h]

/-- A command within the numbering has its effect. -/
theorem within_eq {ok : Bool} {s t : State} (hok : ok = true) (h : t.pending = s.pending) : within ok s t = .next t := by
  unfold within
  rw [if_pos hok, done_eq h]

/-- A command outside the numbering stops the model. -/
theorem within_out {ok : Bool} {s t : State} (hok : ok = false) : within ok s t = noIndex := by
  unfold within
  simp [hok]

/-- What `done` can answer. -/
theorem done_next {s t u : State} (h : done s t = .next u) : u = { t with pending := s.pending } := by
  unfold done at h
  cases h
  rfl

/-- What `within` can answer. -/
theorem within_next {ok : Bool} {s t u : State} (h : within ok s t = .next u) :
    ok = true ∧ u = { t with pending := s.pending } := by
  unfold within at h
  split at h
  · exact ⟨‹_›, done_next h⟩
  · cases h

/-- The manager's write takes effect in operation. -/
theorem managed_on {s t : State} (h : s.barOn 0 = true) : managed s t = t := by simp [managed, h]

/-- The manager's write is discarded before READY and in D3hot. -/
theorem managed_off {s t : State} (h : s.barOn 0 = false) : managed s t = s := by simp [managed, h]

end Sys2Proof.Machine
end

