-- ==== Sys2Proof/Laws/Compute.lean ====
section
/-! SUPPORT. What the commands that compute an operation answer, and the lengths of what they compute. -/

namespace Sys2Proof.Machine

@[simp] theorem prim_length (p : Prim) (ins : List Bytes) (n : Nat) : (prim p ins n).length = n := by simp [prim]

@[simp] theorem drbgBytes_length (d n : Nat) : (drbgBytes d n).length = n := by simp [drbgBytes]

@[simp] theorem le_length (k n : Nat) : (le k n).length = k := by
  induction k generalizing n with
  | zero => rfl
  | succ k ih => simp [le, ih]

@[simp] theorem be_length (k n : Nat) : (be k n).length = k := by simp [be]

@[simp] theorem zeros_length (n : Nat) : (zeros n).length = n := by simp [zeros]

/-- A command of an opcode group computes the result of the job that runs. -/
theorem computeRow_next {hi j : Nat} {f : State → Job → Result} {s : State} {J : Job} {op : Nat}
    (h : s.running j J op) (ho : op / 0x100 = hi) : computeRow hi j f s = .next (s.computed j (f s J).1 (f s J).2) := by
  obtain ⟨hj, hop, hc⟩ := h
  have : J.opcode / 0x100 = hi ∧ J.computing = true := ⟨by rw [hop, ho], hc⟩
  unfold computeRow
  rw [hj]
  dsimp only
  rw [if_pos this]
  exact done_eq rfl

/-- What such a command computes, once its result is known. -/
theorem computes_of_row {c : Instr} {hi j : Nat} {f : State → Job → Result} {s : State} {J : Job} {op : Nat}
    {P : JobOut → Nat → Prop} (hx : exec c s = computeRow hi j f s) (h : s.running j J op) (ho : op / 0x100 = hi)
    (hP : P (f s J).1 (f s J).2) : Computes c j s P :=
  ⟨_, _, by rw [hx, computeRow_next h ho], hP⟩

/-- A job that is not running, or of another opcode group, computes nothing. -/
theorem computeRow_idle {hi j : Nat} {f : State → Job → Result} {s : State} {J : Job} (hj : s.job? j = some J)
    (h : J.opcode / 0x100 ≠ hi ∨ J.computing = false) : computeRow hi j f s = .next s := by
  have : ¬ (J.opcode / 0x100 = hi ∧ J.computing = true) := by
    rintro ⟨h1, h2⟩
    rcases h with h | h
    · exact h h1
    · simp [h] at h2
  unfold computeRow
  rw [hj]
  dsimp only
  rw [if_neg this]
  exact done_eq rfl

/-- The key that a result stores under a reserved index is the one that it makes. -/
theorem newKey_makes {J : Job} {i alg n : Nat} {kind : KeyKind} {o : JobOut} {K : Key}
    (ho : ∀ e ∈ J.newKey i K, e ∈ o.keys) (h : K.alg = alg ∧ K.kind = kind ∧ K.owner = J.fn ∧ K.material.length = n) :
    o.makes J i alg kind n := by
  intro k hk
  exact ⟨(k, K), ho _ (by simp [Job.newKey, hk]), rfl, h⟩

/-- What the default attributes leave as given. -/
theorem defaultKey_given (alg : Nat) (kind : KeyKind) (owner : Nat) (m p : Bytes) (parent : Option (Nat × Key)) :
    (defaultKey alg kind owner m p parent).alg = alg ∧ (defaultKey alg kind owner m p parent).kind = kind ∧
      (defaultKey alg kind owner m p parent).owner = owner ∧ (defaultKey alg kind owner m p parent).material = m := by
  unfold defaultKey
  cases parent <;> simp

/-- A verdict releases nothing. -/
theorem verdictOf_verdict (ok : Bool) : (verdictOf ok).verdict := by
  cases ok <;> exact ⟨⟨rfl, rfl, rfl, rfl, rfl, rfl, rfl⟩, by simp [verdictOf]⟩

/-- A failed check of a key releases nothing. -/
theorem keyFails_refused (bad : Bool) : (keyFails bad).keyRefused := ⟨⟨rfl, rfl, rfl, rfl, rfl, rfl, rfl⟩, rfl⟩

/-- A runaway loop releases nothing. -/
theorem runaway_mchecked : runaway.mchecked := ⟨⟨rfl, rfl, rfl, rfl, rfl, rfl, rfl⟩, rfl⟩

end Sys2Proof.Machine
end

