-- ==== Sys2Proof/Laws/Memory.lean ====
section
/-! SUPPORT. The canonical form of a memory is kept by every write, a read after a write gives the byte written, and a
write leaves every other byte alone (assumption log 7). -/

namespace Sys2Proof.Machine

/-- Every address of a memory is above `a`. -/
def memAbove (a : Nat) (m : List Host.Cell) : Prop := ∀ e ∈ m, a < e.1

theorem memWf_cons (i : Nat) (v : Byte) (m : List Host.Cell) :
    memWf ((i, v) :: m) = true ↔ v ≠ 0 ∧ memAbove i m ∧ memWf m = true := by
  induction m generalizing i v with
  | nil => simp [memWf, memAbove]
  | cons e m ih =>
    obtain ⟨j, w⟩ := e
    have h := ih j w
    simp only [memWf, Bool.and_eq_true, bne_iff_ne, ne_eq, decide_eq_true_eq, memAbove, List.mem_cons, forall_eq_or_imp]
    constructor
    · rintro ⟨⟨hv, hij⟩, hw⟩
      refine ⟨hv, ⟨hij, fun e he => ?_⟩, hw⟩
      exact lt_trans hij ((h.1 hw).2.1 e he)
    · rintro ⟨hv, ⟨hij, -⟩, hw⟩
      exact ⟨⟨hv, hij⟩, hw⟩

theorem memWrite_above (m : List Host.Cell) (a i : Nat) (v : Byte) (hm : memAbove i m) (h : i < a) :
    memAbove i (memWrite m a v) := by
  induction m with
  | nil =>
    simp only [memWrite]
    split <;> simp [memAbove, h]
  | cons e m ih =>
    obtain ⟨j, w⟩ := e
    have hj : i < j := hm (j, w) (by simp)
    have ht : memAbove i m := fun e he => hm e (by simp [he])
    have hc := ih ht
    simp only [memWrite]
    split
    · split
      · exact hm
      · intro e he
        rcases List.mem_cons.1 he with rfl | he
        · exact h
        · exact hm e he
    · split
      · split
        · exact ht
        · intro e he
          rcases List.mem_cons.1 he with rfl | he
          · exact h
          · exact ht e he
      · intro e he
        rcases List.mem_cons.1 he with rfl | he
        · exact hj
        · exact hc e he

/-- A write keeps the canonical form. -/
theorem memWrite_wf (m : List Host.Cell) (a : Nat) (v : Byte) (hm : memWf m = true) : memWf (memWrite m a v) = true := by
  induction m with
  | nil =>
    simp only [memWrite]
    split <;> simp_all [memWf]
  | cons e m ih =>
    obtain ⟨i, w⟩ := e
    obtain ⟨hw, hi, ht⟩ := (memWf_cons i w m).1 hm
    simp only [memWrite]
    split
    · rename_i h
      split
      · exact hm
      · rename_i hv
        refine (memWf_cons a v _).2 ⟨hv, ?_, hm⟩
        intro e he
        rcases List.mem_cons.1 he with rfl | he
        · exact h
        · exact lt_trans h (hi e he)
    · split
      · rename_i h
        subst h
        split
        · exact ht
        · rename_i hv
          exact (memWf_cons a v _).2 ⟨hv, hi, ht⟩
      · rename_i h1 h2
        refine (memWf_cons i w _).2 ⟨hw, memWrite_above m a i v hi (by omega), ih ht⟩

/-- A byte below every listed address is unlisted. -/
theorem memRead_of_above (m : List Host.Cell) (a : Nat) (h : memAbove a m) : memRead m a = 0 := by
  cases m with
  | nil => rfl
  | cons e m =>
    obtain ⟨i, w⟩ := e
    have hi : a < i := h (i, w) (by simp)
    simp [memRead, hi, Nat.ne_of_gt hi]

/-- A read after a write gives the byte written. -/
theorem memRead_memWrite_same (m : List Host.Cell) (a : Nat) (v : Byte) (hm : memWf m = true) :
    memRead (memWrite m a v) a = v := by
  induction m with
  | nil =>
    simp only [memWrite]
    split <;> simp_all [memRead]
  | cons e m ih =>
    obtain ⟨i, w⟩ := e
    obtain ⟨-, hi, ht⟩ := (memWf_cons i w m).1 hm
    simp only [memWrite]
    split
    · rename_i h
      split
      · rename_i hv
        subst hv
        simp [memRead, h, Nat.ne_of_gt h]
      · simp [memRead]
    · split
      · rename_i h
        subst h
        split
        · rename_i hv
          subst hv
          exact memRead_of_above m a hi
        · simp [memRead]
      · rename_i h1 h2
        simp [memRead, Ne.symm h2, h1, ih ht]

/-- A write leaves every other byte alone. -/
theorem memRead_memWrite_ne (m : List Host.Cell) (a b : Nat) (v : Byte) (hm : memWf m = true) (h : b ≠ a) :
    memRead (memWrite m a v) b = memRead m b := by
  induction m with
  | nil =>
    simp only [memWrite]
    split
    · rfl
    · simp only [memRead, Ne.symm h, ↓reduceIte]
      split <;> rfl
  | cons e m ih =>
    obtain ⟨i, w⟩ := e
    obtain ⟨-, hi, ht⟩ := (memWf_cons i w m).1 hm
    simp only [memWrite]
    split
    · rename_i ha
      split
      · rfl
      · simp only [memRead, Ne.symm h, ↓reduceIte]
        split
        · rename_i hb
          have : b < i := by omega
          simp [this, Nat.ne_of_gt this]
        · rfl
    · split
      · rename_i ha
        subst ha
        split
        · simp only [memRead, Ne.symm h, ↓reduceIte]
          split
          · rename_i hb
            exact memRead_of_above m b fun e he => lt_trans hb (hi e he)
          · rfl
        · simp only [memRead, Ne.symm h, ↓reduceIte]
      · simp only [memRead]
        split
        · rfl
        · split
          · rfl
          · exact ih ht

/-- A run of bytes keeps the canonical form. -/
theorem memWriteN_wf (m : List Host.Cell) (a : Nat) (bs : Bytes) (hm : memWf m = true) :
    memWf (memWriteN m a bs) = true := by
  induction bs generalizing m a with
  | nil => exact hm
  | cons b bs ih => exact ih _ _ (memWrite_wf m a b hm)

/-- A run of bytes leaves every byte outside it alone. -/
theorem memRead_memWriteN_out (m : List Host.Cell) (a b : Nat) (bs : Bytes) (hm : memWf m = true)
    (h : b < a ∨ a + bs.length ≤ b) : memRead (memWriteN m a bs) b = memRead m b := by
  induction bs generalizing m a with
  | nil => rfl
  | cons v bs ih =>
    simp only [List.length_cons] at h
    simp only [memWriteN]
    rw [ih (memWrite m a v) (a + 1) (memWrite_wf m a v hm) (by omega)]
    exact memRead_memWrite_ne m a b v hm (by omega)

/-- A run of bytes is read back where it was written. -/
theorem memRead_memWriteN_in (m : List Host.Cell) (a i : Nat) (bs : Bytes) (hm : memWf m = true) (h : i < bs.length) :
    memRead (memWriteN m a bs) (a + i) = bs.getD i 0 := by
  induction bs generalizing m a i with
  | nil => simp at h
  | cons v bs ih =>
    cases i with
    | zero =>
      simp only [memWriteN, Nat.add_zero]
      rw [memRead_memWriteN_out _ _ _ _ (memWrite_wf m a v hm) (by omega)]
      simpa using memRead_memWrite_same m a v hm
    | succ i =>
      simp only [List.length_cons, Nat.add_lt_add_iff_right] at h
      have := ih (memWrite m a v) (a + 1) i (memWrite_wf m a v hm) h
      simp only [memWriteN]
      rw [show a + (i + 1) = a + 1 + i by omega, this]
      simp

/-- Host memory stays canonical under the writes that a doorbell makes visible. -/
theorem writeRuns_wf (m : List Host.Cell) (rs : List (Nat × Bytes)) (hm : memWf m = true) :
    memWf (writeRuns m rs) = true := by
  induction rs generalizing m with
  | nil => exact hm
  | cons r rs ih =>
    obtain ⟨a, bs⟩ := r
    exact ih _ (memWriteN_wf m a bs hm)

/-- A write of the device keeps host memory canonical. -/
theorem hostWrite_wf (s : State) (a : Nat) (bs : Bytes) (hm : memWf s.hostMem = true) :
    memWf (s.hostWrite a bs).hostMem = true := by
  have h := memWriteN_wf s.hostMem a bs hm
  simp only [State.hostWrite]
  split <;> exact h

end Sys2Proof.Machine
end

