-- ==== Sys2Proof/Laws/Pelorus.lean ====
section
/-! SUPPORT. The elements of a vector register: what a register built of elements reads as, element by element, and what a
legal instruction on a core that executes does. -/

namespace Sys2Proof.Machine

theorem elems_length (n : Nat) (v : BitVec 128) : (elems n v).length = 128 / n := by simp [elems]

theorem elems_get (n : Nat) (v : BitVec 128) (i : Nat) (h : i < (elems n v).length) :
    (elems n v)[i] = (v.extractLsb' (n * i) n).toNat := by
  simp [elems, BitVec.extractLsb'_toNat, Nat.shiftRight_eq_div_pow]

theorem foldr_elem (n : Nat) (l : List Nat) (i : Nat) (h : i < l.length) :
    l.foldr (fun x acc => x % 2 ^ n + 2 ^ n * acc) 0 / 2 ^ (n * i) % 2 ^ n = l[i] % 2 ^ n := by
  induction l generalizing i with
  | nil => simp at h
  | cons a l ih =>
    cases i with
    | zero => simp [Nat.add_mul_mod_self_left]
    | succ i =>
      have h' : i < l.length := by simpa using h
      have e : 2 ^ (n * (i + 1)) = 2 ^ n * 2 ^ (n * i) := by rw [← pow_add]; congr 1; ring
      simp only [List.foldr_cons, List.getElem_cons_succ]
      rw [e, ← Nat.div_div_eq_div_mul, Nat.add_mul_div_left _ _ (by positivity),
        Nat.div_eq_of_lt (Nat.mod_lt _ (by positivity)), Nat.zero_add, ih i h']

/-- Element `i` of a register built of elements. -/
theorem ofElems_lane (n : Nat) (l : List Nat) (i : Nat) (h : i < l.length) (hn : n * (i + 1) ≤ 128) :
    ((ofElems n l).extractLsb' (n * i) n).toNat = l[i] % 2 ^ n := by
  rw [← foldr_elem n l i h]
  simp only [ofElems, BitVec.extractLsb'_toNat, BitVec.toNat_ofNat, Nat.shiftRight_eq_div_pow]
  generalize l.foldr (fun x acc => x % 2 ^ n + 2 ^ n * acc) 0 = X
  have e : 2 ^ 128 = 2 ^ (n * i) * 2 ^ (128 - n * i) := by
    rw [← pow_add]; congr 1; have : n * i ≤ 128 := by nlinarith
    omega
  rw [e, Nat.mod_mul_right_div_self, Nat.mod_mod_of_dvd _ (pow_dvd_pow 2 (by rw [Nat.mul_add] at hn; omega))]

/-- The widths of the integer instructions. -/
theorem elemBits_cases (w : BitVec 2) : elemBits w = 8 ∨ elemBits w = 16 ∨ elemBits w = 32 ∨ elemBits w = 64 := by
  have : w = 0 ∨ w = 1 ∨ w = 2 ∨ w = 3 := by revert w; decide
  rcases this with rfl | rfl | rfl | rfl <;> simp [elemBits]

/-- A legal instruction on a core that executes changes that core alone. -/
theorem pelorus_next (c : Nat) (legal : Core → Bool) (f : Core → Core) (s : State) (h : c < 8)
    (hs : (s.core c).stopped = false) (hx : (s.core c).xs ≠ 0) (hl : legal (s.core c) = true) :
    pelorus c legal f s = .next (s.modCore c f) := by
  have hn : ¬ ((s.core c).xs = 0 ∨ ¬ legal (s.core c) = true) := by
    rintro (h0 | h0)
    · exact hx h0
    · exact h0 hl
  unfold pelorus
  rw [hs, if_neg (by simp), if_neg hn]
  exact within_eq (by simpa using h) rfl

/-- An instruction that is not legal, or on a core whose XS is Off, raises illegal-instruction. -/
theorem pelorus_illegal (c : Nat) (legal : Core → Bool) (f : Core → Core) (s : State) (h : c < 8)
    (hs : (s.core c).stopped = false) (hx : (s.core c).xs = 0 ∨ legal (s.core c) = false) :
    pelorus c legal f s = .next { s.raise c 2 (s.pcOf c) with pending := s.pending } := by
  have : (s.core c).xs = 0 ∨ ¬ legal (s.core c) = true := by simpa using hx
  simp only [pelorus, within, done, h, decide_true, ↓reduceIte, hs, Bool.false_eq_true, this]

theorem lane_fits {n i : Nat} (hi : i < 128 / n) : n * (i + 1) ≤ 128 :=
  le_trans (Nat.mul_le_mul_left n hi) (Nat.mul_div_le 128 n)

/-- Element `i` of the register of an element-wise operation on two registers. -/
theorem zip_lane (n : Nat) (f : Nat → Nat → Nat) (x y : BitVec 128) (i : Nat) (hi : i < 128 / n) :
    ((ofElems n (List.zipWith f (elems n x) (elems n y))).extractLsb' (n * i) n).toNat =
      f (x.extractLsb' (n * i) n).toNat (y.extractLsb' (n * i) n).toNat % 2 ^ n := by
  rw [ofElems_lane n _ i (by simp [elems_length, hi]) (lane_fits hi)]
  simp [elems_get]

/-- Element `i` of the register of an element-wise operation on one register. -/
theorem map_lane (n : Nat) (f : Nat → Nat) (x : BitVec 128) (i : Nat) (hi : i < 128 / n) :
    ((ofElems n ((elems n x).map f)).extractLsb' (n * i) n).toNat = f (x.extractLsb' (n * i) n).toNat % 2 ^ n := by
  rw [ofElems_lane n _ i (by simp [elems_length, hi]) (lane_fits hi)]
  simp [elems_get]

end Sys2Proof.Machine
end

