-- ==== Sys2Proof/Laws/Private.lean ====
section
/-! SUPPORT. What the updates of private memory, of the fault sources, of the tiles' save slots and of a link's line leave alone,
one lemma for each field they do not write, and what they leave in theirs. -/

namespace Sys2Proof.Machine

/-! ### Private memory -/

@[simp] theorem State.sealObject_variant (s : State) (r i : Nat) (m : Bytes) : (s.sealObject r i m).variant = s.variant := rfl
@[simp] theorem State.sealObject_grade (s : State) (r i : Nat) (m : Bytes) : (s.sealObject r i m).grade = s.grade := rfl
@[simp] theorem State.sealObject_lc (s : State) (r i : Nat) (m : Bytes) : (s.sealObject r i m).lc = s.lc := rfl
@[simp] theorem State.sealObject_time (s : State) (r i : Nat) (m : Bytes) : (s.sealObject r i m).time = s.time := rfl
@[simp] theorem State.sealObject_pins (s : State) (r i : Nat) (m : Bytes) : (s.sealObject r i m).pins = s.pins := rfl
@[simp] theorem State.sealObject_boot (s : State) (r i : Nat) (m : Bytes) : (s.sealObject r i m).boot = s.boot := rfl
@[simp] theorem State.sealObject_flash (s : State) (r i : Nat) (m : Bytes) : (s.sealObject r i m).flash = s.flash := rfl
@[simp] theorem State.sealObject_progress (s : State) (r i : Nat) (m : Bytes) : (s.sealObject r i m).progress = s.progress := rfl
@[simp] theorem State.sealObject_regs (s : State) (r i : Nat) (m : Bytes) : (s.sealObject r i m).regs = s.regs := rfl
@[simp] theorem State.sealObject_chart (s : State) (r i : Nat) (m : Bytes) : (s.sealObject r i m).chart = s.chart := rfl
@[simp] theorem State.sealObject_tiles (s : State) (r i : Nat) (m : Bytes) : (s.sealObject r i m).tiles = s.tiles := rfl
@[simp] theorem State.sealObject_queues (s : State) (r i : Nat) (m : Bytes) : (s.sealObject r i m).queues = s.queues := rfl
@[simp] theorem State.sealObject_jobs (s : State) (r i : Nat) (m : Bytes) : (s.sealObject r i m).jobs = s.jobs := rfl
@[simp] theorem State.sealObject_nextSeq (s : State) (r i : Nat) (m : Bytes) : (s.sealObject r i m).nextSeq = s.nextSeq := rfl
@[simp] theorem State.sealObject_acceptSeq (s : State) (r i : Nat) (m : Bytes) : (s.sealObject r i m).acceptSeq = s.acceptSeq := rfl
@[simp] theorem State.sealObject_lastServed (s : State) (r i : Nat) (m : Bytes) : (s.sealObject r i m).lastServed = s.lastServed := rfl
@[simp] theorem State.sealObject_lastFn (s : State) (r i : Nat) (m : Bytes) : (s.sealObject r i m).lastFn = s.lastFn := rfl
@[simp] theorem State.sealObject_overflowMib (s : State) (r i : Nat) (m : Bytes) : (s.sealObject r i m).overflowMib = s.overflowMib := rfl
@[simp] theorem State.sealObject_fns (s : State) (r i : Nat) (m : Bytes) : (s.sealObject r i m).fns = s.fns := rfl
@[simp] theorem State.sealObject_keys (s : State) (r i : Nat) (m : Bytes) : (s.sealObject r i m).keys = s.keys := rfl
@[simp] theorem State.sealObject_log (s : State) (r i : Nat) (m : Bytes) : (s.sealObject r i m).log = s.log := rfl
@[simp] theorem State.sealObject_auth (s : State) (r i : Nat) (m : Bytes) : (s.sealObject r i m).auth = s.auth := rfl
@[simp] theorem State.sealObject_partners (s : State) (r i : Nat) (m : Bytes) : (s.sealObject r i m).partners = s.partners := rfl
@[simp] theorem State.sealObject_service (s : State) (r i : Nat) (m : Bytes) : (s.sealObject r i m).service = s.service := rfl
@[simp] theorem State.sealObject_cluster (s : State) (r i : Nat) (m : Bytes) : (s.sealObject r i m).cluster = s.cluster := rfl
@[simp] theorem State.sealObject_faults (s : State) (r i : Nat) (m : Bytes) : (s.sealObject r i m).faults = s.faults := rfl
@[simp] theorem State.sealObject_host (s : State) (r i : Nat) (m : Bytes) : (s.sealObject r i m).host = s.host := rfl
@[simp] theorem State.sealObject_hostMem (s : State) (r i : Nat) (m : Bytes) : (s.sealObject r i m).hostMem = s.hostMem := rfl
@[simp] theorem State.sealObject_draws (s : State) (r i : Nat) (m : Bytes) : (s.sealObject r i m).draws = s.draws := rfl
@[simp] theorem State.sealObject_outbox (s : State) (r i : Nat) (m : Bytes) : (s.sealObject r i m).outbox = s.outbox := rfl
@[simp] theorem State.sealObject_pending (s : State) (r i : Nat) (m : Bytes) : (s.sealObject r i m).pending = s.pending := rfl

@[simp] theorem State.bulkObject_variant (s : State) (r i : Nat) (m : Bytes) : (s.bulkObject r i m).variant = s.variant := rfl
@[simp] theorem State.bulkObject_grade (s : State) (r i : Nat) (m : Bytes) : (s.bulkObject r i m).grade = s.grade := rfl
@[simp] theorem State.bulkObject_lc (s : State) (r i : Nat) (m : Bytes) : (s.bulkObject r i m).lc = s.lc := rfl
@[simp] theorem State.bulkObject_time (s : State) (r i : Nat) (m : Bytes) : (s.bulkObject r i m).time = s.time := rfl
@[simp] theorem State.bulkObject_pins (s : State) (r i : Nat) (m : Bytes) : (s.bulkObject r i m).pins = s.pins := rfl
@[simp] theorem State.bulkObject_boot (s : State) (r i : Nat) (m : Bytes) : (s.bulkObject r i m).boot = s.boot := rfl
@[simp] theorem State.bulkObject_flash (s : State) (r i : Nat) (m : Bytes) : (s.bulkObject r i m).flash = s.flash := rfl
@[simp] theorem State.bulkObject_progress (s : State) (r i : Nat) (m : Bytes) : (s.bulkObject r i m).progress = s.progress := rfl
@[simp] theorem State.bulkObject_regs (s : State) (r i : Nat) (m : Bytes) : (s.bulkObject r i m).regs = s.regs := rfl
@[simp] theorem State.bulkObject_chart (s : State) (r i : Nat) (m : Bytes) : (s.bulkObject r i m).chart = s.chart := rfl
@[simp] theorem State.bulkObject_tiles (s : State) (r i : Nat) (m : Bytes) : (s.bulkObject r i m).tiles = s.tiles := rfl
@[simp] theorem State.bulkObject_queues (s : State) (r i : Nat) (m : Bytes) : (s.bulkObject r i m).queues = s.queues := rfl
@[simp] theorem State.bulkObject_jobs (s : State) (r i : Nat) (m : Bytes) : (s.bulkObject r i m).jobs = s.jobs := rfl
@[simp] theorem State.bulkObject_nextSeq (s : State) (r i : Nat) (m : Bytes) : (s.bulkObject r i m).nextSeq = s.nextSeq := rfl
@[simp] theorem State.bulkObject_acceptSeq (s : State) (r i : Nat) (m : Bytes) : (s.bulkObject r i m).acceptSeq = s.acceptSeq := rfl
@[simp] theorem State.bulkObject_lastServed (s : State) (r i : Nat) (m : Bytes) : (s.bulkObject r i m).lastServed = s.lastServed := rfl
@[simp] theorem State.bulkObject_lastFn (s : State) (r i : Nat) (m : Bytes) : (s.bulkObject r i m).lastFn = s.lastFn := rfl
@[simp] theorem State.bulkObject_overflowMib (s : State) (r i : Nat) (m : Bytes) : (s.bulkObject r i m).overflowMib = s.overflowMib := rfl
@[simp] theorem State.bulkObject_fns (s : State) (r i : Nat) (m : Bytes) : (s.bulkObject r i m).fns = s.fns := rfl
@[simp] theorem State.bulkObject_keys (s : State) (r i : Nat) (m : Bytes) : (s.bulkObject r i m).keys = s.keys := rfl
@[simp] theorem State.bulkObject_log (s : State) (r i : Nat) (m : Bytes) : (s.bulkObject r i m).log = s.log := rfl
@[simp] theorem State.bulkObject_auth (s : State) (r i : Nat) (m : Bytes) : (s.bulkObject r i m).auth = s.auth := rfl
@[simp] theorem State.bulkObject_partners (s : State) (r i : Nat) (m : Bytes) : (s.bulkObject r i m).partners = s.partners := rfl
@[simp] theorem State.bulkObject_service (s : State) (r i : Nat) (m : Bytes) : (s.bulkObject r i m).service = s.service := rfl
@[simp] theorem State.bulkObject_cluster (s : State) (r i : Nat) (m : Bytes) : (s.bulkObject r i m).cluster = s.cluster := rfl
@[simp] theorem State.bulkObject_faults (s : State) (r i : Nat) (m : Bytes) : (s.bulkObject r i m).faults = s.faults := rfl
@[simp] theorem State.bulkObject_host (s : State) (r i : Nat) (m : Bytes) : (s.bulkObject r i m).host = s.host := rfl
@[simp] theorem State.bulkObject_hostMem (s : State) (r i : Nat) (m : Bytes) : (s.bulkObject r i m).hostMem = s.hostMem := rfl
@[simp] theorem State.bulkObject_draws (s : State) (r i : Nat) (m : Bytes) : (s.bulkObject r i m).draws = s.draws := rfl
@[simp] theorem State.bulkObject_outbox (s : State) (r i : Nat) (m : Bytes) : (s.bulkObject r i m).outbox = s.outbox := rfl
@[simp] theorem State.bulkObject_pending (s : State) (r i : Nat) (m : Bytes) : (s.bulkObject r i m).pending = s.pending := rfl

@[simp] theorem State.sealKey_variant (s : State) (i : Nat) (K : Key) : (s.sealKey i K).variant = s.variant := rfl
@[simp] theorem State.sealKey_grade (s : State) (i : Nat) (K : Key) : (s.sealKey i K).grade = s.grade := rfl
@[simp] theorem State.sealKey_lc (s : State) (i : Nat) (K : Key) : (s.sealKey i K).lc = s.lc := rfl
@[simp] theorem State.sealKey_time (s : State) (i : Nat) (K : Key) : (s.sealKey i K).time = s.time := rfl
@[simp] theorem State.sealKey_pins (s : State) (i : Nat) (K : Key) : (s.sealKey i K).pins = s.pins := rfl
@[simp] theorem State.sealKey_boot (s : State) (i : Nat) (K : Key) : (s.sealKey i K).boot = s.boot := rfl
@[simp] theorem State.sealKey_flash (s : State) (i : Nat) (K : Key) : (s.sealKey i K).flash = s.flash := rfl
@[simp] theorem State.sealKey_progress (s : State) (i : Nat) (K : Key) : (s.sealKey i K).progress = s.progress := rfl
@[simp] theorem State.sealKey_regs (s : State) (i : Nat) (K : Key) : (s.sealKey i K).regs = s.regs := rfl
@[simp] theorem State.sealKey_chart (s : State) (i : Nat) (K : Key) : (s.sealKey i K).chart = s.chart := rfl
@[simp] theorem State.sealKey_tiles (s : State) (i : Nat) (K : Key) : (s.sealKey i K).tiles = s.tiles := rfl
@[simp] theorem State.sealKey_queues (s : State) (i : Nat) (K : Key) : (s.sealKey i K).queues = s.queues := rfl
@[simp] theorem State.sealKey_jobs (s : State) (i : Nat) (K : Key) : (s.sealKey i K).jobs = s.jobs := rfl
@[simp] theorem State.sealKey_nextSeq (s : State) (i : Nat) (K : Key) : (s.sealKey i K).nextSeq = s.nextSeq := rfl
@[simp] theorem State.sealKey_acceptSeq (s : State) (i : Nat) (K : Key) : (s.sealKey i K).acceptSeq = s.acceptSeq := rfl
@[simp] theorem State.sealKey_lastServed (s : State) (i : Nat) (K : Key) : (s.sealKey i K).lastServed = s.lastServed := rfl
@[simp] theorem State.sealKey_lastFn (s : State) (i : Nat) (K : Key) : (s.sealKey i K).lastFn = s.lastFn := rfl
@[simp] theorem State.sealKey_overflowMib (s : State) (i : Nat) (K : Key) : (s.sealKey i K).overflowMib = s.overflowMib := rfl
@[simp] theorem State.sealKey_fns (s : State) (i : Nat) (K : Key) : (s.sealKey i K).fns = s.fns := rfl
@[simp] theorem State.sealKey_keys (s : State) (i : Nat) (K : Key) : (s.sealKey i K).keys = s.keys := rfl
@[simp] theorem State.sealKey_log (s : State) (i : Nat) (K : Key) : (s.sealKey i K).log = s.log := rfl
@[simp] theorem State.sealKey_auth (s : State) (i : Nat) (K : Key) : (s.sealKey i K).auth = s.auth := rfl
@[simp] theorem State.sealKey_partners (s : State) (i : Nat) (K : Key) : (s.sealKey i K).partners = s.partners := rfl
@[simp] theorem State.sealKey_service (s : State) (i : Nat) (K : Key) : (s.sealKey i K).service = s.service := rfl
@[simp] theorem State.sealKey_cluster (s : State) (i : Nat) (K : Key) : (s.sealKey i K).cluster = s.cluster := rfl
@[simp] theorem State.sealKey_faults (s : State) (i : Nat) (K : Key) : (s.sealKey i K).faults = s.faults := rfl
@[simp] theorem State.sealKey_host (s : State) (i : Nat) (K : Key) : (s.sealKey i K).host = s.host := rfl
@[simp] theorem State.sealKey_hostMem (s : State) (i : Nat) (K : Key) : (s.sealKey i K).hostMem = s.hostMem := rfl
@[simp] theorem State.sealKey_draws (s : State) (i : Nat) (K : Key) : (s.sealKey i K).draws = s.draws := rfl
@[simp] theorem State.sealKey_outbox (s : State) (i : Nat) (K : Key) : (s.sealKey i K).outbox = s.outbox := rfl
@[simp] theorem State.sealKey_pending (s : State) (i : Nat) (K : Key) : (s.sealKey i K).pending = s.pending := rfl

@[simp] theorem State.unsealKey_variant (s : State) (i : Nat) (K : Key) : (s.unsealKey i K).variant = s.variant := rfl
@[simp] theorem State.unsealKey_grade (s : State) (i : Nat) (K : Key) : (s.unsealKey i K).grade = s.grade := rfl
@[simp] theorem State.unsealKey_lc (s : State) (i : Nat) (K : Key) : (s.unsealKey i K).lc = s.lc := rfl
@[simp] theorem State.unsealKey_time (s : State) (i : Nat) (K : Key) : (s.unsealKey i K).time = s.time := rfl
@[simp] theorem State.unsealKey_pins (s : State) (i : Nat) (K : Key) : (s.unsealKey i K).pins = s.pins := rfl
@[simp] theorem State.unsealKey_boot (s : State) (i : Nat) (K : Key) : (s.unsealKey i K).boot = s.boot := rfl
@[simp] theorem State.unsealKey_flash (s : State) (i : Nat) (K : Key) : (s.unsealKey i K).flash = s.flash := rfl
@[simp] theorem State.unsealKey_progress (s : State) (i : Nat) (K : Key) : (s.unsealKey i K).progress = s.progress := rfl
@[simp] theorem State.unsealKey_regs (s : State) (i : Nat) (K : Key) : (s.unsealKey i K).regs = s.regs := rfl
@[simp] theorem State.unsealKey_chart (s : State) (i : Nat) (K : Key) : (s.unsealKey i K).chart = s.chart := rfl
@[simp] theorem State.unsealKey_tiles (s : State) (i : Nat) (K : Key) : (s.unsealKey i K).tiles = s.tiles := rfl
@[simp] theorem State.unsealKey_queues (s : State) (i : Nat) (K : Key) : (s.unsealKey i K).queues = s.queues := rfl
@[simp] theorem State.unsealKey_jobs (s : State) (i : Nat) (K : Key) : (s.unsealKey i K).jobs = s.jobs := rfl
@[simp] theorem State.unsealKey_nextSeq (s : State) (i : Nat) (K : Key) : (s.unsealKey i K).nextSeq = s.nextSeq := rfl
@[simp] theorem State.unsealKey_acceptSeq (s : State) (i : Nat) (K : Key) : (s.unsealKey i K).acceptSeq = s.acceptSeq := rfl
@[simp] theorem State.unsealKey_lastServed (s : State) (i : Nat) (K : Key) : (s.unsealKey i K).lastServed = s.lastServed := rfl
@[simp] theorem State.unsealKey_lastFn (s : State) (i : Nat) (K : Key) : (s.unsealKey i K).lastFn = s.lastFn := rfl
@[simp] theorem State.unsealKey_overflowMib (s : State) (i : Nat) (K : Key) : (s.unsealKey i K).overflowMib = s.overflowMib := rfl
@[simp] theorem State.unsealKey_fns (s : State) (i : Nat) (K : Key) : (s.unsealKey i K).fns = s.fns := rfl
@[simp] theorem State.unsealKey_keys (s : State) (i : Nat) (K : Key) : (s.unsealKey i K).keys = s.keys := rfl
@[simp] theorem State.unsealKey_log (s : State) (i : Nat) (K : Key) : (s.unsealKey i K).log = s.log := rfl
@[simp] theorem State.unsealKey_auth (s : State) (i : Nat) (K : Key) : (s.unsealKey i K).auth = s.auth := rfl
@[simp] theorem State.unsealKey_partners (s : State) (i : Nat) (K : Key) : (s.unsealKey i K).partners = s.partners := rfl
@[simp] theorem State.unsealKey_service (s : State) (i : Nat) (K : Key) : (s.unsealKey i K).service = s.service := rfl
@[simp] theorem State.unsealKey_cluster (s : State) (i : Nat) (K : Key) : (s.unsealKey i K).cluster = s.cluster := rfl
@[simp] theorem State.unsealKey_faults (s : State) (i : Nat) (K : Key) : (s.unsealKey i K).faults = s.faults := rfl
@[simp] theorem State.unsealKey_host (s : State) (i : Nat) (K : Key) : (s.unsealKey i K).host = s.host := rfl
@[simp] theorem State.unsealKey_hostMem (s : State) (i : Nat) (K : Key) : (s.unsealKey i K).hostMem = s.hostMem := rfl
@[simp] theorem State.unsealKey_draws (s : State) (i : Nat) (K : Key) : (s.unsealKey i K).draws = s.draws := rfl
@[simp] theorem State.unsealKey_outbox (s : State) (i : Nat) (K : Key) : (s.unsealKey i K).outbox = s.outbox := rfl
@[simp] theorem State.unsealKey_pending (s : State) (i : Nat) (K : Key) : (s.unsealKey i K).pending = s.pending := rfl

@[simp] theorem State.sealShadow_variant (s : State) (i : Nat) : (s.sealShadow i).variant = s.variant := rfl
@[simp] theorem State.sealShadow_grade (s : State) (i : Nat) : (s.sealShadow i).grade = s.grade := rfl
@[simp] theorem State.sealShadow_lc (s : State) (i : Nat) : (s.sealShadow i).lc = s.lc := rfl
@[simp] theorem State.sealShadow_time (s : State) (i : Nat) : (s.sealShadow i).time = s.time := rfl
@[simp] theorem State.sealShadow_pins (s : State) (i : Nat) : (s.sealShadow i).pins = s.pins := rfl
@[simp] theorem State.sealShadow_boot (s : State) (i : Nat) : (s.sealShadow i).boot = s.boot := rfl
@[simp] theorem State.sealShadow_flash (s : State) (i : Nat) : (s.sealShadow i).flash = s.flash := rfl
@[simp] theorem State.sealShadow_progress (s : State) (i : Nat) : (s.sealShadow i).progress = s.progress := rfl
@[simp] theorem State.sealShadow_regs (s : State) (i : Nat) : (s.sealShadow i).regs = s.regs := rfl
@[simp] theorem State.sealShadow_chart (s : State) (i : Nat) : (s.sealShadow i).chart = s.chart := rfl
@[simp] theorem State.sealShadow_tiles (s : State) (i : Nat) : (s.sealShadow i).tiles = s.tiles := rfl
@[simp] theorem State.sealShadow_queues (s : State) (i : Nat) : (s.sealShadow i).queues = s.queues := rfl
@[simp] theorem State.sealShadow_jobs (s : State) (i : Nat) : (s.sealShadow i).jobs = s.jobs := rfl
@[simp] theorem State.sealShadow_nextSeq (s : State) (i : Nat) : (s.sealShadow i).nextSeq = s.nextSeq := rfl
@[simp] theorem State.sealShadow_acceptSeq (s : State) (i : Nat) : (s.sealShadow i).acceptSeq = s.acceptSeq := rfl
@[simp] theorem State.sealShadow_lastServed (s : State) (i : Nat) : (s.sealShadow i).lastServed = s.lastServed := rfl
@[simp] theorem State.sealShadow_lastFn (s : State) (i : Nat) : (s.sealShadow i).lastFn = s.lastFn := rfl
@[simp] theorem State.sealShadow_overflowMib (s : State) (i : Nat) : (s.sealShadow i).overflowMib = s.overflowMib := rfl
@[simp] theorem State.sealShadow_fns (s : State) (i : Nat) : (s.sealShadow i).fns = s.fns := rfl
@[simp] theorem State.sealShadow_keys (s : State) (i : Nat) : (s.sealShadow i).keys = s.keys := rfl
@[simp] theorem State.sealShadow_log (s : State) (i : Nat) : (s.sealShadow i).log = s.log := rfl
@[simp] theorem State.sealShadow_auth (s : State) (i : Nat) : (s.sealShadow i).auth = s.auth := rfl
@[simp] theorem State.sealShadow_partners (s : State) (i : Nat) : (s.sealShadow i).partners = s.partners := rfl
@[simp] theorem State.sealShadow_service (s : State) (i : Nat) : (s.sealShadow i).service = s.service := rfl
@[simp] theorem State.sealShadow_cluster (s : State) (i : Nat) : (s.sealShadow i).cluster = s.cluster := rfl
@[simp] theorem State.sealShadow_faults (s : State) (i : Nat) : (s.sealShadow i).faults = s.faults := rfl
@[simp] theorem State.sealShadow_host (s : State) (i : Nat) : (s.sealShadow i).host = s.host := rfl
@[simp] theorem State.sealShadow_hostMem (s : State) (i : Nat) : (s.sealShadow i).hostMem = s.hostMem := rfl
@[simp] theorem State.sealShadow_draws (s : State) (i : Nat) : (s.sealShadow i).draws = s.draws := rfl
@[simp] theorem State.sealShadow_outbox (s : State) (i : Nat) : (s.sealShadow i).outbox = s.outbox := rfl
@[simp] theorem State.sealShadow_pending (s : State) (i : Nat) : (s.sealShadow i).pending = s.pending := rfl

@[simp] theorem State.resealKeys_variant (s : State) : (s.resealKeys).variant = s.variant := rfl
@[simp] theorem State.resealKeys_grade (s : State) : (s.resealKeys).grade = s.grade := rfl
@[simp] theorem State.resealKeys_lc (s : State) : (s.resealKeys).lc = s.lc := rfl
@[simp] theorem State.resealKeys_time (s : State) : (s.resealKeys).time = s.time := rfl
@[simp] theorem State.resealKeys_pins (s : State) : (s.resealKeys).pins = s.pins := rfl
@[simp] theorem State.resealKeys_boot (s : State) : (s.resealKeys).boot = s.boot := rfl
@[simp] theorem State.resealKeys_flash (s : State) : (s.resealKeys).flash = s.flash := rfl
@[simp] theorem State.resealKeys_progress (s : State) : (s.resealKeys).progress = s.progress := rfl
@[simp] theorem State.resealKeys_regs (s : State) : (s.resealKeys).regs = s.regs := rfl
@[simp] theorem State.resealKeys_chart (s : State) : (s.resealKeys).chart = s.chart := rfl
@[simp] theorem State.resealKeys_tiles (s : State) : (s.resealKeys).tiles = s.tiles := rfl
@[simp] theorem State.resealKeys_queues (s : State) : (s.resealKeys).queues = s.queues := rfl
@[simp] theorem State.resealKeys_jobs (s : State) : (s.resealKeys).jobs = s.jobs := rfl
@[simp] theorem State.resealKeys_nextSeq (s : State) : (s.resealKeys).nextSeq = s.nextSeq := rfl
@[simp] theorem State.resealKeys_acceptSeq (s : State) : (s.resealKeys).acceptSeq = s.acceptSeq := rfl
@[simp] theorem State.resealKeys_lastServed (s : State) : (s.resealKeys).lastServed = s.lastServed := rfl
@[simp] theorem State.resealKeys_lastFn (s : State) : (s.resealKeys).lastFn = s.lastFn := rfl
@[simp] theorem State.resealKeys_overflowMib (s : State) : (s.resealKeys).overflowMib = s.overflowMib := rfl
@[simp] theorem State.resealKeys_fns (s : State) : (s.resealKeys).fns = s.fns := rfl
@[simp] theorem State.resealKeys_keys (s : State) : (s.resealKeys).keys = s.keys := rfl
@[simp] theorem State.resealKeys_log (s : State) : (s.resealKeys).log = s.log := rfl
@[simp] theorem State.resealKeys_auth (s : State) : (s.resealKeys).auth = s.auth := rfl
@[simp] theorem State.resealKeys_partners (s : State) : (s.resealKeys).partners = s.partners := rfl
@[simp] theorem State.resealKeys_service (s : State) : (s.resealKeys).service = s.service := rfl
@[simp] theorem State.resealKeys_cluster (s : State) : (s.resealKeys).cluster = s.cluster := rfl
@[simp] theorem State.resealKeys_faults (s : State) : (s.resealKeys).faults = s.faults := rfl
@[simp] theorem State.resealKeys_host (s : State) : (s.resealKeys).host = s.host := rfl
@[simp] theorem State.resealKeys_hostMem (s : State) : (s.resealKeys).hostMem = s.hostMem := rfl
@[simp] theorem State.resealKeys_draws (s : State) : (s.resealKeys).draws = s.draws := rfl
@[simp] theorem State.resealKeys_outbox (s : State) : (s.resealKeys).outbox = s.outbox := rfl
@[simp] theorem State.resealKeys_pending (s : State) : (s.resealKeys).pending = s.pending := rfl

@[simp] theorem State.copyKeys_variant (s : State) : (s.copyKeys).variant = s.variant := rfl
@[simp] theorem State.copyKeys_grade (s : State) : (s.copyKeys).grade = s.grade := rfl
@[simp] theorem State.copyKeys_lc (s : State) : (s.copyKeys).lc = s.lc := rfl
@[simp] theorem State.copyKeys_time (s : State) : (s.copyKeys).time = s.time := rfl
@[simp] theorem State.copyKeys_pins (s : State) : (s.copyKeys).pins = s.pins := rfl
@[simp] theorem State.copyKeys_boot (s : State) : (s.copyKeys).boot = s.boot := rfl
@[simp] theorem State.copyKeys_flash (s : State) : (s.copyKeys).flash = s.flash := rfl
@[simp] theorem State.copyKeys_progress (s : State) : (s.copyKeys).progress = s.progress := rfl
@[simp] theorem State.copyKeys_regs (s : State) : (s.copyKeys).regs = s.regs := rfl
@[simp] theorem State.copyKeys_chart (s : State) : (s.copyKeys).chart = s.chart := rfl
@[simp] theorem State.copyKeys_tiles (s : State) : (s.copyKeys).tiles = s.tiles := rfl
@[simp] theorem State.copyKeys_queues (s : State) : (s.copyKeys).queues = s.queues := rfl
@[simp] theorem State.copyKeys_jobs (s : State) : (s.copyKeys).jobs = s.jobs := rfl
@[simp] theorem State.copyKeys_nextSeq (s : State) : (s.copyKeys).nextSeq = s.nextSeq := rfl
@[simp] theorem State.copyKeys_acceptSeq (s : State) : (s.copyKeys).acceptSeq = s.acceptSeq := rfl
@[simp] theorem State.copyKeys_lastServed (s : State) : (s.copyKeys).lastServed = s.lastServed := rfl
@[simp] theorem State.copyKeys_lastFn (s : State) : (s.copyKeys).lastFn = s.lastFn := rfl
@[simp] theorem State.copyKeys_overflowMib (s : State) : (s.copyKeys).overflowMib = s.overflowMib := rfl
@[simp] theorem State.copyKeys_fns (s : State) : (s.copyKeys).fns = s.fns := rfl
@[simp] theorem State.copyKeys_keys (s : State) : (s.copyKeys).keys = s.keys := rfl
@[simp] theorem State.copyKeys_log (s : State) : (s.copyKeys).log = s.log := rfl
@[simp] theorem State.copyKeys_auth (s : State) : (s.copyKeys).auth = s.auth := rfl
@[simp] theorem State.copyKeys_partners (s : State) : (s.copyKeys).partners = s.partners := rfl
@[simp] theorem State.copyKeys_service (s : State) : (s.copyKeys).service = s.service := rfl
@[simp] theorem State.copyKeys_cluster (s : State) : (s.copyKeys).cluster = s.cluster := rfl
@[simp] theorem State.copyKeys_faults (s : State) : (s.copyKeys).faults = s.faults := rfl
@[simp] theorem State.copyKeys_host (s : State) : (s.copyKeys).host = s.host := rfl
@[simp] theorem State.copyKeys_hostMem (s : State) : (s.copyKeys).hostMem = s.hostMem := rfl
@[simp] theorem State.copyKeys_draws (s : State) : (s.copyKeys).draws = s.draws := rfl
@[simp] theorem State.copyKeys_outbox (s : State) : (s.copyKeys).outbox = s.outbox := rfl
@[simp] theorem State.copyKeys_pending (s : State) : (s.copyKeys).pending = s.pending := rfl


/-! ### Fault sources and save slots -/

@[simp] theorem State.modSrc_variant (s : State) (n : Nat) (f : Source → Source) : (s.modSrc n f).variant = s.variant := rfl
@[simp] theorem State.modSrc_grade (s : State) (n : Nat) (f : Source → Source) : (s.modSrc n f).grade = s.grade := rfl
@[simp] theorem State.modSrc_lc (s : State) (n : Nat) (f : Source → Source) : (s.modSrc n f).lc = s.lc := rfl
@[simp] theorem State.modSrc_time (s : State) (n : Nat) (f : Source → Source) : (s.modSrc n f).time = s.time := rfl
@[simp] theorem State.modSrc_pins (s : State) (n : Nat) (f : Source → Source) : (s.modSrc n f).pins = s.pins := rfl
@[simp] theorem State.modSrc_boot (s : State) (n : Nat) (f : Source → Source) : (s.modSrc n f).boot = s.boot := rfl
@[simp] theorem State.modSrc_flash (s : State) (n : Nat) (f : Source → Source) : (s.modSrc n f).flash = s.flash := rfl
@[simp] theorem State.modSrc_progress (s : State) (n : Nat) (f : Source → Source) : (s.modSrc n f).progress = s.progress := rfl
@[simp] theorem State.modSrc_regs (s : State) (n : Nat) (f : Source → Source) : (s.modSrc n f).regs = s.regs := rfl
@[simp] theorem State.modSrc_chart (s : State) (n : Nat) (f : Source → Source) : (s.modSrc n f).chart = s.chart := rfl
@[simp] theorem State.modSrc_tiles (s : State) (n : Nat) (f : Source → Source) : (s.modSrc n f).tiles = s.tiles := rfl
@[simp] theorem State.modSrc_queues (s : State) (n : Nat) (f : Source → Source) : (s.modSrc n f).queues = s.queues := rfl
@[simp] theorem State.modSrc_jobs (s : State) (n : Nat) (f : Source → Source) : (s.modSrc n f).jobs = s.jobs := rfl
@[simp] theorem State.modSrc_nextSeq (s : State) (n : Nat) (f : Source → Source) : (s.modSrc n f).nextSeq = s.nextSeq := rfl
@[simp] theorem State.modSrc_acceptSeq (s : State) (n : Nat) (f : Source → Source) : (s.modSrc n f).acceptSeq = s.acceptSeq := rfl
@[simp] theorem State.modSrc_lastServed (s : State) (n : Nat) (f : Source → Source) : (s.modSrc n f).lastServed = s.lastServed := rfl
@[simp] theorem State.modSrc_lastFn (s : State) (n : Nat) (f : Source → Source) : (s.modSrc n f).lastFn = s.lastFn := rfl
@[simp] theorem State.modSrc_overflowMib (s : State) (n : Nat) (f : Source → Source) : (s.modSrc n f).overflowMib = s.overflowMib := rfl
@[simp] theorem State.modSrc_fns (s : State) (n : Nat) (f : Source → Source) : (s.modSrc n f).fns = s.fns := rfl
@[simp] theorem State.modSrc_keys (s : State) (n : Nat) (f : Source → Source) : (s.modSrc n f).keys = s.keys := rfl
@[simp] theorem State.modSrc_log (s : State) (n : Nat) (f : Source → Source) : (s.modSrc n f).log = s.log := rfl
@[simp] theorem State.modSrc_auth (s : State) (n : Nat) (f : Source → Source) : (s.modSrc n f).auth = s.auth := rfl
@[simp] theorem State.modSrc_partners (s : State) (n : Nat) (f : Source → Source) : (s.modSrc n f).partners = s.partners := rfl
@[simp] theorem State.modSrc_service (s : State) (n : Nat) (f : Source → Source) : (s.modSrc n f).service = s.service := rfl
@[simp] theorem State.modSrc_cluster (s : State) (n : Nat) (f : Source → Source) : (s.modSrc n f).cluster = s.cluster := rfl
@[simp] theorem State.modSrc_host (s : State) (n : Nat) (f : Source → Source) : (s.modSrc n f).host = s.host := rfl
@[simp] theorem State.modSrc_pmem (s : State) (n : Nat) (f : Source → Source) : (s.modSrc n f).pmem = s.pmem := rfl
@[simp] theorem State.modSrc_hostMem (s : State) (n : Nat) (f : Source → Source) : (s.modSrc n f).hostMem = s.hostMem := rfl
@[simp] theorem State.modSrc_draws (s : State) (n : Nat) (f : Source → Source) : (s.modSrc n f).draws = s.draws := rfl
@[simp] theorem State.modSrc_outbox (s : State) (n : Nat) (f : Source → Source) : (s.modSrc n f).outbox = s.outbox := rfl
@[simp] theorem State.modSrc_pending (s : State) (n : Nat) (f : Source → Source) : (s.modSrc n f).pending = s.pending := rfl

@[simp] theorem State.freeSlots_variant (s : State) (j : Nat) : (s.freeSlots j).variant = s.variant := rfl
@[simp] theorem State.freeSlots_grade (s : State) (j : Nat) : (s.freeSlots j).grade = s.grade := rfl
@[simp] theorem State.freeSlots_lc (s : State) (j : Nat) : (s.freeSlots j).lc = s.lc := rfl
@[simp] theorem State.freeSlots_time (s : State) (j : Nat) : (s.freeSlots j).time = s.time := rfl
@[simp] theorem State.freeSlots_pins (s : State) (j : Nat) : (s.freeSlots j).pins = s.pins := rfl
@[simp] theorem State.freeSlots_boot (s : State) (j : Nat) : (s.freeSlots j).boot = s.boot := rfl
@[simp] theorem State.freeSlots_flash (s : State) (j : Nat) : (s.freeSlots j).flash = s.flash := rfl
@[simp] theorem State.freeSlots_progress (s : State) (j : Nat) : (s.freeSlots j).progress = s.progress := rfl
@[simp] theorem State.freeSlots_regs (s : State) (j : Nat) : (s.freeSlots j).regs = s.regs := rfl
@[simp] theorem State.freeSlots_chart (s : State) (j : Nat) : (s.freeSlots j).chart = s.chart := rfl
@[simp] theorem State.freeSlots_queues (s : State) (j : Nat) : (s.freeSlots j).queues = s.queues := rfl
@[simp] theorem State.freeSlots_jobs (s : State) (j : Nat) : (s.freeSlots j).jobs = s.jobs := rfl
@[simp] theorem State.freeSlots_nextSeq (s : State) (j : Nat) : (s.freeSlots j).nextSeq = s.nextSeq := rfl
@[simp] theorem State.freeSlots_acceptSeq (s : State) (j : Nat) : (s.freeSlots j).acceptSeq = s.acceptSeq := rfl
@[simp] theorem State.freeSlots_lastServed (s : State) (j : Nat) : (s.freeSlots j).lastServed = s.lastServed := rfl
@[simp] theorem State.freeSlots_lastFn (s : State) (j : Nat) : (s.freeSlots j).lastFn = s.lastFn := rfl
@[simp] theorem State.freeSlots_overflowMib (s : State) (j : Nat) : (s.freeSlots j).overflowMib = s.overflowMib := rfl
@[simp] theorem State.freeSlots_fns (s : State) (j : Nat) : (s.freeSlots j).fns = s.fns := rfl
@[simp] theorem State.freeSlots_keys (s : State) (j : Nat) : (s.freeSlots j).keys = s.keys := rfl
@[simp] theorem State.freeSlots_log (s : State) (j : Nat) : (s.freeSlots j).log = s.log := rfl
@[simp] theorem State.freeSlots_auth (s : State) (j : Nat) : (s.freeSlots j).auth = s.auth := rfl
@[simp] theorem State.freeSlots_partners (s : State) (j : Nat) : (s.freeSlots j).partners = s.partners := rfl
@[simp] theorem State.freeSlots_service (s : State) (j : Nat) : (s.freeSlots j).service = s.service := rfl
@[simp] theorem State.freeSlots_cluster (s : State) (j : Nat) : (s.freeSlots j).cluster = s.cluster := rfl
@[simp] theorem State.freeSlots_faults (s : State) (j : Nat) : (s.freeSlots j).faults = s.faults := rfl
@[simp] theorem State.freeSlots_host (s : State) (j : Nat) : (s.freeSlots j).host = s.host := rfl
@[simp] theorem State.freeSlots_pmem (s : State) (j : Nat) : (s.freeSlots j).pmem = s.pmem := rfl
@[simp] theorem State.freeSlots_hostMem (s : State) (j : Nat) : (s.freeSlots j).hostMem = s.hostMem := rfl
@[simp] theorem State.freeSlots_draws (s : State) (j : Nat) : (s.freeSlots j).draws = s.draws := rfl
@[simp] theorem State.freeSlots_outbox (s : State) (j : Nat) : (s.freeSlots j).outbox = s.outbox := rfl
@[simp] theorem State.freeSlots_pending (s : State) (j : Nat) : (s.freeSlots j).pending = s.pending := rfl

/-- What a change of one source leaves of every source. -/
theorem State.modSrc_src (s : State) (n m : Nat) (f : Source → Source) :
    (s.modSrc n f).src m = if m = n then f (s.src n) else s.src m := by
  simp only [State.modSrc, State.src, tget_tput]
  split <;> simp

@[simp] theorem State.modSrc_src_same (s : State) (n : Nat) (f : Source → Source) :
    (s.modSrc n f).src n = f (s.src n) := by simp [State.modSrc_src]

/-! ### The line of a link -/

/-- What a flit that goes out leaves of its link: it joins the block, or completes it and the block goes onto the lanes. -/
theorem Link.transmit_cases (L : Link) (f : Bytes) :
    (L.block.length < 4 ∧ L.transmit f = { L with out := f :: L.out, block := L.block ++ [f] }) ∨
    (4 ≤ L.block.length ∧ L.transmit f =
      { L with out := f :: L.out, block := [], blocks := L.blocks + 1, lanes := lineBlock L.blocks (L.block ++ [f]) }) := by
  unfold Link.transmit
  simp only [List.length_append, List.length_cons, List.length_nil]
  split
  · exact .inl ⟨by omega, rfl⟩
  · exact .inr ⟨by omega, rfl⟩

@[simp] theorem Link.transmit_out (L : Link) (f : Bytes) : (L.transmit f).out = f :: L.out := by
  rcases L.transmit_cases f with ⟨_, h⟩ | ⟨_, h⟩ <;> rw [h]

/-! ### Time -/

@[simp] theorem TimeState.sync_elapsed (ts : TimeState) : ts.sync.elapsed = ts.elapsed := rfl
@[simp] theorem TimeState.sync_almanac (ts : TimeState) : ts.sync.almanac = ts.almanac := rfl

/-- The elapsed count after a move to `t`. -/
theorem TimeState.to_elapsed (ts : TimeState) (t : Nat) : (ts.to t).elapsed = max ts.elapsed t := by
  simp only [TimeState.to, TimeState.sync_elapsed]
  omega

end Sys2Proof.Machine
end

