-- ==== Sys2Proof/Tests/Slice0.lean ====
section
/-! SUPPORT. Tests and witnesses: ill-formed commands that the check refuses, Pelorus words written out bit by bit, examples of
the spec, and for every statement with hypotheses states in which they hold together. A witness that rests on what a free
primitive answers (a signature that verifies, a ciphertext that opens) takes that answer as its own hypothesis, since no
proof can see it. -/

set_option autoImplicit false

namespace Sys2Proof.Tests

open Sys2Proof Sys2Proof.Machine

/-! ### A command that names a thing which is not there is ill-formed -/

set_option maxRecDepth 20000 in
/-- One term for each check of WellFormed, at the first value outside its range; each is refused. -/
theorem test_illFormed : ([
    .permitEnd 8 0, .fltForce 512 0, .fenceAck 512 0, .faultEvent 511 256 0 none 0, .faultEvent 511 0 65536 none 0,
    .helmCoreRecovery 8 0 0, .tileReconfigComplete 96 true 0 0, .msixModTimer 4096 0, .msixUnmask 256 0, .msixUnmask 0 2048,
    .dbSqTail 0 4096 0 [], .dbRevise 0 0 0 65536, .contextSpillDone (2 ^ 24) true 0, .dispatch (.tile 96) 0, .dispatch (.core 8) 0,
    .watchdog 0 0 8192 0, .machineCheck 0 0 0 none 0, .machineCheck 0 9 0 none 0, .hbsPreparation (2 ^ 24) 0, .vfFlr 0 0, .vfFlr 256 0,
    .keyCacheQuotaWrite 0x102 0, .ptpRx 4 [] 0, .ptpRx 0 (zeros 247) 0, .txGo 0 4 0, .logOwner 15 0, .logOwner 64 0,
    .mboxRecall (.host 256) 0, .mboxRecall (.module 2) 0, .mboxRecall .runtime 518, .crossFull 514 0, .lockAcquire 10 0,
    .lockAcquire 0 256, .omodStop 2 0, .moduleException 0 256 0 0, .vadd 8 0 0 0 0, .vld 8 0 0 0, .linkRetrain 4 0,
    .flitReceived 0 (zeros 255) (some 0) 0, .flitReceived 0 (zeros 256) (some 3) 0, .tetherPathLost 16384 0, .hello .pf (2 ^ 32), .neighbourSolicitation (zeros 15)
  ] : List Instr).all (fun c => !c.wellFormed) = true := by decide

set_option maxRecDepth 20000 in
/-- The last value of a range is well formed. -/
theorem test_wellFormed : ([
    .permitEnd 7 0, .fltForce 511 0, .faultEvent 511 255 65535 none 0, .dispatch (.tile 95) 0, .vfFlr 1 0, .vfFlr 255 0,
    .machineCheck 95 8 8191 none 0, .logOwner 16 0, .logOwner 63 0, .mboxRecall .binnacle 517, .lockAcquire 9 255, .hello .pf (2 ^ 32 - 1)
  ] : List Instr).all (·.wellFormed) = true := by decide

/-! ### Words of the Pelorus extension, written out from 16_service_complex.md R377 and R380: funct7, rs2, rs1, funct3, rd, opcode -/

/-- VADD v5, v6, v7 on i32: 0000010 00111 00110 000 00101 0101011. -/
theorem test_word_vadd : pelorusDecode 0b00000100011100110000001010101011 = some (.form .vadd 5 6 7 2) := by decide
/-- The chapter's own example: VCMUL v3, v1, v2 on complex f32 is 0x2020_91AB. -/
theorem test_word_vcmul : pelorusDecode 0x202091AB = some (.form .vcmul 3 1 2 0) := by decide
/-- VMRED v1, v2: 0010010 00000 00010 010 00001 0101011. -/
theorem test_word_vmred : pelorusDecode 0b00100100000000010010000010101011 = some (.form .vmred 1 2 0 2) := by decide
/-- VEXT x4, v8, element 3, i16: 0000101 00011 01000 011 00100 0101011. -/
theorem test_word_vext : pelorusDecode 0b00001010001101000011001000101011 = some (.form .vext 4 8 3 1) := by decide
/-- VSEL v1, v2, v3: 0001111 00011 00010 110 00001 0101011. -/
theorem test_word_vsel : pelorusDecode 0b00011110001100010110000010101011 = some (.form .vsel 1 2 3 3) := by decide
/-- VLD v9, −1(x10): 111111111111 01010 100 01001 0101011. -/
theorem test_word_vld : pelorusDecode 0b11111111111101010100010010101011 = some (.load 9 10 (-1)) := by decide
/-- VST v9, 33(x10): 0000001 01001 01010 101 00001 0101011. -/
theorem test_word_vst : pelorusDecode 0b00000010100101010101000010101011 = some (.store 9 10 33) := by decide
/-- funct3 0b111, an OP that the tables do not list (0x0D of funct3 0), and another major opcode spell nothing. -/
theorem test_words_refused : pelorusDecode 0b00000100011100110111001010101011 = none ∧
    pelorusDecode 0b01101000011100110000001010101011 = none ∧ pelorusDecode 0b00000100011100110000001010110011 = none := by decide

/-- No row of the table has bits, so no word spells a command, and a placed word changes nothing. -/
theorem test_noTableWords : decodeTableWord 32 0x202091AB = none ∧ (State.reset.withFetchWord 32 0x202091AB).pending = [] := by decide

/-! ### Examples and check values of the spec -/

set_option maxRecDepth 20000 in
/-- R225: the check value of the ASCII string 123456789. -/
theorem test_crc16 : crc16 (ascii "123456789") = 0x29B1 := by decide
set_option maxRecDepth 20000 in
/-- 17_meridian.md, the flit's CRC: its check value. -/
theorem test_crc32 : crc32 (ascii "123456789") = 0xCBF43926 := by decide
/-- 00_scope.md, the occupancy of a wrapped ring: 5, so a ring of four entries is lapped and one of eight is not. -/
theorem test_occupancy : lapping 3 0xFFFFFFFE 0xFFFFFFFE false 4 = true ∧ lapping 3 0xFFFFFFFE 0xFFFFFFFE false 8 = false := by decide
/-- 09_key_store.md: index 0x001A2B at generation 3. -/
theorem test_handle : mkHandle 0x001A2B 3 = 0x03001A2B ∧ handleIdx 0x03001A2B = 0x001A2B := by decide

/-- The PZ-8820 of 22_registers.md: private memory at port 0 only. -/
def pz8820 : State := { State.reset with variant := .pz8820, host := { State.reset.host with pmem0 := 16 } }

/-- 22_registers.md: ID.UNITS of that device is 0x007F_7333. -/
theorem test_units : pz8820.idUnits = 0x007F7333 := by decide

/-- Core 0 with the operands of the chapter's examples in v1 and v2. -/
def lanes (a b : BitVec 128) : State :=
  State.reset.modCore 0 fun C => { C with v := [(1, a), (2, b)], pmod := 12289 }

/-- The element of v3 on core 0 after a command. -/
def lane (c : Instr) (s : State) : Option (BitVec 64) :=
  match exec c s with
  | .next t => some (((tget (t.core 0).v 3).getD 0).extractLsb' 0 64)
  | _ => none

/-- 16_service_complex.md: (1 + 2i)(3 + 4i) = −5 + 10i. -/
theorem test_vcmul : lane (.vcmul 0 3 1 2 0) (lanes 0x400000003F800000 0x4080000040400000) = some 0x41200000C0A00000 := by decide
/-- 16_service_complex.md: 12,000 × 12,000 mod 12,289 = 9,787. -/
theorem test_vmmul : lane (.vmmul 0 3 1 2 2) (lanes 12000 12000) = some 9787 := by decide
/-- R380: addition of bytes wraps within its lane. -/
theorem test_vadd_wraps : lane (.vadd 0 3 1 2 0) (lanes 0x00FF 0x0001) = some 0 := by decide
/-- R379: an even modulus sets pmod to 0. -/
theorem test_pmodWrite : (match exec (.pmodWrite 0 12290) (lanes 0 0) with
    | .next t => some (t.core 0).pmod
    | _ => none) = some 0 := by decide

/-- 23_electrical_package.md: under 150 W, 96 tiles at 1,600 MHz need four steps of 50 MHz; three do not fit. -/
theorem test_throttle :
    let l := (List.range 96).map fun n => (n, 0, 1600)
    packageUw 0 (lowered 0 3 l) > 150000000 ∧ packageUw 0 (lowered 0 4 l) ≤ 150000000 := by decide
/-! ### Witnesses: states in which the hypotheses of the statements hold -/

/-- The device, booted and READY. -/
def up : State := { State.reset with
  boot := { State.reset.boot with ready := true, booted := true, phase := 5 },
  keys := { State.reset.keys with ready := true } }

/-- A run of a main step, in a mode. -/
def runs (m : RunMode) : List JobStep :=
  [{ kind := .main, pers := 1, group := 0, runs := [{ server := .tile 0, cycles := 100, effAt := 0, windows := 0, mode := m }] }]

/-- A state with one job, of number 1. -/
def withJob (s : State) (J : Job) : State := { s with jobs := [(1, J)] }

/-- A job of an opcode that executes now. -/
def execJob (op : Nat) : Job := { opcode := op, phase := .placed, steps := runs .running, newIdx := [5], src := .ring 256 }

/-- Every opcode has a job that executes it: the hypothesis of the statements about what an operation computes. -/
theorem witness_running (op : Nat) : (withJob up (execJob op)).running 1 (execJob op) op := by
  refine ⟨rfl, rfl, ?_⟩
  simp [Job.computing, execJob, Job.isRunning, Job.holds, Job.durable, runs, Job.current, stepsFrom]

/-- A staged administrative command whose turn it is. -/
def adminJob (op : Nat) (param : BitVec 64) (input : Bytes) : Job :=
  { opcode := op, phase := .staged, param := param, input := input, src := .ring 0, dst := 4096 }

/-- Every administrative opcode has a turn. -/
theorem witness_adminTurn (op : Nat) (param : BitVec 64) (input : Bytes) (s : State) :
    AdminTurn (withJob s (adminJob op param input)) 1 (adminJob op param input) op := by
  refine ⟨rfl, rfl, rfl, ?_, ?_, rfl, rfl⟩
  · simp [State.adminBefore, withJob, adminJob]
  · simp [State.fenceWaits, withJob, adminJob]

/-! ### Pelorus -/

/-- A core with a modulus. -/
def coreUp : State := up.modCore 7 fun C => { C with pmod := 12289, frm := 4 }

theorem witness_pelorus : Executes up 0 ∧ Executes coreUp 7 ∧ (coreUp.core 7).pmod ≠ 0 ∧ RoundsBy up 0 0 ∧ RoundsBy coreUp 7 4 ∧
    up.moduleOn 7 = false ∧ memWf up.service.helmMem = true ∧
    ((up.modCore 0 fun C => { C with xs := 0 }).core 0).xs = 0 ∧ (15#5).toNat < 128 / 8 ∧ 128 / 8 ≤ (16#5).toNat := by decide

theorem witness_canonicalNaN : (0x7F800001 : Nat) / 2 ^ f32.mw % 2 ^ f32.ew = 2 ^ f32.ew - 1 ∧ 0x7F800001 % 2 ^ f32.mw ≠ 0 ∧
    (0xFFF8000000000001 : Nat) / 2 ^ f64.mw % 2 ^ f64.ew = 2 ^ f64.ew - 1 ∧ 0xFFF8000000000001 % 2 ^ f64.mw ≠ 0 := by decide

/-! ### Jobs that compute -/

/-- A stateful private key with its leaf state. -/
def hbsKey : Key :=
  { alg := 0x3401, kind := .priv, owner := 0, material := [1#8],
    hbs := some { types := [], total := 32, block := 8, next := 3, reserved := 8 } }

/-- A state that holds it under index 9. -/
def hbsState : State := { up with keys := { up.keys with gens := [(9, 1)], live := [(9, hbsKey)] } }

theorem witness_statefulSign :
    (withJob hbsState { execJob 0x3501 with pin := some 9, leaf := some 3 }).key? 9 = some hbsKey ∧ hbsKey.hbs.isSome ∧
    (0x3401 / 0x100 = 0x34 ∧ 0x3FFF / 0x100 = 0x3F) := by decide

/-- A seeded SLH-DSA keygen with its 48 bytes of seeds, an EC keygen that is not seeded, and a digest into a logbook register. -/
theorem witness_computeParameters :
    (bitOf (0x1000 : BitVec 64).toNat 12 = true ∧
      ({ execJob 0x3001 with param := 0x1000, auxIn := zeros 48 } : Job).auxPart 0 = zeros 48) ∧
    bitOf (execJob 0x5001).param.toNat 12 = false ∧
    ({ execJob 0x7001 with flags := 0x0100, param := 0x3F00000000000000 } : Job).logTarget =
      some 63 ∧
    (0 < hashLen 0x01) ∧ (8 ≤ 8 ∧ 16 ≤ 16) := by decide

/-! ### Resets, boot, pins -/

/-- A device that has just been reset, of a variant. -/
def booting : BootEnv :=
  { hostLink := some (5, 16, false, false), pmemGib0 := 16, pmemGib1 := 0, nvsOk := true, leadHops := none,
    tests := ⟨true, true, [], [], []⟩, bootMs := 900 }

theorem witness_resets : BootOn up ∧ (10000 ≤ 10000 ∧ 100000 ≤ 100000 ∧ 999 < 1000) := by decide

theorem witness_boot : State.reset.boot.ready = false ∧ State.reset.boot.booted = false ∧ State.reset.lc.state ≠ .scrapped ∧
    lifeDecode State.reset.lc.copyA State.reset.lc.copyB State.reset.lc.copyC = (State.reset.lc.state, true) ∧
    State.reset.lc.allAgree = true ∧ State.reset.lc.intent = none ∧ booting.nvsOk = true ∧ State.reset.pins.strap = false ∧
    State.reset.boot.forceReason ≠ 9 ∧ State.reset.flash.try_ ≠ 1 ∧ State.reset.slotValid State.reset.flash.active = false ∧
    State.reset.slotValid (1 - State.reset.flash.active) = false ∧ up.boot.booted = true ∧ State.reset.levelCauses = [] ∧
    4 ≤ State.reset.firmwareCores.length ∧ State.reset.boot.confirmRec = none := by decide

theorem witness_pins : railOk (.quad 3) = true ∧ up.hasRail (.quad 3) = true ∧ 2000 < 2001 ∧
    up.pins.rails.contains (railCode (.quad 3)) = false ∧
    ({ up with pins := { up.pins with rails := [railCode .helm], clocks := [clockCode .sysclk] } }).pins.rails = [railCode .helm] ∧
    up.hasClock .mrRefclk = true ∧ up.pins.clocks.contains (clockCode .mrRefclk) = false ∧
    (up.gradeMax + 10 < 116 ∧ 125 < 126 ∧ 104 < up.gradeMax) := by decide

/-- The input has been low, and HELD records are due. -/
def heldLow : State := { up with pins := { up.pins with filtered := false, raw := false, heldNext := some 5 } }

theorem witness_safetyPins : up.pins.run = [] ∧ up.pins.filtered = true ∧ heldLow.pins.filtered = false ∧ heldLow.pins.run = [] ∧
    (heldLow.pins.heldNext = some 5 ∧ 5 ≤ (heldLow.time.to 5).elapsed) ∧ (up.src 399).present = false ∧ 7 < 8 ∧ 51 ≤ 51 ∧ 50 < 51 := by
  decide

/-! ### The collector, reactions and the safe state -/

/-- A tile with a count just below its threshold, in an open window. -/
def counting : State := (up.modSrc 95 fun S => { S with count := 15, start := 0 })

theorem witness_countedEvents : 95 < tilesOf counting.variant ∧ Clear counting 100 95 1 ∧
    ((counting.src 95).count ≠ 0 ∧ (counting.time.to 100).elapsed / 1000 - (counting.src 95).start < (counting.src 95).w * 1000) ∧
    (counting.src 95).n ≤ (counting.src 95).count + 1 ∧ (counting.src 95).action = 1 ∧ (counting.src 95).fenced = false ∧
    (counting.tile 95).mode ≠ .fenced ∧ Clear up 100 0 1 ∧ (up.src 0).count = 0 ∧ 1 < (up.src 0).n ∧
    ((up.modSrc 0 fun S => { S with count := 1 }).src 0).count + 1 < (up.src 0).n := by decide

/-- A tile whose class A reaction of ID 1 waits for its acknowledgement. -/
def reacting : State :=
  { up with faults := { up.faults with
      nextId := 2, reacts := [(1, { id := 1, source := 3, cls := 1, state := 1, start := 0, began := 0, back := some 0 })] } }

theorem witness_reactions : Clear up 100 3 0x14 ∧ (up.src 3).fenced = false ∧ (up.tile 3).mode ≠ .fenced ∧
    ((up.modSrc 3 fun S => { S with fenced := true }).src 3).fenced = true ∧ reacting.waiting 3 = some 1 ∧
    (reacting.react? 1).isSome ∧ 0 + 10000 ≤ (reacting.time.to 10000).elapsed ∧ (reacting.time.to 9999).elapsed < 0 + 10000 ∧
    (∀ r, reacting.react? 1 = some r → r.back = some 0 ∧ r.endAt = 0) ∧ 0 + 50000 ≤ (reacting.time.to 50000).elapsed := by
  refine ⟨by decide, by decide, by decide, by decide, by decide, by decide, by decide, by decide, ?_, by decide⟩
  intro r h
  injection h with h
  subst h
  decide

/-- A device in the safe state, in OWNED. -/
def safe : State :=
  { up with
    lc := { up.lc with state := .owned }
    faults := { up.faults with safe := { up.faults.safe with on := true, challenge := zeros 32 } } }

theorem witness_safeState : up.barOn 0 = true ∧ up.faults.safe.on = false ∧ safe.faults.safe.on = true ∧
    (withJob safe (adminJob 0x0020 1 [])).memOf (adminJob 0x0020 1 []) = none ∧
    (withJob safe (adminJob 0x0020 1 [])).writeFault 4096 32 = none ∧
    (withJob safe (adminJob 0x0020 0 [])).exitRefused [] = some 0x0112 ∧
    (withJob up (adminJob 0x0020 0 [])).exitRefused [] = some 0x0110 := by decide

/-- A token of one signature with the challenge of `safe`, valid for ever. -/
def exitToken : Bytes :=
  le 4 0x54495845 ++ le 2 1 ++ le 1 1 ++ zeros 1 ++ zeros 32 ++ le 8 (2 ^ 64 - 1) ++ zeros 16 ++ zeros 4631

/-- Where every signature verifies, one block of index 0 makes a quorum of one. -/
theorem quorum_one (yes : ∀ p ins, Config.primBool p ins = true) (key ctx msg sigs : Bytes) (h : leAt sigs 0 1 = 0) :
    quorumKeys [key] ctx msg sigs 1 = [0] := by
  simp [quorumKeys, quorumKeys.mlOk, yes, List.range_succ, h]
  rfl

/-- `safe` with one recovery key. -/
def safeKeyed : State := { safe with lc := { safe.lc with recovery := [zeros 2592], quorumM := 1 } }

set_option maxRecDepth 20000 in
/-- Where every signature verifies, the token is accepted. -/
theorem witness_safeExit (yes : ∀ p ins, Config.primBool p ins = true) : safeKeyed.exitRefused exitToken = none := by
  unfold State.exitRefused
  rw [if_neg (by decide), if_neg (by decide), if_neg (by decide), if_neg (by decide), if_neg (by decide),
    show leAt exitToken 6 1 = 1 by decide, show safeKeyed.lc.recovery = [zeros 2592] from rfl,
    quorum_one yes _ _ _ _ (by decide), if_neg (by decide), if_neg (by decide)]

theorem witness_sources : 0 < 512 ∧ up.hasSource 511 = false ∧ up.hasSource 399 = true ∧
    (1 ≤ 1 ∧ 255 ≤ 255 ∧ 65535 ≤ 65535 ∧ 2 ≤ 2) ∧ safe.lc.state = .owned ∧ ¬ ((safe.src 0).action ≤ 0) ∧
    (safe.src 0).action ≤ 1 ∧ (up.src 0).fenced = false ∧
    (((up.modSrc 224 fun S => { S with fenced := true }).src 224).fenced = true ∧
      ((up.modSrc 224 fun S => { S with fenced := true }).src 225).fenced = false) ∧
    (dispOf up 0 0x01 none).isSome ∧ up.injectOk 0 false = true ∧ safe.injectOk 0 true = false ∧
    (up.src 0).cycle ≠ some (collectorCycle up.time.elapsed + 1) ∧
    ((up.modSrc 135 fun S => { S with fenced := true }).src 135).fenced = true ∧ up.pins.gated = false ∧
    State.reset.boot.ready = false ∧ 3 < portsOf State.reset.variant := by decide

/-! ### Charts, the tick and the administrative commands -/

/-- A chart operation of job 1 on tiles 0 and 95, in a phase. -/
def chartOp (p : Nat) : State :=
  { up with
    chart := { up.chart with
      op := some { job := 1, retile := true, image := [], chart := decodeChart [], phase := p, tiles := [0, 95], doneList := [0],
                   failed := [], removed := true, draining := true } },
    tiles := [(95, { mode := .reconfiguring, change := 2 })] }

theorem witness_charts : (withJob up (adminJob 0x0010 0 [])).chartRefused [] false = some 1 ∧
    (withJob (chartOp 2) (adminJob 0x0011 0 [])).chartRefused [] true = some 0x000A ∧
    (chartOp 2).chart.op.isSome ∧ (chartOp 2).chart.op.all (fun o => (chartOp 2).drained o && o.phase == 2) ∧
    (chartOp 3).chart.op.all (fun o => o.phase == 3 && o.tiles.contains 95 && !o.doneList.contains 95) ∧
    ((chartOp 3).tile 95).change = 2 ∧ ((chartOp 3).tile 95).mode = .reconfiguring ∧
    (chartOp 4).chart.op.all (fun o => o.phase == 4) ∧
    (up.modTile 95 fun T => { T with mode := .fenced, fence := 3 }).reloads 95 = true ∧ up.opHolds 95 = false ∧
    (90 ≤ (90 : BitVec 64).toNat ∧ (195 : BitVec 64).toNat ≤ 195 ∧ (89 : BitVec 64).toNat < 90 ∧ 195 < (196 : BitVec 64).toNat) ∧
    (withJob up (adminJob 0x0012 0 [])).writeFault 4096 up.chart.image.length = none := by decide

/-- Two tenants' settings that wait for the tick. -/
def ticking : State :=
  { up with
    fns := [(1, { fnDefault 1 with change := some { shares := [(0, 512)], limits := some (32, 8, true), jobs := [] },
                                   pertNext := some false })],
    keys := { up.keys with partNext := [(1, (0, 16))] },
    tiles := [(0, { mode := .selfTest, returning := true })] }

theorem witness_tick : (tget ticking.fns 1).all (fun F => F.change.isSome && F.pertNext.isSome) ∧
    (ticking.keys.partNext.map (·.1)).Nodup ∧ (ticking.tile 0).returning = true ∧ (ticking.tile 0).mode = .selfTest ∧
    ticking.chart.op = none := by decide

/-- `up` with an enabled queue 300 of PF0, a fenced 301 and a CACHE_POLL queue 4,095. -/
def ringed : State :=
  { up with queues := [(300, { mode := .enabled, sqTail := 2 }), (301, { mode := .fenced, sqHead := 0xFFFFFFF0, sqTail := 0xFFFFFFF8 }),
                       (4095, { mode := .enabled, poll := true, tailWord := 64 })] }

theorem witness_queues : up.freeQueue = some 256 ∧ (withJob ringed (adminJob 0x0002 300 [])).addressed 0 300 = some 300 ∧
    (withJob up (adminJob 0x0002 300 [])).addressed 0 300 = none ∧ 256 ≤ 300 ∧
    (withJob ringed (adminJob 0x0002 300 [])).queueBusy 300 = false ∧ (withJob ringed (adminJob 0x0002 300 [])).jobsOfQueue 300 = [] ∧
    (ringed.queue 300).mode = .enabled ∧ (ringed.queue 301).mode = .fenced ∧
    ((0xFFFFFFF8 : BitVec 32) - (ringed.queue 301).sqHead).toNat ≤ ((ringed.queue 301).sqTail - (ringed.queue 301).sqHead).toNat ∧
    ((ringed.queue 301).sqTail - (ringed.queue 301).sqHead).toNat < ((0xFFFFFFF9 : BitVec 32) - (ringed.queue 301).sqHead).toNat := by
  decide

/-- PF0 and VF255 with and without work. -/
theorem witness_functions : up.fnExists 0 = true ∧ up.fnExists 255 = false ∧ (up.modFn 255 fun F => { F with enabled := true }).fnExists 255 = true ∧ (up.fn 255).quiesce = none ∧ (up.fn 255).flrJobs = [] ∧
    up.shareOver 255 [(0, 1)] = true ∧ up.shareOver 0 [(0, 767)] = false ∧ up.fnBusy 255 = false ∧ up.quiesceLeft 255 = [] ∧
    (withJob up (adminJob 0x0006 0 [])).writeFault 4096 96 = none ∧ (withJob up (adminJob 0x0021 0x3F [])).memOf (adminJob 0x0021 0x3F []) = none ∧
    0x3F < 0x40 ∧ (0x00010000 + 255 : BitVec 64).toNat = 255 + 2 ^ 16 * true.toNat := by decide

/-! ### Rings -/

theorem witness_rings : Rings ringed 0 300 300 ∧ (ringed.queue 300).poll = false ∧
    ¬ (2 ^ 4 < ((16 : BitVec 32) - 2).toNat) ∧ ¬ (2 ^ 4 < ((16 : BitVec 32) - 0).toNat) ∧ 2 ^ 4 < ((17 : BitVec 32) - 0).toNat ∧
    2 ^ 4 < ((1 : BitVec 32) - 2).toNat ∧ Rings ringed 0 4095 4095 ∧ (ringed.queue 4095).poll = true ∧
    (ringed.queue 300).safety = false ∧ (ringed.queue 300).revise = none ∧ ((1 : BitVec 32) - (ringed.queue 300).sqHead).toNat < 2 ^ 31 ∧
    0 < ((ringed.queue 300).sqHead - (0xFFFFFFFF : BitVec 32)).toNat ∧ ((ringed.queue 300).sqHead - (0x80000001 : BitVec 32)).toNat < 2 ^ 31 ∧
    lapping 16 0 0 false (2 ^ 4) = false := by decide

/-- A function whose doorbells are held. -/
def holding : State :=
  (ringed.modFn 0 fun F => { F with
    pert := true, ctrl := 8, holdUs := 1, held := [{ queue := 300, kind := 1, value := 0, count := 0, due := 1000 }] })

theorem witness_heldDoorbells : (holding.fn 0).pert = true ∧ (holding.fn 0).ctrl.getLsbD 3 = true ∧ 0 < (holding.fn 0).holdUs ∧
    (holding.fn 0).held = [{ queue := 300, kind := 1, value := 0, count := 0, due := 1000 }] ∧
    1000 ≤ (holding.time.to 1000).elapsed ∧ (holding.time.to 999).elapsed < 1000 ∧
    lapping 0 (holding.queue 300).cqHead (holding.queue 300).cqTail true (2 ^ 4) = false := by decide

/-- A function whose control was cleared while a doorbell of its queue is held, and a read that waits. -/
theorem witness_heldOrder : let s := holding.modFn 0 fun F => { F with pert := false }
    s.barOn 0 = true ∧ s.addressed 0 300 = some 300 ∧ (s.queue 300).fn = 0 ∧ (s.fn 0).pert = false ∧ (s.fn 0).heldFor 300 = true ∧
    ({ ringed with host := { ringed.host with reads := [(0, 0x20004 + 0x10 * 300, false)] } } : State).host.reads =
      [(0, 0x20004 + 0x10 * 300, false)] ∧ (ringed.fn (ringed.queue 300).fn).heldFor 300 = false ∧
    linkBudget 5 16 < linkBudget 6 16 := by decide

theorem witness_queueZero : up.barOn 0 = true ∧ (0x00010084 : BitVec 32).getLsbD 16 = true ∧ (0x00010084 : BitVec 32).toNat % 32 = 4 ∧
    (0x00010084 : BitVec 32).toNat / 32 % 32 = 4 ∧ up.reg (admqKey 0 0) % 4096 = 0 ∧ (up.queue 0).mode = .absent ∧
    (0x00010210 : BitVec 32).toNat % 32 = 16 ∧ (0x00010211 : BitVec 32).toNat % 32 = 17 ∧
    up.cluster.tethered = false ∧ (up.fn (up.queue 4095).fn).mask.contains (up.queue 4095).vector = false ∧
    0 < ((up.modQueue 4095 fun Q => { Q with pendN := 1 }).queue 4095).pendN := by decide

/-- A queue with one entry of a known opcode, or of a reserved one, at 4,096. -/
def entryAt4096 (opcode : Nat) : State :=
  { up with
    queues := [(300, { mode := .enabled, sqBase := 4096, cqBase := 8192, sqTail := 1 })],
    hostMem := memWriteN [] 4096 (le 2 opcode ++ zeros 62) }

set_option maxRecDepth 20000 in
theorem witness_consumption : (up.at_ 5).markWaits.pickQueue = none ∧ ((entryAt4096 0xF000).at_ 5).markWaits.pickQueue = some 300 ∧
    (((entryAt4096 0xF000).at_ 5).markWaits.queue 300).isModule = none ∧
    ((entryAt4096 0xF000).at_ 5).markWaits.readFault (((entryAt4096 0xF000).at_ 5).markWaits.entryAt 300) 64 = none ∧
    (badReason ((entryAt4096 0xFFFF).at_ 5).markWaits (((entryAt4096 0xFFFF).at_ 5).markWaits.queue 300)
      (((entryAt4096 0xFFFF).at_ 5).markWaits.hostRead 4096 64)).isSome := by decide

set_option maxRecDepth 20000 in
/-- The entry ahead is read, stands in the cache already, or cannot be read. -/
theorem witness_prefetch : (((entryAt4096 0xF000).prefetch 300).headEntry 300).isSome ∧
    (((entryAt4096 0xF000).modQueue 300 fun Q => { Q with cache := [(0, zeros 64)] }).queue 300).cache.head? = some (0, zeros 64) ∧
    (({ entryAt4096 0xF000 with host := { up.host with readFaults := [(0, 65536, 1)] } } : State).prefetch 300).headEntry 300 = none := by decide

/-! ### Jobs on their way -/

/-- Two KEM tiles of group 1 in Quadrant 0 at 2,000 MHz and a route that sends every opcode to them. -/
def served : State :=
  { up with
    chart := { up.chart with
      running := some { variants := 1, version := 1, id := 1, powerW := 195, roles := [0, 0, 0, 0],
                        deadlines := [100, 1000, 10000, 100000, 100000, 100000, 100000, 100000], tiles := [],
                        groups := [⟨1, 1, 1, []⟩], mcodes := [], routes := [⟨0, 0x101, 0xFF, 1, 1⟩] } },
    tiles := [(0, { mode := .idle, asg := some ⟨1, 1, 2000, 0, 0⟩, mhz := 2000, mcPers := 1 }),
              (1, { mode := .idle, asg := some ⟨1, 1, 2000, 0, 0⟩, mhz := 2000, mcPers := 1 })],
    fns := [(0, { fnDefault 0 with shares := List.replicate 33 512 })] }

/-- An ML-KEM key generation that has been staged. -/
def keygenJob : Job := { opcode := 0x1001, cls := 2, quadrant := some 0, src := .ring 300, phase := .staged }

/-- A digest of input at 4,096, not yet fetched. -/
def fetchJob (total : Nat) (flags : BitVec 16) (frags : Nat) : Job :=
  { opcode := 0x7001, flags := flags, totalLen := total, srcAddr := 4096, fragCount := frags, src := .ring 300, quadrant := some 0,
    dst := 8192 }

/-- `up` with one fragment of 4 bytes listed at 4,096. -/
def oneFragment : State := { up with hostMem := memWriteN [] 4096 (le 8 8192 ++ le 4 4 ++ le 4 0) }

theorem witness_fetchStage : entryOk (fetchJob 4 0 0) = true ∧ entryOk (fetchJob 4 0x40 1) = false ∧
    (withJob up (fetchJob 4 0 0)).memOf (fetchJob 4 0 0) = none ∧ fIndirect (fetchJob 4 0 0).flags.toNat = false ∧ 4 ≤ up.jobMax ∧
    4 ≤ (withJob up (fetchJob 4 0 0)).stagingFree (some 0) ∧ up.overflowUsed ≤ up.overflowMib * 2 ^ 20 ∧
    up.readFault 4096 4 = none ∧ ({ up with host := { up.host with readFaults := [(4096, 4, 1)] } }).readFault 4096 4 = some 1 ∧
    entryOk (fetchJob 8 4 1) = true ∧ (withJob oneFragment (fetchJob 8 4 1)).readFault 4096 16 = none ∧
    ((parseFrags (oneFragment.hostRead 4096 16) 1).map (·.len)).sum ≠ 8 ∧ 2 < 4 ∧ min 4 (4 - 2) ≠ 0 := by decide

set_option maxRecDepth 20000 in
theorem witness_admission : Decided ((withJob served keygenJob).at_ 0) 1 keygenJob ∧
    (match ((withJob served keygenJob).at_ 0).rowThree keygenJob with
      | .place _ _ => true
      | .refuse _ => false) = true ∧
    ((withJob up keygenJob).at_ 0).rowThree keygenJob = .refuse 1 ∧ ((withJob served keygenJob).at_ 0).laterRows keygenJob = none ∧
    keygenJob.takesKey = false := by decide

/-- A job whose run waits on tile 0. -/
def waitingJob : Job := { opcode := 0x1001, cls := 2, phase := .placed, steps := runs .waiting, src := .ring 300 }

/-- A job whose run waits on core 0. -/
def coreJob : Job :=
  { opcode := 0x8000, cls := 2, phase := .placed, src := .ring 300,
    steps := [{ kind := .main, pers := 0, group := 32, runs := [{ server := .core 0, cycles := 9, effAt := 0, windows := 0 }] }] }

/-- A job that runs on tile 0, with a request. -/
def runningJob (r : Request) : Job := { waitingJob with steps := runs .running, request := r }

theorem witness_dispatch : (served.tile 0).serves = true ∧ (((withJob served waitingJob).at_ 0).readyRuns (.tile 0)).length = 1 ∧
    ((withJob served waitingJob).runsAt (.tile 0)).all (fun r => r.run.mode != .running) = true ∧ (served.core 0).stopped = false ∧
    (((withJob served coreJob).at_ 0).readyRuns (.core 0)).length = 1 ∧ (runningJob .fence).isRunning = true ∧
    (runningJob .none).tilesOf = [0] ∧ coreJob.tilesOf = [] ∧ (runningJob .none).runTile = some 0 ∧
    (runningJob .none).currentHas (.tile 0) .running = true ∧ (served.tile 0).mode ≠ .absent ∧ 4096 < 4097 := by decide

/-- A stateful signature that waits for its commit. -/
def committing : State :=
  withJob hbsState { runningJob .none with opcode := 0x3501, commit := .needed, pin := some 9, leaf := some 3, out := none }

/-- A digest job that posts an extend of register 5. -/
def extending : State :=
  { withJob up (execJob 0x7001) with log := { up.log with posted := [(5, .extend [1#8] (some 1))] } }

/-- A job that runs its only run and has its output. -/
def endingJob (al2 : Bool) : Job :=
  { runningJob .none with
    out := some { output := [7#8], result := 9 }, dst := 8192, al2 := al2,
    steps := if al2 then
        [{ kind := .main, pers := 1, group := 0, runs := [{ server := .tile 0, cycles := 100, effAt := 0, windows := 0, mode := .ended },
            { server := .tile 1, cycles := 100, effAt := 0, windows := 0, mode := .running }] }]
      else runs .running }

theorem witness_commitsAndRunEnds : committing.key? 9 = some hbsKey ∧ (committing.job? 1).isSome ∧
    (committing.job? 1).all (fun J => J.isRunning && J.logRes == none && J.commit == .needed && J.runTile == some 0) ∧
    hbsKey.hbs.isSome ∧ extending.log.posted = [(5, .extend [1#8] (some 1))] ∧ (extending.logReg 5).barrier = [] ∧
    (endingJob false).atEnd = false ∧ (withJob served (endingJob false)).memOf (endingJob false) = none ∧
    (withJob served (endingJob false)).gateOf (endingJob false) = none ∧ served.writeFault 8192 1 = none ∧
    ((endingJob true).steps.flatMap (·.runs)).map (·.mode) = [.ended, .running] ∧
    (withJob served (endingJob true)).armedFor (endingJob true) = none ∧ (loopOf 0x2101).isSome ∧ famOf 0x1001 ≠ 9 := by decide

/-- A seal that streams 40 bytes of output. -/
def sealJob : Job :=
  { runningJob .none with
    opcode := 0x6003, totalLen := 40, dst := 8192, windowed := true,
    out := some { output := zeros 56, seen := 40 } }

/-- A job that has ended on queue 300. -/
def endedJob (p : Phase) (e : Nat) : Job :=
  { opcode := 0x7001, src := .ring 300, phase := p, delayEnd := e, tag := 5, result := 2 ^ 40, status := 0 }

theorem witness_completions : sealJob.streams = true ∧ sealJob.isRunning = true ∧ sealJob.current.isSome ∧
    (withJob served sealJob).gateOf sealJob = none ∧ 0 < min 16384 (40 - sealJob.released) ∧ served.writeFault 8192 40 = none ∧
    (ringed.queue 300).isModule = none ∧ (ringed.queue 300).chain ≠ some 1 ∧ (ringed.fn 0).flr = false ∧
    (endedJob .delayed 10).late (ringed.time.to 10).elapsed = false ∧ ringed.writeFault (0 + 32 * (0 % 16)) 32 = none ∧
    10 ≤ (ringed.time.to 10).elapsed ∧ (ringed.fn 0).pert = false ∧
    ((ringed.modFn 0 fun F => { F with pert := true, ctrl := 1, delayUs := 1 }).fn 0).ctrl.getLsbD 0 = true := by decide

/-! ### Keys -/

/-- A template of a 32-byte AES key. -/
def secretTemplate : Bytes := le 2 0x6300 ++ le 1 1 ++ zeros 61

theorem witness_keyManagement : (parseTemplate secretTemplate).kind = 1 ∧ (parseTemplate (le 2 0x2001 ++ le 1 2 ++ zeros 61)).kind = 2 ∧
    (hbsState.key? 9).isSome ∧ (withJob hbsState { execJob 0x8300 with handle := mkHandle 9 1 }).pinned 9 = false ∧
    handleIdx (mkHandle 9 1) = 9 ∧ hbsKey.persistent = false ∧
    ((withJob hbsState { execJob 0x8400 with handle := mkHandle 9 1 }).jobKey { execJob 0x8400 with handle := mkHandle 9 1 }).isSome := by
  decide

theorem witness_keyPartitions : up.barOn 0 = true ∧ 32767 < 32768 ∧ 32768 < 32767 + 2 ∧ (up.partWritten 1).2 = 0 ∧
    0 < (({ up with keys := { up.keys with partNext := [(1, (0, 16))] } }).partWritten 1).2 ∧ (2 ≤ 2 ∧ 64 ≤ 64) ∧ (1 < 2 ∨ 63 < 64) ∧
    ({ types := [], total := 32, block := 8, preparing := true, perTree := 8 } : Hbs).given = [] := by decide

/-! ### The authority service -/

/-- A tile of a group, idle at 2,000 MHz. -/
def idleTile (pers group : Nat) : Tile :=
  { mode := .idle, asg := some ⟨pers, group, 2000, 0, 0⟩, mhz := 2000, mcPers := pers }

/-- Two tiles each of the lattice, the classical and the symmetric personality, with routes to them for every function. -/
def servedAll : State :=
  { up with
    chart := { up.chart with
      running := some { variants := 1, version := 1, id := 1, powerW := 195, roles := [0, 0, 0, 0],
                        deadlines := [100, 1000, 10000, 100000, 100000, 100000, 100000, 100000], tiles := [],
                        groups := [⟨1, 1, 1, []⟩, ⟨2, 4, 1, []⟩, ⟨3, 5, 1, []⟩], mcodes := [],
                        routes := [⟨0, 0x101, 0xFF, 1, 1⟩, ⟨0, 0x101, 0xFF, 4, 2⟩, ⟨0, 0x101, 0xFF, 5, 3⟩] } },
    tiles := [(0, idleTile 1 1), (1, idleTile 1 1), (2, idleTile 4 2), (3, idleTile 4 2), (4, idleTile 5 3), (5, idleTile 5 3)],
    fns := [(0, { fnDefault 0 with shares := List.replicate 33 512 }), (0x100, { fnDefault 0x100 with shares := List.replicate 33 512 })],
    nextSeq := 7 }

/-- An order of class 5 to the site with one Ed25519 block of signer 0x01000009, valid from 0 to 10^9 ns, SEQUENCE 4. -/
def orderBytes (class_ : Nat) : Bytes :=
  le 4 0x5244524F ++ le 2 1 ++ le 1 1 ++ le 1 2 ++ le 8 77 ++ le 4 0 ++ le 2 class_ ++ le 2 0 ++ le 8 0 ++ le 8 1000000000 ++ le 8 4 ++
  le 4 0 ++ zeros 12 ++ (le 2 0x5401 ++ le 2 64 ++ le 4 0x01000009 ++ zeros 64)

/-- The same as a time-set order to 500 ns. -/
def timeBytes : Bytes :=
  le 4 0x5244524F ++ le 2 1 ++ le 1 1 ++ le 1 2 ++ le 8 78 ++ le 4 0 ++ le 2 0 ++ le 2 0 ++ le 8 0 ++ le 8 1000000000 ++ le 8 5 ++
  le 4 16 ++ zeros 12 ++ (le 8 500 ++ zeros 8) ++ (le 2 0x5401 ++ le 2 64 ++ le 4 0x01000009 ++ zeros 64)

/-- A rule of ID 3 for classes 5 to 6 of kind 2, on every day, permit line 1 for 20 ms, class C3, one signer of role 0. -/
def oneRule (flags : BitVec 8) : Rule :=
  { id := 3, flags := flags, kinds := 4, lo := 5, hi := 6, group := 0xFFFF, cls := 3, fanout := 0, masks := [1], mins := [1],
    winStart := 0, winEnd := 0, dow := 0x7F, permit := 2, permitMs := 20, bucket := 0, tBucket := 0, refill := 0, tRefill := 0,
    graceMs := 0 }

/-- A policy with that rule and one signer. -/
def onePolicy (flags : BitVec 8) : Policy :=
  { image := [1#8], version := 6, activate := 0, officerK := 1, officers := [], fleetAlg := 0, fleetKey := 0, fleetKey2 := 0,
    maxValid := 1, timeRoles := 1, timeM := 1,
    signers := [{ handle := 0x01000009, operator := 1, enabled := true, roles := 1 }], rules := [oneRule flags] }

/-- A device under that policy, with the signer's public key at index 9. -/
def ruled (flags : BitVec 8) : State :=
  { servedAll with
    auth := { servedAll.auth with running := some (onePolicy flags) },
    keys := { servedAll.keys with
      gens := [(9, 1)],
      live := [(9, { alg := 0x5401, kind := .pub, owner := 0x100, usage := 2, material := zeros 32 })] },
    time := { servedAll.time with trusted := true } }

/-- A staged job of the authority service. -/
def serviceJob (op : Nat) (input : Bytes) : Job :=
  { opcode := op, phase := .staged, input := input, totalLen := input.length, src := .ring 300, dst := 8192, cls := 3 }

set_option maxRecDepth 20000 in
theorem witness_orderForms : wellFormedOrder (orderBytes 5) false = true ∧ wellFormedOrder [] false = false ∧
    wellFormedOrder timeBytes true = true ∧ wellFormedOrder [] true = false ∧
    (orderBytes 5).length = 136 ∧ up.auth.running = none ∧ (ruled 1).targetKnown (orderBytes 5) = true ∧
    (ruled 1).targetKnown (overlay (orderBytes 5) 7 [0#8]) = false := by decide

set_option maxRecDepth 20000 in
theorem witness_orderRules : (onePolicy 1).rules.find? ((ruled 1).ruleMatches (orderBytes 5)) = some (oneRule 1) ∧
    (onePolicy 1).rules.find? ((ruled 1).ruleMatches (orderBytes 7)) = none ∧ (oneRule 3).deny = true ∧ (oneRule 1).deny = false ∧
    (onePolicy 3).rules.find? ((ruled 3).ruleMatches (orderBytes 6)) = some (oneRule 3) ∧ (ruled 1).logFrozen 3 = false ∧
    ({ ruled 1 with log := { (ruled 1).log with nearFull := true } }).log.nearFull = true ∧ 1 < (ruled 1).nextSeq ∧
    (withJob (ruled 1) (serviceJob 0x9000 [])).memOf (serviceJob 0x9000 []) = none ∧ (ruled 1).writeFault 8192 96 = none := by
  decide

theorem witness_orderArrival (b : Bytes) : ServiceTurn (withJob (ruled 1) (serviceJob 0x9000 b)) 1 (serviceJob 0x9000 b) 0x9000 ∧
    ServiceTurn (withJob (ruled 1) (serviceJob 0x9300 b)) 1 (serviceJob 0x9300 b) 0x9300 := by
  refine ⟨⟨rfl, rfl, rfl, ?_, rfl, rfl, rfl⟩, ⟨rfl, rfl, rfl, ?_, rfl, rfl, rfl⟩⟩ <;>
    simp [State.fenceWaits, withJob, serviceJob]

/-- The Reckoner places some steps. -/
def places (v : Verdict) : Bool :=
  match v with
  | .place _ _ => true
  | .refuse _ => false

set_option maxRecDepth 100000 in
theorem witness_orderPlaced :
    places (((ruled 1).at_ 0).serviceAsk 3 ((ruled 1).at_ 0).orderPost (((ruled 1).at_ 0).orderPlan (orderBytes 5) (onePolicy 1) (some (oneRule 1)))) = true ∧
    places (((ruled 1).at_ 0).serviceAsk 3 ((ruled 1).at_ 0).orderPost (((ruled 1).at_ 0).orderPlan timeBytes (onePolicy 1) none)) = true ∧
    places (((ruled 1).at_ 0).serviceAsk 4 200 (allVerifies 8 [])) = true ∧
    places ((up.at_ 0).serviceAsk 3 (up.at_ 0).orderPost ((up.at_ 0).orderPlan (orderBytes 5) (onePolicy 1) (some (oneRule 1)))) = false ∧
    (ruled 1).chartStops = false ∧ ({ ruled 1 with chart := { (chartOp 2).chart with op := (chartOp 2).chart.op.map fun o =>
      { o with retile := false } } } : State).chartStops = true := by decide

/-- An order of the device under that policy, whose steps are job 7. -/
def pendingOrder (rule : Option Rule) (env : Bytes) : Order :=
  { job := some 1, work := 7, console := none, timeSet := rule.isNone, envelope := env, policy := onePolicy 1, rule := rule, arrival := 0 }

/-- The device with that order, the job that carries it and its own job with every verify done, or not. -/
def deciding (rule : Option Rule) (env : Bytes) (m : RunMode) : State :=
  { ruled 1 with
    jobs := [(1, { serviceJob 0x9000 env with phase := .background }),
             (7, { opcode := 0x9000, phase := .placed, al2 := true, fn := 0x100,
                   steps := [{ kind := .authVerify, pers := 4, group := 2,
                               runs := [{ server := .tile 2, cycles := 9, effAt := 0, windows := 0, mode := m }] }] })],
    auth := { (ruled 1).auth with orders := [(3, pendingOrder rule env)], nextOrder := 4 } }

set_option maxRecDepth 20000 in
theorem witness_orderDecision :
    (tget (deciding (some (oneRule 1)) (orderBytes 5) .ended).auth.orders 3 = some (pendingOrder (some (oneRule 1)) (orderBytes 5))) ∧
    (deciding (some (oneRule 1)) (orderBytes 5) .ended).verifiesDone (pendingOrder (some (oneRule 1)) (orderBytes 5)) = true ∧
    (deciding (some (oneRule 1)) (orderBytes 5) .running).verifiesDone (pendingOrder (some (oneRule 1)) (orderBytes 5)) = false ∧
    (deciding none timeBytes .ended).verifiesDone (pendingOrder none timeBytes) = true ∧
    (deciding none timeBytes .ended).memOf (serviceJob 0x9000 []) = none ∧ served.time.trusted = false ∧ (ruled 1).time.trusted = true ∧
    envNotBefore (orderBytes 5) ≤ 1000000000 ∧ envNotAfter (orderBytes 5) < 1000000001 ∧
    ((onePolicy 1).maxValid * 10 ^ 9 < envNotAfter (orderBytes 5) - envNotBefore (orderBytes 5) → False) ∧
    envSeq (orderBytes 5) ≤ 4 ∧ (oneRule 1).forward = false ∧ (oneRule 1).permit.getLsbD 1 = true := by decide

/-- A permit line that ends at 20 ms. -/
def permitted : State :=
  { up with
    pins := { up.pins with permit := 2 }
    auth := { up.auth with permits := [(1, { endAt := 20000000 })] } }

theorem witness_permits : tget permitted.auth.permits 1 = some { endAt := 20000000 } ∧ 20000000 ≤ (permitted.time.to 20000000).elapsed ∧
    (permitted.time.to 19999999).elapsed < 20000000 := by decide

/-- The signature block of both orders, and the key that it names. -/
def oneBlock : SigBlock := { alg := 0x5401, signer := 0x01000009, sig := zeros 64 }
/-- The signer's key. -/
def oneKey : Key := { alg := 0x5401, kind := .pub, owner := 0x100, usage := 2, material := zeros 32 }

set_option maxRecDepth 100000 in
/-- Where every signature equation holds, the canonical block verifies. -/
theorem orderSig_yes (yes : ∀ p ins, Config.primBool p ins = true) (env : Bytes) : orderSigOk env oneKey oneBlock = true := by
  have a : edCanonical 0x5401 (zeros 32) = true := by decide
  have b : edCanonical 0x5401 ((zeros 64).take (sigLen 0x5401 / 2)) = true := by decide
  have c : fromLE ((zeros 64).drop (sigLen 0x5401 / 2)) < edOrder 0x5401 := by decide
  simp [orderSigOk, edKeyOk, edSigOk, oneKey, oneBlock, yes, a, b, c]

/-- The deciding device at a moment, whose Helm replica stands at 100 ns. -/
def decidingNow (rule : Option Rule) (env : Bytes) : State :=
  ({ deciding rule env .ended with time := { (ruled 1).time with replicas := [(4, 100)] } } : State).at_ 0

theorem decidingNow_helmTime (rule : Option Rule) (env : Bytes) : (decidingNow rule env).helmTime = 100 := by
  have h : ∀ x : Nat, max 100 (0 + x % 9 - 4) = 100 := by omega
  exact h _

set_option maxRecDepth 100000 in
theorem decidingNow_signers (yes : ∀ p ins, Config.primBool p ins = true) (rule : Option Rule) (env : Bytes)
    (h : (envBlocks env).getD [] = [oneBlock]) : (decidingNow rule env).signersOk (onePolicy 1) env = .ok [1] := by
  have e : (decidingNow rule env).signerOf (onePolicy 1) oneBlock =
    some ({ handle := 0x01000009, operator := 1, enabled := true, roles := 1 }, oneKey) := rfl
  unfold State.signersOk
  simp only [h, List.map_cons, List.map_nil, e]
  simp [distinct, orderSig_yes yes]
  exact ⟨by decide, by decide⟩

set_option maxRecDepth 100000 in
/-- Where every signature equation holds, the order and the time-set order are accepted. -/
theorem witness_accepted (yes : ∀ p ins, Config.primBool p ins = true) :
    ((decidingNow (some (oneRule 1)) (orderBytes 5)).decideOrder (pendingOrder (some (oneRule 1)) (orderBytes 5)) (oneRule 1)).toBool = true ∧
    ((decidingNow none timeBytes).decideTime (pendingOrder none timeBytes)).toBool = true := by
  have a : (decidingNow (some (oneRule 1)) (orderBytes 5)).signersOk (pendingOrder (some (oneRule 1)) (orderBytes 5)).policy
    (pendingOrder (some (oneRule 1)) (orderBytes 5)).envelope = .ok [1] := decidingNow_signers yes _ _ (by decide)
  have b : (decidingNow none timeBytes).signersOk (pendingOrder none timeBytes).policy (pendingOrder none timeBytes).envelope = .ok [1] :=
    decidingNow_signers yes _ _ (by decide)
  unfold State.decideOrder State.decideTime
  simp only []
  rw [a, b, decidingNow_helmTime, decidingNow_helmTime]
  decide

theorem witness_policies : up.policyRefused [] = some 0x0230 ∧ (parsePolicy []).version = 0 ∧
    ({ permitted with auth := { permitted.auth with decisions := [{ orderId := 5, auditSeq := 1, reason := 0, state := 3, time := 0 }] }
      }).auth.decisions.length = 1 ∧ up.writeFault 8192 128 = none ∧
    (ruled 1).auth.running = some (onePolicy 1) ∧ bitOf (1 : BitVec 64).toNat 0 = true := by decide

/-! ### Partners and frames -/

/-- A partner of PF0 on port 0, armed or not, with a session or a handshake. -/
def mate (armed : Bool) (session : Option Epoch) (hs : Option Handshake) : Partner :=
  { key := mkHandle 8 1, localKey := mkHandle 9 1, owner := 0, port := 0, flags := 0, remoteId := 3, neighbour := 0, template := 0,
    rport := 0, rip := zeros 16, groups := [], armed := armed, session := session, hs := hs, inSlot := session.isSome }

/-- The keys of a session. -/
def epoch1 : Epoch := { num := 1, keyIn := zeros 32, keyOut := zeros 32, ivIn := zeros 12, ivOut := zeros 12 }

/-- A device with that partner as partner 2 and with both keys, whose port 0 has role 2 and its link. -/
def mated (P : Partner) : State :=
  { servedAll with
    partners := { servedAll.partners with
      table := [(2, P)], ports := [(0, { role := 2, link := true, mac := 0x112233445566 })],
      neighbours := [(0, [1#8, 2#8, 3#8, 4#8, 5#8, 6#8, 0#8, 0#8])] },
    keys := { servedAll.keys with
      gens := [(8, 1), (9, 1)],
      live := [(8, { alg := 0x2002, kind := .pub, owner := 0, usage := 2, material := zeros 1952 }),
               (9, { alg := 0x2002, kind := .priv, owner := 0, usage := 1, material := zeros 4032 })] } }

/-- The record of such a partner. -/
def mateRecord (port : Nat) : Bytes :=
  le 4 (mkHandle 8 1) ++ le 4 (mkHandle 9 1) ++ le 2 0 ++ le 1 port ++ le 1 0 ++ le 3 3 ++ zeros 25 ++ le 8 (2 ^ 64 - 1) ++ zeros 16

set_option maxRecDepth 20000 in
theorem witness_partnerJobs : recordOk (mateRecord 0) 0 4 = true ∧ recordOk (mateRecord 4) 0 4 = false ∧
    (mateRecord 0).length = 64 ∧
    up.ownKey 0 (mkHandle 8 1) 0x2002 .pub = none ∧ ((mated (mate false none none)).ownKey 0 (mkHandle 8 1) 0x2002 .pub).isSome ∧
    ((mated (mate false none none)).ownKey 0 (mkHandle 9 1) 0x2002 .priv).isSome ∧
    ((mated (mate false none none)).partner? 0).isNone ∧
    (mated (mate false none none)).partnerFor { serviceJob 0xA300 [] with partner := 2 } = some (mate false none none) ∧
    up.partnerFor (serviceJob 0xA300 []) = none ∧
    (mated (mate false none none)).roleFits (mate false none none) = true ∧ up.roleFits (mate false none none) = false ∧
    ((mated (mate false none none)).port 0).link = true ∧ (mated (mate false none none)).handshakes < 4096 ∧
    CtxReady (mate false none none) ∧ CtxReady (mate false (some epoch1) none) ∧
    (mate false (some epoch1) none).session.isSome := by decide

/-- A step of a partner's session is admitted. -/
def stepTaken (x : Except Nat State) : Bool := x.toBool

set_option maxRecDepth 100000 in
theorem witness_partnerSteps :
    stepTaken ((mated (mate false none none)).takeStep 0 3 2 0 initPlan) = true ∧
    stepTaken ((mated (mate false none none)).takeStep 0 3 2 1248 replyPlan) = true ∧
    stepTaken ((mated (mate false none none)).takeStep 0 3 2 4461 finishPlan) = true ∧
    stepTaken ((mated (mate false none none)).takeStep 0 3 2 3309 (opsPlan [(0x2202, true)])) = true ∧
    stepTaken ((mated (mate false none none)).takeStep 0 2 2 40 (openPlan 0)) = true ∧
    stepTaken (up.takeStep 0 2 2 40 (openPlan 0)) = false ∧
    places ((mated (mate false (some epoch1) none)).reckon ((mated (mate false (some epoch1) none)).sendDemand
      { serviceJob 0xA400 [7#8] with partner := 2, quadrant := some 0 } 1024) 100000 0 0) = true := by decide

/-- A job whose seal or verifies have ended. -/
def doneWork (op : Nat) : Job :=
  { serviceJob op [7#8] with
    phase := .placed, partner := 2
    steps := [{ kind := .main, pers := 5, group := 2,
                runs := [{ server := .tile 2, cycles := 9, effAt := 0, windows := 0, mode := .ended }] }] }

theorem witness_doneWork : (doneWork 0xA400).stepsEnded = true ∧ (doneWork 0x9100).released = 0 ∧
    (withJob (mated (mate false (some epoch1) none)) (doneWork 0xA400)).job? 1 = some (doneWork 0xA400) ∧
    (withJob up (doneWork 0x9100)).memOf (doneWork 0x9100) = none ∧
    (mated (mate false none none)).partner? 2 = some (mate false none none) := by decide

/-- A frame of a type from that partner: Ethernet, the header of one fragment with SEQ 1 of epoch 1, and a payload. -/
def mateFrame (type length : Nat) : Bytes :=
  be 6 0x112233445566 ++ [1#8, 2#8, 3#8, 4#8, 5#8, 6#8] ++ be 2 0x88B5 ++ le 1 1 ++ le 1 type ++ le 2 length ++ le 3 2 ++ le 1 1 ++
  le 8 1 ++ le 1 0 ++ le 1 1 ++ zeros 6 ++ zeros (length - 24)

/-- The device once such a frame waits. -/
def waitingFrame (P : Partner) (type length : Nat) : State :=
  { mated P with
    partners := { (mated P).partners with
      ingress := [{ port := 0, partner := 2, frame := (mateFrame type length).drop 14, at_ := 0 }] } }

/-- That frame. -/
def theIngress (type length : Nat) : Ingress := { port := 0, partner := 2, frame := (mateFrame type length).drop 14, at_ := 0 }

/-- The device once the frame has been taken. -/
def taken (P : Partner) (type length : Nat) : State :=
  (((waitingFrame P type length).at_ 0).untake (theIngress type length)).modPartner 2 fun Q =>
    { Q with used := ((waitingFrame P type length).time.to 0).elapsed }

/-- The initiator's side of a handshake of epoch 1, and the responder's. -/
def handshake1 (initiator : Bool) : Handshake :=
  { initiator := initiator, job := none, epoch := 1, initMsg := zeros 1248, replyMsg := zeros 4461, okm := zeros 88,
    secret := zeros 2432, sentAt := 0 }

set_option maxRecDepth 100000 in
/-- Frames of the sealed types, an INIT, a REPLY and a FINISH that are next. -/
theorem witness_nextFrames :
    (∀ ty ∈ [0x10, 0x11, 0x14, 0x21], NextFrame (waitingFrame (mate true (some epoch1) none) ty 40) ty 0 (theIngress ty 40)
      (mate true (some epoch1) none) (taken (mate true (some epoch1) none) ty 40)) ∧
    NextFrame (waitingFrame (mate true none none) 0x01 1272) 0x01 0 (theIngress 0x01 1272)
      (mate true none none) (taken (mate true none none) 0x01 1272) ∧
    NextFrame (waitingFrame (mate false none (some (handshake1 true))) 0x02 4485) 0x02 0 (theIngress 0x02 4485)
      (mate false none (some (handshake1 true))) (taken (mate false none (some (handshake1 true))) 0x02 4485) ∧
    NextFrame (waitingFrame (mate false none (some (handshake1 false))) 0x03 40) 0x03 0 (theIngress 0x03 40)
      (mate false none (some (handshake1 false))) (taken (mate false none (some (handshake1 false))) 0x03 40) := by
  refine ⟨fun ty h => ?_, ⟨by decide, by decide, by decide, by decide, by decide, by decide, rfl⟩,
    ⟨by decide, by decide, by decide, by decide, by decide, by decide, rfl⟩, ⟨by decide, by decide, by decide, by decide, by decide, by decide, rfl⟩⟩
  simp only [List.mem_cons, List.not_mem_nil, or_false] at h
  obtain rfl | rfl | rfl | rfl := h <;> exact ⟨by decide, by decide, by decide, by decide, by decide, by decide, rfl⟩

set_option maxRecDepth 20000 in
theorem witness_frames : (mated (mate false (some epoch1) none)).receives 0 = true ∧ isPtp (mateFrame 0x10 40) = false ∧
    up.arrive 0 (mateFrame 0x10 40) = none ∧ ((mated (mate false none none)).arrive 0 (mateFrame 0x10 40)).isSome ∧
    ((mated (mate false none none)).arrive 0 (mateFrame 0x10 40)).all (fun a => lengthOk a && formatOk a.body) = true ∧
    ((mated (mate false none none)).arrive 0 (mateFrame 0x10 23 ++ [1#8])).all (fun a => !lengthOk a) = true ∧
    ((mated (mate false none none)).arrive 0 (mateFrame 0x22 40)).all (fun a => lengthOk a && !formatOk a.body) = true ∧
    ((mated (mate false none none)).arrive 0 (mateFrame 0x10 40)).all (fun a =>
      (mated (mate false none none)).attributed 0 a == some (mate false none none) && (up.attributed 0 a).isNone) = true ∧
    (typesIn 2).contains 0x10 = true ∧ (typesIn 2).contains 0x11 = false ∧
    (mate false (some epoch1) none).knowsEpoch 0x10 1 = true ∧ (mate false none none).knowsEpoch 0x10 1 = false := by decide

/-- The checks on a sealed frame whose tag fits: the message it opens to. -/
theorem witness_opens (m : Bytes)
    (h : gcmOpen epoch1.keyIn (frameNonce epoch1.ivIn 1) (((mateFrame 0x10 40).drop 14).take 24) (((mateFrame 0x10 40).drop 14).drop 24) =
      some m) :
    ∃ w, OpensTo (taken (mate true (some epoch1) none) 0x10 40) (theIngress 0x10 40) (mate true (some epoch1) none) w epoch1 m := by
  have e : ((taken (mate true (some epoch1) none) 0x10 40).takeOpen (theIngress 0x10 40) (mate true (some epoch1) none)).toBool = true := by
    set_option maxRecDepth 100000 in decide
  rcases k : (taken (mate true (some epoch1) none) 0x10 40).takeOpen (theIngress 0x10 40) (mate true (some epoch1) none) with r | w
  · rw [k] at e; cases e
  refine ⟨w, k, rfl, h, ?_, ?_, rfl⟩
  · decide
  · decide

set_option maxRecDepth 20000 in
theorem witness_backlogs : (up.poolFor 0 2 16 = none) ∧ (up.fn 0).backlogBytes + 16 ≤ 262144 ∧ 262144 < 262140 + 16 ∧
    (withJob up { serviceJob 0xA500 [] with phase := .pooled, partner := 2, cls := 2 }).poolFor 0 2 0 = some 1 ∧
    (mate true none none).armed = true ∧ (mate false none none).armed = false ∧ (mate false none none).autoAccept = false ∧
    (mated (mate true none none)).handshakes < 4096 ∧ ((mated (mate true none none)).partnerKeys (mate true none none)).isSome ∧
    (mate false none (some (handshake1 true))).hs.any (fun h => h.initiator && h.epoch == 1) = true ∧
    (mate true (some epoch1) none).inSlot = true := by decide

/-- A partner whose timers are due: a handshake message, a message being put together, an old epoch, and a message that waits. -/
theorem witness_timers : (handshake1 true).sentAt + 250000000 ≤ (up.time.to 250000000).elapsed ∧
    (up.time.to 249999999).elapsed < (handshake1 true).sentAt + 250000000 ∧ (handshake1 true).tries < 3 ∧
    ({ msgId := 0, type := 0x10, count := 2, frags := [], firstAt := 0, firstSeq := 0 } : Reassembly).firstAt + 100000000 ≤
      (up.time.to 100000000).elapsed ∧
    epoch1.live + 82800 * 10 ^ 9 ≤ (up.time.to (82800 * 10 ^ 9)).elapsed ∧ epoch1.frames < 2 ^ 31 ∧
    (up.time.to (82800 * 10 ^ 9 - 1)).elapsed < epoch1.live + 82800 * 10 ^ 9 ∧ (up.fn 0x100).backlog = [] ∧
    ((up.modFn 3 fun F => { F with backlog := [(2, 1, [], 0)] }).fn 3).backlog = [(2, 1, [], 0)] ∧
    0 < portsOf served.variant ∧ served.partners.mode1 = false ∧ ((mated (mate false none none)).port 0).role ≠ 0 ∧
    ((mated (mate false none none)).port 0).stopped = false := by decide

/-! ### Function resets -/

/-- VF3 with a queue, a job and a session key. -/
def vfAtWork : State :=
  { (up.modFn 3 fun F => { F with enabled := true }) with
    queues := [(300, { mode := .enabled, fn := 3 })],
    jobs := [(1, { execJob 0x7001 with fn := 3, src := .ring 300, phase := .staged, steps := [] })],
    keys := { up.keys with live := [(9, { hbsKey with owner := 3 })] } }

theorem witness_functionResets : (vfAtWork.fn 3).enabled = true ∧ (vfAtWork.fn 3).flr = false ∧ (up.fn 4).enabled = false ∧
    (tget vfAtWork.queues 300).all (fun Q => Q.fn == 3 && Q.mode != .absent) = true ∧
    (vfAtWork.job? 1).all (fun J => J.fn == 3 && !J.isRunning && J.phase == .staged) = true ∧
    (vfAtWork.key? 9).all (fun K => K.owner == 3 && !K.persistent) = true ∧ Listed vfAtWork.keys.live ∧ Listed vfAtWork.queues ∧
    Listed vfAtWork.partners.table ∧ (up.fn 0).flr = false ∧ (∀ e ∈ up.queues, e.1 = 0 → e.2.fn = 0) ∧
    ((up.modFn 3 fun F => { F with flr := true }).fn 3).flr = true ∧ (∀ e ∈ up.jobs, e.2.bg = none) ∧
    ((up.modFn 3 fun F => { F with scrub := true }).fn 3).scrub = true := by decide

/-! ### Time and the logbook -/

/-- A device on SOURCE 2 that has made a correction of 600,000 ns. -/
def corrected : State := { up with time := { up.time with source := 2, accepted := [(0, 600000)] } }

theorem witness_corrections : up.barOn 0 = true ∧ (3 : BitVec 32).toNat % 4 = 3 ∧ (2 : BitVec 32).toNat % 4 ≠ up.time.source ∧
    up.time.source ≠ 2 ∧ corrected.time.stepBound < ((recentCorrections corrected.time).map (·.2)).sum + 400001 ∧
    ((recentCorrections corrected.time).map (·.2)).sum + (400000 : BitVec 64).toInt.natAbs ≤ corrected.time.stepBound ∧
    (-400000 : BitVec 64).toInt < 0 ∧ 10000 < (400000 : BitVec 64).toInt.natAbs ∧ corrected.time.slew = .none ∧
    ((100000 : BitVec 32).toInt.natAbs ≤ 100000 ∧ 100000 < (-100001 : BitVec 32).toInt.natAbs) ∧
    (up.time.signedOnly = false ∧ up.time.trusted = false ∧ up.time.almanac ≤ (5 : BitVec 64).toNat) ∧
    (999 < 1000 ∧ 1000000000 < 1000000001 ∧ 1000 ≤ 1000) := by decide

/-- A device on SOURCE 1 one edge before its lock. -/
def pulsing : State := { up with time := { up.time with source := 1, lockRun := 7 } }

theorem witness_pulses : (pulsing.time.to 5).source = 1 ∧ (100 : Int).natAbs ≤ 100 ∧ 1000 < (-1001 : Int).natAbs ∧
    (100 < (101 : Int).natAbs ∧ (1000 : Int).natAbs ≤ 1000) ∧ (pulsing.time.to 5).locked = false ∧ 7 ≤ (pulsing.time.to 5).lockRun ∧
    (up.time.to 5).source ≠ 1 ∧ (up.time.to 5).ppsOut = false ∧ (up.time.to 5).almanac % 1000000000 < 100000000 ∧
    ({ up with time := { up.time with ppsOut := true, ppsFall := 5 } }.time.to 5).ppsOut = true ∧
    (mated (mate false none none)).receives 0 = true ∧ isPtp (zeros 12 ++ be 2 0x88F7) = true ∧
    ((mated (mate false none none)).port 0).rxFull.getLsbD 0 = false ∧ (zeros 12 ++ be 2 0x88F7).length ≤ 246 ∧
    up.egressOn 0 = false ∧ (mated (mate false none none)).egressOn 0 = true := by decide

/-- A record that waits for its export to a ring at 4,096. -/
def recorded : State := { up with log := { up.log with records := [zeros 256], exportOn := true, base := 4096 } }

set_option maxRecDepth 20000 in
theorem witness_logbook : (16 : BitVec 32).toNat % 64 = 16 ∧ (up.logReg 16).epoch ≠ 0xFFFF ∧ (up.logReg 16).barrier = [] ∧
    (up.logReg 16).reserved = [] ∧ ((up.modLog 16 fun L => { L with reserved := [1] }).logReg 16).reserved ≠ [] ∧
    (up.logReg 16).count ≠ 0xFFFFFFFF ∧ recorded.log.records = zeros 256 :: [] ∧ recorded.log.ringRoom = true ∧
    recorded.writeFault (4096 + 256 * (recorded.log.tail.toNat % 2 ^ recorded.log.log2)) 256 = none ∧ up.log.exportOn = false := by
  decide

/-! ### SPDM -/

/-- A device with an identity, whose connection on the DOE mailbox has negotiated version 1.2 and which holds one chain. -/
def attesting : State :=
  { up with
    lc := { up.lc with state := .owned, dus := some (zeros 32) },
    boot := { up.boot with chains := [(0, zeros 9), (2, zeros 9)], cdi := some (zeros 32) },
    host := { up.host with
      spdm := [(0, { version := 0x12, stage := 3 })],
      sessions := [{ transport := .doe, id := 1, secret := zeros 48 }] } }

/-- A request of a code, padded. -/
def request (code p1 p2 n : Nat) : Bytes := le 1 0x12 ++ le 1 code ++ le 1 p1 ++ le 1 p2 ++ zeros n

set_option maxRecDepth 20000 in
theorem witness_spdm : attesting.transportOn .doe = true ∧ State.reset.transportOn .doe = false ∧
    (∀ x ∈ [(0x81, 0, 0, 0), (0x82, 0, 0, 8), (0x83, 0, 0, 32), (0xE0, 0, 65, 0), (0xE4, 0, 0, 132), (0xE5, 0, 0, 48), (0xE8, 0, 0, 0),
        (0xE9, 1, 0, 0), (0xEC, 0, 0, 0), (0xEE, 2, 0, 1), (0xFE, 0, 0, 60), (0x85, 0, 0, 20), (0x86, 0, 0, 8)],
      SpdmTurn attesting .doe x.1 (request x.1 x.2.1 x.2.2.1 x.2.2.2)) ∧
    (attesting.spdmChain 0).isSome ∧ attesting.host.sessions.length < 4 ∧
    (attesting.sessionOn .doe).isSome ∧ up.sessionOn .doe = none ∧ rqCode (request 0xFE 0 0 0) = 0xFE ∧
    (up.spdmOf .doe).stage = 0 ∧ rqCode (request 0x84 0 0 0) = 0x84 := by decide

/-! ### The host port, mailboxes, locks and modules -/

theorem witness_hostPort : up.responds 0 = true ∧ 2 % accBytes (.write32 0) ≠ 0 ∧ 2 + accBytes (.write32 0) ≤ windowSize .pfBar0 0 ∧
    accepted 0x1002 4 = false ∧ hasWindow .pfBar0 0 = true ∧ up.host.d3hot = false ∧ up.boot.ready = true ∧
    ({ up with host := { up.host with d3hot := true } }).responds 0 = false ∧ up.cluster.tethered = false ∧ up.online.isEmpty = true := by
  decide

/-- Configuration space as reset leaves it, with and without VF3. -/
theorem witness_config : (∀ off, tget up.regs (cfgKey 3 off) = none) ∧ (up.fn 3).enabled = false ∧
    ((up.modFn 3 fun F => { F with enabled := true }).fn 3).enabled = true ∧
    hasWindow .bar2 0 = true ∧ (∀ off, tget (up.modFn 3 fun F => { F with enabled := true }).regs (cfgKey 3 off) = none) := by
  refine ⟨fun _ => rfl, by decide, by decide, by decide, fun _ => rfl⟩

/-- A LOAD_CHART changes the role of port 0. -/
theorem witness_roleChange : up.roleChanging 0 = false ∧
    ({ up with chart := { (chartOp 2).chart with op := (chartOp 2).chart.op.map fun o =>
      { o with retile := false, chart := { o.chart with roles := [7, 0, 0, 0] } } } } : State).roleChanging 0 = true := by decide

/-- A mailbox pair of the host and the Binnacle, both full. -/
def crossed : State :=
  { up with service := { up.service with mboxes := [(0, { word := 0x01000005, full := true }), (1, { full := true })] } }

theorem witness_mailboxes : up.reaches (senderOf 517) = true ∧ up.reaches (receiverOf 1) = true ∧ (up.mbox 517).full = false ∧
    (crossed.mbox 0).full = true ∧ pairMate 0 = 1 ∧ (crossed.mbox (pairMate 0)).full = true ∧
    max (crossed.mbox 0).since (crossed.mbox 1).since + 1000000000 < (crossed.time.to 1000000001).elapsed ∧
    (crossed.mbox 0).cross = false ∧ up.service.replies = [] ∧
    ({ up with service := { up.service with mboxes := [(0, { word := 0x01000005, full := true })] } }).mbox 1 = {} ∧
    (up.module 1).state < 256 ∧ up.lockUser 9 = true ∧ tget up.service.locks 255 = none := by decide

/-- Module 0 runs with its ring and its argument 3 in a0. -/
def moduleUp : State :=
  { up with
    service := { up.service with
      modules := [(0, { state := 2, owner := true, ring := some 4096 })], cores := [(6, { x := [(10, 3)] })] },
    queues := [(4096, { mode := .enabled, fn := 0x101, isModule := some 0, cqTail := 3 })],
    lc := { up.lc with state := .owned } }

theorem witness_modules : up.barOn 0 = true ∧ moduleUp.lc.state = .owned ∧ (up.module 0).idle = true ∧ (up.module 1).idle = true ∧
    (1 : BitVec 32).getLsbD 0 ≠ up.service.next.getD up.service.handover ∧ up.service.done = false ∧
    (moduleUp.module 0).idle = false ∧ (moduleUp.module 0).state = 2 ∧ (moduleUp.module 0).waiting = none ∧
    (moduleUp.core 6).stopped = false ∧ (moduleUp.queue 4096).mode = .enabled ∧ (moduleUp.fn 0x101).pert = false ∧
    ((3 : BitVec 32) - (moduleUp.queue 4096).sqTail).toNat ≤ 2 ^ (moduleUp.queue 4096).sqLog2 ∧
    ((3 : BitVec 32) - (moduleUp.queue 4096).cqHead).toNat ≤ 2 ^ (moduleUp.queue 4096).cqLog2 ∧
    (moduleUp.mbox 513).full = false ∧ moduleUp.moduleDone 0 = true ∧ ({ moduleUp with queues := [] }).moduleDone 0 = false ∧ (moduleUp.mbox 512).full = false := by decide

/-! ### Meridian -/

/-- A device whose link 0 is up to node 5, with a pilot role, a request of each answered kind and one waiting message. -/
def linked (ty : Nat) (body : Bytes) : State :=
  { up with
    regs := [(0xC8004, 0x0400)],
    cluster := { up.cluster with
      links := [(0, { enable := true, mode := .up, peer := 5, keyIn := zeros 32 })], member := true, pilotSet := true,
      roster := some { image := zeros 64, version := 1, clusterId := 1, entries := [⟨zeros 48, 5, 1⟩, ⟨[1#8], 0, 1⟩] },
      requests := [⟨3, 5, ty - 1, zeros 40, 0, 0, [], []⟩],
      inbox := [{ link := 0, src := 5, type := ty, body := body }] } }

/-- A message of `n` bytes with REQ_ID 3. -/
def merMessage (n : Nat) : Bytes := le 8 3 ++ zeros (n - 8)

theorem witness_links : 3 < portsOf up.variant ∧ up.barOn 0 = true ∧ (1 : BitVec 32).getLsbD 0 = true ∧ (up.link 3).enable = false ∧
    ((linked 1 []).link 0).enable = true ∧ ((linked 1 []).link 0).mode ≠ .training ∧ ((linked 1 []).link 0).runs = true ∧
    ((linked 1 []).link 0).queued = [] ∧
    (({ enable := true, mode := .up, credit0 := 0, queued := [[0#8]] } : Link).queued.any fun q =>
      (if bitOf (leAt q 0 1) 0 then (128 : Nat) else 0) == 0) = true ∧ 82800 * 10 ^ 9 ≤ (up.time.to (82800 * 10 ^ 9)).elapsed ∧
    ((up.modLink 0 fun L => { L with enable := true }).link 0).mode = .down ∧
    ((up.modLink 0 fun L => { L with enable := true }).link 0).downAt + 10 ^ 10 ≤ (up.time.to (10 ^ 10)).elapsed ∧
    (up.peerRefused { chain := [], payload := [], signature := [], rosterVersion := 0 }).isSome := by decide

/-- The waiting message of `linked`. -/
def theMessage (ty : Nat) (body : Bytes) : Message := { link := 0, src := 5, type := ty, body := body }

/-- Messages of each type that are next, with the request that each answer answers. -/
theorem witness_messages (ty : Nat) (body : Bytes) : ∃ v, MerNext (linked ty body) ty 0 (theMessage ty body) v := by
  refine ⟨_, ?_, rfl⟩
  simp [linked, theMessage]

set_option maxRecDepth 20000 in
theorem witness_clusterMessages :
    up.cluster.inbox.find? (fun m => m.type == 0x01) = none ∧
    MerFresh (linked 1 (merMessage 32)) (theMessage 1 (merMessage 32)) ∧ (linked 1 (merMessage 32)).cluster.pilotSet = true ∧
    (linked 1 (merMessage 32)).markOf (zeros 16) < 1 ∧ 0 ≤ (linked 1 (merMessage 32)).markOf (zeros 16) ∧
    (merMessage 31).length ≠ 32 ∧
    (∀ x ∈ [(0x02, 17), (0x04, 25), (0x06, 25), (0x09, 17), (0x11, 10), (0x14, 16)],
      (linked x.1 (merMessage x.2)).cluster.requests.find? (fun r => r.id == (theMessage x.1 (merMessage x.2)).req &&
        r.type == x.1 - 1 && r.dst == 5) = some ⟨3, 5, x.1 - 1, zeros 40, 0, 0, [], []⟩) ∧
    leAt (le 8 3 ++ zeros 16 ++ le 8 9 ++ le 8 (2 ^ 20)) 32 8 = 2 ^ 20 ∧ 0 < leAt (le 8 3 ++ zeros 16 ++ le 8 9 ++ le 8 (2 ^ 20)) 24 8 ∧
    leAt (le 8 3 ++ le 1 0 ++ le 8 5 ++ le 8 9) 9 8 < leAt (le 8 3 ++ le 1 0 ++ le 8 5 ++ le 8 9) 17 8 ∧
    (up.keys.live.find? (fun e => e.2.delegates && keyTag e.2.pubPart == zeros 16)) = none ∧
    (up.logReg 7).count ≠ 0xFFFFFFFF ∧ up.cluster.member = false ∧ (linked 1 []).cluster.member = true ∧
    leAt (le 8 3 ++ le 4 0 ++ le 4 100 ++ [1#8]) 8 4 = (linked 9 []).cluster.rosterIn.length ∧
    (linked 1 []).cluster.requests.find? (fun r => r.id == 3) = some ⟨3, 5, 0, zeros 40, 0, 0, [], []⟩ ∧
    up.rosterRefused [] = some 1 := by decide

/-- The lead of a tethered device 2 at node 5, and that device. -/
def leading : State := { linked 0x10 [] with cluster := { (linked 0x10 []).cluster with tether := [(2, { node := 5, valid := true })] } }

theorem witness_tethers : leading.tetherOf 5 = some 2 ∧ leading.faults.safe.on = false ∧ (merMessage 18).length = 18 ∧
    leading.readFault 4096 4096 = none ∧ leading.writeFault 4096 4096 = none ∧ 15 < 16 ∧
    ({ up with cluster := { up.cluster with tethered := true, lead := some 5 } }).cluster.lead = some 5 ∧ up.merRoute 5 = none ∧
    ({ up with cluster := { up.cluster with tethered := true, lead := some 5 } }).merRoute 5 = none ∧
    (linked 1 []).merRoute 5 = some 0 ∧ ((linked 1 []).link 0).carries = true ∧
    ({ up with cluster := { up.cluster with tether := [(2, { node := 5, valid := true })] } }).tetherOf 5 = some 2 := by decide

/-! ### Life cycle, firmware and recovery -/

/-- A device in TEST or PROVISION that finds an authorization block of `n` bytes at address 4,096. -/
def asked (l : LifeState) (n : Nat) (head : Bytes) : State :=
  { up with
    lc := { up.lc with state := l, nonce := zeros 32 },
    regs := [(0xE0050, 4096), (0xE0058, n)],
    hostMem := memWriteN [] 4096 head }

/-- The head of a block: the kind, the target, the scope and one vendor signature, under a challenge. -/
def blockHead (kind target scope : Nat) (challenge : Bytes) : Bytes :=
  le 4 0x48545541 ++ le 2 1 ++ le 1 kind ++ le 1 target ++ le 4 scope ++ le 1 1 ++ zeros 3 ++ challenge

/-- A debug request of scope 1 in PROVISION, and a transition from TEST to PROVISION. -/
def debugAsked : State := asked .provision 4727 (blockHead 2 0 1 (asked .provision 4727 []).challenge)
/-- The transition. -/
def moveAsked : State := asked .test 4727 (blockHead 1 2 0 (asked .test 4727 []).challenge)

set_option maxRecDepth 100000 in
theorem witness_requestForms : BootOn debugAsked ∧ BootOn moveAsked ∧ authFormat (debugAsked.at_ 0).lcBlock 2 = true ∧
    authFormat (moveAsked.at_ 0).lcBlock 1 = true ∧ sliceOf (debugAsked.at_ 0).lcBlock 16 64 = (debugAsked.at_ 0).challenge ∧
    sliceOf (moveAsked.at_ 0).lcBlock 16 64 = (moveAsked.at_ 0).challenge := by decide

set_option maxRecDepth 100000 in
theorem witness_requestChecks : (debugAsked.at_ 0).authAllowed (debugAsked.at_ 0).lcBlock 2 = true ∧
    (moveAsked.at_ 0).authAllowed (moveAsked.at_ 0).lcBlock 1 = true ∧
    (debugAsked.at_ 0).needsOwner (debugAsked.at_ 0).lcBlock 2 = false ∧
    lifeStates[leAt (moveAsked.at_ 0).lcBlock 7 1]? = some .provision ∧
    sliceOf (asked .provision 4727 (blockHead 2 0 1 (zeros 64))).lcBlock 16 64 ≠ (asked .provision 4727 []).challenge ∧
    up.reg 0xE0058 < 96 ∧ lifeStep .provision .test = false := by decide

set_option maxRecDepth 100000 in
/-- Where the vendor's signature verifies, both requests pass. -/
theorem witness_requestsPass (yes : ∀ p ins, Config.primBool p ins = true) :
    (debugAsked.at_ 0).authRefused (debugAsked.at_ 0).lcBlock 2 = none ∧
    (moveAsked.at_ 0).authRefused (moveAsked.at_ 0).lcBlock 1 = none := by
  unfold State.authRefused State.vendorSigned mlDsaOk
  simp only [yes]
  decide

/-- A device whose OTP holds the codes of a transition from OWNED to DEPLOYED that was cut short. -/
def cutShort : State :=
  { State.reset with
    lc := { State.reset.lc with
      intent := some { source := .owned, target := .deployed, digest := [] }, copyA := lifeOtp .deployed, copyB := lifeOtp .owned,
      copyC := lifeOtp .owned },
    pins := { State.reset.pins with strap := true } }

theorem witness_transitions : cutShort.boot.booted = false ∧ cutShort.boot.ready = false ∧
    cutShort.lc.intentOk { source := .owned, target := .deployed, digest := [] } = true ∧
    ({ cutShort with lc := { cutShort.lc with copyA := 0 } }).lc.intentOk { source := .owned, target := .deployed, digest := [] } = false ∧
    cutShort.pins.strap = true ∧ booting.nvsOk = true ∧
    lifeDecode (lifeOtp .owned) (lifeOtp .owned) (lifeOtp .owned) = (.owned, true) := by decide

/-- A device on a try boot of slot 1, of security version 2. -/
def trying : State :=
  { up with
    boot := { up.boot with bundle := some { slot := 1, version := 5, svn := 2, fsbl := [], runtime := [] }, tryBoot := true },
    flash := { up.flash with dirSeqA := some (1, 0, 1) } }

set_option maxRecDepth 20000 in
theorem witness_firmware : BootOn trying ∧ trying.boot.fwBusy = false ∧ trying.lc.busy = false ∧ trying.chart.op = none ∧
    ((trying.at_ 0).stageRefused (trying.at_ 0).fwSource).isSome ∧ trying.flash.try_ = 1 ∧ up.flash.try_ ≠ 1 ∧
    trying.patchRoom (trying.flash.slot 1) = true ∧ up.boot.bundle = none ∧ trying.lc.thermometer < 2 ∧ bundleFormat [] = false ∧
    ({ trying with boot := { trying.boot with fwBusy := true } }).boot.fwBusy = true := by decide

/-- A device in Landfall mode. -/
def landed : State :=
  { State.reset with boot := { State.reset.boot with landfall := true, booted := true, authBuf := blockHead 2 0 1 (zeros 64) } }

set_option maxRecDepth 20000 in
theorem witness_recovery : Served landed .pf ∧ Served landed .management ∧ ¬ Served up .pf ∧ landed.lc.state ≠ .scrapped ∧
    tget landed.boot.rcvSeq (rcvIdx .pf) ≠ some 7 ∧
    tget ({ landed with boot := { landed.boot with rcvSeq := [(rcvIdx .pf, 7)], rcvAnswer := [(rcvIdx .pf, [1#8])] } }).boot.rcvSeq
      (rcvIdx .pf) = some 7 ∧ landed.writeFault (landed.reg 0xE2008) 1 = none ∧
    Chunk (zeros 8) 25165824 ∧ Chunk (zeros 1032) 65536 ∧ ¬ Chunk (zeros 1033) 65536 ∧ landed.fwBusyNow = false ∧
    4 ≤ landed.firmwareCores.length ∧ leAt landed.boot.authBuf 6 1 = 2 ∧ [0#8] ≠ [1#8] ∧
    (landed.stageRefused (landed.flash.slot 1)).isSome ∧
    ({ landed with boot := { landed.boot with fwBusy := true } }).fwBusyNow = true ∧ up.boot.landfall = false := by decide

/-! ### The queue -/

/-- Two commands that wait. -/
def waiting : State := { up with pending := [.ping, .vfFlr 3 9] }

theorem witness_queue : waiting.pending = .ping :: [.vfFlr 3 9] ∧ up.pending = [] ∧ (waiting.pending.all (·.wellFormed)) = true ∧
    (0x33 : BitVec 32).extractLsb' 0 7 ≠ 0b0101011#7 := by decide

theorem witness_queueOk : waiting.queueOk := by
  intro c h
  exact List.all_eq_true.mp witness_queue.2.2.1 c h

end Sys2Proof.Tests
end

section
/-! PROOF. What leaves the table of queues alone: interrupt messages, the end of a job, the logbook and the entry to the
safe state (10_job_rings.md R243; 18_faults_safety.md R423). -/

namespace Sys2Proof.Machine

/-- A sequence of operations none of which touches the queues leaves them alone. -/
theorem eachOf_queues (l : List Nat) (f : State → Nat → State) (hf : ∀ t n, (f t n).queues = t.queues) (s : State) :
    (eachOf l f s).queues = s.queues := by
  induction l generalizing s with
  | nil => rfl
  | cons n l ih =>
    calc (eachOf l f (f s n)).queues = (f s n).queues := ih (f s n)
      _ = s.queues := hf s n

/-! ### Messages, memory and progress -/

@[simp] theorem State.msix_queues (s : State) (f v : Nat) : (s.msix f v).queues = s.queues := by
  unfold State.msix
  split
  · simp
  · split <;> simp

@[simp] theorem State.bump_queues (s : State) (o : Nat) : (s.bump o).queues = s.queues := rfl

@[simp] theorem State.glbEvent_queues (s : State) (b : Nat) : (s.glbEvent b).queues = s.queues := by
  simp [State.glbEvent, State.setBits]

@[simp] theorem State.vfEvent_queues (s : State) (f b : Nat) : (s.vfEvent f b).queues = s.queues := by
  simp [State.vfEvent, State.setBits]

@[simp] theorem State.wr_queues (s : State) (m : Option Nat) (a : Nat) (bs : Bytes) : (s.wr m a bs).queues = s.queues := by
  cases m with
  | none => simp only [State.wr, State.hostWrite]; split <;> rfl
  | some k => simp [State.wr]

@[simp] theorem State.zeroFill_queues (s : State) (m : Option Nat) (dst n : Nat) :
    (s.zeroFill m dst n).1.queues = s.queues := by
  unfold State.zeroFill
  split <;> simp

@[simp] theorem State.opEnd_queues (s : State) (op f : Nat) : (s.opEnd op f).queues = s.queues := by
  unfold State.opEnd
  split <;> rfl

/-! ### The logbook -/

@[simp] theorem State.putRecord_queues (s : State) (type r flags : Nat) (body : Bytes) :
    (s.putRecord type r flags body).queues = s.queues := by
  simp only [State.putRecord]
  split <;> simp

@[simp] theorem State.writeRecord_queues (s : State) (type r flags : Nat) (body : Bytes) :
    (s.writeRecord type r flags body).queues = s.queues := by
  unfold State.writeRecord
  split
  · split
    · simp
    · dsimp only
      split <;> simp
  · rfl

@[simp] theorem State.roll_queues (s : State) (r : Nat) : (s.roll r).queues = s.queues := by simp [State.roll]

@[simp] theorem State.extendBy_queues (s : State) (r : Nat) (data : Bytes) : (s.extendBy r data).queues = s.queues := rfl

@[simp] theorem State.logEvent_queues (s : State) (r type : Nat) (body : Bytes) :
    (s.logEvent r type body).queues = s.queues := by
  unfold State.logEvent
  split
  · simp
  · split <;> simp

@[simp] theorem State.ownerEvent_queues (s : State) (r old new : Nat) : (s.ownerEvent r old new).queues = s.queues := by
  simp only [State.ownerEvent]
  split <;> simp

@[simp] theorem State.logWork_queues (s : State) (r : Nat) (w : LogWork) : (s.logWork r w).queues = s.queues := by
  cases w with
  | roll => simp only [State.logWork]; split <;> simp
  | ownerChange old new => simp [State.logWork]
  | extend data => simp [State.logWork]
  | event type body => simp [State.logWork]

@[simp] theorem State.openBarriers_queues (s : State) (r : Nat) (b : List (List Nat × LogWork)) :
    (s.openBarriers r b).queues = s.queues := by
  induction b generalizing s with
  | nil => simp [State.openBarriers]
  | cons e b ih =>
    obtain ⟨ws, x⟩ := e
    cases ws with
    | nil => simp [State.openBarriers, ih]
    | cons w ws => simp [State.openBarriers]

@[simp] theorem State.logUnreserve_queues (s : State) (r j : Nat) : (s.logUnreserve r j).queues = s.queues := by
  simp [State.logUnreserve]

/-! ### The end of a job -/

@[simp] theorem State.markInj_queues (s : State) (j : Nat) (inj : Bool) : (s.markInj j inj).queues = s.queues := by
  unfold State.markInj
  split <;> simp

@[simp] theorem State.movePending_queues (s : State) (i : Nat) (J : Job) (K : Option Job) :
    (s.movePending i J K).queues = s.queues := by
  simp only [State.movePending]
  split <;> simp

@[simp] theorem State.passCommit_queues (s : State) (j : Nat) (J : Job) : (s.passCommit j J).queues = s.queues := by
  unfold State.passCommit
  split
  · rfl
  · split
    · rfl
    · dsimp only
      split
      · simp
      · rw [eachOf_queues _ _ fun t k => State.modJob_queues t k _, State.movePending_queues]

@[simp] theorem State.treeEnds_queues (s : State) (J : Job) : (s.treeEnds J).queues = s.queues := by
  unfold State.treeEnds
  split <;> simp

@[simp] theorem State.scrubCores_queues (s : State) (J : Job) : (s.scrubCores J).queues = s.queues :=
  eachOf_queues _ _ (fun t c => State.modCore_queues t c _) s

@[simp] theorem State.settleTile_queues (s : State) (n : Nat) : (s.settleTile n).queues = s.queues :=
  State.modTile_queues s n _

@[simp] theorem State.endJob_queues (s : State) (j status result : Nat) (ret : Bytes) :
    (s.endJob j status result ret).queues = s.queues := by
  unfold State.endJob
  split
  · rfl
  · split
    · rfl
    · simp only [State.settleTile_queues, implies_true, eachOf_queues]
      split
      · split <;> simp
      · split
        · split <;> simp
        · split <;> simp

/-- The safe state and a fence leave the queues alone; only an abort abandons a chain. -/
theorem State.stopJob_queues (s : State) (j : Nat) {req : Request} (h : req ≠ .abort) :
    (s.stopJob j req).queues = s.queues := by
  unfold State.stopJob
  split
  · rfl
  · split
    · rfl
    · rw [if_neg fun ⟨_, ha⟩ => h ha]
      split <;> simp

/-! ### The safe state -/

@[simp] theorem State.closeGate_queues (s : State) (g : Nat) (safe : Bool) : (s.closeGate g safe).queues = s.queues := rfl

@[simp] theorem State.safeJobs_queues (s : State) : s.safeJobs.queues = s.queues :=
  eachOf_queues _ _ (fun t j => t.stopJob_queues j (by decide)) s

@[simp] theorem State.safeChart_queues (s : State) : s.safeChart.queues = s.queues := by
  unfold State.safeChart
  split
  · rfl
  · simp only [State.opEnd_queues]
    rw [eachOf_queues _ _ fun t n => State.modTile_queues t n _, eachOf_queues _ _ fun t n => State.modTile_queues t n _,
      State.endJob_queues]

@[simp] theorem State.enterSafe_queues (s : State) (src sub id : Nat) (inj : Bool) :
    (s.enterSafe src sub id inj).queues = s.queues := by
  simp only [State.enterSafe, State.glbEvent_queues, State.logEvent_queues]
  rw [eachOf_queues _ _ fun t p => State.modPort_queues t p _, eachOf_queues _ _ fun t c => State.modCore_queues t c _,
    eachOf_queues _ _ fun t n => State.modTile_queues t n _, State.safeJobs_queues, State.safeChart_queues,
    eachOf_queues _ _ fun t g => t.closeGate_queues g true]
  split
  · rw [eachOf_queues _ _ fun t j => t.markInj_queues j true, State.drawn_queues]
  · rw [State.drawn_queues]

@[simp] theorem State.reactB_queues (s : State) (src sub : Nat) (inj : Bool) :
    (s.reactB src sub inj).queues = s.queues := by
  simp only [State.reactB]
  split <;> simp [State.newReact]

/-- A sub-cause of class B enters the safe state or, in a reaction's window, is recorded only. -/
theorem State.handle_queues_of_classB (s : State) (src sub aux : Nat) (real inj dry : Bool) (job : Option Nat)
    (hd : dispOf s src sub job = some .b) : (s.handle src sub aux real inj dry job).queues = s.queues := by
  simp only [State.handle, hd, Option.getD_some]
  split
  · split <;> simp
  · cases s.windowOf src sub aux with
    | some r => simp only [State.modSrc_queues, State.reactB_queues]; split <;> simp
    | none => simp only [State.reactB_queues]; split <;> simp

end Sys2Proof.Machine
end

section
/-! PROOF. What a doorbell write does: a lapping index is malformed and not stored, another is stored (10_job_rings.md
R229, R232, R235, R243, R244). -/

namespace Sys2Proof.Machine

/-! ### The indices that a malformed doorbell leaves -/

theorem tget_tmap {α : Type} (t : Table α) (f : Nat → α → α) (k : Nat) : tget (tmap t f) k = (tget t k).map (f k) := by
  induction t with
  | nil => rfl
  | cons e t ih =>
    obtain ⟨i, v⟩ := e
    by_cases h : i = k
    · subst h
      simp [tmap, tget]
    · simp only [tmap, List.map_cons, tget, h, ↓reduceIte] at ih ⊢
      exact ih

theorem State.queue_congr {s t : State} (h : s.queues = t.queues) (q : Nat) : s.queue q = t.queue q := by
  unfold State.queue
  rw [h]

/-- Two queues hold the same stored doorbells: the tail and the completion head last accepted. -/
def Queue.SameStored (P Q : Queue) : Prop := P.sqTail = Q.sqTail ∧ P.cqHead = Q.cqHead

/-- The halt changes the mode of a queue alone. -/
theorem State.haltDevice_sameStored (s : State) (f q : Nat) : ((s.haltDevice f).queue q).SameStored (s.queue q) := by
  have hd : dispOf s (if f = 0 then 161 else 162) 0x20 none = some .b := by
    simp only [dispOf]
    split <;> rfl
  have hq := s.handle_queues_of_classB _ _ f true false false none hd
  have hget : tget (s.haltDevice f).queues q = (tget s.queues q).map fun Q =>
      if Q.mode = .absent then Q else { Q with mode := .halted } := by
    rw [← hq]
    exact tget_tmap _ (fun _ (Q : Queue) => if Q.mode = .absent then Q else { Q with mode := .halted }) q
  unfold State.queue
  rw [hget]
  cases tget s.queues q with
  | none => exact ⟨rfl, rfl⟩
  | some Q =>
    simp only [Option.map_some, Option.getD_some]
    split <;> exact ⟨rfl, rfl⟩

/-- Abandoning a chain ends its job and opens the skip of its queue. -/
theorem State.abandonChain_sameStored (s : State) (j q : Nat) : ((s.abandonChain j).queue q).SameStored (s.queue q) := by
  have hend : (s.endJob j St.aborted 0).queue = s.queue :=
    funext (State.queue_congr (s.endJob_queues j St.aborted 0 []))
  unfold State.abandonChain
  split
  · split
    · split
      · rw [State.modQueue_queue, hend]
        split
        · subst q
          exact ⟨rfl, rfl⟩
        · exact ⟨rfl, rfl⟩
      · exact ⟨rfl, rfl⟩
    · exact ⟨rfl, rfl⟩
  · exact ⟨rfl, rfl⟩

/-- A fence abandons the open chain of its queue and then writes that queue's mode, reason and cache. -/
theorem State.fenceQueue_queues (s : State) (q r : Nat) :
    (s.fenceQueue q r).queues = (((s.queue q).chain.elim s s.abandonChain).modQueue q fun Q =>
      { Q with mode := .fenced, reason := r, cqWait := false, cache := [] }).queues := by
  unfold State.fenceQueue
  cases (s.queue q).chain with
  | none => dsimp only [Option.elim]; split <;> split <;> simp
  | some j => dsimp only [Option.elim]; split <;> split <;> simp

theorem State.fenceQueue_sameStored (s : State) (q r : Nat) : ((s.fenceQueue q r).queue q).SameStored (s.queue q) := by
  have hchain : (((s.queue q).chain.elim s s.abandonChain).queue q).SameStored (s.queue q) := by
    cases (s.queue q).chain with
    | none => exact ⟨rfl, rfl⟩
    | some j => exact s.abandonChain_sameStored j q
  rw [State.queue_congr (s.fenceQueue_queues q r), State.modQueue_queue_same]
  exact hchain

/-- R244: a malformed doorbell leaves the stored indices of its queue at their last valid values. -/
theorem State.malformed_sameStored (s : State) (q r : Nat) : ((s.malformed q r).queue q).SameStored (s.queue q) := by
  unfold State.malformed
  split
  · exact s.haltDevice_sameStored _ q
  · exact s.fenceQueue_sameStored q r

/-! ### Lapping -/

/-- The new tail `v` advances, or leaves occupied, more than the ring holds. -/
def Queue.TailLaps (Q : Queue) (v : BitVec 32) : Prop :=
  2 ^ Q.sqLog2 < (v - Q.sqTail).toNat ∨ 2 ^ Q.sqLog2 < (v - Q.sqHead).toNat

/-- The new completion head `v` advances, or leaves remaining, more than the ring holds. -/
def Queue.HeadLaps (Q : Queue) (v : BitVec 32) : Prop :=
  2 ^ Q.cqLog2 < (v - Q.cqHead).toNat ∨ 2 ^ Q.cqLog2 < (Q.cqTail - v).toNat

theorem Queue.lapping_tail_iff (Q : Queue) (v : BitVec 32) :
    lapping v Q.sqTail Q.sqHead false (2 ^ Q.sqLog2) = true ↔ Q.TailLaps v := by
  rw [lapping, Bool.or_eq_true, decide_eq_true_iff, decide_eq_true_iff]
  rfl

theorem Queue.lapping_head_iff (Q : Queue) (v : BitVec 32) :
    lapping v Q.cqHead Q.cqTail true (2 ^ Q.cqLog2) = true ↔ Q.HeadLaps v := by
  rw [lapping, Bool.or_eq_true, decide_eq_true_iff, decide_eq_true_iff]
  rfl

/-- A tail that moves backward by at most half the counter's range advances by more than any ring holds. -/
theorem ringSize_lt_backward_advance {k m : Nat} (hk : 0 < k) (hk' : k ≤ 2 ^ 31) (hm : m ≤ 16) (old : BitVec 32) :
    2 ^ m < (old - BitVec.ofNat 32 k - old).toNat := by
  have hsize : 2 ^ m ≤ 2 ^ 16 := Nat.pow_le_pow_right (by decide) hm
  have hadv : (old - BitVec.ofNat 32 k - old).toNat = 2 ^ 32 - k := by
    rw [show old - BitVec.ofNat 32 k - old = -BitVec.ofNat 32 k by ring, BitVec.toNat_neg, BitVec.toNat_ofNat]
    omega
  omega

/-! ### A doorbell that is processed -/

section
variable {s : State} {q : Nat} {v : BitVec 32}

theorem State.newTail_of_laps (hmode : (s.queue q).mode = .enabled) (hlaps : (s.queue q).TailLaps v) :
    s.newTail q v = s.malformed q 6 := by
  simp [State.newTail, Queue.on, hmode, ((s.queue q).lapping_tail_iff v).mpr hlaps]

theorem State.newTail_of_not_laps (hmode : (s.queue q).mode = .enabled) (hfits : ¬ (s.queue q).TailLaps v) :
    s.newTail q v = s.modQueue q fun Q => { Q with sqTail := v, revise := none } := by
  simp [State.newTail, Queue.on, hmode, mt ((s.queue q).lapping_tail_iff v).mp hfits]

theorem State.newHead_of_laps (hmode : (s.queue q).mode = .enabled) (hlaps : (s.queue q).HeadLaps v) :
    s.newHead q v = s.malformed q 7 := by
  simp [State.newHead, Queue.on, hmode, ((s.queue q).lapping_head_iff v).mpr hlaps]

theorem State.newHead_of_not_laps (hmode : (s.queue q).mode = .enabled) (hfits : ¬ (s.queue q).HeadLaps v) :
    s.newHead q v = s.modQueue q fun Q => { Q with cqHead := v } := by
  simp [State.newHead, Queue.on, hmode, mt ((s.queue q).lapping_head_iff v).mp hfits]

/-- A doorbell of a queue for which nothing is held, of a function that holds none, is processed at once (R232). -/
theorem State.doorbell_eq_doorbellNow (hpert : (s.fn (s.queue q).fn).pert = false)
    (hheld : (s.fn (s.queue q).fn).heldFor q = false) (kind n : Nat) :
    s.doorbell q kind v n = s.doorbellNow q kind v n := by
  simp [State.doorbell, Fn.holds, hpert, hheld]

/-- A doorbell write of a function to its own queue is processed at once, but for a tail of a CACHE_POLL queue (R235). -/
theorem State.barDoorbell_of_rings {f i : Nat} (h : Rings s f i q) (kind n : Nat) :
    s.barDoorbell f i kind v n = if kind = 0 ∧ (s.queue q).poll then s else s.doorbellNow q kind v n := by
  obtain ⟨-, -, hbar, hidx, hfn, -, hpert, hheld⟩ := h
  subst f
  simp [State.barDoorbell, hbar, hidx, State.doorbell_eq_doorbellNow hpert hheld]

/-- DB_SQ_TAIL: the host's writes stand in memory, and then the tail is processed unless the queue polls for it. -/
theorem exec_dbSqTail_of_rings {f i : Nat} (h : Rings s f i q) (mem : HostWrites) :
    let u : State := { s with hostMem := writeRuns s.hostMem mem }
    exec (.dbSqTail f i v mem) s = done s (if (s.queue q).poll then u else u.newTail q v) := by
  intro u
  have hu : Rings u f i q := h
  obtain ⟨hf, hi, -⟩ := h
  have hok : (okFn f && decide (i < 4096)) = true := by simp [okFn, hf, hi]
  calc exec (.dbSqTail f i v mem) s = within (okFn f && decide (i < 4096)) s (u.barDoorbell f i 0 v 0) := rfl
    _ = done s (u.barDoorbell f i 0 v 0) := by rw [within, if_pos hok]
    _ = done s (if (s.queue q).poll then u else u.newTail q v) := by
      rw [State.barDoorbell_of_rings hu]
      simp only [true_and, State.doorbellNow, ↓reduceIte]
      rfl

/-- DB_CQ_HEAD: the completion head is processed. -/
theorem exec_dbCqHead_of_rings {f i : Nat} (h : Rings s f i q) :
    exec (.dbCqHead f i v) s = done s (s.newHead q v) := by
  have hbar := State.barDoorbell_of_rings (v := v) h 1 0
  obtain ⟨hf, hi, -⟩ := h
  have hok : (okFn f && decide (i < 4096)) = true := by simp [okFn, hf, hi]
  calc exec (.dbCqHead f i v) s = within (okFn f && decide (i < 4096)) s (s.barDoorbell f i 1 v 0) := rfl
    _ = done s (s.barDoorbell f i 1 v 0) := by rw [within, if_pos hok]
    _ = done s (s.newHead q v) := by simp [hbar, State.doorbellNow]

end

/-- Settles O28: an index that laps goes to the malformed path, which keeps the stored indices (`malformed_sameStored`);
any other is stored, and a backward move advances by at least 2^31, more than any ring holds. -/
theorem lappingDoorbellsAreMalformed : Obligations.LappingDoorbellsAreMalformed := by
  unfold Obligations.LappingDoorbellsAreMalformed
  refine ⟨fun s f i q v mem h => ?_, by decide, by decide⟩
  have htail := exec_dbSqTail_of_rings (v := v) h mem
  have hhead := exec_dbCqHead_of_rings (v := v) h
  obtain ⟨-, -, -, -, -, hmode, -, -⟩ := h
  intro Q u tailLaps headLaps
  refine ⟨fun hpoll hfits => ?_, fun hfits => ?_, fun hpoll hlaps => ⟨?_, (u.malformed_sameStored q 6).1⟩,
    fun hlaps => ⟨?_, (s.malformed_sameStored q 7).2⟩, fun hpoll => ?_, fun hv hocc => ?_, fun k hk hk' hm hv => ?_⟩
  · rw [htail, hpoll, if_neg Bool.false_ne_true, State.newTail_of_not_laps (s := u) hmode hfits]
    exact done_eq rfl
  · rw [hhead, State.newHead_of_not_laps hmode hfits]
    exact done_eq rfl
  · rw [htail, hpoll, if_neg Bool.false_ne_true, State.newTail_of_laps (s := u) hmode hlaps]
    rfl
  · rw [hhead, State.newHead_of_laps hmode hlaps]
    rfl
  · rw [htail, hpoll, if_pos rfl]
    exact done_eq rfl
  · subst hv
    simpa [tailLaps] using hocc
  · subst hv
    exact .inl (ringSize_lt_backward_advance hk hk' hm _)

end Sys2Proof.Machine
end

section
/-! PROOF. Pelorus loads and stores of a core that runs no owner module, the write of pmod, and the forms that trap
(16_service_complex.md R378-R380). -/

namespace Sys2Proof.Machine

/-! ### A vector register as bytes -/

theorem le_getElem (k n i : Nat) (h : i < (le k n).length) : (le k n)[i] = BitVec.ofNat 8 (n / 2 ^ (8 * i)) := by
  induction k generalizing n i with
  | zero => simp [le] at h
  | succ k ih =>
    cases i with
    | zero => simp [le]
    | succ i =>
      have e : 2 ^ (8 * (i + 1)) = 256 * 2 ^ (8 * i) := by ring
      rw [e, ← Nat.div_div_eq_div_mul]
      exact ih (n / 256) i (by simpa [le] using h)

/-- The bytes of a register, as a store writes them, are its 8-bit elements. -/
theorem le_toNat_getElem (v : BitVec 128) (i : Nat) (h : i < (le 16 v.toNat).length) :
    (le 16 v.toNat)[i] = v.extractLsb' (8 * i) 8 := by
  rw [le_getElem]
  apply BitVec.eq_of_toNat_eq
  simp [BitVec.extractLsb'_toNat, Nat.shiftRight_eq_div_pow]

/-- Bytes that a load puts together are the register of those 8-bit elements. -/
theorem ofNat_fromLE (bs : Bytes) : BitVec.ofNat 128 (fromLE bs) = ofElems 8 (bs.map BitVec.toNat) := by
  have h : fromLE bs = (bs.map BitVec.toNat).foldr (fun x acc => x % 2 ^ 8 + 2 ^ 8 * acc) 0 := by
    induction bs with
    | nil => rfl
    | cons b bs ih => simp [fromLE, ih, Nat.mod_eq_of_lt b.isLt]
  rw [h, ofElems]

theorem fromLE_lane (bs : Bytes) (i : Nat) (h : i < bs.length) (hi : i < 16) :
    (BitVec.ofNat 128 (fromLE bs)).extractLsb' (8 * i) 8 = bs[i] := by
  rw [ofNat_fromLE]
  apply BitVec.eq_of_toNat_eq
  rw [ofElems_lane 8 _ i (by simpa using h) (by omega), List.getElem_map]
  exact Nat.mod_eq_of_lt bs[i].isLt

/-! ### Bytes written to a memory one by one -/

/-- Each byte written at its address, in order. -/
def writeCells (m l : List Host.Cell) : List Host.Cell := l.foldl (fun m x => memWrite m x.1 x.2) m

/-- Up to 16 bytes at the addresses from `a` on, modulo 2^64. -/
def cellsFrom (a : Nat) (bs : Bytes) : List Host.Cell :=
  (List.zip (List.range 16) bs).map fun x => ((a + x.1) % 2 ^ 64, x.2)

theorem writeCells_wf (m l : List Host.Cell) (hm : memWf m = true) : memWf (writeCells m l) = true := by
  induction l generalizing m with
  | nil => exact hm
  | cons x l ih => exact ih _ (memWrite_wf m x.1 x.2 hm)

theorem memRead_writeCells_out (m l : List Host.Cell) (b : Nat) (hm : memWf m = true) (h : ∀ x ∈ l, b ≠ x.1) :
    memRead (writeCells m l) b = memRead m b := by
  induction l generalizing m with
  | nil => rfl
  | cons x l ih =>
    obtain ⟨hx, hl⟩ := List.forall_mem_cons.1 h
    calc memRead (writeCells m (x :: l)) b = memRead (memWrite m x.1 x.2) b := ih _ (memWrite_wf m x.1 x.2 hm) hl
      _ = memRead m b := memRead_memWrite_ne m x.1 b x.2 hm hx

/-- Where no address is written twice, every byte written reads back. -/
theorem memRead_writeCells_in (m l : List Host.Cell) (x : Host.Cell) (hm : memWf m = true) (hl : (l.map (·.1)).Nodup)
    (hx : x ∈ l) : memRead (writeCells m l) x.1 = x.2 := by
  induction l generalizing m with
  | nil => simp at hx
  | cons y l ih =>
    obtain ⟨hy, hl⟩ := List.nodup_cons.1 hl
    have hw := memWrite_wf m y.1 y.2 hm
    rcases List.mem_cons.1 hx with rfl | hx
    · have hout : ∀ z ∈ l, x.1 ≠ z.1 := fun z hz e => hy (List.mem_map.2 ⟨z, hz, e.symm⟩)
      calc memRead (writeCells m (x :: l)) x.1 = memRead (memWrite m x.1 x.2) x.1 := memRead_writeCells_out _ l x.1 hw hout
        _ = x.2 := memRead_memWrite_same m x.1 x.2 hm
    · exact ih _ hw hl hx

theorem mem_cellsFrom (a i : Nat) (bs : Bytes) (hi : i < 16) (h : i < bs.length) :
    ((a + i) % 2 ^ 64, bs[i]) ∈ cellsFrom a bs := by
  refine List.mem_map.2 ⟨(i, bs[i]), List.mem_iff_getElem.2 ⟨i, by simp; omega, by simp⟩, rfl⟩

theorem cellsFrom_addr (a : Nat) (bs : Bytes) (x : Host.Cell) (h : x ∈ cellsFrom a bs) :
    ∃ i < 16, x.1 = (a + i) % 2 ^ 64 := by
  obtain ⟨⟨i, b⟩, hz, rfl⟩ := List.mem_map.1 h
  exact ⟨i, List.mem_range.1 (List.of_mem_zip hz).1, rfl⟩

/-- Sixteen addresses in a row are distinct modulo 2^64. -/
theorem cellsFrom_nodup (a : Nat) (bs : Bytes) (h : bs.length = 16) : ((cellsFrom a bs).map (·.1)).Nodup := by
  have e : (cellsFrom a bs).map (·.1) = (List.range 16).map fun i => (a + i) % 2 ^ 64 := by
    rw [← List.map_fst_zip (l₁ := List.range 16) (l₂ := bs) (by simp [h])]
    simp [cellsFrom]
  rw [e]
  refine List.Nodup.map_on (fun i hi j hj hij => ?_) List.nodup_range
  rw [List.mem_range] at hi hj
  omega

/-! ### Loads, stores and pmod -/

/-- A core that runs no owner module reads firmware memory. -/
theorem State.coreRead_of_firmware {s : State} {c : Nat} (h : s.moduleOn c = false) (a : Nat) :
    s.coreRead c a = (List.range 16).map fun i => memRead s.service.helmMem ((a + i) % 2 ^ 64) := by
  rw [State.coreRead, if_neg (by simp [h])]

/-- A core that runs no owner module writes firmware memory. -/
theorem State.coreWrite_of_firmware {s : State} {c : Nat} (h : s.moduleOn c = false) (a : Nat) (bs : Bytes) :
    s.coreWrite c a bs =
      { s with service := { s.service with helmMem := writeCells s.service.helmMem (cellsFrom a bs) } } := by
  rw [State.coreWrite, if_neg (by simp [h]), writeCells, cellsFrom, List.foldl_map]

section
variable {s : State} {c : Nat}

/-- An access of a core that executes and runs no owner module is never denied. -/
theorem memOp_of_firmware (rs1 : BitVec 5) (off : BitVec 12) (store : Bool) (f : State → Nat → State) (h : Executes s c)
    (hmod : s.moduleOn c = false) (hf : ∀ a, (f s a).pending = s.pending) :
    memOp c rs1 off store f s = .next (f s ((s.core c).addr rs1 off)) := by
  obtain ⟨hc, hrun, hxs⟩ := h
  simp only [memOp, hrun, hxs, hmod, Bool.false_eq_true, ↓reduceIte]
  exact within_eq (decide_eq_true hc) (hf _)

/-- While XS is Off a load or store raises illegal-instruction (R378). -/
theorem memOp_off (rs1 : BitVec 5) (off : BitVec 12) (store : Bool) (f : State → Nat → State) (hc : c < 8)
    (hrun : (s.core c).stopped = false) (hxs : (s.core c).xs = 0) :
    memOp c rs1 off store f s = .next { s.raise c 2 (s.pcOf c) with pending := s.pending } := by
  simp only [memOp, hrun, hxs, within, done, hc, decide_true, Bool.false_eq_true, ↓reduceIte]

end

section
variable {s : State} {core : Nat}

theorem exec_vld_eq (rd rs1 : BitVec 5) (off : BitVec 12) : exec (.vld core rd rs1 off) s = memOp core rs1 off false
    (fun s a => s.modCore core fun C => C.setV rd (BitVec.ofNat 128 (fromLE (s.coreRead core a)))) s := rfl

theorem exec_vst_eq (rs2 rs1 : BitVec 5) (off : BitVec 12) : exec (.vst core rs2 rs1 off) s = memOp core rs1 off true
    (fun s a => s.coreWrite core a (le 16 ((s.core core).vreg rs2).toNat)) s := rfl

theorem exec_pmodWrite_next (h : Executes s core) (q : BitVec 64) :
    exec (.pmodWrite core q) s = .next (s.modCore core fun C => { C with
      xs := 3, pmod := if q.toNat % 2 = 1 ∧ 3 ≤ q.toNat ∧ q.toNat < 2 ^ 31 then q.setWidth 31 else 0 }) := by
  obtain ⟨hc, hrun, hxs⟩ := h
  have hmax : q.toNat ≤ 2 ^ 31 - 1 ↔ q.toNat < 2 ^ 31 := by omega
  calc exec (.pmodWrite core q) s = execPmodWrite core q s := rfl
    _ = _ := by
      rw [execPmodWrite, pelorus_next core _ _ s hc hrun hxs rfl]
      simp only [hmax, BitVec.ofNat_toNat]

theorem exec_vld_next (rd rs1 : BitVec 5) (off : BitVec 12) (h : Executes s core)
    (hmod : s.moduleOn core = false) :
    ∃ v, exec (.vld core rd rs1 off) s = .next (s.modCore core (·.setV rd v)) ∧
      ∀ i < 16, v.extractLsb' (8 * i) 8 = memRead s.service.helmMem (((s.core core).addr rs1 off + i) % 2 ^ 64) := by
  rw [exec_vld_eq, memOp_of_firmware rs1 off false _ h hmod fun _ => rfl]
  refine ⟨_, rfl, fun i hi => ?_⟩
  rw [State.coreRead_of_firmware hmod, fromLE_lane _ i (by simpa using hi) hi]
  simp

theorem exec_vst_next (rs2 rs1 : BitVec 5) (off : BitVec 12) (h : Executes s core)
    (hmod : s.moduleOn core = false) :
    exec (.vst core rs2 rs1 off) s = .next { s with service := { s.service with
      helmMem := writeCells s.service.helmMem
        (cellsFrom ((s.core core).addr rs1 off) (le 16 ((s.core core).vreg rs2).toNat)) } } := by
  rw [exec_vst_eq, memOp_of_firmware rs1 off true _ h hmod fun a => by rw [State.coreWrite_of_firmware hmod],
    State.coreWrite_of_firmware hmod]

end

/-- What a memory reads as after the 16 bytes of a register are written. -/
theorem memRead_writeCells_le (m : List Host.Cell) (a : Nat) (v : BitVec 128) (hm : memWf m = true) :
    (∀ i < 16, memRead (writeCells m (cellsFrom a (le 16 v.toNat))) ((a + i) % 2 ^ 64) = v.extractLsb' (8 * i) 8) ∧
      ∀ b, (∀ i < 16, b ≠ (a + i) % 2 ^ 64) → memRead (writeCells m (cellsFrom a (le 16 v.toNat))) b = memRead m b := by
  have hlen := le_length 16 v.toNat
  refine ⟨fun i hi => ?_, fun b hb => memRead_writeCells_out m _ b hm fun x hx => ?_⟩
  · have hi' : i < (le 16 v.toNat).length := by omega
    rw [← le_toNat_getElem v i hi']
    exact memRead_writeCells_in m _ _ hm (cellsFrom_nodup a _ hlen) (mem_cellsFrom a i _ hi hi')
  · obtain ⟨i, hi, e⟩ := cellsFrom_addr a _ x hx
    rw [e]
    exact hb i hi

/-! ### Traps -/

/-- An instruction on registers raises illegal-instruction while XS is Off and where its form is not allowed (R378). -/
theorem exec_traps {s : State} {core : Nat} (legal : Core → Bool) (hc : core < 8) (hrun : (s.core core).stopped = false)
    (h : (s.core core).xs = 0 ∨ legal (s.core core) = false) ⦃i : Instr⦄ ⦃f : Core → Core⦄
    (hi : exec i s = pelorus core legal f s) :
    exec i s = .next { s.raise core 2 (s.pcOf core) with pending := s.pending } :=
  hi.trans (pelorus_illegal core legal f s hc hrun h)

/-- Settles O4: a load reads and a store writes the sixteen distinct addresses of `cellsFrom`, and a form that is not
allowed is one whose `legal` fails (`exec_traps`). -/
theorem pelorusMemoryModulusAndTraps : Obligations.PelorusMemoryModulusAndTraps := by
  unfold Obligations.PelorusMemoryModulusAndTraps
  refine ⟨fun s core rd rs1 rs2 off q h => ⟨exec_pmodWrite_next h q, fun hmod hm => ?memory, rfl⟩,
    fun s core rd rs1 rs2 w hc hrun => ⟨fun hxs => ?xsOff, fun hw => ?logicForm, fun hw => ?shuffleForm,
      fun hw => ?complexForm, fun hw => ?realForm, fun hrs2 => ?unusedField, fun hidx => ?elementIndex,
      fun hmod => ?modularForm⟩⟩
  case memory =>
    obtain ⟨hin, hout⟩ := memRead_writeCells_le s.service.helmMem ((s.core core).addr rs1 off) ((s.core core).vreg rs2) hm
    exact ⟨exec_vld_next rd rs1 off h hmod, _, exec_vst_next rs2 rs1 off h hmod, writeCells_wf _ _ hm, hin, hout⟩
  case xsOff =>
    have any := exec_traps (fun _ => true) hc hrun (.inl hxs)
    have modular := exec_traps (fun C => w == 2 && C.pmod != 0 && true) hc hrun (.inl hxs)
    refine ⟨any rfl, ?_, ?_, any rfl, modular rfl⟩
    · rw [exec_vld_eq, memOp_off rs1 0 false _ hc hrun hxs]
    · rw [exec_vst_eq, memOp_off rs1 0 true _ hc hrun hxs]
  case logicForm =>
    have hl : (w == 3) = false := beq_false_of_ne hw
    have logic := exec_traps (fun _ => w == 3) hc hrun (.inr hl)
    have move := exec_traps (fun _ => w == 3 && rs2 == 0) hc hrun (.inr (Bool.and_eq_false_iff.2 (.inl hl)))
    exact ⟨logic rfl, logic rfl, logic rfl, logic rfl, move rfl⟩
  case shuffleForm => exact exec_traps (fun _ => w == 0) hc hrun (.inr (beq_false_of_ne hw)) rfl
  case complexForm =>
    have hl : complexW w = false := by simp [complexW, hw]
    have complex := exec_traps (fun _ => complexW w) hc hrun (.inr hl)
    have conj := exec_traps (fun _ => complexW w && rs2 == 0) hc hrun (.inr (Bool.and_eq_false_iff.2 (.inl hl)))
    exact ⟨complex rfl, complex rfl, conj rfl⟩
  case realForm =>
    have hl : realW w = false := hw
    have real := exec_traps (fun _ => realW w) hc hrun (.inr hl)
    have convert := exec_traps (fun _ => realW w && rs2 == 0) hc hrun (.inr (Bool.and_eq_false_iff.2 (.inl hl)))
    exact ⟨real rfl, real rfl, real rfl, real rfl, convert rfl, convert rfl⟩
  case unusedField =>
    have hl : (rs2 == 0) = false := beq_false_of_ne hrs2
    have unary (b : Core → Bool) := exec_traps (fun C => b C && rs2 == 0) hc hrun (.inr (Bool.and_eq_false_iff.2 (.inr hl)))
    exact ⟨unary (fun _ => w == 3) rfl, exec_traps (fun _ => rs2 == 0) hc hrun (.inr hl) rfl, unary (fun _ => complexW w) rfl,
      unary (fun _ => realW w) rfl, unary (fun _ => realW w) rfl, unary (fun C => w == 2 && C.pmod != 0) rfl⟩
  case elementIndex =>
    have index := exec_traps (fun _ => decide (rs2.toNat < 128 / elemBits w)) hc hrun
      (.inr (decide_eq_false (Nat.not_lt.2 hidx)))
    exact ⟨index rfl, index rfl⟩
  case modularForm =>
    have hl : (w == 2 && (s.core core).pmod != 0) = false :=
      Bool.and_eq_false_iff.2 (hmod.imp beq_false_of_ne bne_eq_false_iff_eq.2)
    have modular (b : Bool) := exec_traps (fun C => w == 2 && C.pmod != 0 && b) hc hrun
      (.inr (Bool.and_eq_false_iff.2 (.inl hl)))
    exact ⟨modular true rfl, exec_traps (fun C => w == 2 && C.pmod != 0) hc hrun (.inr hl) rfl, modular true rfl,
      modular true rfl, modular (rs2 == 0) rfl⟩

end Sys2Proof.Machine
end

section
/-! PROOF. The configuration of the fault sources: what the resets load, and which writes of FLT.CFG are accepted
(18_faults_safety.md R418). -/

namespace Sys2Proof.Machine

/-! ### What the resets load -/

@[simp] theorem State.deviceReset_src (s : State) (n : Nat) : s.deviceReset.src n = srcDefault n := rfl
@[simp] theorem State.landfallReset_src (s : State) (n : Nat) : s.landfallReset.src n = srcDefault n := rfl
@[simp] theorem State.powerOnReset_src (s : State) (strap : Bool) (smb n : Nat) :
    (s.powerOnReset strap smb).src n = srcDefault n := rfl

theorem managedBoot_on {s t : State} (hblock : s.boot.ready = true ∨ s.boot.landfall = true)
    (hd3 : s.host.d3hot = false) : managedBoot s t = t := by
  simp [managedBoot, hblock, hd3]

theorem pulseTaken_of_least_le {width glitch least draw : Nat} (h : least ≤ width) :
    pulseTaken width glitch least draw = true := by
  simp [pulseTaken, h]

theorem exec_deviceReset_eq {s : State} (hblock : s.boot.ready = true ∨ s.boot.landfall = true)
    (hd3 : s.host.d3hot = false) : exec .deviceReset s = .next s.deviceReset := by
  change done s (managedBoot s s.deviceReset) = _
  rw [managedBoot_on hblock hd3]
  exact done_eq rfl

theorem exec_landfallReset_eq {s : State} (hblock : s.boot.ready = true ∨ s.boot.landfall = true)
    (hd3 : s.host.d3hot = false) : exec .landfallReset s = .next s.landfallReset := by
  change done s (managedBoot s s.landfallReset) = _
  rw [managedBoot_on hblock hd3]
  exact done_eq rfl

theorem exec_porNAssert_eq {w : Nat} (h : 10000 ≤ w) (strap : Bool) (smb : Nat) (s : State) :
    exec (.porNAssert w strap smb) s = .next (s.powerOnReset strap smb) := by
  change done s (if pulseTaken w 1000 10000 s.draws then s.powerOnReset strap smb else s) = _
  rw [if_pos (pulseTaken_of_least_le h)]
  exact done_eq rfl

theorem exec_perstNAssert_eq {w : Nat} (h : 100000 ≤ w) (strap : Bool) (s : State) :
    exec (.perstNAssert w strap) s =
      .next { s.deviceReset with pins := { s.deviceReset.pins with strap := strap } } := by
  change done s (if pulseTaken w 1000 100000 s.draws then
    { s.deviceReset with pins := { s.deviceReset.pins with strap := strap } } else s) = _
  rw [if_pos (pulseTaken_of_least_le h)]
  exact done_eq rfl

theorem srcDefault_n (n : Nat) :
    (srcDefault n).n = if n = 138 then 4 else if (224 ≤ n ∧ n ≤ 287) ∨ n = 385 then 64 else 16 := by
  simp only [srcDefault, apply_ite Source.n]
  split_ifs <;> omega

theorem srcDefault_w (n : Nat) : (srcDefault n).w = if n = 385 then 1 else 1000 := by
  simp only [srcDefault, apply_ite Source.w]
  split_ifs <;> omega

theorem srcDefault_action (n : Nat) :
    (srcDefault n).action = if n = 138 then 2 else if hasA n then 1 else 2 := by
  by_cases h385 : n = 385
  · subst h385
    rfl
  · simp only [srcDefault, h385, if_false]
    split_ifs <;> rfl

/-! ### The fields of FLT.CFG -/

/-- The word of FLT.CFG with the fields N, W and ACTION (R418). -/
abbrev fltCfgWord (N W A : Nat) : BitVec 32 := BitVec.ofNat 32 (N + 2 ^ 8 * W + 2 ^ 24 * A)

theorem fltCfgWord_fields {N W A : Nat} (hN : N ≤ 255) (hW : W ≤ 65535) (hA : A ≤ 2) :
    bitsOf (fltCfgWord N W A).toNat 7 0 = N ∧ bitsOf (fltCfgWord N W A).toNat 23 8 = W ∧
      bitsOf (fltCfgWord N W A).toNat 25 24 = A := by
  have hword : (fltCfgWord N W A).toNat = N + 2 ^ 8 * W + 2 ^ 24 * A := by
    rw [BitVec.toNat_ofNat]
    omega
  simp only [hword, bitsOf, Nat.shiftRight_eq_div_pow]
  omega

/-! ### Which writes are accepted -/

theorem bitOf_toNat {w : Nat} (x : BitVec w) (i : Nat) : bitOf x.toNat i = x.getLsbD i := by
  rw [bitOf, BitVec.getLsbD, Nat.testBit_eq_decide_div_mod_eq, Nat.shiftRight_eq_div_pow]
  rfl

theorem State.scope_iff (s : State) (i : Nat) :
    s.scope i = true ↔ s.lc.state = .raw ∨ s.lc.grant.getLsbD i = true := by
  simp [State.scope, bitOf_toNat]

/-- The device accepts every value of FLT.CFG in range: in RAW, TEST and RETURNED, and under FAULT_CONFIG (R418). -/
abbrev State.CfgFree (s : State) : Prop :=
  s.lc.state = .raw ∨ s.lc.state = .test ∨ s.lc.state = .returned ∨ s.lc.grant.getLsbD 4 = true

/-- The values ask of a source at least what it asks now (R418). -/
abbrev Source.Stricter (S : Source) (N W A : Nat) : Prop := S.action ≤ A ∧ N ≤ S.n ∧ S.w ≤ W

/-- What a write of values in range does: the one decision of R418. -/
theorem State.fltCfg_fltCfgWord (s : State) (src : Nat) {N W A : Nat} (hN1 : 1 ≤ N) (hN : N ≤ 255) (hW1 : 1 ≤ W)
    (hW : W ≤ 65535) (hA : A ≤ 2) :
    s.fltCfg src (fltCfgWord N W A) =
      if s.CfgFree ∨ (s.src src).Stricter N W A then s.modSrc src fun S => { S with n := N, w := W, action := A }
      else { s with faults := { s.faults with cfgDen := true } } := by
  have hrange : ¬ (N = 0 ∨ W = 0 ∨ A = 3) := by omega
  have hfree : (s.lc.state = .raw ∨ s.lc.state = .test ∨ s.lc.state = .returned ∨ s.scope 4 = true) ↔ s.CfgFree := by
    rw [s.scope_iff 4]
    tauto
  obtain ⟨hn, hw, ha⟩ := fltCfgWord_fields hN hW hA
  simp only [State.fltCfg, hn, hw, ha, if_neg hrange, hfree]

/-- A write of FLT.CFG changes the collector alone. -/
theorem State.fltCfg_frame (s : State) (src : Nat) (v : BitVec 32) :
    s.fltCfg src v = { s with faults := (s.fltCfg src v).faults } := by
  simp only [State.fltCfg]
  split_ifs <;> rfl

/-- FLT_CFG_WRITE on a source that the variant has, in operation. -/
theorem exec_fltCfgWrite_eq {s : State} {src : Nat} (hsrc : src < 512) (hhas : s.hasSource src = true)
    (hbar : s.barOn 0 = true) (v : BitVec 32) : exec (.fltCfgWrite src v) s = .next (s.fltCfg src v) := by
  change within (decide (src < 512)) s (if s.hasSource src then managed s (s.fltCfg src v) else s) = _
  rw [if_pos hhas, managed_on hbar]
  exact within_eq (decide_eq_true hsrc) (congrArg State.pending (s.fltCfg_frame src v) :)

/-- A disposition depends on the state only through the jobs in flight. -/
theorem dispOf_congr {s t : State} (h : t.jobs = s.jobs) (src sub : Nat) (job : Option Nat) :
    dispOf t src sub job = dispOf s src sub job := by
  have hal2 : al2Disp t job = al2Disp s job := by
    have hjob : t.job? = s.job? := funext fun j => congrArg (tget · j) h
    rw [al2Disp, al2Disp, hjob]
  simp only [dispOf, hal2]

/-- Settles O22: each reset leaves every source unlisted in the table, so at `srcDefault`; a write of values in range takes
the one decision of `fltCfg_fltCfgWord`, and no write touches the jobs, on which alone a disposition depends. -/
theorem sourceConfigurationOnlyGetsStricter : Obligations.SourceConfigurationOnlyGetsStricter := by
  unfold Obligations.SourceConfigurationOnlyGetsStricter
  refine ⟨fun s hblock hd3 cmd hcmd => ?managerReset, fun s w smb strap => ⟨fun hw => ?power, fun hw => ?perst⟩,
    fun s src N W A v hsrc hhas hbar hN1 hN hW1 hW hA hv => ?write⟩
  case managerReset =>
    have hdefault (n : Nat) := And.intro (srcDefault_n n) (And.intro (srcDefault_w n) (srcDefault_action n))
    rcases List.mem_pair.1 hcmd with rfl | rfl
    · exact ⟨_, exec_deviceReset_eq hblock hd3, fun n _ => hdefault n⟩
    · exact ⟨_, exec_landfallReset_eq hblock hd3, fun n _ => hdefault n⟩
  case power => exact ⟨_, exec_porNAssert_eq hw strap smb s, s.powerOnReset_src strap smb⟩
  case perst => exact ⟨_, exec_perstNAssert_eq hw strap s, s.deviceReset_src⟩
  case write =>
    subst hv
    intro S stricter anyState
    have hexec := exec_fltCfgWrite_eq hsrc hhas hbar (fltCfgWord N W A)
    have hcfg := s.fltCfg_fltCfgWord src hN1 hN hW1 hW hA
    refine ⟨fun hok => ?accepted, fun hstate hweaker => ?denied, fun t ht m sub job => ?disposition⟩
    case accepted => rw [hexec, hcfg, if_pos hok]
    case denied => rw [hexec, hcfg, if_neg (not_or.2 ⟨hstate, hweaker⟩)]
    case disposition =>
      cases hexec.symm.trans ht
      exact dispOf_congr (congrArg State.jobs (s.fltCfg_frame src _)) m sub job

end Sys2Proof.Machine
end

section
/-! PROOF. What reporting leaves alone: the logbook, the event registers, interrupt messages and progress
(15_logbook_attestation.md R353-R361; 22_registers.md R480, R481; 20_boot_landfall.md R467). -/

namespace Sys2Proof.Machine

/-- `t` is `s` after reports: the logbook and its sealed records, plain registers, interrupt messages with their pending
bits, and progress may differ; everything else is as it was. -/
def Reports (s t : State) : Prop :=
  t = { s with
    log := t.log, pmem := t.pmem, regs := t.regs, fns := t.fns, outbox := t.outbox, progress := t.progress,
    cluster := { s.cluster with tetherOut := t.cluster.tetherOut } }

theorem Reports.trans {s t u : State} (hst : Reports s t) (htu : Reports t u) : Reports s u := by
  unfold Reports at *
  rw [htu, hst]

theorem Reports.after {s t u : State} (htu : Reports t u) (hst : Reports s t) : Reports s u := hst.trans htu

section
variable {s t : State} (h : Reports s t)
include h

theorem Reports.eq : t = { s with
    log := t.log, pmem := t.pmem, regs := t.regs, fns := t.fns, outbox := t.outbox, progress := t.progress,
    cluster := { s.cluster with tetherOut := t.cluster.tetherOut } } := h

theorem Reports.lc : t.lc = s.lc := (congrArg State.lc h.eq :)
theorem Reports.pins : t.pins = s.pins := (congrArg State.pins h.eq :)
theorem Reports.chart : t.chart = s.chart := (congrArg State.chart h.eq :)
theorem Reports.tiles : t.tiles = s.tiles := (congrArg State.tiles h.eq :)
theorem Reports.jobs : t.jobs = s.jobs := (congrArg State.jobs h.eq :)
theorem Reports.keys : t.keys = s.keys := (congrArg State.keys h.eq :)
theorem Reports.hostMem : t.hostMem = s.hostMem := (congrArg State.hostMem h.eq :)
theorem Reports.draws : t.draws = s.draws := (congrArg State.draws h.eq :)

theorem Reports.exists : ∃ l p r f o g c, t = { s with
    log := l, pmem := p, regs := r, fns := f, outbox := o, progress := g, cluster := { s.cluster with tetherOut := c } } :=
  ⟨_, _, _, _, _, _, _, h⟩

end

/-! ### Messages and progress -/

theorem State.msix_reports (s : State) (f v : Nat) : Reports s (s.msix f v) := by
  unfold State.msix
  split
  · rfl
  · split <;> rfl

theorem State.setReg_reports (s : State) (o v : Nat) : Reports s (s.setReg o v) := rfl

theorem State.glbEvent_reports (s : State) (b : Nat) : Reports s (s.glbEvent b) :=
  (s.setReg_reports _ _).trans (State.msix_reports _ _ _)

theorem State.vfEvent_reports (s : State) (f b : Nat) : Reports s (s.vfEvent f b) :=
  (s.setReg_reports _ _).trans (State.msix_reports _ _ _)

theorem State.opEnd_reports (s : State) (op f : Nat) : Reports s (s.opEnd op f) := by
  unfold State.opEnd
  split <;> rfl

/-! ### The logbook -/

theorem State.putRecord_reports (s : State) (type r flags : Nat) (body : Bytes) :
    Reports s (s.putRecord type r flags body) := by
  simp only [State.putRecord]
  split
  · exact (State.glbEvent_reports _ _).after rfl
  · rfl

theorem State.writeRecord_reports (s : State) (type r flags : Nat) (body : Bytes) :
    Reports s (s.writeRecord type r flags body) := by
  unfold State.writeRecord
  split
  · split
    · exact s.putRecord_reports type r flags body
    · next first n _ =>
      have hloss : Reports s ({ s with log := { s.log with gapFirst := none } }.putRecord 0x00F1 r 0 (le 8 first ++ le 8 n)) :=
        (State.putRecord_reports _ _ _ _ _).after rfl
      dsimp only
      split
      · exact hloss.trans (State.putRecord_reports _ _ _ _ _)
      · exact hloss.trans rfl
  · rfl

theorem State.roll_reports (s : State) (r : Nat) : Reports s (s.roll r) :=
  (State.writeRecord_reports _ _ _ _ _).after rfl

theorem State.logEvent_reports (s : State) (r type : Nat) (body : Bytes) : Reports s (s.logEvent r type body) := by
  have hextend (u : State) : Reports u ((u.extendBy r body).writeRecord type r 0 body) :=
    (State.writeRecord_reports _ _ _ _ _).after rfl
  unfold State.logEvent
  split
  · exact s.writeRecord_reports type r 1 body
  · split
    · exact (s.roll_reports r).trans (hextend _)
    · exact hextend s

theorem State.ownerEvent_reports (s : State) (r old new : Nat) : Reports s (s.ownerEvent r old new) := by
  simp only [State.ownerEvent]
  split
  · exact s.writeRecord_reports _ _ _ _
  · exact (State.writeRecord_reports _ _ _ _ _).after rfl

theorem State.logWork_reports (s : State) (r : Nat) (w : LogWork) : Reports s (s.logWork r w) := by
  cases w with
  | roll =>
    simp only [State.logWork]
    split
    · rfl
    · exact s.roll_reports r
  | ownerChange old new => exact s.ownerEvent_reports r old new
  | extend data => rfl
  | event type body => exact s.logEvent_reports r type body

theorem State.openBarriers_reports (s : State) (r : Nat) (b : List (List Nat × LogWork)) :
    Reports s (s.openBarriers r b) := by
  induction b generalizing s with
  | nil => rfl
  | cons e b ih =>
    obtain ⟨ws, x⟩ := e
    cases ws with
    | nil => exact (s.logWork_reports r x).trans (ih _)
    | cons w ws => rfl

theorem State.logUnreserve_reports (s : State) (r j : Nat) : Reports s (s.logUnreserve r j) :=
  (State.openBarriers_reports _ _ _).after rfl

/-! ### What a device event writes in its register -/

theorem State.msix_log (s : State) (f v : Nat) : (s.msix f v).log = s.log := by
  unfold State.msix
  split
  · rfl
  · split <;> rfl

theorem State.putRecord_regs (s : State) (type r flags : Nat) (body : Bytes) :
    (s.putRecord type r flags body).log.regs = s.log.regs := by
  simp only [State.putRecord]
  split
  · simp [State.glbEvent, State.msix_log, State.setBits]
  · rfl

theorem State.writeRecord_regs (s : State) (type r flags : Nat) (body : Bytes) :
    (s.writeRecord type r flags body).log.regs = s.log.regs := by
  unfold State.writeRecord
  split
  · split
    · exact s.putRecord_regs type r flags body
    · dsimp only
      split
      · rw [State.putRecord_regs, State.putRecord_regs]
      · exact State.putRecord_regs _ _ _ _ _
  · rfl

/-- An event extends its register, which is not full, by the body of its record (R355, R356). -/
theorem State.logEvent_logReg_of_not_full {s : State} {r : Nat} (h : s.logFull r = false) (type : Nat) (body : Bytes) :
    (s.logEvent r type body).logReg r =
      { s.logReg r with count := (s.logReg r).count + 1, value := sha384 ((s.logReg r).value ++ body) } := by
  have hregs := (s.extendBy r body).writeRecord_regs type r 0 body
  calc (s.logEvent r type body).logReg r = ((s.extendBy r body).writeRecord type r 0 body).logReg r := by
        simp [State.logEvent, State.logFrozen, h]
    _ = (s.extendBy r body).logReg r := by rw [State.logReg, hregs, ← State.logReg]
    _ = _ := s.modLog_logReg_same r _

end Sys2Proof.Machine
end

section
/-! PROOF. What keeps the life cycle: the collector, the end of a job and its completion, and the stop of an owner module
write no field of it (chapter 19, R443). -/

namespace Sys2Proof.Machine

theorem ite_lc (p : Prop) [Decidable p] (s t : State) : (if p then s else t).lc = if p then s.lc else t.lc :=
  apply_ite State.lc p s t

/-- A sequence of operations none of which changes a field leaves it alone. -/
theorem eachOf_keeps {α : Type} (field : State → α) (l : List Nat) (f : State → Nat → State)
    (hf : ∀ t n, field (f t n) = field t) (s : State) : field (eachOf l f s) = field s := by
  induction l generalizing s with
  | nil => rfl
  | cons n l ih => exact (ih (f s n)).trans (hf s n)

@[simp] theorem eachOf_lc (l : List Nat) (f : State → Nat → State) (hf : ∀ t n, (f t n).lc = t.lc) (s : State) :
    (eachOf l f s).lc = s.lc := eachOf_keeps State.lc l f hf s

/-! ### Messages, memory and the logbook -/

@[simp] theorem State.msix_lc (s : State) (f v : Nat) : (s.msix f v).lc = s.lc := (s.msix_reports f v).lc
@[simp] theorem State.glbEvent_lc (s : State) (b : Nat) : (s.glbEvent b).lc = s.lc := (s.glbEvent_reports b).lc
@[simp] theorem State.vfEvent_lc (s : State) (f b : Nat) : (s.vfEvent f b).lc = s.lc := (s.vfEvent_reports f b).lc
@[simp] theorem State.opEnd_lc (s : State) (op f : Nat) : (s.opEnd op f).lc = s.lc := (s.opEnd_reports op f).lc
@[simp] theorem State.bump_lc (s : State) (o : Nat) : (s.bump o).lc = s.lc := rfl

@[simp] theorem State.logEvent_lc (s : State) (r type : Nat) (body : Bytes) : (s.logEvent r type body).lc = s.lc :=
  (s.logEvent_reports r type body).lc

@[simp] theorem State.logUnreserve_lc (s : State) (r j : Nat) : (s.logUnreserve r j).lc = s.lc :=
  (s.logUnreserve_reports r j).lc

@[simp] theorem State.wr_lc (s : State) (m : Option Nat) (a : Nat) (bs : Bytes) : (s.wr m a bs).lc = s.lc := by
  cases m with
  | none => simp only [State.wr, State.hostWrite]; split <;> rfl
  | some k => rfl

@[simp] theorem State.zeroFill_lc (s : State) (m : Option Nat) (dst n : Nat) : (s.zeroFill m dst n).1.lc = s.lc := by
  unfold State.zeroFill
  split <;> simp

/-! ### The end of a job -/

@[simp] theorem State.markInj_lc (s : State) (j : Nat) (inj : Bool) : (s.markInj j inj).lc = s.lc := by
  simp [State.markInj, ite_lc]

@[simp] theorem State.movePending_lc (s : State) (i : Nat) (J : Job) (K : Option Job) :
    (s.movePending i J K).lc = s.lc := by
  simp only [State.movePending]
  split <;> rfl

@[simp] theorem State.passCommit_lc (s : State) (j : Nat) (J : Job) : (s.passCommit j J).lc = s.lc := by
  unfold State.passCommit
  split
  · rfl
  · split
    · rfl
    · dsimp only
      split
      · simp
      · rw [eachOf_lc _ _ fun t k => State.modJob_lc t k _, State.movePending_lc]

@[simp] theorem State.treeEnds_lc (s : State) (J : Job) : (s.treeEnds J).lc = s.lc := by
  unfold State.treeEnds
  split <;> rfl

@[simp] theorem State.scrubCores_lc (s : State) (J : Job) : (s.scrubCores J).lc = s.lc :=
  eachOf_lc _ _ (fun t c => State.modCore_lc t c _) s

@[simp] theorem State.settleTile_lc (s : State) (n : Nat) : (s.settleTile n).lc = s.lc := State.modTile_lc s n _

@[simp] theorem State.endJob_lc (s : State) (j status result : Nat) (ret : Bytes) :
    (s.endJob j status result ret).lc = s.lc := by
  unfold State.endJob
  split
  · rfl
  · split
    · rfl
    · cases Job.logRes _ <;> simp [ite_lc]

@[simp] theorem State.abandonChain_lc (s : State) (j : Nat) : (s.abandonChain j).lc = s.lc := by
  unfold State.abandonChain
  split
  · split <;> simp [ite_lc]
  · rfl

@[simp] theorem State.stopJob_lc (s : State) (j : Nat) (req : Request) : (s.stopJob j req).lc = s.lc := by
  unfold State.stopJob
  split <;> simp [ite_lc]

@[simp] theorem State.abortJob_lc (s : State) (j : Nat) : (s.abortJob j).lc = s.lc := s.stopJob_lc j .abort

@[simp] theorem State.dropJob_lc (s : State) (j : Nat) : (s.dropJob j).lc = s.lc := rfl

/-! ### Owner modules -/

@[simp] theorem State.flushReplies_lc (s : State) : s.flushReplies.lc = s.lc := by
  unfold State.flushReplies
  split <;> simp [ite_lc, State.mboxStore]

@[simp] theorem State.moduleState_lc (s : State) (m state : Nat) : (s.moduleState m state).lc = s.lc := by
  simp [State.moduleState, State.runtimeSays, ite_lc]

@[simp] theorem State.stopModule_lc (s : State) (m state cause addr : Nat) :
    (s.stopModule m state cause addr).lc = s.lc := by
  simp only [State.stopModule]
  split <;> simp

@[simp] theorem State.stopCommand_lc (s : State) (m : Nat) : (s.stopCommand m).lc = s.lc := by
  simp [State.stopCommand, ite_lc]

/-! ### Quiesces and background commands -/

@[simp] theorem State.quiesce_lc (s : State) (f : Nat) (abort : Bool) (job : Option Nat) :
    (s.quiesce f abort job).lc = s.lc := by
  refine (eachOf_lc _ _ (fun u j => ?_) _).trans (eachOf_lc _ _ (fun u q => u.modQueue_lc q _) s)
  split <;> simp [ite_lc]

@[simp] theorem State.notifyNow_lc (s : State) (q : Nat) : (s.notifyNow q).lc = s.lc := by simp [State.notifyNow]
@[simp] theorem State.endAdmin_lc (s : State) (j status result : Nat) (ret : Bytes) :
    (s.endAdmin j status result ret).lc = s.lc := s.endJob_lc j status result ret
@[simp] theorem State.liftBorrow_lc (s : State) (f : Nat) : (s.liftBorrow f).lc = s.lc := rfl

@[simp] theorem State.settleQuiesce_lc (s : State) (f : Nat) : (s.settleQuiesce f).lc = s.lc := by
  unfold State.settleQuiesce
  split
  · rfl
  · next z _ => cases z.job <;> simp [ite_lc]

/-! ### The collector -/

@[simp] theorem State.closeGate_lc (s : State) (g : Nat) (safe : Bool) : (s.closeGate g safe).lc = s.lc := rfl

@[simp] theorem State.safeJobs_lc (s : State) : s.safeJobs.lc = s.lc := by simp [State.safeJobs]

@[simp] theorem State.safeChart_lc (s : State) : s.safeChart.lc = s.lc := by
  unfold State.safeChart
  split
  · rfl
  · simp [eachOf_lc _ _ fun t n => State.modTile_lc t n _]

@[simp] theorem State.enterSafe_lc (s : State) (src sub id : Nat) (inj : Bool) :
    (s.enterSafe src sub id inj).lc = s.lc := by
  simp [State.enterSafe, ite_lc, eachOf_lc _ _ fun t g => State.closeGate_lc t g true,
    eachOf_lc _ _ fun t n => State.modTile_lc t n _, eachOf_lc _ _ fun t c => State.modCore_lc t c _,
    eachOf_lc _ _ fun t p => State.modPort_lc t p _]

@[simp] theorem State.newReact_lc (s : State) (src cls state : Nat) (inj : Bool) :
    (s.newReact src cls state inj).lc = s.lc := rfl

@[simp] theorem State.reactB_lc (s : State) (src sub : Nat) (inj : Bool) : (s.reactB src sub inj).lc = s.lc := by
  simp [State.reactB, ite_lc]

@[simp] theorem State.modReact_lc (s : State) (id : Nat) (f : Reaction → Reaction) : (s.modReact id f).lc = s.lc := by
  unfold State.modReact
  split <;> rfl

@[simp] theorem State.fenceTile_lc (s : State) (n reason : Nat) : (s.fenceTile n reason).lc = s.lc := by
  simp [State.fenceTile, State.stopTile]

@[simp] theorem State.fenceQuadrant_lc (s : State) (q : Nat) : (s.fenceQuadrant q).lc = s.lc := by
  simp [State.fenceQuadrant, ite_lc]

@[simp] theorem State.stopCore_lc (s : State) (c : Nat) (req : Request) : (s.stopCore c req).lc = s.lc := by
  simp [State.stopCore]

@[simp] theorem State.linkDown_lc (s : State) (k reason : Nat) : (s.linkDown k reason).lc = s.lc := by
  simp [State.linkDown, ite_lc]

@[simp] theorem State.fenceUnit_lc (s : State) (n aux reason : Nat) : (s.fenceUnit n aux reason).lc = s.lc := by
  simp [State.fenceUnit, ite_lc, State.fencePort, State.flushPort]

@[simp] theorem State.reactA_lc (s : State) (src sub aux : Nat) (inj : Bool) : (s.reactA src sub aux inj).lc = s.lc := by
  simp [State.reactA, ite_lc]

@[simp] theorem State.leaveFence_lc (s : State) (src : Nat) : (s.leaveFence src).lc = s.lc := by
  simp [State.leaveFence, ite_lc]

@[simp] theorem State.countStep_lc (s : State) (src sub aux : Nat) (inj : Bool) :
    (s.countStep src sub aux inj).lc = s.lc := by
  simp [State.countStep, ite_lc]

@[simp] theorem State.handle_lc (s : State) (src sub aux : Nat) (real inj dry : Bool) (job : Option Nat) :
    (s.handle src sub aux real inj dry job).lc = s.lc := by
  simp only [State.handle]
  split
  · simp [ite_lc]
  · split <;> simp [ite_lc]

@[simp] theorem State.event_lc (s : State) (src sub aux : Nat) (job : Option Nat) : (s.event src sub aux job).lc = s.lc :=
  s.handle_lc src sub aux true false false job

/-! ### The completion of a job -/

@[simp] theorem State.malformed_lc (s : State) (q reason : Nat) : (s.malformed q reason).lc = s.lc := by
  simp only [State.malformed, State.haltDevice, State.fenceQueue]
  cases (s.queue q).chain <;> simp [ite_lc]

@[simp] theorem State.notify_lc (s : State) (q : Nat) : (s.notify q).lc = s.lc := by simp [State.notify, ite_lc]

@[simp] theorem State.wakeModule_lc (s : State) (m code : Nat) : (s.wakeModule m code).lc = s.lc := by
  simp [State.wakeModule, ite_lc]

@[simp] theorem State.settleBg_lc (s : State) (j : Nat) : (s.settleBg j).lc = s.lc := by
  unfold State.settleBg
  split
  · rfl
  · split <;> simp [ite_lc]

@[simp] theorem State.settle_lc (s : State) : s.settle.lc = s.lc := by simp [State.settle]

@[simp] theorem State.countDone_lc (s : State) (J : Job) : (s.countDone J).lc = s.lc := by
  simp only [State.countDone]
  cases errOf J.status <;> simp [ite_lc]

@[simp] theorem State.countEnds_lc (s : State) (J : Job) (q : Nat) : (s.countEnds J q).lc = s.lc := by
  simp only [State.countEnds]
  split <;> rfl

@[simp] theorem State.complete_lc (s : State) (j : Nat) : (s.complete j).lc = s.lc := by
  unfold State.complete
  split
  · rfl
  · next J _ =>
    cases J.src with
    | internal => simp
    | ring q => cases h : (s.queue q).isModule <;> simp [ite_lc, h]

/-! ### The stop of every function (R442) -/

@[simp] theorem State.dropKeys_lc (s : State) (p : Nat) : (s.dropKeys p).lc = s.lc := State.modPartner_lc s p _

@[simp] theorem State.stopAll_lc (s : State) : s.stopAll.lc = s.lc := by simp [State.stopAll]

end Sys2Proof.Machine
end

section
/-! PROOF. Authorisation requests: which check refuses a request, and what one that passes does (chapter 19,
R445-R449). -/

namespace Sys2Proof.Machine

/-! ### The checks in their order (R448) -/

theorem firstFail_eq_none_iff (l : List (Nat × Bool)) : firstFail l = none ↔ ∀ x ∈ l, x.2 = true := by
  induction l with
  | nil => simp [firstFail]
  | cons e l ih =>
    obtain ⟨r, ok⟩ := e
    cases ok <;> simp [firstFail, ih]

/-- A request that is not refused is one that R436 or R449 allows. -/
theorem State.authAllowed_of_authRefused_none {s : State} {b : Bytes} {kind : Nat} (h : s.authRefused b kind = none) :
    s.authAllowed b kind = true :=
  (firstFail_eq_none_iff _).1 h (3, s.authAllowed b kind) (by simp)

/-! ### What a request does -/

section
variable {s : State} {now : Nat}

theorem exec_transition_eq (h : BootOn s) :
    exec (.transition now) s = done s ((s.at_ now).submitAuth (s.at_ now).lcBlock 1).1 := by
  change done s (managedBoot (s.at_ now) _) = _
  rw [managedBoot_on (s := s.at_ now) h.1 h.2]

theorem exec_debugGrant_eq (h : BootOn s) :
    exec (.debugGrant now) s = done s ((s.at_ now).submitAuth (s.at_ now).lcBlock 2).1 := by
  change done s (managedBoot (s.at_ now) _) = _
  rw [managedBoot_on (s := s.at_ now) h.1 h.2]

end

theorem State.submitAuth_of_refused {s : State} {b : Bytes} {kind r : Nat} (h : s.authRefused b kind = some r) :
    (s.submitAuth b kind).1 = RequestRefused s r := by
  unfold State.submitAuth
  rw [h]
  rfl

theorem State.submitAuth_of_transition {s : State} {b : Bytes} {l : LifeState} (h : s.authRefused b 1 = none)
    (htarget : lifeStates[leAt b 7 1]? = some l) : (s.submitAuth b 1).1 = s.transition b l := by
  unfold State.submitAuth
  rw [h]
  simp [authTarget, htarget]

theorem State.submitAuth_of_grant {s : State} {b : Bytes} (h : s.authRefused b 2 = none) :
    (s.submitAuth b 2).1 = s.grantDebug (leAt b 8 4) := by
  unfold State.submitAuth
  rw [h]
  rfl

/-! ### The layout of a block (R445) -/

/-- The block begins as one of its kind does: its length, MAGIC, VERSION and KIND. -/
def AuthHead (b : Bytes) (kind : Nat) : Prop :=
  96 ≤ b.length ∧ leAt b 0 4 = 0x48545541 ∧ leAt b 4 2 = 1 ∧ leAt b 6 1 = kind

theorem authHead_of_authFormat {b : Bytes} {kind : Nat} (h : authFormat b kind = true) : AuthHead b kind := by
  simp only [authFormat, Bool.and_eq_true, and_assoc, decide_eq_true_eq, beq_iff_eq] at h
  obtain ⟨hlen, -, hmagic, hversion, hkind, -⟩ := h
  exact ⟨hlen, hmagic, hversion, hkind⟩

theorem State.lcBlock_of_bad_length {s : State} (h : s.reg 0xE0058 < 96 ∨ 65536 < s.reg 0xE0058) : s.lcBlock = [] := by
  simp only [State.lcBlock]
  rw [if_pos (h.elim .inl fun h => .inr (.inl h))]

/-- A request of a wrong length, or one whose block does not say what it is, has no head of any kind. -/
theorem State.not_authHead {s : State} (h : s.reg 0xE0058 < 96 ∨ 65536 < s.reg 0xE0058 ∨ leAt s.lcBlock 0 4 ≠ 0x48545541 ∨
    leAt s.lcBlock 4 2 ≠ 1) (kind : Nat) : ¬ AuthHead s.lcBlock kind := by
  rintro ⟨hlen, hmagic, hversion, -⟩
  have hblock : s.lcBlock ≠ [] := List.ne_nil_of_length_pos (by omega)
  rcases h with hshort | hlong | h | h
  · exact hblock (State.lcBlock_of_bad_length (.inl hshort))
  · exact hblock (State.lcBlock_of_bad_length (.inr hlong))
  · exact h hmagic
  · exact h hversion

/-! ### Which signatures a request needs (R446) -/

theorem ownerSigned_of_no_owner_sigs {keys : List Bytes} {m : Nat} {b : Bytes} (h : leAt b 13 1 = 0) :
    ownerSigned keys m b = false := by
  have hnone (x : Bytes) : quorumKeys keys authLabel (b.take (authSigned b)) x 0 = [] := rfl
  simp [ownerSigned, h, hnone]
  omega

theorem State.vendorSigned_of_no_vendor_sig (s : State) {b : Bytes} (h : leAt b 12 1 = 0) : s.vendorSigned b = false := by
  simp [State.vendorSigned, h]

theorem lifeCode_of_lifeStates {n : Nat} {l : LifeState} (h : lifeStates[n]? = some l) : n = lifeCode l := by
  have hn : n < 7 := (List.getElem?_eq_some_iff.1 h).1
  interval_cases n <;> cases h <;> rfl

section
variable {s : State} {b : Bytes} {l : LifeState}

theorem State.needsVendor_transition_iff (hl : lifeStates[leAt b 7 1]? = some l) :
    s.needsVendor b 1 = true ↔
      l ∈ [LifeState.test, .provision, .owned] ∨ (l = .scrapped ∧ s.lc.state ≠ .owned ∧ s.lc.state ≠ .deployed) := by
  cases l <;> simp [State.needsVendor, authTarget, hl]

theorem State.needsOwner_transition_iff (hl : lifeStates[leAt b 7 1]? = some l) :
    s.needsOwner b 1 = true ↔
      l ∈ [LifeState.owned, .deployed, .returned] ∨ (l = .scrapped ∧ (s.lc.state = .owned ∨ s.lc.state = .deployed)) := by
  cases l <;> simp [State.needsOwner, authTarget, hl]

theorem State.needsOwner_debug_iff (s : State) (b : Bytes) :
    s.needsOwner b 2 = true ↔ s.lc.state = .owned ∨ s.lc.state = .deployed := by
  simp [State.needsOwner]

/-- A transition to OWNED, of state code 3, is checked against the keys in its owner data. -/
theorem State.ownerQuorum_of_owned (hl : lifeStates[leAt b 7 1]? = some .owned) :
    s.ownerQuorum b 1 = (ownerKeys (authOwner b), leAt b 2688 1) :=
  if_pos ⟨rfl, lifeCode_of_lifeStates hl⟩

theorem State.ownerQuorum_of_not_owned (hl : lifeStates[leAt b 7 1]? = some l) (hne : l ≠ .owned) :
    s.ownerQuorum b 1 = (s.lc.recovery, s.lc.quorumM) := by
  have hcode : leAt b 7 1 ≠ 3 := by
    rw [lifeCode_of_lifeStates hl]
    cases l <;> simp_all [lifeCode]
  exact if_neg fun h => hcode h.2

end

/-! ### The first check that fails (R448) -/

section
variable {s : State} {b : Bytes} {kind : Nat}

theorem State.authRefused_format (h : ¬ AuthHead b kind) : s.authRefused b kind = some 1 := by
  have hformat : authFormat b kind = false := Bool.eq_false_iff.2 (mt authHead_of_authFormat h)
  simp [State.authRefused, firstFail, hformat]

variable (hformat : authFormat b kind = true)
include hformat

theorem State.authRefused_challenge (h : sliceOf b 16 64 ≠ s.challenge) : s.authRefused b kind = some 2 := by
  simp [State.authRefused, firstFail, hformat, h]

variable (hchallenge : sliceOf b 16 64 = s.challenge)
include hchallenge

theorem State.authRefused_allowed (h : s.authAllowed b kind = false) : s.authRefused b kind = some 3 := by
  simp [State.authRefused, firstFail, hformat, hchallenge, h]

variable (hallowed : s.authAllowed b kind = true)
include hallowed

theorem State.authRefused_vendor (hneeds : s.needsVendor b kind = true) (h : s.vendorSigned b = false) :
    s.authRefused b kind = some 4 := by
  simp [State.authRefused, firstFail, hformat, hchallenge, hallowed, hneeds, h]

variable (hvendor : s.needsVendor b kind = false ∨ s.vendorSigned b = true)
include hvendor

theorem State.authRefused_owner (hneeds : s.needsOwner b kind = true) (h : leAt b 13 1 = 0) :
    s.authRefused b kind = some 5 := by
  have hv : (!s.needsVendor b kind || s.vendorSigned b) = true := by simpa using hvendor
  simp [State.authRefused, firstFail, hformat, hchallenge, hallowed, hv, hneeds, ownerSigned_of_no_owner_sigs h]

theorem State.authRefused_busy (hneeds : s.needsOwner b kind = false)
    (h : s.lc.busy = true ∨ s.time.elapsed < s.lc.refuseUntil) : s.authRefused b kind = some 6 := by
  have hv : (!s.needsVendor b kind || s.vendorSigned b) = true := by simpa using hvendor
  have hbusy : (!s.lc.busy && decide (s.lc.refuseUntil ≤ s.time.elapsed)) = false := by
    rcases h with h | h <;> simp [h]
  simp [State.authRefused, firstFail, hformat, hchallenge, hallowed, hv, hneeds, hbusy]

end

/-! ### What is not allowed (R436, R449) -/

theorem State.authAllowed_transition_of_no_step {s : State} {b : Bytes}
    (h : ∀ l, lifeStates[leAt b 7 1]? = some l → lifeStep s.lc.state l = false) : s.authAllowed b 1 = false := by
  cases hl : lifeStates[leAt b 7 1]? with
  | none => simp [State.authAllowed, authTarget, hl]
  | some l => simp [State.authAllowed, authTarget, hl, h l hl]

theorem State.authAllowed_debug_of_closed {s : State} {b : Bytes} (h : s.lc.state = .raw ∨ s.lc.state = .scrapped) :
    s.authAllowed b 2 = false := by
  rcases h with h | h <;> simp [State.authAllowed, h]

/-- The scopes of the states between PROVISION and DEPLOYED hold neither BINNACLE_DEBUG nor FACTORY_TEST. -/
theorem State.authAllowed_debug_of_scope {s : State} {b : Bytes}
    (hstate : s.lc.state = .deployed ∨ s.lc.state = .owned ∨ s.lc.state = .provision)
    (hscope : (leAt b 8 4).testBit 2 = true ∨ (leAt b 8 4).testBit 7 = true) : s.authAllowed b 2 = false := by
  have hallowed : scopeAllowed s.lc.state = 0x7B := by rcases hstate with h | h | h <;> rw [h] <;> rfl
  have hlost : leAt b 8 4 &&& 0x7B ≠ leAt b 8 4 := by
    intro h
    have hbit (i : Nat) (hi : (leAt b 8 4).testBit i = true) : Nat.testBit 0x7B i = true := by
      rw [← h, Nat.testBit_and, Bool.and_eq_true] at hi
      exact hi.2
    exact hscope.elim (fun h2 => absurd (hbit 2 h2) (by decide)) fun h7 => absurd (hbit 7 h7) (by decide)
  simp [State.authAllowed, hallowed, hlost]

end Sys2Proof.Machine
end

section
/-! PROOF. Debug grants, and the debug TAP (chapter 19, R449, R450). -/

namespace Sys2Proof.Machine

/-! ### A job that is aborted (R450) -/

/-- What a job has ended with. -/
def Job.outcome (J : Job) : Phase × Nat × Nat × Option JobOut := (J.phase, J.status, J.result, J.out)

theorem answered_of_outcome {t : State} {j status result : Nat}
    (h : (t.job? j).map Job.outcome = some (.ended, status, result, none)) : Answered t j status result := by
  obtain ⟨K, hK, hout⟩ := Option.map_eq_some_iff.1 h
  obtain ⟨hphase, hstatus, hresult, hnone⟩ := by simpa [Job.outcome] using hout
  exact ⟨K, hK, hphase, hstatus, hresult, hnone⟩

theorem State.job?_congr {s t : State} (h : t.jobs = s.jobs) (j : Nat) : t.job? j = s.job? j := by
  rw [State.job?, h, ← State.job?]

theorem State.movePending_jobs (s : State) (i : Nat) (J : Job) (K : Option Job) : (s.movePending i J K).jobs = s.jobs := by
  simp only [State.movePending]
  split <;> rfl

theorem State.treeEnds_jobs (s : State) (J : Job) : (s.treeEnds J).jobs = s.jobs := by
  unfold State.treeEnds
  split <;> rfl

theorem State.settleTile_jobs (s : State) (n : Nat) : (s.settleTile n).jobs = s.jobs := State.modTile_jobs s n _

theorem State.scrubCores_jobs (s : State) (J : Job) : (s.scrubCores J).jobs = s.jobs :=
  eachOf_keeps State.jobs _ _ (fun t c => State.modCore_jobs t c _) s

theorem eachOf_modJob_outcome (l : List Nat) (f : Nat → Job → Job) (hf : ∀ k J, (f k J).outcome = J.outcome)
    (s : State) (j : Nat) :
    ((eachOf l (fun u k => u.modJob k (f k)) s).job? j).map Job.outcome = (s.job? j).map Job.outcome := by
  induction l generalizing s with
  | nil => rfl
  | cons k l ih =>
    refine (ih (s.modJob k (f k))).trans ?_
    rw [State.modJob_job]
    split
    · cases s.job? j <;> simp [hf]
    · rfl

/-- Handing a commit on changes what no job has ended with. -/
theorem State.passCommit_outcome (s : State) (k : Nat) (J : Job) (j : Nat) :
    ((s.passCommit k J).job? j).map Job.outcome = (s.job? j).map Job.outcome := by
  unfold State.passCommit
  split
  · rfl
  · split
    · rfl
    · dsimp only
      split
      · rw [State.job?_congr (State.movePending_jobs _ _ _ _)]
      · rw [eachOf_modJob_outcome, State.job?_congr (State.movePending_jobs _ _ _ _)]
        intro k J
        split <;> rfl

theorem State.logUnreserve_job? (s : State) (r k j : Nat) : (s.logUnreserve r k).job? j = s.job? j :=
  State.job?_congr (s.logUnreserve_reports r k).jobs j

theorem ite_job? (p : Prop) [Decidable p] (s t : State) (j : Nat) :
    (if p then s else t).job? j = if p then s.job? j else t.job? j := apply_ite (·.job? j) p s t

/-- What the end of a job gives back changes what no job has ended with. -/
theorem State.afterEnd_outcome (s : State) (k : Nat) (J : Job) (j : Nat) :
    (((((s.freeSlots k).passCommit k J).scrubCores J).treeEnds J).job? j).map Job.outcome = (s.job? j).map Job.outcome := by
  rw [State.job?_congr (State.treeEnds_jobs _ J), State.job?_congr (State.scrubCores_jobs _ J), State.passCommit_outcome,
    State.job?_congr (State.freeSlots_jobs s k)]

/-- A job that has released nothing ends with the status and the result that it is given. -/
theorem State.endJob_answered {s : State} {j : Nat} {J : Job} (hJ : s.job? j = some J)
    (hlive : ¬ (J.phase = .ended ∨ J.phase = .delayed)) (hrel : J.released = 0) (status result : Nat) (ret : Bytes) :
    Answered (s.endJob j status result ret) j status result := by
  apply answered_of_outcome
  unfold State.endJob
  simp only [hJ]
  rw [if_neg hlive, if_pos (Or.inl hrel), State.job?_congr (eachOf_keeps State.jobs _ _ State.settleTile_jobs _)]
  cases J.logRes <;>
    simp only [ite_job?, State.logUnreserve_job?, ite_self, State.afterEnd_outcome, State.modJob_job, if_true, hJ] <;> rfl

/-- A staged job without steps is aborted at once. -/
theorem State.abortJob_answered {s : State} {j : Nat} {J : Job} (hJ : s.job? j = some J) (hphase : J.phase = .staged)
    (hend : J.atEnd = false) (hsteps : J.steps = []) (hrel : J.released = 0) :
    Answered (s.abortJob j) j St.aborted 0 := by
  have hlive : ¬ (J.phase = .ended ∨ J.phase = .delayed) := by simp [hphase]
  have hended := State.endJob_answered hJ hlive hrel St.aborted 0 []
  simp only [State.abortJob, State.stopJob, hJ]
  rw [if_neg (by simp [hphase, hend])]
  split
  · next hchain =>
    unfold State.abandonChain
    simp only [hJ]
    cases hsrc : J.src with
    | internal => simp [State.openChainOf, hsrc] at hchain
    | ring q =>
      obtain ⟨hopen, -⟩ := hchain
      simp only [State.openChainOf, hsrc] at hopen
      simp only [hopen, if_true]
      exact hended
  · rw [if_neg (by simp [Job.isRunning, hsteps])]
    exact hended

/-! ### The keys that a grant bars (R450) -/

theorem tget_eq_none_of_forall_ne {α : Type} {t : Table α} {k : Nat} (h : ∀ e ∈ t, e.1 ≠ k) : tget t k = none := by
  induction t with
  | nil => rfl
  | cons e t ih =>
    rw [List.forall_mem_cons] at h
    rw [tget, if_neg h.1, ih h.2]

theorem mem_of_tget {α : Type} {t : Table α} {k : Nat} {v : α} (h : tget t k = some v) : (k, v) ∈ t := by
  induction t with
  | nil => cases h
  | cons e t ih =>
    rw [tget] at h
    split at h
    · next hk => cases hk; cases h; exact List.mem_cons_self
    · exact List.mem_cons_of_mem _ (ih h)

/-- The key at an index is one that a debug grant bars (R206). -/
def State.noDebug (s : State) (k : Nat) : Bool := (s.key? k).any fun K => K.flags.getLsbD 0

theorem State.noDebug_of_key {s : State} {i : Nat} {K : Key} (hK : s.key? i = some K) (hflag : K.flags.getLsbD 0 = true) :
    s.noDebug i = true := by
  rw [State.noDebug, hK]
  exact hflag

theorem State.barDebugKeys_of_not_deployed {s : State} (h : s.lc.state ≠ .deployed) : s.barDebugKeys = s := if_pos h

@[simp] theorem State.barDebugKeys_lc (s : State) : s.barDebugKeys.lc = s.lc := by
  unfold State.barDebugKeys
  split
  · rfl
  · exact eachOf_lc _ _ State.abortJob_lc s

section
variable {s : State} (hstate : s.lc.state = .deployed) {i : Nat} {K : Key} (hK : s.key? i = some K)
  (hflag : K.flags.getLsbD 0 = true)
include hstate hK hflag

/-- In DEPLOYED the key cache drops every NO_DEBUG key. -/
theorem State.barDebugKeys_cache : tget s.barDebugKeys.keys.cache i = none := by
  unfold State.barDebugKeys
  rw [if_neg (not_not.2 hstate)]
  refine tget_eq_none_of_forall_ne fun e he hei => ?_
  have hbarred : i ∈ tkeys s.keys.live fun k _ => s.noDebug k :=
    List.mem_map.2 ⟨(i, K), List.mem_filter.2 ⟨mem_of_tget hK, State.noDebug_of_key hK hflag⟩, rfl⟩
  have hkept : (!(tkeys s.keys.live fun k _ => s.noDebug k).contains e.1) = true := (List.mem_filter.1 he).2
  simp [hei, hbarred] at hkept

/-- In DEPLOYED a staged job that pins a NO_DEBUG key is aborted. -/
theorem State.barDebugKeys_answered {j : Nat} {J : Job} (hjobs : s.jobs = [(j, J)]) (hpin : J.pin = some i)
    (hphase : J.phase = .staged) (hsteps : J.steps = []) (hrel : J.released = 0) (hend : J.atEnd = false) :
    Answered s.barDebugKeys j St.aborted 0 := by
  have hJ : s.job? j = some J := by simp [State.job?, hjobs, tget]
  have hpins : (tkeys s.jobs fun _ J => J.pin.any s.noDebug) = [j] := by
    simp [tkeys, hjobs, hpin, State.noDebug_of_key hK hflag]
  have haborted := State.abortJob_answered hJ hphase hend hsteps hrel
  have heq : s.barDebugKeys.jobs = (s.abortJob j).jobs := by
    unfold State.barDebugKeys
    rw [if_neg (not_not.2 hstate)]
    exact congrArg (fun l => (eachOf l State.abortJob s).jobs) hpins
  simpa only [Answered, State.job?_congr heq] using haborted

end

/-! ### A grant (R449, R450) -/

/-- A grant bars the keys, then reports itself in LOG[0], then opens its scope. -/
theorem State.grantDebug_steps (s : State) (scope : Nat) : ∃ t, Reports s.barDebugKeys t ∧
    (s.barDebugKeys.logFull 0 = false → t.logReg 0 = { s.barDebugKeys.logReg 0 with
      count := (s.barDebugKeys.logReg 0).count + 1,
      value := sha384 ((s.barDebugKeys.logReg 0).value ++ (sha384 s.challenge ++ le 4 scope)) }) ∧
    s.grantDebug scope = { t with
      lc := { s.lc with
        grant := s.lc.grant ||| BitVec.ofNat 32 scope, debugged := true, nonce := drbgBytes t.draws 32 },
      host := { t.host with sessions := [] }, draws := t.draws + 32 } := by
  have hreports := s.barDebugKeys.logEvent_reports 0 0x0003 (sha384 s.challenge ++ le 4 scope)
  refine ⟨_, hreports, fun h => State.logEvent_logReg_of_not_full h _ _, ?_⟩
  rw [← s.barDebugKeys_lc, ← hreports.lc]
  rfl

/-- A scope is open in RAW, and elsewhere by grant (R449). -/
theorem State.scope_eq (s : State) (bit : Nat) : s.scope bit = (s.lc.state == .raw || s.lc.grant.getLsbD bit) := by
  rw [State.scope, bitOf_toNat]

/-! ### The TAP (R438, R449, R451) -/

theorem exec_tapInstruction_authorise (s : State) (payload : Bytes) (now : Nat) :
    exec (.tapInstruction .authorise payload now) s = done s ((({ s.at_ now with
      boot := { (s.at_ now).boot with tap := TapInstr.authorise } } : State).submitAuth payload 2).1) := rfl

/-- Any other instruction shifts out what it reads, or nothing where it is not decoded. -/
theorem exec_tapInstruction_of_ne {ir : TapInstr} (h : ir ≠ .authorise) (s : State) (payload : Bytes) (now : Nat) :
    let u := s.at_ now
    let i := if u.tapDecodes ir then ir else .bypass
    let v : State := { u with boot := { u.boot with tap := i } }
    exec (.tapInstruction ir payload now) s = .next (v.emit (.tap (v.tapOut i))) := by
  intro u i v
  have hi : i ≠ .authorise := by
    simp only [i]
    split
    · exact h
    · decide
  change execTapInstruction ir payload now s = _
  unfold execTapInstruction
  dsimp only
  split
  · next h => exact absurd h hi
  · rfl

theorem State.factoryOpen_eq (s : State) : s.factoryOpen =
    (s.lc.state == .raw || ((s.lc.state == .test || s.lc.state == .returned) && s.lc.grant.getLsbD 7)) := by
  rw [State.factoryOpen, bitOf_toNat]

theorem leAt_le_zero {k : Nat} (hk : 0 < k) (n : Nat) : leAt (le k n) 0 1 = n % 256 := by
  cases k with
  | zero => contradiction
  | succ k => simp [leAt, sliceOf, le, fromLE]

/-- The low three bits of LC.STATE are the state code (R451). -/
theorem State.lcState_mod (s : State) : s.lcState % 256 % 8 = lifeCode s.lc.state := by
  have hcode : lifeCode s.lc.state < 8 := by cases s.lc.state <;> decide
  simp only [State.lcState]
  omega

/-- Settles O53: a request's refusal is the first failed check of R448 (the `authRefused_` lemmas, one for each line); a
grant is the three steps of `grantDebug_steps`; and the TAP shifts out what it decodes. -/
theorem requestsAreCheckedAndGrantsWiden : Obligations.RequestsAreCheckedAndGrantsWiden := by
  unfold Obligations.RequestsAreCheckedAndGrantsWiden
  refine ⟨fun s now hboot => ?refusals, fun s now hboot => ?grant, fun s payload now => ?tapRequest,
    fun s ir payload now hir => ?tapInstruction⟩
  case refusals =>
    intro u b refused
    have refuses {kind r : Nat} (h : u.authRefused b kind = some r) : refused kind r := by
      refine ⟨?_, ?_⟩
      · rintro rfl
        rw [exec_transition_eq hboot, State.submitAuth_of_refused h]
        rfl
      · rintro rfl
        rw [exec_debugGrant_eq hboot, State.submitAuth_of_refused h]
        rfl
    have misformed {kind : Nat} (h : ¬ AuthHead b kind) : refused kind 1 := refuses (State.authRefused_format h)
    refine ⟨fun h => ⟨misformed (u.not_authHead h 1), misformed (u.not_authHead h 2)⟩,
      fun l hl _ => ⟨State.needsVendor_transition_iff hl, State.needsOwner_transition_iff hl,
        fun howned => State.ownerQuorum_of_owned (howned ▸ hl), State.ownerQuorum_of_not_owned hl⟩,
      rfl, u.needsOwner_debug_iff b, fun h => misformed fun ⟨_, _, _, hkind⟩ => h hkind,
      fun h => misformed fun ⟨_, _, _, hkind⟩ => h hkind,
      fun kind _ hformat => ⟨fun h => refuses (State.authRefused_challenge hformat h), fun hchallenge => ?_⟩⟩
    have notAllowed (h : u.authAllowed b kind = false) : refused kind 3 :=
      refuses (State.authRefused_allowed hformat hchallenge h)
    refine ⟨?noStep, ?closed, ?scope, fun hallowed => ⟨fun hneeds h => ?vendor, fun hvendor =>
      ⟨fun hneeds h => ?owner, fun hneeds h => ?busy⟩⟩⟩
    case noStep =>
      rintro rfl h
      exact notAllowed (State.authAllowed_transition_of_no_step h)
    case closed =>
      rintro rfl h
      exact notAllowed (State.authAllowed_debug_of_closed h)
    case scope =>
      rintro rfl hstate hscope
      exact notAllowed (State.authAllowed_debug_of_scope hstate hscope)
    case vendor =>
      have hunsigned : u.vendorSigned b = false := h.elim u.vendorSigned_of_no_vendor_sig id
      exact refuses (State.authRefused_vendor hformat hchallenge hallowed hneeds hunsigned)
    case owner => exact refuses (State.authRefused_owner hformat hchallenge hallowed hvendor hneeds h)
    case busy => exact refuses (State.authRefused_busy hformat hchallenge hallowed hvendor hneeds h)
  case grant =>
    intro u hok
    obtain ⟨v, hv, hlog, hgrant⟩ := u.grantDebug_steps (leAt u.lcBlock 8 4)
    refine ⟨_, by rw [exec_debugGrant_eq hboot, State.submitAuth_of_grant hok, hgrant]; rfl, rfl, drbgBytes_length _ _, rfl,
      fun hstate => ?elsewhere, fun hstate i K hK hflag => ⟨?cache, fun j J hjobs hpin hphase hsteps hrel hend => ?jobs⟩⟩
    case elsewhere =>
      rw [State.barDebugKeys_of_not_deployed (s := u) hstate] at hv hlog
      exact ⟨hlog, congrArg (· + 32) hv.draws, hv.jobs, hv.keys, hv.tiles, hv.pins, hv.hostMem, hv.chart⟩
    case cache =>
      exact (congrArg (fun k : KeyStore => tget k.cache i) hv.keys).trans (State.barDebugKeys_cache (s := u) hstate hK hflag)
    case jobs =>
      obtain ⟨L, hL, hanswer⟩ := State.barDebugKeys_answered (s := u) hstate hK hflag hjobs hpin hphase hsteps hrel hend
      exact ⟨L, (State.job?_congr hv.jobs j).trans hL, hanswer⟩
  case tapRequest =>
    intro u v
    refine ⟨fun r h => ?_, fun h => ?_⟩
    · rw [exec_tapInstruction_authorise, State.submitAuth_of_refused h]
      rfl
    · obtain ⟨w, -, -, hgrant⟩ := v.grantDebug_steps (leAt payload 8 4)
      exact ⟨_, by rw [exec_tapInstruction_authorise, State.submitAuth_of_grant h, hgrant]; rfl, rfl, rfl, rfl⟩
  case tapInstruction =>
    intro u open_ decoded
    have hdecoded : u.tapDecodes ir = decoded := by
      cases ir with
      | samplePreload => exact u.scope_eq 0
      | extest => exact congrArg (· && s.faults.safe.on) (u.scope_eq 0)
      | helmDebug => exact u.scope_eq 1
      | binnacleDebug => exact u.scope_eq 2
      | tileDebug => exact u.scope_eq 3
      | factoryTest => exact u.factoryOpen_eq
      | idcode | bypass | authorise | readLcState | readDeviceId | readChallenge => rfl
    refine ⟨_, (exec_tapInstruction_of_ne hir s payload now).trans (by rw [hdecoded]), ?notDecoded, ?challenge, ?lcState⟩
    case notDecoded =>
      intro h
      rw [h]
      rfl
    case challenge =>
      rintro rfl
      rfl
    case lcState =>
      rintro rfl
      refine ⟨le_length 4 _, ?_⟩
      exact (congrArg (· % 8) (leAt_le_zero (by decide) _)).trans (State.lcState_mod _)

end Sys2Proof.Machine
end

section
/-! PROOF. Life-cycle transitions and the boot that completes one (chapter 19, R436-R444). -/

namespace Sys2Proof.Machine

/-! ### States and their codes (R436, R440, R441) -/

theorem lifeStep_iff (a b : LifeState) : lifeStep a b = true ↔
    (a, b) ∈ [(LifeState.raw, LifeState.test), (.test, .provision), (.provision, .owned), (.owned, .deployed),
      (.owned, .returned), (.deployed, .returned)] ∨ (a ≠ .scrapped ∧ b = .scrapped) := by
  cases a <;> cases b <;> decide

theorem lifeDecode_lifeOtp (l : LifeState) : lifeDecode (lifeOtp l) (lifeOtp l) (lifeOtp l) = (l, true) := by
  cases l <;> decide

theorem lifeOtp_of_lifeOfCopy {c : BitVec 128} {l : LifeState} (h : lifeOfCopy c = some l) : lifeOtp l = c := by
  simpa using List.find?_some h

/-- Copies that all agree on a state hold its code. -/
theorem eq_lifeOtp_of_lifeDecode {a b c : BitVec 128} {l : LifeState} (h : lifeDecode a b c = (l, true)) :
    a = lifeOtp l ∧ b = lifeOtp l ∧ c = lifeOtp l := by
  dsimp only [lifeDecode] at h
  split at h
  case h_2 => simp at h
  case h_1 l' hl =>
    obtain ⟨rfl, hagree⟩ := Prod.mk.inj h
    obtain ⟨rfl, rfl⟩ : a = b ∧ b = c := by simpa using hagree
    have hcopy : lifeOfCopy a = some l' := by
      cases hc : lifeOfCopy a with
      | none => simp [hc] at hl
      | some k => simpa [hc] using hl
    have hotp := (lifeOtp_of_lifeOfCopy hcopy).symm
    exact ⟨hotp, hotp, hotp⟩

theorem State.decodeLife_of_agree {s : State} {l : LifeState} (ha : s.lc.copyA = lifeOtp l) (hb : s.lc.copyB = lifeOtp l)
    (hc : s.lc.copyC = lifeOtp l) : s.decodeLife = { s with lc := { s.lc with state := l, allAgree := true } } := by
  simp [State.decodeLife, ha, hb, hc, lifeDecode_lifeOtp]

/-! ### The steps of a transition (R442) -/

/-- Steps 3 to 5 but for the record in LOG[0]: the target's steps have run, the three copies hold its code, and the intent
record is cleared. -/
def State.programmed (s : State) (i : Intent) : State :=
  let t := s.transitionSteps i.target i.owner
  let c := lifeOtp i.target
  { t with lc := { t.lc with copyA := c, copyB := c, copyC := c, intent := none } }

theorem State.finishTransition_reports (s : State) (i : Intent) : Reports (s.programmed i) (s.finishTransition i) := by
  let t := s.transitionSteps i.target i.owner
  let u : State := { t with lc := { t.lc with copyA := lifeOtp i.target, copyB := lifeOtp i.target, copyC := lifeOtp i.target } }
  have hlog := u.logEvent_reports 0 0x0002 (le 1 (lifeCode i.source) ++ le 1 (lifeCode i.target) ++ i.digest)
  exact congrArg (fun v : State => { v with lc := { v.lc with intent := none } }) hlog.eq

/-- The intent record of a request. -/
def State.intentOf (s : State) (b : Bytes) (l : LifeState) : Intent :=
  { source := s.lc.state, target := l, digest := sha384 b, owner := authOwner b }

/-- Steps 1 and 2: the functions have stopped and the intent record is written. -/
def State.begun (s : State) (b : Bytes) (l : LifeState) : State :=
  let t := (({ s with lc := { s.lc with busy := true } }.newNonce).opStart 0x0010 0 (s.transitionTotal l)).stopAll
  { t with lc := { t.lc with intent := some (s.intentOf b l) } }

theorem State.transition_eq (s : State) (b : Bytes) (l : LifeState) :
    s.transition b l = (((s.begun b l).finishTransition (s.intentOf b l)).opEnd 0x0010 0).deviceReset := rfl

theorem State.begun_lc (s : State) (b : Bytes) (l : LifeState) : (s.begun b l).lc =
    { s.lc with busy := true, nonce := drbgBytes s.draws 32, intent := some (s.intentOf b l) } := by
  simp only [State.begun, State.stopAll_lc]
  rfl

/-- No transition changes the device's ID or its thermometer. -/
theorem State.transitionSteps_identity (s : State) (l : LifeState) (owner : Bytes) :
    (s.transitionSteps l owner).lc.deviceId = s.lc.deviceId ∧
      (s.transitionSteps l owner).lc.thermometer = s.lc.thermometer := by
  cases l with
  | test => simp only [State.transitionSteps]; split <;> exact ⟨rfl, rfl⟩
  | raw | provision | owned | deployed | returned | scrapped => exact ⟨rfl, rfl⟩

/-- The transition to TEST programs a DUS where there is none. -/
theorem State.transitionSteps_test_dus (s : State) (owner : Bytes) :
    (s.transitionSteps .test owner).lc.dus.isSome ∧
      ∀ d, s.lc.dus = some d → (s.transitionSteps .test owner).lc.dus = some d := by
  simp only [State.transitionSteps]
  cases hdus : s.lc.dus <;> simp [hdus]

/-! ### The boot (R444) -/

/-- A boot completes a transition whose record and copies it finds in order. -/
theorem State.bootLife_of_intentOk {s : State} {i : Intent} (hi : s.lc.intent = some i) (hok : s.lc.intentOk i = true) :
    ∃ t, Reports (s.programmed i) t ∧ s.bootLife = { t.deviceReset with
      lc := { t.deviceReset.lc with resumed := true, state := i.target, allAgree := true } } := by
  have hreports := s.finishTransition_reports i
  obtain ⟨t, ht⟩ : ∃ t, t = s.finishTransition i := ⟨_, rfl⟩
  rw [← ht] at hreports
  have ha : t.lc.copyA = lifeOtp i.target := by rw [hreports.lc]; rfl
  have hb : t.lc.copyB = lifeOtp i.target := by rw [hreports.lc]; rfl
  have hc : t.lc.copyC = lifeOtp i.target := by rw [hreports.lc]; rfl
  have hlife : s.bootLife = { t.deviceReset with lc := { t.deviceReset.lc with resumed := true } }.decodeLife := by
    simp only [State.bootLife, hi, hok, if_true, ht]
  refine ⟨t, hreports, ?_⟩
  rw [hlife]
  exact State.decodeLife_of_agree ha hb hc

/-- A transition runs its steps on a device that has stopped with the intent record written, and resets what they leave. -/
theorem State.transition_spec (s : State) (b : Bytes) (l : LifeState) :
    ∃ v t : State, v.lc = { s.lc with busy := true, nonce := drbgBytes s.draws 32, intent := some (s.intentOf b l) } ∧
      Reports (v.programmed (s.intentOf b l)) t ∧ s.transition b l = t.deviceReset :=
  ⟨s.begun b l, _, s.begun_lc b l, (State.finishTransition_reports _ _).trans (State.opEnd_reports _ _ _),
    s.transition_eq b l⟩

/-- The device as its boot begins. -/
abbrev State.booting (s : State) : State := { s with boot := { s.boot with booted := true } }.toPhase 0

/-- With the strap set, a boot ends in Landfall mode after its first step: for SCRAPPED, else for the strap (R464). -/
theorem completes_boot_of_strap {s u : State} {env : BootEnv} (hbooted : s.boot.booted = false) (hnvs : env.nvsOk = true)
    (hlife : s.booting.bootLife = u) (hstrap : u.pins.strap = true) {P : State → Prop}
    (h : P { { u with boot := { u.boot with booted := true } }.enterLandfall
      (if u.lc.state = LifeState.scrapped then 7 else 1) with pending := s.pending }) : Completes (.boot env) s P := by
  have hrun : s.bootRun env = { u with boot := { u.boot with booted := true } }.enterLandfall
      (if u.lc.state = LifeState.scrapped then 7 else 1) := by
    unfold State.bootRun
    simp only [hlife, hnvs, hstrap, not_true_eq_false, if_false, if_true]
    split <;> rfl
  refine ⟨_, ?_, h⟩
  change done s (if s.boot.booted then s else s.bootRun env) = _
  rw [hbooted, ← hrun]
  rfl

/-- A boot whose copies do not fit its record leaves the device as SCRAPPED. -/
theorem State.bootLife_of_not_intentOk {s : State} {i : Intent} (hi : s.lc.intent = some i)
    (hbad : s.lc.intentOk i = false) : s.bootLife = { s with lc := { s.lc with state := .scrapped } } := by
  simp [State.bootLife, hi, hbad]

theorem State.transitionSteps_pins (s : State) (l : LifeState) (owner : Bytes) :
    (s.transitionSteps l owner).pins = s.pins := by
  cases l with
  | test => simp only [State.transitionSteps]; split <;> rfl
  | raw | provision | owned | deployed | returned | scrapped => rfl

/-- Settles O54: the frame of the logbook (`Reports`) reduces a transition to the table of its steps, whose every row
computes; a boot whose copies lie between the two codes runs the same steps. -/
theorem lifeCycleOnlyMovesForward : Obligations.LifeCycleOnlyMovesForward := by
  unfold Obligations.LifeCycleOnlyMovesForward
  refine ⟨fun s now l hboot => ?transition,
    fun s env i hbooted hready hnvs hi hstrap => ⟨fun hok => ?completed, fun hbad => ?unfit⟩,
    lifeStep_iff, fun s l hl hstep hnone => ?refused, fun a b c l h _ => eq_lifeOtp_of_lifeDecode h⟩
  case transition =>
    intro u hok hl owner
    obtain ⟨v, t, hv, hreports, ht⟩ := u.transition_spec u.lcBlock l
    obtain ⟨j, p, r, f, o, g, c, rfl⟩ := hreports.exists
    obtain ⟨hid, hthermometer⟩ := v.transitionSteps_identity l owner
    refine ⟨_, by rw [exec_transition_eq hboot, State.submitAuth_of_transition hok hl, ht]; rfl, ?_⟩
    rw [hv] at hid hthermometer
    refine ⟨⟨rfl, rfl, rfl, rfl, rfl, rfl, rfl, rfl, rfl, rfl⟩, rfl, rfl, rfl, rfl, hid, hthermometer, ?test, ?provision,
      ?owned, ?returned, ?scrapped⟩
    case test =>
      rintro rfl
      have hdus := v.transitionSteps_test_dus owner
      rwa [hv] at hdus
    case provision =>
      rintro rfl
      exact ⟨⟨_, rfl, rfl⟩, rfl, rfl, rfl, rfl, rfl⟩
    case owned =>
      rintro rfl
      exact ⟨rfl, rfl, rfl, rfl, congrArg (·.sealGen + 1) hv⟩
    case returned =>
      rintro rfl
      exact ⟨rfl, rfl, rfl, rfl, rfl, rfl, rfl, rfl, rfl, rfl, rfl, rfl, rfl, rfl, _, rfl⟩
    case scrapped =>
      rintro rfl
      exact ⟨rfl, rfl, rfl, rfl⟩
  case completed =>
    obtain ⟨t, ht, hlife⟩ := State.bootLife_of_intentOk (s := s.booting) hi hok
    have hpins : t.pins.strap = true := by
      rw [ht.pins]
      exact (congrArg PinState.strap (State.transitionSteps_pins _ _ _)).trans hstrap
    exact completes_boot_of_strap hbooted hnvs hlife hpins
      ⟨rfl, rfl, rfl, (congrArg LifeCycle.intent ht.lc :), rfl, rfl, rfl⟩
  case unfit =>
    exact completes_boot_of_strap hbooted hnvs (State.bootLife_of_not_intentOk (s := s.booting) hi hbad) hstrap
      ⟨rfl, rfl, hready, rfl⟩
  case refused =>
    have hallowed := State.authAllowed_of_authRefused_none hnone
    simp [State.authAllowed, authTarget, hl, hstep] at hallowed

end Sys2Proof.Machine
end

section
/-! PROOF. The queue of waiting commands under a step (assumption log 16). -/

namespace Sys2Proof.Machine

/-- A command's answer from `s` leaves the queue of commands to the step: it goes on with that queue, or names a thing that
is not there. -/
def Out.KeepsQueue (s : State) (o : Out) : Prop := (∃ t, o = .next t ∧ t.pending = s.pending) ∨ o = noIndex

theorem done_keepsQueue (s t : State) : Out.KeepsQueue s (done s t) := .inl ⟨_, rfl, rfl⟩

theorem within_keepsQueue (ok : Bool) (s t : State) : Out.KeepsQueue s (within ok s t) := by
  cases ok
  · exact .inr rfl
  · exact done_keepsQueue s t

/-- A command on a job of the in-flight table. -/
theorem onJob_keepsQueue {s : State} {o : Option Job} {f : Job → Out} (hf : ∀ J, Out.KeepsQueue s (f J)) :
    Out.KeepsQueue s (match o with | none => noIndex | some J => f J) := by
  cases o with
  | none => exact .inr rfl
  | some J => exact hf J

theorem onJob_done_keepsQueue (s : State) (o : Option Job) (f : Job → State) :
    Out.KeepsQueue s (match o with | none => noIndex | some J => done s (f J)) :=
  onJob_keepsQueue fun J => done_keepsQueue s (f J)

theorem workRow_keepsQueue (op j : Nat) (f g : State → Job → State) (s : State) :
    Out.KeepsQueue s (workRow op j f g s) :=
  onJob_keepsQueue fun J => by
    split
    · exact done_keepsQueue s _
    · exact onJob_done_keepsQueue s _ _

/-- Every command answers in one of four ways: always; where its operand is within the numbering; on the job that it
names; or, for a job with steps of its own, on that job at one of two moments. -/
theorem exec_keepsQueue (c : Instr) (s : State) : Out.KeepsQueue s (exec c s) := by
  cases c
  case porNAssert | perstNAssert | deviceReset | landfallReset | hotReset | boot | clockLoss | temperatureLimit |
    safeReqNEdge | chatterEdge | held | conseqWindowClose | fltRelease | safeCtrlEnter | tick | chartDrainComplete |
    consumeEntry | logbookExtend | hbsPreparation | decisionCommit | initFrame | replyFrame | finishFrame | dataFrame |
    orderFrame | responseFrame | closeFrame | ppsInEdge | ppsLockLoss | almAdjOffset | almAdjFreq | almSet | almStepBound
    | almSource | signedOnly | almanacCheckpoint | logRoll | auditExport | auditExportHead | auditRegionMib | getVersion |
    getCapabilities | negotiateAlgorithms | getDigests | getCertificate | challenge | getMeasurements | keyExchange |
    spdmFinish | heartbeat | keyUpdate | endSession | chunkSend | chunkGet | setCertificate | getPqChain | pqQuote |
    doeAbort | pf0Flr | vfEnableClear | d3hotEntry | overflowCfgWrite | ping | queryOmod | handover | rosterLoad |
    markPropose | markReply | leaseReq | leaseGrant | delegateReq | delegateGrant | cross | crossInterval | rosterGet |
    rosterData | meridianRequestResend | tetherRd | tetherCpl | tetherWr | tetherReg | tetherRegCpl | transition |
    debugGrant | stage | activate | confirm | commitSvn | hello | readProgress | fwWrite | fwFinish | authWrite |
    authSubmit | chartWrite | chartFinish | selfTest | recoveryReset | uartState | uartProgress | uartSelftest | uartReset
    | clockRecovery | temperatureRecovery | safeReqNRelease | entropyHealthRecovery | almanacSlewEnd | ppsOut |
    neighbourSolicitation | tapInstruction | telemetryPeriod =>
    exact done_keepsQueue s _
  case supply | permitMismatch | faultEvent | fenceAck | fenceAckTimeout | fltForce | fltCfgWrite | attnClear |
    helmCoreRecovery | tileReconfigComplete | tileReloadComplete | msixModTimer | msixUnmask | admqEnable | dbSqTail |
    dbCqHead | dbRevise | tailWordChange | contextSpillDone | dispatch | machineCheck | pertDoorbellHold | vfScrubComplete
    | permitEnd | fieldFrameReceived | handshakeRetransmit | reassemblyTimeout | noReceiveTimeout | rekeyTimer |
    epochExpiry | oldEpochGraceEnd | ptpRx | txGo | logOwner | atsInvalidation | hostLinkRetrain | vfFlr |
    keyCacheQuotaWrite | mboxTxWrite | mboxRxRead | mboxRecall | crossFull | lockAcquire | lockRelease | omodLoad |
    omodStop | moduleException | ringInit | doorbell | cqHead | mboxSend | mboxRecv | wait | time | exit | pmodWrite |
    vadd | vsub | vmul | vmulh | vand | vor | vxor | vsll | vsrl | vsra | vmin | vmax | vshuf | vfadd | vfsub | vfmul |
    vfma | vcmul | vcmac | vcconj | vfdiv | vfcvtfi | vfcvtif | vflt | vmadd | vmsub | vmmul | vmmac | vmred | vmv | vext
    | vins | vsplat | vseq | vslt | vsltu | vsel | vld | vst | linkEnable | linkRetrain | linkUp | linkRetry |
    flitReceived | creditTimeout | tetherPathLost | badAccess | registerWrite | supplyRecovery | permitReadbackAgree |
    fieldPortLinkUp | meridianLinkRekey | partnerScrubComplete | flrComplete | waitTimeout =>
    exact within_keepsQueue _ s _
  case fetchStage | windowInputArrival | admission | keyCacheFillDone | safePointAction | watchdog | commitAck |
    commitTimeout | runEnd | segmentRelease | completionWrite | pertCompletionDelay | destroyScrub | createQueue |
    destroyQueue | enableQueue | setShare | quiesceFunction | queryFunction | loadChart | retile | queryChart | safeExit |
    queryProgress | setPowerLimit | setPerturbation | timedNop | knownAnswer | forceCompareFail | mlKemKeygen |
    mlKemEncaps | mlKemDecaps | mlDsaKeygen | mlDsaSign | mlDsaVerify | fnDsaKeygen | fnDsaSign | fnDsaVerify |
    slhDsaKeygen | slhDsaSign | slhDsaVerify | hssKeygen | hssSign | hssVerify | hssLeafStatus | xmssKeygen | xmssSign |
    xmssVerify | xmssLeafStatus | xmssmtKeygen | xmssmtSign | xmssmtVerify | xmssmtLeafStatus | hqcKeygen | hqcEncaps |
    hqcDecaps | mcelieceKeygen | mcelieceEncaps | mcelieceDecaps | ecdsaKeygen | ecdsaSign | ecdsaVerify | ecdh |
    eddsaKeygen | eddsaSign | eddsaVerify | montgomeryKeygen | montgomeryKeyAgreement | rsaKeygen | rsaSign | rsaVerify |
    oaepEncrypt | oaepDecrypt | aesGcmEncrypt | aesGcmDecrypt | aesCcmEncrypt | aesCcmDecrypt | aesCtr | xtsAesEncrypt |
    xtsAesDecrypt | aesKwWrap | aesKwUnwrap | chacha20Poly1305Seal | chacha20Poly1305Open | digest | xof | hmacGenerate |
    hmacVerify | kmacGenerate | kmacVerify | hkdf | counterKdf | keyedSlotLoad | keyedSlotDrop | generateKey | importKey |
    exportWrapped | destroyKey | getAttributes | getImportKey | submitOrder | queryOrder | timeSetOrder | queryPolicy |
    permitStatus | registerPartner | deregisterPartner | soundingInitiate | soundingAccept | receive | rekey |
    closeSession | rejectionBudgetEnd =>
    exact onJob_done_keepsQueue s _ _
  case policyUpdate | send =>
    all_goals
      dsimp only [exec]
      exact workRow_keepsQueue _ _ _ _ _

theorem exec_next_pending {c : Instr} {s t : State} (h : exec c s = .next t) : t.pending = s.pending := by
  rcases exec_keepsQueue c s with ⟨u, hu, hp⟩ | hn
  · obtain rfl : u = t := by simpa [hu] using h
    exact hp
  · simp [noIndex, hn] at h

theorem exec_ne_refused (c : Instr) (s : State) (r : Refusal) : exec c s ≠ .refused r := by
  rcases exec_keepsQueue c s with ⟨u, hu, -⟩ | hn
  · simp [hu]
  · simp [noIndex, hn]

theorem step_of_pending_cons {s : State} {c : Instr} {rest : List Instr} (h : s.pending = c :: rest) :
    step s = exec c { s with pending := rest } := by
  simp [step, h]

theorem step_of_pending_nil {s : State} (h : s.pending = []) : step s = .next s := by
  simp [step, h]

/-- Settles O58: every command keeps the queue that the step gives it (`exec_keepsQueue`), and the step gives it the rest of
its own. -/
theorem stepKeepsTheWaitingCommands : Obligations.StepKeepsTheWaitingCommands := by
  unfold Obligations.StepKeepsTheWaitingCommands
  refine ⟨fun s hok => ?_, fun _ _ _ => exec_next_pending, exec_ne_refused⟩
  cases hp : s.pending with
  | nil => exact .inl ⟨s, step_of_pending_nil hp, by rw [hp]; rfl, hok⟩
  | cons c rest =>
    rw [step_of_pending_cons hp]
    rcases exec_keepsQueue c { s with pending := rest } with ⟨t, ht, hq⟩ | hn
    · refine .inl ⟨t, ht, hq, fun d hd => hok d ?_⟩
      rw [hp]
      exact List.mem_cons_of_mem c (by rwa [show t.pending = rest from hq] at hd)
    · exact .inr hn

/-- Settles O57: `step` is a match on the queue. -/
theorem stepRunsTheCommandInFront : Obligations.StepRunsTheCommandInFront := by
  unfold Obligations.StepRunsTheCommandInFront
  exact ⟨fun _ _ _ => step_of_pending_cons, fun _ => step_of_pending_nil⟩

end Sys2Proof.Machine
end

section
/-! PROOF. The words of the Pelorus extension, read and written (16_service_complex.md R377, R380). -/

namespace Sys2Proof

/-- A part of a word is two fields put together when each is the part where it lies. -/
theorem append_eq_extractLsb'_iff {n m k s : Nat} {x : BitVec n} {y : BitVec m} {z : BitVec k} :
    x ++ y = z.extractLsb' s (n + m) ↔ x = z.extractLsb' (s + m) n ∧ y = z.extractLsb' s m := by
  rw [← BitVec.extractLsb'_append_extractLsb'_eq_extractLsb' rfl]
  refine ⟨fun h => ⟨?_, ?_⟩, fun ⟨hx, hy⟩ => hx ▸ hy ▸ rfl⟩
  · simpa only [BitVec.extractLsb'_append_eq_left] using congrArg (·.extractLsb' m n) h
  · simpa only [BitVec.extractLsb'_append_eq_right] using congrArg (·.extractLsb' 0 m) h

section
variable {rs1 rs2 rd : BitVec 5} {off : BitVec 12} (x : BitVec 32)

/-- The fields of an R-form word (R377). -/
theorem rForm_eq_iff {op : BitVec 5} {w : BitVec 2} {f3 : BitVec 3} {m : BitVec 7} :
    op ++ w ++ rs2 ++ rs1 ++ f3 ++ rd ++ m = x ↔
      (((((op = x.extractLsb' 27 5 ∧ w = x.extractLsb' 25 2) ∧ rs2 = x.extractLsb' 20 5) ∧ rs1 = x.extractLsb' 15 5) ∧
        f3 = x.extractLsb' 12 3) ∧ rd = x.extractLsb' 7 5) ∧ m = x.extractLsb' 0 7 := by
  rw [← append_eq_extractLsb'_iff (n := 5) (m := 2), ← append_eq_extractLsb'_iff (m := 5) (s := 20),
    ← append_eq_extractLsb'_iff (m := 5) (s := 15), ← append_eq_extractLsb'_iff (m := 3) (s := 12),
    ← append_eq_extractLsb'_iff (m := 5) (s := 7), ← append_eq_extractLsb'_iff (m := 7) (s := 0)]
  simp

/-- The fields of an I-form word. -/
theorem iForm_eq_iff {f3 : BitVec 3} {m : BitVec 7} :
    off ++ rs1 ++ f3 ++ rd ++ m = x ↔
      (((off = x.extractLsb' 20 12 ∧ rs1 = x.extractLsb' 15 5) ∧ f3 = x.extractLsb' 12 3) ∧ rd = x.extractLsb' 7 5) ∧
        m = x.extractLsb' 0 7 := by
  rw [← append_eq_extractLsb'_iff (m := 5) (s := 15), ← append_eq_extractLsb'_iff (m := 3) (s := 12),
    ← append_eq_extractLsb'_iff (m := 5) (s := 7), ← append_eq_extractLsb'_iff (m := 7) (s := 0)]
  simp

/-- The fields of an S-form word. -/
theorem sForm_eq_iff {hi : BitVec 7} {f3 : BitVec 3} {m : BitVec 7} :
    hi ++ rs2 ++ rs1 ++ f3 ++ rd ++ m = x ↔
      ((((hi = x.extractLsb' 25 7 ∧ rs2 = x.extractLsb' 20 5) ∧ rs1 = x.extractLsb' 15 5) ∧ f3 = x.extractLsb' 12 3) ∧
        rd = x.extractLsb' 7 5) ∧ m = x.extractLsb' 0 7 := by
  rw [← append_eq_extractLsb'_iff (m := 5) (s := 20), ← append_eq_extractLsb'_iff (m := 5) (s := 15),
    ← append_eq_extractLsb'_iff (m := 3) (s := 12), ← append_eq_extractLsb'_iff (m := 5) (s := 7),
    ← append_eq_extractLsb'_iff (m := 7) (s := 0)]
  simp

/-! ### The tables of operations (R380) -/

theorem vecOpOf_eq_some_iff {f3 op : Nat} {o : VecOp} : vecOpOf f3 op = some o ↔ vecCode o = (f3, op) := by
  constructor
  · unfold vecOpOf
    split <;> rintro ⟨⟩ <;> rfl
  · cases o <;> rintro ⟨⟩ <;> rfl

/-- The codes of an operation fit their fields, and its funct3 is neither a load's nor a store's. -/
theorem vecCode_fits (o : VecOp) :
    (vecCode o).1 < 2 ^ 3 ∧ (vecCode o).1 ≠ 4 ∧ (vecCode o).1 ≠ 5 ∧ (vecCode o).2 < 2 ^ 5 := by
  cases o <;> decide

theorem ofNat_eq_iff_of_lt {n k : Nat} (h : n < 2 ^ k) (b : BitVec k) : BitVec.ofNat k n = b ↔ n = b.toNat := by
  rw [← BitVec.toNat_inj, BitVec.toNat_ofNat, Nat.mod_eq_of_lt h]

/-! ### Decoding -/

theorem pelorusDecode_of_major (h : x.extractLsb' 0 7 ≠ 0b0101011#7) : pelorusDecode x = none := by
  simp [pelorusDecode, h]

theorem pelorusDecode_eq_load_iff : pelorusDecode x = some (.load rd rs1 off) ↔ (VecInstr.load rd rs1 off).encode = x := by
  rw [VecInstr.encode, iForm_eq_iff]
  simp only [pelorusDecode]
  split_ifs with hm h4 h5
  · simp [Ne.symm hm]
  · simp [h4, not_not.mp hm, eq_comm, and_comm]
  · simp [Ne.symm h4]
  · simp [Ne.symm h4]

theorem eq_append_iff {hi : BitVec 7} {lo : BitVec 5} :
    off = hi ++ lo ↔ off.extractLsb' 5 7 = hi ∧ off.extractLsb' 0 5 = lo := by
  rw [show off = off.extractLsb' 0 (7 + 5) by simp, eq_comm, append_eq_extractLsb'_iff]
  simp [eq_comm]

theorem pelorusDecode_eq_store_iff :
    pelorusDecode x = some (.store rs2 rs1 off) ↔ (VecInstr.store rs2 rs1 off).encode = x := by
  rw [VecInstr.encode, sForm_eq_iff]
  simp only [pelorusDecode]
  split_ifs with hm h4 h5
  · simp [Ne.symm hm]
  · simp [h4]
  · simp only [not_not.mp hm, h5, Option.some.injEq, VecInstr.store.injEq, and_true, @eq_comm _ (x.extractLsb' 20 5),
      @eq_comm _ (x.extractLsb' 15 5), @eq_comm _ _ off, eq_append_iff]
    tauto
  · simp [Ne.symm h5]

theorem pelorusDecode_eq_form_iff (o : VecOp) (w : BitVec 2) :
    pelorusDecode x = some (.form o rd rs1 rs2 w) ↔ (VecInstr.form o rd rs1 rs2 w).encode = x := by
  obtain ⟨hf3, hload, hstore, hop⟩ := vecCode_fits o
  rw [VecInstr.encode, rForm_eq_iff, ofNat_eq_iff_of_lt hf3, ofNat_eq_iff_of_lt hop]
  simp only [pelorusDecode]
  split_ifs with hm h4 h5
  · simp [Ne.symm hm]
  · simp [h4, hload]
  · simp [h5, hstore]
  · simp only [not_not.mp hm, Option.map_eq_some_iff, vecOpOf_eq_some_iff, VecInstr.form.injEq, Prod.ext_iff, and_true]
    constructor
    · rintro ⟨o', ⟨hc, hc'⟩, rfl, rfl, rfl, rfl, rfl⟩
      exact ⟨⟨⟨⟨⟨hc', rfl⟩, rfl⟩, rfl⟩, hc⟩, rfl⟩
    · rintro ⟨⟨⟨⟨⟨hc', rfl⟩, rfl⟩, rfl⟩, hc⟩, rfl⟩
      exact ⟨o, ⟨hc, hc'⟩, rfl, rfl, rfl, rfl, rfl⟩

theorem pelorusDecode_eq_some_iff (v : VecInstr) : pelorusDecode x = some v ↔ v.encode = x := by
  cases v with
  | form o rd rs1 rs2 w => exact pelorusDecode_eq_form_iff x o w
  | load rd rs1 off => exact pelorusDecode_eq_load_iff x
  | store rs2 rs1 off => exact pelorusDecode_eq_store_iff x

end

/-- Settles O60: a word is the concatenation of its fields (`rForm_eq_iff` and the like), and the decoder reads those fields;
that no two instructions share a word follows, since each is what its word decodes to. -/
theorem pelorusWordsDecodeToWhatTheyEncode : Obligations.PelorusWordsDecodeToWhatTheyEncode := by
  unfold Obligations.PelorusWordsDecodeToWhatTheyEncode
  refine ⟨pelorusDecode_eq_some_iff, fun v w h => ?_, pelorusDecode_of_major⟩
  have hv := (pelorusDecode_eq_some_iff _ v).mpr h
  have hw := (pelorusDecode_eq_some_iff _ w).mpr rfl
  exact Option.some.inj (hv.symm.trans hw)

end Sys2Proof
end

section
/-! PROOF. The state after reset, and the test commands (02_operations_catalogue.md R46, R513). -/

namespace Sys2Proof.Machine

theorem State.reset_src (n : Nat) : State.reset.src n = srcDefault n := rfl

theorem fnDefault_share (f g : Nat) (h : g < 33) :
    (fnDefault f).shares[g]? = some (if f = 0 then 768 else if f = 0x100 then 256 else 0) := by
  simp only [fnDefault, List.getElem?_replicate, h, if_true]

/-- Settles O59. -/
theorem resetHoldsTheSpecsValues : Obligations.ResetHoldsTheSpecsValues := by
  unfold Obligations.ResetHoldsTheSpecsValues
  intro r
  refine ⟨by simp [r, State.queueOk, State.reset], rfl, rfl, rfl, rfl, rfl, rfl, rfl, rfl, rfl, rfl, rfl, rfl, rfl, rfl, rfl, rfl,
    fun f hf => ?_, fun f => fnDefault_share f, fun n => ?_, fun n => ⟨rfl, rfl⟩, fun q => rfl⟩
  · change (fnDefault f).weight = 16 ∧ (fnDefault f).quiesce = none ∧ ((fnDefault f).safety = true ↔ f = 0) ∧
      (fnDefault f).maxQueues = _
    refine ⟨rfl, rfl, by simp [fnDefault], by simp [fnDefault, hf]⟩
  · change (srcDefault n).count = 0 ∧ (srcDefault n).attn = false ∧ (srcDefault n).present = false ∧ ((srcDefault n).n, (srcDefault n).w) = _
    unfold srcDefault
    split_ifs <;> simp

/-- Settles O13: each command acts on the job that runs. -/
theorem testCommandsComputeTheirResults : Obligations.TestCommandsComputeTheirResults := by
  unfold Obligations.TestCommandsComputeTheirResults
  intro s j J isMatch
  refine ⟨fun ⟨hj, hop, hrun⟩ => ?_, fun ⟨hj, hop, hrun⟩ => ?_, fun q ⟨hj, hop, hrun⟩ hsrc => ?_⟩
  · change execTimedNop j s = _
    simp [execTimedNop, hj, hop, hrun]
    rfl
  · change execKnownAnswer j isMatch s = _
    simp [execKnownAnswer, hj, hop, hrun]
    rfl
  · change execForceCompareFail j s = _
    simp [execForceCompareFail, hj, hop, hrun, hsrc]
    rfl

end Sys2Proof.Machine
end

section
/-! PROOF. The Pelorus instructions on integer elements, on whole registers, between register files and on modular lanes
(16_service_complex.md R380). -/

namespace Sys2Proof.Machine

/-! ### Elements as numbers and as words -/

theorem signedOf_toNat {n : Nat} (hn : 0 < n) (a : BitVec n) : signedOf n a.toNat = a.toInt := by
  obtain ⟨k, rfl⟩ : ∃ k, n = k + 1 := ⟨n - 1, by omega⟩
  have hlt := a.isLt
  rw [signedOf, BitVec.toInt, Nat.mod_eq_of_lt hlt, Nat.add_sub_cancel, pow_succ]
  split_ifs <;> push_cast [pow_succ] <;> omega

theorem ofNat_twosOf (n : Nat) (x : Int) : BitVec.ofNat n (twosOf n x) = BitVec.ofInt n x := by
  apply BitVec.eq_of_toNat_eq
  have hlt : (x % (2 ^ n : Nat)).toNat < 2 ^ n := by
    have := Int.emod_lt_of_pos x (b := (2 ^ n : Nat)) (by positivity)
    omega
  rw [twosOf, BitVec.toNat_ofNat, Nat.mod_eq_of_lt hlt, BitVec.toNat_ofInt]

theorem ofNat_maskOf (n : Nat) (b : Bool) : BitVec.ofNat n (maskOf n b) = if b then BitVec.allOnes n else 0 := by
  cases b
  · simp [maskOf]
  · apply BitVec.eq_of_toNat_eq
    simp [maskOf]

theorem ofInt_high_product {n : Nat} (a b : BitVec n) :
    BitVec.ofInt n (a.toInt * b.toInt / (2 ^ n : Nat)) =
      (a.signExtend (2 * n) * b.signExtend (2 * n)).extractLsb' n n := by
  have h : a.signExtend (2 * n) * b.signExtend (2 * n) = BitVec.ofInt (2 * n) (a.toInt * b.toInt) := by
    rw [BitVec.ofInt_mul]; rfl
  have hp : ((2 ^ (2 * n) : Nat) : Int) = (2 ^ n : Nat) * (2 ^ n : Nat) := by push_cast; ring
  apply BitVec.eq_of_toNat_eq
  rw [h, BitVec.extractLsb'_toNat, BitVec.toNat_ofInt, BitVec.toNat_ofInt, Nat.shiftRight_eq_div_pow, hp]
  generalize a.toInt * b.toInt = x
  generalize hm : 2 ^ n = m
  have hm0 : 0 < m := by rw [← hm]; positivity
  have hhigh : x / m % m = x % (m * m) / m % m := by
    conv_lhs => rw [← Int.emod_add_mul_ediv x (m * m), mul_assoc, Int.add_mul_ediv_left _ _ (by positivity),
      Int.add_mul_emod_self_left]
  zify
  rw [Int.toNat_of_nonneg (Int.emod_nonneg _ (by positivity)), Int.toNat_of_nonneg (Int.emod_nonneg _ (by positivity)), hhigh]

/-! ### An instruction that writes one vector register -/

section
variable {s : State} {core : Nat} {rd rs1 rs2 : BitVec 5} {w : BitVec 2} {i : Instr}

/-- A legal instruction that computes one register writes that register and nothing else. -/
theorem exec_setV (h : Executes s core) {legal : Core → Bool} {g : Core → BitVec 128}
    (hi : exec i s = pelorus core legal (fun C => C.setV rd (g C)) s) (hl : legal (s.core core) = true) :
    exec i s = .next (s.modCore core (·.setV rd (g (s.core core)))) := by
  obtain ⟨hc, hrun, hxs⟩ := h
  rw [hi, pelorus_next core _ _ s hc hrun hxs hl]
  rfl

/-- The instruction writes `rd` alone, and element `k` of `n` bits becomes `r k`. -/
def WritesLanes (s : State) (core : Nat) (rd : BitVec 5) (i : Instr) (n : Nat) (r : Nat → BitVec n) : Prop :=
  ∃ v, exec i s = .next (s.modCore core (·.setV rd v)) ∧ ∀ k < 128 / n, v.extractLsb' (n * k) n = r k

theorem ofElems_extractLsb' {n : Nat} (l : List Nat) (k : Nat) (hl : l.length = 128 / n) (hk : k < 128 / n) :
    (ofElems n l).extractLsb' (n * k) n = BitVec.ofNat n (l[k]'(hl ▸ hk)) := by
  apply BitVec.eq_of_toNat_eq
  rw [ofElems_lane n l k (hl ▸ hk) (lane_fits hk), BitVec.toNat_ofNat]

/-- An instruction whose result is a list of elements. -/
theorem writesLanes_of_elems (h : Executes s core) {legal : Core → Bool} {n : Nat} {l : Core → List Nat} {r : Nat → BitVec n}
    (hi : exec i s = pelorus core legal (fun C => C.setV rd (ofElems n (l C))) s) (hl : legal (s.core core) = true)
    (hlen : (l (s.core core)).length = 128 / n)
    (hr : ∀ (k : Nat) (hk : k < 128 / n), BitVec.ofNat n ((l (s.core core))[k]'(hlen ▸ hk)) = r k) :
    WritesLanes s core rd i n r :=
  ⟨_, exec_setV h hi hl, fun k hk => (ofElems_extractLsb' _ k hlen hk).trans (hr k hk)⟩

theorem writesLanes_of_intOp (h : Executes s core) {n : Nat} (hn : n = elemBits w) {f : Nat → Nat → Nat → Nat}
    {g : BitVec n → BitVec n → BitVec n} (hi : exec i s = intOp core rd rs1 rs2 w f s)
    (hg : ∀ a b : BitVec n, BitVec.ofNat n (f n a.toNat b.toNat) = g a b) :
    WritesLanes s core rd i n fun k => g (lane s core n rs1 k) (lane s core n rs2 k) := by
  subst hn
  refine writesLanes_of_elems (legal := fun _ => true) (l := fun C => List.zipWith (f (elemBits w))
    (elems (elemBits w) (C.vreg rs1)) (elems (elemBits w) (C.vreg rs2))) h hi rfl (by simp [elems_length]) fun k hk => ?_
  rw [List.getElem_zipWith, elems_get, elems_get, hg]

theorem writesLanes_of_shiftOp (h : Executes s core) {n : Nat} (hn : n = elemBits w) {f : Nat → Nat → Nat → Nat}
    {g : BitVec n → Nat → BitVec n} (hi : exec i s = shiftOp core rd rs1 rs2 w f s)
    (hg : ∀ (a : BitVec n) (k : Nat), BitVec.ofNat n (f n a.toNat k) = g a k) :
    WritesLanes s core rd i n fun k => g (lane s core n rs1 k) (((s.core core).xreg rs2).toNat % n) := by
  subst hn
  refine writesLanes_of_elems (legal := fun _ => true) (l := fun C => (elems (elemBits w) (C.vreg rs1)).map
    fun a => f (elemBits w) a ((C.xreg rs2).toNat % elemBits w)) h hi rfl (by simp [elems_length]) fun k hk => ?_
  rw [List.getElem_map, elems_get, hg]

end

theorem elemBits_pos (w : BitVec 2) : 0 < elemBits w := by unfold elemBits; positivity

/-- Settles O1: each instruction is element-wise (`writesLanes_of_intOp`), and its function on numbers is the one on words. -/
theorem pelorusArithmeticActsOnEachLane : Obligations.PelorusArithmeticActsOnEachLane := by
  unfold Obligations.PelorusArithmeticActsOnEachLane
  intro s core rd rs1 rs2 w h n hn
  have hpos : 0 < n := hn ▸ elemBits_pos w
  refine ⟨writesLanes_of_intOp (f := fun n a b => (a + b) % 2 ^ n) (g := (· + ·)) h hn rfl fun a b => ?add,
    writesLanes_of_intOp (f := fun n a b => (a + 2 ^ n - b) % 2 ^ n) (g := (· - ·)) h hn rfl fun a b => ?sub,
    writesLanes_of_intOp (f := fun n a b => a * b % 2 ^ n) (g := (· * ·)) h hn rfl fun a b => ?mul,
    writesLanes_of_intOp (f := fun n a b => twosOf n (signedOf n a * signedOf n b / (2 ^ n : Nat)))
      (g := fun a b => (a.signExtend (2 * n) * b.signExtend (2 * n)).extractLsb' n n) h hn rfl fun a b => ?mulh,
    writesLanes_of_intOp (f := fun n a b => if signedOf n a ≤ signedOf n b then a else b)
      (g := fun a b => if a.sle b then a else b) h hn rfl fun a b => ?min,
    writesLanes_of_intOp (f := fun n a b => if signedOf n a ≤ signedOf n b then b else a)
      (g := fun a b => if a.sle b then b else a) h hn rfl fun a b => ?max⟩
  case add => simp [← BitVec.toNat_inj]
  case sub =>
    have hb := b.isLt
    rw [← BitVec.toNat_inj, BitVec.toNat_ofNat, Nat.mod_mod, BitVec.toNat_sub]
    congr 1
    omega
  case mul => simp [← BitVec.toNat_inj]
  case mulh => rw [ofNat_twosOf, signedOf_toNat hpos, signedOf_toNat hpos, ofInt_high_product]
  case min | max => simp [signedOf_toNat hpos, apply_ite (BitVec.ofNat n), BitVec.sle]

/-! ### Logic, shifts, shuffles, compares and moves -/

theorem elems_getD {n : Nat} (v : BitVec 128) {k : Nat} (hk : k < 128 / n) :
    (elems n v).getD k 0 = (v.extractLsb' (n * k) n).toNat := by
  rw [List.getD_eq_getElem _ _ (by rwa [elems_length]), elems_get]

theorem State.modCore_congr {s : State} {core : Nat} {f g : Core → Core} (h : f (s.core core) = g (s.core core)) :
    s.modCore core f = s.modCore core g := by
  simp only [State.modCore, h]

section
variable {s : State} {core : Nat} {w : BitVec 2} (h : Executes s core) (rd rs1 rs2 : BitVec 5)
include h

theorem exec_vshuf_lanes : WritesLanes s core rd (.vshuf core rd rs1 rs2 0) 8 fun k =>
    lane s core 8 rs1 ((lane s core 8 rs2 k).toNat % 16) := by
  refine writesLanes_of_elems (legal := fun _ => (0 : BitVec 2) == 0) (l := fun C => (elems 8 (C.vreg rs2)).map
    fun i => (elems 8 (C.vreg rs1)).getD (i % 16) 0) h rfl rfl (by simp [elems_length]) fun k hk => ?_
  rw [List.getElem_map, elems_get, elems_getD _ (Nat.mod_lt _ (by decide)), BitVec.ofNat_toNat, BitVec.setWidth_eq]

theorem exec_vsplat_lanes {n : Nat} (hn : n = elemBits w) : WritesLanes s core rd (.vsplat core rd rs1 0 w) n fun _ =>
    ((s.core core).xreg rs1).setWidth n := by
  subst hn
  refine writesLanes_of_elems (legal := fun _ => (0 : BitVec 5) == 0) (l := fun C => List.replicate (128 / elemBits w)
    ((C.xreg rs1).toNat % 2 ^ elemBits w)) h rfl rfl (by simp) fun k hk => ?_
  rw [List.getElem_replicate, ← BitVec.toNat_inj]
  simp

theorem exec_vins_lanes {n : Nat} (hn : n = elemBits w) (hi : rs2.toNat < 128 / n) :
    WritesLanes s core rd (.vins core rd rs1 rs2 w) n fun k =>
      if k = rs2.toNat then ((s.core core).xreg rs1).setWidth n else lane s core n rd k := by
  subst hn
  refine writesLanes_of_elems (legal := fun _ => decide (rs2.toNat < 128 / elemBits w)) (l := fun C =>
    (elems (elemBits w) (C.vreg rd)).set rs2.toNat ((C.xreg rs1).toNat % 2 ^ elemBits w)) h rfl (by simpa using hi)
    (by simp [elems_length]) fun k hk => ?_
  rw [List.getElem_set, elems_get]
  split_ifs with h1 h2 h2
  · rw [← BitVec.toNat_inj]
    simp
  · exact absurd h1.symm h2
  · exact absurd h2.symm h1
  · rw [BitVec.ofNat_toNat, BitVec.setWidth_eq]

theorem exec_vext_next {n : Nat} (hn : n = elemBits w) (hi : rs2.toNat < 128 / n) :
    exec (.vext core rd rs1 rs2 w) s = .next (s.modCore core fun C =>
      if rd = 0 then C else { C with x := tput C.x rd.toNat ((lane s core n rs1 rs2.toNat).signExtend 64) }) := by
  subst hn
  have hpos := elemBits_pos w
  obtain ⟨hc, hrun, hxs⟩ := h
  change execVext core rd rs1 rs2 w s = _
  rw [execVext, pelorus_next core _ _ s hc hrun hxs (decide_eq_true hi)]
  refine congrArg _ (State.modCore_congr ?_)
  rw [elems_getD _ hi, signedOf_toNat hpos]
  rfl

end

/-- Settles O2: the whole-register forms write what they compute (`exec_setV`), the others are element-wise. -/
theorem pelorusLogicShiftsComparesAndMoves : Obligations.PelorusLogicShiftsComparesAndMoves := by
  unfold Obligations.PelorusLogicShiftsComparesAndMoves
  refine ⟨fun s core rd rs1 rs2 w h => ?_, fun s core rd rs1 rs2 w h => ⟨exec_vshuf_lanes h rd rs1 rs2, fun n hn => ?_⟩⟩
  · refine ⟨exec_setV (legal := fun _ => (3 : BitVec 2) == 3) (g := fun C => C.vreg rs1 &&& C.vreg rs2) h rfl rfl,
      exec_setV (legal := fun _ => (3 : BitVec 2) == 3) (g := fun C => C.vreg rs1 ||| C.vreg rs2) h rfl rfl,
      exec_setV (legal := fun _ => (3 : BitVec 2) == 3) (g := fun C => C.vreg rs1 ^^^ C.vreg rs2) h rfl rfl,
      exec_setV (legal := fun _ => (3 : BitVec 2) == 3)
        (g := fun C => (C.vreg rd &&& C.vreg rs1) ||| (~~~ C.vreg rd &&& C.vreg rs2)) h rfl rfl,
      exec_setV (legal := fun _ => (3 : BitVec 2) == 3 && (0 : BitVec 5) == 0) (g := fun C => C.vreg rs1) h rfl rfl, fun n hn => ?_⟩
    have hpos : 0 < n := hn ▸ elemBits_pos w
    refine ⟨writesLanes_of_shiftOp (f := fun n a k => a * 2 ^ k % 2 ^ n) (g := (· <<< ·)) h hn rfl fun a k => ?sll,
      writesLanes_of_shiftOp (f := fun _ a k => a / 2 ^ k) (g := (· >>> ·)) h hn rfl fun a k => ?srl,
      writesLanes_of_shiftOp (f := fun n a k => twosOf n (signedOf n a / (2 ^ k : Nat))) (g := BitVec.sshiftRight) h hn rfl
        fun a k => ?sra⟩
    case sll => simp [← BitVec.toNat_inj, Nat.shiftLeft_eq]
    case srl =>
      rw [← BitVec.toNat_inj, BitVec.toNat_ofNat, BitVec.toNat_ushiftRight, Nat.shiftRight_eq_div_pow]
      exact Nat.mod_eq_of_lt (lt_of_le_of_lt (Nat.div_le_self _ _) a.isLt)
    case sra => rw [ofNat_twosOf, signedOf_toNat hpos, BitVec.sshiftRight, Int.shiftRight_eq_div_pow]
  · have hpos : 0 < n := hn ▸ elemBits_pos w
    refine ⟨writesLanes_of_intOp (f := fun n a b => maskOf n (a == b)) (g := fun a b => if a = b then BitVec.allOnes n else 0)
        h hn rfl fun a b => ?seq,
      writesLanes_of_intOp (f := fun n a b => maskOf n (decide (signedOf n a < signedOf n b)))
        (g := fun a b => if a.slt b then BitVec.allOnes n else 0) h hn rfl fun a b => ?slt,
      writesLanes_of_intOp (f := fun n a b => maskOf n (decide (a < b)))
        (g := fun a b => if a.ult b then BitVec.allOnes n else 0) h hn rfl fun a b => ?sltu,
      exec_vsplat_lanes h rd rs1 hn, fun hi => ⟨exec_vext_next h rd rs1 rs2 hn hi, exec_vins_lanes h rd rs1 rs2 hn hi⟩⟩
    case seq => simp [ofNat_maskOf, BitVec.toNat_inj]
    case slt => rw [ofNat_maskOf, signedOf_toNat hpos, signedOf_toNat hpos, BitVec.slt]
    case sltu => rw [ofNat_maskOf, BitVec.ult]

/-! ### Modular lanes -/

section
variable {s : State} {core : Nat} {rd rs1 rs2 : BitVec 5} {i : Instr}

theorem pmod_lt (C : Core) : C.pmod.toNat < 2 ^ 32 := lt_trans C.pmod.isLt (by decide)

theorem modOp_lanes (h : Executes s core) (hq : (s.core core).pmod ≠ 0) {legal : Bool} (hlegal : legal = true)
    {f : Nat → Nat → Nat → Nat} (hi : exec i s = modOp core rd rs1 rs2 2 legal f s) :
    WritesLanes s core rd i 32 fun k => BitVec.ofNat 32 (f (lane s core 32 rs1 k).toNat (lane s core 32 rs2 k).toNat
      (lane s core 32 rd k).toNat % (s.core core).pmod.toNat) := by
  have hl : (fun C : Core => (2 : BitVec 2) == 2 && C.pmod != 0 && legal) (s.core core) = true := by
    simpa [hlegal] using hq
  have hlen (C : Core) : (List.zipWith (fun p c => f p.1 p.2 c % C.pmod.toNat)
    (List.zip (elems 32 (C.vreg rs1)) (elems 32 (C.vreg rs2))) (elems 32 (C.vreg rd))).length = 128 / 32 := by
    simp [elems_length]
  refine writesLanes_of_elems h hi hl (hlen _) fun k hk => ?_
  rw [List.getElem_zipWith, List.getElem_zip, elems_get, elems_get, elems_get]

theorem exec_vmsub_lanes (h : Executes s core) (hq : (s.core core).pmod ≠ 0) :
    WritesLanes s core rd (.vmsub core rd rs1 rs2 2) 32 fun k => BitVec.ofNat 32
      (((lane s core 32 rs1 k).toNat - (lane s core 32 rs2 k).toNat : Int) % (s.core core).pmod.toNat).toNat := by
  have hl : (fun C : Core => (2 : BitVec 2) == 2 && C.pmod != 0) (s.core core) = true := by simpa using hq
  have hi : exec (.vmsub core rd rs1 rs2 2) s = pelorus core (fun C => (2 : BitVec 2) == 2 && C.pmod != 0)
      (fun C => C.setV rd (ofElems 32 (List.zipWith (fun (a b : Nat) => (((a : Int) - (b : Int)) % (C.pmod.toNat : Int)).toNat)
        (elems 32 (C.vreg rs1)) (elems 32 (C.vreg rs2))))) s := rfl
  refine writesLanes_of_elems h hi hl (by simp [elems_length]) fun k hk => ?_
  rw [List.getElem_zipWith, elems_get, elems_get]

end

/-- A modular result fits its element. -/
theorem toNat_ofNat_emod_pmod {C : Core} (hq : C.pmod ≠ 0) (x : Int) :
    ((BitVec.ofNat 32 (x % C.pmod.toNat).toNat).toNat : Int) = x % C.pmod.toNat := by
  have hpos : 0 < C.pmod.toNat := Nat.pos_of_ne_zero fun e => hq (BitVec.eq_of_toNat_eq e)
  have hmax := pmod_lt C
  have hnonneg := Int.emod_nonneg x (b := C.pmod.toNat) (by omega)
  have hlt := Int.emod_lt_of_pos x (b := C.pmod.toNat) (by omega)
  rw [BitVec.toNat_ofNat, Nat.mod_eq_of_lt (by omega), Int.toNat_of_nonneg hnonneg]

theorem toNat_ofNat_mod_pmod {C : Core} (hq : C.pmod ≠ 0) (x : Nat) :
    ((BitVec.ofNat 32 (x % C.pmod.toNat)).toNat : Int) = (x : Int) % C.pmod.toNat := by
  rw [← toNat_ofNat_emod_pmod hq x, ← Int.natCast_mod, Int.toNat_natCast]

/-- Settles O3: the lanes of `modOp` and of the difference, each below pmod. -/
theorem pelorusModularLanesAreReduced : Obligations.PelorusModularLanesAreReduced := by
  unfold Obligations.PelorusModularLanesAreReduced
  intro s core rd rs1 rs2 h hq q a b d holds
  have reduced {i : Instr} {r : Nat → Nat} (hw : WritesLanes s core rd i 32 fun k =>
      BitVec.ofNat 32 (r k % (s.core core).pmod.toNat)) : holds (exec i s) fun k => (r k : Int) := by
    obtain ⟨v, hv, hr⟩ := hw
    exact ⟨v, hv, fun k hk => by rw [hr k hk, toNat_ofNat_mod_pmod hq]⟩
  refine ⟨?_, ?_, ?_, ?_, ?_⟩
  · simpa [a, b] using reduced (modOp_lanes (f := fun a b _ => a + b) h hq rfl rfl)
  · obtain ⟨v, hv, hr⟩ := exec_vmsub_lanes (rd := rd) (rs1 := rs1) (rs2 := rs2) h hq
    exact ⟨v, hv, fun k hk => by rw [hr k hk, toNat_ofNat_emod_pmod hq]⟩
  · simpa [a, b] using reduced (modOp_lanes (f := fun a b _ => a * b) h hq rfl rfl)
  · simpa [a, b, d] using reduced (modOp_lanes (f := fun a b c => c + a * b) h hq rfl rfl)
  · simpa [a] using reduced (modOp_lanes (f := fun a _ _ => a) h hq rfl rfl)

end Sys2Proof.Machine
end

section
/-! PROOF. Floating point of the Pelorus extension: what an element-wise instruction leaves on its core, and the canonical
NaN of the arithmetic (16_service_complex.md R380). -/

namespace Sys2Proof.Machine

/-! ### Elements and flags -/

theorem elems_getElem? {n : Nat} (v : BitVec 128) {k : Nat} (hk : k < 128 / n) :
    (elems n v)[k]? = some (v.extractLsb' (n * k) n).toNat := by
  have hlen : k < (elems n v).length := by rwa [elems_length]
  rw [List.getElem?_eq_getElem hlen, elems_get]

/-- The flags of a list of results, gathered. -/
theorem foldl_flags_testBit (l : List FRes) (acc k : Nat) :
    (l.foldl (fun acc r => acc ||| r.2) acc).testBit k = true ↔ acc.testBit k = true ∨ ∃ r ∈ l, r.2.testBit k = true := by
  induction l generalizing acc with
  | nil => simp
  | cons r l ih => simp [ih, Nat.testBit_or, or_assoc]

theorem exists_mem_iff_exists_getElem? {α : Type} {l : List α} {m : Nat} {r : Nat → α} (hlen : l.length = m)
    (hr : ∀ k < m, l[k]? = some (r k)) (P : α → Prop) : (∃ x ∈ l, P x) ↔ ∃ k < m, P (r k) := by
  constructor
  · rintro ⟨x, hx, hP⟩
    obtain ⟨k, hk, rfl⟩ := List.mem_iff_getElem.1 hx
    have hkm : k < m := hlen ▸ hk
    exact ⟨k, hkm, Option.some.inj ((List.getElem?_eq_getElem hk).symm.trans (hr k hkm)) ▸ hP⟩
  · rintro ⟨k, hk, hP⟩
    exact ⟨r k, List.mem_of_getElem? (hr k hk), hP⟩

section
variable {s : State} {core : Nat} {rd rs1 rs2 : BitVec 5} {i : Instr}

/-- A legal instruction whose results are a list of elements. -/
theorem floatDone_of_results (h : Executes s core) {legal : Core → Bool} {n : Nat} {l : Core → List FRes} {r : Nat → FRes}
    (hi : exec i s = pelorus core legal (fun C => C.setF rd n (l C)) s) (hl : legal (s.core core) = true)
    (hlen : (l (s.core core)).length = 128 / n) (hr : ∀ k < 128 / n, (l (s.core core))[k]? = some (r k)) :
    floatDone s core n rd r (exec i s) := by
  obtain ⟨hc, hrun, hxs⟩ := h
  refine ⟨_, _, hi.trans (pelorus_next core _ _ s hc hrun hxs hl), fun k hk => ?_, fun k hk => ?_⟩
  · rw [ofElems_lane _ _ k (by simpa [hlen] using hk) (lane_fits hk), List.getElem_map,
      Option.some.inj ((List.getElem?_eq_getElem _).symm.trans (hr k hk))]
  · rw [BitVec.getLsbD_ofNat, decide_eq_true hk, Bool.true_and, foldl_flags_testBit,
      exists_mem_iff_exists_getElem? hlen hr fun x => x.2.testBit k = true]
    simp

/-- An element-wise operation on two registers. -/
theorem floatDone_of_floatOp (h : Executes s core) {w : BitVec 2} {F : Fmt} (hF : fmtOf w = F) {rm : Nat}
    (hrm : (s.core core).rm = rm) {legal : Bool} (hl : legal = true) {f : Fmt → Nat → Nat → Nat → FRes}
    (hi : exec i s = floatOp core rd rs1 rs2 w legal f s) :
    floatDone s core F.width rd (fun k => f F rm (lane s core F.width rs1 k).toNat (lane s core F.width rs2 k).toNat) (exec i s) := by
  subst hF hrm
  refine floatDone_of_results (legal := fun _ => legal) h hi hl (by simp [elems_length]) fun k hk => ?_
  rw [List.getElem?_zipWith, elems_getElem? _ hk, elems_getElem? _ hk]

/-- An operation on the elements of one register. -/
theorem floatDone_of_map (h : Executes s core) {legal : Core → Bool} {n : Nat} {g : Core → Nat → FRes}
    (hi : exec i s = pelorus core legal (fun C => C.setF rd n ((elems n (C.vreg rs1)).map (g C))) s)
    (hl : legal (s.core core) = true) :
    floatDone s core n rd (fun k => g (s.core core) (lane s core n rs1 k).toNat) (exec i s) := by
  refine floatDone_of_results h hi hl (by simp [elems_length]) fun k hk => ?_
  rw [List.getElem?_map, elems_getElem? _ hk]
  rfl

end

/-! ### Complex elements -/

theorem pairs_getElem? (l : List Nat) (k a b : Nat) (ha : l[2 * k]? = some a) (hb : l[2 * k + 1]? = some b) :
    (pairs l)[k]? = some (a, b) := by
  induction l using pairs.induct generalizing k with
  | case1 x y l ih =>
    cases k with
    | zero => simp_all [pairs]
    | succ k => exact ih k ha hb
  | case2 l hl =>
    match l, hl with
    | [], _ => simp at ha
    | [x], _ => simp at hb
    | x :: y :: l, hl => exact absurd rfl (hl x y l)

theorem pairs_length (l : List Nat) : (pairs l).length = l.length / 2 := by
  induction l using pairs.induct with
  | case1 x y l ih =>
    simp only [pairs, List.length_cons, ih]
    omega
  | case2 l hl =>
    match l, hl with
    | [], _ => rfl
    | [x], _ => simp [pairs]
    | x :: y :: l, hl => exact absurd rfl (hl x y l)

theorem unpairs_length (l : List (FRes × FRes)) : (unpairs l).length = 2 * l.length := by
  simp [unpairs, mul_comm]

theorem unpairs_getElem? (l : List (FRes × FRes)) (k : Nat) (p : FRes × FRes) (h : l[k / 2]? = some p) :
    (unpairs l)[k]? = some (if k % 2 = 0 then p.1 else p.2) := by
  induction l generalizing k with
  | nil => simp at h
  | cons q l ih =>
    match k with
    | 0 => simp_all [unpairs]
    | 1 => simp_all [unpairs]
    | k + 2 =>
      have := ih k (by simpa [Nat.add_div_right] using h)
      simpa [unpairs] using this

/-- The elements of a register, two by two. -/
theorem pairs_elems_getElem? {n : Nat} (v : BitVec 128) {k : Nat} (hk : 2 * k + 1 < 128 / n) :
    (pairs (elems n v))[k]? =
      some ((v.extractLsb' (n * (2 * k)) n).toNat, (v.extractLsb' (n * (2 * k + 1)) n).toNat) :=
  pairs_getElem? _ _ _ _ (elems_getElem? v (by omega)) (elems_getElem? v hk)

/-- The parts of the products of complex elements: real in the even places, imaginary in the odd ones. -/
def productPart (F : Fmt) (rm : Nat) (a b : Nat → Nat) (i : Nat) : FRes :=
  let k := i / 2 * 2
  let p := complexMul F rm (a k, a (k + 1)) (b k, b (k + 1))
  if i % 2 = 0 then p.1 else p.2

theorem fmtOf_width_pos (w : BitVec 2) : 0 < (fmtOf w).width := by
  unfold Fmt.width
  omega

theorem fmtOf_width_dvd (w : BitVec 2) : 128 / (fmtOf w).width % 2 = 0 := by
  unfold fmtOf
  split <;> rfl

section
variable {s : State} {core : Nat} {w : BitVec 2} {F : Fmt} {rm : Nat} (h : Executes s core) (hF : fmtOf w = F)
  (hrm : (s.core core).rm = rm) (rd rs1 rs2 : BitVec 5)
include hF

/-- The products of the complex elements of two registers, part by part. -/
theorem products_getElem? (x y : BitVec 128) {i : Nat} (hi : i < 128 / F.width) :
    (unpairs (List.zipWith (complexMul F rm) (pairs (elems F.width x)) (pairs (elems F.width y))))[i]? =
      some (productPart F rm (fun k => (x.extractLsb' (F.width * k) F.width).toNat)
        (fun k => (y.extractLsb' (F.width * k) F.width).toNat) i) := by
  have heven := fmtOf_width_dvd w
  rw [hF] at heven
  have hpair : 2 * (i / 2) + 1 < 128 / F.width := by omega
  rw [unpairs_getElem? _ i (complexMul F rm _ _) (by
    rw [List.getElem?_zipWith, pairs_elems_getElem? x hpair, pairs_elems_getElem? y hpair])]
  simp only [productPart, mul_comm 2]

theorem products_length (x y : BitVec 128) :
    (unpairs (List.zipWith (complexMul F rm) (pairs (elems F.width x)) (pairs (elems F.width y)))).length = 128 / F.width := by
  have heven := fmtOf_width_dvd w
  rw [hF] at heven
  rw [unpairs_length, List.length_zipWith, pairs_length, pairs_length, elems_length, elems_length]
  omega

include h hrm

theorem exec_vfma_floatDone (hw : realW w = true) :
    floatDone s core F.width rd (fun k => F.fma rm (lane s core F.width rs1 k).toNat (lane s core F.width rs2 k).toNat
      (lane s core F.width rd k).toNat) (exec (.vfma core rd rs1 rs2 w) s) := by
  subst hF hrm
  refine floatDone_of_results (legal := fun _ => realW w) h rfl hw (by simp [elems_length]) fun k hk => ?_
  rw [List.getElem?_zipWith, List.zip, List.getElem?_zipWith, elems_getElem? _ hk, elems_getElem? _ hk, elems_getElem? _ hk]

theorem exec_vcmul_floatDone (hw : complexW w = true) :
    floatDone s core F.width rd (productPart F rm (fun k => (lane s core F.width rs1 k).toNat)
      (fun k => (lane s core F.width rs2 k).toNat)) (exec (.vcmul core rd rs1 rs2 w) s) := by
  subst hF hrm
  exact floatDone_of_results (legal := fun _ => complexW w) h rfl hw (products_length rfl _ _)
    fun k hk => products_getElem? rfl _ _ hk

theorem exec_vcmac_floatDone (hw : complexW w = true) :
    floatDone s core F.width rd (fun i => accPart F rm (lane s core F.width rd i).toNat
      (productPart F rm (fun k => (lane s core F.width rs1 k).toNat) (fun k => (lane s core F.width rs2 k).toNat) i))
      (exec (.vcmac core rd rs1 rs2 w) s) := by
  subst hF hrm
  refine floatDone_of_results (legal := fun _ => complexW w) h rfl hw
    (by rw [List.length_zipWith, products_length rfl, elems_length, min_self]) fun k hk => ?_
  rw [List.getElem?_zipWith, products_getElem? rfl _ _ hk, elems_getElem? _ hk]

omit hrm in
theorem exec_vcconj_floatDone (hw : complexW w = true) :
    floatDone s core F.width rd (fun i => (if i % 2 = 0 then F.samePart (lane s core F.width rs1 i).toNat
      else F.negPart (lane s core F.width rs1 i).toNat, 0)) (exec (.vcconj core rd rs1 0 w) s) := by
  have heven := fmtOf_width_dvd w
  subst hF
  refine floatDone_of_results (legal := fun _ => complexW w && (0 : BitVec 5) == 0) h rfl (by simp [hw])
    (by rw [unpairs_length, List.length_map, pairs_length, elems_length]; omega) fun i hi => ?_
  have hpair : 2 * (i / 2) + 1 < 128 / (fmtOf w).width := by omega
  rw [unpairs_getElem? _ i _ (by rw [List.getElem?_map, pairs_elems_getElem? _ hpair]; rfl)]
  split_ifs with hi2
  · simp only [show 2 * (i / 2) = i by omega]
  · simp only [show 2 * (i / 2) + 1 = i by omega]

end

/-! ### The canonical NaN -/

/-- The bits of a value that is not a number. -/
def Fmt.IsNaN (F : Fmt) (x : Nat) : Prop := x / 2 ^ F.mw % 2 ^ F.ew = 2 ^ F.ew - 1 ∧ x % 2 ^ F.mw ≠ 0

/-- Where a result is not a number, it is the canonical one. -/
def Fmt.Quiet (F : Fmt) (r : FRes) : Prop := F.IsNaN r.1 → r.1 = F.canonical

theorem Fmt.unpack_eq_nan {F : Fmt} {x : Nat} (h : F.IsNaN x) : F.unpack x = .nan (x % 2 ^ F.mw < 2 ^ (F.mw - 1)) := by
  obtain ⟨he, hf⟩ := h
  simp only [Fmt.unpack, he, hf, ↓reduceIte]

theorem Fmt.quiet_canonical (F : Fmt) (f : Nat) : F.Quiet (F.canonical, f) := fun _ => rfl

theorem Fmt.quiet_infinity (F : Fmt) (b : Bool) (f : Nat) : F.Quiet (F.infinity b, f) := by
  rintro ⟨-, hf⟩
  refine absurd ?_ hf
  simp only [Fmt.infinity, Fmt.signed, pow_add]
  rw [show b2n b * (2 ^ F.ew * 2 ^ F.mw) + (2 ^ F.ew - 1) * 2 ^ F.mw = (b2n b * 2 ^ F.ew + (2 ^ F.ew - 1)) * 2 ^ F.mw by ring,
    Nat.mul_mod_left]

/-- Magnitudes below that of an infinity are numbers. -/
theorem Fmt.quiet_signed (F : Fmt) (b : Bool) {x : Nat} (hx : x < (2 ^ F.ew - 1) * 2 ^ F.mw) (f : Nat) :
    F.Quiet (F.signed b x, f) := by
  rintro ⟨he, -⟩
  have hlt : x / 2 ^ F.mw < 2 ^ F.ew - 1 := Nat.div_lt_of_lt_mul (by rwa [mul_comm])
  have hexp : F.signed b x / 2 ^ F.mw % 2 ^ F.ew = x / 2 ^ F.mw := by
    rw [Fmt.signed, pow_add, ← mul_assoc, add_comm, Nat.add_mul_div_right _ _ (by positivity), Nat.add_mul_mod_self_right,
      Nat.mod_eq_of_lt (by omega)]
  exact absurd (hexp.symm.trans he) hlt.ne

section
variable {F : Fmt} (hF : 0 < F.ew) (rm : Nat)
include hF

theorem Fmt.zero_lt_infinity : 0 < (2 ^ F.ew - 1) * 2 ^ F.mw := by
  have : 1 < 2 ^ F.ew := Nat.one_lt_two_pow (by omega)
  exact Nat.mul_pos (by omega) (by positivity)

theorem Fmt.quiet_zero (b : Bool) (f : Nat) : F.Quiet (F.signed b 0, f) := F.quiet_signed b (Fmt.zero_lt_infinity hF) f

theorem Fmt.quiet_overflow (b : Bool) : F.Quiet (F.overflow rm b) := by
  have := Fmt.zero_lt_infinity hF
  unfold Fmt.overflow
  split
  · exact F.quiet_signed b (by omega) 5
  · exact F.quiet_infinity b 5

theorem Fmt.quiet_round (b : Bool) (m : Nat) (e : Int) (sticky : Bool) : F.Quiet (F.round rm b m e sticky) := by
  unfold Fmt.round
  extract_lets
  split
  · exact Fmt.quiet_overflow hF rm b
  · exact F.quiet_signed b (by omega) _

theorem Fmt.quiet_sumFin (s : Bool) (m : Nat) (e : Int) (s' : Bool) (m' : Nat) (e' : Int) :
    F.Quiet (F.sumFin rm s m e s' m' e') := by
  unfold Fmt.sumFin
  extract_lets
  split
  · exact Fmt.quiet_zero hF _ _
  · exact Fmt.quiet_round hF rm _ _ _ _

theorem Fmt.quiet_add (a b : Nat) : F.Quiet (F.add rm a b) := by
  unfold Fmt.add
  dsimp only
  split
  · exact F.quiet_canonical _
  · split
    · split
      · exact F.quiet_infinity _ _
      · exact F.quiet_canonical _
    · exact F.quiet_infinity _ _
    · exact F.quiet_infinity _ _
    · exact Fmt.quiet_sumFin hF rm _ _ _ _ _ _
    · exact F.quiet_canonical _

theorem Fmt.quiet_mul (a b : Nat) : F.Quiet (F.mul rm a b) := by
  unfold Fmt.mul
  dsimp only
  split
  · exact F.quiet_canonical _
  · split
    · exact F.quiet_infinity _ _
    · split
      · exact F.quiet_canonical _
      · exact F.quiet_infinity _ _
    · split
      · exact F.quiet_canonical _
      · exact F.quiet_infinity _ _
    · split
      · exact Fmt.quiet_zero hF _ _
      · exact Fmt.quiet_round hF rm _ _ _ _
    · exact F.quiet_canonical _

theorem Fmt.quiet_fma (a b c : Nat) : F.Quiet (F.fma rm a b c) := by
  unfold Fmt.fma
  dsimp only
  split
  · exact F.quiet_canonical _
  · split
    · exact F.quiet_canonical _
    · split
      · split
        · exact F.quiet_infinity _ _
        · exact F.quiet_canonical _
      · exact F.quiet_infinity _ _
      · exact F.quiet_infinity _ _
      · exact Fmt.quiet_sumFin hF rm _ _ _ _ _ _
      · exact F.quiet_canonical _

theorem Fmt.quiet_div (a b : Nat) : F.Quiet (F.div rm a b) := by
  unfold Fmt.div
  dsimp only
  split
  · exact F.quiet_canonical _
  · split
    · exact F.quiet_canonical _
    · exact F.quiet_infinity _ _
    · exact Fmt.quiet_zero hF _ _
    · split
      · split
        · exact F.quiet_canonical _
        · exact F.quiet_infinity _ _
      · split
        · exact Fmt.quiet_zero hF _ _
        · exact Fmt.quiet_round hF rm _ _ _ _
    · exact F.quiet_canonical _

end

section
variable (F : Fmt) (rm : Nat) {a b c : Nat}

theorem anyNan_pair {x y : FNum} (h : (∃ q, x = .nan q) ∨ ∃ q, y = .nan q) : anyNan [x, y] = true := by
  rcases h with ⟨q, rfl⟩ | ⟨q, rfl⟩ <;> simp [anyNan]

theorem Fmt.isNaN_neg (h : F.IsNaN b) : F.IsNaN (F.neg b) := by
  obtain ⟨he, hf⟩ := h
  have hw : 2 ^ F.width = 2 ^ F.mw * (2 ^ F.ew * 2) := by rw [Fmt.width]; ring
  have hs : 2 ^ (F.ew + F.mw) = 2 ^ F.mw * 2 ^ F.ew := by rw [pow_add, mul_comm]
  refine ⟨?_, ?_⟩
  · rw [Fmt.neg, hw, hs, Nat.mod_mul_right_div_self, Nat.mod_mul_right_mod, Nat.add_mul_div_left _ _ (by positivity),
      Nat.add_mod_right, he]
  · rwa [Fmt.neg, hw, hs, Nat.mod_mul_right_mod, Nat.add_mul_mod_self_left]

theorem Fmt.exists_unpack_nan (h : F.IsNaN a ∨ F.IsNaN b) :
    (∃ q, F.unpack a = .nan q) ∨ ∃ q, F.unpack b = .nan q :=
  h.imp (fun h => ⟨_, Fmt.unpack_eq_nan h⟩) fun h => ⟨_, Fmt.unpack_eq_nan h⟩

theorem Fmt.add_of_isNaN (h : F.IsNaN a ∨ F.IsNaN b) : (F.add rm a b).1 = F.canonical := by
  simp only [Fmt.add, anyNan_pair (F.exists_unpack_nan h), ↓reduceIte]

theorem Fmt.mul_of_isNaN (h : F.IsNaN a ∨ F.IsNaN b) : (F.mul rm a b).1 = F.canonical := by
  simp only [Fmt.mul, anyNan_pair (F.exists_unpack_nan h), ↓reduceIte]

theorem Fmt.div_of_isNaN (h : F.IsNaN a ∨ F.IsNaN b) : (F.div rm a b).1 = F.canonical := by
  simp only [Fmt.div, anyNan_pair (F.exists_unpack_nan h), ↓reduceIte]

theorem Fmt.fma_of_isNaN (h : F.IsNaN a ∨ F.IsNaN b ∨ F.IsNaN c) : (F.fma rm a b c).1 = F.canonical := by
  have hnan : anyNan [F.unpack a, F.unpack b, F.unpack c] = true := by
    rcases h with h | h | h <;> simp [anyNan, Fmt.unpack_eq_nan h]
  simp only [Fmt.fma, hnan, ↓reduceIte]
  split <;> rfl

end

/-- Settles O5: each instruction gathers the results and flags of its elements (`floatDone_of_results`); the results of the
arithmetic are numbers, infinities or the canonical NaN (`Fmt.Quiet`). -/
theorem pelorusFloatRoundsAndCollectsFlags : Obligations.PelorusFloatRoundsAndCollectsFlags := by
  unfold Obligations.PelorusFloatRoundsAndCollectsFlags
  refine ⟨fun s core rm rd rs1 rs2 w h ⟨hfrm, hrm5⟩ F hF => ?_, fun F rm a b c hF => ?_⟩
  · have hrm : (s.core core).rm = rm := by rw [Core.rm, hfrm, if_pos hrm5]
    have hF : fmtOf w = F := hF.symm
    refine ⟨floatDone_of_floatOp (f := fun F rm a b => F.add rm a b) h hF hrm rfl rfl,
      floatDone_of_floatOp (f := fun F rm a b => F.sub rm a b) h hF hrm rfl rfl, fun hw => ?_, fun hw => ?_⟩
    · refine ⟨floatDone_of_floatOp (f := fun F rm a b => F.mul rm a b) h hF hrm hw rfl,
        exec_vfma_floatDone h hF hrm rd rs1 rs2 hw,
        floatDone_of_floatOp (f := fun F rm a b => F.div rm a b) h hF hrm hw rfl,
        floatDone_of_floatOp (f := fun F _ a b => (maskOf F.width (F.lt a b).1, (F.lt a b).2)) h hF hrm hw rfl, ?_, ?_⟩
      · subst hF hrm
        simpa only [signedOf_toNat (fmtOf_width_pos w)] using
          floatDone_of_map (rd := rd) (rs1 := rs1) (g := fun C a => (fmtOf w).ofInt C.rm (signedOf (fmtOf w).width a)) h
            (i := .vfcvtfi core rd rs1 0 w) (legal := fun _ => realW w && (0 : BitVec 5) == 0) rfl (by simp [show realW w = true from hw])
      · subst hF hrm
        exact floatDone_of_map (g := fun C a => (fmtOf w).toInt C.rm (fmtOf w).width a) h
          (legal := fun _ => realW w && (0 : BitVec 5) == 0) rfl (by simp [show realW w = true from hw])
    · have hc : complexW w = true := by rw [complexW, hw]; rfl
      exact ⟨exec_vcmul_floatDone h hF hrm rd rs1 rs2 hc, exec_vcmac_floatDone h hF hrm rd rs1 rs2 hc,
        exec_vcconj_floatDone h hF rd rs1 hc⟩
  · have hew : 0 < F.ew := by rcases hF with rfl | rfl <;> decide
    refine ⟨?_, ?_, fun hc => Fmt.fma_of_isNaN F rm (.inr (.inr hc))⟩
    · simp only [List.forall_mem_cons, List.not_mem_nil, false_imp_iff, implies_true, and_true]
      exact ⟨Fmt.quiet_add hew rm a b, Fmt.quiet_add hew rm a _, Fmt.quiet_mul hew rm a b, Fmt.quiet_div hew rm a b,
        Fmt.quiet_fma hew rm a b c⟩
    · intro h
      simp only [List.forall_mem_cons, List.not_mem_nil, false_imp_iff, implies_true, and_true]
      exact ⟨F.add_of_isNaN rm h, F.add_of_isNaN rm (h.imp_right F.isNaN_neg), F.mul_of_isNaN rm h, F.div_of_isNaN rm h,
        F.fma_of_isNaN rm (h.imp_right .inl)⟩

end Sys2Proof.Machine
end

section
/-! PROOF. What the operations on lattices, codes and hashes compute (05_lattice.md; 06_hash_signatures_and_digests.md;
07_code_and_classical.md). -/

namespace Sys2Proof.Machine

theorem Computes.mono {c : Instr} {j : Nat} {s : State} {P Q : JobOut → Nat → Prop} (h : Computes c j s P)
    (hPQ : ∀ o n, P o n → Q o n) : Computes c j s Q := by
  obtain ⟨o, n, hx, hP⟩ := h
  exact ⟨o, n, hx, hPQ o n hP⟩

/-! ### What a keygen and a secret leave -/

/-- A keygen's result: the public key is returned, the secret key stored, the handle and the length in RESULT. -/
abbrev JobOut.StoresPair (o : JobOut) (s : State) (J : Job) (alg pk sk : Nat) : Prop :=
  o.status = St.ok ∧ o.output.length = pk ∧ o.result = s.newHandle J 0 + pk * 2 ^ 32 ∧ o.makes J 0 alg .priv sk

/-- An agreement's or decapsulation's result: the secret is stored and nothing written. -/
abbrev JobOut.StoresSecret (o : JobOut) (s : State) (J : Job) (z : Nat) : Prop :=
  o.status = St.ok ∧ o.output = [] ∧ o.result = s.newHandle J 0 ∧ o.makes J 0 0x7000 .secret z

/-- An encapsulation's result: the ciphertext is returned and the secret stored. -/
abbrev JobOut.SharesSecret (o : JobOut) (s : State) (J : Job) (ct z : Nat) : Prop :=
  o.status = St.ok ∧ o.output.length = ct ∧ o.result = s.newHandle J 0 + ct * 2 ^ 32 ∧ o.makes J 0 0x7000 .secret z

theorem defaultKey_makes {J : Job} {i alg n : Nat} {kind : KeyKind} {o : JobOut} {m pub : Bytes}
    {parent : Option (Nat × Key)} (ho : ∀ e ∈ J.newKey i (defaultKey alg kind J.fn m pub parent), e ∈ o.keys)
    (hm : m.length = n) : o.makes J i alg kind n := by
  obtain ⟨halg, hkind, howner, hmaterial⟩ := defaultKey_given alg kind J.fn m pub parent
  exact newKey_makes ho ⟨halg, hkind, howner, by rw [hmaterial, hm]⟩

theorem State.secretOut_sharesSecret (s : State) (J : Job) (z c : Bytes) :
    (s.secretOut J z c).SharesSecret s J c.length z.length :=
  ⟨rfl, rfl, rfl, defaultKey_makes (fun _ he => he) rfl⟩

theorem State.secretOut_storesSecret (s : State) (J : Job) (z : Bytes) : (s.secretOut J z []).StoresSecret s J z.length :=
  ⟨rfl, rfl, rfl, defaultKey_makes (fun _ he => he) rfl⟩

theorem State.keygenOut_of_bad {s : State} {J : Job} {P : Pair} (h : P.bad = true) :
    s.keygenOut J P = (runaway, P.draws) := by
  simp [State.keygenOut, h]

theorem State.keygenOut_of_good {s : State} {J : Job} {P : Pair} (h : P.bad = false) :
    (s.keygenOut J P).1.StoresPair s J (algOf J.opcode) P.pk.length P.sk.length ∧ (s.keygenOut J P).2 = P.draws := by
  rw [State.keygenOut, if_neg (by simp [h])]
  exact ⟨⟨rfl, rfl, rfl, defaultKey_makes (fun _ he => he) rfl⟩, rfl⟩

/-- A keygen stores its pair, or its loop ran away. -/
theorem State.keygenOut_cases (s : State) (J : Job) (P : Pair) : (s.keygenOut J P).2 = P.draws ∧
    ((P.bad = false ∧ (s.keygenOut J P).1.StoresPair s J (algOf J.opcode) P.pk.length P.sk.length) ∨
      (P.bad = true ∧ (s.keygenOut J P).1.mchecked)) := by
  cases h : P.bad
  · obtain ⟨hs, hd⟩ := State.keygenOut_of_good (s := s) (J := J) h
    exact ⟨hd, .inl ⟨rfl, hs⟩⟩
  · rw [State.keygenOut_of_bad h]
    exact ⟨rfl, .inr ⟨rfl, runaway_mchecked⟩⟩

/-! ### Key pairs -/

/-- The bytes that the seed of a keygen takes from the DRBG. -/
def seedDrawn (alg : Nat) : Nat :=
  match alg / 0x100 with
  | 0x10 => 64 | 0x20 => 32 | 0x30 => 3 * (pkLen alg / 2) | 0x40 => 64 | 0x44 => 32 | 0x59 => 32 | 0x24 => 32 | _ => skLen alg

section
variable (op d : Nat) (seed : Option Bytes)

theorem makePair_pk_length (h30 : algOf op / 0x100 ≠ 0x30) (h59 : algOf op / 0x100 ≠ 0x59) :
    (makePair op d seed).pk.length = pkLen (algOf op) := by
  unfold makePair
  extract_lets
  split
  · exact prim_length _ _ _
  · exact absurd ‹_› h30
  · exact prim_length _ _ _
  · exact absurd ‹_› h59
  · exact prim_length _ _ _

theorem makePair_sk_length (h30 : algOf op / 0x100 ≠ 0x30) : (makePair op d seed).sk.length = skLen (algOf op) := by
  unfold makePair
  extract_lets
  split
  · exact prim_length _ _ _
  · exact absurd ‹_› h30
  · exact prim_length _ _ _
  · exact prim_length _ _ _
  · exact prim_length _ _ _

theorem makePair_draws (h24 : algOf op / 0x100 ≠ 0x24) :
    (makePair op d seed).draws = if seed.isSome then 0 else seedDrawn (algOf op) := by
  unfold makePair seedDrawn
  extract_lets
  split
  · exact absurd ‹_› h24
  all_goals rfl

/-- FN-DSA draws 32 bytes for each attempt, of which there are 48 at most. -/
theorem makePair_draws_le (h24 : algOf op / 0x100 = 0x24) : (makePair op d seed).draws ≤ 48 * 32 := by
  unfold makePair
  simp only [h24]
  omega

/-- Only the keygens with a loop or a fixed pool can fail. -/
theorem makePair_good (h : pooled (algOf op) = false) (h24 : algOf op / 0x100 ≠ 0x24) (h44 : algOf op / 0x100 ≠ 0x44)
    (h59 : algOf op / 0x100 ≠ 0x59) : (makePair op d seed).bad = false := by
  unfold makePair
  extract_lets alg n src drew
  split
  · exact absurd ‹_› h24
  · rfl
  · exact absurd ‹_› h44
  · exact absurd ‹_› h59
  · simp [alg, h]

end

/-! ### The rows that keygens, encapsulations, decapsulations and verifications share -/

section
variable {c : Instr} {hi j op alg : Nat} {s : State} {J : Job} (h : s.running j J op) (ho : op / 0x100 = hi)
  (halg : algOf op = alg)
include h ho halg

theorem computes_keygen (hx : exec c s = keygenRow hi j s) (h24 : alg / 0x100 ≠ 0x24) (h30 : alg / 0x100 ≠ 0x30)
    (h59 : alg / 0x100 ≠ 0x59) : Computes c j s fun o n =>
      n = (if bitOf J.param.toNat 12 then 0 else seedDrawn alg) ∧
        (o.StoresPair s J alg (pkLen alg) (skLen alg) ∨ ((pooled alg = true ∨ alg / 0x100 = 0x44) ∧ o.mchecked)) := by
  subst halg
  obtain ⟨-, hop, -⟩ := id h
  refine computes_of_row hx h ho ?_
  rw [hop]
  generalize hseed : (if J.pbit 12 = true then some (J.auxPart 0) else none) = seed
  have hdraw : seed.isSome = bitOf J.param.toNat 12 := by
    rw [← hseed, Job.pbit]
    split <;> simp_all
  obtain ⟨hn, hcases⟩ := s.keygenOut_cases J (makePair op s.draws seed)
  rw [hop, makePair_pk_length _ _ _ h30 h59, makePair_sk_length _ _ _ h30] at hcases
  rw [makePair_draws _ _ _ h24, hdraw] at hn
  refine ⟨hn, hcases.imp And.right fun ⟨hbad, hm⟩ => ⟨?_, hm⟩⟩
  by_contra hno
  rw [not_or, Bool.not_eq_true] at hno
  rw [makePair_good _ _ _ hno.1 h24 hno.2 h59] at hbad
  exact Bool.false_ne_true hbad

theorem computes_encaps {draw : Nat} {checks : Bool} (hx : exec c s = computeRow hi j (fun s J => s.encapsOut J draw checks) s) :
    Computes c j s fun o n => (n = draw ∧ o.SharesSecret s J (sigLen alg) (ssLen alg)) ∨
      (checks = true ∧ n = 0 ∧ o.keyRefused) ∨ (checks = false ∧ n = draw ∧ o.mchecked) := by
  subst halg
  obtain ⟨-, hop, -⟩ := id h
  refine computes_of_row hx h ho ?_
  rw [← hop, State.encapsOut]
  dsimp only
  split_ifs with hkey hpool
  · rw [Bool.and_eq_true] at hkey
    exact .inr (.inl ⟨hkey.1, rfl, keyFails_refused false⟩)
  · rw [Bool.and_eq_true, Bool.not_eq_true'] at hpool
    exact .inr (.inr ⟨hpool.1, rfl, runaway_mchecked⟩)
  · refine .inl ⟨rfl, ?_⟩
    generalize hr : prim (.encaps (algOf J.opcode)) _ _ = r
    have hlen : r.length = sigLen (algOf J.opcode) + ssLen (algOf J.opcode) := by rw [← hr, prim_length]
    have hs := s.secretOut_sharesSecret J (r.drop (sigLen (algOf J.opcode))) (r.take (sigLen (algOf J.opcode)))
    rwa [List.length_drop, List.length_take, hlen, Nat.add_sub_cancel_left, min_eq_left (Nat.le_add_right _ _)] at hs

theorem computes_decaps {checks : Bool} (hx : exec c s = computeRow hi j (fun s J => s.decapsOut J checks) s) :
    Computes c j s fun o n => n = 0 ∧ (o.StoresSecret s J (ssLen alg) ∨ (checks = true ∧ o.keyRefused ∧ o.badKey = true)) := by
  subst halg
  obtain ⟨-, hop, -⟩ := id h
  refine computes_of_row hx h ho ?_
  rw [State.decapsOut]
  split_ifs with hkey
  · have hs := s.secretOut_storesSecret J (prim (.decaps (algOf J.opcode)) [s.keyBytes J, J.input] (ssLen (algOf J.opcode)))
    rw [prim_length, hop] at hs
    rw [hop]
    exact ⟨rfl, .inl hs⟩
  · rw [Bool.or_eq_true, not_or, Bool.not_eq_true', Bool.not_eq_false] at hkey
    exact ⟨rfl, .inr ⟨hkey.1, keyFails_refused true, rfl⟩⟩

omit halg in
theorem computes_pureRow {f : State → Job → JobOut} (hx : exec c s = computeRow hi j (fun s J => pureOut (f s J)) s)
    {P : JobOut → Prop} (hf : P (f s J)) : Computes c j s fun o n => n = 0 ∧ P o :=
  computes_of_row hx h ho ⟨rfl, hf⟩

end

theorem State.dsaVerify_verdict (s : State) (J : Job) : (s.dsaVerify J).verdict := verdictOf_verdict _

/-! ### ML-KEM, ML-DSA and FN-DSA -/

theorem firstPass_pos (alg d n i : Nat) : 1 ≤ firstPass alg d n i := by
  induction n generalizing i with
  | zero => exact Nat.le_add_left 1 i
  | succ n ih =>
    unfold firstPass
    split
    · exact Nat.le_add_left 1 i
    · exact ih (i + 1)

theorem firstPass_le (alg d n i : Nat) : firstPass alg d n i ≤ i + n + 1 := by
  induction n generalizing i with
  | zero => exact le_refl _
  | succ n ih =>
    unfold firstPass
    split
    · omega
    · exact (ih (i + 1)).trans (by omega)

section
variable {j op alg sg : Nat} {s : State} {J : Job} (h : s.running j J op) (halg : algOf op = alg) (hsg : sigLen alg = sg)
include h halg hsg

theorem computes_mlDsaSign (ho : op / 0x100 = 0x21) : Computes (.mlDsaSign j) j s fun o n =>
    n = (if bitOf J.param.toNat 8 then 0 else 32) ∧ ((o.status = St.ok ∧ o.output.length = sg ∧ o.keys = [] ∧
      ∃ i, 1 ≤ i ∧ i ≤ 1024 ∧ o.result = sg + i * 2 ^ 32) ∨ o.mchecked) := by
  obtain ⟨-, hop, -⟩ := id h
  subst halg hsg hop
  have hx : exec (.mlDsaSign j) s = execMlDsaSign j s := rfl
  rw [execMlDsaSign] at hx
  refine computes_of_row hx h ho ?_
  rw [show bitOf J.param.toNat 8 = J.pbit 8 from rfl]
  dsimp only
  generalize [s.keyBytes J, _, _] = ins
  generalize (if J.pbit 8 = true then 0 else 32) = n
  split_ifs with hrun
  · exact ⟨rfl, .inr runaway_mchecked⟩
  · rw [Bool.or_eq_true, decide_eq_true_iff, not_or, not_lt] at hrun
    exact ⟨rfl, .inl ⟨rfl, prim_length _ _ _, rfl, _, Nat.le_add_right 1 _, hrun.1, congrArg (· + _) (prim_length _ _ _)⟩⟩

theorem computes_fnDsaSign (ho : op / 0x100 = 0x25) : Computes (.fnDsaSign j) j s fun o n =>
    (o.status = St.ok ∧ o.output.length = sg ∧ o.keys = [] ∧
      ∃ i, 1 ≤ i ∧ i ≤ 64 ∧ n = 40 + 32 * i ∧ o.result = sg + i * 2 ^ 32) ∨ (n = 40 + 32 * 64 ∧ o.mchecked) := by
  obtain ⟨-, hop, -⟩ := id h
  subst halg hsg hop
  have hx : exec (.fnDsaSign j) s = execFnDsaSign j s := rfl
  rw [execFnDsaSign] at hx
  refine computes_of_row hx h ho ?_
  dsimp only
  generalize [s.keyBytes J, _, _, _] = ins
  split_ifs with hrun
  · exact .inr ⟨by rw [min_eq_right hrun.le], runaway_mchecked⟩
  · rw [not_lt] at hrun
    exact .inl ⟨rfl, prim_length _ _ _, rfl, _, firstPass_pos _ _ _ _, hrun, by rw [min_eq_left hrun],
      congrArg (· + _) (prim_length _ _ _)⟩

end

theorem computes_fnDsaKeygen {j op alg : Nat} {s : State} {J : Job} (h : s.running j J op) (ho : op / 0x100 = 0x24)
    (halg : algOf op = alg) (hcls : alg / 0x100 = 0x24) : Computes (.fnDsaKeygen j) j s fun o n =>
      (o.status = St.ok ∧ n ≤ 48 * 32 ∧ o.output.length = pkLen alg ∧ o.result = s.newHandle J 0 + pkLen alg * 2 ^ 32 ∧
        o.makes J 0 alg .priv (skLen alg)) ∨ o.mchecked := by
  obtain ⟨-, hop, -⟩ := id h
  subst halg hop
  have hx : exec (.fnDsaKeygen j) s = execFnDsaKeygen j s := rfl
  rw [execFnDsaKeygen, keygenRow] at hx
  refine computes_of_row hx h ho ?_
  generalize (if J.pbit 12 = true then some (J.auxPart 0) else none) = seed
  obtain ⟨hn, ⟨-, hst, hlen, hres, hmakes⟩ | ⟨-, hm⟩⟩ := s.keygenOut_cases J (makePair J.opcode s.draws seed)
  · rw [makePair_pk_length _ _ _ (by omega) (by omega)] at hlen hres
    rw [makePair_sk_length _ _ _ (by omega)] at hmakes
    exact .inl ⟨hst, hn ▸ makePair_draws_le _ _ _ hcls, hlen, hres, hmakes⟩
  · exact .inr hm


theorem computes_fnDsaVerify {j op : Nat} {s : State} {J : Job} (h : s.running j J op) (ho : op / 0x100 = 0x26) :
    Computes (.fnDsaVerify j) j s fun o n => n = 0 ∧ (o.verdict ∨ o.keyRefused) := by
  have hx : exec (.fnDsaVerify j) s = execFnDsaVerify j s := rfl
  rw [execFnDsaVerify] at hx
  refine computes_of_row hx h ho ?_
  split
  · exact ⟨rfl, .inl (s.dsaVerify_verdict J)⟩
  · exact ⟨rfl, .inr (keyFails_refused false)⟩

/-- Settles O6: each row's sizes are those of its set, and the shared forms (`computes_keygen` and the like) say the rest. -/
theorem latticeJobsComputeTheirResults : Obligations.LatticeJobsComputeTheirResults := by
  unfold Obligations.LatticeJobsComputeTheirResults
  refine ⟨?mlKem, ?mlDsa, ?fnDsa⟩
  case mlKem =>
    intro row hrow s j J
    simp only [List.mem_cons, List.not_mem_nil, or_false] at hrow
    rcases hrow with rfl | rfl | rfl
    all_goals
      refine ⟨fun h => (computes_keygen h rfl rfl rfl (by decide) (by decide) (by decide)).mono ?_,
        fun h => (computes_encaps h rfl rfl rfl).mono ?_, fun h => (computes_decaps h rfl rfl rfl).mono ?_⟩
      · rintro o n ⟨hn, hst | ⟨hbad, -⟩⟩
        · exact ⟨hn, hst⟩
        · exact absurd hbad (by decide)
      · rintro o n (h | ⟨-, h⟩ | ⟨hno, -⟩)
        · exact .inl h
        · exact .inr h
        · exact absurd hno (by decide)
      · exact fun o n ⟨hn, h⟩ => ⟨hn, h.imp_right And.right⟩
  case mlDsa =>
    intro row hrow s j J
    simp only [List.mem_cons, List.not_mem_nil, or_false] at hrow
    rcases hrow with rfl | rfl | rfl
    all_goals
      refine ⟨fun h => (computes_keygen h rfl rfl rfl (by decide) (by decide) (by decide)).mono ?_,
        fun h => computes_mlDsaSign h rfl rfl rfl, fun h => computes_pureRow h rfl rfl (State.dsaVerify_verdict s J)⟩
      exact fun o n ⟨hn, h⟩ => ⟨hn, h.imp_right And.right⟩
  case fnDsa =>
    intro row hrow s j J
    simp only [List.mem_cons, List.not_mem_nil, or_false] at hrow
    rcases hrow with rfl | rfl
    all_goals
      exact ⟨fun h => computes_fnDsaKeygen h rfl rfl rfl, fun h => computes_fnDsaSign h rfl rfl rfl,
        fun h => computes_fnDsaVerify h rfl⟩

end Sys2Proof.Machine
end

section
/-! PROOF. What the hash-based signatures and the code-based KEMs compute (06_hash_signatures_and_digests.md R124-R140,
R151; 07_code_and_classical.md R152-R163). -/

namespace Sys2Proof.Machine

/-! ### SLH-DSA -/

/-- A key pair of SLH-DSA has the lengths of its set, whether its seed is drawn or supplied (R125). -/
theorem makePair_slh {op d m : Nat} {seed : Option Bytes} (hcls : algOf op / 0x100 = 0x30) (hm : pkLen (algOf op) / 2 = m)
    (hseed : ∀ b, seed = some b → b.length = 3 * m) :
    (makePair op d seed).pk.length = 2 * m ∧ (makePair op d seed).sk.length = 4 * m ∧
      (makePair op d seed).bad = false := by
  have hsrc : (seed.getD (drbgBytes d (3 * m))).length = 3 * m := by
    cases seed with
    | none => exact drbgBytes_length _ _
    | some b => exact hseed b rfl
  subst hm
  simp only [makePair, hcls, sliceOf, List.length_append, List.length_take, List.length_drop, prim_length, hsrc, and_true]
  omega

section
variable {j op alg m : Nat} {s : State} {J : Job} (h : s.running j J op) (halg : algOf op = alg)
include h halg

theorem computes_slhDsaKeygen (ho : op / 0x100 = 0x30) (hcls : alg / 0x100 = 0x30) (hm : pkLen alg / 2 = m)
    (hseed : bitOf J.param.toNat 12 → (J.auxPart 0).length = 3 * m) : Computes (.slhDsaKeygen j) j s fun o n =>
      n = (if bitOf J.param.toNat 12 then 0 else 3 * m) ∧ o.StoresPair s J alg (2 * m) (4 * m) := by
  obtain ⟨-, hop, -⟩ := id h
  subst halg hop
  have hx : exec (.slhDsaKeygen j) s = execSlhDsaKeygen j s := rfl
  rw [execSlhDsaKeygen, keygenRow] at hx
  refine computes_of_row hx h ho ?_
  generalize hsd : (if J.pbit 12 = true then some (J.auxPart 0) else none) = seed
  have hdraw : seed.isSome = bitOf J.param.toNat 12 := by
    rw [← hsd, Job.pbit]
    split <;> simp_all
  have hlen (b) (hb : seed = some b) : b.length = 3 * m := by
    subst hb
    split at hsd <;> simp_all [Job.pbit]
  obtain ⟨hpk, hsk, hgood⟩ := makePair_slh (d := s.draws) hcls hm hlen
  obtain ⟨hst, hn⟩ := State.keygenOut_of_good (s := s) (J := J) hgood
  rw [makePair_draws _ _ _ (by omega), hdraw, seedDrawn, hcls] at hn
  rw [hpk, hsk] at hst
  exact ⟨hm ▸ hn, hst⟩

theorem computes_slhDsaSign {sg : Nat} (ho : op / 0x100 = 0x31) (hm : pkLen alg / 2 = m) (hsg : sigLen alg = sg) :
    Computes (.slhDsaSign j) j s fun o n => n = (if bitOf J.param.toNat 8 then 0 else m) ∧ o.status = St.ok ∧
      o.output.length = sg ∧ o.result = sg ∧ o.keys = [] := by
  obtain ⟨-, hop, -⟩ := id h
  subst halg hop hm hsg
  have hx : exec (.slhDsaSign j) s = execSlhDsaSign j s := rfl
  rw [execSlhDsaSign] at hx
  exact computes_of_row hx h ho ⟨rfl, rfl, prim_length _ _ _, prim_length _ _ _, rfl⟩

end

/-! ### Stateful signatures -/

/-- A new stateful key: no leaf used, and the block that PARAM names (R132). -/
abbrev JobOut.StoresFreshTree (o : JobOut) (s : State) (J : Job) (op : Nat) : Prop :=
  o.status = St.ok ∧ o.result = s.newHandle J 0 + o.output.length * 2 ^ 32 ∧
    ∀ k, J.newIdx[0]? = some k → ∃ K H, o.keys = [(k, K)] ∧ K.alg = op ∧ K.kind = .priv ∧ K.owner = J.fn ∧
      K.hbs = some H ∧ H.next = 0 ∧ H.block = bitsOf J.param.toNat 41 32 + 1

theorem State.statefulOut_fresh (s : State) (J : Job) (sk pk : Bytes) {H : Hbs} (hnext : H.next = 0)
    (hblock : H.block = bitsOf J.param.toNat 41 32 + 1) : (s.statefulOut J sk pk H).StoresFreshTree s J J.opcode := by
  refine ⟨rfl, rfl, fun k hk => ⟨{ defaultKey J.opcode .priv J.fn sk pk none with hbs := some H }, H, ?_, ?_⟩⟩
  · simp [State.statefulOut, Job.newKey, hk]
  · obtain ⟨halg, hkind, howner, -⟩ := defaultKey_given J.opcode .priv J.fn sk pk none
    exact ⟨halg, hkind, howner, rfl, hnext, hblock⟩

/-- The signed roots of a new key leave its leaves alone. -/
theorem Hbs.signRoots_fst (H : Hbs) (b d : Nat) :
    (H.signRoots b d).1.next = H.next ∧ (H.signRoots b d).1.block = H.block := by
  unfold Hbs.signRoots
  generalize rootLeaves H.types b = l
  suffices hinv : ∀ acc : Hbs × Nat, acc.1.next = H.next ∧ acc.1.block = H.block →
      (l.foldl _ acc).1.next = H.next ∧ (l.foldl _ acc).1.block = H.block from hinv (H, 0) ⟨rfl, rfl⟩
  induction l with
  | nil => exact fun _ h => h
  | cons x l ih =>
    intro acc hacc
    refine ih _ ?_
    dsimp only
    split <;> exact hacc

section
variable {j op : Nat} {s : State} {J : Job} (h : s.running j J op)
include h

theorem computes_hssKeygen (ho : op / 0x100 = 0x34) :
    Computes (.hssKeygen j) j s fun o n => 64 ≤ n ∧ o.StoresFreshTree s J op := by
  obtain ⟨-, hop, -⟩ := id h
  subst hop
  have hx : exec (.hssKeygen j) s = execHssKeygen j s := rfl
  rw [execHssKeygen] at hx
  refine computes_of_row hx h ho ⟨Nat.le_add_right _ _, State.statefulOut_fresh s J _ _ ?_ ?_⟩
  · exact (Hbs.signRoots_fst _ _ _).1
  · exact (Hbs.signRoots_fst _ _ _).2

theorem computes_xmssKeygenRow {c : Instr} {hi : Nat} {mt : Bool} (hx : exec c s = xmssKeygenRow hi j mt s)
    (ho : op / 0x100 = hi) :
    Computes c j s fun o n => n = 4 * (xmssSet mt (op % 256)).2.2.1 ∧ o.StoresFreshTree s J op := by
  obtain ⟨-, hop, -⟩ := id h
  subst hop
  exact computes_of_row hx h ho ⟨rfl, State.statefulOut_fresh s J _ _ rfl rfl⟩

end

/-- A sign over a leaf returns the leaf and what remains, and changes no key (R133). -/
theorem State.hbsOut_of_leaf {s : State} {J : Job} {i v : Nat} {K : Key} {H : Hbs} (hpin : J.pin = some i)
    (hkey : s.key? i = some K) (hH : K.hbs = some H) (hleaf : J.leaf = some v) (sig : Hbs → Nat → Bytes) :
    s.hbsOut J sig = { output := sig H v, result := (sig H v).length, ret := leafRet H v } := by
  simp [State.hbsOut, hpin, hkey, hH, hleaf]

theorem State.leafStatus_of_hbs {s : State} {J : Job} {i : Nat} {K : Key} {H : Hbs} (hpin : J.pin = some i)
    (hkey : s.key? i = some K) (hH : K.hbs = some H) :
    s.leafStatus J = { result := H.skip H.next, ret := le 8 H.reserved ++ le 4 H.flags } := by
  simp [State.leafStatus, hpin, hkey, hH]

theorem State.statefulVerify_answers (s : State) (J : Job) : (s.statefulVerify J).verdict ∨ (s.statefulVerify J).keyRefused := by
  unfold State.statefulVerify
  dsimp only
  split
  · exact .inl (verdictOf_verdict _)
  · exact .inr (keyFails_refused false)

/-- Settles O7: SLH-DSA has the shared forms with the sizes of its sets; a stateful job reads its key's leaf state and
returns it. -/
theorem hashSignatureJobsComputeTheirResults : Obligations.HashSignatureJobsComputeTheirResults := by
  unfold Obligations.HashSignatureJobsComputeTheirResults
  refine ⟨?slhDsa, fun s j J op h => ?stateful⟩
  case slhDsa =>
    intro row hrow s j J
    simp only [List.mem_cons, List.not_mem_nil, or_false] at hrow
    rcases hrow with rfl | rfl | rfl | rfl | rfl | rfl | rfl | rfl | rfl | rfl | rfl | rfl
    all_goals
      exact ⟨fun h hseed => computes_slhDsaKeygen h rfl rfl rfl rfl hseed, fun h => computes_slhDsaSign h rfl rfl rfl rfl,
        fun h => computes_pureRow h rfl rfl (State.dsaVerify_verdict s J)⟩
  case stateful =>
    intro fresh signed status
    have hsign (sig : Hbs → Nat → Bytes) : signed (s.hbsOut J sig) := fun i K H v hpin hkey hH hleaf => by
      rw [State.hbsOut_of_leaf hpin hkey hH hleaf]
      exact ⟨rfl, rfl, rfl, rfl⟩
    have hstatus : status (s.leafStatus J) := fun i K H hpin hkey hH => by
      rw [State.leafStatus_of_hbs hpin hkey hH]
      exact ⟨rfl, rfl, rfl, rfl, rfl⟩
    have hverify := s.statefulVerify_answers J
    refine ⟨computes_hssKeygen h, computes_xmssKeygenRow h rfl, computes_xmssKeygenRow h rfl, fun ho => ?hss,
      fun ho => ?xmss, fun ho => ?xmssmt, fun ho => computes_pureRow (f := State.statefulVerify) h ho rfl hverify,
      fun ho => computes_pureRow (f := State.statefulVerify) h ho rfl hverify,
      fun ho => computes_pureRow (f := State.statefulVerify) h ho rfl hverify,
      fun ho => computes_pureRow (f := State.leafStatus) h ho rfl hstatus,
      fun ho => computes_pureRow (f := State.leafStatus) h ho rfl hstatus,
      fun ho => computes_pureRow (f := State.leafStatus) h ho rfl hstatus⟩
    case hss =>
      have hx : exec (.hssSign j) s = execHssSign j s := rfl
      rw [execHssSign] at hx
      exact computes_of_row hx h ho (hsign _)
    case xmss =>
      have hx : exec (.xmssSign j) s = execXmssSign j s := rfl
      rw [execXmssSign] at hx
      exact computes_of_row hx h ho ⟨rfl, hsign _⟩
    case xmssmt =>
      have hx : exec (.xmssmtSign j) s = execXmssmtSign j s := rfl
      rw [execXmssmtSign] at hx
      exact computes_of_row hx h ho ⟨rfl, hsign _⟩

/-! ### HQC and Classic McEliece -/

theorem computes_mcelieceKeygen {j op alg : Nat} {s : State} {J : Job} (h : s.running j J op) (ho : op / 0x100 = 0x44)
    (halg : algOf op = alg) (hcls : alg / 0x100 = 0x44) : Computes (.mcelieceKeygen j) j s fun o n =>
      n = (if bitOf J.param.toNat 12 then 0 else 32) ∧
      ((o.status = St.ok ∧ o.output.length = (if J.dst = 0 then 0 else pkLen alg) ∧
        o.result = s.newHandle J 0 + (if J.dst = 0 then 0 else pkLen alg) * 2 ^ 32 ∧ o.ret.take 4 = le 4 (s.newHandle J 1) ∧
        o.makes J 0 alg .priv (skLen alg) ∧ o.makes J 1 alg .pub (pkLen alg)) ∨ o.mchecked) := by
  obtain ⟨-, hop, -⟩ := id h
  subst halg hop
  have hx : exec (.mcelieceKeygen j) s = execMcelieceKeygen j s := rfl
  rw [execMcelieceKeygen] at hx
  refine computes_of_row hx h ho ?_
  generalize hseed : (if J.pbit 12 = true then some (J.auxPart 0) else none) = seed
  have hdraw : seed.isSome = bitOf J.param.toNat 12 := by
    rw [← hseed, Job.pbit]
    split <;> simp_all
  have hpk := makePair_pk_length J.opcode s.draws seed (by omega) (by omega)
  have hsk := makePair_sk_length J.opcode s.draws seed (by omega)
  have hn := makePair_draws J.opcode s.draws seed (by omega)
  rw [hdraw, seedDrawn, hcls] at hn
  dsimp only
  generalize makePair J.opcode s.draws seed = P at hpk hsk hn
  have hout : (if J.dst = 0 then [] else P.pk).length = if J.dst = 0 then 0 else pkLen (algOf J.opcode) := by
    rw [apply_ite List.length, hpk]
    rfl
  generalize (if J.dst = 0 then [] else P.pk) = out at hout
  rw [← hout]
  cases P.bad
  · refine ⟨hn, .inl ⟨rfl, rfl, rfl, ?_, defaultKey_makes (fun e he => List.mem_append_left _ he) hsk,
      defaultKey_makes (fun e he => List.mem_append_right _ he) hpk⟩⟩
    exact List.take_left' (le_length _ _)
  · exact ⟨hn, .inr runaway_mchecked⟩

section
variable {c : Instr} {hi j op alg : Nat} {s : State} {J : Job} (h : s.running j J op) (ho : op / 0x100 = hi)
  (halg : algOf op = alg)
include h ho halg

/-- A code-based encapsulation checks no key; its pool may fall short (R157). -/
theorem computes_codeEncaps {draw : Nat} (hx : exec c s = computeRow hi j (fun s J => s.encapsOut J draw false) s) :
    Computes c j s fun o n => n = draw ∧ (o.SharesSecret s J (sigLen alg) (ssLen alg) ∨ o.mchecked) := by
  refine (computes_encaps h ho halg hx).mono ?_
  rintro o n (⟨hn, h⟩ | ⟨hno, -⟩ | ⟨-, hn, h⟩)
  · exact ⟨hn, .inl h⟩
  · exact absurd hno (by decide)
  · exact ⟨hn, .inr h⟩

/-- A code-based decapsulation always completes with OK (R156). -/
theorem computes_codeDecaps (hx : exec c s = computeRow hi j (fun s J => s.decapsOut J false) s) :
    Computes c j s fun o n => n = 0 ∧ o.StoresSecret s J (ssLen alg) := by
  refine (computes_decaps h ho halg hx).mono ?_
  rintro o n ⟨hn, h | ⟨hno, -⟩⟩
  · exact ⟨hn, h⟩
  · exact absurd hno (by decide)

end

/-- Settles O8: the rows have the shared forms with the sizes of their sets. -/
theorem codeBasedKemJobsComputeTheirResults : Obligations.CodeBasedKemJobsComputeTheirResults := by
  unfold Obligations.CodeBasedKemJobsComputeTheirResults
  refine ⟨fun row hrow s j J => ?hqc, fun row hrow s j J => ?mceliece⟩
  case hqc =>
    simp only [List.mem_cons, List.not_mem_nil, or_false] at hrow
    rcases hrow with rfl | rfl | rfl
    all_goals
      refine ⟨fun h => (computes_keygen h rfl rfl rfl (by decide) (by decide) (by decide)).mono ?_,
        fun h => computes_codeEncaps h rfl rfl rfl, fun h => computes_codeDecaps h rfl rfl rfl⟩
      exact fun o n ⟨hn, h⟩ => ⟨fun hdrawn => by rw [hn, hdrawn]; rfl, h.imp_right And.right⟩
  case mceliece =>
    simp only [List.mem_cons, List.not_mem_nil, or_false] at hrow
    rcases hrow with rfl | rfl | rfl | rfl
    all_goals
      exact ⟨fun h => computes_mcelieceKeygen h rfl rfl rfl, fun h => computes_codeEncaps h rfl rfl rfl,
        fun h => computes_codeDecaps h rfl rfl rfl⟩

end Sys2Proof.Machine
end

section
/-! PROOF. What the elliptic curves and RSA compute (07_code_and_classical.md R152-R175). -/

namespace Sys2Proof.Machine

/-! ### Elliptic curves -/

theorem curveBytes_length (alg : Nat) (b : Bytes) : (curveBytes alg b).length = b.length := by
  unfold curveBytes
  split
  · cases b <;> rfl
  · rfl

theorem montgomery_length (alg : Nat) (k u : Bytes) :
    (montgomery alg k u).length = if alg = 0x5701 then 32 else 56 := by
  unfold montgomery
  split <;> exact prim_length _ _ _

section
variable {j op alg : Nat} {s : State} {J : Job} (h : s.running j J op) (halg : algOf op = alg)
include h halg

/-- A keygen of a curve, its seed drawn. -/
theorem computes_curveKeygen {c : Instr} {hi : Nat} (ho : op / 0x100 = hi) (hx : exec c s = keygenRow hi j s)
    (hdrawn : bitOf J.param.toNat 12 = false) (hcls : alg / 0x100 = 0x50 ∨ alg / 0x100 = 0x54 ∨ alg / 0x100 = 0x57) :
    Computes c j s fun o n => n = skLen alg ∧ (o.StoresPair s J alg (pkLen alg) (skLen alg) ∨ o.mchecked) := by
  refine (computes_keygen h ho halg hx (by omega) (by omega) (by omega)).mono fun o n ⟨hn, hP⟩ => ⟨?_, hP.imp_right And.right⟩
  rw [hn, hdrawn]
  rcases hcls with hcls | hcls | hcls <;> simp [seedDrawn, hcls]

theorem computes_ecdsaSign (ho : op / 0x100 = 0x51) (heven : 2 * (sigLen alg / 2) = sigLen alg) : Computes (.ecdsaSign j) j s fun o n =>
    n = (if bitOf J.param.toNat 8 then 0 else 32) ∧
      ((o.status = St.ok ∧ o.keys = [] ∧ o.result = o.output.length ∧
        (bitOf J.param.toNat 13 = false → o.output.length = sigLen alg)) ∨ o.mchecked) := by
  obtain ⟨-, hop, -⟩ := id h
  subst halg hop
  have hx : exec (.ecdsaSign j) s = execEcdsaSign j s := rfl
  rw [execEcdsaSign] at hx
  refine computes_of_row hx h ho ?_
  rw [show bitOf J.param.toNat 8 = J.pbit 8 from rfl, show bitOf J.param.toNat 13 = J.pbit 13 from rfl]
  dsimp only
  generalize (if J.pbit 8 = true then 0 else 32) = n
  generalize [s.keyBytes J, _, _, _] = ins
  generalize hraw : curveBytes _ _ ++ curveBytes _ _ = raw
  have hlen : raw.length = sigLen (algOf J.opcode) := by
    rw [← hraw, List.length_append, curveBytes_length, curveBytes_length, List.length_take, List.length_drop, prim_length]
    omega
  split
  · exact ⟨rfl, .inr runaway_mchecked⟩
  · exact ⟨rfl, .inl ⟨rfl, rfl, rfl, fun hraw => by simp [hraw, hlen]⟩⟩

omit halg in
theorem computes_ecdsaVerify (ho : op / 0x100 = 0x52) : Computes (.ecdsaVerify j) j s fun o n =>
    n = 0 ∧ (o.verdict ∨ o.keyRefused) := by
  have hx : exec (.ecdsaVerify j) s = execEcdsaVerify j s := rfl
  rw [execEcdsaVerify] at hx
  refine computes_of_row hx h ho ?_
  dsimp only
  split
  · split <;> exact ⟨rfl, .inl (verdictOf_verdict _)⟩
  · exact ⟨rfl, .inr (keyFails_refused false)⟩

theorem computes_ecdh (ho : op / 0x100 = 0x53) : Computes (.ecdh j) j s fun o n =>
    n = 0 ∧ (o.StoresSecret s J (ssLen alg) ∨ o.keyRefused) := by
  obtain ⟨-, hop, -⟩ := id h
  subst halg hop
  have hx : exec (.ecdh j) s = execEcdh j s := rfl
  rw [execEcdh] at hx
  refine computes_of_row hx h ho ?_
  dsimp only
  split
  · have hs := s.secretOut_storesSecret J (prim (.agree (algOf J.opcode)) [s.keyBytes J, J.input] (ssLen (algOf J.opcode)))
    rw [prim_length] at hs
    exact ⟨rfl, .inl hs⟩
  · exact ⟨rfl, .inr (keyFails_refused false)⟩

theorem computes_eddsaSign (ho : op / 0x100 = 0x55) : Computes (.eddsaSign j) j s fun o n =>
    n = 0 ∧ o.status = St.ok ∧ o.keys = [] ∧ o.output.length = sigLen alg ∧ o.result = sigLen alg := by
  obtain ⟨-, hop, -⟩ := id h
  subst halg hop
  have hx : exec (.eddsaSign j) s = execEddsaSign j s := rfl
  rw [execEddsaSign] at hx
  exact computes_of_row hx h ho ⟨rfl, rfl, rfl, prim_length _ _ _, prim_length _ _ _⟩

omit halg in
theorem computes_eddsaVerify (ho : op / 0x100 = 0x56) : Computes (.eddsaVerify j) j s fun o n =>
    n = 0 ∧ (o.verdict ∨ o.keyRefused) := by
  have hx : exec (.eddsaVerify j) s = execEddsaVerify j s := rfl
  rw [execEddsaVerify] at hx
  refine computes_of_row hx h ho ?_
  dsimp only
  split
  · exact ⟨rfl, .inl (verdictOf_verdict _)⟩
  · exact ⟨rfl, .inr (keyFails_refused false)⟩

theorem computes_montgomery (ho : op / 0x100 = 0x58) (hlen : ssLen alg = if alg = 0x5701 then 32 else 56) : Computes (.montgomeryKeyAgreement j) j s fun o n =>
    n = 0 ∧ (o.StoresSecret s J (ssLen alg) ∨ o.keyRefused) := by
  obtain ⟨-, hop, -⟩ := id h
  subst halg hop
  have hx : exec (.montgomeryKeyAgreement j) s = execMontgomeryKeyAgreement j s := rfl
  rw [execMontgomeryKeyAgreement] at hx
  refine computes_of_row hx h ho ?_
  dsimp only
  split
  · exact ⟨rfl, .inr (keyFails_refused false)⟩
  · have hs := s.secretOut_storesSecret J (montgomery (algOf J.opcode) (s.keyBytes J) J.input)
    rw [montgomery_length, ← hlen] at hs
    exact ⟨rfl, .inl hs⟩

end

/-- Settles O9: the rows have the shared forms with the sizes of their curves. -/
theorem ellipticCurveJobsComputeTheirResults : Obligations.EllipticCurveJobsComputeTheirResults := by
  unfold Obligations.EllipticCurveJobsComputeTheirResults
  intro s j J made agreed
  refine ⟨fun row hrow => ?nist, fun row hrow => ?edwards, fun row hrow => ?montgomery⟩
  all_goals simp only [List.mem_cons, List.not_mem_nil, or_false] at hrow
  case nist =>
    rcases hrow with rfl | rfl | rfl
    all_goals
      exact ⟨fun h hdrawn => computes_curveKeygen h rfl rfl rfl hdrawn (.inl rfl), fun h => computes_ecdsaSign h rfl rfl rfl,
        fun h => computes_ecdsaVerify h rfl, fun h => computes_ecdh h rfl rfl⟩
  case edwards =>
    rcases hrow with rfl | rfl
    all_goals
      exact ⟨fun h hdrawn => computes_curveKeygen h rfl rfl rfl hdrawn (.inr (.inl rfl)), fun h => computes_eddsaSign h rfl rfl,
        fun h => computes_eddsaVerify h rfl⟩
  case montgomery =>
    rcases hrow with rfl | rfl
    all_goals
      exact ⟨fun h hdrawn => computes_curveKeygen h rfl rfl rfl hdrawn (.inr (.inr rfl)), fun h => computes_montgomery h rfl rfl rfl⟩

end Sys2Proof.Machine
end

section
/-! PROOF. What RSA computes (07_code_and_classical.md R170-R175). -/

namespace Sys2Proof.Machine

/-- The key of an RSA operation is that of its modulus. -/
theorem algOf_rsa {op p : Nat} (hp : p < 256) (hlo : 0x59 ≤ op / 0x100) (hhi : op / 0x100 ≤ 0x5D) (hop : op % 0x100 = p) :
    algOf op = 0x5900 + p := by
  have hf : famOf op = 5 := by unfold famOf; omega
  have ho : 9 ≤ operOf op := by unfold operOf; omega
  simp only [algOf, hf, psetOf, hop]
  simp [show ¬ operOf op < 4 by omega, show ¬ operOf op < 7 by omega, show ¬ operOf op < 9 by omega]

theorem sizesOf_rsa {p : Nat} (hp : p < 256) : sizesOf (0x5900 + p) = (32 * p + 14, 80 * p, 32 * p, 0) := by
  have hhi : (0x5900 + p) / 0x100 = 0x59 := by omega
  have hp' : psetOf (0x5900 + p) = p := by unfold psetOf; omega
  simp [sizesOf, hhi, hp']

section
variable {j op p : Nat} {s : State} {J : Job} (h : s.running j J op) (hp : p < 256) (hpset : op % 0x100 = p)
include h hp hpset

theorem computes_rsaKeygen (ho : op / 0x100 = 0x59) : Computes (.rsaKeygen j) j s fun o _ =>
    (o.status = St.ok ∧ o.result = s.newHandle J 0 + o.output.length * 2 ^ 32 ∧
      o.makes J 0 (0x5900 + p) .priv (80 * p)) ∨ o.mchecked := by
  obtain ⟨-, hop, -⟩ := id h
  have halg := algOf_rsa hp ho.ge (by omega) hpset
  have hx : exec (.rsaKeygen j) s = execRsaKeygen j s := rfl
  rw [execRsaKeygen, keygenRow] at hx
  refine computes_of_row hx h ho ?_
  generalize (if J.pbit 12 = true then some (J.auxPart 0) else none) = seed
  obtain ⟨-, ⟨-, hst, hlen, hres, hmakes⟩ | ⟨-, hm⟩⟩ := s.keygenOut_cases J (makePair J.opcode s.draws seed)
  · rw [hop, makePair_sk_length _ _ _ (by omega), halg, skLen, sizesOf_rsa hp] at hmakes
    refine .inl ⟨hst, ?_, hop ▸ hmakes⟩
    rw [hres, hlen]
  · exact .inr hm

theorem computes_rsaSign (ho : op / 0x100 = 0x5A) : Computes (.rsaSign j) j s fun o n =>
    n = (if bitOf J.param.toNat 15 then bitsOf J.param.toNat 31 24 else 0) + blindLen ∧
      o.status = St.ok ∧ o.keys = [] ∧ o.output.length = 32 * p ∧ o.result = 32 * p := by
  obtain ⟨-, hop, -⟩ := id h
  have hsig : sigLen (algOf J.opcode) = 32 * p := by
    rw [hop, algOf_rsa hp (by omega) (by omega) hpset, sigLen, sizesOf_rsa hp]
  have hx : exec (.rsaSign j) s = execRsaSign j s := rfl
  rw [execRsaSign] at hx
  refine computes_of_row hx h ho ?_
  rw [← hsig]
  exact ⟨rfl, rfl, rfl, prim_length _ _ _, prim_length _ _ _⟩

omit hp hpset in
theorem computes_rsaVerify (ho : op / 0x100 = 0x5B) : Computes (.rsaVerify j) j s fun o n =>
    n = 0 ∧ (o.verdict ∨ o.keyRefused) := by
  have hx : exec (.rsaVerify j) s = execRsaVerify j s := rfl
  rw [execRsaVerify] at hx
  refine computes_of_row hx h ho ?_
  dsimp only
  split
  · exact ⟨rfl, .inl (verdictOf_verdict _)⟩
  · exact ⟨rfl, .inr (keyFails_refused false)⟩

omit hp in
theorem computes_oaepEncrypt (ho : op / 0x100 = 0x5C) : Computes (.oaepEncrypt j) j s fun o n =>
    (n = hashLen (bitsOf J.param.toNat 23 16) ∧ o.status = St.ok ∧ o.keys = [] ∧ o.output.length = 32 * p ∧ o.result = 32 * p) ∨
      (n = 0 ∧ o.keyRefused) := by
  obtain ⟨-, hop, -⟩ := id h
  have hlen : 32 * psetOf J.opcode = 32 * p := by rw [hop, psetOf, hpset]
  have hx : exec (.oaepEncrypt j) s = execOaepEncrypt j s := rfl
  rw [execOaepEncrypt] at hx
  refine computes_of_row hx h ho ?_
  dsimp only
  split
  · rw [← hlen]
    exact .inl ⟨rfl, rfl, rfl, prim_length _ _ _, prim_length _ _ _⟩
  · exact .inr ⟨rfl, keyFails_refused false⟩

omit hp hpset in
/-- A decryption that fails in any way is the same VERIFY_FAIL, without output or key. -/
theorem computes_oaepDecrypt (ho : op / 0x100 = 0x5D) : Computes (.oaepDecrypt j) j s fun o n => n = blindLen ∧
    ((o.withheld ∧ o.status = St.verifyFail) ∨
      (bitOf J.param.toNat 14 = false ∧ o.status = St.ok ∧ o.keys = [] ∧ o.result = o.output.length) ∨
      (bitOf J.param.toNat 14 = true ∧ o.status = St.ok ∧ o.output = [] ∧ o.result = s.newHandle J 0 ∧
        o.makes J 0 0x7000 .secret (bitsOf J.param.toNat 51 44))) := by
  have hx : exec (.oaepDecrypt j) s = execOaepDecrypt j s := rfl
  rw [execOaepDecrypt] at hx
  refine computes_of_row hx h ho ?_
  rw [show bitOf J.param.toNat 14 = J.pbit 14 from rfl, show bitsOf J.param.toNat 51 44 = J.pfield 51 44 from rfl]
  dsimp only
  generalize [s.keyBytes J, _, _, _] = ins
  generalize Config.primNat _ ins % _ = n
  split
  · exact ⟨rfl, .inl ⟨⟨rfl, rfl, rfl, rfl, rfl, rfl, rfl⟩, rfl⟩⟩
  next hgood =>
  simp only [Bool.or_eq_true, Bool.and_eq_true, bne_iff_ne, not_or, not_and, ne_eq, not_not] at hgood
  obtain ⟨-, hlen⟩ := hgood
  split
  next has =>
    obtain rfl := hlen has
    have hs := s.secretOut_storesSecret J (prim (.oaepOpen (algOf J.opcode)) ins (J.pfield 51 44))
    rw [prim_length] at hs
    exact ⟨rfl, .inr (.inr ⟨has, hs⟩)⟩
  next hno => exact ⟨rfl, .inr (.inl ⟨Bool.eq_false_of_not_eq_true hno, rfl, rfl, rfl⟩)⟩

end

/-- Settles O10: each operation has the size of its modulus, by `sizesOf_rsa`. -/
theorem rsaJobsComputeTheirResults : Obligations.RsaJobsComputeTheirResults := by
  unfold Obligations.RsaJobsComputeTheirResults
  intro s j J p hlo hhi
  have hp : p < 256 := by omega
  exact ⟨fun h _ => computes_rsaKeygen h hp (by omega) (by omega), fun h => computes_rsaSign h hp (by omega) (by omega),
    fun h => computes_rsaVerify h (by omega), fun h => computes_oaepEncrypt h (by omega) (by omega),
    fun h => computes_oaepDecrypt h (by omega)⟩

end Sys2Proof.Machine
end

section
/-! PROOF. What the symmetric and digest operations compute (08_symmetric.md; 06_hash_signatures_and_digests.md R141-R151). -/

namespace Sys2Proof.Machine

/-! ### Symmetric operations -/

theorem underStream_length (alg w : Nat) (key : Bytes) (blk : Nat → Bytes) (data : Bytes) :
    (underStream alg w key blk data).length = data.length := by
  simp [underStream, xorBytes]

theorem State.streamed_length (s : State) (J : Job) (nonce : Bytes) : (s.streamed J nonce).length = J.input.length :=
  underStream_length _ _ _ _ _

theorem State.aeadTag_length (s : State) (J : Job) (nonce aad text : Bytes) :
    (s.aeadTag J nonce aad text).length = tagLen J.opcode J.param.toNat := prim_length _ _ _

theorem xtsUnits_length (enc : Bool) (key : Bytes) (u tweak : Nat) (data : Bytes) :
    (xtsUnits enc key u tweak data).length = data.length / u * u := by
  simp [xtsUnits, List.length_flatMap]

theorem wrapBytes_length (kwp : Bool) (key m : Bytes) : (wrapBytes kwp key m).length = 8 * ((m.length + 7) / 8) + 8 :=
  prim_length _ _ _

section
variable {c : Instr} {hi j op : Nat} {s : State} {J : Job} (h : s.running j J op) (ho : op / 0x100 = hi)
include h ho

/-- An authenticated encryption: the tag is last, once all input is here, and the nonce that the device built is returned. -/
theorem computes_seal (hx : exec c s = sealRow hi j s) : Computes c j s fun o n =>
    let tl := if J.totalLen ≤ J.input.length then tagLen op J.param.toNat else 0
    n = 0 ∧ o.status = St.ok ∧ o.keys = [] ∧ o.output.length = J.input.length + tl ∧ o.result = J.input.length + tl ∧
      o.ret = be (nonceLen op J.param.toNat) (s.cluster.node % 2 ^ 14 * 2 ^ (8 * nonceLen op J.param.toNat - 14) + J.ctr.getD 0) := by
  obtain ⟨-, hop, -⟩ := id h
  subst hop
  refine computes_of_row hx h ho ?_
  dsimp only
  rw [Job.whole]
  generalize hout : (if decide (J.totalLen ≤ J.input.length) = true then _ else _ : Bytes) = out
  have hlen : out.length = J.input.length + if J.totalLen ≤ J.input.length then tagLen J.opcode J.param.toNat else 0 := by
    rw [← hout]
    by_cases hw : J.totalLen ≤ J.input.length
    · rw [if_pos (decide_eq_true hw), if_pos hw, List.length_append, s.streamed_length, s.aeadTag_length]
    · rw [if_neg (by simpa using hw), if_neg hw, s.streamed_length, Nat.add_zero]
  exact ⟨rfl, rfl, rfl, hlen, hlen, rfl⟩

/-- An authenticated decryption: as many bytes as it took, and TAG_FAIL where the tag differs. -/
theorem computes_open (hx : exec c s = openRow hi j s) : Computes c j s fun o n =>
    n = 0 ∧ o.keys = [] ∧ o.output.length = J.input.length ∧
      ((o.status = St.ok ∧ o.result = J.input.length) ∨ (o.status = St.tagFail ∧ o.result = 0)) := by
  refine computes_of_row hx h ho ?_
  dsimp only
  generalize (J.whole && _) = bad
  refine ⟨rfl, rfl, s.streamed_length J _, ?_⟩
  cases bad
  · exact .inl ⟨rfl, s.streamed_length J _⟩
  · exact .inr ⟨rfl, rfl⟩

theorem computes_xts {enc : Bool} (hx : exec c s = xtsRow hi j enc s) : Computes c j s fun o n =>
    let u := bitsOf J.param.toNat 56 32
    n = 0 ∧ ((o.status = St.ok ∧ o.keys = [] ∧ o.output.length = J.input.length / u * u ∧ o.result = J.input.length / u * u) ∨
      o.keyRefused) := by
  refine computes_of_row hx h ho ?_
  dsimp only
  split
  · exact ⟨rfl, .inr (keyFails_refused false)⟩
  · exact ⟨rfl, .inl ⟨rfl, rfl, xtsUnits_length _ _ _ _ _, xtsUnits_length _ _ _ _ _⟩⟩

omit ho in
theorem computes_aesCtr (ho : op / 0x100 = 0x64) : Computes (.aesCtr j) j s fun o n => n = 0 ∧ o.status = St.ok ∧ o.keys = [] ∧
    o.output.length = J.input.length ∧ o.result = J.input.length ∧ (bitOf J.param.toNat 24 = true → o.ret = []) := by
  have hx : exec (.aesCtr j) s = execAesCtr j s := rfl
  rw [execAesCtr] at hx
  exact computes_of_row hx h ho ⟨rfl, rfl, rfl, s.streamed_length J _, s.streamed_length J _, fun hsup => if_pos hsup⟩

omit ho in
theorem computes_aesKwWrap (ho : op / 0x100 = 0x67) : Computes (.aesKwWrap j) j s fun o n => n = 0 ∧ o.status = St.ok ∧
    o.keys = [] ∧ o.output.length = 8 * ((J.input.length + 7) / 8) + 8 ∧ o.result = o.output.length := by
  have hx : exec (.aesKwWrap j) s = execAesKwWrap j s := rfl
  rw [execAesKwWrap] at hx
  exact computes_of_row hx h ho ⟨rfl, rfl, rfl, wrapBytes_length _ _ _, rfl⟩

omit ho in
theorem computes_aesKwUnwrap (ho : op / 0x100 = 0x68) : Computes (.aesKwUnwrap j) j s fun o n => n = 0 ∧
    ((o.status = St.ok ∧ o.keys = [] ∧ o.result = o.output.length) ∨ (o.withheld ∧ o.status = St.tagFail)) := by
  have hx : exec (.aesKwUnwrap j) s = execAesKwUnwrap j s := rfl
  rw [execAesKwUnwrap] at hx
  refine computes_of_row hx h ho ?_
  split
  · exact ⟨rfl, .inl ⟨rfl, rfl, rfl⟩⟩
  · exact ⟨rfl, .inr ⟨⟨rfl, rfl, rfl, rfl, rfl, rfl, rfl⟩, rfl⟩⟩

end

/-- Settles O11: each opcode group is one of the rows for sealing, opening, units and wrapping. -/
theorem symmetricJobsComputeTheirResults : Obligations.SymmetricJobsComputeTheirResults := by
  unfold Obligations.SymmetricJobsComputeTheirResults
  intro s j J op h
  exact ⟨fun ho => computes_seal h ho rfl, fun ho => computes_seal h ho rfl, fun ho => computes_seal h ho rfl,
    fun ho => computes_open h ho rfl, fun ho => computes_open h ho rfl, fun ho => computes_open h ho rfl,
    fun ho => computes_aesCtr h ho, ⟨fun ho => computes_xts h ho rfl, fun ho => computes_xts h ho rfl⟩,
    fun ho => computes_aesKwWrap h ho, fun ho => computes_aesKwUnwrap h ho⟩

/-! ### Digests, tags and derived keys -/

theorem hmac_length (c : Nat) (key msg : Bytes) : (hmac c key msg).length = hashLen c := prim_length _ _ _

theorem kmac_length (c : Nat) (key msg cust : Bytes) (xof : Bool) (n : Nat) : (kmac c key msg cust xof n).length = n :=
  prim_length _ _ _

theorem le_ceilDiv_mul {w : Nat} (n : Nat) (hw : 0 < w) : n ≤ ceilDiv n w * w := by
  have hdiv := Nat.div_add_mod (n + w - 1) w
  have hmod := Nat.mod_lt (n + w - 1) hw
  rw [ceilDiv, Nat.mul_comm]
  omega

theorem hkdfBlocks_length (c : Nat) (prk info : Bytes) (n i : Nat) (prev : Bytes) :
    (hkdfBlocks c prk info n i prev).length = n * hashLen c := by
  induction n generalizing i prev with
  | zero => simp [hkdfBlocks]
  | succ n ih => rw [hkdfBlocks, List.length_append, hmac_length, ih]; ring

theorem hkdf_length {c : Nat} (hc : 0 < hashLen c) (salt ikm info : Bytes) (n : Nat) : (hkdf c salt ikm info n).length = n := by
  rw [hkdf, List.length_take, hkdfBlocks_length, min_eq_left (le_ceilDiv_mul n hc)]

theorem counterKdf_length {prf : Bytes → Bytes} {w : Nat} (hw : 0 < w) (hprf : ∀ m, (prf m).length = w) (fixed : Bytes) (n : Nat) :
    (counterKdf prf w fixed n).length = n := by
  rw [counterKdf, List.length_take, List.length_flatMap]
  simp [hprf, le_ceilDiv_mul n hw]

/-- Where a digest of a job goes: to DST with its length in RESULT, or into the logbook register that the job names. -/
theorem Job.digestOut_dest (J : Job) (d : Bytes) : (J.digestOut d).status = St.ok ∧ (J.digestOut d).keys = [] ∧
    (J.logTarget = none → (J.digestOut d).output.length = d.length ∧ (J.digestOut d).result = d.length ∧
      (J.digestOut d).extend = none) ∧
    ∀ r, J.logTarget = some r → (J.digestOut d).output = [] ∧ ∃ d', (J.digestOut d).extend = some (r, d') ∧ d'.length = d.length := by
  rw [Job.digestOut]
  cases J.logTarget with
  | none => exact ⟨rfl, rfl, fun _ => ⟨rfl, rfl, rfl⟩, fun _ => nofun⟩
  | some r => exact ⟨rfl, rfl, nofun, fun r' h => ⟨rfl, d, by rw [Option.some.inj h], rfl⟩⟩

section
variable {c : Instr} {hi j op : Nat} {s : State} {J : Job} (h : s.running j J op) (ho : op / 0x100 = hi)
include h ho

theorem computes_digestOut {f : State → Job → Bytes} {k : Nat}
    (hx : exec c s = computeRow hi j (fun s J => pureOut (J.digestOut (f s J))) s) (hk : (f s J).length = k) :
    Computes c j s fun o n => n = 0 ∧ o.status = St.ok ∧ o.keys = [] ∧
      (J.logTarget = none → o.output.length = k ∧ o.result = k ∧ o.extend = none) ∧
      (∀ r, J.logTarget = some r → o.output = [] ∧ ∃ d, o.extend = some (r, d) ∧ d.length = k) := by
  subst hk
  exact computes_of_row hx h ho ⟨rfl, J.digestOut_dest (f s J)⟩

/-- A derived key is stored, with as many bytes as the derivation gives, and nothing is written. -/
theorem computes_derived {f : State → Job → Bytes} {g : Prop} {k : Nat}
    (hx : exec c s = computeRow hi j (fun s J => pureOut (s.secretOut J (f s J) [])) s) (hk : g → (f s J).length = k) :
    Computes c j s fun o n => n = 0 ∧ o.status = St.ok ∧ o.output = [] ∧ o.result = s.newHandle J 0 ∧
      (g → o.makes J 0 0x7000 .secret k) := by
  obtain ⟨hst, hout, hres, hmakes⟩ := s.secretOut_storesSecret J (f s J)
  exact computes_of_row hx h ho ⟨rfl, hst, hout, hres, fun hg => hk hg ▸ hmakes⟩

end

section
variable {j op : Nat} {s : State} {J : Job} (h : s.running j J op)
include h

theorem computes_hmacGenerate (ho : op / 0x100 = 0x72) : Computes (.hmacGenerate j) j s fun o n =>
    let len := bitsOf J.param.toNat 31 0
    let k := min (if len = 0 then hashLen (op % 256) else len) (hashLen (op % 256))
    n = 0 ∧ o.status = St.ok ∧ o.keys = [] ∧
      (J.logTarget = none → o.output.length = k ∧ o.result = k ∧ o.extend = none) ∧
      (∀ r, J.logTarget = some r → o.output = [] ∧ ∃ d, o.extend = some (r, d) ∧ d.length = k) := by
  obtain ⟨-, hop, -⟩ := id h
  subst hop
  refine computes_digestOut (f := State.hmacTag) h ho rfl ?_
  rw [State.hmacTag, List.length_take, hmac_length]
  rfl

theorem computes_hmacVerify (ho : op / 0x100 = 0x73) : Computes (.hmacVerify j) j s fun o n => n = 0 ∧ o.verdict :=
  computes_pureRow (f := fun s J => verdictOf (s.hmacTag J == J.auxIn.take J.tagBytes)) h ho rfl (verdictOf_verdict _)

theorem computes_kmacVerify (ho : op / 0x100 = 0x75) : Computes (.kmacVerify j) j s fun o n => n = 0 ∧ o.verdict :=
  computes_pureRow (f := fun s J => verdictOf (s.kmacTag J (J.pfield 31 0) == J.auxIn.take (J.pfield 31 0))) h ho rfl
    (verdictOf_verdict _)

/-- The counter KDF gives OUT_LEN bytes under each of its PRFs: KMAC128, KMAC256, and HMAC with a hash of the table. -/
theorem computes_counterKdf (ho : op / 0x100 = 0x77) : Computes (.counterKdf j) j s fun o n =>
    n = 0 ∧ o.status = St.ok ∧ o.output = [] ∧ o.result = s.newHandle J 0 ∧
      (0 < hashLen (op % 256) ∨ op % 256 = 0x31 ∨ op % 256 = 0x32 →
        o.makes J 0 0x7000 .secret (bitsOf J.param.toNat 31 0)) := by
  obtain ⟨-, hop, -⟩ := id h
  subst hop
  have hx : exec (.counterKdf j) s = execCounterKdf j s := rfl
  rw [execCounterKdf] at hx
  refine computes_derived (c := .counterKdf j) h ho hx fun hc => ?_
  split
  · exact counterKdf_length (by split <;> decide) (fun m => kmac_length _ _ _ _ _ _) _ _
  next hno =>
    exact counterKdf_length (hc.resolve_right hno) (fun m => hmac_length _ _ _) _ _

theorem computes_keyedSlotDrop (ho : op / 0x100 = 0x79) : Computes (.keyedSlotDrop j) j s fun o n => n = 0 ∧ o.output = [] ∧
    ((∃ k b, s.slotOf J.fn J.handle = some (k, b) ∧ o.status = St.ok ∧ o.drop = some k) ∨
      (s.slotOf J.fn J.handle = none ∧ o.keyRefused)) := by
  have hx : exec (.keyedSlotDrop j) s = execKeyedSlotDrop j s := rfl
  rw [execKeyedSlotDrop] at hx
  refine computes_of_row hx h ho ?_
  cases s.slotOf J.fn J.handle with
  | none => exact ⟨rfl, rfl, .inr ⟨rfl, keyFails_refused false⟩⟩
  | some e => exact ⟨rfl, rfl, .inl ⟨e.1, e.2, rfl, rfl, rfl⟩⟩

end

theorem lowestFree_eq_some {used : Nat → Bool} {n lo k : Nat} (h : lowestFree used n lo = some k) :
    lo ≤ k ∧ k < lo + n ∧ used k = false ∧ ∀ i, lo ≤ i → i < k → used i = true := by
  induction n generalizing lo with
  | zero => exact nomatch h
  | succ n ih =>
    rw [lowestFree] at h
    split at h
    next hused =>
      obtain ⟨hlo, hhi, hfree, hbelow⟩ := ih h
      refine ⟨by omega, by omega, hfree, fun i hi hik => ?_⟩
      rcases Nat.eq_or_lt_of_le hi with rfl | hlt
      · exact hused
      · exact hbelow i hlt hik
    next hfree =>
      obtain rfl := Option.some.inj h
      exact ⟨le_refl _, by omega, Bool.eq_false_of_not_eq_true hfree, fun i hi hik => absurd hik (by omega)⟩

theorem computes_keyedSlotLoad {j op : Nat} {s : State} {J : Job} (h : s.running j J op) (ho : op / 0x100 = 0x78) :
    Computes (.keyedSlotLoad j) j s fun o n => n = 0 ∧ o.output = [] ∧ o.keys = [] ∧
      ((o.status = St.ctxFull ∧ o.bind = none) ∨
       ∃ k b, k < 4096 ∧ tget s.keys.slots k = none ∧ (∀ i < k, (tget s.keys.slots i).isSome ∨ 1048575 < s.slotGenOf i ∨ i ∈ s.slotsTaken) ∧
         o.status = St.ok ∧ o.bind = some (k, b) ∧ b.key = J.handle ∧ b.fn = J.fn ∧ o.result = k + s.slotGenOf k * 4096) := by
  have hx : exec (.keyedSlotLoad j) s = execKeyedSlotLoad j s := rfl
  rw [execKeyedSlotLoad] at hx
  refine computes_of_row hx h ho ?_
  split
  · exact ⟨rfl, rfl, rfl, .inl ⟨rfl, rfl⟩⟩
  next k hk =>
    obtain ⟨-, hlt, hfree, hbelow⟩ := lowestFree_eq_some hk
    simp only [Bool.or_eq_false_iff, Bool.or_eq_true, decide_eq_true_eq, List.contains_iff_mem] at hfree hbelow
    obtain ⟨⟨hnone, -⟩, -⟩ := hfree
    exact ⟨rfl, rfl, rfl, .inr ⟨k, _, by omega, by simpa using hnone, fun i hi => or_assoc.mp (hbelow i (Nat.zero_le i) hi),
      rfl, rfl, rfl, rfl, rfl⟩⟩

/-- Settles O12: digests and tags by `Job.digestOut_dest`, derivations by the lengths of their blocks, slots by the lowest
free one. -/
theorem digestJobsComputeTheirResults : Obligations.DigestJobsComputeTheirResults := by
  unfold Obligations.DigestJobsComputeTheirResults
  intro s j J op h
  obtain ⟨-, hop, -⟩ := id h
  refine ⟨fun ho => ?digest, fun ho => ?xof, fun ho => computes_hmacGenerate h ho, fun ho => ?kmac,
    fun ho => computes_hmacVerify h ho, fun ho => computes_kmacVerify h ho, fun ho hc => ?hkdf,
    fun ho => computes_counterKdf h ho, fun ho => computes_keyedSlotLoad h ho, fun ho => computes_keyedSlotDrop h ho⟩
  case digest =>
    exact computes_digestOut (f := fun _ J => prim (.hash (psetOf J.opcode)) [J.input] (hashLen (psetOf J.opcode))) h ho rfl
      (hop ▸ prim_length _ _ _)
  case xof =>
    have hx : exec (.xof j) s = execXof j s := rfl
    rw [execXof] at hx
    exact computes_digestOut h ho hx (prim_length _ _ _)
  case kmac => exact computes_digestOut (f := fun s J => s.kmacTag J 0) h ho rfl (kmac_length _ _ _ _ _ _)
  case hkdf =>
    refine (computes_derived (g := True) (f := fun s J => hkdf (psetOf J.opcode) J.input (s.keyBytes J) J.auxIn (J.pfield 31 0))
      h ho rfl fun _ => hkdf_length (hop ▸ hc) _ _ _ _).mono fun o n => ?_
    exact fun ⟨hn, hst, hout, hres, hm⟩ => ⟨hn, hst, hout, hres, fun _ => hm trivial⟩

end Sys2Proof.Machine
end

section
/-! PROOF. What the resets keep (20_boot_landfall.md R452, R453; 23_electrical_package.md R501). -/

namespace Sys2Proof.Machine

theorem KeyStore.mem_kept_live (K : KeyStore) (e : Nat × Key) : e ∈ K.kept.live ↔ e ∈ K.live ∧ e.2.persistent = true :=
  List.mem_filter

/-- Every part of the state after a device reset is that of the reset state, or what R452 keeps. -/
theorem State.deviceReset_restarted (s : State) : Restarted s s.deviceReset :=
  ⟨rfl, rfl, rfl, rfl, rfl, rfl, rfl, rfl, rfl, rfl, rfl, rfl, rfl, (s.dropSlots fun _ _ => true).keys.mem_kept_live, rfl, rfl, rfl,
    rfl, rfl, rfl, rfl, rfl, rfl, rfl, rfl, rfl, rfl, rfl, rfl, rfl, rfl, rfl, rfl⟩

theorem State.deviceReset_logKept (s : State) : LogKept s s.deviceReset := by
  refine ⟨fun r => ?_, rfl, rfl⟩
  have hget : s.deviceReset.logReg r = ((tget s.log.regs r).map fun L => { L with reserved := [], barrier := [], owner := 0 }).getD {} :=
    congrArg (fun o : Option LogReg => o.getD {}) (tget_tmap s.log.regs (fun _ L => { L with reserved := [], barrier := [], owner := 0 }) r)
  rw [hget, State.logReg]
  cases tget s.log.regs r <;> exact ⟨rfl, rfl, rfl⟩

theorem pulseTaken_of_glitch {width glitch least draw : Nat} (h : width < glitch) (hl : glitch ≤ least) :
    pulseTaken width glitch least draw = false := by
  simp [pulseTaken, show width < least by omega, h]

/-- A pulse below the glitch-rejection width changes nothing. -/
theorem exec_reset_of_glitch {w : Nat} (h : w < 1000) (strap : Bool) (smb : Nat) (s : State) :
    exec (.porNAssert w strap smb) s = .next s ∧ exec (.perstNAssert w strap) s = .next s := by
  constructor
  · change done s (if pulseTaken w 1000 10000 s.draws then s.powerOnReset strap smb else s) = _
    rw [pulseTaken_of_glitch h (by decide)]
    exact done_eq rfl
  · change done s (if pulseTaken w 1000 100000 s.draws then
      { s.deviceReset with pins := { s.deviceReset.pins with strap := strap } } else s) = _
    rw [pulseTaken_of_glitch h (by decide)]
    exact done_eq rfl

/-- Settles O14: the four resets are `State.deviceReset` with the pins, the logbook or the forced reason set after it. -/
theorem resetsKeepWhatTheyKeep : Obligations.ResetsKeepWhatTheyKeep := by
  unfold Obligations.ResetsKeepWhatTheyKeep
  intro s w smb strap
  have hreset := s.deviceReset_restarted
  have hlog := s.deviceReset_logKept
  exact ⟨fun hw => ⟨_, exec_porNAssert_eq hw strap smb s, hreset, rfl, rfl, rfl, rfl, rfl⟩,
    fun hw => ⟨_, exec_perstNAssert_eq hw strap s, hreset, hlog, rfl⟩,
    fun ⟨hblock, hd3⟩ => ⟨⟨_, exec_deviceReset_eq hblock hd3, hreset, hlog, rfl, rfl⟩,
      ⟨_, exec_landfallReset_eq hblock hd3, hreset, hlog, rfl, rfl⟩⟩,
    fun hw => exec_reset_of_glitch hw strap smb s⟩

end Sys2Proof.Machine
end

section
/-! PROOF. What the ends of jobs, the stops of units, reports and the collector leave alone. -/

namespace Sys2Proof.Machine

/-- The state apart from what an end of a job, a stop of a unit or a report can change: the jobs, the units that hold them and
their queues, the logbook, the registers and messages that tell of it, and what stands outside the device. -/
def State.steady (s : State) : State :=
  { s with
    progress := [], regs := [], tiles := [], queues := [], jobs := [], fns := [], log := {}, hostMem := [], pmem := {}, outbox := [],
    service := { s.service with cores := [], modules := [], mboxes := [], replies := [] },
    keys := { s.keys with live := [], counters := [], slots := [], slotGen := [], cache := [] },
    partners := { s.partners with ports := [], ingress := [] },
    cluster := { s.cluster with links := [], inbox := [], tetherOut := [] },
    chart := { s.chart with op := none, powerNext := none } }

theorem ite_steady (p : Prop) [Decidable p] (s t : State) : (if p then s else t).steady = if p then s.steady else t.steady :=
  apply_ite State.steady p s t

@[simp] theorem eachOf_steady (l : List Nat) (f : State → Nat → State) (hf : ∀ t n, (f t n).steady = t.steady) (s : State) :
    (eachOf l f s).steady = s.steady := eachOf_keeps State.steady l f hf s

/-! ### Units, queues and reports -/

section
variable (s : State) (n : Nat)

@[simp] theorem State.modTile_steady (f : Tile → Tile) : (s.modTile n f).steady = s.steady := rfl
@[simp] theorem State.modQueue_steady (f : Queue → Queue) : (s.modQueue n f).steady = s.steady := rfl
@[simp] theorem State.modJob_steady (f : Job → Job) : (s.modJob n f).steady = s.steady := rfl
@[simp] theorem State.delJob_steady : (s.delJob n).steady = s.steady := rfl
@[simp] theorem State.modFn_steady (f : Fn → Fn) : (s.modFn n f).steady = s.steady := rfl
@[simp] theorem State.modKey_steady (f : Key → Key) : (s.modKey n f).steady = s.steady := rfl
@[simp] theorem State.modPort_steady (f : Port → Port) : (s.modPort n f).steady = s.steady := rfl
@[simp] theorem State.modCore_steady (f : Core → Core) : (s.modCore n f).steady = s.steady := rfl
@[simp] theorem State.modModule_steady (f : Module → Module) : (s.modModule n f).steady = s.steady := rfl
@[simp] theorem State.modMbox_steady (f : Mbox → Mbox) : (s.modMbox n f).steady = s.steady := rfl
@[simp] theorem State.modLink_steady (f : Link → Link) : (s.modLink n f).steady = s.steady := rfl
@[simp] theorem State.setReg_steady (v : Nat) : (s.setReg n v).steady = s.steady := rfl
@[simp] theorem State.setBits_steady (v : Nat) : (s.setBits n v).steady = s.steady := rfl
@[simp] theorem State.bump_steady : (s.bump n).steady = s.steady := rfl
@[simp] theorem State.emit_steady (o : Output) : (s.emit o).steady = s.steady := rfl
@[simp] theorem State.freeSlots_steady : (s.freeSlots n).steady = s.steady := rfl
@[simp] theorem State.dropSlots_steady (p : Nat → Binding → Bool) : (s.dropSlots p).steady = s.steady := rfl
@[simp] theorem State.evictOutside_steady : s.evictOutside.steady = s.steady := rfl
@[simp] theorem State.dropJob_steady : (s.dropJob n).steady = s.steady := rfl

end

@[simp] theorem State.msix_steady (s : State) (f v : Nat) : (s.msix f v).steady = s.steady := by
  unfold State.msix
  split
  · rfl
  · split <;> rfl

@[simp] theorem State.glbEvent_steady (s : State) (b : Nat) : (s.glbEvent b).steady = s.steady := by simp [State.glbEvent]
@[simp] theorem State.vfEvent_steady (s : State) (f b : Nat) : (s.vfEvent f b).steady = s.steady := by simp [State.vfEvent]

theorem Reports.steady {s t : State} (h : Reports s t) : t.steady = s.steady := by
  obtain ⟨l, p, r, f, o, g, c, rfl⟩ := h.exists
  rfl

@[simp] theorem State.opEnd_steady (s : State) (op f : Nat) : (s.opEnd op f).steady = s.steady := (s.opEnd_reports op f).steady

@[simp] theorem State.logEvent_steady (s : State) (r type : Nat) (body : Bytes) : (s.logEvent r type body).steady = s.steady :=
  (s.logEvent_reports r type body).steady

@[simp] theorem State.logUnreserve_steady (s : State) (r j : Nat) : (s.logUnreserve r j).steady = s.steady :=
  (s.logUnreserve_reports r j).steady

@[simp] theorem State.wr_steady (s : State) (m : Option Nat) (a : Nat) (bs : Bytes) : (s.wr m a bs).steady = s.steady := by
  cases m with
  | none => simp only [State.wr, State.hostWrite]; split <;> rfl
  | some k => rfl

@[simp] theorem State.zeroFill_steady (s : State) (m : Option Nat) (dst n : Nat) : (s.zeroFill m dst n).1.steady = s.steady := by
  unfold State.zeroFill
  split <;> simp

/-! ### The end of a job -/

@[simp] theorem State.markInj_steady (s : State) (j : Nat) (inj : Bool) : (s.markInj j inj).steady = s.steady := by
  cases inj <;> rfl

@[simp] theorem State.movePending_steady (s : State) (i : Nat) (J : Job) (K : Option Job) :
    (s.movePending i J K).steady = s.steady := by
  simp only [State.movePending]
  split <;> rfl

@[simp] theorem State.passCommit_steady (s : State) (j : Nat) (J : Job) : (s.passCommit j J).steady = s.steady := by
  unfold State.passCommit
  split
  · rfl
  · split
    · rfl
    · dsimp only
      split
      · exact State.movePending_steady _ _ _ _
      · exact (eachOf_steady _ _ (fun t k => t.modJob_steady k _) _).trans (State.movePending_steady _ _ _ _)

@[simp] theorem State.treeEnds_steady (s : State) (J : Job) : (s.treeEnds J).steady = s.steady := by
  unfold State.treeEnds
  split <;> rfl

@[simp] theorem State.scrubCores_steady (s : State) (J : Job) : (s.scrubCores J).steady = s.steady :=
  eachOf_steady _ _ (fun t c => t.modCore_steady c _) s

@[simp] theorem State.settleTile_steady (s : State) (n : Nat) : (s.settleTile n).steady = s.steady := rfl

@[simp] theorem State.endJob_steady (s : State) (j status result : Nat) (ret : Bytes) :
    (s.endJob j status result ret).steady = s.steady := by
  unfold State.endJob
  split
  · rfl
  · split
    · rfl
    · refine (eachOf_steady _ _ State.settleTile_steady _).trans ?_
      cases Job.logRes _ <;> simp [ite_steady]

@[simp] theorem State.abandonChain_steady (s : State) (j : Nat) : (s.abandonChain j).steady = s.steady := by
  unfold State.abandonChain
  split
  · split <;> simp [ite_steady]
  · rfl

@[simp] theorem State.stopJob_steady (s : State) (j : Nat) (req : Request) : (s.stopJob j req).steady = s.steady := by
  unfold State.stopJob
  split <;> simp [ite_steady]

@[simp] theorem State.abortJob_steady (s : State) (j : Nat) : (s.abortJob j).steady = s.steady := s.stopJob_steady j .abort

/-! ### Owner modules -/

@[simp] theorem State.flushReplies_steady (s : State) : s.flushReplies.steady = s.steady := by
  unfold State.flushReplies
  split
  · rfl
  · rw [ite_steady, State.msix_steady]
    exact ite_self _

@[simp] theorem State.runtimeSays_steady (s : State) (w : BitVec 32) : (s.runtimeSays w).steady = s.steady := by
  unfold State.runtimeSays
  rw [State.flushReplies_steady]
  split <;> rfl

@[simp] theorem State.moduleState_steady (s : State) (m state : Nat) : (s.moduleState m state).steady = s.steady :=
  State.runtimeSays_steady _ _

@[simp] theorem State.stopModule_steady (s : State) (m state cause addr : Nat) :
    (s.stopModule m state cause addr).steady = s.steady := by
  simp only [State.stopModule, State.moduleState_steady, State.modCore_steady, State.modModule_steady]
  split
  · exact State.moduleState_steady _ _ _
  · rw [eachOf_steady _ _ State.abortJob_steady, State.modQueue_steady, State.moduleState_steady]

/-! ### Quiesces -/

@[simp] theorem State.notifyNow_steady (s : State) (q : Nat) : (s.notifyNow q).steady = s.steady :=
  State.msix_steady _ _ _

@[simp] theorem State.endAdmin_steady (s : State) (j status result : Nat) (ret : Bytes) :
    (s.endAdmin j status result ret).steady = s.steady := s.endJob_steady j status result ret

@[simp] theorem State.liftBorrow_steady (s : State) (f : Nat) : (s.liftBorrow f).steady = s.steady := rfl

@[simp] theorem State.quiesce_steady (s : State) (f : Nat) (abort : Bool) (job : Option Nat) :
    (s.quiesce f abort job).steady = s.steady := by
  unfold State.quiesce
  extract_lets qs t js u v
  have ht : t.steady = s.steady := eachOf_steady _ _ (fun u q => u.modQueue_steady q _) s
  have hu : u.steady = t.steady := by
    refine eachOf_steady _ _ (fun w j => ?_) t
    split
    · rfl
    · simp only [ite_steady, State.abandonChain_steady, State.abortJob_steady, ite_self]
  rw [State.modFn_steady, ← ht, ← hu]
  exact u.dropSlots_steady _

@[simp] theorem State.settleQuiesce_steady (s : State) (f : Nat) : (s.settleQuiesce f).steady = s.steady := by
  have hnotify (u : State) (q : Nat) : (if 0 < (u.queue q).pendN then u.notifyNow q else u).steady = u.steady := by
    simp only [ite_steady, State.notifyNow_steady, ite_self]
  unfold State.settleQuiesce
  split
  · rfl
  · next z _ =>
    rw [ite_steady]
    cases z.job <;>
      simp only [State.endAdmin_steady, State.modFn_steady, eachOf_steady _ _ hnotify, ite_self]

/-! ### The stops of units -/

@[simp] theorem State.stopTile_steady (s : State) (n : Nat) (req : Request) : (s.stopTile n req).steady = s.steady :=
  eachOf_steady _ _ (fun u j => u.stopJob_steady j req) s

@[simp] theorem State.fenceTile_steady (s : State) (n reason : Nat) : (s.fenceTile n reason).steady = s.steady :=
  s.stopTile_steady n .fence

@[simp] theorem State.stopCore_steady (s : State) (c : Nat) (req : Request) : (s.stopCore c req).steady = s.steady :=
  eachOf_steady _ _ (fun u j => u.stopJob_steady j req) _

@[simp] theorem State.flushPort_steady (s : State) (p : Nat) : (s.flushPort p).steady = s.steady := rfl
@[simp] theorem State.fencePort_steady (s : State) (p : Nat) : (s.fencePort p).steady = s.steady := rfl
@[simp] theorem State.flushLink_steady (s : State) (k : Nat) : (s.flushLink k).steady = s.steady := rfl

@[simp] theorem State.linkDown_steady (s : State) (k reason : Nat) : (s.linkDown k reason).steady = s.steady := by
  simp only [State.linkDown]
  split
  · exact State.logEvent_steady _ _ _ _
  · rfl

@[simp] theorem State.safeJobs_steady (s : State) : s.safeJobs.steady = s.steady :=
  eachOf_steady _ _ (fun u j => u.stopJob_steady j .safe) s

theorem State.endChartOp_steady (s : State) (op : Nat) (p : Option Nat) :
    State.steady { s.opEnd op 0 with chart := { s.chart with op := none, powerNext := p } } = s.steady := by
  unfold State.opEnd
  split <;> rfl

@[simp] theorem State.safeChart_steady (s : State) : s.safeChart.steady = s.steady := by
  unfold State.safeChart
  split
  · rfl
  next o _ =>
    extract_lets t u v
    have hu : u.steady = s.steady :=
      (eachOf_steady _ _ (fun u n => u.modTile_steady n _) _).trans (s.endJob_steady _ _ _ _)
    have hv : v.steady = u.steady := eachOf_steady _ _ (fun u n => u.modTile_steady n _) _
    exact (v.endChartOp_steady _ _).trans (hv.trans hu)

/-! ### The collector -/

/-- The entry to the safe state before anything is stopped: permits low, the entry recorded with a fresh challenge, and every
release gate closed (R423). -/
def State.entered (s : State) (src id : Nat) (inj : Bool) : State :=
  eachOf (List.range (quadsOf s.variant) ++ [4]) (fun u g => u.closeGate g true)
    ({ s with
      pins := { s.pins with permit := 0 },
      auth := { s.auth with permits := [] },
      faults := { s.faults with safe := { s.faults.safe with
        on := true, first := src, entry := s.binTime, reaction := id, inj := inj, multi := false,
        challenge := drbgBytes s.draws 32 } } }.drawn 32)

/-- Closing gates commutes with what a gate does not see. -/
theorem eachOf_closeGate_steady (l : List Nat) {s t : State} (h : t.steady = s.steady) :
    (eachOf l (fun u g => u.closeGate g true) t).steady = (eachOf l (fun u g => u.closeGate g true) s).steady := by
  induction l generalizing s t with
  | nil => exact h
  | cons g l ih =>
    have hclose (u : State) : (u.closeGate g true).steady = { u.steady with faults := { u.steady.faults with
        safe := { u.steady.faults.safe with
          gates := tput u.steady.faults.safe.gates g (((tget u.steady.faults.safe.gates g).getD true) && true) } } } := rfl
    exact ih (by rw [hclose, hclose, h])

theorem State.enterSafe_steady (s : State) (src sub id : Nat) (inj : Bool) :
    (s.enterSafe src sub id inj).steady = (s.entered src id inj).steady := by
  unfold State.enterSafe
  extract_lets pins auth faults safe t0 t1 t2 t3 t4 t5 t6
  have ht1 : t1.steady = t0.steady := by
    simp only [t1, ite_steady, eachOf_steady _ _ fun u j => State.markInj_steady u j true, ite_self]
  rw [State.glbEvent_steady, State.logEvent_steady]
  calc t6.steady = t5.steady := eachOf_steady _ _ (fun u p => u.modPort_steady p _) _
    _ = t4.steady := eachOf_steady _ _ (fun u c => u.modCore_steady c _) _
    _ = t3.steady := eachOf_steady _ _ (fun u n => u.modTile_steady n _) _
    _ = t2.safeChart.steady := State.safeJobs_steady _
    _ = t2.steady := State.safeChart_steady _
    _ = (s.entered src id inj).steady := eachOf_closeGate_steady _ ht1

end Sys2Proof.Machine
end

section
/-! PROOF. What a record of the collector changes, and what it leaves alone (chapter 18, R416-R424). -/

namespace Sys2Proof.Machine

/-! ### Entry to the safe state -/

theorem eachOf_closeGate (l : List Nat) (s : State) : ∃ g, eachOf l (fun u g => u.closeGate g true) s =
    { s with faults := { s.faults with safe := { s.faults.safe with gates := g } } } := by
  induction l generalizing s with
  | nil => exact ⟨_, rfl⟩
  | cons n l ih =>
    obtain ⟨g, hg⟩ := ih (s.closeGate n true)
    exact ⟨g, hg⟩

theorem State.entered_eq (s : State) (src id : Nat) (inj : Bool) : ∃ g, s.entered src id inj = { s with
    pins := { s.pins with permit := 0 }, auth := { s.auth with permits := [] }, draws := s.draws + 32,
    faults := { s.faults with safe := { s.faults.safe with
      on := true, first := src, entry := s.binTime, reaction := id, inj := inj, multi := false,
      challenge := drbgBytes s.draws 32, gates := g } } } := eachOf_closeGate _ _

section
variable (s : State) (src sub id : Nat) (inj : Bool)

/-- What an entry to the safe state leaves in the collector. -/
theorem State.enterSafe_faults : ∃ g, (s.enterSafe src sub id inj).faults = { s.faults with safe := { s.faults.safe with
    on := true, first := src, entry := s.binTime, reaction := id, inj := inj, multi := false,
    challenge := drbgBytes s.draws 32, gates := g } } := by
  obtain ⟨g, hg⟩ := s.entered_eq src id inj
  refine ⟨g, ?_⟩
  have h : (s.enterSafe src sub id inj).faults = (s.entered src id inj).faults :=
    (congrArg State.faults (s.enterSafe_steady src sub id inj) :)
  rw [h, hg]

theorem State.enterSafe_pins : (s.enterSafe src sub id inj).pins = { s.pins with permit := 0 } := by
  obtain ⟨g, hg⟩ := s.entered_eq src id inj
  have h : (s.enterSafe src sub id inj).pins = (s.entered src id inj).pins :=
    (congrArg State.pins (s.enterSafe_steady src sub id inj) :)
  rw [h, hg]

end

/-! ### What the collector leaves alone -/

/-- The state apart from the collector and what an entry to the safe state changes besides: the permits and the challenge. -/
def State.apart (s : State) : State :=
  { s.steady with
    faults := {}, pins := { s.pins with permit := 0 }, auth := { s.auth with permits := [] }, draws := 0 }

theorem apart_of_steady {s t : State} (h : t.steady = s.steady) : t.apart = s.apart :=
  congrArg (fun u : State => { u with
    faults := {}, pins := { u.pins with permit := 0 }, auth := { u.auth with permits := [] }, draws := 0 }) h

/-- What a record leaves of its source: its window, and what the next record replaces. -/
def Source.told (S : Source) : Source := { S with attn := false, fenced := false, rid := 0, count := 0, start := 0 }

/-- What stays of the safe state while the device is in it: all but its further conditions and its gates. -/
def Safe.standing (S : Safe) : Safe := { S with multi := false, resetOnly := false, gates := [] }

/-- The handling of a record of source `src`: outside the collector only what an entry to the safe state changes, other sources
as they were, and of its own source only ATTN, the fence, the reaction and the window. The safe state is not left. -/
structure Handles (src : Nat) (s t : State) : Prop where
  apart : t.apart = s.apart
  other : ∀ m, m ≠ src → t.src m = s.src m
  own : (t.src src).told = (s.src src).told
  stays : s.faults.safe.on = true → t.faults.safe.standing = s.faults.safe.standing ∧ t.pins = s.pins

namespace Handles
variable {src : Nat} {s t u : State}

theorem refl (src : Nat) (s : State) : Handles src s s := ⟨rfl, fun _ _ => rfl, rfl, fun _ => ⟨rfl, rfl⟩⟩

theorem trans (hst : Handles src s t) (htu : Handles src t u) : Handles src s u where
  apart := htu.apart.trans hst.apart
  other m hm := (htu.other m hm).trans (hst.other m hm)
  own := htu.own.trans hst.own
  stays hs := by
    obtain ⟨ht, hp⟩ := hst.stays hs
    obtain ⟨hu, hq⟩ := htu.stays ((congrArg Safe.on ht).trans hs)
    exact ⟨hu.trans ht, hq.trans hp⟩

theorem of_steady (src : Nat) (h : t.steady = s.steady) : Handles src s t := by
  have hf : t.faults = s.faults := (congrArg State.faults h :)
  have hsrc (m : Nat) : t.src m = s.src m := by simp only [State.src, hf]
  exact ⟨apart_of_steady h, fun m _ => hsrc m, by rw [hsrc], fun _ => ⟨by rw [hf], (congrArg State.pins h :)⟩⟩

end Handles

theorem State.modSrc_handles (s : State) (src : Nat) {f : Source → Source} (hf : (f (s.src src)).told = (s.src src).told) :
    Handles src s (s.modSrc src f) where
  apart := rfl
  other m hm := by rw [State.modSrc_src, if_neg hm]
  own := by rw [State.modSrc_src, if_pos rfl, hf]
  stays _ := ⟨rfl, rfl⟩

theorem State.newReact_handles (s : State) (src cls state : Nat) (inj : Bool) : Handles src s (s.newReact src cls state inj) :=
  ⟨rfl, fun _ _ => rfl, rfl, fun _ => ⟨rfl, rfl⟩⟩

theorem State.modReact_handles (s : State) (src id : Nat) (f : Reaction → Reaction) : Handles src s (s.modReact id f) := by
  unfold State.modReact
  split
  · exact .refl _ _
  · exact ⟨rfl, fun _ _ => rfl, rfl, fun _ => ⟨rfl, rfl⟩⟩

theorem State.enterSafe_handles (s : State) (src first sub id : Nat) (inj : Bool) (hs : s.faults.safe.on = false) :
    Handles src s (s.enterSafe first sub id inj) := by
  obtain ⟨g, hg⟩ := s.enterSafe_faults first sub id inj
  have hsrc (m : Nat) : (s.enterSafe first sub id inj).src m = s.src m := by simp only [State.src, hg]
  refine ⟨?_, fun m _ => hsrc m, by rw [hsrc], fun h => absurd h (by simp [hs])⟩
  obtain ⟨g', hg'⟩ := s.entered_eq first id inj
  calc _ = (s.entered first id inj).apart := apart_of_steady (s.enterSafe_steady first sub id inj)
    _ = s.apart := by rw [hg']; rfl

theorem State.logEvent_handles (s : State) (src r type : Nat) (body : Bytes) : Handles src s (s.logEvent r type body) :=
  .of_steady _ (s.logEvent_steady r type body)

theorem State.addMulti_handles (s : State) (src : Nat) : Handles src s
    { s with faults := { s.faults with safe := { s.faults.safe with multi := true } } } :=
  ⟨rfl, fun _ _ => rfl, rfl, fun _ => ⟨rfl, rfl⟩⟩

theorem State.reactB_handles (s : State) (src sub : Nat) (inj : Bool) : Handles src s (s.reactB src sub inj) := by
  unfold State.reactB
  split
  · exact (s.addMulti_handles src).trans (State.logEvent_handles _ _ _ _ _)
  next hs =>
    exact (s.newReact_handles src 2 5 inj).trans (((s.newReact src 2 5 inj).modSrc_handles src rfl).trans
      (State.enterSafe_handles _ _ _ _ _ _ (Bool.eq_false_of_not_eq_true hs)))

theorem State.closeGate_handles (s : State) (src g : Nat) (safe : Bool) : Handles src s (s.closeGate g safe) :=
  ⟨rfl, fun _ _ => rfl, rfl, fun _ => ⟨rfl, rfl⟩⟩

theorem State.fenceQuadrant_handles (s : State) (src q : Nat) : Handles src s (s.fenceQuadrant q) := by
  unfold State.fenceQuadrant
  extract_lets t
  have ht : t.steady = s.steady := by
    refine eachOf_steady _ _ (fun u n => ?_) s
    rw [ite_steady, State.fenceTile_steady, ite_self]
  exact (Handles.of_steady _ ht).trans ((t.closeGate_handles src q false).trans
    (.of_steady _ (eachOf_steady _ _ (fun u j => u.stopJob_steady j .fence) _)))

theorem State.fenceUnit_handles (s : State) (src n aux reason : Nat) : Handles src s (s.fenceUnit n aux reason) := by
  unfold State.fenceUnit
  split
  · exact .of_steady _ (s.fenceTile_steady n reason)
  split
  · exact s.fenceQuadrant_handles src _
  refine .of_steady _ ?_
  simp only [ite_steady, State.stopModule_steady, State.stopCore_steady, State.settleQuiesce_steady, State.quiesce_steady,
    State.fencePort_steady, State.modLink_steady, State.linkDown_steady, ite_self]

theorem State.reactA_handles (s : State) (src sub aux : Nat) (inj : Bool) : Handles src s (s.reactA src sub aux inj) := by
  have hreact (u : State) (cls state : Nat) {f : Source → Source} (hf : ∀ S, (f S).told = S.told) :
      Handles src u ((u.newReact src cls state inj).modSrc src f) :=
    (u.newReact_handles src cls state inj).trans (State.modSrc_handles _ src (hf _))
  unfold State.reactA
  extract_lets tooFew id t u
  split
  · exact s.reactB_handles src sub inj
  split
  · exact (s.newReact_handles src 1 3 inj).trans ((State.modReact_handles _ src _ _).trans (State.modSrc_handles _ src rfl))
  split
  · exact .refl _ _
  · have ht : Handles src s t := hreact s 1 1 (f := fun S => { S with attn := true, fenced := true, rid := id }) fun _ => rfl
    have hu : u.steady = t.steady := eachOf_steady _ _ (fun w j => w.markInj_steady j inj) t
    exact ht.trans ((Handles.of_steady _ hu).trans (u.fenceUnit_handles _ _ _ _))

theorem State.countStep_handles (s : State) (src sub aux : Nat) (inj : Bool) : Handles src s (s.countStep src sub aux inj) := by
  unfold State.countStep
  extract_lets S fresh c st t
  have ht : Handles src s t := s.modSrc_handles src rfl
  split
  · split
    · exact ht
    · split
      · exact ht.trans (t.reactA_handles src sub aux inj)
      · exact ht.trans (t.reactB_handles src sub inj)
  · exact s.modSrc_handles src rfl

/-! ### A record (R417) -/

/-- A record is entered in its source, its level and reset-only conditions set, before its reaction. -/
def State.noted (s : State) (src sub aux : Nat) (real inj dry : Bool) (job : Option Nat) : State :=
  let win := s.windowOf src sub aux
  let d := (dispOf s src sub job).getD .log
  let acts := !dry || real
  let s1 := s.modSrc src fun S => { S with
    total := satAdd 32 S.total 1, lastAt := s.binTime, lastSub := sub, real := real, inj := inj,
    conseq := win.isSome, dry := dry, aux := aux,
    rid := match win with
      | some r => r.id
      | none => if S.fenced ∧ d = .a then s.fenceId src else 0,
    cycle := none, present := S.present || (acts && levelCause src sub),
    attn := S.attn || (acts && sub == 0x02) }
  if acts && resetOnlyCause src sub then
    { s1 with faults := { s1.faults with safe := { s1.faults.safe with resetOnly := true } } } else s1

section
variable (s : State) (src sub aux : Nat) (real inj dry : Bool) (job : Option Nat)

theorem State.noted_src (m : Nat) : (s.noted src sub aux real inj dry job).src m =
    (s.modSrc src fun S => { S with
      total := satAdd 32 S.total 1, lastAt := s.binTime, lastSub := sub, real := real, inj := inj,
      conseq := (s.windowOf src sub aux).isSome, dry := dry, aux := aux,
      rid := match s.windowOf src sub aux with
        | some r => r.id
        | none => if S.fenced ∧ (dispOf s src sub job).getD .log = .a then s.fenceId src else 0,
      cycle := none, present := S.present || ((!dry || real) && levelCause src sub),
      attn := S.attn || ((!dry || real) && sub == 0x02) }).src m := by
  unfold State.noted
  dsimp only
  split <;> rfl

theorem State.noted_eq_or : s.noted src sub aux real inj dry job = { s with
    faults := { s.faults with
      sources := (s.noted src sub aux real inj dry job).faults.sources,
      safe := { s.faults.safe with resetOnly := s.faults.safe.resetOnly || ((!dry || real) && resetOnlyCause src sub) } } } := by
  unfold State.noted
  dsimp only
  split
  next h => rw [h, Bool.or_true]; rfl
  next h => rw [Bool.eq_false_of_not_eq_true h, Bool.or_false]; rfl

theorem State.handle_handles :
    Handles src (s.noted src sub aux real inj dry job) (s.handle src sub aux real inj dry job) := by
  unfold State.handle
  extract_lets win d acts s1 faults safe s2
  have hs2 : s.noted src sub aux real inj dry job = s2 := rfl
  rw [hs2]
  clear_value s2 safe faults s1 d win
  split
  · exact .refl _ _
  · split
    · exact (s2.reactB_handles src sub inj).trans (State.modSrc_handles _ src rfl)
    · exact .refl _ _
    · exact s2.reactA_handles src sub aux inj
    · exact s2.reactB_handles src sub inj
    · exact .refl _ _
    · exact s2.countStep_handles src sub aux inj

variable {s src sub aux real inj dry job}

theorem State.handle_of_no_act (h : (!dry || real) = false) :
    s.handle src sub aux real inj dry job = s.noted src sub aux real inj dry job := by
  unfold State.handle
  extract_lets win d acts s1 faults safe s2
  exact if_pos (by simp [acts, h])

variable (hacts : (!dry || real) = true)
include hacts

theorem State.handle_of_b (hd : dispOf s src sub job = some .b) :
    let u := (s.noted src sub aux real inj dry job).reactB src sub inj
    s.handle src sub aux real inj dry job = match s.windowOf src sub aux with
      | some r => u.modSrc src fun S => { S with rid := r.id }
      | none => u := by
  intro u
  unfold State.handle
  extract_lets win d acts s1 faults safe s2
  rw [if_neg (by simp [acts, hacts]), show d = .b by simp [d, hd]]
  cases hw : s.windowOf src sub aux <;> rw [show win = _ from hw] <;> rfl

variable (hwin : s.windowOf src sub aux = none)
include hwin

theorem State.handle_of_a (hd : dispOf s src sub job = some .a) :
    s.handle src sub aux real inj dry job = (s.noted src sub aux real inj dry job).reactA src sub aux inj := by
  unfold State.handle
  extract_lets win d acts s1 faults safe s2
  rw [if_neg (by simp [acts, hacts]), show d = .a by simp [d, hd], show win = none from hwin]
  rfl

theorem State.handle_of_counted (hd : dispOf s src sub job = some .counted) :
    s.handle src sub aux real inj dry job = (s.noted src sub aux real inj dry job).countStep src sub aux inj := by
  unfold State.handle
  extract_lets win d acts s1 faults safe s2
  rw [if_neg (by simp [acts, hacts]), show d = .counted by simp [d, hd], show win = none from hwin]
  rfl

omit hwin in
theorem State.handle_of_log (hd : (dispOf s src sub job).getD .log = .log) :
    s.handle src sub aux real inj dry job = s.noted src sub aux real inj dry job := by
  unfold State.handle
  extract_lets win d acts s1 faults safe s2
  rw [if_neg (by simp [acts, hacts]), show d = .log from hd]
  cases hw : win <;> rfl

end

section
variable (s : State) (src sub aux : Nat) (real inj dry : Bool) (job : Option Nat)

theorem State.handle_apart : (s.handle src sub aux real inj dry job).apart = s.apart := by
  rw [(s.handle_handles src sub aux real inj dry job).apart, State.noted_eq_or]
  rfl

theorem State.handle_src_ne {m : Nat} (hm : m ≠ src) : (s.handle src sub aux real inj dry job).src m = s.src m := by
  rw [(s.handle_handles src sub aux real inj dry job).other m hm, State.noted_src, State.modSrc_src, if_neg hm]

theorem State.handle_told : ((s.handle src sub aux real inj dry job).src src).told = { s.src src with
    total := satAdd 32 (s.src src).total 1, lastAt := s.binTime, lastSub := sub, real := real, inj := inj,
    conseq := (s.windowOf src sub aux).isSome, dry := dry, aux := aux, cycle := none,
    present := (s.src src).present || ((!dry || real) && levelCause src sub) : Source }.told := by
  rw [(s.handle_handles src sub aux real inj dry job).own, State.noted_src, State.modSrc_src, if_pos rfl]
  rfl

theorem State.handle_stays (h : s.faults.safe.on = true) :
    (s.handle src sub aux real inj dry job).faults.safe.standing = s.faults.safe.standing ∧
    (s.handle src sub aux real inj dry job).pins = s.pins := by
  have hs := State.noted_eq_or s src sub aux real inj dry job
  obtain ⟨hon, hpins⟩ := (s.handle_handles src sub aux real inj dry job).stays (by rw [hs]; exact h)
  exact ⟨hon.trans (by rw [hs]; rfl), hpins.trans (by rw [hs])⟩

end

theorem State.event_present (s : State) (src sub aux m : Nat) (job : Option Nat) :
    ((s.event src sub aux job).src m).present = ((s.src m).present || (decide (m = src) && levelCause src sub)) := by
  by_cases hm : m = src
  · subst hm
    have h := congrArg Source.present (s.handle_told m sub aux true false false job)
    simp only [Source.told] at h
    simpa [State.event] using h
  · rw [State.event, State.handle_src_ne _ _ _ _ _ _ _ _ hm]
    simp [hm]

/-- A class B cause outside the safe state enters it. -/
theorem State.reactB_enters {s : State} (hs : s.faults.safe.on = false) (src sub : Nat) (inj : Bool) :
    (s.reactB src sub inj).faults.safe.on = true ∧ (s.reactB src sub inj).faults.safe.first = src ∧
      (s.reactB src sub inj).pins = { s.pins with permit := 0 } := by
  rw [State.reactB, if_neg (by simp [hs])]
  obtain ⟨g, hg⟩ := State.enterSafe_faults ((s.newReact src 2 5 inj).modSrc src fun S =>
    { S with attn := true, rid := s.faults.nextId }) src sub s.faults.nextId inj
  exact ⟨by rw [hg], by rw [hg], State.enterSafe_pins _ _ _ _ _⟩

/-- A record of class B leaves the device in the safe state, which it enters for its own source. -/
theorem State.handle_b {s : State} {src sub aux : Nat} {real inj dry : Bool} {job : Option Nat} (hacts : (!dry || real) = true)
    (hd : dispOf s src sub job = some .b) :
    let t := s.handle src sub aux real inj dry job
    t.faults.safe.on = true ∧ (s.faults.safe.on = true → t.pins = s.pins) ∧
      (s.faults.safe.on = false → t.faults.safe.first = src ∧ t.pins = { s.pins with permit := 0 }) := by
  intro t
  cases hs : s.faults.safe.on with
  | true =>
    obtain ⟨hon, hpins⟩ := s.handle_stays src sub aux real inj dry job hs
    exact ⟨(congrArg Safe.on hon).trans hs, fun _ => hpins, nofun⟩
  | false =>
    obtain ⟨u, hu⟩ : ∃ u, u = s.noted src sub aux real inj dry job := ⟨_, rfl⟩
    have heq := State.noted_eq_or s src sub aux real inj dry job
    rw [← hu] at heq
    have huon : u.faults.safe.on = false := by rw [heq]; exact hs
    obtain ⟨hon, hfirst, hpins⟩ := State.reactB_enters huon src sub inj
    have hup : u.pins = s.pins := by rw [heq]
    have ht := State.handle_of_b (inj := inj) (aux := aux) hacts hd
    rw [← hu] at ht
    have ht : t = u.reactB src sub inj ∨ ∃ r : Reaction, t = (u.reactB src sub inj).modSrc src fun S => { S with rid := r.id } := by
      unfold t
      rw [ht]
      cases s.windowOf src sub aux with
      | none => exact .inl rfl
      | some r => exact .inr ⟨r, rfl⟩
    rcases ht with ht | ⟨r, ht⟩ <;> rw [ht] <;> exact ⟨hon, nofun, fun _ => ⟨hfirst, hup ▸ hpins⟩⟩

end Sys2Proof.Machine
end

section
/-! PROOF. Supplies, clocks, temperature, SAFE_REQ_N and the permit readback (18_faults_safety.md R425-R429;
23_electrical_package.md R498, R505-R509). -/

namespace Sys2Proof.Machine

/-! ### The ends of causes -/

theorem State.causeEnds_src_same (s : State) (n : Nat) : ((s.causeEnds n).src n).present = false := by
  rw [State.causeEnds, State.modSrc_src, if_pos rfl]

/-- A pin changes and its cause ends: time, pins and the collector are all that moved, and the safe state stays as it was. -/
theorem State.causeEnds_onlyPins (s : State) (now : Nat) (P : PinState) (n : Nat) :
    OnlyPins s ({ s.at_ now with pins := P }.causeEnds n) now ∧ ({ s.at_ now with pins := P }.causeEnds n).pins = P ∧
      (({ s.at_ now with pins := P }.causeEnds n).src n).present = false ∧
      ({ s.at_ now with pins := P }.causeEnds n).faults.safe = s.faults.safe :=
  ⟨rfl, rfl, State.causeEnds_src_same _ _, rfl⟩

/-! ### The starts of causes -/

/-- A level cause of class B is recorded: it holds, and of the pins only the permit lines have moved. -/
theorem State.event_cause {s : State} {src sub : Nat} (hd : dispOf s src sub none = some .b) (hl : levelCause src sub = true) :
    CauseHolds s (s.event src sub 0) src := by
  obtain ⟨hon, -, hfirst⟩ := State.handle_b (aux := 0) (inj := false) (dry := false) (real := true) rfl hd
  exact ⟨hon, by rw [State.event_present, hl]; simp, fun hs => ⟨by rw [State.event, (hfirst hs).2], (hfirst hs).1⟩⟩

theorem State.event_apart (s : State) (src sub aux : Nat) (job : Option Nat) : (s.event src sub aux job).apart = s.apart :=
  s.handle_apart src sub aux true false false job

/-- Records and stops after a cause leave it standing. -/
structure Keeps (s t : State) : Prop where
  apart : t.apart = s.apart
  present : ∀ n, (s.src n).present = true → (t.src n).present = true
  stays : s.faults.safe.on = true → t.faults.safe.standing = s.faults.safe.standing ∧ t.pins = s.pins

theorem Keeps.refl (s : State) : Keeps s s := ⟨rfl, fun _ h => h, fun _ => ⟨rfl, rfl⟩⟩

theorem Keeps.trans {s t u : State} (hst : Keeps s t) (htu : Keeps t u) : Keeps s u where
  apart := htu.apart.trans hst.apart
  present n h := htu.present n (hst.present n h)
  stays hs := by
    obtain ⟨ht, hp⟩ := hst.stays hs
    obtain ⟨hu, hq⟩ := htu.stays ((congrArg Safe.on ht).trans hs)
    exact ⟨hu.trans ht, hq.trans hp⟩

theorem Keeps.of_steady {s t : State} (h : t.steady = s.steady) : Keeps s t := by
  have hf : t.faults = s.faults := (congrArg State.faults h :)
  exact ⟨apart_of_steady h, fun n => by simp only [State.src, hf, imp_self], fun _ => ⟨by rw [hf], (congrArg State.pins h :)⟩⟩

theorem State.event_keeps (s : State) (src sub aux : Nat) (job : Option Nat) : Keeps s (s.event src sub aux job) :=
  ⟨s.event_apart src sub aux job, fun n h => by rw [State.event_present, h, Bool.true_or],
    fun h => s.handle_stays src sub aux true false false job h⟩

theorem eachOf_Keeps (l : List Nat) (f : State → Nat → State) (hf : ∀ t n, Keeps t (f t n)) (s : State) : Keeps s (eachOf l f s) := by
  induction l generalizing s with
  | nil => exact .refl s
  | cons n l ih => exact (hf s n).trans (ih (f s n))

theorem State.crossingsStop_keeps (s : State) (k : Nat) : Keeps s (s.crossingsStop k) := by
  unfold State.crossingsStop
  split
  · exact s.event_keeps _ _ _ _
  · exact eachOf_Keeps _ _ (fun u p => (Keeps.of_steady (u.flushPort_steady p)).trans (State.event_keeps _ _ _ _ _)) s
  · exact eachOf_Keeps _ _ (fun u p => (Keeps.of_steady (u.flushLink_steady p)).trans (State.event_keeps _ _ _ _ _)) s
  · exact .refl s

/-- A cause that holds goes on to hold. -/
theorem CauseHolds.keeps {s t u : State} {src : Nat} (h : CauseHolds s t src) (hk : Keeps t u) : CauseHolds s u src := by
  obtain ⟨hon, hpresent, hfirst⟩ := h
  obtain ⟨hsafe, hpins⟩ := hk.stays hon
  exact ⟨(congrArg Safe.on hsafe).trans hon, hk.present src hpresent, fun hs => ⟨by rw [hpins]; exact (hfirst hs).1,
    ((congrArg Safe.first hsafe).trans (hfirst hs).2 :)⟩⟩

/-! ### Supplies, clocks and temperature -/

theorem dispOf_rail (s : State) (k : Nat) : dispOf s (railSrc k) 0x27 none = some .b :=
  if_pos ⟨Nat.le_add_right 320 _, Nat.add_le_add_left (min_le_right k 6) 320⟩

theorem dispOf_clock (s : State) (c : RefClock) : dispOf s (clockSrc (clockCode c)) 0x28 none = some .b := by
  cases c <;> rfl

section
variable (s : State) (now ns : Nat)

/-- A pin's new state and its cause, recorded, and what follows from it: the cause holds and the pin stays as it is. -/
theorem pinCause_spec {P : PinState} {src sub : Nat} {f : State → State} (hf : ∀ u, Keeps u (f u))
    (hd : ∀ u : State, dispOf u src sub none = some .b) (hl : levelCause src sub = true) :
    CauseHolds s (f ({ s.at_ now with pins := P }.event src sub 0)) src ∧
      { (f ({ s.at_ now with pins := P }.event src sub 0)).pins with permit := 0 } = { P with permit := 0 } := by
  generalize hu : { s.at_ now with pins := P } = u
  have hc : CauseHolds u (u.event src sub 0) src := State.event_cause (hd _) hl
  have hk := hf (u.event src sub 0)
  have hp : { (f (u.event src sub 0)).pins with permit := 0 } = { u.pins with permit := 0 } :=
    (congrArg State.pins (hk.apart.trans (u.event_apart src sub 0 none)) :)
  obtain ⟨hon, hpresent, hfirst⟩ := CauseHolds.keeps hc hk
  subst hu
  exact ⟨⟨hon, hpresent, hfirst⟩, hp⟩

theorem supply_spec {r : Rail} (hok : railOk r = true) (hhas : s.hasRail r = true) (hns : 2000 < ns)
    (hin : s.pins.rails.contains (railCode r) = false) : Completes (.supply r ns now) s fun t =>
      CauseHolds s t (railSrc (railCode r)) ∧ t.pins.rails = s.pins.rails ++ [railCode r] := by
  have hcond : ¬ (ns ≤ 2000 ∨ ¬ (s.at_ now).hasRail r = true ∨ (s.at_ now).pins.rails.contains (railCode r) = true) := by
    rw [show (s.at_ now).hasRail r = true from hhas, show (s.at_ now).pins.rails.contains (railCode r) = false from hin]
    simp [hns]
  have hx : exec (.supply r ns now) s = execSupply r ns now s := rfl
  rw [execSupply, hok] at hx
  dsimp only at hx
  rw [if_neg hcond] at hx
  obtain ⟨hc, hp⟩ := pinCause_spec s now (P := { s.pins with rails := s.pins.rails ++ [railCode r] }) Keeps.refl
    (fun u => dispOf_rail u (railCode r)) rfl
  exact ⟨_, hx, hc, (congrArg PinState.rails hp :)⟩

theorem supplyRecovery_spec {r : Rail} (hok : railOk r = true) (hns : 1000000 ≤ ns) (hin : s.pins.rails = [railCode r]) :
    Completes (.supplyRecovery r ns now) s fun t => OnlyPins s t now ∧ t.pins = { s.pins with rails := [] } ∧
      (t.src (railSrc (railCode r))).present = false ∧ t.faults.safe = s.faults.safe := by
  have hx : exec (.supplyRecovery r ns now) s = execSupplyRecovery r ns now s := rfl
  rw [execSupplyRecovery, hok] at hx
  dsimp only at hx
  rw [show (s.at_ now).pins.rails = [railCode r] from hin, if_neg (by simp [hns])] at hx
  have hfilter : [railCode r].filter (· != railCode r) = [] := by simp
  rw [hfilter] at hx
  exact ⟨_, hx, s.causeEnds_onlyPins now { s.pins with rails := [] } (railSrc (railCode r))⟩

theorem clockLoss_spec {c : RefClock} (hhas : s.hasClock c = true) (hin : s.pins.clocks.contains (clockCode c) = false) :
    Completes (.clockLoss c now) s fun t => CauseHolds s t (clockSrc (clockCode c)) ∧
      t.pins.clocks = s.pins.clocks ++ [clockCode c] ∧ t.pins.alwaysOnOsc = (s.pins.alwaysOnOsc || c == .sysclk) := by
  have hcond : ¬ (¬ (s.at_ now).hasClock c = true ∨ (s.at_ now).pins.clocks.contains (clockCode c) = true) := by
    rw [show (s.at_ now).hasClock c = true from hhas, show (s.at_ now).pins.clocks.contains (clockCode c) = false from hin]
    simp
  have hx : exec (.clockLoss c now) s = execClockLoss c now s := rfl
  rw [execClockLoss] at hx
  dsimp only at hx
  rw [if_neg hcond] at hx
  obtain ⟨hc, hp⟩ := pinCause_spec s now (P := { s.pins with
      clocks := s.pins.clocks ++ [clockCode c], alwaysOnOsc := s.pins.alwaysOnOsc || clockCode c == 3 })
    (fun u => u.crossingsStop_keeps (clockCode c)) (fun u => dispOf_clock u c) (by cases c <;> rfl)
  exact ⟨_, hx, hc, (congrArg PinState.clocks hp :), (congrArg PinState.alwaysOnOsc hp :).trans (by cases c <;> rfl)⟩

theorem clockRecovery_spec {c : RefClock} (hns : 10000000 ≤ ns) (hin : s.pins.clocks = [clockCode c]) :
    Completes (.clockRecovery c ns now) s fun t => OnlyPins s t now ∧ t.pins = { s.pins with clocks := [] } ∧
      (t.src (clockSrc (clockCode c))).present = false ∧ t.faults.safe = s.faults.safe := by
  have hx : exec (.clockRecovery c ns now) s = execClockRecovery c ns now s := rfl
  rw [execClockRecovery] at hx
  dsimp only at hx
  rw [show (s.at_ now).pins.clocks = [clockCode c] from hin, if_neg (by simp [hns])] at hx
  have hfilter : [clockCode c].filter (· != clockCode c) = [] := by simp
  rw [hfilter] at hx
  exact ⟨_, hx, s.causeEnds_onlyPins now { s.pins with clocks := [] } (clockSrc (clockCode c))⟩

/-- A record of the class log changes the collector alone. -/
theorem State.event_log {s : State} {src sub : Nat} (hd : dispOf s src sub none = some .log) (hr : resetOnlyCause src sub = false) :
    s.event src sub 0 = { s with faults := { s.faults with sources := (s.event src sub 0).faults.sources } } := by
  have heq : s.event src sub 0 = s.noted src sub 0 true false false none :=
    State.handle_of_log (by rfl) (by rw [hd]; rfl)
  conv_lhs => rw [heq, State.noted_eq_or, hr]
  rw [heq, Bool.and_false, Bool.or_false]

theorem temperatureLimit_spec {c : Nat} (hc : (s.gradeMax + 10 < c ∧ 1000000 ≤ ns) ∨ (125 < c ∧ 10000 ≤ ns)) :
    Completes (.temperatureLimit c ns now) s fun t => CauseHolds s t 330 ∧ t.pins.tempCrit = true ∧
      t.pins.gated = (s.pins.gated || decide (125 < c ∧ 10000 ≤ ns)) := by
  have hx : exec (.temperatureLimit c ns now) s = execTemperatureLimit c ns now s := rfl
  rw [execTemperatureLimit] at hx
  dsimp only at hx
  rw [show (s.at_ now).gradeMax = s.gradeMax from rfl] at hx
  generalize hv : (if s.gradeMax - 5 < c ∧ 1000000 ≤ ns then (s.at_ now).event 330 0x29 0 else s.at_ now) = v at hx
  obtain ⟨hpins, hsafe⟩ : v.pins = s.pins ∧ v.faults.safe = s.faults.safe := by
    rw [← hv]
    split
    · rw [State.event_log rfl rfl]
      exact ⟨rfl, rfl⟩
    · exact ⟨rfl, rfl⟩
  rw [if_pos (by rw [Bool.or_eq_true, decide_eq_true_iff, decide_eq_true_iff]; exact hc.symm)] at hx
  obtain ⟨hon, hpresent, hfirst⟩ := State.event_cause
    (s := { v with pins := { v.pins with tempCrit := true, gated := v.pins.gated || decide (125 < c ∧ 10000 ≤ ns) } })
    (src := 330) (sub := 0x2A) rfl rfl
  have hp := (congrArg State.pins (State.event_apart
    { v with pins := { v.pins with tempCrit := true, gated := v.pins.gated || decide (125 < c ∧ 10000 ≤ ns) } } 330 0x2A 0 none) :)
  refine ⟨_, hx, ⟨hon, hpresent, fun hs => hfirst ((congrArg Safe.on hsafe).trans hs)⟩, (congrArg PinState.tempCrit hp :), ?_⟩
  rw [← hpins]
  exact (congrArg PinState.gated hp :)

theorem temperatureRecovery_spec {c : Nat} (hc : c < s.gradeMax) : Completes (.temperatureRecovery c now) s fun t =>
    OnlyPins s t now ∧ t.pins = { s.pins with tempCrit := false } ∧ (t.src 330).present = false ∧
      t.faults.safe = s.faults.safe := by
  have hx : exec (.temperatureRecovery c now) s = execTemperatureRecovery c now s := rfl
  rw [execTemperatureRecovery] at hx
  dsimp only at hx
  rw [if_pos (show c < (s.at_ now).gradeMax from hc)] at hx
  exact ⟨_, hx, s.causeEnds_onlyPins now { s.pins with tempCrit := false } 330⟩

end

/-- Settles O16: a cause that begins is one class B record after its pin is set (`pinCause_spec`), and one that ends clears
PRESENT alone (`State.causeEnds_onlyPins`). -/
theorem supplyClockAndTemperatureAreLevelCauses : Obligations.SupplyClockAndTemperatureAreLevelCauses := by
  unfold Obligations.SupplyClockAndTemperatureAreLevelCauses
  intro s now ns
  refine ⟨fun r hok hhas => ⟨supply_spec s now ns hok hhas, fun hns => ?short, supplyRecovery_spec s now ns hok, fun hns => ?early⟩,
    fun c hhas => ⟨clockLoss_spec s now hhas, clockRecovery_spec s now ns⟩, fun c => temperatureLimit_spec s now ns,
    fun c => temperatureRecovery_spec s now, ⟨_, rfl, s.causeEnds_onlyPins now { s.pins with entropyBad := false } 291⟩⟩
  case short =>
    have hx : exec (.supply r ns now) s = execSupply r ns now s := rfl
    rw [hx, execSupply, hok]
    dsimp only
    rw [if_pos (.inl hns)]
    rfl
  case early =>
    have hx : exec (.supplyRecovery r ns now) s = execSupplyRecovery r ns now s := rfl
    rw [hx, execSupplyRecovery, hok]
    dsimp only
    rw [if_pos (.inl hns)]
    rfl

end Sys2Proof.Machine
end

section
/-! PROOF. SAFE_REQ_N and the permit readback (18_faults_safety.md R427-R429; 23_electrical_package.md R505). -/

namespace Sys2Proof.Machine

/-! ### The filter of SAFE_REQ_N -/

section
variable {s : State} {x : Bool}

/-- A sample that disagrees with the filtered level, before the fifth. -/
theorem State.sample_of_ne (hx : x ≠ s.pins.filtered) (hrun : s.pins.run.length ≠ 4) :
    s.sample x = { s with pins := { s.pins with raw := x, run := s.pins.run ++ [x] } } := by
  simp [State.sample, hx, hrun]

theorem State.sample_fifth (hx : x ≠ s.pins.filtered) (hrun : s.pins.run.length = 4) :
    s.sample x = { s with pins := { s.pins with raw := x } }.filtered x := by
  simp [State.sample, hx, hrun]

/-- Up to four samples that disagree with the filtered level only wait. -/
theorem State.samples_of_ne (hx : x ≠ s.pins.filtered) (hrun : s.pins.run = []) {k : Nat} (hk : 1 ≤ k) (h4 : k ≤ 4) :
    s.samples (List.replicate k x) = { s with pins := { s.pins with raw := x, run := List.replicate k x } } := by
  induction k, hk using Nat.le_induction with
  | base => simp [State.samples, State.sample_of_ne hx (by simp [hrun]), hrun]
  | succ k hk ih =>
    have ih := ih (by omega)
    have hstep : s.samples (List.replicate (k + 1) x) = (s.samples (List.replicate k x)).sample x := by
      rw [State.samples, List.replicate_succ', List.foldl_append]
      rfl
    have hlen : (List.replicate k x).length ≠ 4 := by rw [List.length_replicate]; omega
    rw [hstep, ih, List.replicate_succ']
    exact State.sample_of_ne (s := { s with pins := { s.pins with raw := x, run := List.replicate k x } }) hx hlen

/-- Five samples that disagree with the filtered level change it. -/
theorem State.samples_five (hx : x ≠ s.pins.filtered) (hrun : s.pins.run = []) :
    s.samples (List.replicate 5 x) = { s with pins := { s.pins with raw := x, run := List.replicate 4 x } }.filtered x := by
  have hstep : s.samples (List.replicate 5 x) = (s.samples (List.replicate 4 x)).sample x := rfl
  rw [hstep, State.samples_of_ne hx hrun (by decide) le_rfl]
  exact State.sample_fifth (s := { s with pins := { s.pins with raw := x, run := List.replicate 4 x } }) hx rfl

/-- An edge that comes to nothing is two records of source 385. -/
theorem State.samples_chatter (hrun : s.pins.run = []) {k : Nat} (hk : 1 ≤ k) (h4 : k ≤ 4) :
    s.samples (List.replicate k (!s.pins.filtered) ++ [s.pins.filtered]) =
      ({ s with pins := { s.pins with raw := s.pins.filtered, run := [] } }.event 385 0x2F 0).event 385 0x2F 0 := by
  have hstep : s.samples (List.replicate k (!s.pins.filtered) ++ [s.pins.filtered]) =
      (s.samples (List.replicate k (!s.pins.filtered))).sample s.pins.filtered := by
    rw [State.samples, List.foldl_append]
    rfl
  rw [hstep, State.samples_of_ne (by simp) hrun hk h4]
  simp [State.sample, show ¬ k = 0 by omega]

end

theorem State.event_total (s : State) (src sub aux : Nat) (job : Option Nat) :
    ((s.event src sub aux job).src src).total = satAdd 32 (s.src src).total 1 :=
  (congrArg Source.total (s.handle_told src sub aux true false false job) :)

theorem State.event_lastSub (s : State) (src sub aux : Nat) (job : Option Nat) :
    ((s.event src sub aux job).src src).lastSub = sub :=
  (congrArg Source.lastSub (s.handle_told src sub aux true false false job) :)

theorem done_event {s u : State} (h : u.pending = s.pending) (src sub aux : Nat) (job : Option Nat) :
    done s (u.event src sub aux job) = .next (u.event src sub aux job) :=
  done_eq ((congrArg State.pending (u.event_apart src sub aux job) :).trans h)

theorem safeRequest_spec (s : State) (now : Nat) (hrun : s.pins.run = []) :
    (s.pins.filtered = true → Completes (.safeReqNEdge (List.replicate 5 false) now) s fun t =>
      CauseHolds s t 384 ∧ t.pins.filtered = false ∧ t.pins.run = [] ∧
      t.pins.heldNext = some ((s.time.to now).elapsed + 60000000000)) ∧
    (s.pins.filtered = false → Completes (.safeReqNRelease (List.replicate 5 true) now) s fun t =>
      OnlyPins s t now ∧ t.pins = { s.pins with filtered := true, raw := true, heldNext := none } ∧
      (t.src 384).present = false ∧ t.faults.safe = s.faults.safe) := by
  constructor
  · intro hf
    have hx : exec (.safeReqNEdge (List.replicate 5 false) now) s = done s ((s.at_ now).samples (List.replicate 5 false)) := rfl
    rw [State.samples_five (s := s.at_ now) (by simp [hf]) hrun] at hx
    obtain ⟨hc, hp⟩ := pinCause_spec s now (P := { s.pins with
      raw := false, filtered := false, run := [], heldNext := some ((s.time.to now).elapsed + 60000000000) }) (src := 384) (sub := 0x2D) Keeps.refl
      (fun _ => rfl) rfl
    exact ⟨_, hx, hc, (congrArg PinState.filtered hp :), (congrArg PinState.run hp :), (congrArg PinState.heldNext hp :)⟩
  · intro hf
    have hx : exec (.safeReqNRelease (List.replicate 5 true) now) s = done s ((s.at_ now).samples (List.replicate 5 true)) := rfl
    rw [State.samples_five (s := s.at_ now) (by simp [hf]) hrun] at hx
    obtain ⟨honly, hpins, hsrc, hsafe⟩ := s.causeEnds_onlyPins now
      { s.pins with filtered := true, raw := true, run := [], heldNext := none } 384
    exact ⟨_, hx, honly, hpins.trans (by simp [hrun]), hsrc, hsafe⟩

theorem chatterEdge_spec (s : State) (now : Nat) (hrun : s.pins.run = []) {k : Nat} (hk : 1 ≤ k) (h4 : k ≤ 4) :
    Completes (.chatterEdge (List.replicate k (!s.pins.filtered) ++ [s.pins.filtered]) now) s fun t =>
      t.pins.filtered = s.pins.filtered ∧ t.pins.run = [] ∧ (t.src 384).present = (s.src 384).present ∧
      (t.src 385).total = satAdd 32 (satAdd 32 (s.src 385).total 1) 1 := by
  have hx : exec (.chatterEdge (List.replicate k (!s.pins.filtered) ++ [s.pins.filtered]) now) s =
    done s ((s.at_ now).samples (List.replicate k (!(s.at_ now).pins.filtered) ++ [(s.at_ now).pins.filtered])) := rfl
  rw [State.samples_chatter (s := s.at_ now) hrun hk h4] at hx
  refine ⟨_, hx, ?_⟩
  generalize hu : { s.at_ now with pins := { (s.at_ now).pins with raw := (s.at_ now).pins.filtered, run := [] } } = u
  have hp : { ((u.event 385 0x2F 0).event 385 0x2F 0).pins with permit := 0 } = { u.pins with permit := 0 } :=
    (congrArg State.pins ((State.event_apart _ 385 0x2F 0 none).trans (u.event_apart 385 0x2F 0 none)) :)
  have hpresent : (((u.event 385 0x2F 0).event 385 0x2F 0).src 384).present = (u.src 384).present := by
    rw [State.event_present, State.event_present]
    simp
  have htotal : (((u.event 385 0x2F 0).event 385 0x2F 0).src 385).total = satAdd 32 (satAdd 32 (u.src 385).total 1) 1 := by
    rw [State.event_total, State.event_total]
  subst hu
  exact ⟨(congrArg PinState.filtered hp :), (congrArg PinState.run hp :), hpresent, htotal⟩

/-- A pin changes and a record of the class log is made. -/
theorem State.event_log_onlyPins (s : State) (now : Nat) (P : PinState) {src sub : Nat}
    (hd : ∀ u : State, dispOf u src sub none = some .log) (hr : resetOnlyCause src sub = false) :
    OnlyPins s ({ s.at_ now with pins := P }.event src sub 0) now ∧ ({ s.at_ now with pins := P }.event src sub 0).pins = P ∧
      ({ s.at_ now with pins := P }.event src sub 0).faults.safe = s.faults.safe := by
  have h := State.event_log (s := { s.at_ now with pins := P }) (hd _) hr
  generalize { s.at_ now with pins := P }.event src sub 0 = t at h
  rw [h]
  exact ⟨rfl, rfl, rfl⟩

theorem held_spec (s : State) (now : Nat) {d : Nat} (hf : s.pins.filtered = false) (hd : s.pins.heldNext = some d)
    (hdue : d ≤ (s.time.to now).elapsed) : Completes (.held now) s fun t =>
      OnlyPins s t now ∧ t.pins = { s.pins with heldNext := some (d + 60000000000) } ∧ (t.src 384).lastSub = 0x2E ∧
      (t.src 384).total = satAdd 32 (s.src 384).total 1 ∧ t.faults.safe = s.faults.safe := by
  have hx : exec (.held now) s = execHeld now s := rfl
  have hlow : ¬ (s.at_ now).pins.filtered = true := fun h => Bool.false_ne_true (hf.symm.trans h)
  rw [execHeld, show (s.at_ now).pins.heldNext = some d from hd] at hx
  dsimp only at hx
  rw [if_pos ⟨hlow, hdue⟩] at hx
  refine ⟨_, hx.trans (done_event ?pend 384 0x2E 0 none), ?_⟩
  case pend => rfl
  obtain ⟨honly, hpins, hsafe⟩ := s.event_log_onlyPins now { (s.at_ now).pins with heldNext := some (d + 60000000000) }
    (src := 384) (sub := 0x2E) (fun _ => rfl) rfl
  exact ⟨honly, hpins, State.event_lastSub _ _ _ _ _, State.event_total _ _ _ _ _, hsafe⟩

/-! ### The permit readback -/

theorem setBit_getLsbD {n : Nat} (hn : n < 8) (x : BitVec 8) (b : Bool) :
    (if b then x ||| (1#8 <<< n) else x &&& ~~~ (1#8 <<< n)).getLsbD n = b := by
  cases b <;> simp [hn]

/-- The pins with a readback sampled. -/
def PinState.readback (P : PinState) (n : Nat) (level : Bool) : PinState :=
  let put := fun (x : BitVec 8) (b : Bool) => if b then x ||| (1#8 <<< n) else x &&& ~~~ (1#8 <<< n)
  { P with permitFb := put P.permitFb level, mismatch := put P.mismatch (level != P.permit.getLsbD n) }

theorem State.readback_eq (s : State) (n : Nat) (level : Bool) :
    s.readback n level = { s with pins := s.pins.readback n level } := rfl

theorem PinState.readback_bits {n : Nat} (hn : n < 8) (P : PinState) (level : Bool) :
    (P.readback n level).permitFb.getLsbD n = level ∧
      (P.readback n level).mismatch.getLsbD n = (level != P.permit.getLsbD n) :=
  ⟨setBit_getLsbD hn _ _, setBit_getLsbD hn _ _⟩

theorem permitReadback_spec (s : State) (n now samples : Nat) (hn : n < 8) :
    let drive := s.pins.permit.getLsbD n
    ((s.src (392 + n)).present = false → 51 ≤ samples → Completes (.permitMismatch n (!drive) samples now) s fun t =>
      CauseHolds s t (392 + n) ∧ t.pins.permitFb.getLsbD n = !drive ∧ t.pins.mismatch.getLsbD n = true) ∧
    (samples < 51 → Completes (.permitMismatch n (!drive) samples now) s fun t => OnlyPins s t now ∧ t.faults = s.faults) ∧
    (Completes (.permitReadbackAgree n drive now) s fun t => OnlyPins s t now ∧
      t.pins.permit = s.pins.permit ∧ t.pins.permitFb.getLsbD n = drive ∧ t.pins.mismatch.getLsbD n = false ∧
      (t.src (392 + n)).present = false ∧ t.faults.safe = s.faults.safe) := by
  intro drive
  have hx (level : Bool) : exec (.permitMismatch n level samples now) s = execPermitMismatch n level samples now s := rfl
  have hy : exec (.permitReadbackAgree n drive now) s = execPermitReadbackAgree n drive now s := rfl
  rw [execPermitReadbackAgree, decide_eq_true hn] at hy
  simp only [execPermitMismatch, decide_eq_true hn] at hx
  refine ⟨fun hpresent hlong => ?_, fun hshort => ?_, ?_⟩
  · have hxn := hx (!drive)
    have hnot : ¬ (((s.at_ now).readback n (!drive)).src (392 + n)).present = true := by
      rw [show (((s.at_ now).readback n (!drive)).src (392 + n)).present = false from hpresent]
      exact Bool.false_ne_true
    rw [if_pos ⟨hlong, Bool.not_ne_self drive, hnot⟩] at hxn
    obtain ⟨hc, hp⟩ := pinCause_spec s now (P := s.pins.readback n !drive) (src := 392 + n) (sub := 0x30) Keeps.refl
      (fun _ => if_pos ⟨Nat.le_add_right _ _, by omega⟩) (by simp [levelCause])
    obtain ⟨hfb, hmis⟩ := s.pins.readback_bits hn !drive
    exact ⟨_, hxn, hc, (congrArg (fun P : PinState => P.permitFb.getLsbD n) hp :).trans hfb,
      (congrArg (fun P : PinState => P.mismatch.getLsbD n) hp :).trans (hmis.trans (by simp [drive]))⟩
  · have hxn := hx (!drive)
    rw [if_neg fun h => by omega] at hxn
    exact ⟨_, hxn, rfl, rfl⟩
  · rw [if_pos (show drive = ((s.at_ now).readback n drive).pins.permit.getLsbD n from rfl)] at hy
    obtain ⟨hfb, hmis⟩ := s.pins.readback_bits hn drive
    obtain ⟨honly, hpins, hsrc, hsafe⟩ := s.causeEnds_onlyPins now (s.pins.readback n drive) (392 + n)
    exact ⟨_, hy, honly, rfl, hfb, hmis.trans (by simp [drive]), hsrc, hsafe⟩

/-- Settles O17: the filter by its samples, one at a time; the readback by the bits that a sample writes. -/
theorem safeRequestAndPermitReadbackPins : Obligations.SafeRequestAndPermitReadbackPins := by
  unfold Obligations.SafeRequestAndPermitReadbackPins
  refine ⟨fun s now hrun => ⟨(safeRequest_spec s now hrun).1, (safeRequest_spec s now hrun).2,
    fun k hk h4 => chatterEdge_spec s now hrun hk h4, fun d hf hd hdue => held_spec s now hf hd hdue⟩,
    fun s n now samples hn => permitReadback_spec s n now samples hn⟩

end Sys2Proof.Machine
end

section
/-! PROOF. What the end and the stop of a job change, and what they leave of tiles, cores, queues, keys and other jobs
(04_engine_tiles.md R88, R89). -/

namespace Sys2Proof.Machine

/-! ### What an end leaves of a thing -/

/-- A tile apart from the runs that it holds: busy and idle are one. -/
def Tile.posture (T : Tile) : Tile :=
  { T with mode := if T.mode = .busy then .idle else T.mode, slots := [], saved := [], ctxs := [] }

/-- A job apart from the durable commit that it carries or waits for. -/
def Job.body (J : Job) : Job := { J with commit := .none, waitFor := none }

/-- A key apart from its leaf state. -/
def Key.body (K : Key) : Key := { K with hbs := none }

/-- A core apart from its registers. -/
def Core.body (C : Core) : Core := { C with v := [], x := [] }

/-- A queue apart from its chain. -/
def Queue.body (Q : Queue) : Queue := { Q with chain := none, skip := false }

/-- Jobs of `P` have ended or been asked to: nothing else of the device has changed but what their ends give back and what is
reported and written of them. -/
structure Ends (P : Nat → Prop) (s t : State) : Prop where
  steady : t.steady = s.steady
  tile : ∀ n, (t.tile n).posture = (s.tile n).posture
  job : ∀ k, ¬ P k → (t.job? k).map Job.body = (s.job? k).map Job.body
  key : ∀ i, (t.key? i).map Key.body = (s.key? i).map Key.body
  core : ∀ c, (t.core c).body = (s.core c).body
  queue : ∀ q, (t.queue q).body = (s.queue q).body
  partners : t.partners = s.partners
  links : t.cluster.links = s.cluster.links
  chart : t.chart = s.chart

namespace Ends
variable {P Q : Nat → Prop} {s t u : State}

theorem refl (P : Nat → Prop) (s : State) : Ends P s s :=
  ⟨rfl, fun _ => rfl, fun _ _ => rfl, fun _ => rfl, fun _ => rfl, fun _ => rfl, rfl, rfl, rfl⟩

theorem trans (hst : Ends P s t) (htu : Ends P t u) : Ends P s u where
  steady := htu.steady.trans hst.steady
  tile n := (htu.tile n).trans (hst.tile n)
  job k hk := (htu.job k hk).trans (hst.job k hk)
  key i := (htu.key i).trans (hst.key i)
  core c := (htu.core c).trans (hst.core c)
  queue q := (htu.queue q).trans (hst.queue q)
  partners := htu.partners.trans hst.partners
  links := htu.links.trans hst.links
  chart := htu.chart.trans hst.chart

theorem mono (h : Ends P s t) (hPQ : ∀ k, P k → Q k) : Ends Q s t :=
  { h with job := fun k hk => h.job k fun hp => hk (hPQ k hp) }

theorem each (l : List Nat) (f : State → Nat → State) (hf : ∀ t n, n ∈ l → Ends P t (f t n)) (s : State) : Ends P s (eachOf l f s) := by
  induction l generalizing s with
  | nil => exact .refl P s
  | cons n l ih =>
    exact (hf s n List.mem_cons_self).trans (ih (fun t m hm => hf t m (List.mem_cons_of_mem n hm)) (f s n))

theorem of_reports (h : Reports s t) : Ends P s t := by
  obtain ⟨l, p, r, f, o, g, c, rfl⟩ := h.exists
  exact ⟨rfl, fun _ => rfl, fun _ _ => rfl, fun _ => rfl, fun _ => rfl, fun _ => rfl, rfl, rfl, rfl⟩

end Ends

/-! ### One change each -/

section
variable (P : Nat → Prop) (s : State)

theorem State.modTile_ends (n : Nat) {f : Tile → Tile} (hf : ∀ T, (f T).posture = T.posture) : Ends P s (s.modTile n f) :=
  { Ends.refl P s with
    steady := rfl
    tile := fun m => by
      rw [State.modTile_tile]
      split
      next h => rw [hf, h]
      · rfl }

theorem State.modJob_ends {j : Nat} {f : Job → Job} (hf : P j ∨ ∀ J, (f J).body = J.body) : Ends P s (s.modJob j f) :=
  { Ends.refl P s with
    steady := rfl
    job := fun k hk => by
      rw [State.modJob_job]
      split
      next h =>
        subst h
        rw [Option.map_map]
        exact congrArg (Option.map · _) (funext (hf.resolve_left hk))
      · rfl }

theorem State.modKey_ends (i : Nat) {f : Key → Key} (hf : ∀ K, (f K).body = K.body) : Ends P s (s.modKey i f) :=
  { Ends.refl P s with
    steady := rfl
    key := fun k => by
      rw [State.modKey_key]
      split
      · rw [Option.map_map]
        exact congrArg (Option.map · _) (funext hf)
      · rfl }

theorem State.modCore_ends (c : Nat) {f : Core → Core} (hf : ∀ C, (f C).body = C.body) : Ends P s (s.modCore c f) :=
  { Ends.refl P s with
    steady := rfl
    core := fun d => by
      rw [State.modCore_core]
      split
      next h => rw [hf, h]
      · rfl }

theorem State.modQueue_ends (q : Nat) {f : Queue → Queue} (hf : ∀ Q, (f Q).body = Q.body) : Ends P s (s.modQueue q f) :=
  { Ends.refl P s with
    steady := rfl
    queue := fun p => by
      rw [State.modQueue_queue]
      split
      next h => rw [hf, h]
      · rfl }

theorem tget_map {α : Type} (t : Table α) (f : α → α) (k : Nat) : tget (t.map fun e => (e.1, f e.2)) k = (tget t k).map f :=
  tget_tmap t (fun _ => f) k

theorem State.freeSlots_ends (j : Nat) : Ends P s (s.freeSlots j) :=
  { Ends.refl P s with
    steady := rfl
    tile := fun n => by
      have hget : (s.freeSlots j).tile n = ((tget s.tiles n).map (·.leave j)).getD {} :=
        congrArg (fun o : Option Tile => o.getD {}) (tget_map s.tiles (·.leave j) n)
      rw [hget, State.tile]
      cases tget s.tiles n <;> rfl }

theorem State.wr_ends (m : Option Nat) (a : Nat) (bs : Bytes) : Ends P s (s.wr m a bs) := by
  cases m with
  | none =>
    simp only [State.wr, State.hostWrite]
    split <;> exact ⟨rfl, fun _ => rfl, fun _ _ => rfl, fun _ => rfl, fun _ => rfl, fun _ => rfl, rfl, rfl, rfl⟩
  | some k => exact ⟨rfl, fun _ => rfl, fun _ _ => rfl, fun _ => rfl, fun _ => rfl, fun _ => rfl, rfl, rfl, rfl⟩

theorem State.zeroFill_ends (m : Option Nat) (dst n : Nat) : Ends P s (s.zeroFill m dst n).1 := by
  unfold State.zeroFill
  split <;> exact s.wr_ends P _ _ _

/-! ### The end of a job -/

theorem State.movePending_ends (i : Nat) (J : Job) (K : Option Job) : Ends P s (s.movePending i J K) := by
  simp only [State.movePending]
  split
  · exact s.modKey_ends P i fun _ => rfl
  · exact ⟨rfl, fun _ => rfl, fun _ _ => rfl, fun _ => rfl, fun _ => rfl, fun _ => rfl, rfl, rfl, rfl⟩
  · exact .refl P s

theorem State.passCommit_ends (j : Nat) (J : Job) : Ends P s (s.passCommit j J) := by
  unfold State.passCommit
  split
  · exact .refl P s
  split
  · exact .refl P s
  dsimp only
  split
  · exact s.movePending_ends P _ _ _
  · refine (s.movePending_ends P _ _ _).trans (Ends.each _ _ (fun t k _ => t.modJob_ends P (.inr fun W => ?_)) _)
    split <;> rfl

theorem State.treeEnds_ends (J : Job) : Ends P s (s.treeEnds J) := by
  unfold State.treeEnds
  split
  · exact .refl P s
  · exact s.modKey_ends P _ fun _ => rfl

theorem State.scrubCores_ends (J : Job) : Ends P s (s.scrubCores J) := by
  refine Ends.each _ _ (fun t c _ => ?_) s
  exact t.modCore_ends P c fun _ => rfl

theorem State.settleTile_ends (n : Nat) : Ends P s (s.settleTile n) := by
  refine s.modTile_ends P n fun T => ?_
  split
  next h =>
    have hp : T.posture.mode = .idle := by rcases h with h | h <;> simp [Tile.posture, h]
    rw [show T.posture = { T.posture with mode := .idle } by rw [← hp]]
    split <;> rfl
  · rfl

theorem State.endJob_ends {j : Nat} (hj : P j) (status result : Nat) (ret : Bytes) : Ends P s (s.endJob j status result ret) := by
  unfold State.endJob
  split
  · exact .refl P s
  next J _ =>
  split
  · exact .refl P s
  extract_lets t0 t1 t2 t3
  have h0 : Ends P s t0 := s.modJob_ends P (.inl hj)
  have h1 : Ends P t0 t1 := by
    unfold t1
    split
    · exact .refl P t0
    · exact (t0.zeroFill_ends P _ _ _).trans (State.modJob_ends P _ (.inl hj))
  have h2 : Ends P t1 t2 := (t1.freeSlots_ends P j).trans ((State.passCommit_ends P _ j J).trans
    ((State.scrubCores_ends P _ J).trans (State.treeEnds_ends P _ J)))
  have h3 : Ends P t2 t3 := by
    unfold t3
    split
    · exact .refl P t2
    · split
      · exact .refl P t2
      · exact .of_reports (State.logUnreserve_reports _ _ _)
  exact h0.trans (h1.trans (h2.trans (h3.trans (Ends.each _ _ (fun t n _ => t.settleTile_ends P n) t3))))

theorem State.abandonChain_ends {j : Nat} (hj : P j) : Ends P s (s.abandonChain j) := by
  unfold State.abandonChain
  split
  · split
    · split
      · exact (s.endJob_ends P hj _ _ _).trans (State.modQueue_ends P _ _ fun _ => rfl)
      · exact .refl P s
    · exact .refl P s
  · exact .refl P s

theorem State.stopJob_ends {j : Nat} (hj : P j) (req : Request) : Ends P s (s.stopJob j req) := by
  unfold State.stopJob
  split
  · exact .refl P s
  · split_ifs
    · exact .refl P s
    · exact s.abandonChain_ends P hj
    · exact s.modJob_ends P (.inl hj)
    · exact s.endJob_ends P hj _ _ _

end

/-! ### The stop of a tile -/

theorem Ends.mode_fenced {P : Nat → Prop} {s t : State} (h : Ends P s t) (n : Nat) :
    (t.tile n).mode = .fenced ↔ (s.tile n).mode = .fenced := by
  have hmode (T : Tile) : T.mode = .fenced ↔ T.posture.mode = .fenced := by
    unfold Tile.posture
    dsimp only
    split
    next hb => simp [hb]
    · rfl
  rw [hmode (t.tile n), hmode (s.tile n), h.tile n]

theorem State.stopTile_ends (s : State) (n : Nat) (req : Request) : Ends (fun _ => True) s (s.stopTile n req) :=
  Ends.each _ _ (fun t _ _ => t.stopJob_ends _ trivial req) s

/-- A fence of a tile that is not fenced leaves it fenced for its reason, its save slots scrubbed. -/
theorem State.fenceTile_spec {s : State} {n : Nat} (h : (s.tile n).mode ≠ .fenced) (reason : Nat) :
    ((s.fenceTile n reason).tile n).mode = .fenced ∧ ((s.fenceTile n reason).tile n).fence = reason ∧
      ((s.fenceTile n reason).tile n).slots = [] := by
  have hmode : ((s.stopTile n .fence).tile n).mode ≠ .fenced := mt ((s.stopTile_ends n .fence).mode_fenced n).1 h
  unfold State.fenceTile
  rw [State.modTile_tile_same]
  exact ⟨rfl, if_neg fun h => hmode h.1, rfl⟩

end Sys2Proof.Machine
end

section
/-! PROOF. The collector's commands: events and their thresholds, acknowledgements, escalation, releases and injection
(chapter 18, R414-R421, R430-R433). -/

namespace Sys2Proof.Machine

/-! ### Reactions -/

theorem State.modReact_react {s : State} {id : Nat} {r : Reaction} (h : s.react? id = some r) {f : Reaction → Reaction}
    (hf : (f r).id = r.id) : (s.modReact id f).react? id = some (f r) := by
  have hid : r.id = id := by
    unfold State.react? at h
    obtain ⟨r', -, h⟩ := Option.bind_eq_some_iff.1 h
    split at h
    next hid => cases h; exact hid
    · cases h
  unfold State.modReact
  rw [h]
  simp [State.react?, hf, hid]

theorem State.newReact_react (s : State) (src cls state : Nat) (inj : Bool) : (s.newReact src cls state inj).react? s.faults.nextId =
    some { id := s.faults.nextId, source := src, cls := cls, state := state, inj := inj, start := s.binTime, began := s.time.elapsed } := by
  simp [State.react?, State.newReact]

theorem State.react?_congr {s t : State} (h : t.faults.reacts = s.faults.reacts) (id : Nat) : t.react? id = s.react? id := by
  simp only [State.react?, h]

/-! ### A record from a tile -/

section
variable {s : State} {n now : Nat} (hn : n < tilesOf s.variant)
include hn

theorem tile_lt_96 : n < 96 := by
  cases hv : s.variant <;> simp only [hv, tilesOf] at hn <;> omega

theorem State.hasSource_tile : s.hasSource n = true := by
  have h96 := tile_lt_96 hn
  simp [State.hasSource, srcListed, h96, hn]

theorem hasA_tile : hasA n = true := by
  have h96 := tile_lt_96 hn
  simp [hasA, h96]

/-- An event of a tile that nothing but the collector acts on. -/
theorem State.eventSide_tile {sub : Nat} (h1A : sub ≠ 0x1A) (h26 : sub ≠ 0x26) : s.eventSide n sub none = s := by
  have h96 := tile_lt_96 hn
  simp only [State.eventSide]
  rw [if_neg (by omega), if_neg (by omega), if_neg (by omega), if_neg (by omega), if_neg h26]

/-- What a record of its own cycle leaves in its source for one that may follow in the same cycle. -/
def State.marked (s t : State) (c n : Nat) : State :=
  t.modSrc n fun x => { x with cycle := some c, injCyc := false, count0 := (s.src n).count, start0 := (s.src n).start }

/-- The first record of a tile in a collector cycle is handled at once. -/
theorem exec_faultEvent_tile {sub : Nat} (hcycle : (s.src n).cycle ≠ some (collectorCycle (s.time.to now).elapsed)) (h1A : sub ≠ 0x1A)
    (h26 : sub ≠ 0x26) (hd : (dispOf (s.at_ now) n sub none).isSome) : exec (.faultEvent n sub 0 none now) s =
      done s ((s.at_ now).marked ((s.at_ now).handle n sub 0 true false false none) (collectorCycle (s.time.to now).elapsed) n) := by
  have hx : exec (.faultEvent n sub 0 none now) s = execFaultEvent n sub 0 none now s := rfl
  have hlisted : srcListed n = true := by simp [srcListed, tile_lt_96 hn]
  rw [hx, execFaultEvent, hlisted]
  rw [if_pos ⟨State.hasSource_tile (s := s.at_ now) hn, hd⟩, State.eventSide_tile (s := s.at_ now) hn h1A h26]
  unfold State.collect
  dsimp only
  rw [if_pos (.inl hcycle)]
  rfl

end

theorem State.marked_src (s t : State) (c n m : Nat) : (s.marked t c n).src m = if m = n then
    { t.src n with cycle := some c, injCyc := false, count0 := (s.src n).count, start0 := (s.src n).start } else t.src m :=
  t.modSrc_src n m _

/-- A record that no reset-only cause goes with writes the sources alone. -/
theorem State.noted_eq {src sub : Nat} (hr : resetOnlyCause src sub = false) (s : State) (aux : Nat) (real inj dry : Bool)
    (job : Option Nat) : s.noted src sub aux real inj dry job = { s with
      faults := { s.faults with sources := (s.noted src sub aux real inj dry job).faults.sources } } := by
  conv_lhs => rw [State.noted_eq_or, hr, Bool.and_false, Bool.or_false]

/-! ### The window of a source (R417) -/

section
variable {s : State} {src sub aux : Nat} {inj : Bool}

/-- The source's window is open. -/
def State.opened (s : State) (src : Nat) : Prop := (s.src src).count ≠ 0 ∧ s.us - (s.src src).start < (s.src src).w * 1000

theorem State.countStep_opened (h : s.opened src) : s.countStep src sub aux inj =
    if (s.src src).n ≤ (s.src src).count + 1 then
      let t := s.modSrc src fun S => { S with count := 0, start := (s.src src).start }
      if (s.src src).action = 0 then t else if (s.src src).action = 1 then t.reactA src sub aux inj else t.reactB src sub inj
    else s.modSrc src fun S => { S with count := (s.src src).count + 1, start := (s.src src).start } := by
  obtain ⟨hcount, hw⟩ := h
  have hfresh : ((s.src src).count == 0 || decide ((s.src src).w * 1000 ≤ s.us - (s.src src).start)) = false := by
    simpa [hcount] using hw
  unfold State.countStep
  simp only [hfresh, Bool.false_eq_true, if_false]

theorem State.countStep_fresh (h : ¬ s.opened src) (hn : 1 < (s.src src).n) :
    s.countStep src sub aux inj = s.modSrc src fun S => { S with count := 1, start := s.us } := by
  have hfresh : ((s.src src).count == 0 || decide ((s.src src).w * 1000 ≤ s.us - (s.src src).start)) = true := by
    simpa [State.opened, or_iff_not_imp_left] using h
  unfold State.countStep
  simp only [hfresh, if_true]
  rw [if_neg (by omega)]

end

/-- A class A reaction of a tile that no fence holds fences it and takes the next ID (R419). -/
theorem State.reactA_tile {s : State} {n : Nat} (hn : n < tilesOf s.variant) (hfenced : (s.src n).fenced = false)
    (hmode : (s.tile n).mode ≠ .fenced) {sub reason : Nat}
    (hr : (if 0x11 ≤ sub ∧ sub ≤ 0x18 ∧ sub ≠ 0x13 then 1 else 3) = reason) (aux : Nat) :
    let t := s.reactA n sub aux false
    t.src n = { s.src n with attn := true, fenced := true, rid := s.faults.nextId } ∧
      t.faults.nextId = s.faults.nextId + 1 ∧ t.faults.safe = s.faults.safe ∧ (t.tile n).mode = .fenced ∧
      (t.tile n).fence = reason ∧ (t.tile n).slots = [] ∧
      ∃ r, t.react? s.faults.nextId = some r ∧ r.source = n ∧ r.cls = 1 ∧ r.state = 1 := by
  have h96 := tile_lt_96 hn
  let u := (s.newReact n 1 1 false).modSrc n fun S => { S with attn := true, fenced := true, rid := s.faults.nextId }
  have ht : s.reactA n sub aux false = u.fenceTile n reason := by
    have hfew : (decide (128 ≤ n) && decide (n ≤ 135) && !s.moduleOn (n - 128) &&
        decide ((s.firmwareCores.filter (· != n - 128)).length < 4)) = false := by
      simp [show ¬ 128 ≤ n by omega]
    have hmark : eachOf (u.jobsOnUnit n) (fun w j => w.markInj j false) u = u := eachOf_keeps id _ _ (fun _ _ => rfl) u
    unfold State.reactA
    dsimp only
    rw [hasA_tile hn, hfew, if_neg (by simp), if_neg (by omega), if_neg (by simp [hfenced]), hmark]
    unfold State.fenceUnit
    rw [if_pos h96, hr]
  have hsteady : (u.fenceTile n reason).faults = u.faults :=
    (congrArg State.faults (u.fenceTile_steady n reason) :)
  have hsrc : u.src n = { s.src n with attn := true, fenced := true, rid := s.faults.nextId } := by
    rw [State.modSrc_src, if_pos rfl]
    rfl
  obtain ⟨hm, hf, hslots⟩ := State.fenceTile_spec (s := u) (n := n) hmode reason
  intro t
  have hfaults : t.faults = u.faults := by rw [← hsteady, ← ht]
  refine ⟨?_, by rw [hfaults]; rfl, by rw [hfaults]; rfl, by rw [← hm, ← ht], by rw [← hf, ← ht], by rw [← hslots, ← ht],
    ⟨_, (State.react?_congr (congrArg Faults.reacts hfaults) _).trans (s.newReact_react n 1 1 false), rfl, rfl, rfl⟩⟩
  rw [← hsrc]
  simp only [State.src, hfaults]

/-! ### Counted and immediate records of a tile (R417, R419) -/

/-- A record of a tile at `now`, before its reaction. -/
abbrev State.notedAt (s : State) (now n sub : Nat) : State := (s.at_ now).noted n sub 0 true false false none

section
variable {s : State} {n now : Nat} (hn : n < tilesOf s.variant)
include hn

/-- What a counted record of a tile leaves once it has been counted. -/
theorem exec_faultEvent_counted (hclear : Clear s now n 1) : exec (.faultEvent n 1 0 none now) s =
    done s ((s.at_ now).marked ((s.notedAt now n 1).countStep n 1 0 false) (collectorCycle (s.time.to now).elapsed) n) := by
  obtain ⟨hcycle, hwin⟩ := hclear
  rw [exec_faultEvent_tile hn hcycle (by decide) (by decide) rfl, State.handle_of_counted (by rfl) hwin rfl]

theorem exec_faultEvent_immediate (hclear : Clear s now n 0x14) : exec (.faultEvent n 0x14 0 none now) s =
    done s ((s.at_ now).marked ((s.notedAt now n 0x14).reactA n 0x14 0 false) (collectorCycle (s.time.to now).elapsed) n) := by
  obtain ⟨hcycle, hwin⟩ := hclear
  have hd : dispOf (s.at_ now) n 0x14 none = some .a := if_pos (tile_lt_96 hn)
  rw [exec_faultEvent_tile hn hcycle (by decide) (by decide) (by rw [hd]; rfl), State.handle_of_a (by rfl) hwin hd]

omit hn in
theorem State.notedAt_src_same (sub : Nat) : (s.notedAt now n sub).src n = { s.src n with
    total := satAdd 32 (s.src n).total 1, lastAt := (s.at_ now).binTime, lastSub := sub, real := true, inj := false,
    conseq := ((s.at_ now).windowOf n sub 0).isSome, dry := false, aux := 0,
    rid := ((s.notedAt now n sub).src n).rid, cycle := none, present := (s.src n).present || levelCause n sub,
    attn := (s.src n).attn || (sub == 0x02) } := by
  have hsrc := State.noted_src (s.at_ now) n sub 0 true false false none n
  rw [State.modSrc_src, if_pos rfl] at hsrc
  rw [State.notedAt, hsrc]
  simp [State.src]

/-- A counted record that starts no reaction changes time and the collector alone. -/
theorem completes_counted (hclear : Clear s now n 1) {c start : Nat} (hstep : (s.notedAt now n 1).countStep n 1 0 false =
    (s.notedAt now n 1).modSrc n fun S => { S with count := c, start := start }) :
    Completes (.faultEvent n 1 0 none now) s fun t => t = { s with time := s.time.to now, faults := t.faults } ∧
      (t.src n).count = c ∧ (t.src n).start = start ∧ (t.src n).total = satAdd 32 (s.src n).total 1 ∧
      t.faults.nextId = s.faults.nextId ∧ t.faults.safe = s.faults.safe ∧ ∀ m, m ≠ n → t.src m = s.src m := by
  refine ⟨_, exec_faultEvent_counted hn hclear, ?_⟩
  rw [hstep]
  have heq := State.noted_eq (src := n) (sub := 1) rfl (s.at_ now) 0 true false false none
  have hsrc := State.notedAt_src_same (s := s) (now := now) (n := n) 1
  have hother : ∀ m, m ≠ n → (s.notedAt now n 1).src m = s.src m := fun m hm => by
    rw [State.notedAt, State.noted_src, State.modSrc_src, if_neg hm]
    rfl
  unfold State.notedAt at hsrc hother ⊢
  generalize (s.at_ now).noted n 1 0 true false false none = v at heq hsrc hother ⊢
  refine ⟨by rw [heq]; rfl, ?_, ?_, ?_, by rw [heq]; rfl, by rw [heq]; rfl, fun m hm => ?_⟩
  · exact (congrArg Source.count ((State.marked_src _ _ _ n n).trans (if_pos rfl)) :).trans (by rw [State.modSrc_src_same])
  · exact (congrArg Source.start ((State.marked_src _ _ _ n n).trans (if_pos rfl)) :).trans (by rw [State.modSrc_src_same])
  · refine (congrArg Source.total ((State.marked_src _ _ _ n n).trans (if_pos rfl)) :).trans ?_
    rw [State.modSrc_src_same, hsrc]
  · exact ((State.marked_src _ _ _ n m).trans (if_neg hm)).trans ((State.modSrc_src _ n m _).trans ((if_neg hm).trans (hother m hm)))

/-- What the record of a tile whose reaction fences it leaves. -/
theorem completes_reactA {v : State} {sub reason : Nat} (hv : v = { s.at_ now with faults := { s.faults with sources := v.faults.sources } })
    (hfenced : (v.src n).fenced = false) (hmode : (s.tile n).mode ≠ .fenced)
    (hr : (if 0x11 ≤ sub ∧ sub ≤ 0x18 ∧ sub ≠ 0x13 then 1 else 3) = reason)
    (hx : exec (.faultEvent n sub 0 none now) s =
      done s ((s.at_ now).marked (v.reactA n sub 0 false) (collectorCycle (s.time.to now).elapsed) n)) :
    Completes (.faultEvent n sub 0 none now) s fun t =>
      ((t.src n).fenced = true ∧ (t.src n).attn = true ∧ (t.src n).count = (v.src n).count ∧ (t.src n).rid = s.faults.nextId) ∧
      t.faults.nextId = s.faults.nextId + 1 ∧ t.faults.safe = s.faults.safe ∧ (t.tile n).mode = .fenced ∧
      (t.tile n).fence = reason ∧ (t.tile n).slots = [] ∧
      ∃ r, t.react? s.faults.nextId = some r ∧ r.source = n ∧ r.cls = 1 ∧ r.state = 1 := by
  have hvn : n < tilesOf v.variant := by rw [hv]; exact hn
  have hvmode : (v.tile n).mode ≠ .fenced := by rw [hv]; exact hmode
  have hid : v.faults.nextId = s.faults.nextId := by rw [hv]
  have hsafe : v.faults.safe = s.faults.safe := by rw [hv]
  obtain ⟨hsrc, hnext, hsafe', hm, hf, hslots, r, hreact, hr1⟩ := v.reactA_tile hvn hfenced hvmode hr 0
  rw [hid] at hnext hreact hsrc
  have hmark := (State.marked_src (s.at_ now) (v.reactA n sub 0 false) (collectorCycle (s.time.to now).elapsed) n n).trans (if_pos rfl)
  rw [hsrc] at hmark
  refine ⟨_, hx, ⟨(congrArg Source.fenced hmark :), (congrArg Source.attn hmark :), (congrArg Source.count hmark :),
    (congrArg Source.rid hmark :)⟩, hnext, hsafe'.trans hsafe, hm, hf, hslots, r, ?_, hr1⟩
  exact (State.react?_congr rfl _).trans hreact

/-- At its threshold a tile's count is cleared and its class A reaction begins (R417). -/
theorem completes_threshold (hclear : Clear s now n 1) (hopened : (s.at_ now).opened n) (hcount : (s.src n).n ≤ (s.src n).count + 1)
    (haction : (s.src n).action = 1) (hfenced : (s.src n).fenced = false) (hmode : (s.tile n).mode ≠ .fenced) :
    Completes (.faultEvent n 1 0 none now) s fun t =>
      (t.src n).count = 0 ∧ (t.src n).fenced = true ∧ (t.src n).attn = true ∧ t.faults.nextId = s.faults.nextId + 1 ∧
      (t.tile n).mode = .fenced ∧ (t.tile n).fence = 3 ∧ t.faults.safe.on = s.faults.safe.on ∧
      ∃ r, t.react? s.faults.nextId = some r ∧ r.source = n ∧ r.cls = 1 ∧ r.state = 1 := by
  have hx := exec_faultEvent_counted hn hclear
  have heq := State.noted_eq (src := n) (sub := 1) rfl (s.at_ now) 0 true false false none
  have hsrc := State.notedAt_src_same (s := s) (now := now) (n := n) 1
  unfold State.notedAt at hx hsrc
  generalize (s.at_ now).noted n 1 0 true false false none = v at heq hsrc hx
  have hvopened : v.opened n := by
    have hus : v.us = (s.at_ now).us := by rw [heq]; rfl
    unfold State.opened
    rw [hsrc, hus]
    exact hopened
  rw [State.countStep_opened hvopened, if_pos (by rw [hsrc]; exact hcount)] at hx
  dsimp only at hx
  rw [if_neg (by rw [hsrc]; simp [haction]), if_pos (by rw [hsrc]; exact haction)] at hx
  obtain ⟨t, ht, ⟨h1, h2, h3, -⟩, hid, hsafe, hm, hf, -, hreact⟩ := completes_reactA hn (sub := 1) (reason := 3)
    (v := v.modSrc n fun S => { S with count := 0, start := (v.src n).start }) (by rw [heq]; rfl)
    (by rw [State.modSrc_src_same, hsrc]; exact hfenced) hmode rfl hx
  rw [State.modSrc_src_same] at h3
  exact ⟨t, ht, h3, h1, h2, hid, hm, hf, by rw [hsafe], hreact⟩

/-- An immediate class A cause of a tile that no fence holds. -/
theorem completes_immediate (hclear : Clear s now n 0x14) (hfenced : (s.src n).fenced = false) (hmode : (s.tile n).mode ≠ .fenced) :
    Completes (.faultEvent n 0x14 0 none now) s fun t =>
      (t.src n).fenced = true ∧ (t.src n).attn = true ∧ (t.src n).rid = s.faults.nextId ∧
      (t.tile n).mode = .fenced ∧ (t.tile n).fence = 1 ∧ (t.tile n).slots = [] ∧
      ∃ r, t.react? s.faults.nextId = some r ∧ r.source = n ∧ r.cls = 1 ∧ r.state = 1 := by
  have hx := exec_faultEvent_immediate hn hclear
  have heq := State.noted_eq (src := n) (sub := 0x14) rfl (s.at_ now) 0 true false false none
  have hsrc := State.notedAt_src_same (s := s) (now := now) (n := n) 0x14
  unfold State.notedAt at hx hsrc
  generalize (s.at_ now).noted n 0x14 0 true false false none = v at heq hsrc hx
  obtain ⟨t, ht, ⟨h1, h2, -, h4⟩, -, -, hm, hf, hslots, hreact⟩ := completes_reactA hn (sub := 0x14) (reason := 1) heq
    (by rw [hsrc]; exact hfenced) hmode rfl hx
  exact ⟨t, ht, h1, h2, h4, hm, hf, hslots, hreact⟩

/-- A further immediate cause on a fenced tile starts nothing. -/
theorem completes_immediate_of_fenced (hclear : Clear s now n 0x14) (hfenced : (s.src n).fenced = true) :
    Completes (.faultEvent n 0x14 0 none now) s fun t =>
      t = { s with time := s.time.to now, faults := t.faults } ∧ t.faults.nextId = s.faults.nextId ∧
      t.faults.reacts = s.faults.reacts ∧ (t.src n).total = satAdd 32 (s.src n).total 1 := by
  have hx := exec_faultEvent_immediate hn hclear
  have heq := State.noted_eq (src := n) (sub := 0x14) rfl (s.at_ now) 0 true false false none
  have hsrc := State.notedAt_src_same (s := s) (now := now) (n := n) 0x14
  unfold State.notedAt at hx hsrc
  generalize (s.at_ now).noted n 0x14 0 true false false none = v at heq hsrc hx
  have h96 := tile_lt_96 hn
  have hstays : v.reactA n 0x14 0 false = v := by
    have hfew : (decide (128 ≤ n) && decide (n ≤ 135) && !v.moduleOn (n - 128) &&
        decide ((v.firmwareCores.filter (· != n - 128)).length < 4)) = false := by
      simp [show ¬ 128 ≤ n by omega]
    unfold State.reactA
    dsimp only
    rw [hasA_tile hn, hfew, if_neg (by simp), if_neg (by omega), if_pos (by rw [hsrc]; exact hfenced)]
  rw [hstays] at hx
  refine ⟨_, hx, by rw [heq]; rfl, by rw [heq]; rfl, by rw [heq]; rfl, ?_⟩
  refine (congrArg Source.total ((State.marked_src _ _ _ n n).trans (if_pos rfl)) :).trans ?_
  rw [hsrc]

end

/-! ### Acknowledgement, escalation and the window's close (R419, R421) -/

theorem State.modReact_eq (s : State) (id : Nat) (f : Reaction → Reaction) :
    s.modReact id f = { s with faults := { s.faults with reacts := (s.modReact id f).faults.reacts } } := by
  unfold State.modReact
  split <;> rfl

section
variable {s : State} {n now id : Nat} {r : Reaction} (hreact : s.react? id = some r)
include hreact

theorem State.react_id : r.id = id := by
  unfold State.react? at hreact
  obtain ⟨r', -, h⟩ := Option.bind_eq_some_iff.1 hreact
  split at h
  next hid => cases h; exact hid
  · cases h

theorem completes_fenceAck (hn : n < tilesOf s.variant) (hwait : s.waiting n = some id) :
    Completes (.fenceAck n now) s fun t => t = { s with time := s.time.to now, faults := t.faults } ∧
      t.react? id = some { r with state := 2, ack := some ((s.time.to now).elapsed - r.began) } := by
  have hx : exec (.fenceAck n now) s = execFenceAck n now s := rfl
  have hlisted : srcListed n = true := by simp [srcListed, tile_lt_96 hn]
  rw [execFenceAck, hlisted, show (s.at_ now).waiting n = some id from hwait] at hx
  have hmod := State.modReact_react (s := s.at_ now) (id := id) hreact
    (f := fun r => { r with state := 2, ack := some ((s.time.to now).elapsed - r.began) }) rfl
  refine ⟨_, hx, ?_, hmod⟩
  dsimp only
  rw [State.modReact_eq]
  rfl

theorem State.escalate_spec :
    let t := s.escalate n id r
    t.faults.safe.on = true ∧ t.react? id = some { r with state := 4, cls := 2 } ∧ t.faults.nextId = s.faults.nextId ∧
      (t.src n).lastSub = 0x04 ∧ (t.src n).rid = id ∧
      (s.faults.safe.on = false → t.pins.permit = 0 ∧ t.faults.safe.reaction = id) := by
  let f : Source → Source := fun S => { S with
    total := satAdd 32 S.total 1, lastAt := s.binTime, lastSub := 0x04, real := true, inj := r.inj, conseq := true,
    dry := false, rid := id, attn := true }
  let u := (s.modSrc n f).modReact id fun r => { r with state := 4, cls := 2 }
  have hureact : u.react? id = some { r with state := 4, cls := 2 } := State.modReact_react (s := s.modSrc n f) hreact rfl
  have hufaults : u.faults = { s.faults with sources := u.faults.sources, reacts := u.faults.reacts } := by
    unfold u
    rw [State.modReact_eq]
    rfl
  have husrc : u.src n = f (s.src n) := by
    unfold u
    rw [State.modReact_eq]
    exact s.modSrc_src_same n f
  -- what follows touches the safe state alone of the collector
  have hkey (t : State) (S : Safe) (ht : t.faults = { u.faults with safe := S }) :
      t.react? id = some { r with state := 4, cls := 2 } ∧ t.faults.nextId = s.faults.nextId ∧ (t.src n).lastSub = 0x04 ∧
        (t.src n).rid = id := by
    have hsrc : t.src n = f (s.src n) := by
      rw [← husrc]
      simp only [State.src, ht]
    refine ⟨(State.react?_congr (by rw [ht]) id).trans hureact, by rw [ht, hufaults], by rw [hsrc], by rw [hsrc]⟩
  intro t
  cases hs : s.faults.safe.on with
  | true =>
    have ht : t = { u with faults := { u.faults with safe := { u.faults.safe with multi := true } } }.logEvent 5 0x0050
        (le 1 0x04 ++ le 2 n ++ le 4 id) := if_pos hs
    have hf : t.faults = { u.faults with safe := { u.faults.safe with multi := true } } := by
      rw [ht]
      exact (congrArg State.faults (State.logEvent_steady _ _ _ _) :)
    obtain ⟨h1, h2, h3, h4⟩ := hkey t _ hf
    exact ⟨by rw [hf, hufaults]; exact hs, h1, h2, h3, h4, nofun⟩
  | false =>
    have ht : t = u.enterSafe n 0x04 id r.inj := if_neg (by simp [hs])
    obtain ⟨g, hg⟩ := u.enterSafe_faults n 0x04 id r.inj
    rw [← ht] at hg
    obtain ⟨h1, h2, h3, h4⟩ := hkey t _ hg
    refine ⟨by rw [hg], h1, h2, h3, h4, fun _ => ⟨?_, by rw [hg]⟩⟩
    rw [ht, State.enterSafe_pins]

theorem completes_fenceAckTimeout (hn : n < tilesOf s.variant) (hwait : s.waiting n = some id) :
    (r.began + 10000 ≤ (s.time.to now).elapsed → Completes (.fenceAckTimeout n now) s fun t =>
      t.faults.safe.on = true ∧ t.react? id = some { r with state := 4, cls := 2 } ∧
      t.faults.nextId = s.faults.nextId ∧ (t.src n).lastSub = 0x04 ∧ (t.src n).rid = id ∧
      (s.faults.safe.on = false → t.pins.permit = 0 ∧ t.faults.safe.reaction = id)) ∧
    ((s.time.to now).elapsed < r.began + 10000 → exec (.fenceAckTimeout n now) s = .next (s.at_ now)) := by
  have hx : exec (.fenceAckTimeout n now) s = execFenceAckTimeout n now s := rfl
  have hlisted : srcListed n = true := by simp [srcListed, tile_lt_96 hn]
  have hbind : ((s.at_ now).waiting n).bind (s.at_ now).react? = some r := by
    rw [show (s.at_ now).waiting n = some id from hwait]
    exact hreact
  rw [execFenceAckTimeout, hlisted] at hx
  rw [hbind] at hx
  dsimp only at hx
  rw [State.react_id hreact] at hx
  constructor
  · intro hlate
    rw [if_pos (show r.began + 10000 ≤ (s.at_ now).time.elapsed from hlate)] at hx
    exact ⟨_, hx, State.escalate_spec (s := s.at_ now) hreact⟩
  · intro hearly
    rw [if_neg (show ¬ r.began + 10000 ≤ (s.at_ now).time.elapsed from Nat.not_le.2 hearly)] at hx
    exact hx

theorem completes_conseqWindowClose {b : Nat} (hback : r.back = some b) (hend : r.endAt = 0)
    (hlate : b + 50000 ≤ (s.time.to now).elapsed) : Completes (.conseqWindowClose id now) s fun t =>
      t = { s with time := s.time.to now, faults := t.faults } ∧
        t.react? id = some { r with endAt := (s.at_ now).binTime } ∧ t.faults.sources = s.faults.sources := by
  have hx : exec (.conseqWindowClose id now) s = execConseqWindowClose id now s := rfl
  have hbind : ((s.at_ now).react? id).bind (·.back) = some b := by
    rw [show (s.at_ now).react? id = some r from hreact]
    exact hback
  rw [execConseqWindowClose] at hx
  rw [hbind] at hx
  dsimp only at hx
  rw [if_pos (show b + 50000 ≤ (s.at_ now).time.elapsed from hlate)] at hx
  have hmod := State.modReact_react (s := s.at_ now) (id := id) hreact
    (f := fun r => if r.endAt = 0 then { r with endAt := (s.at_ now).binTime } else r) (by split <;> rfl)
  rw [if_pos hend] at hmod
  refine ⟨_, hx, ?_, hmod, ?_⟩ <;> rw [State.modReact_eq] <;> rfl

end

/-- Settles O19: a record is handled with the class A reaction of its tile (`State.reactA_tile`), and a reaction's
acknowledgement, escalation and close change its own entry. -/
theorem classAReactionFencesAndEscalates : Obligations.ClassAReactionFencesAndEscalates := by
  unfold Obligations.ClassAReactionFencesAndEscalates
  intro s n now hn
  exact ⟨fun hclear => ⟨completes_immediate hn hclear, completes_immediate_of_fenced hn hclear⟩,
    fun id r hwait hreact => ⟨completes_fenceAck hreact hn hwait, completes_fenceAckTimeout hreact hn hwait⟩,
    fun id r b hreact => completes_conseqWindowClose hreact⟩

end Sys2Proof.Machine
end


section
/-! PROOF. What the manager does with a source, a core and the logbook (18_faults_safety.md R415, R417, R420, R430-R432;
15_logbook_attestation.md R357, R360, R361). -/

namespace Sys2Proof.Machine

/-! ### A unit leaves its fence (R415, R420) -/

theorem State.leaveFence_src (s : State) (n m : Nat) :
    (s.leaveFence n).src m = if m = n then { s.src n with fenced := false } else s.src m := by
  unfold State.leaveFence
  split
  · exact s.modSrc_src n m fun S => { S with fenced := false }
  next h =>
    split
    next hm =>
      subst hm
      rw [← Bool.eq_false_of_not_eq_true h]
    · rfl

theorem State.leaveFence_eq (s : State) (n : Nat) : s.leaveFence n = { s with faults := { s.faults with
    sources := (s.leaveFence n).faults.sources, reacts := (s.leaveFence n).faults.reacts } } := by
  unfold State.leaveFence
  split <;> rfl

section
variable {s : State} {p : Nat} (hp : p < 4)
include hp

theorem BitVec.toNat_ofNat_portSource : (BitVec.ofNat 32 (224 + 8 * p)).toNat % 512 = 224 + 8 * p := by
  rw [BitVec.toNat_ofNat]
  omega

/-- A release of a field port's last fence lets its egress go on. -/
theorem State.fltRelease_port (hfenced : (s.src (224 + 8 * p)).fenced = true) (h1 : (s.src (224 + 8 * p + 1)).fenced = false)
    (h2 : (s.src (224 + 8 * p + 2)).fenced = false) : s.fltRelease (BitVec.ofNat 32 (224 + 8 * p)) =
      (s.leaveFence (224 + 8 * p)).modPort p fun P => { P with stopped := false } := by
  have hnone : ((List.range 3).any fun j => ((s.leaveFence (224 + 8 * p)).src (224 + 8 * p + j)).fenced) = false := by
    simp [List.range_succ, State.leaveFence_src, h1, h2]
  unfold State.fltRelease
  rw [BitVec.toNat_ofNat_portSource hp]
  dsimp only
  rw [if_neg (by simp [hfenced]), if_neg (by omega), if_pos (by omega), show (224 + 8 * p - 224) / 8 = p by omega]
  exact if_neg (by simp [hnone])

end

/-! ### Injection (R431, R432) -/

/-- The word of FLT.FORCE with FORCE set (R431). -/
abbrev fltForceWord (wet : Bool) (sub : Nat) : BitVec 32 := BitVec.ofNat 32 (1 + 2 * wet.toNat + 256 * sub)

theorem fltForceWord_fields (wet : Bool) {sub : Nat} (hsub : sub < 256) : bitOf (fltForceWord wet sub).toNat 0 = true ∧
    bitOf (fltForceWord wet sub).toNat 1 = wet ∧ bitsOf (fltForceWord wet sub).toNat 15 8 = sub := by
  have hword : (fltForceWord wet sub).toNat = 1 + 2 * wet.toNat + 256 * sub := by
    rw [BitVec.toNat_ofNat]
    have := wet.toNat_le
    omega
  simp only [hword, bitOf, bitsOf, Nat.shiftRight_eq_div_pow]
  refine ⟨by simp only [beq_iff_eq]; omega, ?_, by have := wet.toNat_le; omega⟩
  cases wet <;> simp <;> omega

theorem State.fltForce_denied {s : State} {src : Nat} {wet : Bool} {sub : Nat} (hsub : sub < 256) (hdeny : s.injectOk src wet = false) :
    s.fltForce src (fltForceWord wet sub) = { s with faults := { s.faults with forceDen := true } } := by
  obtain ⟨hforce, hwet, -⟩ := fltForceWord_fields wet hsub
  unfold State.fltForce
  dsimp only
  rw [hforce, hwet, if_neg (by simp), if_pos (by simp [hdeny])]

/-- A dry injection in a collector cycle of its own is recorded and starts nothing. -/
theorem State.fltForce_dry {s : State} {src sub : Nat} (hsub : sub < 256) (hd : (dispOf s src sub none).isSome)
    (hok : s.injectOk src false = true) (hcycle : (s.src src).cycle ≠ some (collectorCycle s.time.elapsed + 1)) :
    let u := (s.setReg (0x6000C + 0x20 * src) (256 * sub)).noted src sub 0 false true true none
    s.fltForce src (fltForceWord false sub) = u.modSrc src fun x => { x with
      cycle := some (collectorCycle s.time.elapsed + 1), injCyc := true, count0 := (s.src src).count, start0 := (s.src src).start } := by
  obtain ⟨hforce, hwet, hbits⟩ := fltForceWord_fields false hsub
  intro u
  unfold State.fltForce
  dsimp only
  rw [hforce, hwet, hbits, if_neg (by simp), if_neg (by simp [hok]), if_neg (by simpa using Option.ne_none_iff_isSome.2 hd)]
  unfold State.collect
  dsimp only
  rw [State.handle_of_no_act (by rfl)]
  rw [if_pos (.inl hcycle)]
  simp [u, b2n, State.src, State.setReg]

/-! ### The manager's commands on a source (R17, R415, R420, R430) -/

/-- A write of the manager to a source that the variant has, in operation. -/
theorem within_managed_on {s t : State} {src : Nat} (hsrc : src < 512) (hhas : s.hasSource src = true) (hbar : s.barOn 0 = true) :
    within (decide (src < 512)) s (if s.hasSource src then managed s t else s) = done s t := by
  rw [if_pos hhas, managed_on hbar, within, if_pos (decide_eq_true hsrc)]

section
variable {s : State} {src : Nat} (hsrc : src < 512) (hhas : s.hasSource src = true) (hbar : s.barOn 0 = true)
include hsrc hhas hbar

theorem exec_attnClear : exec (.attnClear src) s = .next (s.modSrc src fun S => { S with attn := S.attn && S.present }) :=
  (within_managed_on hsrc hhas hbar).trans (done_eq rfl)

theorem exec_fltForce (v : BitVec 32) : exec (.fltForce src v) s = done s (s.fltForce src v) :=
  within_managed_on hsrc hhas hbar

theorem exec_fltForce_denied {wet : Bool} {sub : Nat} (hsub : sub < 256) (hdeny : s.injectOk src wet = false) :
    exec (.fltForce src (fltForceWord wet sub)) s = .next { s with faults := { s.faults with forceDen := true } } := by
  rw [exec_fltForce hsrc hhas hbar, State.fltForce_denied hsub hdeny]
  rfl

/-- A dry injection is recorded as injected and dry, and counts nothing. -/
theorem completes_fltForce_dry {sub : Nat} (hsub : sub < 256) (hd : (dispOf s src sub none).isSome)
    (hok : s.injectOk src false = true) (hcycle : (s.src src).cycle ≠ some (collectorCycle s.time.elapsed + 1)) :
    Completes (.fltForce src (fltForceWord false sub)) s fun t =>
      (t.src src).total = satAdd 32 (s.src src).total 1 ∧ (t.src src).count = (s.src src).count ∧ (t.src src).dry = true ∧
      (t.src src).inj = true ∧ (t.src src).real = false ∧ (t.src src).lastSub = sub ∧
      t = { s with faults := t.faults, regs := t.regs } ∧ t.faults.nextId = s.faults.nextId ∧ t.faults.safe = s.faults.safe := by
  refine ⟨_, exec_fltForce hsrc hhas hbar _, ?_⟩
  rw [State.fltForce_dry hsub hd hok hcycle]
  let v := s.setReg (0x6000C + 0x20 * src) (256 * sub)
  have heq := v.noted_eq_or src sub 0 false true true none
  have hnoted := v.noted_src src sub 0 false true true none src
  rw [State.modSrc_src_same] at hnoted
  have hsrc := (v.noted src sub 0 false true true none).modSrc_src_same src fun x => { x with
    cycle := some (collectorCycle s.time.elapsed + 1), injCyc := true, count0 := (s.src src).count, start0 := (s.src src).start }
  rw [hnoted] at hsrc
  clear hnoted
  unfold v at heq hsrc
  generalize (s.setReg (0x6000C + 0x20 * src) (256 * sub)).noted src sub 0 false true true none = u at heq hsrc
  exact ⟨(congrArg Source.total hsrc :), (congrArg Source.count hsrc :), (congrArg Source.dry hsrc :), (congrArg Source.inj hsrc :),
    (congrArg Source.real hsrc :), (congrArg Source.lastSub hsrc :), by rw [heq]; rfl, by rw [heq]; rfl,
    by rw [heq]; exact congrArg (fun b => { s.faults.safe with resetOnly := b }) (Bool.or_false _)⟩

end

section
variable {s : State} {p : Nat} (hhas : s.hasSource (224 + 8 * p) = true) (hbar : s.barOn 0 = true)
include hbar

theorem exec_fltRelease (v : BitVec 32) : exec (.fltRelease v) s = done s (s.fltRelease v) := by
  change done s (managed s (s.fltRelease v)) = _
  rw [managed_on hbar]

theorem exec_fltRelease_unfenced {src : Nat} (hsrc : src < 512) (hfenced : (s.src src).fenced = false) :
    exec (.fltRelease (BitVec.ofNat 32 src)) s = .next s := by
  have hn : (BitVec.ofNat 32 src).toNat % 512 = src := by
    rw [BitVec.toNat_ofNat]
    omega
  rw [exec_fltRelease hbar, State.fltRelease, hn, if_pos (by simp [hfenced])]
  rfl

theorem completes_fltRelease_port (hp : p < 4) (hfenced : (s.src (224 + 8 * p)).fenced = true)
    (h1 : (s.src (224 + 8 * p + 1)).fenced = false) (h2 : (s.src (224 + 8 * p + 2)).fenced = false) :
    Completes (.fltRelease (BitVec.ofNat 32 (224 + 8 * p))) s fun t =>
      (t.src (224 + 8 * p)).fenced = false ∧ (t.port p).stopped = false ∧ t.faults.safe = s.faults.safe ∧
        t = { s with faults := t.faults, partners := t.partners } := by
  refine ⟨_, exec_fltRelease hbar _, ?_⟩
  rw [State.fltRelease_port hp hfenced h1 h2]
  have hsrc := s.leaveFence_src (224 + 8 * p) (224 + 8 * p)
  have heq := s.leaveFence_eq (224 + 8 * p)
  rw [if_pos rfl] at hsrc
  generalize s.leaveFence (224 + 8 * p) = u at hsrc heq
  exact ⟨(congrArg Source.fenced hsrc :), (congrArg Port.stopped (u.modPort_port_same p fun P => { P with stopped := false }) :), by rw [heq]; rfl, by rw [heq]; rfl⟩

end

/-! ### A Helm core returns (R415; 16, R387) -/

theorem completes_helmCoreRecovery {s : State} {c : Nat} (now : Nat) (hc : c < 8) (hfenced : (s.src (128 + c)).fenced = true)
    (hgated : s.pins.gated = false) (hsafe : s.faults.safe.on = false) : Completes (.helmCoreRecovery c true now) s fun t =>
      (t.core c).stopped = false ∧ (t.src (128 + c)).fenced = false ∧ (∀ k, tget t.service.locks k ≠ some c) ∧
        t = { s with time := s.time.to now, faults := t.faults, service := t.service } := by
  have hx : exec (.helmCoreRecovery c true now) s = execHelmCoreRecovery c true now s := rfl
  rw [execHelmCoreRecovery] at hx
  rw [if_pos ⟨hfenced, rfl, by simp [State.at_, hgated]⟩, within, if_pos (decide_eq_true hc)] at hx
  refine ⟨_, hx, ?_⟩
  have hsrc := (s.at_ now).leaveFence_src (128 + c) (128 + c)
  have heq := (s.at_ now).leaveFence_eq (128 + c)
  rw [if_pos rfl] at hsrc
  generalize (s.at_ now).leaveFence (128 + c) = u at hsrc heq
  refine ⟨?_, (congrArg Source.fenced hsrc :), fun k hk => ?_, by rw [heq]; rfl⟩
  · exact (congrArg Core.stopped (u.modCore_core_same c fun C => { C with stopped := s.faults.safe.on, bySafe := s.faults.safe.on }) :).trans hsafe
  · have hmem := mem_of_tget hk
    simp at hmem

/-! ### Before READY (R17, R458, R464) -/

/-- A write of the manager while PF0's BAR0 does not answer is discarded. -/
theorem done_managed_off {s t : State} (hbar : s.barOn 0 = false) : done s (managed s t) = .next s := by
  rw [managed_off hbar]
  rfl

theorem within_managed_off {s t : State} {src : Nat} (hsrc : src < 512) (hbar : s.barOn 0 = false) :
    within (decide (src < 512)) s (if s.hasSource src then managed s t else s) = .next s := by
  rw [managed_off hbar, ite_self, within, if_pos (decide_eq_true hsrc)]
  rfl

theorem State.barOn_of_not_ready {s : State} (h : s.boot.ready = false) (f : Nat) : s.barOn f = false := by
  rw [State.barOn, h, Bool.false_and]

/-! ### The manager's writes of the logbook (R357, R360, R361) -/

section
variable {s : State} (hbar : s.barOn 0 = true)
include hbar

theorem done_managed_on (t : State) : done s (managed s t) = done s t := by rw [managed_on hbar]

theorem completes_auditExportHead {v : BitVec 32} (hv : (v - s.log.head).toNat ≤ (s.log.tail - s.log.head).toNat) :
    Completes (.auditExportHead v) s fun t => t.log.head = v ∧ t.log.tail = s.log.tail ∧ t.log.records = s.log.records := by
  refine ⟨_, done_managed_on hbar (s.writeExportHead v), ?_⟩
  have hle : diff32 v s.log.head ≤ diff32 s.log.tail s.log.head := hv
  rw [State.writeExportHead, if_pos hle]
  exact ⟨rfl, rfl, rfl⟩

theorem completes_auditRegionMib {v : BitVec 32} (hv : 256 ≤ v.toNat % 65536) : Completes (.auditRegionMib v) s fun t =>
    t.log.nextMib = some (v.toNat % 65536) ∧ t.log.regionMib = s.log.regionMib := by
  refine ⟨_, done_managed_on hbar (s.writeRegionMib v), ?_⟩
  unfold State.writeRegionMib
  dsimp only
  rw [if_neg (by omega)]
  exact ⟨rfl, rfl⟩

omit hbar in
theorem State.ownerEvent_owner (s : State) (r old new : Nat) : ((s.ownerEvent r old new).logReg r).owner = (s.logReg r).owner := by
  have hregs (u : State) (flags : Nat) (body : Bytes) : (u.writeRecord 0x00F2 r flags body).logReg r = u.logReg r := by
    simp only [State.logReg, State.writeRecord_regs]
  unfold State.ownerEvent
  dsimp only
  split
  · rw [hregs]
  · rw [hregs, State.extendBy, State.modLog_logReg_same]

/-- With no extend reserved the new owner's record follows at once. -/
theorem completes_logOwner {r : Nat} (h16 : 16 ≤ r) (h64 : r < 64) (v : BitVec 32) (hbarrier : (s.logReg r).barrier = [])
    (hreserved : (s.logReg r).reserved = []) : Completes (.logOwner r v) s fun t => (t.logReg r).owner = v.toNat % 512 := by
  have hx : exec (.logOwner r v) s = within (decide (r < 64)) s (managed s (s.writeOwner r v)) := rfl
  rw [managed_on hbar, within, if_pos (decide_eq_true h64)] at hx
  refine ⟨_, hx, ?_⟩
  let u := s.modLog r fun L => { L with owner := v.toNat % 512 }
  have hu : u.logReg r = { s.logReg r with owner := v.toNat % 512 } := State.modLog_logReg_same _ _ _
  have hw : s.writeOwner r v = (u.ownerEvent r (s.logReg r).owner (v.toNat % 512)).modLog r fun L => { L with barrier := [] } := by
    unfold State.writeOwner
    dsimp only
    rw [if_neg (by omega)]
    unfold State.logBarrier
    dsimp only
    rw [hu]
    dsimp only
    rw [hbarrier, hreserved]
    rfl
  rw [hw]
  exact (congrArg LogReg.owner (State.modLog_logReg_same _ r fun L => { L with barrier := [] }) :).trans ((u.ownerEvent_owner r _ _).trans (congrArg LogReg.owner hu :))

end

theorem State.hostWrite_hostMem (s : State) (a : Nat) (bs : Bytes) : (s.hostWrite a bs).hostMem = memWriteN s.hostMem a bs := by
  unfold State.hostWrite
  dsimp only
  split <;> rfl

/-- The one waiting record goes to its slot of the ring. -/
theorem completes_auditExport {s : State} (now : Nat) {a : Bytes} (hrec : s.log.records = [a]) (hon : s.log.exportOn = true)
    (hroom : s.log.ringRoom = true) (hfault : s.writeFault (s.log.base + 256 * (s.log.tail.toNat % 2 ^ s.log.log2)) 256 = none) :
    Completes (.auditExport now) s fun t =>
      t.hostMem = memWriteN s.hostMem (s.log.base + 256 * (s.log.tail.toNat % 2 ^ s.log.log2)) a ∧ t.log.records = [] := by
  have hx : exec (.auditExport now) s = done s ((s.at_ now).exportAll s.log.records.length) := rfl
  rw [hrec] at hx
  refine ⟨_, hx, ?_⟩
  change ((s.at_ now).exportOne).hostMem = _ ∧ ((s.at_ now).exportOne).log.records = _
  have hcond : ¬ (¬ s.log.exportOn ∨ ¬ s.log.ringRoom ∨
      (s.writeFault (s.log.base + 256 * (s.log.tail.toNat % 2 ^ s.log.log2)) 256).isSome) := by simp [hon, hroom, hfault]
  unfold State.exportOne
  rw [show (s.at_ now).log.records = [a] from hrec]
  dsimp only
  have hone : ∀ (u w : State), (if ¬ s.log.exportOn ∨ ¬ s.log.ringRoom ∨
      (s.writeFault (s.log.base + 256 * (s.log.tail.toNat % 2 ^ s.log.log2)) 256).isSome then u else w) = w := fun u w => if_neg hcond
  refine ⟨(congrArg State.hostMem (hone _ _)).trans ?_, congrArg (·.log.records) (hone _ _)⟩
  exact State.hostWrite_hostMem _ _ _


/-- Settles O23: each command on a source, a core or the logbook does what its lemma above says, and with BAR0 silent none
does anything. -/
theorem sourceControlsAndWritesBeforeReady : Obligations.SourceControlsAndWritesBeforeReady := by
  unfold Obligations.SourceControlsAndWritesBeforeReady
  refine ⟨fun s src now hsrc hhas hbar => ⟨exec_attnClear hsrc hhas hbar, exec_fltRelease_unfenced hbar hsrc, ?_, ?_, ?_⟩, ?_, ?_⟩
  · rintro p rfl hp hfenced h1 h2
    exact completes_fltRelease_port hbar hp hfenced h1 h2
  · intro sub hd _ hsub
    exact ⟨completes_fltForce_dry hsrc hhas hbar hsub hd, fun wet => exec_fltForce_denied hsrc hhas hbar hsub⟩
  · rintro c hc rfl hfenced hgated hsafe
    exact completes_helmCoreRecovery now hc hfenced hgated hsafe
  · intro s src p v v64 hready hsrc _
    have hbar := State.barOn_of_not_ready hready 0
    exact ⟨done_managed_off hbar, within_managed_off hsrc hbar, within_managed_off hsrc hbar, within_managed_off hsrc hbar,
      done_managed_off hbar, done_managed_off hbar, done_managed_off hbar, done_managed_off hbar, done_managed_off hbar,
      done_managed_off hbar, done_managed_off hbar, done_managed_off hbar, done_managed_off hbar, done_managed_off hbar⟩
  · intro s hbar
    exact ⟨fun r h16 h64 v => completes_logOwner hbar h16 h64 v, fun v => completes_auditExportHead hbar,
      fun v => completes_auditRegionMib hbar, fun now a => completes_auditExport now⟩

/-- Settles O18: a counted record meets its window (`completes_counted`) or its threshold (`completes_threshold`), and the
commands on a source are those of O23. -/
theorem countedEventsReactAtTheirThreshold : Obligations.CountedEventsReactAtTheirThreshold := by
  unfold Obligations.CountedEventsReactAtTheirThreshold
  refine ⟨fun s n now hn hclear => ?_, fun s n now hsrc hhas hbar => ⟨?_, ?_, ?_, ?_⟩⟩
  · have hown := State.notedAt_src_same (s := s) (now := now) (n := n) 1
    have hus : (s.notedAt now n 1).us = (s.at_ now).us := by
      rw [State.notedAt, State.noted_eq (src := n) (sub := 1) rfl]
      rfl
    have hopened : (s.notedAt now n 1).opened n ↔ (s.at_ now).opened n := by
      rw [State.opened, hown, hus]
      rfl
    refine ⟨fun ho hbelow => ?_, fun ho h1 => ?_, fun ho => completes_threshold hn hclear ho⟩
    · refine completes_counted hn hclear ?_
      rw [State.countStep_opened (hopened.2 ho), if_neg (by rw [hown]; exact Nat.not_le.2 hbelow), hown]
    · obtain ⟨t, hx, heq, hc, hs, htot, hid, -, -⟩ := completes_counted (start := (s.at_ now).us) (c := 1) hn hclear (by
        rw [State.countStep_fresh (mt hopened.1 ho) (by rw [hown]; exact h1), hus])
      exact ⟨t, hx, heq, hc, hs, htot, hid⟩
  · exact ⟨_, exec_attnClear hsrc hhas hbar,
      (congrArg Source.attn (s.modSrc_src_same n fun S => { S with attn := S.attn && S.present }) :)⟩
  · rintro p rfl hp hfenced h1 h2
    obtain ⟨t, hx, hf, hp, -⟩ := completes_fltRelease_port hbar hp hfenced h1 h2
    exact ⟨t, hx, hf, hp⟩
  · intro sub hd _ hsub hok hcycle
    obtain ⟨t, hx, htot, -, hdry, hinj, -⟩ := completes_fltForce_dry hsrc hhas hbar hsub hd hok hcycle
    exact ⟨t, hx, htot, hdry, hinj⟩
  · rintro c hc rfl hfenced hgated hsafe
    obtain ⟨t, hx, hstop, hf, -⟩ := completes_helmCoreRecovery now hc hfenced hgated hsafe
    exact ⟨t, hx, hstop, hf⟩

end Sys2Proof.Machine
end


section
/-! PROOF. The entry to the safe state (18_faults_safety.md R422, R423, R430; 11, R272, R273). -/

namespace Sys2Proof.Machine

/-! ### Jobs that the safe state ends (R272, R423) -/

/-- Neither past its end nor in a no-return zone, with nothing of its output released: the safe state ends it. -/
structure Job.Stoppable (J : Job) : Prop where
  live : ¬ (J.phase = .ended ∨ J.phase = .delayed)
  zone : (J.isRunning && J.zone) = false
  atEnd : J.atEnd = false
  released : J.released = 0

theorem Job.stoppable_of_body {J K : Job} (h : K.body = J.body) (hJ : J.Stoppable) : K.Stoppable := by
  have hK : K.body.Stoppable := h ▸ ⟨hJ.live, hJ.zone, hJ.atEnd, hJ.released⟩
  exact ⟨hK.live, hK.zone, hK.atEnd, hK.released⟩

/-- Job `j` has ended because of the safe state. -/
def State.SafeEnded (s : State) (j : Nat) : Prop := ∃ K, s.job? j = some K ∧ K.phase = .ended ∧ K.status = St.safeState

theorem Ends.job_body {P : Nat → Prop} {s t : State} {j : Nat} {J : Job} (h : Ends P s t) (hP : ¬ P j) (hJ : s.job? j = some J) :
    ∃ K, t.job? j = some K ∧ K.body = J.body := by
  have hbody := h.job j hP
  rw [hJ] at hbody
  exact Option.map_eq_some_iff.1 hbody

theorem State.SafeEnded.ends {P : Nat → Prop} {s t : State} {j : Nat} (hs : s.SafeEnded j) (h : Ends P s t) (hP : ¬ P j) :
    t.SafeEnded j := by
  obtain ⟨K, hK, hphase, hstatus⟩ := hs
  obtain ⟨L, hL, hbody⟩ := h.job_body hP hK
  exact ⟨L, hL, (congrArg Job.phase hbody :).trans hphase, (congrArg Job.status hbody :).trans hstatus⟩

theorem Answered.safeEnded {t : State} {j : Nat} (h : Answered t j St.safeState 0) : t.SafeEnded j := by
  obtain ⟨K, hK, hphase, hstatus, -⟩ := h
  exact ⟨K, hK, hphase, hstatus⟩

theorem State.stopJob_safe_self (s : State) {j : Nat} {J : Job} (hJ : s.job? j = some J) (h : J.Stoppable) :
    (s.stopJob j .safe).SafeEnded j := by
  have hbusy : ¬ (J.phase = .ended ∨ J.phase = .delayed ∨ J.atEnd = true) := by
    rw [h.atEnd]
    have := h.live
    tauto
  have hzone : ¬ (J.isRunning = true ∧ (J.zone = true ∨ Request.safe = .abort)) := by
    rintro ⟨hr, hz | hz⟩
    · simpa [hr, hz] using h.zone
    · cases hz
  unfold State.stopJob
  simp only [hJ]
  rw [if_neg hbusy, if_neg (by rintro ⟨-, hz⟩; cases hz), if_neg hzone]
  exact Answered.safeEnded (s.endJob_answered hJ h.live h.released _ _ _)

theorem State.SafeEnded.stopJob {s : State} {j : Nat} (h : s.SafeEnded j) (k : Nat) : (s.stopJob k .safe).SafeEnded j := by
  by_cases hk : j = k
  · subst hk
    obtain ⟨K, hK, hphase, -⟩ := id h
    unfold State.stopJob
    simp only [hK]
    rw [if_pos (.inl hphase)]
    exact h
  · exact h.ends (s.stopJob_ends (P := (· = k)) rfl .safe) hk

/-- A stop of every job of a list ends each that it may. -/
theorem eachOf_stopJob_safe (l : List Nat) {s : State} {j : Nat}
    (h : s.SafeEnded j ∨ j ∈ l ∧ ∃ J, s.job? j = some J ∧ J.Stoppable) :
    (eachOf l (fun t k => t.stopJob k .safe) s).SafeEnded j := by
  induction l generalizing s with
  | nil => exact h.resolve_right fun h => by cases h.1
  | cons k l ih =>
    refine ih (s := s.stopJob k .safe) ?_
    rcases h with h | ⟨hmem, J, hJ, hstop⟩
    · exact .inl (h.stopJob k)
    · by_cases hk : j = k
      · subst hk
        exact .inl (s.stopJob_safe_self hJ hstop)
      · obtain ⟨K, hK, hbody⟩ := (s.stopJob_ends (P := (· = k)) rfl .safe).job_body hk hJ
        exact .inr ⟨(List.mem_cons.1 hmem).resolve_left hk, K, hK, Job.stoppable_of_body hbody hstop⟩

theorem State.safeJobs_safeEnded {s : State} {j : Nat}
    (h : s.SafeEnded j ∨ ∃ J, s.job? j = some J ∧ J.Stoppable ∧ J.admin = false) : s.safeJobs.SafeEnded j := by
  refine eachOf_stopJob_safe _ (h.imp_right fun ⟨J, hJ, hstop, hadmin⟩ => ⟨?_, J, hJ, hstop⟩)
  exact List.mem_map.2 ⟨(j, J), List.mem_filter.2 ⟨mem_of_tget hJ, by simp [hadmin]⟩, rfl⟩

/-! ### The chart operation that the safe state ends (03, R73) -/

section
variable (s : State)

/-- The marks that an interrupted chart operation leaves on its tiles. -/
def State.unchart (s : State) (o : ChartOp) : State :=
  eachOf o.tiles (fun u n => u.modTile n fun T => if T.reload then T else { T with change := 0 })
    (eachOf o.doneList (fun u n => u.modTile n fun T => { T with reload := true, change := 2 }) s)

theorem State.unchart_steady (o : ChartOp) : (s.unchart o).steady = s.steady :=
  (eachOf_steady _ _ (fun u n => u.modTile_steady n _) _).trans (eachOf_steady _ _ (fun u n => u.modTile_steady n _) _)

theorem State.unchart_keeps {α : Type} (field : State → α) (hf : ∀ u n f, field (State.modTile u n f) = field u) (o : ChartOp) :
    field (s.unchart o) = field s :=
  (eachOf_keeps field _ _ (fun u n => hf u n _) _).trans (eachOf_keeps field _ _ (fun u n => hf u n _) _)

theorem State.safeChart_none (h : s.chart.op = none) : s.safeChart = s := by
  unfold State.safeChart
  simp only [h]

theorem State.safeChart_some {o : ChartOp} (h : s.chart.op = some o) : ∃ p, s.safeChart =
    { ((s.endJob o.job St.safeState 0).unchart o) with progress := p, chart := { s.chart with
      op := none, powerNext := if o.power.isSome then o.power else s.chart.powerNext } } := by
  have hchart : ((s.endJob o.job St.safeState 0).unchart o).chart = s.chart :=
    (State.unchart_keeps _ State.chart (fun _ _ _ => rfl) o).trans
      (s.endJob_ends (fun _ => True) trivial St.safeState 0 []).chart
  have hop (u : State) (k f : Nat) : ∃ p, u.opEnd k f = { u with progress := p } := by
    unfold State.opEnd
    split
    · exact ⟨_, rfl⟩
    · exact ⟨_, rfl⟩
  obtain ⟨p, hp⟩ := hop ((s.endJob o.job St.safeState 0).unchart o) (if o.retile then 2 else 1) 0
  refine ⟨p, ?_⟩
  rw [← hchart]
  unfold State.safeChart
  simp only [h]
  exact congrArg (fun u : State => { u with chart := { ((s.endJob o.job St.safeState 0).unchart o).chart with
      op := none, powerNext := if o.power.isSome then o.power else ((s.endJob o.job St.safeState 0).unchart o).chart.powerNext } }) hp

end

/-- The key table apart from leaf states. -/
abbrev State.keyBodies (s : State) (i : Nat) : Option Key := (s.key? i).map Key.body

theorem State.safeChart_leaves (s : State) : s.safeChart.partners = s.partners ∧ (∀ i, s.safeChart.keyBodies i = s.keyBodies i) ∧
    s.safeChart.chart.running = s.chart.running ∧
    ∀ j J, s.job? j = some J → J.Stoppable →
      s.safeChart.SafeEnded j ∨ ∃ K, s.safeChart.job? j = some K ∧ K.Stoppable ∧ K.admin = J.admin := by
  cases hop : s.chart.op with
  | none =>
    rw [s.safeChart_none hop]
    exact ⟨rfl, fun _ => rfl, rfl, fun j J hJ hstop => .inr ⟨J, hJ, hstop, rfl⟩⟩
  | some o =>
    obtain ⟨p, hp⟩ := s.safeChart_some hop
    rw [hp]
    have hends := s.endJob_ends (· = o.job) rfl St.safeState 0 []
    have hjobs : ((s.endJob o.job St.safeState 0).unchart o).jobs = (s.endJob o.job St.safeState 0).jobs :=
      State.unchart_keeps _ State.jobs (fun _ _ _ => rfl) o
    have hpart : ((s.endJob o.job St.safeState 0).unchart o).partners = (s.endJob o.job St.safeState 0).partners :=
      State.unchart_keeps _ State.partners (fun _ _ _ => rfl) o
    have hkeys : ((s.endJob o.job St.safeState 0).unchart o).keys = (s.endJob o.job St.safeState 0).keys :=
      State.unchart_keeps _ State.keys (fun _ _ _ => rfl) o
    refine ⟨hpart.trans hends.partners, fun i => ?_, rfl, fun j J hJ hstop => ?_⟩
    · refine Eq.trans ?_ (hends.key i)
      simp only [State.keyBodies, State.key?, hkeys]
    · by_cases hj : j = o.job
      · subst hj
        obtain ⟨K, hK, hphase, hstatus, -⟩ := s.endJob_answered hJ hstop.live hstop.released St.safeState 0 []
        exact .inl ⟨K, (State.job?_congr hjobs _).trans hK, hphase, hstatus⟩
      · obtain ⟨K, hK, hbody⟩ := hends.job_body hj hJ
        exact .inr ⟨K, (State.job?_congr hjobs _).trans hK, Job.stoppable_of_body hbody hstop,
          (congrArg Job.admin hbody :)⟩

/-! ### Tiles, cores and ports that the safe state stops (R423) -/

/-- The safe state fences tile `n`. -/
def State.safeTile (s : State) (n : Nat) : State :=
  s.modTile n fun T => { T.scrubbed with mode := .fenced, bySafe := true, returning := false }

/-- The safe state stops core `c`. -/
def State.safeCore (s : State) (c : Nat) : State := s.modCore c fun C => { C with stopped := true, bySafe := true }

/-- The safe state stops the egress of port `p`. -/
def State.safePort (s : State) (p : Nat) : State := s.modPort p fun P => { P with safeStop := true }

/-- Every tile that is there is fenced. -/
def State.safeTiles (s : State) : State :=
  eachOf (tkeys s.tiles fun _ T => T.mode != .absent && T.mode != .fenced) State.safeTile s

/-- Every tile that is there is fenced, every firmware core stopped, and the egress of ports `ps` too. -/
def State.stilled (s : State) (ps : List Nat) : State :=
  eachOf ps State.safePort (eachOf s.safeTiles.firmwareCores State.safeCore s.safeTiles)

theorem State.enterSafe_stilled (s : State) (src sub id : Nat) : s.enterSafe src sub id false =
    (((s.entered src id false).safeChart.safeJobs.stilled (List.range (portsOf s.variant))).logEvent 5 0x0050
      (le 1 sub ++ le 2 src ++ le 4 id)).glbEvent 2 := rfl

section
variable (s : State) (ps : List Nat)

/-- Stopping tiles, cores and ports changes nothing else. -/
theorem State.stilled_keeps {α : Type} (field : State → α) (htile : ∀ u n f, field (State.modTile u n f) = field u)
    (hcore : ∀ u n f, field (State.modCore u n f) = field u) (hport : ∀ u n f, field (State.modPort u n f) = field u) :
    field (s.stilled ps) = field s :=
  (eachOf_keeps field _ _ (fun u n => hport u n _) _).trans ((eachOf_keeps field _ _ (fun u n => hcore u n _) _).trans
    (eachOf_keeps field _ _ (fun u n => htile u n _) _))

/-- What one change gives each thing of a list, it has after all of them. -/
theorem eachOf_holds {l : List Nat} {f : State → Nat → State} {P : Nat → State → Prop} (hself : ∀ t n, P n (f t n))
    (hstay : ∀ t n m, P m t → P m (f t n)) {n : Nat} (s : State) (h : n ∈ l ∨ P n s) : P n (eachOf l f s) := by
  induction l generalizing s with
  | nil => exact h.resolve_left List.not_mem_nil
  | cons m l ih =>
    refine ih (f s m) ?_
    rcases h with h | h
    · rcases List.mem_cons.1 h with rfl | h
      · exact .inr (hself s n)
      · exact .inl h
    · exact .inr (hstay s m n h)

theorem State.stilled_tile (n : Nat) : ((s.stilled ps).tile n).mode = .fenced ∨ ((s.stilled ps).tile n).mode = .absent := by
  let l := tkeys s.tiles fun _ T => T.mode != .absent && T.mode != .fenced
  have htiles : (s.stilled ps).tiles = s.safeTiles.tiles :=
    (eachOf_keeps State.tiles _ State.safePort (fun _ _ => rfl) _).trans
      (eachOf_keeps State.tiles _ State.safeCore (fun _ _ => rfl) _)
  have hfenced : n ∈ l ∨ (s.tile n).mode = .fenced ∨ (s.tile n).mode = .absent := by
    cases hT : tget s.tiles n with
    | none => exact .inr (.inr (by rw [State.tile, hT]; rfl))
    | some T =>
      have hn : s.tile n = T := by rw [State.tile, hT]; rfl
      rw [hn]
      by_cases hmode : T.mode = .fenced ∨ T.mode = .absent
      · exact .inr hmode
      · exact .inl (List.mem_map.2 ⟨(n, T), List.mem_filter.2 ⟨mem_of_tget hT, by
          rw [not_or] at hmode
          simp [hmode.1, hmode.2]⟩, rfl⟩)
  have htile : (s.stilled ps).tile n = s.safeTiles.tile n := by simp only [State.tile, htiles]
  rw [htile]
  exact eachOf_holds (P := fun n t => (t.tile n).mode = .fenced ∨ (t.tile n).mode = .absent)
    (fun t n => .inl (by rw [State.safeTile, State.modTile_tile_same]))
    (fun t n m h => by
      rw [State.safeTile, State.modTile_tile]
      split
      · exact .inl rfl
      · exact h) s hfenced

theorem State.stilled_core {c : Nat} (hc : c < 6) : ((s.stilled ps).core c).stopped = true := by
  have hservice : (s.stilled ps).service = (eachOf s.safeTiles.firmwareCores State.safeCore s.safeTiles).service :=
    eachOf_keeps State.service _ State.safePort (fun _ _ => rfl) _
  have hstopped : c ∈ s.safeTiles.firmwareCores ∨ (s.safeTiles.core c).stopped = true := by
    cases h : (s.safeTiles.core c).stopped with
    | true => exact .inr rfl
    | false => exact .inl (by simp [State.firmwareCores, h, hc]; omega)
  simp only [State.core, hservice]
  exact eachOf_holds (P := fun c t => (t.core c).stopped = true)
    (fun t n => by rw [State.safeCore, State.modCore_core_same])
    (fun t n m h => by
      rw [State.safeCore, State.modCore_core]
      split
      · rfl
      · exact h) _ hstopped

theorem State.stilled_port {p : Nat} (hp : p ∈ ps) : ((s.stilled ps).port p).safeStop = true :=
  eachOf_holds (P := fun p t => (t.port p).safeStop = true) (fun t n => by rw [State.safePort, State.modPort_port_same])
    (fun t n m h => by
      rw [State.safePort, State.modPort_port]
      split
      · rfl
      · exact h) _ (.inl hp)

end

/-! ### The entry as a whole -/

section
variable (s : State) (src sub id : Nat)

theorem State.entered_gate (inj : Bool) {g : Nat} (hg : g < quadsOf s.variant ∨ g = 4) :
    (tget (s.entered src id inj).faults.safe.gates g).isSome = true :=
  eachOf_holds (P := fun g t => (tget t.faults.safe.gates g).isSome = true)
    (fun t n => by simp [State.closeGate])
    (fun t n m h => by
      simp only [State.closeGate, tget_tput]
      split
      · rfl
      · exact h) _ (.inl (by simpa using hg))

theorem State.enterSafe_gate (inj : Bool) {g : Nat} (hg : g < quadsOf s.variant ∨ g = 4) :
    (tget (s.enterSafe src sub id inj).faults.safe.gates g).isSome = true := by
  have hf : (s.enterSafe src sub id inj).faults = (s.entered src id inj).faults :=
    (congrArg State.faults (s.enterSafe_steady src sub id inj) :)
  rw [hf]
  exact s.entered_gate src id inj hg

/-- What an entry does to tiles, cores, ports and jobs, and what it leaves. -/
structure State.Stops (s t : State) : Prop where
  tiles : ∀ n, (t.tile n).mode = .fenced ∨ (t.tile n).mode = .absent
  cores : ∀ c < 6, (t.core c).stopped = true
  ports : ∀ p < portsOf s.variant, (t.port p).safeStop = true
  jobs : ∀ j J, s.job? j = some J → J.Stoppable → J.admin = false → t.SafeEnded j
  keys : ∀ i, t.keyBodies i = s.keyBodies i
  running : t.chart.running = s.chart.running

theorem State.enterSafe_stops : s.Stops (s.enterSafe src sub id false) := by
  obtain ⟨g, hg⟩ := s.entered_eq src id false
  let v := (s.entered src id false).safeChart.safeJobs
  have hreports : Reports (v.stilled (List.range (portsOf s.variant))) (s.enterSafe src sub id false) := by
    rw [s.enterSafe_stilled]
    exact (State.logEvent_reports _ _ _ _).trans (State.glbEvent_reports _ _)
  obtain ⟨l, p, r, f, o, q, c, ht⟩ := hreports.exists
  rw [ht]
  obtain ⟨-, hkeys, hrun, hjobs⟩ := (s.entered src id false).safeChart_leaves
  have hends : Ends (fun _ => True) (s.entered src id false).safeChart v :=
    Ends.each _ _ (fun t j _ => t.stopJob_ends _ trivial .safe) _
  refine ⟨v.stilled_tile _, fun c hc => v.stilled_core _ hc, fun p hp => v.stilled_port _ (List.mem_range.2 hp),
    fun j J hJ hstop hadmin => ?_, fun i => ?_, ?_⟩
  · have hv : v.SafeEnded j := by
      refine State.safeJobs_safeEnded ?_
      rcases hjobs j J (by rw [hg]; exact hJ) hstop with h | ⟨K, hK, hstop, hK'⟩
      · exact .inl h
      · exact .inr ⟨K, hK, hstop, hK'.trans hadmin⟩
    obtain ⟨K, hK, hphase⟩ := hv
    refine ⟨K, ?_, hphase⟩
    exact (State.job?_congr (v.stilled_keeps _ State.jobs (fun _ _ _ => rfl) (fun _ _ _ => rfl) fun _ _ _ => rfl) j).trans hK
  · have hstill : (v.stilled (List.range (portsOf s.variant))).keys = v.keys :=
      v.stilled_keeps _ State.keys (fun _ _ _ => rfl) (fun _ _ _ => rfl) fun _ _ _ => rfl
    calc _ = v.keyBodies i := by simp only [State.keyBodies, State.key?, hstill]
      _ = (s.entered src id false).safeChart.keyBodies i := hends.key i
      _ = (s.entered src id false).keyBodies i := hkeys i
      _ = s.keyBodies i := by rw [hg]; rfl
  · have hstill : (v.stilled (List.range (portsOf s.variant))).chart = v.chart :=
      v.stilled_keeps _ State.chart (fun _ _ _ => rfl) (fun _ _ _ => rfl) fun _ _ _ => rfl
    calc _ = v.chart.running := congrArg (·.running) hstill
      _ = (s.entered src id false).safeChart.chart.running := congrArg (·.running) hends.chart
      _ = s.chart.running := by rw [hrun, hg]

end

/-- The request to enter the safe state, in operation: the record of source 386, and the entry that it makes. -/
theorem exec_safeCtrlEnter {s : State} (hbar : s.barOn 0 = true) (hoff : s.faults.safe.on = false) : ∃ v,
    (∃ f : Faults, v = { s with faults := f }) ∧
    ∃ t, exec .safeCtrlEnter s = .next t ∧ ∃ S, t = { v.enterSafe 386 0x2D s.faults.nextId false with
      faults := { (v.enterSafe 386 0x2D s.faults.nextId false).faults with sources := S } } := by
  let u := s.noted 386 0x2D 0 true false false none
  have heq := State.noted_eq (src := 386) (sub := 0x2D) rfl s 0 true false false none
  have hu : u = { s with faults := { s.faults with sources := u.faults.sources } } := heq
  let v := (u.newReact 386 2 5 false).modSrc 386 fun S => { S with attn := true, rid := s.faults.nextId }
  have hv : v = { s with faults := v.faults } := by
    unfold v
    rw [hu]
    rfl
  have hreact : u.reactB 386 0x2D false = v.enterSafe 386 0x2D s.faults.nextId false := by
    rw [State.reactB, if_neg (by rw [hu]; simp [hoff])]
    unfold v
    rw [show u.faults.nextId = s.faults.nextId by rw [hu]]
  have hevent : ∃ S, s.event 386 0x2D 0 = { v.enterSafe 386 0x2D s.faults.nextId false with
      faults := { (v.enterSafe 386 0x2D s.faults.nextId false).faults with sources := S } } := by
    rw [State.event, State.handle_of_b rfl rfl, ← hreact]
    cases s.windowOf 386 0x2D 0 with
    | none => exact ⟨_, rfl⟩
    | some r => exact ⟨_, rfl⟩
  obtain ⟨S, hS⟩ := hevent
  have hx : exec .safeCtrlEnter s = done s (s.event 386 0x2D 0) := by
    change done s (managed s (s.event 386 0x2D 0)) = _
    rw [managed_on hbar]
  exact ⟨v, ⟨v.faults, hv⟩, _, hx.trans (done_event rfl _ _ _ _), S, hS⟩

/-- Settles O20: source 386 is of class B, and its record enters the safe state, whose entry stops each kind of thing
(`State.enterSafe_stops`). -/
theorem safeStateEntryStopsTheDevice : Obligations.SafeStateEntryStopsTheDevice := by
  unfold Obligations.SafeStateEntryStopsTheDevice
  intro s hbar hoff
  obtain ⟨v, ⟨f, hv⟩, t, hx, S, ht⟩ := exec_safeCtrlEnter hbar hoff
  refine ⟨t, hx, ?_⟩
  have hstops := v.enterSafe_stops 386 0x2D s.faults.nextId
  have hgate := fun g => v.enterSafe_gate 386 0x2D s.faults.nextId false (g := g)
  obtain ⟨g, hfaults⟩ := v.enterSafe_faults 386 0x2D s.faults.nextId false
  have hpins := v.enterSafe_pins 386 0x2D s.faults.nextId false
  obtain ⟨g', heq⟩ := v.entered_eq 386 s.faults.nextId false
  have hsteady := v.enterSafe_steady 386 0x2D s.faults.nextId false
  rw [heq] at hsteady
  generalize v.enterSafe 386 0x2D s.faults.nextId false = w at hstops hgate hfaults hpins hsteady ht
  subst ht hv
  have hon : w.faults.safe.on = true := by rw [hfaults]
  have hfirst : w.faults.safe.first = 386 := by rw [hfaults]
  have hchallenge : w.faults.safe.challenge = drbgBytes s.draws 32 := by rw [hfaults]
  have hentry : w.faults.safe.entry = s.binTime := by rw [hfaults]; rfl
  have hpermit : w.pins.permit = 0 := by rw [hpins]
  have hpermits : w.auth.permits = [] := (congrArg (·.auth.permits) hsteady :)
  have htime : w.time = s.time := (congrArg State.time hsteady :)
  have hpending : w.pending = s.pending := (congrArg State.pending hsteady :)
  exact ⟨hon, hfirst, hpermit, hpermits, hchallenge, hentry, hgate, hstops.tiles, hstops.cores, hstops.ports,
    fun j J hJ hadmin hended hdelayed hzone hend hrel =>
      hstops.jobs j J hJ ⟨by tauto, hzone, hend, hrel⟩ hadmin,
    htime, hstops.keys, hstops.running, hpending⟩

end Sys2Proof.Machine
end


section
/-! PROOF. The answer of a job that acts in its turn: what it gives back, and what it leaves alone
(11_functions_and_sharing.md R253-R257, R272; 10_job_rings.md R238, R241). -/

namespace Sys2Proof.Machine

/-- A command whose effect leaves the queue of commands as it is completes with that effect. -/
theorem Completes.of_done {c : Instr} {s t : State} {P : State → Prop} (hx : exec c s = done s t) (hpend : t.pending = s.pending)
    (hP : P t) : Completes c s P := ⟨t, hx.trans (done_eq hpend), hP⟩

/-! ### What a report leaves of a function -/

/-- A function apart from its pending MSI-X bits. -/
def Fn.body (F : Fn) : Fn := { F with pba := [] }

/-- Functions as they were, but for pending MSI-X bits. -/
def State.fnBodies (s : State) (f : Nat) : Fn := (s.fn f).body

theorem State.modFn_fnBodies (s : State) (n : Nat) {f : Fn → Fn} (hf : ∀ F, (f F).body = F.body) :
    (s.modFn n f).fnBodies = s.fnBodies := by
  funext m
  unfold State.fnBodies
  rw [State.modFn_fn]
  split
  next h => rw [hf, h]
  · rfl

theorem State.msix_fnBodies (s : State) (f v : Nat) : (s.msix f v).fnBodies = s.fnBodies := by
  unfold State.msix
  split
  · exact s.modFn_fnBodies f fun _ => rfl
  · split <;> rfl

theorem State.glbEvent_fnBodies (s : State) (b : Nat) : (s.glbEvent b).fnBodies = s.fnBodies := State.msix_fnBodies _ _ _

theorem State.putRecord_fnBodies (s : State) (type r flags : Nat) (body : Bytes) :
    (s.putRecord type r flags body).fnBodies = s.fnBodies := by
  simp only [State.putRecord]
  split
  · exact State.glbEvent_fnBodies _ _
  · rfl

theorem State.writeRecord_fnBodies (s : State) (type r flags : Nat) (body : Bytes) :
    (s.writeRecord type r flags body).fnBodies = s.fnBodies := by
  unfold State.writeRecord
  split
  · split
    · exact s.putRecord_fnBodies _ _ _ _
    next first n _ =>
      have hloss := State.putRecord_fnBodies { s with log := { s.log with gapFirst := none } } 0x00F1 r 0 (le 8 first ++ le 8 n)
      dsimp only
      split
      · exact (State.putRecord_fnBodies _ _ _ _ _).trans hloss
      · exact hloss
  · rfl

theorem State.roll_fnBodies (s : State) (r : Nat) : (s.roll r).fnBodies = s.fnBodies := State.writeRecord_fnBodies _ _ _ _ _

theorem State.logEvent_fnBodies (s : State) (r type : Nat) (body : Bytes) : (s.logEvent r type body).fnBodies = s.fnBodies := by
  have hextend (u : State) : ((u.extendBy r body).writeRecord type r 0 body).fnBodies = u.fnBodies :=
    State.writeRecord_fnBodies _ _ _ _ _
  unfold State.logEvent
  split
  · exact s.writeRecord_fnBodies type r 1 body
  · split
    · exact (hextend _).trans (s.roll_fnBodies r)
    · exact hextend s

theorem State.logWork_fnBodies (s : State) (r : Nat) (w : LogWork) : (s.logWork r w).fnBodies = s.fnBodies := by
  cases w with
  | roll =>
    simp only [State.logWork]
    split
    · rfl
    · exact s.roll_fnBodies r
  | ownerChange old new =>
    simp only [State.logWork, State.ownerEvent]
    split <;> exact State.writeRecord_fnBodies _ _ _ _ _
  | extend data => rfl
  | event type body => exact s.logEvent_fnBodies r type body

theorem State.openBarriers_fnBodies (s : State) (r : Nat) (b : List (List Nat × LogWork)) :
    (s.openBarriers r b).fnBodies = s.fnBodies := by
  induction b generalizing s with
  | nil => rfl
  | cons e b ih =>
    obtain ⟨ws, x⟩ := e
    cases ws with
    | nil => exact (ih _).trans (s.logWork_fnBodies r x)
    | cons w ws => rfl

theorem State.logUnreserve_fnBodies (s : State) (r j : Nat) : (s.logUnreserve r j).fnBodies = s.fnBodies :=
  State.openBarriers_fnBodies _ _ _

/-! ### What the end of a job leaves alone (04, R88) -/

/-- What of a job its end leaves: where it comes from, what it is, and the queue for which it waits in the background. -/
def Job.head (J : Job) : JobSrc × Nat × Nat × Option (Nat × Nat) := (J.src, J.fn, J.opcode, J.bg)

/-- Every entry of the in-flight table with what its end leaves of it. -/
def State.heads (s : State) : List (Nat × JobSrc × Nat × Nat × Option (Nat × Nat)) := s.jobs.map fun e => (e.1, e.2.head)

theorem State.modJob_heads (s : State) (j : Nat) {f : Job → Job} (hf : ∀ J, (f J).head = J.head) : (s.modJob j f).heads = s.heads := by
  unfold State.heads State.modJob tmod
  rw [List.map_map]
  refine List.map_congr_left fun e _ => ?_
  simp only [Function.comp_apply]
  split
  · rw [hf]
  · rfl

/-- What the end of job `J` leaves alone: a part of the state that sees neither the course of the job nor tiles, cores and the
logbook, nor what its commit and its tree hand on, nor host memory where something of its output has been released. -/
theorem State.endJob_field {α : Type} (field : State → α) {s : State} {j : Nat} {J : Job} (hJ : s.job? j = some J)
    (hjob : ∀ u f, (∀ J, (f J).head = J.head) → field (State.modJob u j f) = field u)
    (htiles : ∀ u t, field { u with tiles := t } = field u) (hpass : ∀ u, field (State.passCommit u j J) = field u)
    (htree : ∀ u, field (State.treeEnds u J) = field u) (hcore : ∀ u c f, field (State.modCore u c f) = field u)
    (hlog : ∀ u r k, field (State.logUnreserve u r k) = field u)
    (hwr : J.released = 0 ∨ ∀ u m a n, field (State.zeroFill u m a n).1 = field u) (status result : Nat) (ret : Bytes) :
    field (s.endJob j status result ret) = field s := by
  have hcores (u : State) : field (u.scrubCores J) = field u := eachOf_keeps field _ _ (fun t c => hcore t c _) u
  unfold State.endJob
  split
  · rfl
  next K hK =>
  cases hJ.symm.trans hK
  split
  · rfl
  extract_lets t0 t1 t2 t3
  have h0 : field t0 = field s := hjob s _ fun _ => rfl
  have h1 : field t1 = field t0 := by
    unfold t1
    split
    · rfl
    next hrel =>
      rcases hwr with hwr | hwr
      · exact absurd (.inl hwr) hrel
      · change field (State.modJob (t0.zeroFill (s.memOf J) J.dst J.released).1 j _) = _
        refine Eq.trans (hjob _ _ ?_) (hwr t0 _ _ _)
        exact fun _ => rfl
  have h2 : field t2 = field t1 := (htree _).trans ((hcores _).trans ((hpass _).trans (htiles t1 _)))
  have h3 : field t3 = field t2 := by
    unfold t3
    split
    · rfl
    · split
      · rfl
      · exact hlog _ _ _
  exact (eachOf_keeps field _ State.settleTile (fun t n => htiles t _) t3).trans (h3.trans (h2.trans (h1.trans h0)))

/-- What the end of any job leaves alone: besides, a part that sees neither keys nor counters. -/
theorem State.endJob_keeps {α : Type} (field : State → α)
    (hjob : ∀ u j f, (∀ J, (f J).head = J.head) → field (State.modJob u j f) = field u)
    (htiles : ∀ u t, field { u with tiles := t } = field u) (hkey : ∀ u i f, field (State.modKey u i f) = field u)
    (hcounters : ∀ u c, field { u with keys := { u.keys with counters := c } } = field u)
    (hcore : ∀ u c f, field (State.modCore u c f) = field u) (hlog : ∀ u r k, field (State.logUnreserve u r k) = field u)
    {s : State} {j : Nat}
    (hwr : (∀ J, s.job? j = some J → J.released = 0) ∨ ∀ u m a n, field (State.zeroFill u m a n).1 = field u)
    (status result : Nat) (ret : Bytes) : field (s.endJob j status result ret) = field s := by
  have hmove (u : State) (i : Nat) (J : Job) (K : Option Job) : field (u.movePending i J K) = field u := by
    simp only [State.movePending]
    split
    · exact hkey u _ _
    · exact hcounters u _
    · rfl
  have hpass (u : State) (J : Job) : field (u.passCommit j J) = field u := by
    unfold State.passCommit
    split
    · rfl
    split
    · rfl
    dsimp only
    split
    · exact hmove u _ _ _
    · refine (eachOf_keeps field _ _ (fun t k => hjob t k _ fun W => ?_) _).trans (hmove u _ _ _)
      split <;> rfl
  have htree (u : State) (J : Job) : field (u.treeEnds J) = field u := by
    unfold State.treeEnds
    split
    · rfl
    · exact hkey u _ _
  cases hJ : s.job? j with
  | none =>
    unfold State.endJob
    rw [hJ]
  | some J =>
    exact State.endJob_field field hJ (fun u f => hjob u j f) htiles (fun u => hpass u J) (fun u => htree u J) hcore hlog
      (hwr.imp_left fun h => h J hJ) status result ret

theorem State.hostWrite_eq (s : State) (a : Nat) (bs : Bytes) : ∃ o, s.hostWrite a bs =
    { s with hostMem := memWriteN s.hostMem a bs, cluster := { s.cluster with tetherOut := o } } := by
  unfold State.hostWrite
  dsimp only
  split
  · exact ⟨_, rfl⟩
  · exact ⟨_, rfl⟩

theorem State.zeroFill_keeps {α : Type} (field : State → α) (hmem : ∀ u m, field { u with hostMem := m } = field u)
    (hcluster : ∀ u c, field { u with cluster := c } = field u) (hmodule : ∀ u n f, field (State.modModule u n f) = field u)
    (u : State) (m : Option Nat) (a n : Nat) : field (u.zeroFill m a n).1 = field u := by
  have hwr (bs : Bytes) : field (u.wr m a bs) = field u := by
    cases m with
    | none =>
      obtain ⟨o, ho⟩ := u.hostWrite_eq a bs
      exact (congrArg field ho).trans ((hcluster { u with hostMem := memWriteN u.hostMem a bs } _).trans (hmem u _))
    | some k => exact hmodule u k fun M => { M with region := memWriteN M.region a bs }
  unfold State.zeroFill
  split <;> exact hwr _

theorem State.endJob_fnBodies (s : State) (j status result : Nat) (ret : Bytes) :
    (s.endJob j status result ret).fnBodies = s.fnBodies :=
  State.endJob_keeps State.fnBodies (fun _ _ _ _ => rfl) (fun _ _ => rfl) (fun _ _ _ => rfl) (fun _ _ => rfl) (fun _ _ _ => rfl)
    (fun u r k => u.logUnreserve_fnBodies r k)
    (.inr (State.zeroFill_keeps State.fnBodies (fun _ _ => rfl) (fun _ _ => rfl) fun _ _ _ => rfl)) _ _ _

theorem State.endJob_heads (s : State) (j status result : Nat) (ret : Bytes) : (s.endJob j status result ret).heads = s.heads :=
  State.endJob_keeps State.heads (fun u k _ hf => u.modJob_heads k hf) (fun _ _ => rfl) (fun _ _ _ => rfl) (fun _ _ => rfl) (fun _ _ _ => rfl)
    (fun u r k => by rw [State.heads, (u.logUnreserve_reports r k).jobs, State.heads])
    (.inr (State.zeroFill_keeps State.heads (fun _ _ => rfl) (fun _ _ => rfl) fun _ _ _ => rfl)) _ _ _

theorem State.endJob_hostMem {s : State} {j : Nat} (hrel : ∀ J, s.job? j = some J → J.released = 0) (status result : Nat)
    (ret : Bytes) : (s.endJob j status result ret).hostMem = s.hostMem :=
  State.endJob_keeps State.hostMem (fun _ _ _ _ => rfl) (fun _ _ => rfl) (fun _ _ _ => rfl) (fun _ _ => rfl) (fun _ _ _ => rfl)
    (fun u r k => (u.logUnreserve_reports r k).hostMem) (.inl hrel) _ _ _

/-- Job `j` answers: it ends with a status and a RESULT, nothing released, and nothing but what its end gives back and reports
has changed. -/
structure Answers (j status result : Nat) (s t : State) : Prop where
  answered : Answered t j status result
  ends : Ends (· = j) s t
  queues : t.queues = s.queues
  hostMem : t.hostMem = s.hostMem
  fns : t.fnBodies = s.fnBodies
  heads : t.heads = s.heads

theorem State.endJob_answers {s : State} {j : Nat} {J : Job} (hJ : s.job? j = some J)
    (hlive : ¬ (J.phase = .ended ∨ J.phase = .delayed)) (hrel : J.released = 0) (status result : Nat) (ret : Bytes) :
    Answers j status result s (s.endJob j status result ret) := by
  refine ⟨State.endJob_answered hJ hlive hrel status result ret, State.endJob_ends (· = j) s rfl status result ret,
    s.endJob_queues j status result ret, State.endJob_hostMem (fun K hK => ?_) status result ret,
    s.endJob_fnBodies j status result ret, s.endJob_heads j status result ret⟩
  rw [hJ] at hK
  cases hK
  exact hrel

namespace Answers
variable {j status result : Nat} {s t : State} (h : Answers j status result s t)
include h

theorem pending : t.pending = s.pending := (congrArg State.pending h.ends.steady :)
theorem faults : t.faults = s.faults := (congrArg State.faults h.ends.steady :)
theorem pins : t.pins = s.pins := (congrArg State.pins h.ends.steady :)
theorem chart : t.chart = s.chart := h.ends.chart

end Answers

/-! ### Administrative commands in their turn (R253, R257, R272) -/

section
variable {s : State} {j : Nat} {J : Job} {op : Nat} (hturn : AdminTurn s j J op)
include hturn

/-- Outside the safe state, and for the commands that run in it, a command in its turn acts. -/
theorem adminRow_turn (hsafe : s.faults.safe.on = false ∨ safeOps.contains op = true) (f : State → Job → State) :
    adminRow op j f s = done s (f s J) := by
  obtain ⟨hJ, hop, hphase, hbefore, hfence, -, -⟩ := hturn
  unfold adminRow
  rw [hJ]
  dsimp only
  rw [if_neg (by simp [hop, hphase, hbefore, hfence]), if_neg (by
    rintro ⟨hon, hno⟩
    rcases hsafe with h | h
    · rw [h] at hon
      cases hon
    · exact hno h)]

/-- In the safe state the other commands are refused. -/
theorem adminRow_safe (hon : s.faults.safe.on = true) (hop : safeOps.contains op = false) (f : State → Job → State) :
    adminRow op j f s = done s (s.safeRefuse op j) := by
  obtain ⟨hJ, hop', hphase, hbefore, hfence, -, -⟩ := hturn
  unfold adminRow
  rw [hJ]
  dsimp only
  rw [if_neg (by simp [hop', hphase, hbefore, hfence]), if_pos ⟨hon, by simpa using hop⟩]

/-- A state with the same jobs, in which the command answers. -/
theorem endAdmin_turn {u : State} (hu : u.jobs = s.jobs) (status result : Nat) (ret : Bytes) :
    Answers j status result u (u.endAdmin j status result ret) := by
  obtain ⟨hJ, -, hphase, -, -, hrel, -⟩ := hturn
  exact State.endJob_answers ((State.job?_congr hu j).trans hJ) (by simp [hphase]) hrel status result ret

theorem deny_turn {u : State} (hu : u.jobs = s.jobs) (reason : Nat) : Answers j St.policyDeny reason u (u.deny j reason) :=
  endAdmin_turn hturn hu _ _ _

theorem badField_turn {u : State} (hu : u.jobs = s.jobs) : Answers j St.malformed 0 u (u.badField j) := endAdmin_turn hturn hu _ _ _

/-- A response block that the host takes is written at DST, and the command answers. -/
theorem reply_turn (hmem : s.memOf J = none) {block : Bytes} (hfault : s.writeFault J.dst block.length = none) (result : Nat) :
    Answers j St.ok result (s.hostWrite J.dst block) (s.reply j J block result) := by
  have hwr : s.wrFault (s.memOf J) J.dst block.length = none := by
    rw [hmem]
    exact hfault
  have hjobs : (s.hostWrite J.dst block).jobs = s.jobs := by
    unfold State.hostWrite
    dsimp only
    split <;> rfl
  unfold State.reply
  simp only [hwr]
  rw [hmem]
  exact endAdmin_turn hturn hjobs St.ok result []

end

end Sys2Proof.Machine
end


section
/-! PROOF. Chart commands: their checks, the drain, the reconfiguration and the reload of tiles, and the power limit
(03_chart.md R63-R75; 04, R97-R100; 11, R275). -/

namespace Sys2Proof.Machine

/-! ### Progress (R275) -/

theorem State.opStep_eq (s : State) (op f n : Nat) : ∃ p, s.opStep op f n = { s with progress := p } := by
  unfold State.opStep
  split
  · exact ⟨_, rfl⟩
  · exact ⟨_, rfl⟩

theorem State.opEnd_eq (s : State) (op f : Nat) : ∃ p, s.opEnd op f = { s with progress := p } := by
  unfold State.opEnd
  split
  · exact ⟨_, rfl⟩
  · exact ⟨_, rfl⟩

theorem State.modJob_job_some {s : State} {j : Nat} {J : Job} (hJ : s.job? j = some J) (f : Job → Job) :
    (s.modJob j f).job? j = some (f J) := by
  rw [State.modJob_job, if_pos rfl, hJ, Option.map_some]

/-! ### One change to each tile of a list -/

/-- A change to every tile of a list that is idempotent on each reaches the listed tiles once. -/
theorem eachOf_modTile_tile {f : Tile → Tile} (hf : ∀ T, f (f T) = f T) (l : List Nat) (s : State) (n : Nat) :
    (eachOf l (fun u n => u.modTile n f) s).tile n = if n ∈ l then f (s.tile n) else s.tile n := by
  induction l generalizing s with
  | nil => rfl
  | cons m l ih =>
    refine (ih (s.modTile m f)).trans ?_
    rw [State.modTile_tile]
    by_cases hnm : n = m
    · subst hnm
      simp [hf]
    · simp [hnm]

/-- Changes to tiles change nothing else. -/
theorem eachOf_modTile_eq (f : Tile → Tile) (l : List Nat) (s : State) :
    ∃ ts, eachOf l (fun u n => u.modTile n f) s = { s with tiles := ts } := by
  induction l generalizing s with
  | nil => exact ⟨_, rfl⟩
  | cons m l ih =>
    obtain ⟨ts, hts⟩ := ih (s.modTile m f)
    exact ⟨ts, hts⟩

theorem Tile.drain_drain (T : Tile) : T.drain.drain = T.drain := by
  unfold Tile.drain
  dsimp only
  split
  · simp
  · rfl

/-! ### LOAD_CHART and RETILE -/

section
variable {s : State} {j : Nat} {J : Job} {retile : Bool} (hturn : AdminTurn s j J (if retile then 0x0011 else 0x0010))
  (hoff : s.faults.safe.on = false) (hparam : J.param = 0)
include hturn hoff

/-- The command of a chart image acts. -/
theorem exec_chartCommand : exec (if retile then .retile j else .loadChart j) s = done s (s.chartCommand j J retile) := by
  cases retile with
  | false => exact adminRow_turn (op := 0x0010) hturn (.inl hoff) fun s J => s.chartCommand j J false
  | true => exact adminRow_turn (op := 0x0011) hturn (.inl hoff) fun s J => s.chartCommand j J true

include hparam

theorem completes_chart_refused {r : Nat} (hr : s.chartRefused J.input retile = some r) :
    Completes (if retile then .retile j else .loadChart j) s fun t =>
      Answered t j (if r = 1 then St.malformed else St.policyDeny) r ∧ t.chart = { s.chart with lastReason := r } := by
  let u : State := { s with chart := { s.chart with lastReason := r } }
  have hans : Answers j (chartStatus r) r u (u.endAdmin j (chartStatus r) r) := endAdmin_turn (u := u) hturn rfl _ _ _
  have hcmd : s.chartCommand j J retile = u.endAdmin j (chartStatus r) r := by
    unfold State.chartCommand
    rw [if_neg (by simp [hparam])]
    simp only [hr]
    rfl
  refine .of_done (exec_chartCommand hturn hoff) ?_ ?_ <;> rw [hcmd]
  · exact hans.pending
  · exact ⟨hans.answered, hans.chart⟩

/-- An operation begins: its tiles, and those that it drains. -/
theorem completes_chart_accepted (hr : s.chartRefused J.input retile = none) :
    Completes (if retile then .retile j else .loadChart j) s fun t =>
      (∃ o, t.chart = { s.chart with op := some o } ∧ o.job = j ∧ o.retile = retile ∧ o.image = J.input ∧
        o.chart = decodeChart J.input ∧ o.phase = 2 ∧ o.doneList = [] ∧ o.failed = [] ∧
        ∀ n, n ∈ o.tiles ↔ n < tilesOf s.variant ∧
          (retile = false ∨ (decodeChart J.input).tiles[n]? ≠ s.chart.running.bind fun c => c.tiles[n]?)) ∧
      (∀ n, t.tile n = if retile then s.tile n else if n < tilesOf s.variant then (s.tile n).drain else s.tile n) := by
  have hcmd : s.chartCommand j J retile = s.chartStart j J.input retile := by
    unfold State.chartCommand
    rw [if_neg (by simp [hparam])]
    simp only [hr]
  let ts := s.changedTiles (decodeChart J.input) retile
  have hts (n : Nat) : n ∈ ts ↔ n < tilesOf s.variant ∧
      (retile = false ∨ (decodeChart J.input).tiles[n]? ≠ s.chart.running.bind fun c => c.tiles[n]?) := by
    simp [ts, State.changedTiles]
  let o : ChartOp := { job := j, retile := retile, image := J.input, chart := decodeChart J.input, phase := 2, tiles := ts, doneList := [], failed := [] }
  obtain ⟨p, hp⟩ := State.opStep_eq ((s.modJob j fun J => { J with phase := .background }).opStart (if retile then 2 else 1) 0 (2 + 2 * ts.length))
    (if retile then 2 else 1) 0 1
  let t : State := { s.modJob j fun J => { J with phase := .background } with progress := p, chart := { s.chart with op := some o } }
  have hstart : s.chartStart j J.input retile = if retile then t else eachOf ts (fun u n => u.modTile n Tile.drain) t := by
    unfold State.chartStart
    dsimp only
    rw [hp]
    rfl
  refine .of_done (exec_chartCommand hturn hoff) ?_ ?_ <;> rw [hcmd, hstart]
  · split
    · rfl
    · exact eachOf_keeps State.pending _ (fun u n => u.modTile n Tile.drain) (fun _ _ => rfl) t
  · cases retile with
    | true => exact ⟨⟨o, rfl, rfl, rfl, rfl, rfl, rfl, rfl, rfl, hts⟩, fun _ => rfl⟩
    | false =>
      rw [if_neg Bool.false_ne_true]
      refine ⟨⟨o, eachOf_keeps State.chart _ (fun u n => u.modTile n Tile.drain) (fun _ _ => rfl) t, rfl, rfl, rfl, rfl, rfl, rfl, rfl, hts⟩, fun n => ?_⟩
      rw [eachOf_modTile_tile Tile.drain_drain, if_neg Bool.false_ne_true]
      simp only [hts, true_or, and_true]
      rfl

end

/-! ### The drain ends (R70, R74) -/

theorem Tile.reconfigure_of_stuck {T : Tile} (h : T.stuck = true) : T.reconfigure = { T with change := 2 } := if_pos h

theorem Tile.reconfigure_of_free {T : Tile} (h : T.stuck = false) (hrec : T.reconfigurable = true) :
    T.reconfigure = { T.scrubbed with change := 2, mode := .reconfiguring } := by
  rw [Tile.reconfigure, if_neg (by simp [h]), if_pos hrec]

theorem Tile.reconfigure_reconfigure (T : Tile) : T.reconfigure.reconfigure = T.reconfigure := by
  cases hstuck : T.stuck with
  | true =>
    rw [Tile.reconfigure_of_stuck hstuck]
    exact Tile.reconfigure_of_stuck hstuck
  | false =>
    cases hrec : T.reconfigurable with
    | true =>
      rw [Tile.reconfigure_of_free hstuck hrec]
      refine (Tile.reconfigure_of_free rfl rfl).trans ?_
      simp [Tile.scrubbed, List.filter_filter]
    | false =>
      have h : T.reconfigure = T := by rw [Tile.reconfigure, if_neg (by simp [hstuck]), if_neg (by simp [hrec])]
      rw [h, h]

theorem Tile.reconfigure_spec {T : Tile} (h : T.reconfigurable = true) :
    T.reconfigure.change = 2 ∧ (T.stuck = false → T.reconfigure.mode = .reconfiguring) := by
  unfold Tile.reconfigure
  by_cases hstuck : T.stuck = true
  · simp [hstuck]
  · simp [hstuck, h]

section
variable {s : State} {o : ChartOp} (now : Nat) (hop : s.chart.op = some o)
include hop

theorem completes_chartDrainComplete (hphase : o.phase = 2) (hdrained : s.drained o = true) :
    Completes (.chartDrainComplete now) s fun t =>
      (∃ p, t.chart = { s.chart with op := some { o with phase := p } } ∧ (p = 3 ∨ p = 4)) ∧
      ∀ n ∈ o.tiles, (s.tile n).reconfigurable = true → (t.tile n).change = 2 ∧
        ((s.tile n).stuck = false → (t.tile n).mode = .reconfiguring) := by
  have hx : exec (.chartDrainComplete now) s = execChartDrainComplete now s := rfl
  let w := eachOf o.tiles (fun w n => w.modTile n Tile.reconfigure) (s.at_ now)
  obtain ⟨p, hp⟩ := State.opStep_eq w (if o.retile then 2 else 1) 0 o.tiles.length
  have hcond : ¬ (o.phase ≠ 2 ∨ ¬ (s.at_ now).drained o = true) := by
    rintro (h | h)
    · exact h hphase
    · exact h hdrained
  unfold execChartDrainComplete at hx
  dsimp only at hx
  rw [show (s.at_ now).chart.op = some o from hop] at hx
  dsimp only at hx
  rw [if_neg hcond, hp] at hx
  obtain ⟨ts, hts⟩ := eachOf_modTile_eq Tile.reconfigure o.tiles (s.at_ now)
  refine .of_done hx (by rw [show w = _ from hts]; rfl) ⟨⟨if w.allDone o = true then 4 else 3, ?_, ?_⟩, fun n hn hrec => ?_⟩
  · rw [show w = _ from hts]
    rfl
  · split
    · exact .inr rfl
    · exact .inl rfl
  · have htile := eachOf_modTile_tile Tile.reconfigure_reconfigure o.tiles (s.at_ now) n
    rw [if_pos hn] at htile
    change (w.tile n).change = 2 ∧ ((s.tile n).stuck = false → (w.tile n).mode = .reconfiguring)
    rw [show w.tile n = _ from htile]
    exact Tile.reconfigure_spec hrec

theorem exec_chartDrainComplete_waits (hdrained : s.drained o = false) : exec (.chartDrainComplete now) s = .next (s.at_ now) := by
  have hx : exec (.chartDrainComplete now) s = execChartDrainComplete now s := rfl
  have hcond : o.phase ≠ 2 ∨ ¬ (s.at_ now).drained o = true := .inr (by
    rw [show (s.at_ now).drained o = s.drained o from rfl, hdrained]
    exact Bool.false_ne_true)
  unfold execChartDrainComplete at hx
  dsimp only at hx
  rw [show (s.at_ now).chart.op = some o from hop] at hx
  dsimp only at hx
  rw [if_pos hcond] at hx
  exact hx

end

/-! ### A tile that fails its load or its self-test (R70; 04, R98) -/

/-- A class A reaction of a tile leaves the chart alone. -/
theorem State.reactA_chart {s : State} {n : Nat} (hn : n < 96) (sub aux : Nat) (inj : Bool) : (s.reactA n sub aux inj).chart = s.chart := by
  have hfew : (decide (128 ≤ n) && decide (n ≤ 135) && !s.moduleOn (n - 128) &&
      decide ((s.firmwareCores.filter (· != n - 128)).length < 4)) = false := by
    simp [show ¬ 128 ≤ n by omega]
  unfold State.reactA
  dsimp only
  rw [hfew, if_neg (by simp [hasA, hn]), if_neg (by omega)]
  split
  · rfl
  · unfold State.fenceUnit
    rw [if_pos hn]
    refine (State.stopTile_ends _ n .fence).chart.trans ?_
    exact eachOf_keeps State.chart _ (fun u j => u.markInj j inj) (fun u j => by unfold State.markInj; split <;> rfl) _

theorem State.event_reload_chart (s : State) {n : Nat} (hn : n < 96) (aux : Nat) : (s.event n 0x17 aux).chart = s.chart := by
  have hd : dispOf s n 0x17 none = some .a := if_pos (by simp [hn])
  have hnoted : (s.noted n 0x17 aux true false false none).chart = s.chart := by
    rw [State.noted_eq (src := n) (sub := 0x17) rfl]
  unfold State.event
  cases hwin : s.windowOf n 0x17 aux with
  | none => rw [State.handle_of_a rfl hwin hd, State.reactA_chart hn, hnoted]
  | some r =>
    unfold State.handle
    extract_lets win d acts s1 faults safe s2
    rw [show d = .a by simp [d, hd], show win = some r from hwin]
    exact hnoted

theorem State.tileFails_spec (s : State) {n : Nat} (hn : n < 96) (reason : Nat) :
    (s.tileFails n reason true).chart = s.chart ∧ ((s.tileFails n reason true).tile n).mode = .fenced ∧
      ((s.tileFails n reason true).tile n).fence = reason := by
  unfold State.tileFails
  rw [if_pos rfl]
  refine ⟨(State.event_reload_chart _ hn _), ?_, ?_⟩ <;> rw [State.modTile_tile_same]

/-- The state apart from its tiles: what a load of microcode leaves. -/
theorem State.loadMcode_eq (s : State) (n : Nat) (c : Chart) (r : TileRec) : ∃ ts, s.loadMcode n c r = { s with tiles := ts } := ⟨_, rfl⟩

/-- A failure of a tile leaves the queue of commands as it is. -/
theorem State.tileFails_pending (s : State) (n reason : Nat) : (s.tileFails n reason true).pending = s.pending :=
  (congrArg State.pending (State.event_apart _ _ _ _ _) :)

theorem completes_tileReconfigComplete {s : State} {o : ChartOp} {n : Nat} (ok : Bool) (now : Nat) (hop : s.chart.op = some o) (hphase : o.phase = 3)
    (hn : n < 96) (htiles : o.tiles.contains n = true) (hdone : o.doneList.contains n = false) (hchange : (s.tile n).change = 2)
    (hmode : (s.tile n).mode = .reconfiguring) : Completes (.tileReconfigComplete n true ok now) s fun t =>
      (∃ p, t.chart.op = some { o with phase := p, doneList := o.doneList ++ [n], failed := if ok then o.failed else o.failed ++ [n] } ∧
        (p = 3 ∨ p = 4)) ∧
      t.chart.running = s.chart.running ∧ (ok = false → (t.tile n).mode = .fenced ∧ (t.tile n).fence = 4) := by
  have hx : exec (.tileReconfigComplete n true ok now) s = execTileReconfigComplete n true ok now s := rfl
  have hcond : ¬ (o.phase ≠ 3 ∨ ¬ o.tiles.contains n = true ∨ o.doneList.contains n = true ∨ ((s.at_ now).tile n).change ≠ 2 ∨
      ¬ (((s.at_ now).tile n).mode = .reconfiguring ∨ ((s.at_ now).tile n).stuck = true)) := by
    rintro (h | h | h | h | h)
    · exact h hphase
    · exact h htiles
    · rw [hdone] at h
      cases h
    · exact h hchange
    · exact h (.inl hmode)
  let o' : ChartOp := { o with doneList := o.doneList ++ [n], failed := if ok then o.failed else o.failed ++ [n] }
  let u := if ok then (s.at_ now).loadMcode n o.chart ((o.chart.tiles[n]?).getD ⟨0, 0xFF, 0, 0, 0xFF⟩) else s.at_ now
  obtain ⟨p, hp⟩ := u.opStep_eq (if o.retile then 2 else 1) 0 1
  have hu : u.chart = s.chart := by
    unfold u
    split <;> rfl
  have hupend : u.pending = s.pending := by
    unfold u
    split <;> rfl
  let phase := if State.allDone { u with progress := p } o' then 4 else 3
  let v : State := { u with progress := p, chart := { u.chart with op := some { o' with phase := phase } } }
  have hphase' : phase = 3 ∨ phase = 4 := by
    unfold phase
    split
    · exact .inr rfl
    · exact .inl rfl
  unfold execTileReconfigComplete at hx
  dsimp only at hx
  rw [show (s.at_ now).chart.op = some o from hop] at hx
  dsimp only at hx
  rw [if_neg hcond, Bool.true_and] at hx
  change exec (.tileReconfigComplete n true ok now) s = within (okTile n) s
    (if ok then { u.opStep (if o.retile then 2 else 1) 0 1 with chart := { (u.opStep (if o.retile then 2 else 1) 0 1).chart with
        op := some { o' with phase := if (u.opStep (if o.retile then 2 else 1) 0 1).allDone o' then 4 else 3 } } } else
      State.tileFails { u.opStep (if o.retile then 2 else 1) 0 1 with chart := { (u.opStep (if o.retile then 2 else 1) 0 1).chart with
        op := some { o' with phase := if (u.opStep (if o.retile then 2 else 1) 0 1).allDone o' then 4 else 3 } } } n 4 true) at hx
  rw [hp, within, if_pos (show okTile n = true from decide_eq_true hn)] at hx
  change exec (.tileReconfigComplete n true ok now) s = done s (if ok then v else v.tileFails n 4 true) at hx
  have hrun : v.chart.running = s.chart.running := by
    rw [← hu]
  cases ok with
  | true => exact .of_done hx hupend ⟨⟨phase, rfl, hphase'⟩, hrun, nofun⟩
  | false =>
    obtain ⟨hchart, hm, hf⟩ := v.tileFails_spec hn 4
    refine .of_done hx ((v.tileFails_pending n 4).trans hupend) ⟨⟨phase, ?_, hphase'⟩, ?_, fun _ => ⟨hm, hf⟩⟩
    · rw [if_neg Bool.false_ne_true, hchart]
    · rw [if_neg Bool.false_ne_true, hchart]
      exact hrun

/-! ### A fenced tile reloads (04, R97, R98) -/

section
variable {s : State} {n : Nat} (now : Nat) (hn : n < 96) (hreloads : s.reloads n = true) (hholds : s.opHolds n = false)
include hn hreloads hholds

theorem exec_tileReloadComplete (ok : Bool) : exec (.tileReloadComplete n true ok now) s = done s (
    if ok then
      let v := match s.chart.running, (s.tile n).asg with
        | some c, some r => (s.at_ now).loadMcode n c r
        | _, _ => s.at_ now
      if s.faults.safe.on then (v.leaveFence n).modTile n fun T => { T with mode := .fenced, fence := 0, change := 0, bySafe := true }
      else v.modTile n fun T => { T with mode := .selfTest, returning := true }
    else (s.at_ now).tileFails n (if (s.tile n).change == 2 then 4 else 2) true) := by
  have hx : exec (.tileReloadComplete n true ok now) s = execTileReloadComplete n true ok now s := rfl
  have hcond : ¬ (¬ (s.at_ now).reloads n = true ∨ (s.at_ now).opHolds n = true) := by
    rintro (h | h)
    · exact h hreloads
    · rw [show (s.at_ now).opHolds n = false from hholds] at h
      cases h
  unfold execTileReloadComplete at hx
  dsimp only at hx
  rw [if_neg hcond, within, if_pos (show okTile n = true from decide_eq_true hn), Bool.true_and] at hx
  exact hx

theorem completes_tileReloadComplete (hoff : s.faults.safe.on = false) : Completes (.tileReloadComplete n true true now) s fun t =>
    (t.tile n).mode = .selfTest ∧ (t.tile n).returning = true ∧ t = { s with time := s.time.to now, tiles := t.tiles } := by
  have hx := exec_tileReloadComplete now hn hreloads hholds true
  rw [if_pos rfl, if_neg (by simp [hoff])] at hx
  have hload : ∃ ts, (match s.chart.running, (s.tile n).asg with
      | some c, some r => (s.at_ now).loadMcode n c r
      | _, _ => s.at_ now) = { s.at_ now with tiles := ts } := by
    split
    · exact State.loadMcode_eq _ _ _ _
    · exact ⟨_, rfl⟩
  obtain ⟨ts, hts⟩ := hload
  rw [hts] at hx
  refine .of_done hx rfl ⟨?_, ?_, rfl⟩ <;> rw [State.modTile_tile_same]

theorem completes_tileReload_fails (hchange : (s.tile n).change ≠ 2) : Completes (.tileReloadComplete n true false now) s fun t =>
    (t.tile n).mode = .fenced ∧ (t.tile n).fence = 2 := by
  have hx := exec_tileReloadComplete now hn hreloads hholds false
  rw [if_neg Bool.false_ne_true, if_neg (by simpa using hchange)] at hx
  obtain ⟨-, hm, hf⟩ := (s.at_ now).tileFails_spec hn 2
  exact .of_done hx (State.tileFails_pending _ n 2) ⟨hm, hf⟩

end

/-! ### The power limit and the running image (R68; 11, R275) -/

section
variable {s : State} {j : Nat} {J : Job}

theorem completes_setPowerLimit (hturn : AdminTurn s j J 0x0022) (hoff : s.faults.safe.on = false) (h90 : 90 ≤ J.param.toNat)
    (h195 : J.param.toNat ≤ 195) (hop : s.chart.op = none) : Completes (.setPowerLimit j) s fun t =>
      t.chart = { s.chart with powerNext := some J.param.toNat, powerJobs := s.chart.powerJobs ++ [j] } ∧
      t.job? j = some { J with phase := .background } := by
  have hx : exec (.setPowerLimit j) s = done s (s.setPowerLimit j J) := adminRow_turn hturn (.inl hoff) fun s J => s.setPowerLimit j J
  obtain ⟨hJ, -⟩ := hturn
  unfold State.setPowerLimit at hx
  dsimp only at hx
  rw [if_neg (by omega), hop] at hx
  refine .of_done hx rfl ⟨rfl, ?_⟩
  exact State.modJob_job_some hJ fun J => { J with phase := .background }

theorem completes_setPowerLimit_refused (hturn : AdminTurn s j J 0x0022) (hoff : s.faults.safe.on = false)
    (h : J.param.toNat < 90 ∨ 195 < J.param.toNat) : Completes (.setPowerLimit j) s fun t => Answered t j St.malformed 0 ∧ t.chart = s.chart := by
  have hx : exec (.setPowerLimit j) s = done s (s.setPowerLimit j J) := adminRow_turn hturn (.inl hoff) fun s J => s.setPowerLimit j J
  have hans := badField_turn hturn rfl (u := s)
  unfold State.setPowerLimit at hx
  dsimp only at hx
  rw [if_pos h] at hx
  exact .of_done hx hans.pending ⟨hans.answered, hans.chart⟩

theorem completes_queryChart (hturn : AdminTurn s j J 0x0012) (hparam : J.param = 0) (hmem : s.memOf J = none)
    (hfault : s.writeFault J.dst s.chart.image.length = none) : Completes (.queryChart j) s fun t =>
      Answered t j St.ok s.chart.image.length ∧ t.hostMem = memWriteN s.hostMem J.dst s.chart.image := by
  have hx : exec (.queryChart j) s = done s (if J.param ≠ 0 then s.badField j else s.reply j J s.chart.image s.chart.image.length) :=
    adminRow_turn hturn (.inr rfl) fun s J => if J.param ≠ 0 then s.badField j else s.reply j J s.chart.image s.chart.image.length
  rw [if_neg (by simp [hparam])] at hx
  have hans := reply_turn hturn hmem hfault s.chart.image.length
  obtain ⟨o, ho⟩ := s.hostWrite_eq J.dst s.chart.image
  exact .of_done hx (hans.pending.trans (by rw [ho])) ⟨hans.answered, hans.hostMem.trans (State.hostWrite_hostMem _ _ _)⟩

end

/-- Settles O24: each command of a chart does what its lemma above says. -/
theorem chartCommandsDrainAndReconfigure : Obligations.ChartCommandsDrainAndReconfigure := by
  unfold Obligations.ChartCommandsDrainAndReconfigure
  refine ⟨?_, ?_, ?_, ?_, ?_⟩
  · intro s j J retile hturn hoff hparam
    exact ⟨fun r => completes_chart_refused hturn hoff hparam, completes_chart_accepted hturn hoff hparam⟩
  · intro s o now hop
    exact ⟨completes_chartDrainComplete now hop, fun _ => exec_chartDrainComplete_waits now hop,
      fun n ok hphase hn htiles hdone hchange => completes_tileReconfigComplete ok now hop hphase hn htiles hdone hchange⟩
  · intro s n now hn hreloads hholds hoff
    exact ⟨completes_tileReloadComplete now hn hreloads hholds hoff, completes_tileReload_fails now hn hreloads hholds⟩
  · intro s j J hturn hoff
    exact ⟨completes_setPowerLimit hturn hoff, completes_setPowerLimit_refused hturn hoff⟩
  · intro s j J hturn
    exact completes_queryChart hturn

end Sys2Proof.Machine
end


section
/-! PROOF. A tick at which a chart commits and the authority service retries a send: the retry's own job takes the number of the
chart's job where that number is the next one (12_deadlines.md R279; 13_authority_service.md R319). -/

namespace Sys2Proof.Machine

/-- A tick retries the sends of the one decision that has members left. -/
theorem State.fanoutTick_one {s : State} {d : Decision} (hdec : s.auth.decisions = [d]) (hpend : d.pending ≠ [])
    (hlate : s.helmTime < d.notAfter) (hoff : s.faults.safe.on = false) : s.fanoutTick =
      { (s.fanoutOnce d).1 with auth := { (s.fanoutOnce d).1.auth with decisions := [(s.fanoutOnce d).2] } } := by
  unfold State.fanoutTick
  rw [hdec]
  simp [hpend, Nat.not_le.2 hlate, hoff]

/-- A chart with one SYMM group, to which C7 jobs of every function are routed. -/
def symmChart : Chart :=
  { variants := 0, version := 0, id := 0, powerW := 0, roles := [], deadlines := [], tiles := [], groups := [⟨0, 5, 0, []⟩],
    mcodes := [], routes := [⟨0, 0x101, 0x80, 5, 0⟩] }

/-- The operation that commits it, on behalf of job 0. -/
def symmOp : ChartOp :=
  { job := 0, retile := true, image := [], chart := symmChart, phase := 4, tiles := [], doneList := [], failed := [] }

/-- A partner with a live session whose context is resident. -/
def livePartner : Partner :=
  { key := 0, localKey := 0, owner := 0, port := 0, flags := 0, remoteId := 0, neighbour := 0, template := 0, rport := 0, rip := [],
    groups := [], inSlot := true, session := some { num := 0, keyIn := [], keyOut := [], ivIn := [], ivOut := [] } }

/-- An order that is still to be sent to it. -/
def openDecision : Decision :=
  { orderId := 0, auditSeq := 0, reason := 0, state := 3, time := 0, pending := [0], notAfter := 2 ^ 64, fanout := 7 }

/-- The device before the tick: the command's job has number 0, and so will the next job of the device's own. -/
def committing : State := { State.reset with
  chart := { State.reset.chart with op := some symmOp },
  jobs := [(0, { opcode := 0x0010, phase := .background, cls := 7 })],
  tiles := [(0, { mode := .idle, asg := some ⟨5, 0, 1200, 0, 0⟩, mhz := 1200 })],
  partners := { State.reset.partners with table := [(0, livePartner)] }
  auth := { State.reset.auth with decisions := [openDecision] } }

/-- The same device when the tick comes to the sends. -/
def committed : State := committing.toTick.tickChart.powerTick.tickShares.partitionTick.policyTick

theorem committed_helmTime : committed.helmTime < openDecision.notAfter := by
  have htime : committed.helmTime = max 0 (10000 + Config.primNat (.image 24) [le 8 10000, le 1 4] % 9 - 4) := rfl
  have hlate : openDecision.notAfter = 2 ^ 64 := rfl
  rw [htime, hlate]
  omega

/-- After the tick job 0 is the retry's, placed. -/
theorem tick_committing_job : (match exec .tick committing with
    | .next t => (t.job? 0).map Job.phase
    | _ => none) = some .placed := by
  have hx : exec .tick committing =
      done committing (committed.fanoutTick.handoverTick.budgetTick.overflowTick.clusterTick.tetherTick.lineTick.runTick) := rfl
  rw [hx, State.fanoutTick_one rfl (List.cons_ne_nil _ _) committed_helmTime rfl]
  rfl

/-- Refutes O25: the command of a chart whose job has the number that the next job takes does not stay answered: in `committing`
the retry of a group order takes number 0 at the tick that commits the chart. -/
theorem not_tickCommitsWhatWaitsForIt : ¬ Obligations.TickCommitsWhatWaitsForIt := by
  unfold Obligations.TickCommitsWhatWaitsForIt
  intro h
  obtain ⟨t, hx, -, hcommit, -⟩ := h committing
  obtain ⟨-, -, -, -, -, -, -, hans⟩ := hcommit symmOp rfl rfl
  obtain ⟨K, hK, hended, -⟩ := hans _ rfl rfl rfl
  have hphase := tick_committing_job
  rw [hx] at hphase
  dsimp only at hphase
  rw [show t.job? 0 = some K from hK, Option.map_some, hended] at hphase
  cases hphase

end Sys2Proof.Machine
end


section
/-! PROOF. What the answer of a command can change besides it: a write that waited in front of a logbook register
(11_functions_and_sharing.md R272; 15_logbook_attestation.md R355, R361). -/

namespace Sys2Proof.Machine

/-- A staged SET_POWER_LIMIT that holds a reservation on register 0. -/
def reservingJob : Job := { opcode := 0x0022, phase := .staged, src := .ring 0, logRes := some 0 }

/-- The device in the safe state, one record short of NEAR_FULL: a roll of register 0 waits for that job alone, and PF0 masks its
vector 0. -/
def nearlyFull : State := { State.reset with
  faults := { State.reset.faults with safe := { State.reset.faults.safe with on := true } },
  jobs := [(1, reservingJob)],
  log := { State.reset.log with
    regs := [(0, { reserved := [1], barrier := [([1], .roll)] })], regionMib := 1, records := List.replicate 3839 [] },
  fns := [(0, { shares := [], mask := [0] })] }

/-- The job's end lets the roll's record be written, and NEAR_FULL pends on the masked vector. -/
theorem setPowerLimit_nearlyFull_pba : (match exec (.setPowerLimit 1) nearlyFull with
    | .next t => (t.fn 0).pba
    | _ => []) = [0] := by decide +kernel

/-- Refutes O27: a command that the safe state refuses may hold a logbook reservation, and with that returned a waiting roll writes
its record: in `nearlyFull` its event sets a pending bit of PF0. -/
theorem not_functionCommandsShareQuiesceAndQuery : ¬ Obligations.FunctionCommandsShareQuiesceAndQuery := by
  unfold Obligations.FunctionCommandsShareQuiesceAndQuery
  rintro ⟨-, -, -, -, -, -, h⟩
  have hturn : AdminTurn nearlyFull 1 reservingJob 0x0022 := ⟨rfl, rfl, rfl, rfl, rfl, rfl, rfl⟩
  obtain ⟨t, hx, -, -, hfns⟩ := h nearlyFull 1 0x0022 reservingJob (.setPowerLimit 1) rfl hturn (by simp)
  have hpba := setPowerLimit_nearlyFull_pba
  rw [hx] at hpba
  dsimp only at hpba
  rw [State.fn, hfns] at hpba
  cases hpba

end Sys2Proof.Machine
end


section
/-! PROOF. Background commands: what settles while a command on a queue waits, and the commands on queues and functions
(11_functions_and_sharing.md R257-R266, R275; 21, R471). -/

namespace Sys2Proof.Machine

/-! ### What a settling leaves of one job and one queue -/

/-- A queue apart from its pending messages. -/
def Queue.settled (Q : Queue) : Queue := { Q with pendN := 0 }

/-- In `t` the in-flight table has the heads `H`, job `j` the body `b`, and queue `q` the settled form `Q`. -/
structure Stays (j q : Nat) (H : List (Nat × JobSrc × Nat × Nat × Option (Nat × Nat))) (b : Option Job) (Q : Queue) (t : State) : Prop where
  heads : t.heads = H
  job : (t.job? j).map Job.body = b
  queue : (t.queue q).settled = Q

section
variable {j q : Nat} {H : List (Nat × JobSrc × Nat × Nat × Option (Nat × Nat))} {b : Option Job} {Q : Queue} {s t : State}

/-- The end of another job leaves them. -/
theorem Stays.endJob (h : Stays j q H b Q s) {k : Nat} (hk : k ≠ j) (status result : Nat) (ret : Bytes) :
    Stays j q H b Q (s.endJob k status result ret) where
  heads := (s.endJob_heads k status result ret).trans h.heads
  job := ((s.endJob_ends (· = k) rfl status result ret).job j (Ne.symm hk)).trans h.job
  queue := by
    rw [State.queue, State.endJob_queues, ← State.queue]
    exact h.queue

/-- So does what changes neither jobs nor queues. -/
theorem Stays.of_eq (h : Stays j q H b Q s) (hjobs : t.jobs = s.jobs) (hqueues : t.queues = s.queues) : Stays j q H b Q t where
  heads := by rw [State.heads, hjobs, ← State.heads, h.heads]
  job := by rw [State.job?_congr hjobs, h.job]
  queue := by rw [State.queue, hqueues, ← State.queue, h.queue]

theorem Stays.notifyNow (h : Stays j q H b Q s) (p : Nat) : Stays j q H b Q (s.notifyNow p) := by
  have hmod : Stays j q H b Q (s.modQueue p fun Q => { Q with pendN := 0 }) := by
    refine ⟨h.heads, h.job, ?_⟩
    rw [State.modQueue_queue]
    split
    next hp =>
      subst hp
      exact h.queue
    · exact h.queue
  have hmsix := State.msix_reports (s.modQueue p fun Q => { Q with pendN := 0 }) (s.queue p).fn (s.queue p).vector
  exact hmod.of_eq hmsix.jobs (congrArg State.queues hmsix.eq :)

theorem State.notifyNow_fnBodies (s : State) (p : Nat) : (s.notifyNow p).fnBodies = s.fnBodies := State.msix_fnBodies _ _ _

/-- The messages that a quiesce sends as it ends. -/
theorem eachOf_notify_stays (l : List Nat) (h : Stays j q H b Q s) :
    Stays j q H b Q (eachOf l (fun u p => if 0 < (u.queue p).pendN then u.notifyNow p else u) s) ∧
      (eachOf l (fun u p => if 0 < (u.queue p).pendN then u.notifyNow p else u) s).fnBodies = s.fnBodies := by
  refine ⟨?_, eachOf_keeps State.fnBodies _ _ (fun u p => ?_) s⟩
  · induction l generalizing s with
    | nil => exact h
    | cons p l ih =>
      refine ih ?_
      dsimp only
      split
      · exact h.notifyNow p
      · exact h
  · split
    · exact u.notifyNow_fnBodies p
    · rfl

/-- No quiesce completes job `j`. -/
def State.NoQuiesce (s : State) (j : Nat) : Prop := ∀ f z, (s.fn f).quiesce = some z → z.job ≠ some j

theorem State.NoQuiesce.of_fnBodies (h : s.NoQuiesce j) (hfns : t.fnBodies = s.fnBodies) : t.NoQuiesce j := fun f z hz =>
  h f z ((congrArg (fun F : Nat → Fn => (F f).quiesce) hfns :).symm.trans hz)

theorem Stays.settleQuiesce (h : Stays j q H b Q s) (hno : s.NoQuiesce j) (f : Nat) :
    Stays j q H b Q (s.settleQuiesce f) ∧ (s.settleQuiesce f).NoQuiesce j := by
  unfold State.settleQuiesce
  split
  · exact ⟨h, hno⟩
  next z hz =>
  split
  · dsimp only
    obtain ⟨hstays, hfns⟩ := eachOf_notify_stays (s.queuesOf f) h
    have hno' : State.NoQuiesce (State.modFn (eachOf (s.queuesOf f) (fun u p => if 0 < (u.queue p).pendN then u.notifyNow p else u) s) f
        fun F => { F with quiesce := none, quiesced := true }) j := by
      intro g y hy
      rw [State.modFn_fn] at hy
      split at hy
      · cases hy
      · exact hno.of_fnBodies hfns g y hy
    have hmod := hstays.of_eq (t := State.modFn _ f fun F => { F with quiesce := none, quiesced := true }) rfl rfl
    cases hjob : z.job with
    | none => exact ⟨hmod, hno'⟩
    | some k =>
      have hk : k ≠ j := fun hk => hno f z hz (hk ▸ hjob)
      exact ⟨hmod.endJob hk _ _ _, hno'.of_fnBodies (State.endJob_fnBodies _ _ _ _ _)⟩
  · exact ⟨h, hno⟩

theorem eachOf_settleQuiesce_stays (l : List Nat) (h : Stays j q H b Q s) (hno : s.NoQuiesce j) :
    Stays j q H b Q (eachOf l State.settleQuiesce s) := by
  induction l generalizing s with
  | nil => exact h
  | cons f l ih =>
    obtain ⟨h', hno'⟩ := h.settleQuiesce hno f
    exact ih h' hno'

/-- Other commands in the background wait for other queues. -/
def OthersWait (H : List (Nat × JobSrc × Nat × Nat × Option (Nat × Nat))) (j q : Nat) : Prop :=
  ∀ k src fn op p n, (k, src, fn, op, some (p, n)) ∈ H → k ≠ j → p ≠ q

theorem State.heads_mem {k : Nat} {K : Job} (hK : s.job? k = some K) : (k, K.head) ∈ s.heads :=
  List.mem_map.2 ⟨(k, K), mem_of_tget hK, rfl⟩

theorem State.leaveFence_queues (s : State) (n : Nat) : (s.leaveFence n).queues = s.queues ∧ (s.leaveFence n).jobs = s.jobs := by
  rw [State.leaveFence_eq]
  exact ⟨rfl, rfl⟩

/-- A background command of another job settles. -/
theorem Stays.settleBg (h : Stays j q H b Q s) (hothers : OthersWait H j q) {k : Nat} (hk : k ≠ j) : Stays j q H b Q (s.settleBg k) := by
  unfold State.settleBg
  split
  · exact h
  next K hK =>
  split
  next p n hbg hphase =>
    have hpq : p ≠ q := by
      have hmem := State.heads_mem hK
      rw [h.heads, Job.head, hbg] at hmem
      exact hothers k _ _ _ p n hmem hk
    have hqueue (u : State) (f : Queue → Queue) (hu : Stays j q H b Q u) : Stays j q H b Q (u.modQueue p f) := by
      refine ⟨hu.heads, hu.job, ?_⟩
      rw [State.modQueue_queue, if_neg hpq.symm]
      exact hu.queue
    split
    · split
      · have hend := h.endJob hk St.ok n []
        refine ⟨hend.heads, hend.job, ?_⟩
        have hdel : tget (tdel s.queues p) q = tget s.queues q := by
          rw [tget_tdel, if_neg hpq.symm]
        change ((tget (tdel s.queues p) q).getD {}).settled = Q
        rw [hdel]
        exact h.queue
      · dsimp only
        have hmod := (hqueue s (fun Q => { Q with mode := .enabled, reason := 0 }) h).of_eq
          (t := (s.modQueue p fun Q => { Q with mode := .enabled, reason := 0 }).modFn (s.queue p).fn fun F => { F with quiesced := false }) rfl rfl
        refine Stays.endJob ?_ hk _ _ _
        have hleave (u : State) (n : Nat) (hu : Stays j q H b Q u) : Stays j q H b Q (u.leaveFence n) :=
          hu.of_eq (u.leaveFence_queues n).2 (u.leaveFence_queues n).1
        split
        · exact hleave _ _ hmod
        · split
          · exact hleave _ _ hmod
          · exact hmod
    · exact h
  · exact h

end

/-! ### The command itself settles (R260, R261) -/

/-- Job `j` has answered OK with RESULT 0, and the settled form of queue `q` is `Q`. -/
def Concludes (j q : Nat) (H : List (Nat × JobSrc × Nat × Nat × Option (Nat × Nat))) (Q : Queue) (t : State) : Prop :=
  Answered t j St.ok 0 ∧ ∃ b, Stays j q H b Q t

section
variable {j q : Nat} {H : List (Nat × JobSrc × Nat × Nat × Option (Nat × Nat))} {b : Option Job} {B : Job} {Q R : Queue} {s t : State}

theorem answered_of_body {b : Option Job} (hs : (s.job? j).map Job.body = b) (ht : (t.job? j).map Job.body = b) {status result : Nat}
    (h : Answered s j status result) : Answered t j status result := by
  obtain ⟨K, hK, hphase, hstatus, hresult, hout⟩ := h
  rw [← hs, hK] at ht
  obtain ⟨L, hL, hbody⟩ := Option.map_eq_some_iff.1 ht
  exact ⟨L, hL, (congrArg Job.phase hbody :).trans hphase, (congrArg Job.status hbody :).trans hstatus,
    (congrArg Job.result hbody :).trans hresult, (congrArg Job.out hbody :).trans hout⟩

theorem Concludes.settleBg (h : Concludes j q H Q s) (hothers : OthersWait H j q) (k : Nat) : Concludes j q H Q (s.settleBg k) := by
  obtain ⟨hans, b, hstays⟩ := h
  by_cases hk : k = j
  · subst hk
    obtain ⟨K, hK, hphase, -⟩ := id hans
    have hsame : s.settleBg k = s := by
      unfold State.settleBg
      rcases hbg : K.bg with _ | ⟨p, n⟩ <;> simp only [hK, hphase, hbg]
    rw [hsame]
    exact ⟨hans, b, hstays⟩
  · have hstays' := hstays.settleBg hothers hk
    exact ⟨answered_of_body hstays.job hstays'.job hans, b, hstays'⟩

/-- Once the command is among those that settle, and concludes when it does, it has concluded. -/
theorem eachOf_settleBg_concludes (hothers : OthersWait H j q) (hself : ∀ u, Stays j q H b R u → Concludes j q H Q (u.settleBg j))
    (l : List Nat) (h : Concludes j q H Q s ∨ j ∈ l ∧ Stays j q H b R s) : Concludes j q H Q (eachOf l State.settleBg s) := by
  induction l generalizing s with
  | nil => exact h.resolve_right fun h => by cases h.1
  | cons k l ih =>
    refine ih ?_
    rcases h with h | ⟨hmem, h⟩
    · exact .inl (h.settleBg hothers k)
    · by_cases hk : k = j
      · subst hk
        exact .inl (hself s h)
      · exact .inr ⟨(List.mem_cons.1 hmem).resolve_left (Ne.symm hk), h.settleBg hothers hk⟩

/-- No job of the table comes from queue `q`. -/
def NoneFrom (H : List (Nat × JobSrc × Nat × Nat × Option (Nat × Nat))) (q : Nat) : Prop := ∀ e ∈ H, e.2.1 ≠ .ring q

theorem State.jobsOfQueue_eq_nil_iff : s.jobsOfQueue q = [] ↔ NoneFrom s.heads q := by
  unfold State.jobsOfQueue tkeys NoneFrom State.heads
  rw [List.map_eq_nil_iff, List.filter_eq_nil_iff, List.forall_mem_map]
  simp [Job.onQueue, Job.head]

variable (hphase : B.phase = .background) (hbg : B.bg = some (q, 0)) (hrel : B.released = 0) (hnone : NoneFrom H q)
include hphase hbg hrel hnone

/-- The command as it stands when it settles. -/
theorem Stays.command (h : Stays j q H (some B.body) R s) : ∃ K, s.job? j = some K ∧ K.phase = .background ∧ K.bg = some (q, 0) ∧
    K.opcode = B.opcode ∧ (∀ u : State, u.jobs = s.jobs → ∀ status result, Answered (u.endAdmin j status result) j status result) ∧
    (s.jobsOfQueue q).isEmpty = true := by
  obtain ⟨K, hK, hbody⟩ := Option.map_eq_some_iff.1 h.job
  have hp : K.phase = .background := (congrArg Job.phase hbody :).trans hphase
  refine ⟨K, hK, hp, (congrArg Job.bg hbody :).trans hbg, (congrArg Job.opcode hbody :), fun u hu status result => ?_, ?_⟩
  · exact State.endJob_answered ((State.job?_congr hu j).trans hK) (by simp [hp]) ((congrArg Job.released hbody :).trans hrel) _ _ _
  · rw [State.jobsOfQueue_eq_nil_iff.2 (h.heads ▸ hnone)]
    rfl

theorem Stays.settleBg_destroy (hop : B.opcode = 2) (h : Stays j q H (some B.body) R s) : Concludes j q H {} (s.settleBg j) := by
  obtain ⟨K, hK, hp, hb, ho, hans, hempty⟩ := h.command hphase hbg hrel hnone
  have hset : s.settleBg j = { (s.endAdmin j St.ok 0) with queues := tdel s.queues q } := by
    unfold State.settleBg
    simp only [hK, hb, hp]
    rw [if_pos hempty, if_pos (ho.trans hop)]
  rw [hset]
  refine ⟨hans s rfl _ _, _, (s.endJob_heads j _ _ _).trans h.heads, rfl, ?_⟩
  change ((tget (tdel s.queues q) q).getD {}).settled = {}
  rw [tget_tdel, if_pos rfl]
  rfl

theorem Stays.settleBg_enable (hop : B.opcode ≠ 2) (h : Stays j q H (some B.body) R s) :
    Concludes j q H { R with mode := .enabled, reason := 0 } (s.settleBg j) := by
  obtain ⟨K, hK, hp, hb, ho, hans, hempty⟩ := h.command hphase hbg hrel hnone
  let u := (s.modQueue q fun Q => { Q with mode := .enabled, reason := 0 }).modFn (s.queue q).fn fun F => { F with quiesced := false }
  let v := if (s.queue q).fn = 0 then u.leaveFence 161 else if (s.src 162).aux % 256 = (s.queue q).fn then u.leaveFence 162 else u
  have hv : v.queues = u.queues ∧ v.jobs = u.jobs := by
    unfold v
    split
    · exact u.leaveFence_queues 161
    · split
      · exact u.leaveFence_queues 162
      · exact ⟨rfl, rfl⟩
  have hset : s.settleBg j = v.endAdmin j St.ok 0 := by
    unfold State.settleBg
    simp only [hK, hb, hp]
    rw [if_pos hempty, if_neg (by rwa [ho])]
  rw [hset]
  refine ⟨hans v hv.2 _ _, _, ?_, rfl, ?_⟩
  · refine (v.endJob_heads j _ _ _).trans ?_
    rw [State.heads, hv.2]
    exact h.heads
  · have hqueue : (v.endAdmin j St.ok 0).queue q = { s.queue q with mode := .enabled, reason := 0 } := by
      rw [State.queue, State.endAdmin, State.endJob_queues, hv.1]
      exact State.modQueue_queue_same s q fun Q => { Q with mode := .enabled, reason := 0 }
    rw [hqueue, ← h.queue]
    rfl

end

/-- A background command on a queue without jobs concludes at once. -/
theorem State.settle_concludes {s : State} {j q : Nat} {B : Job} {Q : Queue} (hB : s.job? j = some B) (hphase : B.phase = .background)
    (hbg : B.bg = some (q, 0)) (hrel : B.released = 0) (hnone : NoneFrom s.heads q) (hothers : OthersWait s.heads j q)
    (hno : s.NoQuiesce j)
    (hself : ∀ u, Stays j q s.heads (some B.body) (s.queue q).settled u → Concludes j q s.heads Q (u.settleBg j)) :
    Concludes j q s.heads Q s.settle := by
  have h0 : Stays j q s.heads (some B.body) (s.queue q).settled s := ⟨rfl, by rw [hB]; rfl, rfl⟩
  have h1 := eachOf_settleQuiesce_stays (tkeys s.fns fun _ F => F.quiesce.isSome) h0 hno
  refine eachOf_settleBg_concludes hothers hself _ (.inr ⟨?_, h1⟩)
  obtain ⟨K, hK, -, hb, -⟩ := h1.command hphase hbg hrel hnone
  exact List.mem_map.2 ⟨(j, K), List.mem_filter.2 ⟨mem_of_tget hK, by simp [hb]⟩, rfl⟩

theorem State.settleBg_pending (s : State) (k : Nat) : (s.settleBg k).pending = s.pending := by
  have hend (u : State) (status result : Nat) : (u.endAdmin k status result).pending = u.pending :=
    (congrArg State.pending (u.endAdmin_steady k status result []) :)
  have hleave (u : State) (n : Nat) : (u.leaveFence n).pending = u.pending := by rw [State.leaveFence_eq]
  unfold State.settleBg
  split
  · rfl
  split
  · split
    · split
      · exact hend s _ _
      · dsimp only
        rw [hend]
        split
        · exact hleave _ _
        · split
          · exact hleave _ _
          · rfl
    · rfl
  · rfl

theorem State.settle_pending (s : State) : s.settle.pending = s.pending :=
  (eachOf_keeps State.pending _ _ State.settleBg_pending _).trans
    (eachOf_keeps State.pending _ State.settleQuiesce (fun u f => (congrArg State.pending (u.settleQuiesce_steady f) :)) s)

/-! ### CREATE_QUEUE (R258, R259) -/

section
variable {s : State} {j : Nat} {J : Job}

/-- A command that answers in a state that only its queues set apart. -/
theorem Completes.of_answers {c : Instr} {u t : State} {status result : Nat} (hx : exec c s = done s t) (hu : u.pending = s.pending)
    (hans : Answers j status result u t) {P : State → Prop} (hP : Answers j status result u t → P t) : Completes c s P :=
  .of_done hx (hans.pending.trans hu) (hP hans)

section
variable {q n : Nat} (hturn : AdminTurn s j J 0x0001) (hoff : s.faults.safe.on = false) (hparam : J.param = 0)
  (hok : createOk J.input J.fn = true) (hfree : s.freeQueue = some q) (hlocal : (if J.fn = 0 then some q else s.freeLocal J.fn) = some n)
include hturn hoff hparam hok hfree hlocal

theorem exec_createQueue : exec (.createQueue j) s = done s (
    if (s.fn J.fn).maxQueues ≤ ((s.queuesOf J.fn).filter fun q => 256 ≤ q && q < 4096).length then s.endAdmin j St.queueLimit 0
    else if bitOf (leAt J.input 18 2) 1 ∧ ¬ (s.fn J.fn).safety then s.deny j 0x0106
    else if bitOf (leAt J.input 18 2) 2 ∧ ¬ s.host.cache then s.deny j 0x0107
    else (s.modQueue q fun _ => newQueue J.input J.fn q n).endAdmin j St.ok (q + n * 2 ^ 16)) := by
  refine (adminRow_turn hturn (.inl hoff) fun s J => s.createQueue j J).trans ?_
  unfold State.createQueue
  dsimp only
  rw [if_neg (by simp [hparam, hok]), hfree]
  by_cases hf : J.fn = 0
  · rw [if_pos hf] at hlocal
    cases hlocal
    simp only [hf, if_true]
    rfl
  · rw [if_neg hf] at hlocal
    rw [if_neg hf, hlocal]
    dsimp only
    rw [if_neg hf]

theorem completes_createQueue :
    let held := ((s.queuesOf J.fn).filter fun q => 256 ≤ q && q < 4096).length
    let Q := newQueue J.input J.fn q n
    256 ≤ q ∧ q < 4096 ∧ (s.queue q).mode = .absent ∧ (∀ p, 256 ≤ p → p < q → (s.queue p).mode ≠ .absent) ∧
    ((s.fn J.fn).maxQueues ≤ held → Completes (.createQueue j) s fun t => Answered t j St.queueLimit 0 ∧ t.queues = s.queues) ∧
    (held < (s.fn J.fn).maxQueues → (Q.safety = true → (s.fn J.fn).safety = true) → (Q.poll = true → s.host.cache = true) →
      Completes (.createQueue j) s fun t => Answered t j St.ok (q + n * 2 ^ 16) ∧ t.queue q = Q ∧ Q.mode = .enabled ∧
        Q.sqHead = 0 ∧ Q.sqTail = 0 ∧ Q.cqHead = 0 ∧ Q.cqTail = 0 ∧ ∀ p, p ≠ q → t.queue p = s.queue p) ∧
    (held < (s.fn J.fn).maxQueues → Q.safety = true → (s.fn J.fn).safety = false → Completes (.createQueue j) s fun t =>
      Answered t j St.policyDeny 0x0106 ∧ t.queues = s.queues) := by
  intro held Q
  have hx := exec_createQueue hturn hoff hparam hok hfree hlocal
  obtain ⟨hlo, hhi, hunused, hbelow⟩ := lowestFree_eq_some hfree
  refine ⟨hlo, hhi, by simpa using hunused, fun p hp hpq => by simpa using hbelow p hp hpq, fun hfull => ?_, fun hroom hsafety hpoll => ?_,
    fun hroom hsafety hunsafe => ?_⟩
  · rw [if_pos hfull] at hx
    have hans := endAdmin_turn hturn (u := s) rfl St.queueLimit 0 []
    exact .of_done hx hans.pending ⟨hans.answered, hans.queues⟩
  · have h1 : ¬ (bitOf (leAt J.input 18 2) 1 = true ∧ ¬ (s.fn J.fn).safety = true) := fun h => h.2 (hsafety h.1)
    have h2 : ¬ (bitOf (leAt J.input 18 2) 2 = true ∧ ¬ s.host.cache = true) := fun h => h.2 (hpoll h.1)
    rw [if_neg (Nat.not_le.2 hroom), if_neg h1, if_neg h2] at hx
    have hans := endAdmin_turn hturn (u := s.modQueue q fun _ => Q) rfl St.ok (q + n * 2 ^ 16) []
    have hqueue (p : Nat) : State.queue ((s.modQueue q fun _ => Q).endAdmin j St.ok (q + n * 2 ^ 16)) p = if p = q then Q else s.queue p := by
      rw [State.queue, hans.queues, ← State.queue, State.modQueue_queue]
    refine .of_done hx hans.pending ⟨hans.answered, ?_, rfl, rfl, rfl, rfl, rfl, fun p hp => ?_⟩
    · rw [hqueue, if_pos rfl]
    · rw [hqueue, if_neg hp]
  · rw [if_neg (Nat.not_le.2 hroom), if_pos ⟨hsafety, by simp [hunsafe]⟩] at hx
    have hans := deny_turn hturn (u := s) rfl 0x0106
    exact .of_done hx hans.pending ⟨hans.answered, hans.queues⟩

end

/-! ### DESTROY_QUEUE (R260) -/

/-- A job that begins to wait in the background, on a queue that nothing waits for yet. -/
theorem othersWait_of_not_busy {q : Nat} (hbusy : s.queueBusy q = false) (f : Job → Job) :
    OthersWait (s.modJob j f).heads j q := by
  intro k src fn op p n hmem hk hpq
  subst hpq
  obtain ⟨⟨k', K⟩, hK, heq⟩ := List.mem_map.1 hmem
  obtain ⟨⟨k₀, K₀⟩, hK₀, heq₀⟩ := List.mem_map.1 hK
  have hfalse := (List.any_eq_false.1 hbusy) _ hK₀
  dsimp only at heq₀ hfalse
  split at heq₀
  next hkj =>
    cases heq₀
    simp only [Prod.mk.injEq] at heq
    exact hk (heq.1.symm.trans hkj)
  · cases heq₀
    simp only [Job.head, Prod.mk.injEq] at heq
    obtain ⟨-, -, -, -, hbg⟩ := heq
    rw [hbg] at hfalse
    simp at hfalse

theorem noneFrom_modJob {q : Nat} (h : s.jobsOfQueue q = []) {f : Job → Job} (hf : ∀ J, (f J).src = J.src) :
    NoneFrom (s.modJob j f).heads q := by
  have hnone := State.jobsOfQueue_eq_nil_iff.1 h
  intro e he
  obtain ⟨⟨k, K⟩, hK, rfl⟩ := List.mem_map.1 he
  obtain ⟨⟨k₀, K₀⟩, hK₀, heq⟩ := List.mem_map.1 hK
  have hsrc : K.src = K₀.src := by
    dsimp only at heq
    split at heq <;> cases heq
    · exact hf K₀
    · rfl
  change K.src ≠ _
  rw [hsrc]
  exact hnone _ (List.mem_map.2 ⟨_, hK₀, rfl⟩)

section
variable (hturn : AdminTurn s j J 0x0002) (hoff : s.faults.safe.on = false) (hparam : J.param.toNat < 4096)
include hturn hoff hparam

theorem exec_destroyQueue : exec (.destroyQueue j) s = done s (match s.addressed J.fn J.param.toNat with
    | none => s.deny j 0x0102
    | some q =>
      if q < 256 then s.deny j 0x0108
      else if s.queueBusy q then s.deny j 0x0103
      else ((s.modJob j fun J => { J with phase := .background, bg := some (q, 0) }).endQueue q).settle) := by
  refine (adminRow_turn hturn (.inl hoff) fun s J => s.destroyQueue j J).trans ?_
  unfold State.destroyQueue
  exact congrArg (done s) (if_neg (by omega))

theorem completes_destroyQueue_denied {r : Nat} (h : s.addressed J.fn J.param.toNat = none ∧ r = 0x0102 ∨
      ∃ q, s.addressed J.fn J.param.toNat = some q ∧ (q < 256 ∧ r = 0x0108 ∨ 256 ≤ q ∧ s.queueBusy q = true ∧ r = 0x0103)) :
    Completes (.destroyQueue j) s fun t => Answered t j St.policyDeny r ∧ t.queues = s.queues := by
  have hx := exec_destroyQueue hturn hoff hparam
  have hans := deny_turn hturn (u := s) rfl r
  refine .of_done (t := s.deny j r) ?_ hans.pending ⟨hans.answered, hans.queues⟩
  rcases h with ⟨hnone, rfl⟩ | ⟨q, hq, ⟨hlt, rfl⟩ | ⟨hge, hbusy, rfl⟩⟩
  · rw [hx, hnone]
  · rw [hx, hq]
    dsimp only
    rw [if_pos hlt]
  · rw [hx, hq]
    dsimp only
    rw [if_neg (by omega), if_pos hbusy]

theorem completes_destroyQueue {q : Nat} (hq : s.addressed J.fn J.param.toNat = some q) (hge : 256 ≤ q) (hbusy : s.queueBusy q = false)
    (hnone : s.jobsOfQueue q = []) (hno : ∀ f z, (s.fn f).quiesce = some z → z.job ≠ some j) :
    Completes (.destroyQueue j) s fun t => Answered t j St.ok 0 ∧ (t.queue q).mode = .absent := by
  have hx := exec_destroyQueue hturn hoff hparam
  rw [hq] at hx
  dsimp only at hx
  rw [if_neg (by omega), if_neg (by simp [hbusy])] at hx
  obtain ⟨hJ, hop, hphase, -, -, hrel, -⟩ := hturn
  let f : Job → Job := fun J => { J with phase := .background, bg := some (q, 0) }
  let u := (s.modJob j f).modQueue q fun Q => { Q with mode := .quiescing, armed := false, cqWait := false, cache := [] }
  have hfrom : NoneFrom u.heads q := noneFrom_modJob hnone fun _ => rfl
  have hend : (s.modJob j f).endQueue q = u := by
    unfold State.endQueue
    dsimp only
    rw [show State.jobsOfQueue u q = [] from State.jobsOfQueue_eq_nil_iff.2 hfrom]
    rfl
  rw [hend] at hx
  have hconc : Concludes j q u.heads {} u.settle :=
    State.settle_concludes (B := f J) (State.modJob_job_some hJ f) rfl rfl hrel hfrom (othersWait_of_not_busy hbusy f) hno
      fun v hv => Stays.settleBg_destroy (B := f J) rfl rfl hrel hfrom hop hv
  obtain ⟨hans, b, hstays⟩ := hconc
  exact .of_done hx (State.settle_pending u) ⟨hans, (congrArg Queue.mode hstays.queue :)⟩

end

/-! ### ENABLE_QUEUE (R261) -/

/-- The parameter of ENABLE_QUEUE for queue `q`, with or without a new head. -/
theorem enableParam_fields {p q h : Nat} {jump : Bool} (hq : q < 4096) (hh : h < 2 ^ 32)
    (hp : p = q + 2 ^ 16 * jump.toNat + 2 ^ 32 * (if jump then h else 0)) :
    bitsOf p 11 0 = q ∧ bitsOf p 15 12 = 0 ∧ bitsOf p 31 17 = 0 ∧ bitOf p 16 = jump ∧ bitsOf p 63 32 = if jump then h else 0 := by
  subst hp
  simp only [bitsOf, bitOf, Nat.shiftRight_eq_div_pow]
  cases jump <;> simp <;> omega

/-- Queue `q` with a new head where the command gives one. -/
def State.headed (s : State) (q : Nat) (jump : Bool) (head : BitVec 32) : State :=
  if jump then s.modQueue q fun Q => { Q with sqHead := head, skip := false, cache := [] } else s

theorem State.headed_rest (s : State) (q : Nat) (jump : Bool) (head : BitVec 32) :
    (s.headed q jump head).jobs = s.jobs ∧ (s.headed q jump head).fns = s.fns ∧ (s.headed q jump head).pending = s.pending := by
  cases jump <;> exact ⟨rfl, rfl, rfl⟩

theorem State.headed_queue (s : State) (q : Nat) (jump : Bool) (head : BitVec 32) :
    ((s.headed q jump head).queue q).sqHead = (if jump then head else (s.queue q).sqHead) ∧
      ((s.headed q jump head).queue q).sqTail = (s.queue q).sqTail := by
  cases jump with
  | true =>
    have h := s.modQueue_queue_same q fun Q => { Q with sqHead := head, skip := false, cache := [] }
    exact ⟨(congrArg Queue.sqHead h :), (congrArg Queue.sqTail h :)⟩
  | false => exact ⟨rfl, rfl⟩

/-- ENABLE_QUEUE waiting in the background for a queue without jobs concludes at once. -/
theorem State.settle_enables {v : State} {q : Nat} (hJ : v.job? j = some J) (hop : J.opcode = 3) (hrel : J.released = 0)
    (hbusy : v.queueBusy q = false) (hnone : v.jobsOfQueue q = []) (hno : v.NoQuiesce j) :
    let w := v.modJob j fun J => { J with phase := .background, bg := some (q, 0) }
    Concludes j q w.heads { (v.queue q).settled with mode := .enabled, reason := 0 } w.settle := by
  intro w
  let B : Job := { J with phase := .background, bg := some (q, 0) }
  have hfrom : NoneFrom w.heads q := noneFrom_modJob hnone fun _ => rfl
  have hB : w.job? j = some B := State.modJob_job_some hJ _
  have hother : B.opcode ≠ 2 := by
    rw [show B.opcode = 3 from hop]
    decide
  exact State.settle_concludes hB rfl rfl hrel hfrom (othersWait_of_not_busy hbusy _) hno
    fun u hu => Stays.settleBg_enable (B := B) rfl rfl hrel hfrom hother hu

section
variable {q : Nat} {jump : Bool} {head : BitVec 32} (hturn : AdminTurn s j J 0x0003) (hoff : s.faults.safe.on = false) (hq : q < 4096)
  (hparam : J.param.toNat = q + 2 ^ 16 * jump.toNat + 2 ^ 32 * (if jump then head.toNat else 0))
include hturn hoff hq hparam

theorem exec_enableQueue (habsent : (s.queue q).mode ≠ .absent) : exec (.enableQueue j) s = done s (
    if (s.queue q).mode ≠ .fenced ∧ (s.queue q).mode ≠ .quiescing then s.deny j 0x0108
    else if s.queueBusy q then s.deny j 0x0103
    else if jump ∧ diff32 (s.queue q).sqTail (s.queue q).sqHead < diff32 head (s.queue q).sqHead then s.badField j
    else ((s.headed q jump head).modJob j fun J =>
      { J with phase := .background, bg := some (q, 0) }).settle) := by
  refine (adminRow_turn hturn (.inl hoff) fun s J => s.enableQueue j J).trans ?_
  obtain ⟨h1, h2, h3, h4, h5⟩ := enableParam_fields hq head.isLt hparam
  unfold State.enableQueue
  dsimp only
  rw [h1, h2, h3, h4, h5, if_neg (by cases jump <;> simp), if_neg habsent]
  cases jump <;> simp [State.headed]

theorem completes_enableQueue_denied (hmode : (s.queue q).mode = .enabled ∨ (s.queue q).mode = .halted) :
    Completes (.enableQueue j) s fun t => Answered t j St.policyDeny 0x0108 ∧ t.queues = s.queues := by
  have hx := exec_enableQueue hturn hoff hq hparam (by rcases hmode with h | h <;> simp [h])
  rw [if_pos (by rcases hmode with h | h <;> simp [h])] at hx
  have hans := deny_turn hturn (u := s) rfl 0x0108
  exact .of_done hx hans.pending ⟨hans.answered, hans.queues⟩

variable (hmode : (s.queue q).mode = .fenced ∨ (s.queue q).mode = .quiescing) (hbusy : s.queueBusy q = false)
include hmode hbusy

theorem completes_enableQueue_malformed (hjump : jump = true)
    (hlap : ((s.queue q).sqTail - (s.queue q).sqHead).toNat < (head - (s.queue q).sqHead).toNat) :
    Completes (.enableQueue j) s fun t => Answered t j St.malformed 0 ∧ t.queues = s.queues := by
  have hx := exec_enableQueue hturn hoff hq hparam (by rcases hmode with h | h <;> simp [h])
  rw [if_neg (by tauto), if_neg (by simp [hbusy]), if_pos ⟨hjump, hlap⟩] at hx
  have hans := badField_turn hturn (u := s) rfl
  exact .of_done hx hans.pending ⟨hans.answered, hans.queues⟩

theorem completes_enableQueue
    (hlap : jump = true → (head - (s.queue q).sqHead).toNat ≤ ((s.queue q).sqTail - (s.queue q).sqHead).toNat)
    (hnone : s.jobsOfQueue q = []) (hno : ∀ f z, (s.fn f).quiesce = some z → z.job ≠ some j) :
    Completes (.enableQueue j) s fun t => Answered t j St.ok 0 ∧ (t.queue q).mode = .enabled ∧
      (t.queue q).sqHead = (if jump then head else (s.queue q).sqHead) ∧ (t.queue q).sqTail = (s.queue q).sqTail := by
  have hx := exec_enableQueue hturn hoff hq hparam (by rcases hmode with h | h <;> simp [h])
  have hnolap : ¬ (jump = true ∧ diff32 (s.queue q).sqTail (s.queue q).sqHead < diff32 head (s.queue q).sqHead) :=
    fun h => absurd h.2 (Nat.not_lt.2 (hlap h.1))
  rw [if_neg (by tauto), if_neg (by simp [hbusy]), if_neg hnolap] at hx
  obtain ⟨hJ, hop, -, -, -, hrel, -⟩ := hturn
  obtain ⟨hjobs, hfns, hpend⟩ := s.headed_rest q jump head
  obtain ⟨hhead, htail⟩ := s.headed_queue q jump head
  change exec _ s = done s (State.settle (State.modJob (s.headed q jump head) j _)) at hx
  generalize s.headed q jump head = v at hjobs hfns hpend hhead htail hx
  obtain ⟨hans, b, hstays⟩ := State.settle_enables ((State.job?_congr hjobs j).trans hJ) hop hrel
    (by rwa [State.queueBusy, hjobs, ← State.queueBusy]) (by rwa [State.jobsOfQueue, hjobs, ← State.jobsOfQueue])
    (fun g z hz => hno g z (by rwa [State.fn, ← hfns]))
  refine .of_done hx ((State.settle_pending _).trans hpend) ⟨hans, (congrArg Queue.mode hstays.queue :), ?_, ?_⟩
  · exact (congrArg Queue.sqHead hstays.queue :).trans hhead
  · exact (congrArg Queue.sqTail hstays.queue :).trans htail

end

end

end Sys2Proof.Machine
end


section
/-! PROOF. The commands on a function, and the claim about queue commands (11_functions_and_sharing.md R253-R266, R275; 21, R471). -/

namespace Sys2Proof.Machine

/-! ### What a quiesce waits for (R266) -/

/-- The entry at an index of a table whose values have been mapped. -/
theorem tget_mapValues {α β : Type} (t : Table α) (g : α → β) (k : Nat) : tget (t.map fun e => (e.1, g e.2)) k = (tget t k).map g := by
  induction t with
  | nil => rfl
  | cons e t ih =>
    obtain ⟨i, v⟩ := e
    simp only [List.map_cons, tget]
    split
    · rfl
    · exact ih

/-- The jobs that a quiesce waits for depend on the heads of the in-flight table alone. -/
theorem State.quiesceLeft_congr {s t : State} (h : t.heads = s.heads) (f : Nat) : t.quiesceLeft f = s.quiesceLeft f := by
  have hkeys (u : State) : u.quiesceLeft f = ((u.heads.filter fun e => e.2.2.1 == f && e.2.1 != .internal).map (·.1)).filter fun j =>
      match tget u.heads j with
      | some e => match e.1 with
        | .ring q => !(f == 0 && q == 0)
        | .internal => false
      | none => false := by
    have hlist : u.jobsOfFn f = (u.heads.filter fun e => e.2.2.1 == f && e.2.1 != .internal).map (·.1) := by
      unfold State.jobsOfFn tkeys State.heads
      rw [List.filter_map, List.map_map]
      rfl
    have hjob (j : Nat) : tget u.heads j = (u.job? j).map Job.head := tget_mapValues u.jobs Job.head j
    unfold State.quiesceLeft
    rw [hlist]
    congr 1
    funext j
    rw [hjob]
    cases u.job? j with
    | none => rfl
    | some J => rfl
  rw [hkeys, hkeys, h]

theorem State.abandonChain_heads (s : State) (j : Nat) : (s.abandonChain j).heads = s.heads := by
  unfold State.abandonChain
  split
  · split
    · split
      · exact s.endJob_heads j _ _ _
      · rfl
    · rfl
  · rfl

theorem State.stopJob_heads (s : State) (j : Nat) (req : Request) : (s.stopJob j req).heads = s.heads := by
  unfold State.stopJob
  split
  · rfl
  · split
    · rfl
    · split
      · exact s.abandonChain_heads j
      · split
        · exact s.modJob_heads j fun _ => rfl
        · exact s.endJob_heads j _ _ _

/-- What a quiesce does to one job of its function. -/
def State.quiesceJob (abort : Bool) (s : State) (j : Nat) : State :=
  match s.job? j with
  | none => s
  | some J =>
    if s.openChainOf J = some j then s.abandonChain j
    else if abort || (J.accepted.isSome && J.cls == 7) then s.abortJob j
    else s

theorem State.quiesceJob_ends (abort : Bool) (s : State) (j : Nat) :
    Ends (· = j) s (s.quiesceJob abort j) ∧ (s.quiesceJob abort j).heads = s.heads := by
  unfold State.quiesceJob
  split
  · exact ⟨.refl _ s, rfl⟩
  · split
    · exact ⟨s.abandonChain_ends (· = j) rfl, s.abandonChain_heads j⟩
    · split
      · exact ⟨s.stopJob_ends (· = j) rfl .abort, s.stopJob_heads j .abort⟩
      · exact ⟨.refl _ s, rfl⟩

theorem State.quiesce_spec (s : State) (f : Nat) (abort : Bool) (j : Nat) :
    ∃ u : State, s.quiesce f abort (some j) = u.modFn f (fun F => { F with quiesce := some { job := some j, abort := abort } }) ∧
      (u.job? j).map Job.body = (s.job? j).map Job.body ∧ u.heads = s.heads ∧ u.pending = s.pending := by
  unfold State.quiesce
  extract_lets qs t js v w
  have ht : t.jobs = s.jobs := eachOf_keeps State.jobs qs (fun u q => u.modQueue q _) (fun u q => rfl) s
  have htp : t.pending = s.pending := eachOf_keeps State.pending qs (fun u q => u.modQueue q _) (fun u q => rfl) s
  have hothers (k : Nat) (hk : k ∈ js) : k ≠ j := by
    have hp := (List.mem_filter.1 hk).2
    rintro rfl
    split at hp
    · simp at hp
    · cases hp
  have hends : Ends (· ≠ j) t v := Ends.each js (State.quiesceJob abort)
    (fun u k hk => (u.quiesceJob_ends abort k).1.mono fun i hi => hi ▸ hothers k hk) t
  have hheads : v.heads = t.heads := eachOf_keeps State.heads js (State.quiesceJob abort) (fun u k => (u.quiesceJob_ends abort k).2) t
  refine ⟨w, rfl, ?_, ?_, ?_⟩
  · exact (hends.job j fun h => h rfl).trans (congrArg (Option.map Job.body) (State.job?_congr ht j))
  · exact hheads.trans (by rw [State.heads, ht, ← State.heads])
  · exact (congrArg State.pending hends.steady :).trans htp

/-- A quiesce that waits for nothing ends at once, and its command answers. -/
theorem State.settleQuiesce_answers {u : State} {f j : Nat} {abort : Bool} {K : Job}
    (hz : (u.fn f).quiesce = some { job := some j, abort := abort }) (hleft : u.quiesceLeft f = []) (hK : u.job? j = some K)
    (hlive : ¬ (K.phase = .ended ∨ K.phase = .delayed)) (hrel : K.released = 0) :
    Answered (u.settleQuiesce f) j St.ok 0 ∧ ((u.settleQuiesce f).fn f).quiesced = true := by
  have hstays : Stays j 0 u.heads ((u.job? j).map Job.body) (u.queue 0).settled u := ⟨rfl, rfl, rfl⟩
  have hnote := (eachOf_notify_stays (u.queuesOf f) hstays).1.job
  unfold State.settleQuiesce
  simp only [hz]
  rw [if_pos (by simp [hleft])]
  generalize eachOf (u.queuesOf f) _ u = v at hnote ⊢
  rw [hK] at hnote
  obtain ⟨L, hL, hbody⟩ := Option.map_eq_some_iff.1 hnote
  have hphase : L.phase = K.phase := (congrArg Job.phase hbody :)
  have hans := State.endJob_answers (s := v.modFn f fun F => { F with quiesce := none, quiesced := true }) (j := j) hL
    (by rwa [hphase]) ((congrArg Job.released hbody :).trans hrel) St.ok 0 []
  refine ⟨hans.answered, ?_⟩
  have hfn := congrArg (fun F : Nat → Fn => (F f).quiesced) hans.fns
  exact hfn.trans (congrArg Fn.quiesced (v.modFn_fn_same f fun F => { F with quiesce := none, quiesced := true }))

/-! ### The commands on a function (R263-R266, R275, R471) -/

/-- The parameter of a command that names a function and an option. -/
theorem fnParam_fields {p f : Nat} {b : Bool} (hf : f < 0x100) (hp : p = f + 2 ^ 16 * b.toNat) :
    bitsOf p 63 17 = 0 ∧ bitsOf p 15 0 = f ∧ bitOf p 16 = b := by
  subst hp
  simp only [bitsOf, bitOf, Nat.shiftRight_eq_div_pow]
  cases b <;> simp <;> omega

section
variable {s : State} {j f : Nat} {J : Job} {b : Bool}

theorem completes_setShare (hturn : AdminTurn s j J 0x0004) (hoff : s.faults.safe.on = false) (hexists : s.fnExists f = true)
    (hparam : J.param = 0) (hok : shareOk J.input = true) (hf : leAt J.input 0 2 = f) (hquiet : (s.fn f).quiesce = none)
    (hflr : (s.fn f).flrJobs = []) (hover : s.shareOver f (shareEntries J.input) = false) :
    Completes (.setShare j) s fun t => t.job? j = some { J with phase := .background } ∧
      ∃ c, (t.fn f).change = some c ∧ c.shares = shareEntries J.input ∧ j ∈ c.jobs := by
  have hx := adminRow_turn hturn (.inl hoff) fun s J => s.setShare j J
  change exec (.setShare j) s = _ at hx
  unfold State.setShare at hx
  dsimp only at hx
  rw [hf, if_neg (by simp [hparam, hok]), if_neg (by simp [hexists]), if_neg (by simp [hquiet, hflr]), if_neg (by simp [hover])] at hx
  refine .of_done hx rfl ⟨State.modJob_job_some hturn.1 fun J => { J with phase := .background }, _, (congrArg Fn.change (State.modFn_fn_same _ f fun F => { F with change := _ }) :),
    rfl, List.mem_append_right _ (List.mem_singleton_self j)⟩

theorem completes_quiesceFunction (hturn : AdminTurn s j J 0x0005) (hoff : s.faults.safe.on = false) (hexists : s.fnExists f = true)
    (hf : f < 0x100) (hparam : J.param.toNat = f + 2 ^ 16 * b.toNat) (hbusy : s.fnBusy f = false) (hleft : s.quiesceLeft f = []) :
    Completes (.quiesceFunction j) s fun t => Answered t j St.ok 0 ∧ (t.fn f).quiesced = true := by
  have hx := adminRow_turn hturn (.inl hoff) fun s J => s.quiesceFunction j J
  change exec (.quiesceFunction j) s = _ at hx
  obtain ⟨hhigh, hlow, hbit⟩ := fnParam_fields hf hparam
  unfold State.quiesceFunction at hx
  dsimp only at hx
  rw [hhigh, hlow, hbit, if_neg (by simp), if_neg (by simp [hexists, hf]), if_neg (by simp [hbusy])] at hx
  obtain ⟨u, hu, hjob, hheads, hpend⟩ := (s.modJob j fun J => { J with phase := .background }).quiesce_spec f b j
  rw [hu] at hx
  rw [State.modJob_job_some hturn.1] at hjob
  obtain ⟨K, hK, hbody⟩ := Option.map_eq_some_iff.1 hjob
  have hphase : K.phase = .background := (congrArg Job.phase hbody :)
  have hrel : K.released = J.released := (congrArg Job.released hbody :)
  have hleft' : State.quiesceLeft (u.modFn f fun F => { F with quiesce := some { job := some j, abort := b } }) f = [] :=
    (State.quiesceLeft_congr (s := s) (hheads.trans (s.modJob_heads j fun _ => rfl)) f).trans hleft
  have hpend' : (u.modFn f fun F => { F with quiesce := some { job := some j, abort := b } }).pending = s.pending := hpend
  have hz := congrArg Fn.quiesce (u.modFn_fn_same f fun F => { F with quiesce := some { job := some j, abort := b } })
  obtain ⟨hans, hdone⟩ := State.settleQuiesce_answers hz hleft' (j := j) hK (by simp [hphase]) (hrel.trans hturn.2.2.2.2.2.1)
  exact .of_done hx ((congrArg State.pending (State.settleQuiesce_steady _ f) :).trans hpend') ⟨hans, hdone⟩

theorem State.fnBlock_length (s : State) (f : Nat) : (s.fnBlock f).length = 96 := by
  simp [State.fnBlock, List.length_flatMap]

theorem completes_queryFunction (hturn : AdminTurn s j J 0x0006) (hexists : s.fnExists f = true)
    (hf : f < 0x100) (hparam : J.param.toNat = f) (hown : J.fn = 0 ∨ J.fn = f) (hmem : s.memOf J = none)
    (hfault : s.writeFault J.dst 96 = none) :
    Completes (.queryFunction j) s fun t => Answered t j St.ok 0 ∧ t.hostMem = memWriteN s.hostMem J.dst (s.fnBlock f) := by
  have hx := adminRow_turn hturn (.inr rfl) fun s J => s.queryFunction j J
  change exec (.queryFunction j) s = _ at hx
  unfold State.queryFunction at hx
  dsimp only at hx
  rw [hparam, if_neg (by omega), if_neg (by rintro ⟨h0, h1⟩; rcases hown with h | h <;> omega), if_neg (by simp [hexists])] at hx
  have hans := reply_turn hturn hmem (block := s.fnBlock f) (by rwa [s.fnBlock_length]) 0
  have hpend : (s.hostWrite J.dst (s.fnBlock f)).pending = s.pending := by
    obtain ⟨o, ho⟩ := s.hostWrite_eq J.dst (s.fnBlock f)
    rw [ho]
  exact .of_done hx (hans.pending.trans hpend) ⟨hans.answered, hans.hostMem.trans (s.hostWrite_hostMem _ _)⟩

theorem State.progressBlock_length (s : State) (op pos total state : Nat) : (s.progressBlock op pos total state).length = 32 := by
  simp [State.progressBlock]

theorem completes_queryProgress (hturn : AdminTurn s j J 0x0021) (hparam : J.param.toNat < 0x40) (hfn : J.fn = 0)
    (hmem : s.memOf J = none) (hfault : s.writeFault J.dst 32 = none) :
    Completes (.queryProgress j) s fun t => Answered t j St.ok 0 := by
  have hx := adminRow_turn hturn (.inr rfl) fun s J => s.queryProgress j J
  change exec (.queryProgress j) s = _ at hx
  have hlow : bitsOf J.param.toNat 15 0 = J.param.toNat := by
    simp only [bitsOf, Nat.shiftRight_eq_div_pow]
    simp
    omega
  have hhigh : bitsOf J.param.toNat 63 16 = 0 := by
    simp only [bitsOf, Nat.shiftRight_eq_div_pow]
    simp
    omega
  have hreply (pos total state : Nat) : Answers j St.ok 0 (s.hostWrite J.dst (s.progressBlock J.param.toNat pos total state))
      (s.reply j J (s.progressBlock J.param.toNat pos total state) 0) :=
    reply_turn hturn hmem (by rwa [State.progressBlock_length]) 0
  have hdone (pos total state : Nat) (h : exec (.queryProgress j) s = done s (s.reply j J (s.progressBlock J.param.toNat pos total state) 0)) :
      Completes (.queryProgress j) s fun t => Answered t j St.ok 0 := by
    obtain ⟨o, ho⟩ := s.hostWrite_eq J.dst (s.progressBlock J.param.toNat pos total state)
    exact .of_done h ((hreply pos total state).pending.trans (by rw [ho])) (hreply pos total state).answered
  unfold State.queryProgress at hx
  dsimp only at hx
  rw [hlow, hhigh, if_neg (by omega), if_neg (by simp), if_neg (by simp [hfn])] at hx
  split at hx
  · exact hdone _ _ _ hx
  · exact hdone _ _ _ hx

theorem completes_setPerturbation (hturn : AdminTurn s j J 0x0023) (hoff : s.faults.safe.on = false) (hexists : s.fnExists f = true)
    (hf : f < 0x100) (hparam : J.param.toNat = f + 2 ^ 16 * b.toNat) :
    Completes (.setPerturbation j) s fun t => Answered t j St.ok 0 ∧ (t.fn f).pertNext = some b := by
  have hx := adminRow_turn hturn (.inl hoff) fun s J => s.setPerturbation j J
  change exec (.setPerturbation j) s = _ at hx
  obtain ⟨hhigh, hlow, hbit⟩ := fnParam_fields hf hparam
  unfold State.setPerturbation at hx
  dsimp only at hx
  rw [hhigh, hlow, hbit, if_neg (by simp), if_neg (by simp [hexists, hf])] at hx
  have hans := endAdmin_turn hturn (u := s.modFn f fun F => { F with pertNext := some b }) rfl St.ok 0 []
  have hfn := congrArg (fun F : Nat → Fn => (F f).pertNext) hans.fns
  exact .of_done hx hans.pending ⟨hans.answered,
    hfn.trans (congrArg Fn.pertNext (s.modFn_fn_same f fun F => { F with pertNext := some b }))⟩

end

/-- Settles O26, command by command: a command in its turn acts once, and one that waits in the background for a queue or a
function without jobs settles at once. -/
theorem queueCommandsCreateDestroyAndEnable : Obligations.QueueCommandsCreateDestroyAndEnable := by
  unfold Obligations.QueueCommandsCreateDestroyAndEnable
  refine ⟨fun s j J q n hturn hoff hparam hok hfree hlocal => completes_createQueue hturn hoff hparam hok hfree hlocal,
    fun s j J hturn hoff hparam => ⟨fun hnone => ?_, fun q hq => ⟨fun hlt => ?_, fun hge hbusy => ?_, fun hge hbusy hnone hno => ?_⟩⟩,
    fun s j q J jump head hturn hoff hq hparam => ⟨fun hmode => ?_, fun hmode hbusy => ⟨fun hjump hlap => ?_, fun hlap hnone hno => ?_⟩⟩,
    fun s j f J b hoff hexists hf => ⟨fun hturn hparam hok hfn hquiet hflr hover => ?_, fun hturn hparam hbusy hleft => ?_,
      fun hturn hparam hown hmem hfault => ?_, fun hturn hparam hfn hmem hfault => ?_, fun hturn hparam => ?_⟩⟩
  · exact completes_destroyQueue_denied hturn hoff hparam (.inl ⟨hnone, rfl⟩)
  · exact completes_destroyQueue_denied hturn hoff hparam (.inr ⟨q, hq, .inl ⟨hlt, rfl⟩⟩)
  · exact completes_destroyQueue_denied hturn hoff hparam (.inr ⟨q, hq, .inr ⟨hge, hbusy, rfl⟩⟩)
  · exact completes_destroyQueue hturn hoff hparam hq hge hbusy hnone hno
  · exact completes_enableQueue_denied hturn hoff hq hparam hmode
  · exact completes_enableQueue_malformed hturn hoff hq hparam hmode hbusy hjump hlap
  · exact completes_enableQueue hturn hoff hq hparam hmode hbusy hlap hnone hno
  · exact completes_setShare hturn hoff hexists hparam hok hfn hquiet hflr hover
  · exact completes_quiesceFunction hturn hoff hexists hf hparam hbusy hleft
  · exact completes_queryFunction hturn hexists hf hparam hown hmem hfault
  · exact completes_queryProgress hturn hparam hfn hmem hfault
  · exact completes_setPerturbation hturn hoff hexists hf hparam

end Sys2Proof.Machine
end


section
/-! PROOF. Malformed queues, REVISE, tail words and held doorbells (10_job_rings.md R232-R235, R243, R244; 21, R472). -/

namespace Sys2Proof.Machine

/-- A command whose operands are in range. -/
theorem within_ok {ok : Bool} {s t : State} (hok : ok = true) : within ok s t = done s t := if_pos hok

/-! ### What a malformed entry or doorbell costs (R243, R244) -/

section
variable {s : State} {q reason : Nat}

theorem State.malformed_of_plain (hq : 256 ≤ q) (hsafety : (s.queue q).safety = false) : s.malformed q reason = s.fenceQueue q reason := by
  unfold State.malformed
  rw [if_neg (by simp [hsafety]; omega)]

theorem State.malformed_of_halt (h : q < 256 ∨ (s.queue q).safety = true) :
    s.malformed q reason = s.haltDevice (s.queue q).fn := by
  unfold State.malformed
  rw [if_pos h]

theorem State.fenceQueue_steady (s : State) (q reason : Nat) : (s.fenceQueue q reason).steady = s.steady := by
  unfold State.fenceQueue
  extract_lets f t u v
  have ht : t.steady = s.steady := by
    unfold t
    split
    · exact s.abandonChain_steady _
    · rfl
  have hv : v.steady = s.steady := by
    unfold v
    split
    · exact (State.glbEvent_steady _ _).trans ht
    · exact ht
  split
  · exact (State.vfEvent_steady _ _ _).trans hv
  · exact hv

/-- The queue is fenced for its reason, and no other queue has changed but for its chain. -/
theorem State.fenceQueue_queue (s : State) (q reason p : Nat) : ((s.fenceQueue q reason).queue p).body =
    if p = q then { (s.queue q).body with mode := .fenced, reason := reason, cqWait := false, cache := [] } else (s.queue p).body := by
  have hchain (p : Nat) : (((s.queue q).chain.elim s s.abandonChain).queue p).body = (s.queue p).body := by
    cases (s.queue q).chain with
    | none => rfl
    | some j => exact (s.abandonChain_ends (· = j) rfl).queue p
  rw [State.queue_congr (s.fenceQueue_queues q reason), State.modQueue_queue]
  split
  next hp =>
    rw [← hchain q]
    rfl
  · exact hchain p

theorem State.haltDevice_spec (s : State) (f : Nat) : (s.haltDevice f).faults.safe.on = true ∧ (s.haltDevice f).faults.safe.halt = true ∧
    ∀ p, (s.haltDevice f).queue p = if (s.queue p).mode = .absent then s.queue p else { s.queue p with mode := .halted } := by
  have hd : dispOf s (if f = 0 then 161 else 162) 0x20 none = some .b := by
    simp only [dispOf]
    split <;> rfl
  have hqueues := s.handle_queues_of_classB _ _ f true false false none hd
  refine ⟨(State.handle_b (inj := false) (aux := f) (real := true) (dry := false) rfl hd).1, rfl, fun p => ?_⟩
  have hget : tget (s.haltDevice f).queues p = (tget s.queues p).map fun Q =>
      if Q.mode = .absent then Q else { Q with mode := .halted } := by
    rw [← hqueues]
    exact tget_tmap _ (fun _ (Q : Queue) => if Q.mode = .absent then Q else { Q with mode := .halted }) p
  unfold State.queue
  rw [hget]
  cases tget s.queues p <;> rfl

end

theorem malformed_fences_or_halts (s : State) (q reason : Nat) (hmode : (s.queue q).mode = .enabled) :
    let Q := s.queue q
    let t := s.malformed q reason
    (t.queue q).sqHead = Q.sqHead ∧ (t.queue q).sqTail = Q.sqTail ∧ (t.queue q).cqHead = Q.cqHead ∧
    (256 ≤ q → Q.safety = false → (t.queue q).mode = .fenced ∧ (t.queue q).reason = reason ∧
      t.faults = s.faults ∧ (∀ p, p ≠ q → (t.queue p).mode = (s.queue p).mode)) ∧
    (q < 256 ∨ Q.safety = true → t.faults.safe.on = true ∧ t.faults.safe.halt = true ∧
      ∀ p, (t.queue p).mode = .halted ∨ (t.queue p).mode = .absent) := by
  intro Q t
  by_cases h : q < 256 ∨ Q.safety = true
  · have ht : t = s.haltDevice Q.fn := State.malformed_of_halt h
    obtain ⟨hon, hhalt, hqueue⟩ := s.haltDevice_spec Q.fn
    have hq : t.queue q = { Q with mode := .halted } := by
      rw [ht, hqueue, if_neg (by simp [hmode])]
    refine ⟨by rw [hq], by rw [hq], by rw [hq], fun h1 h2 => ?_, fun _ => ⟨ht ▸ hon, ht ▸ hhalt, fun p => ?_⟩⟩
    · rcases h with h | h
      · omega
      · rw [h] at h2
        cases h2
    · rw [ht, hqueue]
      split
      next hp => exact .inr hp
      · exact .inl rfl
  · have hge : 256 ≤ q := by omega
    have hsafety : Q.safety = false := by simpa using fun h' => h (.inr h')
    have ht : t = s.fenceQueue q reason := State.malformed_of_plain hge hsafety
    have hq := s.fenceQueue_queue q reason q
    rw [if_pos rfl, ← ht] at hq
    refine ⟨(congrArg Queue.sqHead hq :), (congrArg Queue.sqTail hq :), (congrArg Queue.cqHead hq :), fun _ _ =>
      ⟨(congrArg Queue.mode hq :), (congrArg Queue.reason hq :), ?_, fun p hp => ?_⟩, fun h' => absurd h' h⟩
    · rw [ht]
      exact (congrArg State.faults (s.fenceQueue_steady q reason) :)
    · have hp' := s.fenceQueue_queue q reason p
      rw [if_neg hp, ← ht] at hp'
      exact (congrArg Queue.mode hp' :)

/-! ### REVISE (R234) -/

section
variable {s : State} {f i q m : Nat} {first : BitVec 32}

theorem exec_dbRevise_of_rings (h : Rings s f i q) (hm : m < 65536) :
    exec (.dbRevise f i first m) s = done s (s.newRevise q first (m + 1)) := by
  have hbar := State.barDoorbell_of_rings (v := first) h 2 (m + 1)
  obtain ⟨hf, hi, -⟩ := h
  have hok : (okFn f && decide (i < 4096) && decide (m < 65536)) = true := by simp [okFn, hf, hi, hm]
  calc exec (.dbRevise f i first m) s = within (okFn f && decide (i < 4096) && decide (m < 65536)) s (s.barDoorbell f i 2 first (m + 1)) := rfl
    _ = done s (s.barDoorbell f i 2 first (m + 1)) := by rw [within, if_pos hok]
    _ = done s (s.newRevise q first (m + 1)) := by simp [hbar, State.doorbellNow]

/-- The entries of the range of a REVISE that were consumed before. -/
def revisePast (head first : BitVec 32) (n : Nat) : Nat := if diff32 head first < 2 ^ 31 then min n (diff32 head first) else 0

theorem newRevise_of_rings (h : Rings s f i q) (hrev : (s.queue q).revise = none) (count : Nat) :
    let n := min count (2 ^ (s.queue q).sqLog2)
    let past := revisePast (s.queue q).sqHead first n
    s.newRevise q first count = (s.modQueue q fun Q => { Q with
      revise := if past = n then none else some (first + BitVec.ofNat 32 past, n - past), tooLate := decide (0 < past),
      cache := Q.cache.filter fun c => n ≤ diff32 c.1 first }).bumpBy (fnErr f 7) 32 past := by
  obtain ⟨hf, -, -, -, hfn, hmode, -, -⟩ := h
  intro n past
  unfold State.newRevise
  dsimp only
  rw [if_neg (by simp [Queue.on, hmode]), hrev, hfn, if_pos (show f < 0x100 from hf)]
  rfl

theorem toNat_sub_eq_zero {a b : BitVec 32} (hab : (a - b).toNat < 2 ^ 31) (hba : (b - a).toNat < 2 ^ 31) : (b - a).toNat = 0 := by
  bv_omega

section
variable (h : Rings s f i q) (hrev : (s.queue q).revise = none) (hm : m < 65536)
include h hrev hm

/-- A range ahead of the head, by less than half the counter: consumption holds at its first entry. -/
theorem completes_dbRevise_ahead (hahead : (first - (s.queue q).sqHead).toNat < 2 ^ 31) :
    let Q := s.queue q
    let n := min (m + 1) (2 ^ Q.sqLog2)
    Completes (.dbRevise f i first m) s fun t =>
      t.queue q = { Q with revise := some (first, n), tooLate := false, cache := Q.cache.filter fun c => n ≤ diff32 c.1 first } ∧
        t = { s with queues := t.queues, regs := t.regs } := by
  intro Q n
  have hn : 0 < n := lt_min (Nat.succ_pos m) (Nat.two_pow_pos _)
  have hpast : revisePast Q.sqHead first n = 0 := by
    unfold revisePast diff32
    split
    next hback => rw [toNat_sub_eq_zero hahead hback, Nat.min_zero]
    · rfl
  have hnew := newRevise_of_rings (first := first) h hrev (m + 1)
  dsimp only at hnew
  rw [hpast, if_neg hn.ne, BitVec.add_zero, Nat.sub_zero] at hnew
  refine .of_done ((exec_dbRevise_of_rings h hm).trans (congrArg (done s) hnew)) rfl ⟨?_, rfl⟩
  exact s.modQueue_queue_same q fun Q => { Q with
    revise := some (first, n), tooLate := false, cache := Q.cache.filter fun c => n ≤ diff32 c.1 first }

/-- A range that begins `k` entries behind the head: those entries were consumed, and consumption holds behind them. -/
theorem completes_dbRevise_late {k : Nat} (hk : k = ((s.queue q).sqHead - first).toNat) (hpos : 0 < k) (hlt : k < 2 ^ 31) :
    let Q := s.queue q
    let n := min (m + 1) (2 ^ Q.sqLog2)
    Completes (.dbRevise f i first m) s fun t =>
      t.queue q = { Q with revise := if k < n then some (Q.sqHead, n - k) else none, tooLate := true,
                           cache := Q.cache.filter fun c => n ≤ diff32 c.1 first } ∧
      t = { s with queues := t.queues, regs := t.regs } ∧ t.reg (fnErr f 7) = satAdd 32 (s.reg (fnErr f 7)) (min n k) := by
  intro Q n
  have hn : 0 < n := lt_min (Nat.succ_pos m) (Nat.two_pow_pos _)
  have hpast : revisePast Q.sqHead first n = min n k := by
    unfold revisePast diff32
    rw [← hk, if_pos hlt]
  have hhold : (if min n k = n then none else some (first + BitVec.ofNat 32 (min n k), n - min n k)) =
      if k < n then some (Q.sqHead, n - k) else none := by
    by_cases hkn : k < n
    · have hhead : first + BitVec.ofNat 32 k = Q.sqHead := by
        have hk' : BitVec.ofNat 32 k = Q.sqHead - first := by
          rw [hk, BitVec.ofNat_toNat, BitVec.setWidth_eq]
        rw [hk']
        ring
      rw [Nat.min_eq_right hkn.le, if_neg hkn.ne, if_pos hkn, hhead]
    · rw [Nat.min_eq_left (by omega), if_pos rfl, if_neg hkn]
  have hnew := newRevise_of_rings (first := first) h hrev (m + 1)
  dsimp only at hnew
  rw [hpast, hhold, show decide (0 < min n k) = true from decide_eq_true (lt_min hn hpos)] at hnew
  refine .of_done ((exec_dbRevise_of_rings h hm).trans (congrArg (done s) hnew)) rfl ⟨?_, rfl, ?_⟩
  · exact s.modQueue_queue_same q fun Q => { Q with
      revise := if k < n then some (Q.sqHead, n - k) else none, tooLate := true, cache := Q.cache.filter fun c => n ≤ diff32 c.1 first }
  · exact (State.setReg_reg _ _ _ _).trans (if_pos rfl)

end

end

/-! ### Tail words and held doorbells (R232, R235; 21, R472) -/

section
variable {s : State} {f i q : Nat} {v : BitVec 32}

theorem completes_tailWordChange {mem : HostWrites} (hq : q < 4096) (hmode : (s.queue q).mode = .enabled) (hpoll : (s.queue q).poll = true)
    (hpert : (s.fn (s.queue q).fn).pert = false) (hheld : (s.fn (s.queue q).fn).heldFor q = false)
    (hfits : lapping v (s.queue q).sqTail (s.queue q).sqHead false (2 ^ (s.queue q).sqLog2) = false) :
    Completes (.tailWordChange q v mem) s fun t => t.queue q = { s.queue q with sqTail := v, revise := none } ∧
      t.hostMem = memWriteN (writeRuns s.hostMem mem) (s.queue q).tailWord (le 4 v.toNat) ∧ ∀ p, p ≠ q → t.queue p = s.queue p := by
  have hx : exec (.tailWordChange q v mem) s = execTailWordChange q v mem s := rfl
  unfold execTailWordChange at hx
  dsimp only at hx
  rw [within_ok (show okQueue q = true from decide_eq_true hq), if_pos (by simp [hpoll, hmode])] at hx
  obtain ⟨o, ho⟩ := State.hostWrite_eq { s with hostMem := writeRuns s.hostMem mem } (s.queue q).tailWord (le 4 v.toNat)
  have hmem := State.hostWrite_hostMem { s with hostMem := writeRuns s.hostMem mem } (s.queue q).tailWord (le 4 v.toNat)
  generalize State.hostWrite { s with hostMem := writeRuns s.hostMem mem } (s.queue q).tailWord (le 4 v.toNat) = u at hx ho hmem
  have hqueues : u.queue = s.queue := by rw [ho]; rfl
  have hfns : u.fn = s.fn := by rw [ho]; rfl
  have hpend : u.pending = s.pending := by rw [ho]
  have hbell : u.doorbell q 0 v 0 = u.modQueue q fun Q => { Q with sqTail := v, revise := none } := by
    rw [State.doorbell_eq_doorbellNow (by rw [hqueues, hfns]; exact hpert) (by rw [hqueues, hfns]; exact hheld)]
    refine State.newTail_of_not_laps (by rw [hqueues]; exact hmode) ?_
    rw [hqueues, ← Queue.lapping_tail_iff, hfits]
    decide
  rw [hbell] at hx
  refine .of_done hx hpend ⟨?_, hmem, fun p hp => ?_⟩
  · rw [State.modQueue_queue_same, hqueues]
  · rw [State.modQueue_queue, if_neg hp, hqueues]

/-- A doorbell that is held joins those that its function holds. -/
theorem State.doorbell_held {kind n : Nat} (hfn : (s.queue q).fn = f)
    (hheld : ((s.fn f).holds && (0 < (s.fn f).holdUs || !(s.fn f).held.isEmpty)) = true ∨ (s.fn f).heldFor q = true) :
    ∃ g, s.doorbell q kind v n = s.modFn f g ∧ (g (s.fn f)).held = (s.fn f).held ++
      [{ queue := q, kind := kind, value := v, count := n,
         due := s.time.elapsed + if (s.fn f).holds then 1000 * (s.fn f).holdUs else 0 }] := by
  unfold State.doorbell
  dsimp only
  rw [hfn, if_pos (by rw [Bool.or_eq_true]; exact hheld)]
  exact ⟨_, rfl, rfl⟩

/-- A doorbell through BAR0 of the function that owns the queue. -/
theorem State.barDoorbell_own {kind n : Nat} (hbar : s.barOn f = true) (haddr : s.addressed f i = some q)
    (hfn : (s.queue q).fn = f) (hpoll : kind ≠ 0 ∨ (s.queue q).poll = false) : s.barDoorbell f i kind v n = s.doorbell q kind v n := by
  unfold State.barDoorbell
  rw [hbar, haddr]
  dsimp only
  rw [if_neg (by simp), if_neg (by simpa using hfn), if_neg (by rintro ⟨h0, h1⟩; rcases hpoll with h | h <;> simp_all)]

section
variable (hf : f < 256) (hi : i < 4096) (hbar : s.barOn f = true) (haddr : s.addressed f i = some q) (hfn : (s.queue q).fn = f)
include hf hi hbar haddr hfn

theorem completes_dbSqTail_held {mem : HostWrites} (hpoll : (s.queue q).poll = false) (hpert : (s.fn f).pert = true)
    (hctrl : (s.fn f).ctrl.getLsbD 3 = true) (hus : 0 < (s.fn f).holdUs) :
    Completes (.dbSqTail f i v mem) s fun t => t.queues = s.queues ∧ (t.fn f).held = (s.fn f).held ++
      [{ queue := q, kind := 0, value := v, count := 0, due := s.time.elapsed + 1000 * (s.fn f).holdUs }] := by
  let u : State := { s with hostMem := writeRuns s.hostMem mem }
  have hholds : (s.fn f).holds = true := by simp [Fn.holds, hpert, bitOf_toNat, hctrl]
  obtain ⟨g, hg, hheld⟩ := State.doorbell_held (s := u) (v := v) (kind := 0) (n := 0) hfn
    (.inl (by simp [show (u.fn f).holds = true from hholds, show 0 < (u.fn f).holdUs from hus]))
  have hx : exec (.dbSqTail f i v mem) s = done s (u.modFn f g) := by
    rw [← hg, ← State.barDoorbell_own (s := u) hbar haddr hfn (.inr hpoll)]
    exact within_ok (ok := okFn f && decide (i < 4096)) (by simp [okFn, hf, hi])
  refine .of_done hx rfl ⟨rfl, ?_⟩
  rw [State.modFn_fn_same, hheld, show (u.fn f).holds = true from hholds]
  rfl

theorem completes_dbCqHead_behind (hpert : (s.fn f).pert = false) (hheld : (s.fn f).heldFor q = true) :
    Completes (.dbCqHead f i v) s fun t => t.queues = s.queues ∧ (t.fn f).held = (s.fn f).held ++
      [{ queue := q, kind := 1, value := v, count := 0, due := s.time.elapsed }] := by
  have hholds : (s.fn f).holds = false := by simp [Fn.holds, hpert]
  obtain ⟨g, hg, hjoin⟩ := State.doorbell_held (s := s) (v := v) (kind := 1) (n := 0) hfn (.inr hheld)
  have hx : exec (.dbCqHead f i v) s = done s (s.modFn f g) := by
    rw [← hg, ← State.barDoorbell_own hbar haddr hfn (.inl one_ne_zero)]
    exact within_ok (ok := okFn f && decide (i < 4096)) (by simp [okFn, hf, hi])
  refine .of_done hx rfl ⟨rfl, ?_⟩
  rw [State.modFn_fn_same, hjoin, hholds]
  rfl

end

/-! ### Reads behind held doorbells (R232) -/

/-- STATE of queue `q` among PF0's queue registers. -/
theorem stateOffset (hq : q < 4096) : within? (0x20004 + 0x10 * q) 0x20000 0x10 4096 = some (q, 4) := by
  have hindex : (0x20004 + 0x10 * q - 0x20000) / 0x10 = q := by omega
  have hword : (0x20004 + 0x10 * q - 0x20000) % 0x10 = 4 := by omega
  unfold within?
  rw [hindex, hword, if_pos (by omega)]

theorem State.readWaits_of_offset {off : Nat} (hoff : within? off 0x20000 0x10 4096 = some (q, 4)) :
    s.readWaits 0 off false = (s.fn (s.queue q).fn).heldFor q := by
  unfold State.readWaits State.cfgQueue
  simp only [↓reduceIte, hoff]
  rfl

theorem State.readWaits_state (hq : q < 4096) : s.readWaits 0 (0x20004 + 0x10 * q) false = (s.fn (s.queue q).fn).heldFor q :=
  State.readWaits_of_offset (stateOffset hq)

theorem State.cfgPeek_state (hq : q < 4096) :
    s.cfgPeek 0 (0x20004 + 0x10 * q) false = (((s.queue q).cfgReg q 4).map (·.2)).getD 0 := by
  have hreg : s.barReg 0 (0x20004 + 0x10 * q) = (s.queue q).cfgReg q 4 := by
    have hblock : (0x20004 + 0x10 * q) / 0x10000 = 2 := by omega
    have hoff : (0x20004 + 0x10 * q) % 0x10000 / 0x10 = q := by omega
    have hword : (0x20004 + 0x10 * q) % 0x10000 % 0x10 = 4 := by omega
    unfold State.barReg State.pfReg
    dsimp only
    rw [if_pos rfl, hblock, hoff, hword]
    rfl
  unfold State.cfgPeek
  dsimp only
  rw [hreg, if_neg Bool.false_ne_true, Nat.add_zero]

theorem exec_read_state_held (hq : q < 4096) (hbar : s.barOn 0 = true) (hheld : (s.fn (s.queue q).fn).heldFor q = true) :
    exec (.registerWrite .pfBar0 0 (0x20004 + 0x10 * q) .read32) s =
      .next { s with host := { s.host with reads := s.host.reads ++ [(0, 0x20004 + 0x10 * q, false)] } } := by
  have hready : s.boot.ready = true ∧ s.host.d3hot = false := by simpa [State.barOn] using hbar
  have hx : exec (.registerWrite .pfBar0 0 (0x20004 + 0x10 * q) .read32) s =
      execRegisterWrite .pfBar0 0 (0x20004 + 0x10 * q) .read32 s := rfl
  have hacc : s.access 0 (0x20004 + 0x10 * q) .read32 false = s.waitRead 0 (0x20004 + 0x10 * q) false := by
    unfold State.access
    rw [if_neg (by simp [State.exposes, hready.1, hbar])]
    dsimp only
    rw [s.readWaits_state hq, hheld, if_pos (by simp)]
  unfold execRegisterWrite at hx
  rw [within_ok (by simp [hasWindow, windowSize, accBytes]; omega), if_neg (by simp), if_neg (by simp [State.responds, hready.2])] at hx
  dsimp only at hx
  rw [if_neg (by simp [accBytes]; omega), hacc] at hx
  exact hx.trans (done_eq (t := s.waitRead 0 (0x20004 + 0x10 * q) false) rfl)

theorem readsReturn_state (hq : q < 4096) (hheld : (s.fn (s.queue q).fn).heldFor q = false)
    (hreads : s.host.reads = [(0, 0x20004 + 0x10 * q, false)]) :
    s.readsReturn = { s with host := { s.host with
      reads := [], lastRead := BitVec.ofNat 64 ((((s.queue q).cfgReg q 4).map (·.2)).getD 0) } } := by
  unfold State.readsReturn
  simp only [hreads, List.filter_cons, List.filter_nil, s.readWaits_state hq, hheld, Bool.not_false, if_true, if_false,
    List.foldl_cons, List.foldl_nil, s.cfgPeek_state hq, Bool.false_eq_true]
  rfl

/-! ### PERT_DOORBELL_HOLD (21, R472) -/

theorem State.readsReturn_eq (s : State) : ∃ h, s.readsReturn = { s with host := h } := by
  unfold State.readsReturn
  generalize hd : (s.host.reads.filter fun r => !s.readWaits r.1 r.2.1 r.2.2) = l
  generalize hu : ({ s with host := { s.host with reads := s.host.reads.filter fun r => s.readWaits r.1 r.2.1 r.2.2 } } : State) = u
  have hs : ∃ h, u = { s with host := h } := ⟨_, hu.symm⟩
  clear hd hu
  induction l generalizing u with
  | nil => exact hs
  | cons r l ih =>
    obtain ⟨h, rfl⟩ := hs
    exact ih _ ⟨_, rfl⟩

section
variable {now : Nat} {H : HeldDoorbell} (hf : f < 256) (hheld : (s.fn f).held = [H])
include hf hheld

theorem completes_pertDoorbellHold_due (hdue : H.due ≤ (s.time.to now).elapsed) (hkind : H.kind = 1)
    (hmode : (s.queue H.queue).mode = .enabled)
    (hfits : lapping H.value (s.queue H.queue).cqHead (s.queue H.queue).cqTail true (2 ^ (s.queue H.queue).cqLog2) = false) :
    Completes (.pertDoorbellHold f now) s fun t => (t.fn f).held = [] ∧ (t.queue H.queue).cqHead = H.value ∧
      ∀ p, p ≠ H.queue → t.queue p = s.queue p := by
  have htake : ([H].takeWhile fun K => decide (K.due ≤ (s.at_ now).time.elapsed)) = [H] := by
    simp [show H.due ≤ (s.at_ now).time.elapsed from hdue]
  have hx : exec (.pertDoorbellHold f now) s = execPertDoorbellHold f now s := rfl
  unfold execPertDoorbellHold at hx
  dsimp only at hx
  rw [within_ok (show okFn f = true from decide_eq_true hf), show ((s.at_ now).fn f).held = [H] from hheld, htake] at hx
  let w := (s.at_ now).modFn f fun F => { F with held := F.held.drop 1 }
  have hbell : w.heldDoorbell H = w.modQueue H.queue fun Q => { Q with cqHead := H.value } := by
    have hnow : w.doorbellNow H.queue H.kind H.value H.count = w.newHead H.queue H.value := by
      rw [hkind]
      rfl
    have hhead : w.newHead H.queue H.value = w.modQueue H.queue fun Q => { Q with cqHead := H.value } := by
      refine State.newHead_of_not_laps (s := w) hmode ?_
      rw [← Queue.lapping_head_iff, show lapping H.value (w.queue H.queue).cqHead (w.queue H.queue).cqTail true
        (2 ^ (w.queue H.queue).cqLog2) = false from hfits]
      decide
    unfold State.heldDoorbell
    dsimp only
    rw [hnow, if_neg (by simp [hkind]), hhead]
  have hdone : ∃ h, exec (.pertDoorbellHold f now) s = done s { (w.modQueue H.queue fun Q => { Q with cqHead := H.value }) with host := h } := by
    obtain ⟨h, hh⟩ := (w.modQueue H.queue fun Q => { Q with cqHead := H.value }).readsReturn_eq
    refine ⟨h, hx.trans (congrArg (done s) ?_)⟩
    rw [← hh, ← hbell]
    rfl
  obtain ⟨h, hdone⟩ := hdone
  refine .of_done hdone rfl ⟨?_, ?_, fun p hp => ?_⟩
  · refine (congrArg Fn.held ((s.at_ now).modFn_fn_same f fun F => { F with held := F.held.drop 1 })).trans ?_
    change List.drop 1 (s.fn f).held = []
    rw [hheld]
    rfl
  · exact (congrArg Queue.cqHead (w.modQueue_queue_same H.queue fun Q => { Q with cqHead := H.value }) :)
  · exact (w.modQueue_queue H.queue p fun Q => { Q with cqHead := H.value }).trans (if_neg hp)

theorem completes_pertDoorbellHold_early (hdue : (s.time.to now).elapsed < H.due) :
    Completes (.pertDoorbellHold f now) s fun t => (t.fn f).held = [H] ∧ t.queues = s.queues := by
  have htake : ([H].takeWhile fun K => decide (K.due ≤ (s.at_ now).time.elapsed)) = [] := by
    simp [show ¬ H.due ≤ (s.at_ now).time.elapsed from Nat.not_le.2 hdue]
  have hx : exec (.pertDoorbellHold f now) s = execPertDoorbellHold f now s := rfl
  unfold execPertDoorbellHold at hx
  dsimp only at hx
  rw [within_ok (show okFn f = true from decide_eq_true hf), show ((s.at_ now).fn f).held = [H] from hheld, htake] at hx
  let w := (s.at_ now).modFn f fun F => { F with held := F.held.drop 0 }
  obtain ⟨h, hh⟩ := w.readsReturn_eq
  have hdone : exec (.pertDoorbellHold f now) s = done s { w with host := h } := hx.trans (congrArg (done s) hh)
  refine .of_done hdone rfl ⟨?_, rfl⟩
  exact (congrArg Fn.held ((s.at_ now).modFn_fn_same f fun F => { F with held := F.held.drop 0 })).trans hheld

end

end

/-- Settles O29, over the two branches of a malformed queue, the two sides of a REVISE and the two ends of a held doorbell. -/
theorem malformedQueuesFenceAndHeldDoorbells : Obligations.MalformedQueuesFenceAndHeldDoorbells := by
  unfold Obligations.MalformedQueuesFenceAndHeldDoorbells
  refine ⟨malformed_fences_or_halts, ⟨fun s f i q m first h hrev hm => ⟨fun hahead => ?_, fun k hk hpos hlt => ?_⟩,
    fun s q v mem hq hmode hpoll hpert hheld hfits => ?_,
    fun s f i q v mem hf hi hbar haddr hfn hpoll hpert hctrl hus => ?_,
    fun s f i q v hf hi hbar haddr hfn hpert hheld => ?_, fun s q hq hbar => ⟨fun hheld => ?_, fun hheld hreads => ?_⟩,
    fun s f now H hf hheld => ⟨fun hdue hkind hmode hfits => ?_, fun hdue => ?_⟩⟩⟩
  · exact completes_dbRevise_ahead h hrev hm hahead
  · exact completes_dbRevise_late h hrev hm hk hpos hlt
  · exact completes_tailWordChange hq hmode hpoll hpert hheld hfits
  · exact completes_dbSqTail_held hf hi hbar haddr hfn hpoll hpert hctrl hus
  · exact completes_dbCqHead_behind hf hi hbar haddr hfn hpert hheld
  · exact exec_read_state_held hq hbar hheld
  · exact readsReturn_state hq hheld hreads
  · exact completes_pertDoorbellHold_due hf hheld hdue hkind hmode hfits
  · exact completes_pertDoorbellHold_early hf hheld hdue

end Sys2Proof.Machine
end


section
/-! PROOF. Queue 0 of a function, and the moderation and masking of completion messages (10_job_rings.md R251; 11, R254). -/

namespace Sys2Proof.Machine

/-! ### ADMQ.CFG (11, R254) -/

/-- Both rings of queue 0 have sizes of 2^4 to 2^16 entries and bases on 4,096 bytes. -/
def AdmqGood (s : State) (f v : Nat) : Prop :=
  4 ≤ v % 32 ∧ v % 32 ≤ 16 ∧ 4 ≤ v / 32 % 32 ∧ v / 32 % 32 ≤ 16 ∧ s.reg (admqKey f 0) % 4096 = 0 ∧ s.reg (admqKey f 1) % 4096 = 0

/-- The queue 0 that a write of ADMQ.CFG brings up. -/
def admqQueue (s : State) (f v : Nat) : Queue :=
  { mode := .enabled, fn := f, lnum := 0, sqBase := s.reg (admqKey f 0), cqBase := s.reg (admqKey f 1), sqLog2 := v % 32,
    cqLog2 := v / 32 % 32, vector := 0, modCount := 1, modTime := 0 }

section
variable {s : State} {f : Nat} {v : BitVec 32} (hf : f < 256)
include hf

theorem exec_admqEnable_present (hmode : (s.queue f).mode ≠ .absent) : exec (.admqEnable f v) s = .next s := by
  have hx : exec (.admqEnable f v) s = within (okFn f) s (s.admqCfg f v) := rfl
  rw [within_ok (show okFn f = true from decide_eq_true hf)] at hx
  unfold State.admqCfg at hx
  dsimp only at hx
  rw [if_pos (by simp [hmode])] at hx
  exact hx.trans (done_eq rfl)

theorem exec_admqEnable_absent [Decidable (AdmqGood s f v.toNat)] (hbar : s.barOn f = true) (hen : v.getLsbD 16 = true)
    (hmode : (s.queue f).mode = .absent) : exec (.admqEnable f v) s = done s (
      if AdmqGood s f v.toNat then (s.setReg (admqKey f 2) (v.toNat % 1024)).modQueue f fun _ => admqQueue s f v.toNat
      else s.setReg (admqKey f 2) (v.toNat % 1024 + 2 ^ 17)) := by
  have hx : exec (.admqEnable f v) s = within (okFn f) s (s.admqCfg f v) := rfl
  rw [within_ok (show okFn f = true from decide_eq_true hf)] at hx
  have hsq : bitsOf v.toNat 4 0 = v.toNat % 32 := by simp [bitsOf]
  have hcq : bitsOf v.toNat 9 5 = v.toNat / 32 % 32 := by simp [bitsOf, Nat.shiftRight_eq_div_pow]
  unfold State.admqCfg at hx
  dsimp only at hx
  rw [if_neg (by simp [hbar, hmode]), bitOf_toNat, hen, if_neg (by simp), hsq, hcq] at hx
  by_cases hgood : AdmqGood s f v.toNat
  · rw [if_pos hgood, hx, if_pos]
    · rfl
    · obtain ⟨h1, h2, h3, h4, h5, h6⟩ := hgood
      simp [h1, h2, h3, h4, h5, h6]
  · rw [if_neg hgood, hx, if_neg]
    intro h
    simp only [Bool.and_eq_true, decide_eq_true_eq, beq_iff_eq, and_assoc] at h
    exact hgood h

theorem completes_admqEnable_good (hbar : s.barOn f = true) (hen : v.getLsbD 16 = true) (hmode : (s.queue f).mode = .absent)
    (hgood : AdmqGood s f v.toNat) : Completes (.admqEnable f v) s fun t =>
      t.queue f = admqQueue s f v.toNat ∧ bitOf (t.reg (admqKey f 2)) 17 = false ∧
      t = { s with queues := t.queues, regs := t.regs } ∧ ∀ p, p ≠ f → t.queue p = s.queue p := by
  classical
  have hx := exec_admqEnable_absent hf hbar hen hmode
  rw [if_pos hgood] at hx
  refine .of_done hx rfl ⟨State.modQueue_queue_same _ f fun _ => admqQueue s f v.toNat, ?_, rfl, fun p hp => ?_⟩
  · have hreg := (State.setReg_reg s (admqKey f 2) (v.toNat % 1024) (admqKey f 2)).trans (if_pos rfl)
    change bitOf (State.reg (s.setReg (admqKey f 2) (v.toNat % 1024)) (admqKey f 2)) 17 = false
    rw [hreg]
    have hlt := Nat.mod_lt v.toNat (show 0 < 1024 by decide)
    simp only [bitOf, Nat.shiftRight_eq_div_pow]
    simp
    omega
  · exact (State.modQueue_queue _ f p fun _ => admqQueue s f v.toNat).trans (if_neg hp)

theorem completes_admqEnable_bad (hbar : s.barOn f = true) (hen : v.getLsbD 16 = true) (hmode : (s.queue f).mode = .absent)
    (hbad : ¬ AdmqGood s f v.toNat) : Completes (.admqEnable f v) s fun t =>
      t.queues = s.queues ∧ bitOf (t.reg (admqKey f 2)) 17 = true ∧ t = { s with regs := t.regs } := by
  classical
  have hx := exec_admqEnable_absent hf hbar hen hmode
  rw [if_neg hbad] at hx
  refine .of_done hx rfl ⟨rfl, ?_, rfl⟩
  rw [State.setReg_reg, if_pos rfl]
  have hlt := Nat.mod_lt v.toNat (show 0 < 1024 by decide)
  simp only [bitOf, Nat.shiftRight_eq_div_pow]
  simp
  omega

end

/-! ### Messages (R251) -/

/-- A message of an unmasked vector of a device that is not tethered goes out. -/
theorem State.msix_sent {s : State} {f v : Nat} (hmask : (s.fn f).mask.contains v = false) (htether : s.cluster.tethered = false) :
    s.msix f v = s.emit (.msix f v) := by
  unfold State.msix
  rw [hmask, htether, if_neg (by simp), if_neg (by simp)]

section
variable {s : State} {q now : Nat} (hq : q < 4096)
include hq

theorem exec_msixModTimer : exec (.msixModTimer q now) s = done s (
    if 0 < (s.queue q).pendN ∧ (s.queue q).pendAt ≤ (s.time.to now).elapsed then (s.at_ now).notifyNow q else s.at_ now) := by
  have hx : exec (.msixModTimer q now) s = within (okQueue q) s _ := rfl
  rw [within_ok (show okQueue q = true from decide_eq_true hq)] at hx
  rw [hx]
  congr 1
  by_cases h : 0 < (s.queue q).pendN ∧ (s.queue q).pendAt ≤ (s.time.to now).elapsed
  · rw [if_pos h]
    exact if_pos (by rw [Bool.and_eq_true, decide_eq_true_eq, decide_eq_true_eq]; exact h)
  · rw [if_neg h]
    exact if_neg (by rw [Bool.and_eq_true, decide_eq_true_eq, decide_eq_true_eq]; exact h)

theorem exec_msixModTimer_sends (htether : s.cluster.tethered = false)
    (hmask : (s.fn (s.queue q).fn).mask.contains (s.queue q).vector = false) (hn : 0 < (s.queue q).pendN)
    (hdue : (s.queue q).pendAt ≤ (s.time.to now).elapsed) : exec (.msixModTimer q now) s =
      .next (((s.at_ now).modQueue q fun Q => { Q with pendN := 0 }).emit (.msix (s.queue q).fn (s.queue q).vector)) := by
  rw [exec_msixModTimer hq, if_pos ⟨hn, hdue⟩]
  have hsent : (s.at_ now).notifyNow q = ((s.at_ now).modQueue q fun Q => { Q with pendN := 0 }).emit (.msix (s.queue q).fn (s.queue q).vector) :=
    State.msix_sent (s := (s.at_ now).modQueue q fun Q => { Q with pendN := 0 }) hmask htether
  rw [hsent]
  exact done_eq rfl

theorem exec_msixModTimer_waits (h : (s.queue q).pendN = 0 ∨ (s.time.to now).elapsed < (s.queue q).pendAt) :
    exec (.msixModTimer q now) s = .next (s.at_ now) := by
  rw [exec_msixModTimer hq, if_neg (by omega)]
  exact done_eq rfl

end

theorem completes_msixUnmask {s : State} {f v : Nat} (hf : f < 256) (hv : v < 64) (htether : s.cluster.tethered = false) :
    Completes (.msixUnmask f v) s fun t => (t.fn f).mask.contains v = false ∧ (t.fn f).pba.contains v = false ∧
      (∀ w, w ≠ v → ((t.fn f).mask.contains w = (s.fn f).mask.contains w)) ∧
      t.outbox = (if (s.fn f).pba.contains v then [.msix f v] else []) ++ s.outbox ∧ t = { s with fns := t.fns, outbox := t.outbox } := by
  let u := s.modFn f fun F => { F with mask := F.mask.filter (· != v), pba := F.pba.filter (· != v) }
  have hx : exec (.msixUnmask f v) s = done s (if (s.fn f).pba.contains v then u.msix f v else u) := by
    have hrange : v < if f = 0 then 2048 else 64 := by split <;> omega
    exact within_ok (ok := okFn f && decide (v < if f = 0 then 2048 else 64)) (by simp [okFn, hf, hrange])
  have hfn : u.fn f = { s.fn f with mask := (s.fn f).mask.filter (· != v), pba := (s.fn f).pba.filter (· != v) } :=
    s.modFn_fn_same f fun F => { F with mask := F.mask.filter (· != v), pba := F.pba.filter (· != v) }
  have hmask : (u.fn f).mask.contains v = false := by simp [hfn]
  have hpba : (u.fn f).pba.contains v = false := by simp [hfn]
  have hothers (w : Nat) (hw : w ≠ v) : (u.fn f).mask.contains w = (s.fn f).mask.contains w := by
    rw [hfn]
    simp only [List.contains_eq_mem]
    exact decide_eq_decide.2 (by simp [hw])
  by_cases hpend : (s.fn f).pba.contains v = true
  · rw [if_pos hpend, State.msix_sent hmask htether] at hx
    refine .of_done hx rfl ⟨hmask, hpba, hothers, ?_, rfl⟩
    rw [if_pos hpend]
    rfl
  · rw [if_neg hpend] at hx
    refine .of_done hx rfl ⟨hmask, hpba, hothers, ?_, rfl⟩
    rw [if_neg hpend]
    rfl

/-- Settles O30: queue 0 by the two outcomes of its enabling write, messages by whether one is pending and due. -/
theorem queueZeroIsEnabledAndMessagesModerated : Obligations.QueueZeroIsEnabledAndMessagesModerated := by
  unfold Obligations.QueueZeroIsEnabledAndMessagesModerated
  refine ⟨fun s f v hf hbar hen => ⟨fun hmode => exec_admqEnable_present hf hmode, fun hmode hgood => ?_, fun hmode hbad => ?_⟩,
    fun s q now hq htether hmask => ⟨fun hn hdue => ?_, fun h => exec_msixModTimer_waits hq h⟩, fun s f v hf hv htether => ?_⟩
  · exact completes_admqEnable_good hf hbar hen hmode hgood
  · exact completes_admqEnable_bad hf hbar hen hmode hbad
  · exact exec_msixModTimer_sends hq htether hmask hn hdue
  · exact completes_msixUnmask hf hv htether

end Sys2Proof.Machine
end


section
/-! PROOF. The end of a job and the other entries of the in-flight table, and the consumption of the next entry
(10_job_rings.md R225-R244; 11, R262). -/

namespace Sys2Proof.Machine

/-! ### Little-endian fields -/

theorem fromLE_lt (bs : Bytes) : fromLE bs < 256 ^ bs.length := by
  induction bs with
  | nil => exact Nat.one_pos
  | cons b bs ih =>
    have hb := b.isLt
    rw [fromLE, List.length_cons, pow_succ]
    omega

theorem leAt_lt (bs : Bytes) (off len : Nat) : leAt bs off len < 256 ^ len := by
  refine (fromLE_lt _).trans_le (Nat.pow_le_pow_right (by decide) ?_)
  exact List.length_take_le _ _

/-! ### A job that waits for no durable commit ends alone (04, R88) -/

theorem State.passCommit_of_not_durable (s : State) (j : Nat) {J : Job} (h : J.durable = false) : s.passCommit j J = s := by
  unfold State.passCommit
  rw [if_pos (by simp [h])]

/-- The end of a job that waits for no durable commit leaves every other entry of the in-flight table as it was. -/
theorem State.endJob_job_other {s : State} {j : Nat} {J : Job} (hJ : s.job? j = some J) (h : J.durable = false)
    (status result : Nat) (ret : Bytes) {k : Nat} (hk : k ≠ j) : (s.endJob j status result ret).job? k = s.job? k :=
  State.endJob_field (fun u => u.job? k) hJ (fun u f _ => (u.modJob_job j k f).trans (if_neg hk)) (fun _ _ => rfl)
    (fun u => by rw [u.passCommit_of_not_durable j h]) (fun u => State.job?_congr (u.treeEnds_jobs J) k) (fun _ _ _ => rfl)
    (fun u r i => u.logUnreserve_job? r i k)
    (.inr (State.zeroFill_keeps (fun u => u.job? k) (fun _ _ => rfl) (fun _ _ => rfl) fun _ _ _ => rfl)) status result ret

/-! ### The prefetch cache (R233, R234) -/

section
variable (s : State) (q : Nat)

/-- What the prefetch reads for the cache of queue `q`. -/
def State.ahead (s : State) (q : Nat) : List (BitVec 32 × Bytes) :=
  ((s.queue q).ahead.filter fun i => (s.rdFault (s.queue q).isModule ((s.queue q).entryAddr i) 64).isNone).map fun i =>
    (i, s.rd (s.queue q).isModule ((s.queue q).entryAddr i) 64)

theorem State.prefetch_eq : ∃ l, s.prefetch q = { s with queues := l } := by
  unfold State.prefetch
  dsimp only
  split
  · exact ⟨s.queues, rfl⟩
  · exact ⟨_, rfl⟩

theorem State.prefetch_def : s.prefetch q =
    if (s.ahead q).isEmpty then s else s.modQueue q fun Q => { Q with cache := Q.cache ++ s.ahead q } := rfl

theorem State.prefetch_queue : (s.prefetch q).queue q = { s.queue q with cache := (s.queue q).cache ++ s.ahead q } := by
  rw [s.prefetch_def]
  split
  next hnone => rw [List.isEmpty_iff.1 hnone, List.append_nil]
  · exact s.modQueue_queue_same q _

theorem State.headEntry_prefetch : (s.prefetch q).headEntry q =
    (((s.queue q).cache ++ s.ahead q).find? fun c => c.1 == (s.queue q).sqHead).map (·.2) := by
  unfold State.headEntry
  rw [s.prefetch_queue]

end

section
variable {s : State} {q : Nat}

/-- An entry that is not cached is read from its slot. -/
theorem headEntry_of_read (hmod : (s.queue q).isModule = none) (hcache : ∀ c ∈ (s.queue q).cache, c.1 ≠ (s.queue q).sqHead)
    (hne : (s.queue q).sqHead ≠ (s.queue q).sqTail) (hrev : (s.queue q).revise = none) (hfault : s.readFault (s.entryAt q) 64 = none) :
    (s.prefetch q).headEntry q = some (s.hostRead (s.entryAt q) 64) := by
  have hnone : ((s.queue q).cache.find? fun c => c.1 == (s.queue q).sqHead) = none :=
    List.find?_eq_none.2 fun c hc => by simpa using hcache c hc
  have hcached : ((s.queue q).cache.any fun c => c.1 == (s.queue q).sqHead) = false :=
    List.any_eq_false.2 fun c hc => by simpa using hcache c hc
  have hn : 0 < min 8 (diff32 (s.queue q).sqTail (s.queue q).sqHead) := by
    refine lt_min (by decide) (Nat.pos_of_ne_zero fun h0 => hne ?_)
    unfold diff32 at h0
    bv_omega
  have hahead : ∃ l, (s.queue q).ahead = (s.queue q).sqHead :: l := by
    obtain ⟨n, hn'⟩ := Nat.exists_eq_succ_of_ne_zero hn.ne'
    unfold Queue.ahead
    rw [hrev]
    dsimp only
    rw [hn', List.range_succ_eq_map, List.map_cons, List.filter_cons, show BitVec.ofNat 32 0 = 0#32 from rfl, BitVec.add_zero, hcached]
    exact ⟨_, rfl⟩
  obtain ⟨l, hl⟩ := hahead
  have hfault' : (s.rdFault (s.queue q).isModule ((s.queue q).entryAddr (s.queue q).sqHead) 64).isNone = true := by
    rw [hmod]
    exact Option.isNone_iff_eq_none.2 hfault
  have hgot : ∃ m, s.ahead q = ((s.queue q).sqHead, s.hostRead (s.entryAt q) 64) :: m := by
    unfold State.ahead
    rw [hl, List.filter_cons, if_pos hfault', List.map_cons, hmod]
    exact ⟨_, rfl⟩
  obtain ⟨m, hm⟩ := hgot
  rw [s.headEntry_prefetch, List.find?_append, hnone, hm, List.find?_cons_of_pos (by simp)]
  rfl

/-- An entry at the front of the cache is taken from there. -/
theorem headEntry_of_cached {raw : Bytes} (h : (s.queue q).cache.head? = some ((s.queue q).sqHead, raw)) :
    (s.prefetch q).headEntry q = some raw := by
  obtain ⟨l, hl⟩ := List.head?_eq_some_iff.1 h
  rw [s.headEntry_prefetch, hl, List.cons_append, List.find?_cons_of_pos (by simp)]
  rfl

/-! ### An entry that is whole in itself (R242) -/

theorem badReason_congr {t : State} (hjobs : t.jobs = s.jobs) (Q : Queue) (l : List (BitVec 32 × Bytes)) (raw : Bytes) :
    badReason t { Q with cache := l } raw = badReason s Q raw := by
  unfold badReason chainBad State.job?
  rw [hjobs]

/-- A well-formed entry of a queue without chains is the first and the last of its job. -/
theorem entry_single {Q : Queue} {raw : Bytes} (hgood : badReason s Q raw = none) (hchained : Q.chained = false) (hskip : Q.skip = false) :
    fFirst (parseEntry raw).flags = true ∧ fLast (parseEntry raw).flags = true := by
  unfold badReason chainBad at hgood
  rw [hchained, hskip] at hgood
  by_contra h
  simp only [Bool.false_and, Bool.not_false, Bool.true_and, if_true] at hgood
  have hpart : (fFirst (parseEntry raw).flags && fLast (parseEntry raw).flags) = false := by
    rw [← Bool.not_eq_true, Bool.and_eq_true]
    exact h
  rw [hpart, Bool.not_false, if_pos rfl] at hgood
  split_ifs at hgood

/-! ### The turn of a queue (11, R262) -/

/-- What precedes the consumption of an entry changes neither queues nor jobs. -/
theorem turn_askLead_eq (s : State) (q : Nat) (rs : List (Nat × Nat)) :
    ∃ a b c d, (s.turn q).askLead rs = { s with fns := a, lastServed := b, lastFn := c, cluster := d } := by
  have hturn : ∃ a b c, s.turn q = { s with fns := a, lastServed := b, lastFn := c } := by
    unfold State.turn
    dsimp only
    split <;> exact ⟨_, _, _, rfl⟩
  obtain ⟨a, b, c, hturn⟩ := hturn
  rw [hturn]
  unfold State.askLead
  split
  · exact ⟨a, b, c, _, rfl⟩
  · exact ⟨a, b, c, s.cluster, rfl⟩

end

/-- The job that a whole entry opens, in a queue whose cache holds it. -/
theorem consumeAt_single {w x : State} {q : Nat} {raw : Bytes} (hx : w.prefetch q = x) (hraw : x.headEntry q = some raw)
    (hgood : badReason x (x.queue q) raw = none) (hchained : (x.queue q).chained = false) (hskip : (x.queue q).skip = false) :
    ∃ acted, ∃ y : State, w.consumeAt q = y.consumed x.nextSeq ∧
      y.jobs = tput x.jobs x.nextSeq (jobOf (x.queue q) q (parseEntry raw) x.nextSeq acted) ∧ y.nextSeq = x.nextSeq + 1 ∧
      (y.queue q).sqHead = (x.queue q).sqHead + 1 ∧ (y.queue q).reserved = (x.queue q).reserved + 1 ∧ y.hostMem = x.hostMem ∧
      y.lc = x.lc ∧ y.variant = x.variant ∧ y.pending = x.pending := by
  obtain ⟨hfirst, hlast⟩ := entry_single hgood hchained hskip
  unfold State.consumeAt
  rw [hx]
  dsimp only
  rw [hraw]
  dsimp only
  rw [hgood]
  dsimp only
  rw [hskip, hfirst, hlast, Bool.false_and, if_neg Bool.false_ne_true, if_pos rfl, if_pos rfl]
  let e := parseEntry raw
  let t1 := x.modQueue q fun Q => { Q with sqHead := Q.sqHead + 1, started := true, cache := Q.cache.filter fun c => c.1 != Q.sqHead }
  have hqueue : t1.queue q = { x.queue q with
      sqHead := (x.queue q).sqHead + 1, started := true, cache := (x.queue q).cache.filter fun c => c.1 != (x.queue q).sqHead } :=
    x.modQueue_queue_same q _
  have hfinal (u : State) : (u.modQueue q fun Q => { Q with reserved := Q.reserved + 1, skip := false, chain := none }).queue q =
      { u.queue q with reserved := (u.queue q).reserved + 1, skip := false, chain := none } := u.modQueue_queue_same q _
  refine ⟨_, _, rfl, rfl, rfl, ?_, ?_, rfl, rfl, rfl, rfl⟩
  · exact (congrArg Queue.sqHead (hfinal _)).trans (congrArg Queue.sqHead hqueue :)
  · exact (congrArg Queue.reserved (hfinal _)).trans (congrArg (fun Q : Queue => Q.reserved + 1) hqueue :)

/-! ### The consumption of an entry -/

/-- The state in which the queue whose turn it is has its entry consumed. -/
def State.turned (s : State) (q : Nat) : State := ((s.turn q).askLead ((s.queue q).ahead.map fun i => ((s.queue q).entryAddr i, 64))).prefetch q

/-- The entry consumed from it. -/
def State.consumeTurned (s : State) (q : Nat) : State :=
  ((s.turn q).askLead ((s.queue q).ahead.map fun i => ((s.queue q).entryAddr i, 64))).consumeAt q

theorem State.turned_eq (s : State) (q : Nat) :
    ∃ a b c d, s.turned q = { s with fns := a, lastServed := b, lastFn := c, cluster := d, queues := (s.prefetch q).queues } := by
  obtain ⟨a, b, c, d, h⟩ := turn_askLead_eq s q ((s.queue q).ahead.map fun i => ((s.queue q).entryAddr i, 64))
  refine ⟨a, b, c, d, ?_⟩
  unfold State.turned
  rw [h, State.prefetch_def, s.prefetch_def]
  change (if (s.ahead q).isEmpty then _ else _) = _
  split <;> rfl

section
variable {s : State} {q : Nat} {raw : Bytes}

theorem State.turned_queues (s : State) (q : Nat) : (s.turned q).queues = (s.prefetch q).queues := by
  obtain ⟨a, b, c, d, h⟩ := s.turned_eq q
  rw [h]

theorem State.turned_queue (s : State) (q : Nat) : (s.turned q).queue q = { s.queue q with cache := (s.queue q).cache ++ s.ahead q } := by
  rw [State.queue_congr (s.turned_queues q), s.prefetch_queue]

theorem State.headEntry_turned (s : State) (q : Nat) : (s.turned q).headEntry q = (s.prefetch q).headEntry q := by
  unfold State.headEntry
  rw [State.queue_congr (s.turned_queues q)]

theorem consumeTurned_unread (h : (s.prefetch q).headEntry q = none) : s.consumeTurned q = (s.turned q).malformed q 9 := by
  have hx : s.consumeTurned q = match (s.turned q).headEntry q with
    | none => (s.turned q).malformed q 9
    | some _ => s.consumeTurned q := by
    rw [s.headEntry_turned, h]
    unfold State.consumeTurned State.consumeAt
    dsimp only
    rw [show State.headEntry (State.prefetch _ q) q = none from (s.headEntry_turned q).trans h]
    rfl
  rw [hx, s.headEntry_turned, h]

section
variable (hraw : (s.prefetch q).headEntry q = some raw)
include hraw

theorem consumeTurned_bad {r : Nat} (hbad : badReason s (s.queue q) raw = some r) : s.consumeTurned q = (s.turned q).malformed q r := by
  obtain ⟨a, b, c, d, h⟩ := s.turned_eq q
  have hreason : badReason (s.turned q) ((s.turned q).queue q) raw = some r := by
    rw [s.turned_queue, badReason_congr (s := s) (by rw [h]), hbad]
  unfold State.consumeTurned State.consumeAt
  dsimp only
  rw [show State.headEntry (State.prefetch _ q) q = some raw from (s.headEntry_turned q).trans hraw]
  dsimp only
  rw [show badReason (State.prefetch _ q) (State.queue (State.prefetch _ q) q) raw = some r from hreason]
  rfl

/-- A well-formed entry of a queue without chains is a new job, whose first checks follow. -/
theorem consumeTurned_single (hgood : badReason s (s.queue q) raw = none) (hchained : (s.queue q).chained = false)
    (hskip : (s.queue q).skip = false) : ∃ acted, ∃ y : State, s.consumeTurned q = y.consumed s.nextSeq ∧
      y.jobs = tput s.jobs s.nextSeq (jobOf (s.queue q) q (parseEntry raw) s.nextSeq acted) ∧ y.nextSeq = s.nextSeq + 1 ∧
      (y.queue q).sqHead = (s.queue q).sqHead + 1 ∧ (y.queue q).reserved = (s.queue q).reserved + 1 ∧ y.hostMem = s.hostMem ∧
      y.lc = s.lc ∧ y.variant = s.variant ∧ y.pending = s.pending := by
  obtain ⟨a, b, c, d, h⟩ := s.turned_eq q
  have hqueue := s.turned_queue q
  have hreason : badReason (s.turned q) ((s.turned q).queue q) raw = none := by
    rw [hqueue, badReason_congr (s := s) (by rw [h]), hgood]
  have hhead : (s.turned q).headEntry q = some raw := (s.headEntry_turned q).trans hraw
  have hsingle := consumeAt_single (x := s.turned q) rfl hhead hreason (by rw [hqueue]; exact hchained) (by rw [hqueue]; exact hskip)
  rw [hqueue, h] at hsingle
  exact hsingle

end

end

/-! ### The first checks of a consumed job (R238) -/

theorem functionCheck_congr {s t : State} (hlc : t.lc = s.lc) (hvar : t.variant = s.variant) (J : Job) (q : Nat) :
    t.functionCheck J q = s.functionCheck J q := by
  unfold State.functionCheck State.unitAbsent
  rw [hlc, hvar]

section
variable {y : State} {i q : Nat} {J : Job} (hJ : y.job? i = some J) (hsrc : J.src = .ring q)
include hJ hsrc

theorem consumed_refused (hphase : J.phase = .fetch) (hrel : J.released = 0) (hdur : J.durable = false) {st r : Nat}
    (hcheck : y.functionCheck J q = some (st, r)) : Answers i st r y (y.consumed i) ∧ ∀ k, k ≠ i → (y.consumed i).job? k = y.job? k := by
  have hx : y.consumed i = y.endJob i st r := by
    unfold State.consumed
    simp only [hJ, hsrc, hcheck]
  rw [hx]
  exact ⟨State.endJob_answers hJ (by simp [hphase]) hrel st r [], fun k hk => State.endJob_job_other hJ hdur st r [] hk⟩

theorem consumed_fetched (hcheck : y.functionCheck J q = none) :
    y.consumed i = y.modJob i fun J => { J with phase := .fetch, quadrant := y.stagingOf J } := by
  unfold State.consumed
  simp only [hJ, hsrc, hcheck]

end

/-- In `t` one entry of queue `q` of `s` has been consumed and has become the next job. -/
structure Consumed (q : Nat) (s t : State) : Prop where
  head : (t.queue q).sqHead = (s.queue q).sqHead + 1
  slot : (t.queue q).reserved = (s.queue q).reserved + 1
  seq : t.nextSeq = s.nextSeq + 1
  hostMem : t.hostMem = s.hostMem
  others : ∀ i, i ≠ s.nextSeq → t.job? i = s.job? i

section
variable {u : State} {q : Nat} {raw : Bytes} (hgood : badReason u (u.queue q) raw = none) (hchained : (u.queue q).chained = false)
  (hskip : (u.queue q).skip = false) (hraw : (u.prefetch q).headEntry q = some raw)
include hgood hchained hskip hraw

theorem consumeTurned_refused {st r : Nat}
    (hcheck : u.functionCheck (jobOf (u.queue q) q (parseEntry raw) u.nextSeq false) q = some (st, r)) :
    Consumed q u (u.consumeTurned q) ∧ Answered (u.consumeTurned q) u.nextSeq st r ∧ (u.consumeTurned q).pending = u.pending := by
  obtain ⟨acted, y, hy, hjobs, hseq, hhead, hslot, hmem, hlc, hvar, hpend⟩ := consumeTurned_single hraw hgood hchained hskip
  obtain ⟨-, hlast⟩ := entry_single hgood hchained hskip
  have hJ : y.job? u.nextSeq = some (jobOf (u.queue q) q (parseEntry raw) u.nextSeq acted) := by
    rw [State.job?, hjobs, tget_tput_same]
  have hphase : (jobOf (u.queue q) q (parseEntry raw) u.nextSeq acted).phase = .fetch := if_pos hlast
  obtain ⟨hans, hothers⟩ := consumed_refused hJ rfl hphase rfl rfl ((functionCheck_congr hlc hvar _ q).trans hcheck)
  rw [hy]
  have hqueue : (y.consumed u.nextSeq).queue q = y.queue q := State.queue_congr hans.queues q
  refine ⟨⟨?_, ?_, ?_, ?_, fun i hi => ?_⟩, hans.answered, hans.pending.trans hpend⟩
  · rw [hqueue, hhead]
  · rw [hqueue, hslot]
  · exact (congrArg State.nextSeq hans.ends.steady :).trans hseq
  · exact hans.hostMem.trans hmem
  · rw [hothers i hi, State.job?, hjobs, tget_tput_ne _ _ _ _ hi, ← State.job?]

theorem consumeTurned_fetched (hcheck : u.functionCheck (jobOf (u.queue q) q (parseEntry raw) u.nextSeq false) q = none) :
    Consumed q u (u.consumeTurned q) ∧ (u.consumeTurned q).pending = u.pending ∧
      ∃ K, (u.consumeTurned q).job? u.nextSeq = some K ∧ K.phase = .fetch ∧ K.src = .ring q ∧ K.fn = (u.queue q).fn ∧
        K.opcode = leAt raw 0 2 ∧ K.tag.toNat = leAt raw 4 4 ∧ K.handle = leAt raw 8 4 ∧ K.cls = leAt raw 15 1 ∧
        K.srcAddr = leAt raw 16 8 ∧ K.dst = leAt raw 24 8 ∧ K.totalLen = leAt raw 32 6 ∧ K.aux = leAt raw 40 8 ∧
        K.param.toNat = leAt raw 48 8 ∧ K.accepted = none ∧ K.seq = u.nextSeq := by
  obtain ⟨acted, y, hy, hjobs, hseq, hhead, hslot, hmem, hlc, hvar, hpend⟩ := consumeTurned_single hraw hgood hchained hskip
  have hJ : y.job? u.nextSeq = some (jobOf (u.queue q) q (parseEntry raw) u.nextSeq acted) := by
    rw [State.job?, hjobs, tget_tput_same]
  have hnext := consumed_fetched hJ rfl ((functionCheck_congr hlc hvar _ q).trans hcheck)
  rw [hy, hnext]
  refine ⟨⟨hhead, hslot, hseq, hmem, fun i hi => ?_⟩, hpend, _, State.modJob_job_some hJ fun J =>
    { J with phase := .fetch, quadrant := y.stagingOf J }, rfl, rfl, rfl, rfl, ?_, rfl, rfl, rfl, rfl, rfl, rfl, ?_, rfl, rfl⟩
  · rw [State.modJob_job, if_neg hi, State.job?, hjobs, tget_tput_ne _ _ _ _ hi, ← State.job?]
  · exact (BitVec.toNat_ofNat _ _).trans (Nat.mod_eq_of_lt (leAt_lt raw 4 4))
  · exact (BitVec.toNat_ofNat _ _).trans (Nat.mod_eq_of_lt (leAt_lt raw 48 8))

end

/-- A malformed entry of a queue that is neither a queue 0 nor a SAFETY queue fences it, and is not consumed (R243, R244). -/
theorem turned_malformed {u : State} {q : Nat} (hq : 256 ≤ q) (hsafety : (u.queue q).safety = false) (r : Nat) :
    let t := (u.turned q).malformed q r
    (t.queue q).mode = .fenced ∧ (t.queue q).reason = r ∧ (t.queue q).sqHead = (u.queue q).sqHead ∧ t.nextSeq = u.nextSeq ∧
      t.pending = u.pending := by
  intro t
  obtain ⟨a, b, c, d, h⟩ := u.turned_eq q
  have hqueue := u.turned_queue q
  have ht : t = (u.turned q).fenceQueue q r := State.malformed_of_plain hq (by rw [hqueue]; exact hsafety)
  have hq' := (u.turned q).fenceQueue_queue q r q
  rw [if_pos rfl, ← ht, hqueue] at hq'
  have hsteady := (u.turned q).fenceQueue_steady q r
  rw [← ht] at hsteady
  refine ⟨(congrArg Queue.mode hq' :), (congrArg Queue.reason hq' :), (congrArg Queue.sqHead hq' :), ?_, ?_⟩
  · rw [show t.nextSeq = (u.turned q).nextSeq from (congrArg State.nextSeq hsteady :), h]
  · rw [show t.pending = (u.turned q).pending from (congrArg State.pending hsteady :), h]

/-! ### The claim -/

/-- The waits that are marked before a turn change queues and functions alone. -/
theorem State.markWaits_eq (s : State) : ∃ q f, s.markWaits = { s with queues := q, fns := f } := by
  unfold State.markWaits
  dsimp only
  generalize List.eraseDups (α := Nat) _ = l
  have hfold : ∀ (l : List Nat) (u : State), ∃ f, eachOf l (fun u f => u.modFn f fun F => { F with throttled := true }) u =
      { u with fns := f } := by
    intro l
    induction l with
    | nil => exact fun u => ⟨u.fns, rfl⟩
    | cons f l ih =>
      intro u
      obtain ⟨g, hg⟩ := ih (u.modFn f fun F => { F with throttled := true })
      exact ⟨g, hg⟩
  obtain ⟨f, hf⟩ := hfold l { s with queues := _ }
  exact ⟨_, f, hf⟩

/-- Settles O31: the queue whose turn it is has its cached entry consumed; what follows depends on the entry's form and on the
first checks of its job alone. -/
theorem consumptionTakesTheNextEntry : Obligations.ConsumptionTakesTheNextEntry := by
  unfold Obligations.ConsumptionTakesTheNextEntry
  intro s now u
  have hx : exec (.consumeEntry now) s = done s (match u.pickQueue with
    | none => u
    | some q => u.consumeTurned q) := rfl
  obtain ⟨qs, fs, hu⟩ : ∃ q f, u = { s.at_ now with queues := q, fns := f } := (s.at_ now).markWaits_eq
  have hpend : u.pending = s.pending := by rw [hu]; rfl
  have hseq : u.nextSeq = s.nextSeq := by rw [hu]; rfl
  have hmem : u.hostMem = s.hostMem := by rw [hu]; rfl
  have hjobs : u.jobs = s.jobs := by rw [hu]; rfl
  refine ⟨fun hnone => ?_, fun q hpick hmod => ⟨fun hcache hne hrev hfault => ?_, fun raw hcached => headEntry_of_cached hcached,
    fun hunread hq hsafety => ?_, fun raw hraw => ⟨fun r hbad hq hsafety => ?_, fun hgood hchained hskip => ⟨fun st r hcheck => ?_,
      fun hcheck => ?_⟩⟩⟩⟩
  · rw [hx, hnone]
    exact done_eq hpend
  · exact headEntry_of_read hmod hcache hne hrev hfault
  all_goals rw [hpick] at hx
  · obtain ⟨hmode, hreason, hhead, hnext, hp⟩ := turned_malformed hq hsafety 9
    exact .of_done (hx.trans (congrArg (done s) (consumeTurned_unread hunread))) (hp.trans hpend) ⟨hmode, hreason, hhead, hnext.trans hseq⟩
  · obtain ⟨hmode, hreason, hhead, hnext, hp⟩ := turned_malformed hq hsafety r
    exact .of_done (hx.trans (congrArg (done s) (consumeTurned_bad hraw hbad))) (hp.trans hpend) ⟨hmode, hreason, hhead, hnext.trans hseq⟩
  · obtain ⟨hc, hans, hp⟩ := consumeTurned_refused hgood hchained hskip hraw hcheck
    exact .of_done hx (hp.trans hpend) ⟨⟨hc.head, hc.slot, hc.seq.trans (by rw [hseq]), hc.hostMem.trans hmem,
      fun i hi => (hc.others i hi).trans (State.job?_congr hjobs i)⟩, hans⟩
  · obtain ⟨hc, hp, K, hK⟩ := consumeTurned_fetched hgood hchained hskip hraw hcheck
    rw [hseq] at hK
    exact .of_done hx (hp.trans hpend) ⟨⟨hc.head, hc.slot, hc.seq.trans (by rw [hseq]), hc.hostMem.trans hmem,
      fun i hi => (hc.others i hi).trans (State.job?_congr hjobs i)⟩, K, hseq ▸ hK⟩

end Sys2Proof.Machine
end


section
/-! PROOF. The entry that a job leaves at its end, and the fetch stage (10_job_rings.md R226, R238-R240; 12, R293). -/

namespace Sys2Proof.Machine

/-! ### The entry that a job leaves at its end (04, R88) -/

/-- What a job that has released nothing leaves of itself at its end. -/
def State.finished (s : State) (J : Job) (status result : Nat) (ret : Bytes) : Job :=
  { J.mapRuns (fun _ r => { r with mode := .ended, done := s.executed r }) with
    phase := .ended, status := status, result := result, ret := ret, out := none, request := .none,
    staged := 0, overflow := 0, input := [], auxIn := [], zone := false, newIdx := [],
    commit := if J.commit = .needed then .none else J.commit, waitFor := none,
    logRes := if J.commit = .posted then J.logRes else none }

theorem State.endJob_body {s : State} {j : Nat} {J : Job} (hJ : s.job? j = some J)
    (hlive : ¬ (J.phase = .ended ∨ J.phase = .delayed)) (hrel : J.released = 0) (status result : Nat) (ret : Bytes) :
    ((s.endJob j status result ret).job? j).map Job.body = some (s.finished J status result ret).body := by
  have hafter (u : State) (k : Nat) (K : Job) :
      (((((u.freeSlots k).passCommit k K).scrubCores K).treeEnds K).job? j).map Job.body = (u.job? j).map Job.body := by
    rw [State.job?_congr (State.treeEnds_jobs _ K), State.job?_congr (State.scrubCores_jobs _ K),
      (State.passCommit_ends (fun _ => False) _ k K).job j id, State.job?_congr (State.freeSlots_jobs u k)]
  unfold State.endJob
  simp only [hJ]
  rw [if_neg hlive, if_pos (Or.inl hrel), State.job?_congr (eachOf_keeps State.jobs _ _ State.settleTile_jobs _)]
  cases J.logRes <;>
    simp only [ite_job?, State.logUnreserve_job?, ite_self, hafter, State.modJob_job, if_true, hJ] <;> rfl

/-- The returned value of a job that has ended. -/
theorem State.endJob_ret {s : State} {j : Nat} {J : Job} (hJ : s.job? j = some J)
    (hlive : ¬ (J.phase = .ended ∨ J.phase = .delayed)) (hrel : J.released = 0) (status result : Nat) (ret : Bytes) :
    ∃ K, (s.endJob j status result ret).job? j = some K ∧ K.ret = ret := by
  obtain ⟨K, hK, hbody⟩ := Option.map_eq_some_iff.1 (State.endJob_body hJ hlive hrel status result ret)
  exact ⟨K, hK, (congrArg Job.ret hbody :)⟩

/-! ### The host ranges of a job -/

/-- A request for host ranges changes the cluster alone. -/
theorem State.askJob_eq (s : State) (J : Job) (rs : List (Nat × Nat)) : ∃ c, s.askJob J rs = { s with cluster := c } := by
  unfold State.askJob State.askLead
  split
  · split
    · exact ⟨_, rfl⟩
    · exact ⟨s.cluster, rfl⟩
  · exact ⟨s.cluster, rfl⟩

/-- One direct range is read whole, or its failure is found. -/
theorem readPieces_one (s : State) (i a n : Nat) : s.readPieces none i [(a, n)] =
    if n = 0 then .ok [] else match s.readFault a n with
      | some k => .error (i, k)
      | none => .ok (s.hostRead a n) := by
  unfold State.readPieces State.rdFault
  dsimp only
  split
  · rfl
  · cases s.readFault a n with
    | none =>
      dsimp only
      unfold State.readPieces
      dsimp only
      rw [List.append_nil]
      rfl
    | some k => rfl

theorem readPieces_one_ok {s : State} (i : Nat) {a n : Nat} (h : n = 0 ∨ s.readFault a n = none) :
    s.readPieces none i [(a, n)] = .ok (s.hostRead a n) := by
  rw [readPieces_one]
  split
  next hn =>
    subst hn
    rfl
  next hn => rw [h.resolve_left hn]

theorem readPieces_one_fault {s : State} (i : Nat) {a n k : Nat} (hn : 0 < n) (h : s.readFault a n = some k) :
    s.readPieces none i [(a, n)] = .error (i, k) := by
  rw [readPieces_one, if_neg hn.ne', h]

/-! ### The fetch stage -/

section
variable {s : State} {j now : Nat} {J : Job} (hJ : s.job? j = some J)
include hJ

theorem exec_fetchStage (hphase : J.phase = .fetch) (hadmin : J.admin = false) : ∃ c, exec (.fetchStage j now) s =
    done s (if entryOk J then ({ s.at_ now with cluster := c } : State).fetchInput j J
      else ({ s.at_ now with cluster := c } : State).endJob j St.malformed 0) := by
  obtain ⟨c, hc⟩ := (s.at_ now).askJob_eq J ((s.at_ now).fetchRanges J)
  refine ⟨c, ?_⟩
  have hx : exec (.fetchStage j now) s = execFetchStage j now s := rfl
  unfold execFetchStage at hx
  dsimp only at hx
  rw [show State.job? (s.at_ now) j = some J from hJ] at hx
  dsimp only at hx
  rw [hc, if_pos hphase, hadmin, if_neg Bool.false_ne_true] at hx
  exact hx

/-- In a state that only the time and the cluster set apart, the job ends. -/
theorem fetch_ends (hphase : J.phase = .fetch) (hrel : J.released = 0) (c : Cluster) (status result : Nat) (ret : Bytes)
    (hx : exec (.fetchStage j now) s = done s (({ s.at_ now with cluster := c } : State).endJob j status result ret)) :
    Completes (.fetchStage j now) s fun t => Answered t j status result ∧ (∃ K, t.job? j = some K ∧ K.ret = ret) ∧ t.hostMem = s.hostMem := by
  have hJ' : State.job? ({ s.at_ now with cluster := c } : State) j = some J := hJ
  have hlive : ¬ (J.phase = .ended ∨ J.phase = .delayed) := by simp [hphase]
  have hans := State.endJob_answers hJ' hlive hrel status result ret
  exact .of_done hx hans.pending ⟨hans.answered, State.endJob_ret hJ' hlive hrel status result ret, hans.hostMem⟩

variable (hphase : J.phase = .fetch) (hadmin : J.admin = false)
include hphase hadmin

theorem completes_fetchStage_malformed (hrel : J.released = 0) (hbad : entryOk J = false) :
    Completes (.fetchStage j now) s fun t => Answered t j St.malformed 0 ∧ t.hostMem = s.hostMem := by
  obtain ⟨c, hx⟩ := exec_fetchStage (now := now) hJ hphase hadmin
  rw [hbad, if_neg Bool.false_ne_true] at hx
  obtain ⟨t, hx, hans, -, hmem⟩ := fetch_ends hJ hphase hrel c _ _ _ hx
  exact ⟨t, hx, hans, hmem⟩

variable (hok : entryOk J = true) (hmem : s.memOf J = none)
include hok hmem

/-- The staged form of a job whose input is one direct range. -/
def Job.stagedDirect (J : Job) (input : Bytes) : Job :=
  { J with input := input, auxIn := [], staged := J.totalLen, overflow := 0, windowed := false, arrived := J.totalLen, early := false,
           phase := .staged }

section
variable (hdirect : fIndirect J.flags.toNat = false) (hone : J.entries = 1) (haux : J.auxParts = []) (hlen : J.totalLen ≤ 2097152)
  (hmax : J.totalLen ≤ s.jobMax) (hfree : J.totalLen ≤ s.stagingFree J.quadrant)
  (hover : s.overflowUsed ≤ s.overflowMib * 2 ^ 20) (hgen : J.opcode ≠ 0x8000) (himp : J.opcode ≠ 0x8100)
include hdirect hone haux hlen hmax hfree hover hgen himp

theorem exec_fetchStage_direct : ∃ c, exec (.fetchStage j now) s = done s (
    match s.readPieces none 0 [(J.srcAddr, J.totalLen)] with
    | .error (i, k) => ({ s.at_ now with cluster := c } : State).fragFault j i k
    | .ok input => ({ s.at_ now with cluster := c } : State).modJob j fun _ => J.stagedDirect input) := by
  obtain ⟨c, hx⟩ := exec_fetchStage (now := now) hJ hphase hadmin
  refine ⟨c, ?_⟩
  rw [hok, if_pos rfl] at hx
  rw [hx]
  congr 1
  let u : State := { s.at_ now with cluster := c }
  have hpieces : cutPieces 0 J.totalLen J.srcPieces = [(J.srcAddr, J.totalLen)] := by
    unfold Job.srcPieces
    rw [if_pos ⟨hone, by simp [hdirect]⟩]
    simp [cutPieces]
  have hfirst : J.firstPos = 0 := if_neg (by omega)
  have htemplate (K : Job) (hK : K.opcode = J.opcode) : ¬ templateBad K = true := by
    simp [templateBad, hK, hgen, himp]
  unfold State.fetchInput
  dsimp only
  rw [hdirect, if_neg Bool.false_ne_true, if_neg (by omega)]
  unfold State.gather
  dsimp only
  rw [hadmin, if_neg Bool.false_ne_true, haux]
  have hwin : decide (State.jobMax u < J.totalLen) = false := decide_eq_false (Nat.not_lt.2 hmax)
  have hneed : State.stageNeed u (J.totalLen + auxTotal (auxLayout (fun off n => u.rd (u.memOf J) (J.aux + off) n) 0 [])) =
      (J.totalLen, 0) := if_pos hlen
  have hread : State.readPieces u (u.memOf J) 0 [(J.srcAddr, J.totalLen)] = s.readPieces none 0 [(J.srcAddr, J.totalLen)] := by
    rw [show State.memOf u J = none from hmem, readPieces_one, readPieces_one]
    rfl
  rw [hwin, Bool.false_and, if_neg Bool.false_ne_true, hneed, hfirst, hpieces]
  dsimp only
  rw [show decide (State.stagingFree u J.quadrant < J.totalLen) = false from decide_eq_false (Nat.not_lt.2 hfree),
    if_neg (by simp), if_neg (show ¬ (u.overflowMib * 2 ^ 20 < State.overflowUsed u + 0) from Nat.not_lt.2 hover), hread]
  cases s.readPieces none 0 [(J.srcAddr, J.totalLen)] with
  | error e => rfl
  | ok input =>
    simp only [auxLayout, auxTotal, auxDer, List.map_nil, List.sum_nil, if_true, List.zip_nil_left, List.findSome?_nil]
    refine (if_neg (htemplate _ ?_)).trans ?_ <;> rfl

/-- A direct range that can be read is staged. -/
theorem completes_fetchStage_direct (hread : J.totalLen = 0 ∨ s.readFault J.srcAddr J.totalLen = none) :
    Completes (.fetchStage j now) s fun t => t.job? j = some (J.stagedDirect (s.hostRead J.srcAddr J.totalLen)) ∧
      t = { s with time := s.time.to now, jobs := t.jobs, cluster := t.cluster } ∧ ∀ i, i ≠ j → t.job? i = s.job? i := by
  obtain ⟨c, hx⟩ := exec_fetchStage_direct (now := now) hJ hphase hadmin hok hmem hdirect hone haux hlen hmax hfree hover hgen himp
  rw [readPieces_one_ok 0 hread] at hx
  refine .of_done hx rfl ⟨State.modJob_job_some hJ fun _ => J.stagedDirect (s.hostRead J.srcAddr J.totalLen), rfl, fun i hi => ?_⟩
  exact (State.modJob_job _ j i fun _ => J.stagedDirect (s.hostRead J.srcAddr J.totalLen)).trans (if_neg hi)

/-- A direct range that cannot be read ends the job. -/
theorem completes_fetchStage_fault (hrel : J.released = 0) {k : Nat} (hpos : 0 < J.totalLen)
    (hfault : s.readFault J.srcAddr J.totalLen = some k) :
    Completes (.fetchStage j now) s fun t => Answered t j St.fragFault 0 ∧ (∃ K, t.job? j = some K ∧ K.ret = [BitVec.ofNat 8 k]) ∧
      t.hostMem = s.hostMem := by
  obtain ⟨c, hx⟩ := exec_fetchStage_direct (now := now) hJ hphase hadmin hok hmem hdirect hone haux hlen hmax hfree hover hgen himp
  rw [readPieces_one_fault 0 hpos hfault] at hx
  exact fetch_ends hJ hphase hrel c _ _ _ hx

end

/-- Fragments whose lengths do not sum to TOTAL_LEN (R239). -/
theorem completes_fetchStage_lenMismatch (hrel : J.released = 0) (hind : fIndirect J.flags.toNat = true) (halign : J.srcAddr % 16 = 0)
    (hread : s.readFault J.srcAddr (16 * J.fragCount) = none) {fr : List Frag}
    (hfr : fr = parseFrags (s.hostRead J.srcAddr (16 * J.fragCount)) J.fragCount) (hflags : ∀ f ∈ fr, f.flags < 2)
    (hsum : (fr.map (·.len)).sum ≠ J.totalLen) :
    Completes (.fetchStage j now) s fun t => Answered t j St.lenMismatch ((fr.map (·.len)).sum % 2 ^ 48) ∧ t.hostMem = s.hostMem := by
  obtain ⟨c, hx⟩ := exec_fetchStage (now := now) hJ hphase hadmin
  rw [hok, if_pos rfl] at hx
  let u : State := { s.at_ now with cluster := c }
  have hnone : fr.findIdx? (fun f => decide (2 ≤ f.flags)) = none :=
    List.findIdx?_eq_none_iff.2 fun f hf => decide_eq_false (Nat.not_le.2 (hflags f hf))
  have hend : u.fetchInput j J = u.endJob j St.lenMismatch ((fr.map (·.len)).sum % 2 ^ 48) := by
    unfold State.fetchInput
    dsimp only
    rw [hind, if_pos rfl, if_neg (by omega), show State.memOf u J = none from hmem]
    rw [show State.rdFault u none J.srcAddr (16 * J.fragCount) = none from hread]
    dsimp only
    rw [show parseFrags (State.rd u none J.srcAddr (16 * J.fragCount)) J.fragCount = fr from hfr.symm, hnone]
    dsimp only
    rw [if_pos hsum]
  obtain ⟨t, ht, hans, -, hmem'⟩ := fetch_ends hJ hphase hrel c _ _ _ (hx.trans (congrArg (done s) hend))
  exact ⟨t, ht, hans, hmem'⟩

end

/-! ### Further input (12, R293) -/

theorem completes_windowInputArrival {s : State} {j now bytes : Nat} {J : Job} (hJ : s.job? j = some J) (hphase : J.phase ≠ .ended)
    (hwin : J.windowed = true) (hmore : J.arrived < J.totalLen) (hmem : s.memOf J = none) (hdirect : fIndirect J.flags.toNat = false)
    (hone : J.entries = 1) (hread : min bytes (J.totalLen - J.arrived) = 0 ∨
      s.readFault (J.srcAddr + J.arrived) (min bytes (J.totalLen - J.arrived)) = none) :
    let n := min bytes (J.totalLen - J.arrived)
    Completes (.windowInputArrival j bytes now) s fun t =>
      t.job? j = some { J with input := J.input ++ s.hostRead (J.srcAddr + J.arrived) n, arrived := J.arrived + n, stalled := false } ∧
      t = { s with time := s.time.to now, jobs := t.jobs, cluster := t.cluster } := by
  intro n
  have hsrc : J.srcPieces = [(J.srcAddr, J.totalLen)] := by
    unfold Job.srcPieces
    rw [if_pos ⟨hone, by simp [hdirect]⟩]
  have hsum : min J.totalLen (J.srcPieces.map (·.2)).sum = J.totalLen := by simp [hsrc]
  have hcut : cutPieces J.arrived n J.srcPieces = [(J.srcAddr + J.arrived, n)] := by
    have h1 : min J.arrived J.totalLen = J.arrived := by omega
    have h2 : min n (J.totalLen - J.arrived) = n := by omega
    simp only [hsrc, cutPieces, h1, h2]
  obtain ⟨c, hc⟩ := (s.at_ now).askJob_eq J [(J.srcAddr + J.arrived, n)]
  let u : State := { s.at_ now with cluster := c }
  have hgot : State.readPieces u (u.memOf J) J.firstPos [(J.srcAddr + J.arrived, n)] = .ok (s.hostRead (J.srcAddr + J.arrived) n) := by
    rw [show State.memOf u J = none from hmem]
    exact readPieces_one_ok (s := u) _ hread
  have hx : exec (.windowInputArrival j bytes now) s = execWindowInputArrival j bytes now s := rfl
  unfold execWindowInputArrival at hx
  dsimp only at hx
  rw [show State.job? (s.at_ now) j = some J from hJ] at hx
  dsimp only at hx
  rw [hsum, if_neg (by simp [hwin, hphase]; omega), hcut, hc, hgot] at hx
  dsimp only at hx
  exact .of_done hx rfl ⟨State.modJob_job_some (s := u) hJ _, rfl⟩

/-- Settles O32: the fetch stage stages a direct range, or ends the job with the status of the check that fails. -/
theorem fetchStagesOrRefusesInput : Obligations.FetchStagesOrRefusesInput := by
  unfold Obligations.FetchStagesOrRefusesInput
  refine ⟨fun s j now J hJ hphase hadmin hrel => ⟨fun hbad => ?_, fun hok hmem =>
      ⟨fun hdirect hone haux hlen hmax hfree hover hgen himp => ⟨fun hread => ?_, fun k hpos hfault => ?_⟩,
        fun hind halign hread hflags hsum => ?_⟩⟩,
    fun s j now bytes J hJ hphase hwin hmore hmem hdirect hone hread => ?_⟩
  · exact completes_fetchStage_malformed hJ hphase hadmin hrel hbad
  · exact completes_fetchStage_direct hJ hphase hadmin hok hmem hdirect hone haux hlen hmax hfree hover hgen himp hread
  · exact completes_fetchStage_fault hJ hphase hadmin hok hmem hdirect hone haux hlen hmax hfree hover hgen himp hrel hpos hfault
  · exact completes_fetchStage_lenMismatch hJ hphase hadmin hok hmem hrel hind halign hread rfl hflags hsum
  · exact completes_windowInputArrival hJ hphase hwin hmore hmem hdirect hone hread

end Sys2Proof.Machine
end


section
/-! PROOF. What a record without a class A reaction leaves of a job that has ended, and admission
(12_deadlines.md R123, R237, R288; 09, R199, R208). -/

namespace Sys2Proof.Machine

/-! ### A job that has ended, and the key cache -/

/-- Job `j` has ended and has the body `b`, and the key cache is `c`. -/
structure Rested (j : Nat) (b : Job) (c : Table Cached) (s : State) : Prop where
  ended : b.phase = .ended
  body : (s.job? j).map Job.body = some b
  cache : s.keys.cache = c

theorem State.endJob_cache (s : State) (j status result : Nat) (ret : Bytes) :
    (s.endJob j status result ret).keys.cache = s.keys.cache :=
  State.endJob_keeps (fun u => u.keys.cache) (fun _ _ _ _ => rfl) (fun _ _ => rfl) (fun _ _ _ => rfl) (fun _ _ => rfl)
    (fun _ _ _ => rfl) (fun u r k => congrArg KeyStore.cache (congrArg State.keys (u.logUnreserve_reports r k).eq :))
    (.inr (State.zeroFill_keeps (fun u => u.keys.cache) (fun _ _ => rfl) (fun _ _ => rfl) fun _ _ _ => rfl)) _ _ _

namespace Rested
variable {j : Nat} {b : Job} {c : Table Cached} {s t : State}

theorem of_eq (h : Rested j b c s) (hjobs : t.jobs = s.jobs) (hkeys : t.keys = s.keys) : Rested j b c t :=
  ⟨h.ended, (congrArg (Option.map Job.body) (State.job?_congr hjobs j)).trans h.body, (congrArg KeyStore.cache hkeys).trans h.cache⟩

theorem of_reports (h : Rested j b c s) (hr : Reports s t) : Rested j b c t := h.of_eq hr.jobs (congrArg State.keys hr.eq :)

/-- The entry itself. -/
theorem entry (h : Rested j b c s) : ∃ K, s.job? j = some K ∧ K.phase = .ended := by
  obtain ⟨K, hK, hbody⟩ := Option.map_eq_some_iff.1 h.body
  exact ⟨K, hK, (congrArg Job.phase hbody :).trans h.ended⟩

theorem endJob (h : Rested j b c s) (k status result : Nat) (ret : Bytes) : Rested j b c (s.endJob k status result ret) := by
  by_cases hk : j = k
  · subst hk
    obtain ⟨K, hK, hphase⟩ := h.entry
    have hsame : s.endJob j status result ret = s := by
      unfold State.endJob
      simp only [hK]
      rw [if_pos (.inl hphase)]
    rwa [hsame]
  · exact ⟨h.ended, ((s.endJob_ends (· = k) rfl status result ret).job j hk).trans h.body, (s.endJob_cache k _ _ _).trans h.cache⟩

theorem abandonChain (h : Rested j b c s) (k : Nat) : Rested j b c (s.abandonChain k) := by
  unfold State.abandonChain
  split
  · split
    · split
      · exact (h.endJob k _ _ _).of_eq rfl rfl
      · exact h
    · exact h
  · exact h

theorem stopJob (h : Rested j b c s) (k : Nat) (req : Request) : Rested j b c (s.stopJob k req) := by
  unfold State.stopJob
  split
  · exact h
  next J hJ =>
    split
    · exact h
    next hlive =>
      split
      · exact h.abandonChain k
      · split
        · have hk : j ≠ k := by
            rintro rfl
            obtain ⟨K, hK, hphase⟩ := h.entry
            cases hJ.symm.trans hK
            exact hlive (.inl hphase)
          exact ⟨h.ended, (congrArg (Option.map Job.body) ((s.modJob_job k j _).trans (if_neg hk))).trans h.body, h.cache⟩
        · exact h.endJob k _ _ _

theorem each (l : List Nat) {f : State → Nat → State} (hf : ∀ t n, Rested j b c t → Rested j b c (f t n)) (h : Rested j b c s) :
    Rested j b c (eachOf l f s) := by
  induction l generalizing s with
  | nil => exact h
  | cons n l ih => exact ih (hf s n h)

theorem safeChart (h : Rested j b c s) : Rested j b c s.safeChart := by
  cases hop : s.chart.op with
  | none => rwa [s.safeChart_none hop]
  | some o =>
    obtain ⟨p, hp⟩ := s.safeChart_some hop
    rw [hp]
    exact (h.endJob o.job _ _ _).of_eq (State.unchart_keeps _ State.jobs (fun _ _ _ => rfl) o)
      (State.unchart_keeps _ State.keys (fun _ _ _ => rfl) o)

theorem enterSafe (h : Rested j b c s) (src sub id : Nat) : Rested j b c (s.enterSafe src sub id false) := by
  rw [State.enterSafe_stilled]
  obtain ⟨g, hg⟩ := s.entered_eq src id false
  have hentered : Rested j b c (s.entered src id false) := h.of_eq (by rw [hg]) (by rw [hg])
  have hjobs : Rested j b c (s.entered src id false).safeChart.safeJobs :=
    Rested.each _ (fun t k ht => ht.stopJob k .safe) hentered.safeChart
  have hstill := hjobs.of_eq (State.stilled_keeps _ (List.range (portsOf s.variant)) State.jobs (fun _ _ _ => rfl) (fun _ _ _ => rfl) fun _ _ _ => rfl)
    (State.stilled_keeps _ (List.range (portsOf s.variant)) State.keys (fun _ _ _ => rfl) (fun _ _ _ => rfl) fun _ _ _ => rfl)
  exact (hstill.of_reports (State.logEvent_reports _ _ _ _)).of_reports (State.glbEvent_reports _ _)

theorem reactB (h : Rested j b c s) (src sub : Nat) : Rested j b c (s.reactB src sub false) := by
  unfold State.reactB
  split
  · refine Rested.of_reports ?_ (State.logEvent_reports _ _ _ _)
    exact h.of_eq rfl rfl
  · refine Rested.enterSafe ?_ _ _ _
    exact h.of_eq rfl rfl

/-- A record of a source without a class A reaction. -/
theorem event {src : Nat} (hA : hasA src = false) (h : Rested j b c s) (sub aux : Nat) (job : Option Nat) :
    Rested j b c (s.event src sub aux job) := by
  have hmod (t : State) (f : Source → Source) (ht : Rested j b c t) : Rested j b c (t.modSrc src f) := ht.of_eq rfl rfl
  have hreactA (t : State) (ht : Rested j b c t) : Rested j b c (t.reactA src sub aux false) := by
    unfold State.reactA
    dsimp only
    rw [hA, if_pos (by simp)]
    exact ht.reactB src sub
  have hnoted : Rested j b c (s.noted src sub aux true false false job) := by
    rw [State.noted_eq_or]
    exact h.of_eq rfl rfl
  unfold State.event State.handle
  extract_lets win d acts s1 faults safe s2
  have hs2 : Rested j b c s2 := hnoted
  clear_value s2 safe faults s1 d win
  split
  · exact hs2
  · split
    · exact hmod _ _ (hs2.reactB src sub)
    · exact hs2
    · exact hreactA _ hs2
    · exact hs2.reactB src sub
    · exact hs2
    · unfold State.countStep
      extract_lets S fresh n st t
      have ht : Rested j b c t := hmod _ _ hs2
      split
      · split
        · exact ht
        · split
          · exact hreactA _ ht
          · exact ht.reactB src sub
      · exact hmod _ _ hs2

end Rested

/-! ### What an accepted job takes (09, R201, R208; 06, R135; 08, R181) -/

/-- What acceptance gives a job and what its operation has made: what it takes besides leaves them alone. -/
def Job.grant (J : Job) : Option Nat × Nat × Nat × Nat × Option JobOut × Option Nat × List JobStep × List (Nat × Nat × Nat) :=
  (J.accepted, J.acceptSeq, J.cls, J.opcode, J.out, J.deadline, J.steps, J.units)

/-- The uses of the key at an index, and its material. -/
def State.keyUse (s : State) (i : Nat) : Option (Nat × Bytes) := (s.key? i).map fun K => (K.uses, K.material)

/-- No grant, no count of acceptances and no host memory has changed. -/
structure Bears (s t : State) : Prop where
  grants : ∀ k, (t.job? k).map Job.grant = (s.job? k).map Job.grant
  seq : t.acceptSeq = s.acceptSeq
  hostMem : t.hostMem = s.hostMem
  pending : t.pending = s.pending

theorem Bears.refl (s : State) : Bears s s := ⟨fun _ => rfl, rfl, rfl, rfl⟩

theorem Bears.trans {s t u : State} (hst : Bears s t) (htu : Bears t u) : Bears s u where
  grants k := (htu.grants k).trans (hst.grants k)
  seq := htu.seq.trans hst.seq
  hostMem := htu.hostMem.trans hst.hostMem
  pending := htu.pending.trans hst.pending

/-- A job takes something that counts as no use of a key. -/
structure Takes (s t : State) : Prop extends Bears s t where
  uses : ∀ i, t.keyUse i = s.keyUse i

namespace Takes
variable {s t u : State}

theorem refl (s : State) : Takes s s := ⟨.refl s, fun _ => rfl⟩

theorem trans (hst : Takes s t) (htu : Takes t u) : Takes s u where
  toBears := hst.toBears.trans htu.toBears
  uses i := (htu.uses i).trans (hst.uses i)

theorem modJob (s : State) (j : Nat) {f : Job → Job} (hf : ∀ J, (f J).grant = J.grant) : Takes s (s.modJob j f) where
  grants k := by
    rw [State.modJob_job]
    split
    · cases s.job? k with
      | none => rfl
      | some J => exact congrArg some (hf J)
    · rfl
  seq := rfl
  hostMem := rfl
  pending := rfl
  uses _ := rfl

theorem modKey (s : State) (i : Nat) {f : Key → Key} (hf : ∀ K, s.key? i = some K → (f K).uses = K.uses ∧ (f K).material = K.material) :
    Takes s (s.modKey i f) where
  grants _ := rfl
  seq := rfl
  hostMem := rfl
  pending := rfl
  uses k := by
    unfold State.keyUse
    rw [State.modKey_key]
    split
    next hk =>
      subst hk
      cases hK : s.key? k with
      | none => rfl
      | some K =>
        obtain ⟨h1, h2⟩ := hf K hK
        simp [h1, h2]
    · rfl

end Takes

theorem State.startPrep_takes (s : State) (i : Nat) : Takes s (s.startPrep i) := by
  unfold State.startPrep
  split
  · exact .refl s
  · split
    · exact .refl s
    · split
      · exact .refl s
      · exact .modKey s i fun K _ => ⟨rfl, rfl⟩

theorem State.assignLeaf_takes (s : State) (j i : Nat) : Takes s (s.assignLeaf j i) := by
  unfold State.assignLeaf
  split
  · exact .refl s
  next H hH =>
    extract_lets v carries wait t u
    have ht : Takes s t := .modKey s i fun K _ => ⟨rfl, rfl⟩
    have hu : Takes t u := by
      unfold u
      split
      · exact t.startPrep_takes i
      · exact .refl t
    exact (ht.trans hu).trans (.modJob u j fun _ => rfl)

/-- The next counter value of a key leaves its uses and its material. -/
theorem takeNonce_rest {op p v : Nat} {K K' : Key} (h : takeNonce op p K = some (v, K')) : K'.uses = K.uses ∧ K'.material = K.material := by
  have hlease (L : Key) (hL : L.uses = K.uses ∧ L.material = K.material) (c : Prop) [Decidable c]
      (h : (if c then some (L.ctr, { L with ctr := L.ctr + 1 }) else none) = some (v, K')) : K'.uses = K.uses ∧ K'.material = K.material := by
    split at h
    · cases h
      exact hL
    · cases h
  unfold takeNonce at h
  extract_lets L inLease at h
  refine hlease L ?_ _ h
  unfold L
  split
  · split
    · split <;> exact ⟨rfl, rfl⟩
    · exact ⟨rfl, rfl⟩
    · exact ⟨rfl, rfl⟩
  · exact ⟨rfl, rfl⟩

theorem State.assignNonce_takes (s : State) (j i op p : Nat) : Takes s (s.assignNonce j i op p) := by
  unfold State.assignNonce
  split
  · exact .refl s
  next K hK =>
    split
    · exact .refl s
    next v K' hnonce =>
      extract_lets moves record c carries wait t keys u
      have ht : Takes s t := .modKey s i (f := fun _ => K') fun L hL => by
        cases hK.symm.trans hL
        exact takeNonce_rest hnonce
      have hu : Takes t u := by
        unfold u
        split
        · exact ⟨⟨fun _ => rfl, rfl, rfl, rfl⟩, fun _ => rfl⟩
        · exact .refl t
      exact (ht.trans hu).trans (.modJob u j fun _ => rfl)

theorem State.reserveIdx_takes (s : State) (j n : Nat) : Takes s ((s.reserveIdx j n).getD s) := by
  unfold State.reserveIdx
  cases s.freeIndices n [] with
  | none => exact .refl s
  | some l =>
    let u : State := { s with keys := { s.keys with gens := l.foldl (fun t i => tput t i ((tget t i).getD 0 + 1)) s.keys.gens } }
    have hu : Takes s u := ⟨⟨fun _ => rfl, rfl, rfl, rfl⟩, fun _ => rfl⟩
    exact hu.trans (.modJob u j fun _ => rfl)

/-- A use that counts adds one to the uses of its key and changes no other. -/
theorem State.countUse_spec (s : State) (i : Nat) (nonce : Bool) :
    Bears s (s.countUse i nonce) ∧ (s.countUse i nonce).keyUse i = (s.keyUse i).map fun e => (e.1 + 1, e.2) := by
  unfold State.countUse
  split
  next hK => exact ⟨.refl s, by simp [State.keyUse, hK]⟩
  next K hK =>
    extract_lets t keys u
    have hlive : u.keys.live = t.keys.live := by
      unfold u
      split <;> rfl
    have hrest : u.jobs = s.jobs ∧ u.acceptSeq = s.acceptSeq ∧ u.hostMem = s.hostMem ∧ u.pending = s.pending := by
      unfold u
      split <;> exact ⟨rfl, rfl, rfl, rfl⟩
    obtain ⟨hjobs, hseq, hmem, hpend⟩ := hrest
    have huse (w : State) (hw : w.keys.live = u.keys.live) : w.keyUse i = (s.keyUse i).map fun e => (e.1 + 1, e.2) := by
      have hkey : w.key? i = t.key? i := by rw [State.key?, hw, hlive, ← State.key?]
      unfold State.keyUse
      rw [hkey, State.modKey_key, if_pos rfl, hK]
      rfl
    split
    · exact ⟨⟨fun k => congrArg _ (State.job?_congr hjobs k), hseq, hmem, hpend⟩, huse _ rfl⟩
    · exact ⟨⟨fun k => congrArg _ (State.job?_congr hjobs k), hseq, hmem, hpend⟩, huse _ rfl⟩

/-! ### The acceptance of a job (12, R288) -/

section
variable (s : State) (j : Nat) (J : Job) (K : Option Key)

/-- What an accepted job takes once its uses are counted. -/
theorem State.takeRest_takes {t : State} (u : State) (h : Takes t u) (i op p : Nat) (c : Prop) [Decidable c] (destroys : Prop) [Decidable destroys]
    (g : Job → Job) (hg : ∀ J, (g J).grant = J.grant) :
    let t1 := if c then u.assignLeaf j i else if makesNonce op p then u.assignNonce j i op p else u
    let t2 := (t1.reserveIdx j J.newCount).getD t1
    let t3 := match J.logTarget with
      | some r => (t2.logReserve r j).modJob j fun J => { J with logRes := some r, commit := .needed }
      | none => if kindOf op == OpKind.keygen && stateful (algOf op) then t2.modJob j fun J => { J with commit := .needed } else t2
    let t4 := if destroys then t3.modKey i fun K => { K with destroy := some j } else t3
    Takes t (t4.modJob j g) := by
  intro t1 t2 t3 t4
  have h1 : Takes u t1 := by
    unfold t1
    split
    · exact u.assignLeaf_takes j i
    · split
      · exact u.assignNonce_takes j i op p
      · exact .refl u
  have h2 : Takes t1 t2 := t1.reserveIdx_takes j J.newCount
  have h3 : Takes t2 t3 := by
    unfold t3
    split
    next r _ =>
      have hlog : Takes t2 (t2.logReserve r j) := ⟨⟨fun _ => rfl, rfl, rfl, rfl⟩, fun _ => rfl⟩
      exact hlog.trans (.modJob _ j fun _ => rfl)
    · split
      · exact .modJob t2 j fun _ => rfl
      · exact .refl t2
  have h4 : Takes t3 t4 := by
    unfold t4
    split
    · exact .modKey t3 i fun K _ => ⟨rfl, rfl⟩
    · exact .refl t3
  exact h.trans (h1.trans (h2.trans (h3.trans (h4.trans (.modJob t4 j hg)))))

/-- What an accepted job takes: its grant stays, and the key in KEY_HANDLE counts one use where the job counts it. -/
theorem State.takeAll_spec : Bears s (s.takeAll j J K) ∧ (J.countsUse = true →
    (s.takeAll j J K).keyUse (handleIdx (s.keyHandleOf J)) = (s.keyUse (handleIdx (s.keyHandleOf J))).map fun e => (e.1 + 1, e.2)) := by
  let i := handleIdx (s.keyHandleOf J)
  let a := if J.countsUse then s.countUse i (makesNonce J.opcode J.param.toNat) else s
  let b := match J.kekUse with | some w => a.countUse w false | none => a
  have hrest : Takes b (s.takeAll j J K) :=
    State.takeRest_takes j J b (.refl b) i J.opcode J.param.toNat (kindOf J.opcode = .sign ∧ (K.bind (·.hbs)).isSome) (J.opcode = 0x8300)
      _ fun _ => rfl
  have ha : Bears s a := by
    unfold a
    split
    · exact (s.countUse_spec i _).1
    · exact .refl s
  have hb : Bears a b := by
    unfold b
    split
    next w _ => exact (a.countUse_spec w _).1
    · exact .refl a
  refine ⟨ha.trans (hb.trans hrest.toBears), fun hcounts => ?_⟩
  have hkek : J.kekUse = none := by
    unfold Job.kekUse
    rw [if_neg]
    rintro ⟨hop, -⟩
    simp [Job.countsUse, hop] at hcounts
  have hba : b = a := by
    unfold b
    rw [hkek]
  have hcount : a = s.countUse i (makesNonce J.opcode J.param.toNat) := if_pos hcounts
  rw [hrest.uses i, hba, hcount]
  exact (s.countUse_spec i _).2

end

/-- The entry of a job that is accepted. -/
def State.granted (s : State) (steps : List JobStep) (units : List (Nat × Nat × Nat)) (cls rel : Nat) (al2 : Bool) (J : Job) : Job :=
  { J with
    accepted := some s.time.elapsed, acceptSeq := s.acceptSeq, cls := cls, al2 := al2,
    deadline := if cls = 7 then none else some (s.time.elapsed + 1000 * s.deadlineUs cls),
    steps := steps, units := units, relBytes := rel, phase := .placed, pertAcc := (s.fn J.fn).pert,
    acted := J.acted || ((s.fn J.fn).pert && bitOf (s.fn J.fn).ctrl.toNat 4) }

/-- A job that has been decided on and accepted. -/
def State.accepts (s : State) (j : Nat) (J : Job) (K : Option Key) (steps : List JobStep) (units : List (Nat × Nat × Nat)) : State :=
  ((s.acceptJob j steps units J.cls (J.relNeed K) J.al2).takeAll j J K).modJob j fun J => { J with phase := .placed }

theorem State.accepts_spec {s : State} {j : Nat} {J : Job} (hJ : s.job? j = some J) (K : Option Key) (steps : List JobStep)
    (units : List (Nat × Nat × Nat)) :
    (∃ L, (s.accepts j J K steps units).job? j = some L ∧ L.phase = .placed ∧ L.grant = (some s.time.elapsed, s.acceptSeq, J.cls,
        J.opcode, J.out, if J.cls = 7 then none else some (s.time.elapsed + 1000 * s.deadlineUs J.cls), steps, units)) ∧
      (s.accepts j J K steps units).acceptSeq = s.acceptSeq + 1 ∧ (s.accepts j J K steps units).hostMem = s.hostMem ∧
      (s.accepts j J K steps units).pending = s.pending ∧
      (J.countsUse = true → (s.accepts j J K steps units).keyUse (handleIdx (s.keyHandleOf J)) =
        (s.keyUse (handleIdx (s.keyHandleOf J))).map fun e => (e.1 + 1, e.2)) := by
  let v := s.acceptJob j steps units J.cls (J.relNeed K) J.al2
  obtain ⟨hbears, huses⟩ := v.takeAll_spec j J K
  have hv : ∃ M, v.job? j = some M ∧ M.grant = (some s.time.elapsed, s.acceptSeq, J.cls, J.opcode, J.out,
      if J.cls = 7 then none else some (s.time.elapsed + 1000 * s.deadlineUs J.cls), steps, units) := by
    have hjobs : v.jobs = (s.modJob j (s.granted steps units J.cls (J.relNeed K) J.al2)).jobs := rfl
    exact ⟨_, (State.job?_congr hjobs j).trans (State.modJob_job_some hJ _), rfl⟩
  obtain ⟨M, hM, hgrant⟩ := hv
  have htaken := hbears.grants j
  rw [hM] at htaken
  obtain ⟨L, hL, hLM⟩ := Option.map_eq_some_iff.1 htaken
  refine ⟨⟨_, State.modJob_job_some hL fun J => { J with phase := .placed }, rfl, hLM.trans hgrant⟩, ?_, ?_, ?_, huses⟩
  · exact hbears.seq
  · exact hbears.hostMem
  · exact hbears.pending

/-! ### The decision on a staged job (R123, R237, R288) -/

/-- A key that passes a condition is the key that it was asked of. -/
theorem bind_guard_eq {o : Option Key} {c : Key → Prop} [DecidablePred c] {K : Key}
    (h : (o.bind fun L => if c L then some L else none) = some K) : o = some K := by
  obtain ⟨L, hL, hcond⟩ := Option.bind_eq_some_iff.1 h
  split at hcond
  · cases hcond
    exact hL
  · cases hcond

/-- A key that serves a job is the live key at the index of its handle. -/
theorem State.key_of_jobKey {s : State} {J : Job} {K : Key} (h : s.jobKey J = some K) : s.key? (handleIdx (s.keyHandleOf J)) = some K := by
  have hby {h : Nat} {K : Key} (hK : s.keyByHandle h = some K) : s.key? (handleIdx h) = some K := by
    unfold State.keyByHandle at hK
    split at hK
    · cases hK
    · exact hK
  have hvis {f h : Nat} {K : Key} (hK : s.visibleKey f h = some K) : s.key? (handleIdx h) = some K := hby (bind_guard_eq hK)
  have hany {f h : Nat} {K : Key} (hK : (if J.fn = 0 then (s.keyByHandle h).bind fun K => if K.destroy.isNone then some K else none
      else s.visibleKey f h) = some K) : s.key? (handleIdx h) = some K := by
    split at hK
    · exact hby (bind_guard_eq hK)
    · exact hvis hK
  unfold State.jobKey at h
  dsimp only at h
  split at h
  · exact hany h
  · exact hany h
  · exact hvis h
  · exact hvis (bind_guard_eq h)
  · exact hvis h
  · obtain ⟨L, hL, hcond⟩ := Option.bind_eq_some_iff.1 h
    split at hcond
    · split at hcond
      · cases hcond
        exact hvis hL
      · cases hcond
    · split at hcond
      · cases hcond
        exact hvis hL
      · cases hcond

section
variable {s : State} {j now : Nat} {J : Job} (hdec : Decided (s.at_ now) j J)
include hdec

theorem exec_admission : exec (.admission j now) s =
    done s (((s.at_ now).decide_ j J).getD ((s.at_ now).modJob j fun J => { J with runWait := true })) := by
  obtain ⟨hJ, hphase, hreck, hfence, hsafe, hchart, -, -, hwait, -⟩ := hdec
  have hx : exec (.admission j now) s = execAdmission j now s := rfl
  unfold execAdmission at hx
  dsimp only at hx
  rw [hJ] at hx
  dsimp only at hx
  rw [if_neg (by simp [hphase, hreck, hwait, hfence, hchart, show s.faults.safe.on = false from hsafe])] at hx
  exact hx

/-- A job that is refused NOT_ADMITTED. -/
theorem notAdmit_spec (r : Nat) : Answered ((s.at_ now).notAdmit j r) j St.notAdmitted r ∧
    ((s.at_ now).notAdmit j r).keys = s.keys ∧ ((s.at_ now).notAdmit j r).pending = s.pending := by
  obtain ⟨hJ, hphase, -, -, -, -, -, hrel, -, hcommit, hout⟩ := hdec
  have hlive : ¬ (J.phase = .ended ∨ J.phase = .delayed) := by simp [hphase]
  obtain ⟨u, hu⟩ : ∃ u, u = (s.at_ now).refused r := ⟨_, rfl⟩
  have hrest : u.jobs = s.jobs ∧ u.keys = s.keys ∧ u.pending = s.pending := by
    rw [hu]
    unfold State.refused
    dsimp only
    split <;> exact ⟨rfl, rfl, rfl⟩
  obtain ⟨hjobs, hkeys, hpend⟩ := hrest
  have hJu : u.job? j = some J := (State.job?_congr hjobs j).trans hJ
  have hans := State.endJob_answers hJu hlive hrel St.notAdmitted r []
  have hdur : J.durable = false := by simp [Job.durable, hcommit]
  have hkept : (u.endJob j St.notAdmitted r).keys = u.keys :=
    State.endJob_field State.keys hJu (fun _ _ _ => rfl) (fun _ _ => rfl) (fun v => by rw [v.passCommit_of_not_durable j hdur])
      (fun v => by simp [State.treeEnds, hout]) (fun _ _ _ => rfl) (fun v r k => (congrArg State.keys (v.logUnreserve_reports r k).eq :))
      (.inl hrel) _ _ _
  have hplain : Answered (u.endJob j St.notAdmitted r) j St.notAdmitted r ∧ (u.endJob j St.notAdmitted r).keys = s.keys ∧
      (u.endJob j St.notAdmitted r).pending = s.pending := ⟨hans.answered, hkept.trans hkeys, hans.pending.trans hpend⟩
  unfold State.notAdmit
  dsimp only
  rw [hJ, ← hu]
  dsimp only
  split
  · obtain ⟨⟨L, hL, hLrest⟩, hk, hp⟩ := hplain
    exact ⟨⟨_, State.modJob_job_some hL fun J => { J with acted := true }, hLrest⟩, hk, hp⟩
  · exact hplain

theorem completes_admission_refused {r : Nat} (hrow : (s.at_ now).rowThree J = .refuse r) :
    Completes (.admission j now) s fun t => Answered t j St.notAdmitted r ∧ t.keys = s.keys := by
  have hx := exec_admission hdec
  obtain ⟨hans, hkeys, hpend⟩ := notAdmit_spec hdec r
  obtain ⟨-, -, -, -, -, -, hunit, -⟩ := hdec
  have hd : (s.at_ now).decide_ j J = some ((s.at_ now).notAdmit j r) := by
    unfold State.decide_
    dsimp only
    rw [hunit, if_neg Bool.false_ne_true, hrow]
  rw [hd] at hx
  exact .of_done hx hpend ⟨hans, hkeys⟩

section
variable {steps : List JobStep} {units : List (Nat × Nat × Nat)} (hrow : (s.at_ now).rowThree J = .place steps units)
include hrow

theorem completes_admission_answered {st r : Nat} (hlater : (s.at_ now).laterRows J = some (st, r)) (hst : st ≠ St.notAdmitted) :
    Completes (.admission j now) s fun t => Answered t j st r := by
  have hx := exec_admission hdec
  obtain ⟨hJ, hphase, -, -, -, -, hunit, hrel, -⟩ := hdec
  let u := (s.at_ now).modKey (handleIdx ((s.at_ now).keyHandleOf J)) fun K =>
    if st = St.keyExhausted ∧ K.shared then { K with asked := true } else K
  have hd : (s.at_ now).decide_ j J = some (u.endJob j st r) := by
    unfold State.decide_
    dsimp only
    rw [hunit, if_neg Bool.false_ne_true, hrow]
    dsimp only
    rw [hlater]
    dsimp only
    rw [if_neg hst]
  rw [hd] at hx
  have hans := State.endJob_answers (s := u) hJ (by simp [hphase]) hrel st r []
  exact .of_done hx hans.pending hans.answered

/-- A job that passes every check is accepted, its key in the cache or none to be cached. -/
theorem decide_accepts (hlater : (s.at_ now).laterRows J = none)
    (hcached : J.takesKey = false ∨ (∃ c, tget s.keys.cache (handleIdx (s.keyHandleOf J)) = some c) ∨ J.cachesKey = false) :
    ∃ c K g, (s.at_ now).decide_ j J = some { ({ s.at_ now with keys := { s.keys with cache := c } } : State).accepts j J K steps units with
      regs := g } := by
  obtain ⟨-, -, -, -, -, -, hunit, -⟩ := hdec
  unfold State.decide_
  dsimp only
  rw [hunit, if_neg Bool.false_ne_true, hrow]
  dsimp only
  rw [hlater]
  dsimp only
  generalize hK : (if J.takesKey = true then (s.at_ now).jobKey J else none) = K
  split
  next hkey =>
    obtain ⟨hsome, hcaches⟩ := hkey
    have hin : ∃ c, tget s.keys.cache (handleIdx (s.keyHandleOf J)) = some c := by
      rcases hcached with h | h | h
      · rw [h, if_neg Bool.false_ne_true] at hK
        rw [← hK] at hsome
        cases hsome
      · exact h
      · exact absurd (h.symm.trans hcaches) Bool.false_ne_true
    obtain ⟨c, hc⟩ := hin
    rw [if_pos (by rw [show tget (s.at_ now).keys.cache (handleIdx ((s.at_ now).keyHandleOf J)) = some c from hc]; rfl)]
    exact ⟨_, _, _, rfl⟩
  · exact ⟨s.keys.cache, _, _, rfl⟩

theorem completes_admission_accepted (hlater : (s.at_ now).laterRows J = none)
    (hcached : J.takesKey = false ∨ (∃ c, tget s.keys.cache (handleIdx (s.keyHandleOf J)) = some c) ∨ J.cachesKey = false) :
    Completes (.admission j now) s fun t =>
      (∃ K, t.job? j = some K ∧ K.phase = .placed ∧ K.accepted = some (s.at_ now).time.elapsed ∧ K.steps = steps ∧ K.units = units ∧
        K.acceptSeq = s.acceptSeq ∧ K.cls = J.cls ∧ K.opcode = J.opcode ∧ K.out = J.out ∧
        K.deadline = (if J.cls = 7 then none else some ((s.at_ now).time.elapsed + 1000 * s.deadlineUs J.cls))) ∧
      t.acceptSeq = s.acceptSeq + 1 ∧ t.hostMem = s.hostMem ∧
      (∀ K, (s.at_ now).jobKey J = some K → J.countsUse = true → ∃ K', t.key? (handleIdx (s.keyHandleOf J)) = some K' ∧
        K'.uses = K.uses + 1 ∧ K'.material = K.material) := by
  have hx := exec_admission hdec
  obtain ⟨c, K, g, hd⟩ := decide_accepts hdec hrow hlater hcached
  rw [hd] at hx
  let v : State := { s.at_ now with keys := { s.keys with cache := c } }
  obtain ⟨⟨L, hL, hphase, hgrant⟩, hseq, hmem, hpend, huse⟩ := State.accepts_spec (s := v) hdec.1 K steps units
  simp only [Job.grant, Prod.mk.injEq] at hgrant
  obtain ⟨hacc, haseq, hcls, hop, hout, hdl, hsteps, hunits⟩ := hgrant
  refine .of_done hx hpend ⟨⟨L, hL, hphase, hacc, hsteps, hunits, haseq, hcls, hop, hout, hdl⟩, hseq, hmem, fun M hM hcounts => ?_⟩
  have hold : (s.at_ now).key? (handleIdx (s.keyHandleOf J)) = some M := State.key_of_jobKey hM
  have hnew := huse hcounts
  change State.keyUse _ (handleIdx (s.keyHandleOf J)) = Option.map _ (((s.at_ now).key? (handleIdx (s.keyHandleOf J))).map _) at hnew
  rw [hold] at hnew
  obtain ⟨K', hK', huses⟩ := Option.map_eq_some_iff.1 hnew
  simp only [Prod.mk.injEq] at huses
  exact ⟨K', hK', huses.1, huses.2⟩

end

end

/-! ### The fill of a key (09, R199; 02, R57) -/

/-- A record of a memory port counts, or only logs. -/
theorem hasA_of_pmemRecord {s : State} {src : Nat} {job : Option Nat} (h : dispOf s src 0x22 job = some .counted) : hasA src = false := by
  have hsrc : (192 ≤ src ∧ src ≤ 195) ∨ (208 ≤ src ∧ src ≤ 211) := by
    by_contra hno
    have : dispOf s src 0x22 job = none := if_neg hno
    rw [this] at h
    cases h
  unfold hasA
  simp only [Bool.or_eq_false_iff, Bool.and_eq_false_iff, decide_eq_false_iff_not, beq_eq_false_iff_ne]
  omega

/-- A record of a memory port leaves ended jobs and the key cache alone. -/
theorem Rested.pmemRecord {j : Nat} {b : Job} {c : Table Cached} {s : State} (h : Rested j b c s) (src aux : Nat) (job : Option Nat) :
    Rested j b c (s.event src 0x22 aux job) := by
  have hd : dispOf s src 0x22 job = some .counted ∨ dispOf s src 0x22 job = none := by
    simp only [dispOf]
    split
    · exact .inl rfl
    · exact .inr rfl
  rcases hd with hd | hd
  · exact h.event (hasA_of_pmemRecord hd) _ _ _
  · rw [show s.event src 0x22 aux job = s.noted src 0x22 aux true false false job from
      State.handle_of_log rfl (by rw [hd]; rfl), State.noted_eq_or]
    exact h.of_eq rfl rfl

section
variable {s : State} {j now : Nat} {J : Job} (hJ : s.job? j = some J) (hphase : J.phase = .filling)
include hJ hphase

theorem exec_keyCacheFillDone_ok :
    exec (.keyCacheFillDone j true now) s = .next ((s.at_ now).modJob j fun J => { J with phase := .placed }) := by
  have hx : exec (.keyCacheFillDone j true now) s = execKeyCacheFillDone j true now s := rfl
  unfold execKeyCacheFillDone at hx
  dsimp only at hx
  rw [show State.job? (s.at_ now) j = some J from hJ] at hx
  dsimp only at hx
  rw [if_neg (by simp [hphase]), if_pos rfl] at hx
  exact hx.trans (done_eq rfl)

theorem completes_keyCacheFillDone_bad (hrel : J.released = 0) :
    Completes (.keyCacheFillDone j false now) s fun t => Answered t j St.mcheck 0 ∧
      ∀ i, J.pin = some i → tget t.keys.cache i = none ∧
        ∀ K n, s.key? i = some K → n = 194 + 16 * s.portOf (keyRegion K) i → (t.src n).total = satAdd 32 (s.src n).total 1 := by
  let v : State := match J.pin with
    | some k => { s.at_ now with keys := { s.keys with cache := tdel s.keys.cache k } }
    | none => s.at_ now
  let p := match J.pin.bind fun k => (s.key? k).map fun K => (k, K) with
    | some (k, K) => s.portOf (keyRegion K) k
    | none => 0
  have hx : exec (.keyCacheFillDone j false now) s = done s ((v.endJob j St.mcheck 0).pmemFail p 2 (some j)) := by
    have hx : exec (.keyCacheFillDone j false now) s = execKeyCacheFillDone j false now s := rfl
    unfold execKeyCacheFillDone at hx
    dsimp only at hx
    rw [show State.job? (s.at_ now) j = some J from hJ] at hx
    dsimp only at hx
    rw [if_neg (by simp [hphase]), if_neg Bool.false_ne_true] at hx
    exact hx
  have hv : v.jobs = s.jobs ∧ v.pending = s.pending ∧ v.faults = s.faults ∧ ∀ i, J.pin = some i → tget v.keys.cache i = none := by
    unfold v
    cases hpin : J.pin with
    | none => exact ⟨rfl, rfl, rfl, nofun⟩
    | some k =>
      refine ⟨rfl, rfl, rfl, fun i hi => ?_⟩
      cases hi
      exact (tget_tdel _ _ _).trans (if_pos rfl)
  obtain ⟨hjobs, hpend, hfaults, hcache⟩ := hv
  have hJv : v.job? j = some J := (State.job?_congr hjobs j).trans hJ
  have hans := State.endJob_answers hJv (by simp [hphase]) hrel St.mcheck 0 []
  have hrested : Rested j (v.finished J St.mcheck 0 []).body v.keys.cache (v.endJob j St.mcheck 0) :=
    ⟨rfl, State.endJob_body hJv (by simp [hphase]) hrel _ _ _, v.endJob_cache _ _ _ _⟩
  have hafter : Rested j (v.finished J St.mcheck 0 []).body v.keys.cache ((v.endJob j St.mcheck 0).pmemFail p 2 (some j)) :=
    Rested.pmemRecord (hrested.of_eq (t := (v.endJob j St.mcheck 0).bump (0xB0010 + 0x100 * p + 4 * 2)) rfl rfl) _ _ _
  refine .of_done hx ?_ ⟨?_, fun i hi => ⟨?_, fun K n hK hn => ?_⟩⟩
  · have happ := ((v.endJob j St.mcheck 0).bump (0xB0010 + 0x100 * p + 4 * 2)).event_apart (192 + 16 * p + 2) 0x22 0 (some j)
    exact ((congrArg State.pending happ :).trans hans.pending).trans hpend
  · exact answered_of_body hrested.body hafter.body hans.answered
  · rw [hafter.cache]
    exact hcache i hi
  · have hp : p = s.portOf (keyRegion K) i := by
      unfold p
      rw [hi, Option.bind_some, hK]
      rfl
    subst hn
    rw [← hp, show 194 + 16 * p = 192 + 16 * p + 2 by omega]
    refine (State.event_total _ _ _ _ _).trans ?_
    have hsrc : ((v.endJob j St.mcheck 0).bump (0xB0010 + 0x100 * p + 4 * 2)).faults = s.faults := hans.faults.trans hfaults
    rw [State.src, hsrc, ← State.src]

end

/-- Settles O33: a staged job is refused by the first row that fails, and one that passes is granted at this moment; the fill of
its key places it or ends it. -/
theorem admissionAcceptsOrAnswers : Obligations.AdmissionAcceptsOrAnswers := by
  unfold Obligations.AdmissionAcceptsOrAnswers
  refine ⟨fun s j now J => ?_, fun s j now J hJ hphase hrel => ⟨?_, ?_⟩⟩
  · intro u hdec
    refine ⟨fun r hrow => ?_, fun steps units hrow => ⟨fun st r hlater hst => ?_, fun hlater hcached => ?_⟩⟩
    · exact completes_admission_refused hdec hrow
    · exact completes_admission_answered hdec hrow hlater hst
    · exact completes_admission_accepted hdec hrow hlater hcached
  · exact exec_keyCacheFillDone_ok hJ hphase
  · exact completes_keyCacheFillDone_bad hJ hphase hrel

end Sys2Proof.Machine
end

section
/-! PROOF. The dispatch of runs (12_deadlines.md R289; 04, R80, R90). -/

namespace Sys2Proof.Machine

/-! ### The ready runs of a server -/

theorem mem_insertBy {α : Type} {f : α → Nat} {a b : α} {l : List α} (h : b ∈ insertBy f a l) : b = a ∨ b ∈ l := by
  induction l with
  | nil => exact .inl (List.mem_singleton.1 h)
  | cons c l ih =>
    unfold insertBy at h
    split at h
    · exact List.mem_cons.1 h
    · rcases List.mem_cons.1 h with rfl | h
      · exact .inr List.mem_cons_self
      · exact (ih h).imp_right (List.mem_cons_of_mem c)

theorem mem_of_mem_sortBy {α : Type} {f : α → Nat} {b : α} {l : List α} (h : b ∈ sortBy f l) : b ∈ l := by
  have hfold (l acc : List α) (h : b ∈ l.foldl (fun acc a => insertBy f a acc) acc) : b ∈ acc ∨ b ∈ l := by
    induction l generalizing acc with
    | nil => exact .inl h
    | cons a l ih =>
      rcases ih _ h with h | h
      · exact (mem_insertBy h).elim (fun e => .inr (e ▸ List.mem_cons_self)) .inl
      · exact .inr (List.mem_cons_of_mem a h)
  exact (hfold l [] h).resolve_left List.not_mem_nil

/-- Run `r` of the current step of job `J` may start on server `u`. -/
def Job.mayStart (J : Job) (u : Server) : Prop :=
  ∃ x, J.current = some x ∧ ∃ r ∈ x.2.runs, r.server = u ∧ (r.mode = .waiting ∨ r.mode = .suspended)

/-- A ready run is one of a job in the table. -/
theorem State.mayStart_of_ready {s : State} {u : Server} {c : Cand} (h : c ∈ s.readyRuns u) :
    ∃ e ∈ s.jobs, c.job = e.1 ∧ e.2.mayStart u := by
  unfold State.readyRuns at h
  extract_lets all all' com at h
  have hall : c ∈ all := by
    refine List.mem_of_mem_filter (show c ∈ all' from ?_)
    rcases List.mem_append.1 h with h | h
    · exact List.mem_of_mem_filter (mem_of_mem_sortBy (mem_of_mem_sortBy h))
    · split at h
      · exact List.mem_of_mem_filter (mem_of_mem_sortBy h)
      · exact absurd h List.not_mem_nil
  obtain ⟨e, he, hc⟩ := List.mem_filterMap.1 hall
  split at hc
  · obtain ⟨r, hr, rfl⟩ := Option.map_eq_some_iff.1 hc
    obtain ⟨x, hx, hr⟩ := Option.bind_eq_some_iff.1 hr
    split at hr
    · exact absurd hr (by simp)
    · have hp := List.find?_some hr
      simp only [Bool.and_eq_true, beq_iff_eq, Bool.or_eq_true] at hp
      exact ⟨e, he, rfl, x, hx, r, List.mem_of_find?_eq_some hr, hp.1, hp.2⟩
  · exact absurd hc (by simp)

/-! ### A run starts -/

theorem stepsFrom_map (F : Nat → JobStep → JobStep) (k : Nat) (l : List JobStep) :
    stepsFrom k ((stepsFrom k l).map fun x => F x.1 x.2) = (stepsFrom k l).map fun x => (x.1, F x.1 x.2) := by
  induction l generalizing k with
  | nil => rfl
  | cons a l ih => exact congrArg ((k, F k a) :: ·) (ih (k + 1))

/-- A change of runs that ends none and revives none leaves the current step where it is. -/
theorem Job.current_mapRuns (J : Job) {f : Nat → Run → Run} (hf : ∀ k r, (f k r).mode = .ended ↔ r.mode = .ended) :
    (J.mapRuns f).current = J.current.map fun x => (x.1, { x.2 with runs := x.2.runs.map (f x.1) }) := by
  have hmode (k : Nat) (r : Run) : ((f k r).mode != RunMode.ended) = (r.mode != RunMode.ended) := by
    rw [Bool.eq_iff_iff, bne_iff_ne, bne_iff_ne, ne_eq, ne_eq, hf]
  unfold Job.current Job.mapRuns
  dsimp only
  rw [stepsFrom_map (fun k st => { st with runs := st.runs.map (f k) }), List.find?_map]
  refine congrArg (Option.map _) (congrArg (fun p => List.find? p (stepsFrom 0 J.steps)) (funext fun x => ?_))
  simp only [Function.comp_apply, List.any_map]
  exact congrArg (fun p => x.2.runs.any p) (funext fun r => hmode x.1 r)

/-- What starts on a server: a run of it that waits or is suspended. -/
def Run.start (u : Server) (now : Nat) (r : Run) : Run :=
  if r.server = u ∧ (r.mode = .waiting ∨ r.mode = .suspended) then { r with mode := .running, started := now } else r

theorem Run.start_ended (u : Server) (now : Nat) (r : Run) : (r.start u now).mode = .ended ↔ r.mode = .ended := by
  unfold Run.start
  split
  next h => rcases h.2 with h | h <;> simp [h]
  · rfl

/-- Where a run may start on a server, one executes there once it has started. -/
theorem Job.currentHas_start {J : Job} {u : Server} (h : J.mayStart u) (now : Nat) :
    (J.modCurrent (Run.start u now)).currentHas u .running = true := by
  obtain ⟨⟨i, st⟩, hcur, r, hr, hserver, hmode⟩ := h
  have hmap := J.current_mapRuns (f := fun k r => if k = i then r.start u now else r) fun k r => by
    split
    · exact r.start_ended u now
    · rfl
  unfold Job.modCurrent
  rw [hcur]
  unfold Job.currentHas
  dsimp only
  rw [hmap, hcur]
  simp only [Option.map_some, if_true, List.any_map, List.any_eq_true, Function.comp_apply]
  refine ⟨r, hr, ?_⟩
  unfold Run.start
  rw [if_pos ⟨hserver, hmode⟩]
  simp [hserver]

theorem Job.currentHas_congr {J K : Job} (h : K.steps = J.steps) (u : Server) (m : RunMode) : K.currentHas u m = J.currentHas u m := by
  unfold Job.currentHas Job.current
  rw [h]

/-- From `s` to `t` only tiles have changed, though not their modes, and job `j`, though not its steps. -/
structure Prepares (j : Nat) (s t : State) : Prop where
  eq : t = { s with jobs := t.jobs, tiles := t.tiles }
  other : ∀ i, i ≠ j → t.job? i = s.job? i
  steps : (t.job? j).map Job.steps = (s.job? j).map Job.steps
  mode : ∀ n, (t.tile n).mode = (s.tile n).mode

namespace Prepares
variable {j : Nat} {s t u : State}

theorem refl (j : Nat) (s : State) : Prepares j s s := ⟨rfl, fun _ _ => rfl, rfl, fun _ => rfl⟩

theorem trans (hst : Prepares j s t) (htu : Prepares j t u) : Prepares j s u where
  eq := htu.eq.trans (congrArg (fun v : State => { v with jobs := u.jobs, tiles := u.tiles }) hst.eq)
  other i hi := (htu.other i hi).trans (hst.other i hi)
  steps := htu.steps.trans hst.steps
  mode n := (htu.mode n).trans (hst.mode n)

theorem modTile (j : Nat) (s : State) (n : Nat) {f : Tile → Tile} (hf : ∀ T, (f T).mode = T.mode) : Prepares j s (s.modTile n f) where
  eq := rfl
  other _ _ := rfl
  steps := rfl
  mode m := by
    rw [State.modTile_tile]
    split
    next h => rw [hf, h]
    · rfl

theorem modJob (j : Nat) (s : State) {f : Job → Job} (hf : ∀ J, (f J).steps = J.steps) : Prepares j s (s.modJob j f) where
  eq := rfl
  other i hi := (s.modJob_job j i f).trans (if_neg hi)
  steps := by
    rw [State.modJob_job, if_pos rfl, Option.map_map]
    exact congrArg (fun g => (s.job? j).map g) (funext hf)
  mode _ := rfl

end Prepares

theorem State.prepTile_prepares (s : State) (n j : Nat) (c : Cand) : Prepares j s (s.prepTile n j c) := by
  unfold State.prepTile
  split
  · split
    · exact .refl j s
    · exact .modTile j s n fun _ => rfl
  next l =>
    extract_lets T sw t u
    have hu : Prepares j s u := by
      have ht : Prepares j s t := .modTile j s n fun _ => rfl
      unfold u
      split
      · exact ht
      · exact ht.trans (.modJob j t fun _ => rfl)
    clear_value u
    split
    · exact hu
    · split
      · refine .trans ?_ (.modJob j _ fun _ => rfl)
        exact hu.trans (.modTile j u n fun _ => rfl)
      · exact hu.trans (.modTile j u n fun _ => rfl)

/-- The start of a run before its tile is prepared. -/
def State.begins (s : State) (u : Server) (j : Nat) : State :=
  (s.modJob j fun J => J.modCurrent (Run.start u s.time.elapsed)).modJob j fun J => { J with zone := J.zone || J.holds }

section
variable {s : State} {u : Server} {j : Nat} {J : Job}

theorem State.begins_job (hJ : s.job? j = some J) (hstart : J.mayStart u) : ∃ K, (s.begins u j).job? j = some K ∧ K.currentHas u .running = true := by
  refine ⟨_, State.modJob_job_some (State.modJob_job_some hJ _) _, ?_⟩
  exact (Job.currentHas_congr rfl u .running).trans (Job.currentHas_start hstart _)

theorem State.begins_other (s : State) (u : Server) {i : Nat} (hi : i ≠ j) : (s.begins u j).job? i = s.job? i := by
  unfold State.begins
  rw [State.modJob_job, if_neg hi, State.modJob_job, if_neg hi]

theorem State.startRun_core (s : State) (c : Nat) (x : Cand) : s.startRun (.core c) x = s.begins (.core c) x.job := rfl

theorem State.startRun_tile {x : Cand} {n : Nat} (hJ : s.job? x.job = some J) (hstart : J.mayStart (.tile n))
    (hserves : (s.tile n).serves = true) :
    let t := s.startRun (.tile n) x
    (∃ K, t.job? x.job = some K ∧ K.currentHas (.tile n) .running = true) ∧ (t.tile n).mode = .busy ∧
      t = { s with jobs := t.jobs, tiles := t.tiles } ∧ ∀ i, i ≠ x.job → t.job? i = s.job? i := by
  intro t
  let v := (s.begins (.tile n) x.job).prepTile n x.job x
  have hv : Prepares x.job (s.begins (.tile n) x.job) v := State.prepTile_prepares _ n x.job x
  obtain ⟨K, hK, hhas⟩ := State.begins_job hJ hstart
  have hsteps : (v.job? x.job).map Job.steps = some K.steps := hv.steps.trans (congrArg (Option.map Job.steps) hK)
  obtain ⟨L, hL, hLsteps⟩ := Option.map_eq_some_iff.1 hsteps
  refine ⟨⟨L, hL, (Job.currentHas_congr hLsteps _ _).trans hhas⟩, ?_, ?_, fun i hi => (hv.other i hi).trans (s.begins_other _ hi)⟩
  · have hmode : (v.tile n).mode = (s.tile n).mode := hv.mode n
    change ((State.modTile v n _).tile n).mode = _
    rw [State.modTile_tile_same]
    dsimp only
    rw [hmode]
    unfold Tile.serves at hserves
    rw [Bool.or_eq_true, beq_iff_eq, beq_iff_eq] at hserves
    rcases hserves with h | h <;> simp [h]
  · exact congrArg (fun w : State => { w with jobs := t.jobs, tiles := t.tiles }) hv.eq

end

/-! ### A free server takes its first ready run (R289) -/

/-- Nothing runs on a server. -/
theorem State.noneRuns {s : State} {u : Server} (h : ∀ r ∈ s.runsAt u, r.run.mode ≠ .running) :
    ((s.runsAt u).filter fun r => r.run.mode == .running) = [] := by
  rw [List.filter_eq_nil_iff]
  exact fun r hr => by simpa using h r hr

theorem firstFit_free (x : Cand) (l : List Cand) : firstFit [] (x :: l) = some x := by
  have hfit : fitOf x [] = .start := by
    unfold fitOf
    split <;> rfl
  unfold firstFit
  rw [hfit]

section
variable {s : State} {now : Nat} {x : Cand} {rest : List Cand}

theorem completes_dispatch_tile {n : Nat} (hn : n < 96) (hserves : (s.tile n).serves = true)
    (hjobs : ∀ e ∈ s.jobs, s.job? e.1 = some e.2) (hfree : ∀ r ∈ s.runsAt (.tile n), r.run.mode ≠ .running)
    (hready : (s.at_ now).readyRuns (.tile n) = x :: rest) : Completes (.dispatch (.tile n) now) s fun t =>
      (∃ K, t.job? x.job = some K ∧ K.currentHas (.tile n) .running = true) ∧ (t.tile n).mode = .busy ∧
      t = { s with time := s.time.to now, jobs := t.jobs, tiles := t.tiles } ∧ ∀ i, i ≠ x.job → t.job? i = s.job? i := by
  obtain ⟨e, he, hx, hstart⟩ := State.mayStart_of_ready (hready ▸ List.mem_cons_self : x ∈ (s.at_ now).readyRuns (.tile n))
  have hJ : (s.at_ now).job? x.job = some e.2 := hx ▸ hjobs e he
  obtain ⟨hruns, hmode, heq, hother⟩ := State.startRun_tile hJ hstart hserves
  have hdispatch : (s.at_ now).dispatch (.tile n) = (s.at_ now).startRun (.tile n) x := by
    unfold State.dispatch
    dsimp only
    rw [show (s.at_ now).runsAt (.tile n) = s.runsAt (.tile n) from rfl, State.noneRuns hfree, hready, List.map_nil, firstFit_free,
      if_pos (by rw [show ((s.at_ now).tile n).serves = true from hserves, Bool.true_or])]
  have hexec : exec (.dispatch (.tile n) now) s = done s ((s.at_ now).dispatch (.tile n)) :=
    within_ok (show okServer (.tile n) = true from decide_eq_true hn)
  rw [hdispatch] at hexec
  exact .of_done hexec (congrArg State.pending heq :) ⟨hruns, hmode, heq, hother⟩

theorem completes_dispatch_core {c : Nat} (hc : c < 8) (hstopped : (s.core c).stopped = false)
    (hjobs : ∀ e ∈ s.jobs, s.job? e.1 = some e.2) (hfree : ∀ r ∈ s.runsAt (.core c), r.run.mode ≠ .running)
    (hready : (s.at_ now).readyRuns (.core c) = x :: rest) : Completes (.dispatch (.core c) now) s fun t =>
      (∃ K, t.job? x.job = some K ∧ K.currentHas (.core c) .running = true) ∧
      t = { s with time := s.time.to now, jobs := t.jobs } ∧ ∀ i, i ≠ x.job → t.job? i = s.job? i := by
  obtain ⟨e, he, hx, hstart⟩ := State.mayStart_of_ready (hready ▸ List.mem_cons_self : x ∈ (s.at_ now).readyRuns (.core c))
  have hJ : (s.at_ now).job? x.job = some e.2 := hx ▸ hjobs e he
  have hdispatch : (s.at_ now).dispatch (.core c) = (s.at_ now).begins (.core c) x.job := by
    unfold State.dispatch
    dsimp only
    rw [show (s.at_ now).runsAt (.core c) = s.runsAt (.core c) from rfl, State.noneRuns hfree, hready,
      show ((s.at_ now).core c).stopped = false from hstopped, List.map_nil]
    exact if_neg (by simp)
  have hexec : exec (.dispatch (.core c) now) s = done s ((s.at_ now).dispatch (.core c)) :=
    within_ok (show okServer (.core c) = true from decide_eq_true hc)
  rw [hdispatch] at hexec
  exact .of_done hexec rfl ⟨State.begins_job hJ hstart, rfl, fun i hi => State.begins_other _ _ hi⟩

end

end Sys2Proof.Machine
end

section
/-! PROOF. Safe points, machine checks and durable commits (04_engine_tiles.md R85-R89, R96, R97; 06, R135). -/

namespace Sys2Proof.Machine

/-! ### What the end and the stop of a job leave of keys -/

/-- A key with, of its leaf state, what is reserved and what comes next. -/
def Key.mark (K : Key) : Key × Option (Nat × Nat) := (K.body, K.hbs.map fun H => (H.reserved, H.next))

/-- The marks of the key at an index. -/
def State.keyMarks (s : State) (i : Nat) : Option (Key × Option (Nat × Nat)) := (s.key? i).map Key.mark

theorem State.modKey_marks (s : State) (i : Nat) {f : Key → Key} (hf : ∀ K, (f K).mark = K.mark) : (s.modKey i f).keyMarks = s.keyMarks := by
  funext k
  unfold State.keyMarks
  rw [State.modKey_key]
  split
  · rw [Option.map_map]
    exact congrArg (fun g => (s.key? k).map g) (funext hf)
  · rfl

theorem Key.mark_mapHbs (K : Key) {f : Hbs → Hbs} (hf : ∀ H, ((f H).reserved, (f H).next) = (H.reserved, H.next)) :
    { K with hbs := K.hbs.map f }.mark = K.mark := by
  unfold Key.mark Key.body
  rw [Option.map_map]
  exact congrArg (fun g => ({ K with hbs := none }, K.hbs.map g)) (funext hf)

theorem State.movePending_marks (s : State) (i : Nat) (J : Job) (K : Option Job) : (s.movePending i J K).keyMarks = s.keyMarks := by
  unfold State.movePending
  extract_lets leaf ctr
  split
  · refine s.modKey_marks i fun k => k.mark_mapHbs fun H => ?_
    cases leaf with
    | some w => rfl
    | none =>
      dsimp only
      split <;> rfl
  · rfl
  · rfl

theorem State.passCommit_marks (s : State) (j : Nat) (J : Job) : (s.passCommit j J).keyMarks = s.keyMarks := by
  unfold State.passCommit
  split
  · rfl
  split
  · rfl
  dsimp only
  split
  · exact s.movePending_marks _ _ _
  · refine Eq.trans (eachOf_keeps State.keyMarks _ _ (fun t k => ?_) _) (s.movePending_marks _ _ _)
    rfl

theorem State.endJob_marks (s : State) (j status result : Nat) (ret : Bytes) : (s.endJob j status result ret).keyMarks = s.keyMarks := by
  cases hJ : s.job? j with
  | none =>
    unfold State.endJob
    rw [hJ]
  | some J =>
    refine State.endJob_field State.keyMarks hJ (fun _ _ _ => rfl) (fun _ _ => rfl) (fun u => u.passCommit_marks j J) (fun u => ?_)
      (fun _ _ _ => rfl) (fun u r k => by unfold State.keyMarks State.key?; rw [(congrArg State.keys (u.logUnreserve_reports r k).eq :)])
      (.inr (State.zeroFill_keeps State.keyMarks (fun _ _ => rfl) (fun _ _ => rfl) fun _ _ _ => rfl)) _ _ _
    unfold State.treeEnds
    split
    · rfl
    · exact u.modKey_marks _ fun K => K.mark_mapHbs fun H => rfl

theorem State.stopJob_marks (s : State) (j : Nat) (req : Request) : (s.stopJob j req).keyMarks = s.keyMarks := by
  unfold State.stopJob
  split
  · rfl
  split
  · rfl
  split
  · unfold State.abandonChain
    split
    · split
      · split
        · exact s.endJob_marks _ _ _ _
        · rfl
      · rfl
    · rfl
  split
  · rfl
  · exact s.endJob_marks _ _ _ _

theorem State.fenceTile_marks (s : State) (n reason : Nat) : (s.fenceTile n reason).keyMarks = s.keyMarks :=
  eachOf_keeps State.keyMarks _ _ (fun u k => u.stopJob_marks k .fence) s

/-! ### The fence of a tile -/

theorem Rested.fenceTile {j : Nat} {b : Job} {c : Table Cached} {s : State} (h : Rested j b c s) (n reason : Nat) :
    Rested j b c (s.fenceTile n reason) :=
  (Rested.each _ (fun _ k ht => ht.stopJob k .fence) h).of_eq rfl rfl

/-- What TILE.MCHECK_INFO shows of a tile. -/
def Tile.check (T : Tile) : Nat × Nat × Nat × Nat := (T.mcAddr, T.mcKind, T.mcCause, T.mcCount)

theorem Ends.check {P : Nat → Prop} {s t : State} (h : Ends P s t) (n : Nat) : (t.tile n).check = (s.tile n).check :=
  (congrArg Tile.check (h.tile n) :)

theorem State.fenceTile_check (s : State) (n reason : Nat) : ((s.fenceTile n reason).tile n).check = (s.tile n).check := by
  refine Eq.trans ?_ ((s.stopTile_ends n .fence).check n)
  unfold State.fenceTile
  rw [State.modTile_tile_same]
  rfl

/-- A fence of a tile that is fenced for a reason leaves it fenced for that reason. -/
theorem State.fenceTile_fenced {s : State} {n : Nat} (h : (s.tile n).mode = .fenced) (hreason : (s.tile n).fence ≠ 0) (reason : Nat) :
    ((s.fenceTile n reason).tile n).mode = .fenced ∧ ((s.fenceTile n reason).tile n).fence = (s.tile n).fence := by
  have hends := s.stopTile_ends n .fence
  have hmode : ((s.stopTile n .fence).tile n).mode = .fenced := (hends.mode_fenced n).2 h
  have hfence : ((s.stopTile n .fence).tile n).fence = (s.tile n).fence := (congrArg Tile.fence (hends.tile n) :)
  unfold State.fenceTile
  rw [State.modTile_tile_same]
  refine ⟨rfl, ?_⟩
  exact (if_pos ⟨hmode, by rw [hfence]; exact hreason⟩).trans hfence

/-! ### The record of a machine check (R96, R416) -/

/-- The sub-cause of a machine check that fences its tile. -/
def checkSub (sub : Nat) : Prop := sub = 0x11 ∨ sub = 0x12 ∨ sub = 0x14 ∨ sub = 0x15

theorem State.markAll_false (s : State) (l : List Nat) : eachOf l (fun u j => u.markInj j false) s = s :=
  eachOf_keeps id _ _ (fun _ _ => rfl) s

/-- A class A reaction of a tile changes the collector, and fences the tile unless a fence covers it. -/
theorem State.reactA_fences (s : State) {n sub reason : Nat} (hn : n < 96) (hreason : (if 0x11 ≤ sub ∧ sub ≤ 0x18 ∧ sub ≠ 0x13 then 1 else 3) = reason)
    (aux : Nat) : ∃ F, s.reactA n sub aux false = { s with faults := F } ∨ s.reactA n sub aux false = State.fenceTile { s with faults := F } n reason := by
  have hfew : (decide (128 ≤ n) && decide (n ≤ 135) && !s.moduleOn (n - 128) &&
      decide ((s.firmwareCores.filter (· != n - 128)).length < 4)) = false := by simp [show ¬ 128 ≤ n by omega]
  unfold State.reactA
  dsimp only
  rw [hfew, if_neg (by simp [hasA, hn]), if_neg (by omega)]
  split
  · exact ⟨s.faults, .inl rfl⟩
  · rw [State.markAll_false]
    unfold State.fenceUnit
    rw [if_pos hn, hreason]
    exact ⟨((s.newReact n 1 1 false).modSrc n fun S => { S with attn := true, fenced := true, rid := s.faults.nextId }).faults, .inr rfl⟩

/-- A record of class A on a tile. -/
theorem State.event_of_a (s : State) {n sub reason : Nat} {job : Option Nat} (hn : n < 96) (hdisp : dispOf s n sub job = some .a)
    (hreset : resetOnlyCause n sub = false) (hreason : (if 0x11 ≤ sub ∧ sub ≤ 0x18 ∧ sub ≠ 0x13 then 1 else 3) = reason) (aux : Nat) :
    ∃ F, s.event n sub aux job = { s with faults := F } ∨ s.event n sub aux job = State.fenceTile { s with faults := F } n reason := by
  have hnoted := State.noted_eq hreset s aux true false false job
  unfold State.event
  cases hwin : s.windowOf n sub aux with
  | none =>
    rw [State.handle_of_a rfl hwin hdisp]
    obtain ⟨F, hF⟩ := State.reactA_fences (s.noted n sub aux true false false job) hn hreason aux
    refine ⟨F, hF.imp (fun h => h.trans ?_) fun h => h.trans ?_⟩ <;> rw [hnoted]
  | some r =>
    refine ⟨_, .inl (Eq.trans ?_ hnoted)⟩
    unfold State.handle
    extract_lets win d acts s1 faults safe s2
    rw [show d = .a by simp [d, hdisp], show win = some r from hwin]
    rfl

/-- The record of a machine check changes the collector, and fences the tile unless a window or a fence covers it. -/
theorem State.event_check (s : State) {sub : Nat} (hsub : checkSub sub) (n aux : Nat) (job : Option Nat) : ∃ F,
    s.event n sub aux job = { s with faults := F } ∨ s.event n sub aux job = State.fenceTile { s with faults := F } n 1 := by
  have hdisp : dispOf s n sub job = if n < 96 then some .a else none := by rcases hsub with rfl | rfl | rfl | rfl <;> rfl
  have hreset : resetOnlyCause n sub = false := by rcases hsub with rfl | rfl | rfl | rfl <;> rfl
  by_cases hn : n < 96
  · exact s.event_of_a hn (hdisp.trans (if_pos hn)) hreset (by rcases hsub with rfl | rfl | rfl | rfl <;> rfl) aux
  · rw [if_neg hn] at hdisp
    exact ⟨_, .inl ((State.handle_of_log rfl (by rw [hdisp]; rfl)).trans (State.noted_eq hreset s aux true false false job))⟩

section
variable {s : State} {sub : Nat} (hsub : checkSub sub) (n aux : Nat) (job : Option Nat)
include hsub

theorem Rested.event_check {j : Nat} {b : Job} {c : Table Cached} (h : Rested j b c s) : Rested j b c (s.event n sub aux job) := by
  obtain ⟨F, hF | hF⟩ := s.event_check hsub n aux job <;> rw [hF]
  · exact h.of_eq rfl rfl
  · exact Rested.fenceTile (s := { s with faults := F }) (h.of_eq rfl rfl) n 1

theorem State.event_check_marks : (s.event n sub aux job).keyMarks = s.keyMarks := by
  obtain ⟨F, hF | hF⟩ := s.event_check hsub n aux job <;> rw [hF]
  · rfl
  · exact State.fenceTile_marks _ n 1

/-- A tile that is fenced for a machine check stays so, and shows the same check. -/
theorem State.event_check_tile (hmode : (s.tile n).mode = .fenced) (hfence : (s.tile n).fence = 1) :
    let T := (s.event n sub aux job).tile n
    T.mode = .fenced ∧ T.fence = 1 ∧ T.check = (s.tile n).check := by
  obtain ⟨F, hF | hF⟩ := s.event_check hsub n aux job <;> rw [hF]
  · exact ⟨hmode, hfence, rfl⟩
  · obtain ⟨hm, hf⟩ := State.fenceTile_fenced (s := { s with faults := F }) (n := n) hmode (by rw [show (State.tile { s with faults := F } n).fence = 1 from hfence]; decide) 1
    exact ⟨hm, hf.trans hfence, State.fenceTile_check _ n 1⟩

end

/-! ### A machine check of a tile by a job (R96, R97) -/

theorem rested_of_answered {t : State} {j status result : Nat} (h : Answered t j status result) : ∃ b, Rested j b t.keys.cache t ∧
    b.status = status ∧ b.result = result ∧ b.out = none := by
  obtain ⟨K, hK, hphase, hstatus, hresult, hout⟩ := h
  exact ⟨K.body, ⟨hphase, by rw [hK]; rfl, rfl⟩, hstatus, hresult, hout⟩

theorem Rested.answered {t : State} {j status result : Nat} {b : Job} {c : Table Cached} (h : Rested j b c t) (hb : b.status = status ∧
    b.result = result ∧ b.out = none) : Answered t j status result := by
  obtain ⟨K, hK, hbody⟩ := Option.map_eq_some_iff.1 h.body
  obtain ⟨hstatus, hresult, hout⟩ := hb
  exact ⟨K, hK, (congrArg Job.phase hbody :).trans h.ended, (congrArg Job.status hbody :).trans hstatus,
    (congrArg Job.result hbody :).trans hresult, (congrArg Job.out hbody :).trans hout⟩

theorem State.showCheck_tile (s : State) (n cause addr kind : Nat) : ((s.showCheck n cause addr kind).tile n).mode = (s.tile n).mode ∧
    ((s.showCheck n cause addr kind).tile n).mcCause = cause ∧ ((s.showCheck n cause addr kind).tile n).mcAddr = addr % 8192 := by
  unfold State.showCheck
  rw [State.modTile_tile_same]
  exact ⟨rfl, rfl, rfl⟩

/-- What a fence after a machine check leaves. -/
structure CheckFenced (n : Nat) (s t : State) : Prop where
  mode : (s.tile n).mode ≠ .fenced → (t.tile n).mode = .fenced ∧ (t.tile n).fence = 1
  check : (t.tile n).check = (s.tile n).check
  faults : t.faults = s.faults
  pending : t.pending = s.pending
  rested : ∀ j b c, Rested j b c s → Rested j b c t

theorem State.checkFence_spec (s : State) (n : Nat) : CheckFenced n s (s.checkFence n) := by
  unfold State.checkFence
  generalize (s.jobsAt (.tile n) .running) ++ (s.jobsAt (.tile n) .suspended) = js
  have hd : Ends (fun _ => True) s (eachOf js (fun u k => u.endJob k St.fenced 0) s) :=
    Ends.each _ _ (fun u k _ => u.endJob_ends _ trivial _ _ _) s
  have hrest (j : Nat) (b : Job) (c : Table Cached) (h : Rested j b c s) : Rested j b c (eachOf js (fun u k => u.endJob k St.fenced 0) s) :=
    Rested.each _ (fun _ k h => h.endJob k _ _ _) h
  generalize eachOf js (fun u k => u.endJob k St.fenced 0) s = d at hd hrest
  have hsteady := d.fenceTile_steady n 1
  refine ⟨fun hm => ?_, (d.fenceTile_check n 1).trans (hd.check n), ?_, ?_, fun j b c h => (hrest j b c h).fenceTile n 1⟩
  · obtain ⟨hm, hf, -⟩ := State.fenceTile_spec (mt (hd.mode_fenced n).1 hm) 1
    exact ⟨hm, hf⟩
  · exact (congrArg State.faults hsteady :).trans (congrArg State.faults hd.steady :)
  · exact (congrArg State.pending hsteady :).trans (congrArg State.pending hd.steady :)

/-- A machine check of a tile by a job: it is shown, the job ends, the tile is fenced where the check fences it, and it is recorded. -/
theorem State.tileCheck_eq (s : State) (n cause addr kind j : Nat) : s.tileCheck n cause addr kind (some j) =
    (if cause = 1 ∨ cause = 2 ∨ cause = 5 then ((s.showCheck n cause addr kind).endJob j St.mcheck 0).checkFence n
      else (s.showCheck n cause addr kind).endJob j St.mcheck 0).event n (0x10 + cause) (addr % 8192 + kind * 8192) (some j) := rfl

theorem State.tileCheck_pending (s : State) (n cause addr kind j : Nat) : (s.tileCheck n cause addr kind (some j)).pending = s.pending := by
  have hend : ((s.showCheck n cause addr kind).endJob j St.mcheck 0).pending = s.pending :=
    (congrArg State.pending (State.endJob_steady (s.showCheck n cause addr kind) j St.mcheck 0 []) :)
  rw [State.tileCheck_eq]
  generalize (s.showCheck n cause addr kind).endJob j St.mcheck 0 = u at hend
  have hevent (v : State) (sub aux : Nat) : (v.event n sub aux (some j)).pending = v.pending :=
    (congrArg State.pending (v.event_apart n sub aux (some j)) :)
  rw [hevent]
  split
  · exact (u.checkFence_spec n).pending.trans hend
  · exact hend

section
variable {s : State} {j : Nat} {J : Job} (hJ : s.job? j = some J) (hphase : J.phase = .placed) (hrel : J.released = 0)
include hJ hphase hrel

/-- The job of a machine check ends with MCHECK; a check that fences the tile leaves it fenced for reason 1. -/
theorem State.tileCheck_spec {n cause : Nat} (hcause : cause = 1 ∨ cause = 2 ∨ cause = 5) (hmode : (s.tile n).mode ≠ .fenced) (addr kind : Nat) :
    let t := s.tileCheck n cause addr kind (some j)
    Answered t j St.mcheck 0 ∧ (t.tile n).mode = .fenced ∧ (t.tile n).fence = 1 ∧ (t.tile n).mcCause = cause ∧
      (t.tile n).mcAddr = addr % 8192 ∧ (t.src n).total = satAdd 32 (s.src n).total 1 := by
  have hsub : checkSub (0x10 + cause) := by rcases hcause with rfl | rfl | rfl <;> simp [checkSub]
  obtain ⟨hamode, hshow⟩ := s.showCheck_tile n cause addr kind
  have hafaults : (s.showCheck n cause addr kind).faults = s.faults := rfl
  have haJ : (s.showCheck n cause addr kind).job? j = some J := hJ
  rw [State.tileCheck_eq, if_pos hcause]
  generalize s.showCheck n cause addr kind = a at hamode hshow hafaults haJ
  obtain ⟨hans, hends, -⟩ := State.endJob_answers haJ (by simp [hphase]) hrel St.mcheck 0 []
  generalize a.endJob j St.mcheck 0 = b at hans hends
  have hfence := b.checkFence_spec n
  generalize b.checkFence n = c at hfence
  obtain ⟨b0, hrest, hb0⟩ := rested_of_answered hans
  obtain ⟨hm, hf⟩ := hfence.mode (mt (hends.mode_fenced n).1 (by rwa [hamode]))
  obtain ⟨hm', hf', hcheck⟩ := State.event_check_tile hsub n (addr % 8192 + kind * 8192) (some j) hm hf
  have hrest' := (hfence.rested _ _ _ hrest).event_check hsub n (addr % 8192 + kind * 8192) (some j)
  have htotal := State.event_total c n (0x10 + cause) (addr % 8192 + kind * 8192) (some j)
  have hcheck' := hcheck.trans (hfence.check.trans (hends.check n))
  have hfaults : c.faults = s.faults := hfence.faults.trans ((congrArg State.faults hends.steady :).trans hafaults)
  have hsrc : c.src n = s.src n := by simp only [State.src, hfaults]
  generalize c.event n (0x10 + cause) (addr % 8192 + kind * 8192) (some j) = t at hm' hf' hcheck' hrest' htotal
  refine ⟨hrest'.answered hb0, hm', hf', (congrArg (fun p => p.2.2.1) hcheck').trans hshow.1, (congrArg (fun p => p.1) hcheck').trans hshow.2, ?_⟩
  rw [htotal, hsrc]

/-- A failed commit ends its job with MCHECK, and its record leaves what the key shows. -/
theorem State.tileCheck_commit (n addr : Nat) : Answered (s.tileCheck n 4 addr 0 (some j)) j St.mcheck 0 ∧
    (s.tileCheck n 4 addr 0 (some j)).keyMarks = s.keyMarks := by
  have hsub : checkSub (0x10 + 4) := by simp [checkSub]
  let a := s.showCheck n 4 addr 0
  have hans : Answered (a.endJob j St.mcheck 0) j St.mcheck 0 :=
    State.endJob_answered (s := a) hJ (by simp [hphase]) hrel St.mcheck 0 []
  obtain ⟨b, hrest, hb⟩ := rested_of_answered hans
  have ht : s.tileCheck n 4 addr 0 (some j) = (a.endJob j St.mcheck 0).event n (0x10 + 4) (addr % 8192 + 0 * 8192) (some j) := by
    unfold State.tileCheck
    dsimp only
    rw [if_neg (by decide)]
  rw [ht]
  exact ⟨(hrest.event_check hsub n _ _).answered hb, (State.event_check_marks hsub n _ _).trans (a.endJob_marks j _ _ _)⟩

end

section
variable {s : State} {j now : Nat} {J : Job}

/-! ### Safe points (R85, R88, R89) -/

section
variable (hJ : s.job? j = some J)
include hJ

theorem exec_safePointAction_stays (h : (!J.isRunning || J.atEnd || J.holds) = true) :
    exec (.safePointAction j now) s = .next (s.at_ now) := by
  have hx : exec (.safePointAction j now) s = execSafePointAction j now s := rfl
  unfold execSafePointAction at hx
  dsimp only at hx
  rw [show (s.at_ now).job? j = some J from hJ] at hx
  exact hx.trans (congrArg (done s) (if_pos h))

variable (hrun : J.isRunning = true) (hend : J.atEnd = false) (hholds : J.holds = false)
include hrun hend hholds

/-- The state at a safe point of the job, before what it meets there. -/
def State.atSafePoint (s : State) (j : Nat) (J : Job) : State := (s.passPoint j J).modJob j fun J => { J with zone := false, request := .none }

/-- A request that stops the job is acted on at its safe point. -/
theorem completes_safePoint_stop (hphase : J.phase = .placed) (hrel : J.released = 0) (status : Nat)
    (hreq : J.request = .abort ∧ status = St.aborted ∨ J.request = .fence ∧ status = St.fenced ∨ J.request = .safe ∧ status = St.safeState) :
    Completes (.safePointAction j now) s fun t => Answered t j status 0 := by
  have hx : exec (.safePointAction j now) s = execSafePointAction j now s := rfl
  unfold execSafePointAction at hx
  dsimp only at hx
  rw [show (s.at_ now).job? j = some J from hJ] at hx
  dsimp only at hx
  rw [if_neg (by simp [hrun, hend, hholds])] at hx
  have hstop : exec (.safePointAction j now) s = done s (((s.at_ now).atSafePoint j J).endJob j status 0) := by
    rcases hreq with ⟨h, rfl⟩ | ⟨h, rfl⟩ | ⟨h, rfl⟩ <;> rw [h] at hx <;> exact hx
  have hjobs : ((s.at_ now).passPoint j J).job? j = some J :=
    (State.job?_congr (eachOf_keeps State.jobs J.tilesOf (fun u n => u.modTile n fun T => T.toSafePoint j (s.at_ now).time.elapsed (J.seqIn n))
      (fun _ _ => rfl) (s.at_ now)) j).trans hJ
  have hsteady : (((s.at_ now).atSafePoint j J).endJob j status 0).pending = s.pending := by
    refine (congrArg State.pending (State.endJob_steady _ j status 0 []) :).trans ?_
    exact eachOf_keeps State.pending J.tilesOf (fun u n => u.modTile n fun T => T.toSafePoint j (s.at_ now).time.elapsed (J.seqIn n))
      (fun _ _ => rfl) _
  refine .of_done hstop hsteady (State.endJob_answered (State.modJob_job_some hjobs _) ?_ hrel status 0 [])
  simp [hphase]

/-- Without a request the zone of the job ends there. -/
theorem exec_safePointAction_goesOn (hreq : J.request = .none) (hwindowed : J.windowed = false) (htiles : J.tilesOf = []) :
    exec (.safePointAction j now) s = .next ((s.at_ now).modJob j fun J => { J with zone := false, request := .none }) := by
  have hx : exec (.safePointAction j now) s = execSafePointAction j now s := rfl
  unfold execSafePointAction at hx
  dsimp only at hx
  rw [show (s.at_ now).job? j = some J from hJ] at hx
  dsimp only at hx
  rw [if_neg (by simp [hrun, hend, hholds]), hreq] at hx
  dsimp only at hx
  have hstarved : (s.at_ now).starved J = false := by
    unfold State.starved
    rw [hwindowed]
    rfl
  rw [hstarved, if_neg (by simp)] at hx
  unfold State.passPoint at hx
  rw [htiles] at hx
  exact hx

end

/-! ### Watchdogs and machine checks (R85, R96, R97) -/

section
variable {n : Nat} (hJ : s.job? j = some J) (hmode : (s.tile n).mode ≠ .fenced) (hphase : J.phase = .placed) (hrel : J.released = 0)
include hJ hmode hphase hrel

theorem watchdog_spec (hwatch : s.watchTile j J = some n) (c addr : Nat) :
    (4096 < c → Completes (.watchdog j c addr now) s fun t => Answered t j St.mcheck 0 ∧
      (t.tile n).mode = .fenced ∧ (t.tile n).fence = 1 ∧ (t.tile n).mcCause = 5) ∧
    (c ≤ 4096 → exec (.watchdog j c addr now) s = .next (s.at_ now)) := by
  have hx : exec (.watchdog j c addr now) s = execWatchdog j c addr now s := rfl
  unfold execWatchdog at hx
  dsimp only at hx
  rw [show (s.at_ now).job? j = some J from hJ] at hx
  dsimp only at hx
  rw [show (s.at_ now).watchTile j J = some n from hwatch] at hx
  refine ⟨fun hc => ?_, fun hc => hx.trans (congrArg (done s) (if_neg (by omega)))⟩
  dsimp only at hx
  rw [if_pos hc] at hx
  obtain ⟨hans, hm, hf, hcause, -⟩ := State.tileCheck_spec (s := s.at_ now) hJ hphase hrel (cause := 5) (by simp) hmode addr 0
  exact .of_done hx (State.tileCheck_pending _ _ _ _ _ _) ⟨hans, hm, hf, hcause⟩

theorem completes_machineCheck (hn : n < 96) (hpresent : (s.tile n).mode ≠ .absent) (hhas : J.currentHas (.tile n) .running = true)
    {cause : Nat} (hcause : cause = 1 ∨ cause = 2) (addr : Nat) : Completes (.machineCheck n cause addr (some j) now) s fun t =>
      Answered t j St.mcheck 0 ∧ (t.tile n).mode = .fenced ∧ (t.tile n).fence = 1 ∧ (t.tile n).mcCause = cause ∧
      (t.tile n).mcAddr = addr % 8192 ∧ (t.src n).total = satAdd 32 (s.src n).total 1 := by
  have hx : exec (.machineCheck n cause addr (some j) now) s = done s ((s.at_ now).tileCheck n cause addr 0 (some j)) := by
    have hx : exec (.machineCheck n cause addr (some j) now) s = execMachineCheck n cause addr (some j) now s := rfl
    unfold execMachineCheck at hx
    dsimp only [Option.bind_some] at hx
    rw [show (s.at_ now).job? j = some J from hJ, Option.map_some, hhas,
      if_neg (show ((s.at_ now).tile n).mode ≠ .absent from hpresent)] at hx
    refine hx.trans ((within_ok (decide_eq_true hn)).trans (congrArg (done s) ?_))
    rcases hcause with rfl | rfl
    · exact if_pos (.inl rfl)
    · rw [if_neg (by decide), if_pos rfl]
      rfl
  exact .of_done hx (State.tileCheck_pending _ _ _ _ _ _)
    (State.tileCheck_spec (s := s.at_ now) hJ hphase hrel (by omega) hmode addr 0)

end

end

end Sys2Proof.Machine
end

section
/-! PROOF. Durable commits, posted extends and the loop budget (04_engine_tiles.md R86, R87; 05, R117; 06, R135; 15, R353). -/

namespace Sys2Proof.Machine

/-! ### Durable commits (R86, R87) -/

/-- A leaf state once the block of leaf `v` is reserved. -/
def Hbs.reserves (v : Nat) (H : Hbs) : Hbs :=
  { H with reserved := max H.reserved (H.blockEnd v), pendingTo := if H.pendingTo = some (H.blockEnd v) then none else H.pendingTo }

/-- A leaf state once the block of leaf `v` counts as consumed. -/
def Hbs.consumes (v : Nat) (H : Hbs) : Hbs := { H with next := H.skip (max H.next (H.blockEnd v)) }

/-- A key with its leaf state changed. -/
def Key.onHbs (f : Hbs → Hbs) (K : Key) : Key := { K with hbs := K.hbs.map f }

theorem Key.onHbs_some {K : Key} {H : Hbs} (h : K.hbs = some H) (f : Hbs → Hbs) : (K.onHbs f).hbs = some (f H) := by
  unfold Key.onHbs
  rw [h]
  rfl

theorem foldl_skip_le (p : Nat) (l : List Nat) (v : Nat) : v ≤ l.foldl (fun v g => if v = g * p then v + p else v) v := by
  induction l generalizing v with
  | nil => exact Nat.le_refl v
  | cons g l ih =>
    refine Nat.le_trans ?_ (ih _)
    dsimp only
    split
    · exact Nat.le_add_right v p
    · exact Nat.le_refl v

theorem Hbs.le_skip (H : Hbs) (v : Nat) : v ≤ H.skip v := foldl_skip_le _ _ v

section
variable {s : State} {j i v now : Nat} {J : Job} {K : Key} {H : Hbs}

section
variable (hJ : s.job? j = some J) (hholds : J.holds = true) (hout : J.out = none) (hpin : J.pin = some i)
  (hleaf : J.leaf = some v) (hK : s.key? i = some K) (hH : K.hbs = some H)
include hout hpin hleaf

theorem State.commitRange_eq (s : State) : s.commitRange J = (s.modKey i (Key.onHbs (Hbs.reserves v))).sealShadow i := by
  unfold State.commitRange
  rw [hout, hpin, hleaf]
  rfl

include hK hH in
theorem State.commitRange_key : ∃ K' H', (s.commitRange J).key? i = some K' ∧ K'.hbs = some H' ∧
    H'.reserved = max H.reserved (H.blockEnd v) ∧ H'.next = H.next ∧ H'.blockEnd v = H.blockEnd v := by
  rw [State.commitRange_eq hout hpin hleaf]
  refine ⟨K.onHbs (Hbs.reserves v), H.reserves v, ?_, Key.onHbs_some hH _, rfl, rfl, rfl⟩
  change (s.modKey i (Key.onHbs (Hbs.reserves v))).key? i = _
  rw [State.modKey_key, if_pos rfl, hK]
  rfl

omit hout hpin hleaf in
include hJ hholds in
theorem exec_commitAck : exec (.commitAck j now) s = done s (((s.at_ now).commitRange J).modJob j fun J => { J with commit := .acked, zone := true }) := by
  have hx : exec (.commitAck j now) s = execCommitAck j now s := rfl
  unfold execCommitAck at hx
  dsimp only at hx
  rw [show (s.at_ now).job? j = some J from hJ] at hx
  exact hx.trans (congrArg (done s) (if_neg (by simp [hholds])))

include hJ hholds hK hH in
/-- An acknowledged commit moves RESERVED_END on, and its job is in a no-return zone. -/
theorem completes_commitAck : Completes (.commitAck j now) s fun t =>
    t.job? j = some { J with commit := .acked, zone := true } ∧
    (∃ K' H', t.key? i = some K' ∧ K'.hbs = some H' ∧ H'.reserved = max H.reserved (min (v + H.block) H.limit) ∧ H'.next = H.next) ∧
    t = { s with time := s.time.to now, jobs := t.jobs, keys := t.keys, pmem := t.pmem } := by
  have hx := exec_commitAck (now := now) hJ hholds
  obtain ⟨K', H', hK', hH', hres, hnext, -⟩ := State.commitRange_key (s := s.at_ now) hout hpin hleaf hK hH
  have hrange := State.commitRange_eq hout hpin hleaf (s.at_ now)
  have hjob : ((s.at_ now).commitRange J).job? j = some J := by
    rw [hrange]
    exact hJ
  refine .of_done hx (by rw [hrange]; rfl) ⟨State.modJob_job_some hjob _, ⟨K', H', hK', hH', hres, hnext⟩, ?_⟩
  rw [hrange]
  rfl

include hK hH in
theorem State.consumeRange_key : ∃ K' H', (s.consumeRange J).key? i = some K' ∧ K'.hbs = some H' ∧
    H'.reserved = max H.reserved (H.blockEnd v) ∧ H.blockEnd v ≤ H'.next := by
  obtain ⟨K', H', hK', hH', hres, -, hblock⟩ := State.commitRange_key (s := s) hout hpin hleaf hK hH
  have hcons : s.consumeRange J = (s.commitRange J).modKey i (Key.onHbs (Hbs.consumes v)) := by
    unfold State.consumeRange
    rw [hpin, hleaf]
    rfl
  refine ⟨K'.onHbs (Hbs.consumes v), H'.consumes v, ?_, Key.onHbs_some hH' _, hres, ?_⟩
  · rw [hcons, State.modKey_key, if_pos rfl, hK']
    rfl
  · rw [← hblock]
    exact Nat.le_trans (Nat.le_max_right _ _) (H'.le_skip _)

include hJ hholds hK hH in
/-- Without an acknowledgement the range counts as consumed, and the job ends with MCHECK. -/
theorem completes_commitTimeout {n : Nat} (hphase : J.phase = .placed) (hrel : J.released = 0) (htile : J.runTile = some n) (addr : Nat) :
    Completes (.commitTimeout j addr now) s fun t => Answered t j St.mcheck 0 ∧ ∃ K' H', t.key? i = some K' ∧ K'.hbs = some H' ∧
      H'.reserved = max H.reserved (min (v + H.block) H.limit) ∧ min (v + H.block) H.limit ≤ H'.next := by
  have hx : exec (.commitTimeout j addr now) s = execCommitTimeout j addr now s := rfl
  unfold execCommitTimeout at hx
  dsimp only at hx
  rw [show (s.at_ now).job? j = some J from hJ] at hx
  dsimp only at hx
  rw [htile] at hx
  dsimp only at hx
  rw [if_neg (by simp [hholds])] at hx
  have hrest : ((s.at_ now).consumeRange J).job? j = some J ∧ ((s.at_ now).consumeRange J).pending = s.pending := by
    unfold State.consumeRange
    rw [hpin, hleaf, State.commitRange_eq hout hpin hleaf]
    exact ⟨hJ, rfl⟩
  obtain ⟨K', H', hK', hH', hres, hnext⟩ := State.consumeRange_key (s := s.at_ now) hout hpin hleaf hK hH
  obtain ⟨hans, hmarks⟩ := State.tileCheck_commit hrest.1 hphase hrel n addr
  refine .of_done hx ((State.tileCheck_pending _ _ _ _ _ _).trans hrest.2) ⟨hans, ?_⟩
  have hmark := congrFun hmarks i
  unfold State.keyMarks at hmark
  rw [hK', Option.map_some] at hmark
  obtain ⟨L, hL, hLmark⟩ := Option.map_eq_some_iff.1 hmark
  have hhbs : (L.hbs.map fun H => (H.reserved, H.next)) = some (H'.reserved, H'.next) := by
    refine (congrArg Prod.snd hLmark).trans ?_
    unfold Key.mark
    rw [hH']
    rfl
  obtain ⟨G, hG, hGeq⟩ := Option.map_eq_some_iff.1 hhbs
  injection hGeq with hr hn
  exact ⟨L, G, hL, hG, hr.trans hres, hn ▸ hnext⟩

end

/-! ### Posted extends (R353) -/

theorem exec_logbookExtend {r : Nat} {d : Bytes} {rest : List (Nat × LogWork)} (hposted : s.log.posted = (r, .extend d (some j)) :: rest)
    (hbarrier : (s.logReg r).barrier = []) : exec (.logbookExtend now) s = done s (
      let w := ({ s.at_ now with log := { s.log with posted := rest } } : State).extendBy r d
      (w.logUnreserve r j).modJob j fun J => { J with
        phase := .ended, status := if J.phase = .ended then J.status else St.ok,
        result := if J.phase = .ended then J.result else (w.logReg r).count + r * 2 ^ 32 + (w.logReg r).epoch * 2 ^ 48, logRes := none }) := by
  have hx : exec (.logbookExtend now) s = execLogbookExtend now s := rfl
  unfold execLogbookExtend at hx
  dsimp only at hx
  have hready : (s.at_ now).logReady r j = true := by
    unfold State.logReady
    rw [show ((s.at_ now).logReg r).barrier = [] from hbarrier]
  rw [show (s.at_ now).log.posted = (r, .extend d (some j)) :: rest from hposted] at hx
  simp only [List.find?_cons, hready, List.erase_cons_head] at hx
  exact hx

/-- A posted extend that nothing holds back is applied, and ends its job. -/
theorem completes_logbookExtend {r : Nat} {d : Bytes} {rest : List (Nat × LogWork)} (hJ : s.job? j = some J) (hphase : J.phase ≠ .ended)
    (hposted : s.log.posted = (r, .extend d (some j)) :: rest) (hbarrier : (s.logReg r).barrier = []) :
    Completes (.logbookExtend now) s fun t =>
      let L := s.logReg r
      (t.logReg r).value = sha384 (L.value ++ d) ∧ (t.logReg r).count = L.count + 1 ∧ (t.logReg r).epoch = L.epoch ∧
      t.log.posted = rest ∧ (∀ q, q ≠ r → t.logReg q = s.logReg q) ∧
      ∃ K, t.job? j = some K ∧ K.phase = .ended ∧ K.status = St.ok ∧ K.result = L.count + 1 + r * 2 ^ 32 + L.epoch * 2 ^ 48 := by
  have hx := exec_logbookExtend (now := now) hposted hbarrier
  generalize hv : ({ s.at_ now with log := { s.log with posted := rest } } : State) = v at hx
  have hvreg (q : Nat) : v.logReg q = s.logReg q := by rw [← hv]; rfl
  have hreg : (v.extendBy r d).logReg r = { s.logReg r with value := sha384 ((s.logReg r).value ++ d), count := (s.logReg r).count + 1 } := by
    unfold State.extendBy
    rw [State.modLog_logReg_same, hvreg]
  have hother (q : Nat) (hq : q ≠ r) : (v.extendBy r d).logReg q = s.logReg q := by
    unfold State.extendBy
    rw [State.modLog_logReg, if_neg hq, hvreg]
  have hrest : (v.extendBy r d).log.posted = rest ∧ (v.extendBy r d).job? j = some J ∧ (v.extendBy r d).pending = s.pending := by
    rw [← hv]
    exact ⟨rfl, hJ, rfl⟩
  generalize v.extendBy r d = w at hx hreg hother hrest
  obtain ⟨hposted', hJ', hpending⟩ := hrest
  have hun : w.logUnreserve r j =
      (w.modLog r fun L => { L with reserved := L.reserved.filter (· != j) }).modLog r fun L => { L with barrier := [] } := by
    unfold State.logUnreserve
    dsimp only
    rw [State.modLog_logReg_same, hreg, hbarrier]
    rfl
  have hregs : (w.logUnreserve r j).logReg r = { w.logReg r with reserved := (w.logReg r).reserved.filter (· != j), barrier := [] } := by
    rw [hun, State.modLog_logReg_same, State.modLog_logReg_same]
  have hothers (q : Nat) (hq : q ≠ r) : (w.logUnreserve r j).logReg q = s.logReg q := by
    rw [hun, State.modLog_logReg, if_neg hq, State.modLog_logReg, if_neg hq, hother q hq]
  have hrests : (w.logUnreserve r j).log.posted = rest ∧ (w.logUnreserve r j).job? j = some J ∧ (w.logUnreserve r j).pending = s.pending := by
    rw [hun]
    exact ⟨hposted', hJ', hpending⟩
  rw [hreg] at hregs
  dsimp only at hx
  generalize w.logUnreserve r j = x at hx hregs hothers hrests
  obtain ⟨hposted'', hJ'', hpending'⟩ := hrests
  refine .of_done hx hpending' ⟨(congrArg LogReg.value hregs :), (congrArg LogReg.count hregs :), (congrArg LogReg.epoch hregs :), hposted'',
    hothers, _, State.modJob_job_some hJ'' _, rfl, if_neg hphase, (if_neg hphase).trans ?_⟩
  rw [hreg]

/-! ### The loop budget (R117) -/

theorem exec_rejectionBudgetEnd (hJ : s.job? j = some J) (hrun : J.isRunning = true) (hloops : (J.current.any fun x => loops x.2.entry) = true) :
    exec (.rejectionBudgetEnd j now) s = .next ((s.at_ now).modJob j fun J => { J with overrun := true }) := by
  have hx : exec (.rejectionBudgetEnd j now) s = execRejectionBudgetEnd j now s := rfl
  unfold execRejectionBudgetEnd at hx
  dsimp only at hx
  rw [show (s.at_ now).job? j = some J from hJ] at hx
  exact hx.trans (congrArg (done s) (if_pos (by rw [hloops, hrun]; rfl)))

end

/-- Settles O34: each command by its own lemma. -/
theorem dispatchAndSafePointsFollowTheOrder : Obligations.DispatchAndSafePointsFollowTheOrder := by
  unfold Obligations.DispatchAndSafePointsFollowTheOrder
  refine ⟨fun s n now x rest hn hserves hjobs hfree hready => completes_dispatch_tile hn hserves hjobs hfree hready,
    fun s c now x rest hc hstopped hjobs hfree hready => completes_dispatch_core hc hstopped hjobs hfree hready,
    fun s j now J hJ hrun hend hholds hphase hrel => ⟨?_, ?_, ?_, ?_⟩,
    fun s j now J hJ hholds => exec_safePointAction_stays hJ (by rw [hholds, Bool.or_true]),
    fun s j n now c addr J hJ hwatch hmode hphase hrel => watchdog_spec hJ hmode hphase hrel hwatch c addr,
    fun s j n now cause addr J hJ hn hpresent hmode hcause hhas hphase hrel =>
      completes_machineCheck hJ hmode hphase hrel hn hpresent hhas hcause addr,
    fun s j i v now J hJ => ⟨fun K H hholds hout hpin hleaf hK hH hrel hphase => ⟨?_, fun n addr htile => ?_⟩,
      fun r d rest hphase hposted hbarrier => ?_, fun hrun hloops => ?_⟩⟩
  · exact fun hreq => completes_safePoint_stop hJ hrun hend hholds hphase hrel _ (.inl ⟨hreq, rfl⟩)
  · exact fun hreq => completes_safePoint_stop hJ hrun hend hholds hphase hrel _ (.inr (.inl ⟨hreq, rfl⟩))
  · exact fun hreq => completes_safePoint_stop hJ hrun hend hholds hphase hrel _ (.inr (.inr ⟨hreq, rfl⟩))
  · exact fun hreq hwindowed htiles => exec_safePointAction_goesOn hJ hrun hend hholds hreq hwindowed htiles
  · obtain ⟨t, hx, hjob, -⟩ := completes_commitAck (now := now) hJ hholds hout hpin hleaf hK hH
    exact ⟨t, hx, hjob⟩
  · obtain ⟨t, hx, hans, -⟩ := completes_commitTimeout (now := now) hJ hholds hout hpin hleaf hK hH hphase hrel htile addr
    exact ⟨t, hx, hans⟩
  · obtain ⟨t, hx, hvalue, hcount, -⟩ := completes_logbookExtend (now := now) hJ hphase hposted hbarrier
    exact ⟨t, hx, hvalue, hcount⟩
  · exact ⟨_, exec_rejectionBudgetEnd hJ hrun hloops, State.modJob_job_some (s := s.at_ now) hJ _⟩

end Sys2Proof.Machine
end

section
/-! PROOF. The end of a run: what a job that ends well releases, and what a failed comparison does not
(01_architecture.md R26; 04, R93-R95). -/

namespace Sys2Proof.Machine

section
variable {s : State} {j now : Nat} {J : Job} {st : JobStep} {o : JobOut}

theorem exec_runEnd {mismatch : Bool} (hJ : s.job? j = some J) (hphase : J.phase = .placed) (hend : J.atEnd = false) (hrun : J.isRunning = true)
    (h83 : J.opcode ≠ 0x8300) (h9 : famOf J.opcode ≠ 9) (hwindowed : J.windowed = false) (hreq : J.request = .none) :
    exec (.runEnd j mismatch now) s = done s ((s.at_ now).runEnd j J mismatch) := by
  have hx : exec (.runEnd j mismatch now) s = execRunEnd j mismatch now s := rfl
  unfold execRunEnd at hx
  dsimp only at hx
  rw [show (s.at_ now).job? j = some J from hJ] at hx
  dsimp only at hx
  rw [if_neg (by simp [hphase, hend, hrun, h83, h9, hwindowed]), hreq] at hx
  exact hx

/-- The job once the `k`-th run of its only step has ended, the tile of that run left. -/
def State.runDone (s : State) (j k : Nat) (srv : Server) : State :=
  let t := s.modJob j fun J => { J with steps := endRunAt J.steps 0 k }
  match srv with
  | .tile n => (t.modTile n fun T => { T.leave j with jobs := (T.jobs + 1) % 2 ^ 64 }).settleTile n
  | .core _ => t

theorem State.runDone_spec (s : State) (hJ : s.job? j = some J) (k : Nat) (srv : Server) :
    s.runDone j k srv = { s with jobs := (s.runDone j k srv).jobs, tiles := (s.runDone j k srv).tiles } ∧
      (s.runDone j k srv).job? j = some { J with steps := endRunAt J.steps 0 k } := by
  have hjob : (s.modJob j fun J => { J with steps := endRunAt J.steps 0 k }).job? j = some { J with steps := endRunAt J.steps 0 k } :=
    State.modJob_job_some hJ _
  unfold State.runDone
  cases srv <;> exact ⟨rfl, hjob⟩

theorem Job.durable_of_commit (h : J.commit ≠ .needed) : J.durable = false := by
  unfold Job.durable
  rw [beq_false_of_ne h]
  rfl

/-- The only step of a job, of which one run is left, ends: where its runs are compared and differ the job fails, else it ends. -/
theorem State.runEnd_last {k : Nat} {one : JobStep} {r : Run} (s : State) (mismatch : Bool) (hsteps : J.steps = [st])
    (hmode : (st.runs.any fun r => r.mode != .ended) = true) (hout : J.out = some o) (hdur : J.durable = false)
    (hfind : ((stepsFrom 0 (st.runs.map fun r => { st with runs := [r] })).find? fun x => x.2.runs.any fun r => r.mode == .running) = some (k, one))
    (hone : one.runs = [r]) (hlen : (st.runs.filter fun r => r.mode != .ended).length = 1) (harmed : (J.al2 && st.cmp) = true → s.armedFor J = none) :
    s.runEnd j J mismatch = if (J.al2 && st.cmp && mismatch) = true then (s.runDone j k r.server).al2Mismatch j J st false
      else (s.runDone j k r.server).finish j J := by
  have hcur : J.current = some (0, st) := by
    unfold Job.current
    rw [hsteps]
    exact List.find?_cons_of_pos hmode
  have hnone : (if (J.al2 && st.cmp) = true then s.armedFor J else none) = none := by
    split
    next h => exact harmed h
    · rfl
  have hlast : (decide (0 + 1 = J.steps.length) || (st.kind == .main && (J.out.any fun o => o.status != St.ok) && J.opcode != 0xF001)) = true := by
    rw [hsteps]
    rfl
  unfold State.runEnd
  rw [hcur]
  dsimp only
  rw [if_neg (by simp [hout, hdur]), hfind]
  dsimp only
  rw [if_neg (by simp [hlen]), hnone, hone]
  dsimp only
  rw [if_pos hlast]
  cases hr : r.server <;> simp only [List.head?_cons, Option.map_some, hr] <;> rfl

/-! ### A job that ends well (R26) -/

theorem foldl_addKey_eq (l : List (Nat × Key)) (s : State) : ∃ K p, l.foldl (fun u k => u.addKey k.1 k.2) s = { s with keys := K, pmem := p } := by
  induction l generalizing s with
  | nil => exact ⟨_, _, rfl⟩
  | cons k l ih =>
    obtain ⟨K, p, h⟩ := ih (s.addKey k.1 k.2)
    exact ⟨K, p, h⟩

/-- The keys and slots that a result makes leave the rest alone. -/
theorem State.settleOut_eq (s : State) (htree : o.tree = none) : ∃ K p T, s.settleOut o = { s with keys := K, pmem := p, tiles := T } := by
  obtain ⟨K, p, h⟩ := foldl_addKey_eq o.keys s
  unfold State.settleOut
  rw [htree, h]
  cases o.bind <;> cases o.drop <;> exact ⟨_, _, _, rfl⟩

/-- The one key that a result makes is in the key store. -/
theorem State.settleOut_key (s : State) (htree : o.tree = none) {k : Nat × Key} (hone : o.keys = [k]) :
    ((s.settleOut o).key? k.1).map (·.material) = some k.2.material := by
  have hadd : ((s.addKey k.1 k.2).key? k.1).map (·.material) = some k.2.material := by
    unfold State.addKey
    change (tget (tput s.keys.live k.1 _) k.1).map _ = _
    rw [tget_tput_same]
    rfl
  unfold State.settleOut
  rw [htree, hone]
  cases o.bind <;> cases o.drop <;> exact hadd

theorem State.keyLogged_reports (s : State) (J : Job) (o : JobOut) : Reports s (s.keyLogged J o) := by
  unfold State.keyLogged
  extract_lets h
  split
  · split
    · exact s.logEvent_reports _ _ _
    · exact .refl s
  · exact .refl s

/-- A job whose gate is open and whose destination takes its output ends with it. -/
theorem State.release_spec (s : State) {K : Job} (hK : s.job? j = some K) (hphase : K.phase = .placed) (hrel : J.released = 0)
    (hextend : o.extend = none) (htree : o.tree = none) (hgone : o.gone = false) (hmem : s.memOf J = none) (hgate : s.gateOf J = none)
    (hfault : s.writeFault J.dst o.output.length = none) :
    let t := s.release j J o
    Answered t j o.status o.result ∧ (∃ K, t.job? j = some K ∧ K.ret = o.ret) ∧ t.pending = s.pending ∧
      t.hostMem = memWriteN s.hostMem J.dst o.output ∧ ∀ k ∈ o.keys, o.keys = [k] → (t.key? k.1).map (·.material) = some k.2.material := by
  have hdrop : o.output.drop J.released = o.output := by rw [hrel]; rfl
  have hnone : (if o.output.isEmpty then none else s.wrFault (s.memOf J) (J.dst + J.released) o.output.length) = none := by
    rw [hmem, hrel]
    split
    · rfl
    · exact hfault
  let w := ((s.wr none J.dst o.output).settleOut o).keyLogged J o
  have hwritten : (s.wr none J.dst o.output).jobs = s.jobs ∧ (s.wr none J.dst o.output).pending = s.pending ∧
      (s.wr none J.dst o.output).hostMem = memWriteN s.hostMem J.dst o.output := by
    obtain ⟨c, hc⟩ := s.hostWrite_eq J.dst o.output
    rw [show s.wr none J.dst o.output = s.hostWrite J.dst o.output from rfl, hc]
    exact ⟨rfl, rfl, rfl⟩
  obtain ⟨hjobs, hpending, hhost⟩ := hwritten
  have hreports : Reports ((s.wr none J.dst o.output).settleOut o) w := State.keyLogged_reports _ J o
  obtain ⟨S, p, T, hsettle⟩ := (s.wr none J.dst o.output).settleOut_eq htree
  have hwjob : w.job? j = some K :=
    (State.job?_congr (hreports.jobs.trans ((congrArg State.jobs hsettle).trans hjobs)) j).trans hK
  have hwpend : w.pending = s.pending :=
    (congrArg State.pending hreports.eq :).trans ((congrArg State.pending hsettle).trans hpending)
  have hwhost : w.hostMem = memWriteN s.hostMem J.dst o.output := hreports.hostMem.trans ((congrArg State.hostMem hsettle).trans hhost)
  have hwkey (k : Nat × Key) (hone : o.keys = [k]) : (w.key? k.1).map (·.material) = some k.2.material := by
    have hkeys : w.keys = ((s.wr none J.dst o.output).settleOut o).keys := (congrArg State.keys hreports.eq :)
    unfold State.key?
    rw [hkeys]
    exact State.settleOut_key _ htree hone
  have hrelease : s.release j J o =
      ((w.modJob j fun J => { J with released := 0, newIdx := [] }).endJob j o.status o.result o.ret).modJob j fun K => { K with al2Done := K.al2 } := by
    unfold State.release
    rw [hgate]
    dsimp only
    rw [hdrop, hnone, hmem, hrel, Nat.add_zero]
    dsimp only
    rw [hextend]
    dsimp only
    exact if_neg (show ¬ (o.tree.isSome = true ∨ o.gone = true) by simp [htree, hgone])
  clear_value w
  intro t
  rw [show t = _ from hrelease]
  generalize hv : (w.modJob j fun J => { J with released := 0, newIdx := [] }) = v
  have hvjob : v.job? j = some { K with released := 0, newIdx := [] } := hv ▸ State.modJob_job_some hwjob _
  have hvrest : v.pending = w.pending ∧ v.hostMem = w.hostMem ∧ v.keys = w.keys := by
    rw [← hv]
    exact ⟨rfl, rfl, rfl⟩
  obtain ⟨hvpend, hvhost, hvkeys⟩ := hvrest
  have hlive : ¬ (({ K with released := 0, newIdx := [] } : Job).phase = .ended ∨ ({ K with released := 0, newIdx := [] } : Job).phase = .delayed) := by
    simp [hphase]
  obtain ⟨⟨L, hL, hLphase, hstatus, hresult, hout⟩, hends, -, hends_host, -⟩ := State.endJob_answers hvjob hlive rfl o.status o.result o.ret
  obtain ⟨L', hL', hret⟩ := State.endJob_ret hvjob hlive rfl o.status o.result o.ret
  generalize v.endJob j o.status o.result o.ret = x at hL hends hends_host hL'
  have hjob : (x.modJob j fun K => { K with al2Done := K.al2 }).job? j = some { L with al2Done := L.al2 } := State.modJob_job_some hL _
  refine ⟨⟨_, hjob, hLphase, hstatus, hresult, hout⟩, ⟨_, hjob, ?_⟩, ?_, ?_, fun k _ hone => ?_⟩
  · cases hL.symm.trans hL'
    exact hret
  · exact (congrArg State.pending hends.steady :).trans (hvpend.trans hwpend)
  · exact hends_host.trans (hvhost.trans hwhost)
  · have hbody := congrArg (Option.map Key.material) (hends.key k.1)
    rw [Option.map_map, Option.map_map] at hbody
    refine Eq.trans hbody (Eq.trans ?_ (hwkey k hone))
    unfold State.key?
    rw [hvkeys]
    rfl

/-- The only run of a job ends: its output is released and it ends with its result. -/
theorem completes_runEnd_well {r : Run} (mismatch : Bool) (hJ : s.job? j = some J) (hphase : J.phase = .placed) (hsteps : J.steps = [st])
    (hruns : st.runs = [r]) (hr : r.mode = .running) (hout : J.out = some o) (hok : o.status = St.ok) (hextend : o.extend = none)
    (htree : o.tree = none) (hgone : o.gone = false) (hend : J.atEnd = false) (hwindowed : J.windowed = false) (hreq : J.request = .none)
    (hcommit : J.commit = .none) (hrel : J.released = 0) (hal2 : J.al2 = false) (h83 : J.opcode ≠ 0x8300) (h9 : famOf J.opcode ≠ 9)
    (hmem : s.memOf J = none) (hgate : s.gateOf J = none) (hfault : s.writeFault J.dst o.output.length = none) :
    Completes (.runEnd j mismatch now) s fun t => Answered t j St.ok o.result ∧ (∃ K, t.job? j = some K ∧ K.ret = o.ret) ∧
      t.hostMem = (if o.output = [] then s.hostMem else memWriteN s.hostMem J.dst o.output) ∧
      (∀ k ∈ o.keys, o.keys = [k] → (t.key? k.1).map (·.material) = some k.2.material) := by
  have hrun : J.isRunning = true := by
    unfold Job.isRunning
    rw [hsteps]
    simp [hruns, hr]
  have hx := exec_runEnd (now := now) (mismatch := mismatch) hJ hphase hend hrun h83 h9 hwindowed hreq
  rw [State.runEnd_last (k := 0) (one := { st with runs := [r] }) (r := r) (s.at_ now) mismatch hsteps (by simp [hruns, hr]) hout
    (Job.durable_of_commit (by simp [hcommit]))
    (by simp [hruns, hr, stepsFrom]) rfl (by simp [hruns, hr]) (by simp [hal2]), if_neg (by simp [hal2])] at hx
  obtain ⟨heq, hK⟩ := (s.at_ now).runDone_spec hJ 0 r.server
  generalize (s.at_ now).runDone j 0 r.server = v at hx heq hK
  have hrest : v.memOf J = none ∧ v.gateOf J = none ∧ v.writeFault J.dst o.output.length = none ∧ v.hostMem = s.hostMem ∧ v.pending = s.pending := by
    rw [heq]
    exact ⟨hmem, hgate, hfault, rfl, rfl⟩
  obtain ⟨hvmem, hvgate, hvfault, hvhost, hvpend⟩ := hrest
  have hfinish : v.finish j J = v.release j J o := by
    unfold State.finish
    rw [hout]
    exact if_pos hok
  rw [hfinish] at hx
  obtain ⟨hans, hret, hpend, hhost, hkeys⟩ := v.release_spec hK hphase hrel hextend htree hgone hvmem hvgate hvfault
  rw [hok] at hans
  refine .of_done hx (hpend.trans hvpend) ⟨hans, hret, ?_, hkeys⟩
  rw [hhost, hvhost]
  split
  next h => rw [h]; rfl
  · rfl

end

/-! ### A comparison that fails (R95) -/

theorem State.reactB_keyBodies (s : State) (src sub i : Nat) : (s.reactB src sub false).keyBodies i = s.keyBodies i := by
  have hkeys {u v : State} (h : v.keys = u.keys) : v.keyBodies i = u.keyBodies i := by simp only [State.keyBodies, State.key?, h]
  unfold State.reactB
  split
  · exact hkeys (congrArg State.keys (State.logEvent_reports _ _ _ _).eq :)
  · exact (State.enterSafe_stops _ _ _ _).keys i

/-- Job `j` has ended as `b` says, and the bodies of the keys are `k`. -/
structure Spared (j : Nat) (b : Job) (k : Nat → Option Key) (s : State) : Prop where
  rested : ∃ c, Rested j b c s
  keys : s.keyBodies = k

namespace Spared
variable {j : Nat} {b : Job} {k : Nat → Option Key} {s t : State}

theorem of_eq (h : Spared j b k s) (hjobs : t.jobs = s.jobs) (hkeys : t.keys = s.keys) : Spared j b k t := by
  obtain ⟨c, hc⟩ := h.rested
  refine ⟨⟨c, hc.of_eq hjobs hkeys⟩, Eq.trans (funext fun i => ?_) h.keys⟩
  simp only [State.keyBodies, State.key?, hkeys]

theorem fenceTile (h : Spared j b k s) (n reason : Nat) : Spared j b k (s.fenceTile n reason) := by
  obtain ⟨c, hc⟩ := h.rested
  refine ⟨⟨c, hc.fenceTile n reason⟩, Eq.trans (funext fun i => ?_) h.keys⟩
  exact (s.stopTile_ends n .fence).key i

theorem reactB (h : Spared j b k s) (src sub : Nat) : Spared j b k (s.reactB src sub false) := by
  obtain ⟨c, hc⟩ := h.rested
  exact ⟨⟨c, hc.reactB src sub⟩, Eq.trans (funext fun i => s.reactB_keyBodies src sub i) h.keys⟩

/-- The record of a mismatch fences its tile or brings the safe state, or does neither. -/
theorem event_mismatch (h : Spared j b k s) (n aux : Nat) (job : Option Nat) : Spared j b k (s.event n 0x16 aux job) := by
  have hnoted : Spared j b k (s.noted n 0x16 aux true false false job) := by
    rw [State.noted_eq_or]
    exact h.of_eq rfl rfl
  have hdisp : dispOf s n 0x16 job = if n < 96 then some (al2Disp s job) else none := rfl
  by_cases hn : n < 96
  · rw [if_pos hn] at hdisp
    have hcases : al2Disp s job = .a ∨ al2Disp s job = .b := by
      unfold al2Disp
      split
      · exact .inl rfl
      · split
        · exact .inr rfl
        · exact .inl rfl
    rcases hcases with hd | hd <;> rw [hd] at hdisp
    · obtain ⟨F, hF | hF⟩ := State.event_of_a s hn hdisp rfl rfl aux <;> rw [hF]
      · exact h.of_eq rfl rfl
      · exact Spared.fenceTile (s := { s with faults := F }) (h.of_eq rfl rfl) n 1
    · unfold State.event
      rw [State.handle_of_b rfl hdisp]
      have hreact := hnoted.reactB n 0x16
      split
      · exact hreact.of_eq rfl rfl
      · exact hreact
  · rw [if_neg hn] at hdisp
    unfold State.event
    rw [State.handle_of_log rfl (by rw [hdisp]; rfl)]
    exact hnoted

theorem each (l : List Nat) {f : State → Nat → State} (hf : ∀ t n, Spared j b k t → Spared j b k (f t n)) (h : Spared j b k s) :
    Spared j b k (eachOf l f s) := by
  induction l generalizing s with
  | nil => exact h
  | cons n l ih => exact ih (hf s n h)

end Spared

section
variable {s : State} {j now : Nat} {J K : Job} {st : JobStep} {o : JobOut}

/-- The tiles of a comparison, and what each shows of it. -/
def comparedTiles (J : Job) (st : JobStep) : List Nat :=
  (st.tiles ++ (if st.kind = .verifyAfterSign then (J.mainStep.map JobStep.tiles).getD [] else [])).eraseDups

/-- The state in which a mismatch ends its job. -/
def State.mismatchShown (s : State) (j : Nat) (J : Job) (st : JobStep) : State :=
  eachOf (comparedTiles J st) (fun u n =>
    if st.pers == 5 then u.showCheck n 6 (Config.primNat (.image 24) [le 8 j, le 8 s.time.elapsed, le 1 n]) 0 else u.showCheck n 6 0 2)
    (s.modJob j fun J => { J with inj := J.inj || false })

theorem State.al2Mismatch_eq (s : State) (hrel : J.released = 0) : s.al2Mismatch j J st false =
    eachOf (comparedTiles J st) (fun u n => u.event n 0x16 (((comparedTiles J st).find? (· != n)).getD n) (some j))
      ((s.mismatchShown j J st).endJob j St.mcheck 0) := by
  have hwhole : ((kindOf J.opcode == .unseal || kindOf J.opcode == .unwrap) && J.released != 0) = false := by simp [hrel]
  unfold State.al2Mismatch
  dsimp only
  rw [hwhole]
  rfl

theorem completes_runEnd_mismatch {a b : Run} (hJ : s.job? j = some J) (hphase : J.phase = .placed) (hsteps : J.steps = [st])
    (hruns : st.runs = [a, b]) (ha : a.mode = .ended) (hb : b.mode = .running) (hcmp : st.cmp = true) (hout : J.out = some o)
    (hend : J.atEnd = false) (hwindowed : J.windowed = false) (hreq : J.request = .none) (hcommit : J.commit = .none) (hrel : J.released = 0)
    (hal2 : J.al2 = true) (h83 : J.opcode ≠ 0x8300) (h9 : famOf J.opcode ≠ 9) (harmed : s.armedFor J = none) :
    Completes (.runEnd j true now) s fun t => Answered t j St.mcheck 0 ∧
      ∀ i, (t.key? i).map (·.material) = (s.key? i).map (·.material) := by
  have hrun : J.isRunning = true := by
    unfold Job.isRunning
    rw [hsteps]
    simp [hruns, hb]
  have hx := exec_runEnd (now := now) (mismatch := true) hJ hphase hend hrun h83 h9 hwindowed hreq
  rw [State.runEnd_last (k := 1) (one := { st with runs := [b] }) (r := b) (s.at_ now) true hsteps (by simp [hruns, hb]) hout
    (Job.durable_of_commit (by simp [hcommit]))
    (by simp [hruns, ha, hb, stepsFrom]) rfl (by simp [hruns, ha, hb]) (fun _ => harmed), if_pos (by simp [hal2, hcmp]),
    State.al2Mismatch_eq _ hrel] at hx
  obtain ⟨heq, hK⟩ := (s.at_ now).runDone_spec hJ 1 b.server
  generalize (s.at_ now).runDone j 1 b.server = v at hx heq hK
  have hv : v.pending = s.pending ∧ v.keys = s.keys := by
    rw [heq]
    exact ⟨rfl, rfl⟩
  have hshown {α : Type} (field : State → α) (htile : ∀ u n f, field (State.modTile u n f) = field u) :
      field (v.mismatchShown j J st) = field (v.modJob j fun J => { J with inj := J.inj || false }) := by
    refine eachOf_keeps field _ _ (fun u n => ?_) _
    split <;> exact htile u n _
  have hwjob : (v.mismatchShown j J st).job? j = some { J with steps := endRunAt J.steps 0 1, inj := J.inj || false } :=
    (State.job?_congr (hshown State.jobs fun _ _ _ => rfl) j).trans (State.modJob_job_some hK _)
  have hwkeys : (v.mismatchShown j J st).keys = s.keys := (hshown State.keys fun _ _ _ => rfl).trans hv.2
  have hwpend : (v.mismatchShown j J st).pending = s.pending := (hshown State.pending fun _ _ _ => rfl).trans hv.1
  generalize v.mismatchShown j J st = w at hx hwjob hwkeys hwpend
  obtain ⟨hans, hends, -⟩ := State.endJob_answers hwjob (by simp [hphase]) hrel St.mcheck 0 []
  generalize w.endJob j St.mcheck 0 = x at hx hans hends
  obtain ⟨b0, hrest, hb0⟩ := rested_of_answered hans
  have hspared : Spared j b0 x.keyBodies x := ⟨⟨_, hrest⟩, rfl⟩
  have hend := hspared.each (comparedTiles J st) fun t n h => h.event_mismatch n (((comparedTiles J st).find? (· != n)).getD n) (some j)
  have hpend : (eachOf (comparedTiles J st) (fun u n => u.event n 0x16 (((comparedTiles J st).find? (· != n)).getD n) (some j)) x).pending = s.pending := by
    refine (eachOf_keeps State.pending _ _ (fun u n => ?_) x).trans ((congrArg State.pending hends.steady :).trans hwpend)
    exact (congrArg State.pending (u.event_apart n 0x16 _ (some j)) :)
  obtain ⟨⟨c, hc⟩, hkeys⟩ := hend
  refine .of_done hx hpend ⟨hc.answered hb0, fun i => ?_⟩
  have hbody := (congrFun hkeys i).trans (hends.key i)
  have hmaterial := congrArg (Option.map Key.material) hbody
  rw [Option.map_map, Option.map_map] at hmaterial
  refine Eq.trans hmaterial ?_
  unfold State.key?
  rw [hwkeys]
  rfl

end

/-- Settles O35: commits, extends and run ends by their own lemmas; what it says of dispatch and stops is part of O34. -/
theorem commitsAndRunEndsReleaseOnlyGoodResults : Obligations.CommitsAndRunEndsReleaseOnlyGoodResults := by
  unfold Obligations.CommitsAndRunEndsReleaseOnlyGoodResults
  refine ⟨fun s j i v now J K H hJ hholds hout hpin hleaf hK hH hrel hphase =>
      ⟨completes_commitAck hJ hholds hout hpin hleaf hK hH, fun n addr htile =>
        completes_commitTimeout hJ hholds hout hpin hleaf hK hH hphase hrel htile addr⟩,
    fun s j r now J d rest hJ hphase hposted hbarrier => completes_logbookExtend hJ hphase hposted hbarrier,
    fun s j now J st r o mismatch hJ hphase hsteps hruns hr _ hout hok hextend htree hgone hend hwindowed hreq hcommit hrel hal2 h83 h9 hmem
      hgate hfault => completes_runEnd_well mismatch hJ hphase hsteps hruns hr hout hok hextend htree hgone hend hwindowed hreq hcommit hrel
        hal2 h83 h9 hmem hgate hfault,
    fun s j now J st a b o hJ hphase hsteps hruns ha hb _ hcmp hout hend hwindowed hreq hcommit hrel hal2 h83 _ h9 harmed =>
      completes_runEnd_mismatch hJ hphase hsteps hruns ha hb hcmp hout hend hwindowed hreq hcommit hrel hal2 h83 h9 harmed,
    fun s j now J hJ hrun hloops => exec_rejectionBudgetEnd hJ hrun hloops,
    fun s now hjobs => ⟨fun n x rest hn hserves hfree hready => ?_, fun j J hJ hphase hrel => ⟨fun hrun hend hholds hreq => ?_,
      fun n c addr hwatch hmode hc => ?_, fun n addr hn hpresent hmode hhas => ?_⟩⟩⟩
  · obtain ⟨t, hx, hruns, hmode, -⟩ := completes_dispatch_tile hn hserves hjobs hfree hready
    exact ⟨t, hx, hruns, hmode⟩
  · exact completes_safePoint_stop hJ hrun hend hholds hphase hrel _ (.inl ⟨hreq, rfl⟩)
  · obtain ⟨t, hx, hans, hm, -, hcause⟩ := (watchdog_spec (now := now) hJ hmode hphase hrel hwatch c addr).1 hc
    exact ⟨t, hx, hans, hm, hcause⟩
  · obtain ⟨t, hx, hans, hm, -, hcause, -⟩ := completes_machineCheck (now := now) hJ hmode hphase hrel hn hpresent hhas (.inl rfl) addr
    exact ⟨t, hx, hans, hm, hcause⟩

end Sys2Proof.Machine
end

section
/-! PROOF. Streamed output and completions (08_symmetric.md R185; 10, R231, R245-R247; 21, R472). -/

namespace Sys2Proof.Machine

/-! ### The bytes of a completion (R245) -/

theorem fromLE_le (k n : Nat) : fromLE (le k n) = n % 256 ^ k := by
  induction k generalizing n with
  | zero => rw [Nat.pow_zero, Nat.mod_one]; rfl
  | succ k ih =>
    unfold le fromLE
    rw [ih, BitVec.toNat_ofNat]
    exact Nat.mod_mul.symm.trans (congrArg (n % ·) Nat.pow_succ'.symm)

/-- A little-endian field within a block. -/
theorem leAt_field (a c : Bytes) (k n : Nat) : leAt (a ++ (le k n ++ c)) a.length k = n % 256 ^ k := by
  unfold leAt sliceOf
  rw [List.drop_left, List.take_append_of_le_length (by rw [le_length]), List.take_of_length_le (by rw [le_length]), fromLE_le]

theorem fit_length (n : Nat) (bs : Bytes) : (fit n bs).length = n := by
  unfold fit
  rw [List.length_append, List.length_take, zeros_length]
  omega

theorem completionFlags_spec : ∀ p i v d : Bool, completionFlags p false i v d < 65536 ∧ (completionFlags p false i v d).testBit 0 = p ∧
    (completionFlags p false i v d).testBit 1 = false := by decide

section
variable (tag status flags result service : Nat) (ret : Bytes)

theorem completionBytes_length : (completionBytes tag status flags result ret service).length = 32 := by
  simp [completionBytes, fit_length]

theorem completionBytes_fields : leAt (completionBytes tag status flags result ret service) 0 4 = tag % 2 ^ 32 ∧
    leAt (completionBytes tag status flags result ret service) 4 2 = status % 65536 ∧
    leAt (completionBytes tag status flags result ret service) 6 2 = flags % 65536 ∧
    leAt (completionBytes tag status flags result ret service) 8 8 = result % 2 ^ 64 := by
  have hassoc : completionBytes tag status flags result ret service =
      le 4 tag ++ (le 2 status ++ (le 2 flags ++ (le 8 result ++ (fit 12 ret ++ le 4 service)))) := by
    simp only [completionBytes, List.append_assoc]
  rw [hassoc]
  refine ⟨leAt_field [] _ 4 tag, leAt_field (le 4 tag) _ 2 status, ?_, ?_⟩
  · rw [← List.append_assoc]
    exact leAt_field (le 4 tag ++ le 2 status) _ 2 flags
  · rw [← List.append_assoc, ← List.append_assoc]
    exact leAt_field ((le 4 tag ++ le 2 status) ++ le 2 flags) _ 8 result

end

/-! ### The write of a completion -/

theorem State.countEnds_idle {s : State} {J : Job} (hquiesce : (s.fn J.fn).quiesce = none) (hbg : ∀ e ∈ s.jobs, e.2.bg = none) (q : Nat) :
    s.countEnds J q = s := by
  have hjobs : (s.jobs.map fun e => (e.1, match e.2.bg with
      | some (p, n) => if p = q then { e.2 with bg := some (p, n + b2n (J.status == St.aborted)) } else e.2
      | none => e.2)) = s.jobs := by
    refine (List.map_congr_left fun e he => ?_).trans (List.map_id _)
    rw [hbg e he]
    rfl
  unfold State.countEnds
  rw [hquiesce]
  exact congrArg (fun J => { s with jobs := J }) hjobs

theorem State.countDone_onTime {s : State} {J : Job} (hlate : J.late s.time.elapsed = false) : ∃ r, s.countDone J = { s with regs := r } := by
  unfold State.countDone
  rw [hlate]
  extract_lets t late u v
  have ht : ∃ r, t = { s with regs := r } := by
    unfold t
    split
    · split
      · exact ⟨_, rfl⟩
      · exact ⟨_, rfl⟩
    · exact ⟨_, rfl⟩
  obtain ⟨r, hr⟩ := ht
  have hu : u = t := if_neg (by simp [late])
  rw [if_neg (by simp [late])]
  unfold v
  rw [hu, hr]
  split <;> exact ⟨_, rfl⟩

/-- With no quiesce and no background command nothing waits for completions. -/
theorem State.settle_idle {s : State} (hquiesce : ∀ f, (s.fn f).quiesce = none) (hbg : ∀ e ∈ s.jobs, e.2.bg = none) : s.settle = s := by
  have hfns (l : List Nat) : eachOf l State.settleQuiesce s = s := by
    induction l with
    | nil => rfl
    | cons f l ih =>
      have hone : s.settleQuiesce f = s := by
        unfold State.settleQuiesce
        rw [hquiesce]
      exact (congrArg (eachOf l State.settleQuiesce) hone).trans ih
  have hjobs : tkeys s.jobs (fun _ J => J.bg.isSome) = [] := by
    unfold tkeys
    rw [List.map_eq_nil_iff, List.filter_eq_nil_iff]
    intro e he
    dsimp only
    rw [hbg e he]
    simp
  unfold State.settle
  dsimp only
  rw [hfns, hjobs]
  rfl

section
variable {s : State} {j q now : Nat} {J : Job}

/-- The completion of job `j` is `b`, written in the slot of its index on queue `q`: the job leaves the table. -/
structure Written (s : State) (j q : Nat) (b : Bytes) (t : State) : Prop where
  hostMem : t.hostMem = memWriteN s.hostMem ((s.queue q).cqBase + 32 * ((s.queue q).cqTail.toNat % 2 ^ (s.queue q).cqLog2)) b
  job : t.job? j = none
  queue : t.queue q = { s.queue q with reserved := (s.queue q).reserved - 1, cqTail := (s.queue q).cqTail + 1 }
  keys : t.keys = (s.dropJob j).keys
  faults : t.faults = s.faults
  other : ∀ p, p ≠ q → t.queue p = s.queue p
  pending : t.pending = s.pending

/-- Job `j` has left the table and its slot on queue `q`. -/
def State.leaves (s : State) (j q : Nat) : State := (s.dropJob j).modQueue q fun Q => { Q with reserved := Q.reserved - 1 }

/-- Besides, its completion is written at `a`. -/
def State.writes (s : State) (j q a : Nat) (b : Bytes) : State :=
  ((s.leaves j q).hostWrite a b).modQueue q fun Q => { Q with cqTail := Q.cqTail + 1 }

theorem State.leaves_bg (hbg : ∀ e ∈ s.jobs, e.2.bg = none) (q : Nat) : ∀ e ∈ (s.leaves j q).jobs, e.2.bg = none :=
  fun e he => hbg e (List.mem_of_mem_filter he)

theorem State.writes_eq (s : State) (j q a : Nat) (b : Bytes) : ∃ Q c, s.writes j q a b =
    { s.dropJob j with hostMem := memWriteN s.hostMem a b, queues := Q, cluster := c } := by
  obtain ⟨o, ho⟩ := (s.leaves j q).hostWrite_eq a b
  unfold State.writes
  rw [ho]
  exact ⟨_, _, rfl⟩

theorem State.writes_queue (s : State) (j q a : Nat) (b : Bytes) (p : Nat) : (s.writes j q a b).queue p =
    if p = q then { s.queue q with reserved := (s.queue q).reserved - 1, cqTail := (s.queue q).cqTail + 1 } else s.queue p := by
  obtain ⟨o, ho⟩ := (s.leaves j q).hostWrite_eq a b
  have hqueue (p : Nat) : ((s.leaves j q).hostWrite a b).queue p = if p = q then { s.queue q with reserved := (s.queue q).reserved - 1 } else s.queue p := by
    rw [ho]
    exact State.modQueue_queue (s.dropJob j) q p fun Q => { Q with reserved := Q.reserved - 1 }
  unfold State.writes
  rw [State.modQueue_queue]
  split
  · rw [hqueue, if_pos rfl]
  next h => rw [hqueue, if_neg h]

section
variable (hJ : s.job? j = some J) (hsrc : J.src = .ring q) (hmodule : (s.queue q).isModule = none)
  (hflr : (s.fn J.fn).flr = false) (hmode : (s.queue q).mode ≠ .fenced) (hnotify : fNotify J.flags.toNat = false)
  (hquiesce : ∀ f, (s.fn f).quiesce = none) (hbg : ∀ e ∈ s.jobs, e.2.bg = none)
  (hfault : s.writeFault ((s.queue q).cqBase + 32 * ((s.queue q).cqTail.toNat % 2 ^ (s.queue q).cqLog2)) 32 = none)
include hJ hsrc hmodule hflr hmode hnotify hquiesce hbg hfault

theorem State.complete_eq : s.complete j = (((s.writes j q
    ((s.queue q).cqBase + 32 * ((s.queue q).cqTail.toNat % 2 ^ (s.queue q).cqLog2))
    (s.completionOf J (s.queue q).cqTail (s.queue q).cqLog2)).countDone J).liftBorrow J.fn).settle := by
  have hcount : (s.leaves j q).countEnds J q = s.leaves j q := State.countEnds_idle (s := s.leaves j q) (hquiesce J.fn) (State.leaves_bg hbg q) q
  have hsil : s.silenced J = false := by
    unfold State.silenced
    rw [hflr]
    rfl
  unfold State.leaves at hcount
  unfold State.complete
  simp only [hJ, hsrc]
  rw [hsil, if_neg (by simp), if_neg (fun h => hmode h.1), hmodule, if_neg (by simpa [State.wrFault] using hfault), hcount, hnotify]
  rfl

theorem State.complete_written (hlate : J.late s.time.elapsed = false) :
    Written s j q (s.completionOf J (s.queue q).cqTail (s.queue q).cqLog2) (s.complete j) := by
  rw [State.complete_eq hJ hsrc hmodule hflr hmode hnotify hquiesce hbg hfault]
  generalize hslot : (s.queue q).cqBase + 32 * ((s.queue q).cqTail.toNat % 2 ^ (s.queue q).cqLog2) = slot
  generalize s.completionOf J (s.queue q).cqTail (s.queue q).cqLog2 = block
  have hqueue := s.writes_queue j q slot block
  obtain ⟨Q, c, hw⟩ := s.writes_eq j q slot block
  generalize s.writes j q slot block = w at hqueue hw
  obtain ⟨r, hr⟩ := State.countDone_onTime (s := w) (J := J) (by rw [hw]; exact hlate)
  have hborrow : ∃ F, (w.countDone J).liftBorrow J.fn = { w with regs := r, fns := F } ∧ ∀ f, (((w.countDone J).liftBorrow J.fn).fn f).quiesce = none := by
    rw [hr]
    refine ⟨_, rfl, fun f => ?_⟩
    have hfn : ∀ f, (w.fn f).quiesce = none := fun f => by rw [hw]; exact hquiesce f
    refine (congrArg Fn.quiesce (State.modFn_fn _ _ _ _)).trans ?_
    split
    · exact hfn J.fn
    · exact hfn f
  obtain ⟨F, hF, hidle⟩ := hborrow
  have hjobs : w.jobs = (s.dropJob j).jobs := by rw [hw]
  rw [State.settle_idle hidle (by rw [hF]; exact fun e he => hbg e (List.mem_of_mem_filter (hjobs ▸ he))), hF]
  refine ⟨by rw [hw, hslot], ?_, (hqueue q).trans (if_pos rfl), by rw [hw], by rw [hw]; rfl, fun p hp => (hqueue p).trans (if_neg hp), by rw [hw]; rfl⟩
  exact (State.job?_congr hjobs j).trans ((tget_tdel s.jobs j j).trans (if_pos rfl))

end

/-! ### The commands -/

theorem exec_segmentRelease {st : Nat × JobStep} {o : JobOut} {n : Nat} (hJ : s.job? j = some J) (hphase : J.phase = .placed)
    (hout : J.out = some o) (hcur : J.current = some st) (hstreams : J.streams = true) (hrun : J.isRunning = true) (hholds : J.holds = false)
    (hal2 : J.al2 = false) (hgate : s.gateOf J = none) (hmem : s.memOf J = none)
    (hn : n = min 16384 ((if kindOf J.opcode = .seal ∧ J.totalLen ≤ o.seen then o.output.length - tagLen J.opcode J.param.toNat
      else o.output.length) - J.released)) (hpos : 0 < n) (hfault : s.writeFault (J.dst + J.released) n = none) :
    exec (.segmentRelease j false now) s = done s (((s.at_ now).hostWrite (J.dst + J.released) (sliceOf o.output J.released n)).modJob j fun J =>
      { J with released := J.released + n }) := by
  have hx : exec (.segmentRelease j false now) s = execSegmentRelease j false now s := rfl
  unfold execSegmentRelease at hx
  dsimp only at hx
  rw [show (s.at_ now).job? j = some J from hJ] at hx
  dsimp only at hx
  rw [hout, hcur] at hx
  dsimp only at hx
  rw [← hn, if_neg (by simp [hstreams, hrun, hholds, hphase]; omega), hal2, show (s.at_ now).gateOf J = none from hgate,
    show (s.at_ now).memOf J = none from hmem, show (s.at_ now).wrFault none (J.dst + J.released) n = none from hfault] at hx
  exact hx

theorem exec_completionWrite (hJ : s.job? j = some J) (hsrc : J.src = .ring q) (hchain : (s.queue q).chain ≠ some j) (hphase : J.phase = .ended)
    (hpert : ((s.fn J.fn).pert && bitOf (s.fn J.fn).ctrl.toNat 0) = false) : exec (.completionWrite j now) s = done s ((s.at_ now).complete j) := by
  have hx : exec (.completionWrite j now) s = execCompletionWrite j now s := rfl
  unfold execCompletionWrite at hx
  dsimp only at hx
  rw [show (s.at_ now).job? j = some J from hJ] at hx
  dsimp only at hx
  have hopen : (s.at_ now).chainOpen j J = false := by
    unfold State.chainOpen State.openChainOf
    rw [hsrc]
    exact beq_false_of_ne hchain
  rw [hopen, if_neg (by simp [hphase]), if_neg (by
    rw [show ((s.at_ now).fn J.fn) = s.fn J.fn from rfl, hpert]
    simp)] at hx
  exact hx

theorem completes_completionWrite_delayed (hJ : s.job? j = some J) (hsrc : J.src = .ring q) (hchain : (s.queue q).chain ≠ some j)
    (hphase : J.phase = .ended) (hpert : (s.fn J.fn).pert = true) (h0 : (s.fn J.fn).ctrl.getLsbD 0 = true)
    (h1 : (s.fn J.fn).ctrl.getLsbD 1 = false) (hdelay : 0 < (s.fn J.fn).delayUs) : Completes (.completionWrite j now) s fun t =>
      t.hostMem = s.hostMem ∧ t.queues = s.queues ∧
      t.job? j = some { J with acted := true, phase := .delayed, delayEnd := (s.time.to now).elapsed + 1000 * (s.fn J.fn).delayUs } := by
  have hx : exec (.completionWrite j now) s = execCompletionWrite j now s := rfl
  unfold execCompletionWrite at hx
  dsimp only at hx
  rw [show (s.at_ now).job? j = some J from hJ] at hx
  dsimp only at hx
  have hopen : (s.at_ now).chainOpen j J = false := by
    unfold State.chainOpen State.openChainOf
    rw [hsrc]
    exact beq_false_of_ne hchain
  have hdelayOf : delayOf (s.fn J.fn) = ((s.fn J.fn).delayUs, (s.fn J.fn).rng) := by
    unfold delayOf
    rw [bitOf_toNat, h1]
    rfl
  rw [hopen, if_neg (by simp [hphase]), show ((s.at_ now).fn J.fn) = s.fn J.fn from rfl, hpert, bitOf_toNat, h0, hsrc, if_pos (by simp), hdelayOf] at hx
  dsimp only at hx
  rw [if_neg (by omega)] at hx
  generalize hv : (s.at_ now).modFn J.fn (fun F => { F with rng := (s.fn J.fn).rng }) = v at hx
  have hvJ : v.job? j = some J := by rw [← hv]; exact hJ
  have hvrest : v.hostMem = s.hostMem ∧ v.queues = s.queues ∧ v.pending = s.pending := by
    rw [← hv]
    exact ⟨rfl, rfl, rfl⟩
  obtain ⟨hhost, hqueues, hpend⟩ := hvrest
  exact .of_done hx hpend ⟨hhost, hqueues, State.modJob_job_some (State.modJob_job_some hvJ _) _⟩

theorem exec_pertCompletionDelay (hJ : s.job? j = some J) (hphase : J.phase = .delayed) (hdue : J.delayEnd ≤ (s.time.to now).elapsed) :
    exec (.pertCompletionDelay j now) s = done s ((s.at_ now).complete j) := by
  have hx : exec (.pertCompletionDelay j now) s = execPertCompletionDelay j now s := rfl
  unfold execPertCompletionDelay at hx
  dsimp only at hx
  rw [show (s.at_ now).job? j = some J from hJ] at hx
  exact hx.trans (congrArg (done s) (if_pos ⟨hphase, hdue⟩))

theorem State.completionOf_fields (s : State) (c : BitVec 32) (log2 : Nat) (hlate : J.late s.time.elapsed = false) :
    let block := s.completionOf J c log2
    block.length = 32 ∧ leAt block 0 4 = J.tag.toNat ∧ leAt block 4 2 = J.status % 65536 ∧ leAt block 8 8 = J.result % 2 ^ 64 ∧
    (leAt block 6 2).testBit 0 = ((c.toNat / 2 ^ log2 + 1) % 2 == 1) ∧ (leAt block 6 2).testBit 1 = false := by
  have hblock : ∃ service, s.completionOf J c log2 = completionBytes J.tag.toNat J.status
      (completionFlags (phaseOf c.toNat (2 ^ log2)) false (J.inj || J.acted) J.provisional J.al2Done) J.result J.ret service := by
    unfold State.completionOf
    rw [hlate]
    exact ⟨_, rfl⟩
  obtain ⟨service, hblock⟩ := hblock
  rw [hblock]
  obtain ⟨hlt, hbit0, hbit1⟩ := completionFlags_spec (phaseOf c.toNat (2 ^ log2)) (J.inj || J.acted) J.provisional J.al2Done
  obtain ⟨htag, hstatus, hflags, hresult⟩ := completionBytes_fields J.tag.toNat J.status
    (completionFlags (phaseOf c.toNat (2 ^ log2)) false (J.inj || J.acted) J.provisional J.al2Done) J.result service J.ret
  rw [Nat.mod_eq_of_lt hlt] at hflags
  refine ⟨completionBytes_length _ _ _ _ _ _, htag.trans (Nat.mod_eq_of_lt J.tag.isLt), hstatus, hresult, ?_, ?_⟩
  · rw [hflags]
    exact hbit0
  · rw [hflags]
    exact hbit1

end

/-- Settles O36: the segment, and the completion on each of the two ways to it. -/
theorem completionsAreWrittenOnceAtTheirIndex : Obligations.CompletionsAreWrittenOnceAtTheirIndex := by
  unfold Obligations.CompletionsAreWrittenOnceAtTheirIndex
  refine ⟨fun s j now J st o hJ hphase hout hcur hstreams hrun hholds hal2 hgate hmem => ?_,
    fun s j q now J hJ hsrc hmodule hchain hflr hmode hnotify hquiesce hbg hlate => ?_⟩
  · intro data n hpos hfault
    have hx := exec_segmentRelease (now := now) hJ hphase hout hcur hstreams hrun hholds hal2 hgate hmem (n := n) rfl hpos hfault
    obtain ⟨c, hc⟩ := (s.at_ now).hostWrite_eq (J.dst + J.released) (sliceOf o.output J.released n)
    rw [hc] at hx
    exact .of_done hx rfl ⟨rfl, State.modJob_job_some hJ _, rfl⟩
  · intro Q slot block hfault written
    obtain ⟨hlen, htag, hstatus, hresult, hphase0, hlate0⟩ := (s.at_ now).completionOf_fields (J := J) Q.cqTail Q.cqLog2 hlate
    have hwritten := State.complete_written (s := s.at_ now) hJ hsrc hmodule hflr hmode hnotify hquiesce hbg hfault hlate
    have hmeets (c : Instr) (hx : exec c s = done s ((s.at_ now).complete j)) : Completes c s fun t => written t block := by
      refine .of_done hx hwritten.pending ⟨hwritten.hostMem, hwritten.job, ?_, ?_, ?_, hwritten.keys, hwritten.faults, hwritten.other⟩ <;>
        rw [hwritten.queue] <;> rfl
    refine ⟨hlen, htag, hstatus, hresult, hphase0, hlate0, fun hphase hpert => ?_, fun hphase hdue => ?_, fun hphase hpert h0 h1 hdelay => ?_⟩
    · exact hmeets _ (exec_completionWrite hJ hsrc hchain hphase (by rw [hpert]; rfl))
    · exact hmeets _ (exec_pertCompletionDelay hJ hphase hdue)
    · exact completes_completionWrite_delayed hJ hsrc hchain hphase hpert h0 h1 hdelay

end Sys2Proof.Machine
end

section
/-! PROOF. The key management jobs, the cache partitions and the preparation of the next tree
(09_key_store.md R204, R211-R219; 06, R139; 12, R297). -/

namespace Sys2Proof.Machine

/-! ### What the operations of family 0x8 compute -/

theorem attrBytes_length (K : Key) : (attrBytes K).length = 64 := by
  unfold attrBytes
  simp only [List.length_append, le_length, List.length_singleton, zeros_length]

theorem gcmSeal_length (key nonce aad m : Bytes) : (gcmSeal key nonce aad m).length = m.length + 16 := by
  unfold gcmSeal
  rw [List.length_append]
  exact congrArg₂ (· + ·) (underStream_length _ _ _ _ _) (prim_length _ _ _)

theorem pubOf_length {alg : Nat} (h30 : alg / 0x100 ≠ 0x30) (h59 : alg / 0x100 ≠ 0x59) (sk : Bytes) : (pubOf alg sk).length = pkLen alg := by
  unfold pubOf
  rw [if_neg h30, if_neg h59, prim_length]

theorem makeEnvelope_length (handle : Nat) (pub payload rnd : Bytes) :
    (makeEnvelope handle pub payload rnd).length = 1136 + payload.length + 16 := by
  unfold makeEnvelope
  dsimp only
  rw [List.length_append, gcmSeal_length]
  simp only [List.length_append, le_length, zeros_length, List.length_take, prim_length]
  rw [pubOf_length (by decide) (by decide), show pkLen 0x5701 = 32 from rfl]
  omega

theorem Job.newKey_some {J : Job} {i k : Nat} (h : J.newIdx[i]? = some k) (K : Key) : J.newKey i K = [(k, K)] := by
  unfold Job.newKey
  rw [h]

theorem templateKey_given (T : Template) (m pub : Bytes) : (templateKey T m pub false).flags = T.flags :=
  BitVec.or_zero

section
variable {s : State} {j : Nat} {J : Job}

theorem computes_generateKey_secret (h : s.running j J 0x8000) (hkind : (parseTemplate J.auxIn).kind = 1) :
    let T := parseTemplate J.auxIn
    Computes (.generateKey j) j s fun o n => n = T.len ∧ o.status = St.ok ∧ o.output = [] ∧ o.result = s.newHandle J 0 ∧
      ∀ k, J.newIdx[0]? = some k → ∃ K, o.keys = [(k, K)] ∧ K.alg = T.alg ∧ K.kind = .secret ∧ K.owner = T.owner ∧
        K.flags = T.flags ∧ K.expPol = T.expPol ∧ K.minAl = T.minAl ∧ K.limit = T.limit ∧ K.uses = 0 ∧
        K.usage = BitVec.ofNat 32 T.usage ∧ K.material = drbgBytes s.draws T.len := by
  intro T
  have hx : exec (.generateKey j) s = computeRow 0x80 j (fun s J => s.generateOut J) s := rfl
  have hsecret : templateKind T = .secret := if_pos hkind
  refine computes_of_row hx h rfl ?_
  unfold State.generateOut
  dsimp only
  rw [if_pos hsecret]
  exact ⟨rfl, rfl, rfl, rfl, fun k hk => ⟨_, Job.newKey_some hk _, rfl, hsecret, rfl, templateKey_given T _ _, rfl, rfl, rfl, rfl, rfl, rfl⟩⟩

theorem computes_generateKey_private (h : s.running j J 0x8000) (hkind : (parseTemplate J.auxIn).kind = 2) :
    let T := parseTemplate J.auxIn
    Computes (.generateKey j) j s fun o _ =>
      (o.status = St.ok ∧ o.result = s.newHandle J 0 + o.output.length * 2 ^ 32 ∧ (J.dst = 0 → o.output = []) ∧
        ∀ k, J.newIdx[0]? = some k → ∃ K ∈ o.keys, K.1 = k ∧ K.2.alg = T.alg ∧ K.2.kind = .priv ∧ K.2.owner = T.owner) ∨ o.mchecked := by
  intro T
  have hx : exec (.generateKey j) s = computeRow 0x80 j (fun s J => s.generateOut J) s := rfl
  have hpriv : templateKind T = .priv := by
    unfold templateKind
    rw [if_neg (by rw [show T.kind = 2 from hkind]; decide), if_pos hkind]
  refine computes_of_row hx h rfl ?_
  unfold State.generateOut
  dsimp only
  rw [if_neg (by rw [show templateKind (parseTemplate J.auxIn) = .priv from hpriv]; simp)]
  generalize makePair _ _ _ = P
  cases P.bad
  · rw [if_neg (by simp)]
    refine .inl ⟨rfl, rfl, fun hdst => if_pos hdst, fun k hk => ⟨(k, templateKey (parseTemplate J.auxIn) P.sk P.pk false), List.mem_append_left _ ?_, rfl, rfl, hpriv, rfl⟩⟩
    rw [Job.newKey_some hk]
    exact List.mem_singleton.2 rfl
  · rw [if_pos rfl]
    exact .inr ⟨⟨rfl, rfl, rfl, rfl, rfl, rfl, rfl⟩, rfl⟩

/-- What an import makes of a record and its material. -/
theorem State.importOut_cases (s : State) (J : Job) (T : Template) (m : Bytes) : (s.importOut J T m).output = [] ∧
    (((s.importOut J T m).status = St.ok ∧ (s.importOut J T m).result = s.newHandle J 0 ∧ ∀ k, J.newIdx[0]? = some k →
        ∃ K, (s.importOut J T m).keys = [(k, K)] ∧ K.flags.getLsbD 5 = true ∧ K.uses = 0 ∧ (stateful K.alg && K.kind == .priv) = false) ∨
      ((s.importOut J T m).keys = [] ∧ ((s.importOut J T m).status = St.tagFail ∨ (s.importOut J T m).status = St.policyDeny ∨
        (s.importOut J T m).status = St.malformed ∨ (s.importOut J T m).status = St.keyInvalid ∨ (s.importOut J T m).status = St.ctxFull))) := by
  unfold State.importOut
  split
  · exact ⟨rfl, .inr ⟨rfl, .inr (.inl rfl)⟩⟩
  next hstateful =>
    split
    · exact ⟨rfl, .inr ⟨rfl, .inr (.inr (.inl rfl))⟩⟩
    split
    · exact ⟨rfl, .inr ⟨rfl, .inr (.inr (.inr (.inl rfl)))⟩⟩
    split
    · exact ⟨rfl, .inr ⟨rfl, .inr (.inr (.inr (.inr rfl)))⟩⟩
    · refine ⟨rfl, .inl ⟨rfl, rfl, fun k hk => ⟨_, Job.newKey_some hk _, ?_, rfl, ?_⟩⟩⟩
      · simp [templateKey]
      · simpa [templateKey] using hstateful

theorem computes_importKey (h : s.running j J 0x8100) : Computes (.importKey j) j s fun o n => n = 0 ∧ o.output = [] ∧
    ((o.status = St.ok ∧ o.result = s.newHandle J 0 ∧ ∀ k, J.newIdx[0]? = some k → ∃ K, o.keys = [(k, K)] ∧
        K.flags.getLsbD 5 = true ∧ K.uses = 0 ∧ (stateful K.alg && K.kind == .priv) = false) ∨
     (o.keys = [] ∧ (o.status = St.tagFail ∨ o.status = St.policyDeny ∨ o.status = St.malformed ∨ o.status = St.keyInvalid ∨
        o.status = St.ctxFull))) := by
  have hx : exec (.importKey j) s = execImportKey j s := rfl
  unfold execImportKey at hx
  refine computes_of_row hx h rfl ?_
  dsimp only
  split
  · exact ⟨rfl, rfl, .inr ⟨rfl, .inl rfl⟩⟩
  · exact ⟨rfl, s.importOut_cases J _ _⟩

theorem computes_exportWrapped {i : Nat} {K : Key} (h : s.running j J 0x8200) (hpin : J.pin = some i) (hK : s.key? i = some K) :
    Computes (.exportWrapped j) j s fun o n => o.status = St.ok ∧ o.keys = [] ∧ o.result = o.output.length ∧
      (bitsOf J.param.toNat 35 32 = 3 → n = 0 ∧ o.output = K.material) ∧
      (bitsOf J.param.toNat 35 32 = 1 → n = 0 ∧ o.output.length = 8 * ((64 + K.material.length + 7) / 8) + 8) ∧
      (bitsOf J.param.toNat 35 32 = 2 → n = 64 ∧ o.output.length = 1136 + 64 + K.material.length + 16) := by
  have hx : exec (.exportWrapped j) s = execExportWrapped j s := rfl
  unfold execExportWrapped at hx
  have hpayload : (exportRecord K ++ K.material).length = 64 + K.material.length := by
    rw [List.length_append]
    exact congrArg (· + K.material.length) (attrBytes_length _)
  refine computes_of_row hx h rfl ?_
  rw [hpin, Option.bind_some, hK]
  dsimp only
  unfold Job.pfield
  refine ⟨rfl, rfl, rfl, fun hf => ?_, fun hf => ?_, fun hf => ?_⟩ <;> rw [hf]
  · exact ⟨rfl, rfl⟩
  · exact ⟨rfl, (wrapBytes_length _ _ _).trans (by rw [hpayload])⟩
  · exact ⟨rfl, (makeEnvelope_length _ _ _ _).trans (by rw [hpayload]; omega)⟩

theorem computes_destroyKey (h : s.running j J 0x8300) : Computes (.destroyKey j) j s fun o n => n = 0 ∧ o.withheld ∧ o.status = St.ok := by
  have hx : exec (.destroyKey j) s = execDestroyKey j s := rfl
  unfold execDestroyKey at hx
  exact computes_of_row hx h rfl ⟨rfl, ⟨rfl, rfl, rfl, rfl, rfl, rfl, rfl⟩, rfl⟩

theorem computes_getAttributes {K : Key} (h : s.running j J 0x8400) (hK : s.jobKey J = some K) :
    Computes (.getAttributes j) j s fun o n => n = 0 ∧ o.status = St.ok ∧ o.keys = [] ∧ o.result = o.output.length ∧
      o.output.take 64 = attrBytes K ∧ (attrBytes K).length = 64 ∧ o.output.drop 64 = (if K.kind = .pub then K.material else []) := by
  have hx : exec (.getAttributes j) s = execGetAttributes j s := rfl
  unfold execGetAttributes at hx
  refine computes_of_row hx h rfl ?_
  rw [hK]
  exact ⟨rfl, rfl, rfl, rfl, List.take_left' (attrBytes_length K), attrBytes_length K, List.drop_left' (attrBytes_length K)⟩

theorem computes_getImportKey (h : s.running j J 0x8500) : Computes (.getImportKey j) j s fun o n =>
    n = 128 ∧ o.status = St.ok ∧ o.output.length = 1184 + 32 + 4 + 4627 ∧ o.result = s.newHandle J 0 ∧
      ∀ k, J.newIdx[0]? = some k → ∃ K, o.keys = [(k, K)] ∧ K.alg = 0x8101 ∧ K.kind = .priv ∧ K.owner = J.fn := by
  have hx : exec (.getImportKey j) s = execGetImportKey j s := rfl
  unfold execGetImportKey at hx
  refine computes_of_row hx h rfl ⟨rfl, rfl, ?_, rfl, fun k hk => ⟨_, Job.newKey_some hk _, rfl, rfl, rfl⟩⟩
  dsimp only
  have hsign (ctx msg : Bytes) (d : Nat) : (s.aliasSign ctx msg d).length = 4627 := prim_length _ _ _
  rw [List.length_append, List.length_append, List.length_append, le_length, hsign, pubOf_length (by decide) (by decide),
    pubOf_length (by decide) (by decide)]
  rfl

end

end Sys2Proof.Machine
end

section
/-! PROOF. The scrub of a destroyed key, the cache partitions, and the preparation of the next tree
(09_key_store.md R211, R219; 06, R139; 12, R297). -/

namespace Sys2Proof.Machine

/-! ### What the end of a job without a durable commit leaves of the keys -/

theorem State.treeEnds_keys {s t : State} (h : t.keys = s.keys) (J : Job) : (t.treeEnds J).keys = (s.treeEnds J).keys := by
  unfold State.treeEnds
  split
  · exact h
  · dsimp only [State.modKey]
    rw [h]

theorem State.endJob_treeKeys {s : State} {j : Nat} {J : Job} (hJ : s.job? j = some J) (hlive : ¬ (J.phase = .ended ∨ J.phase = .delayed))
    (hdur : J.durable = false) (status result : Nat) (ret : Bytes) : (s.endJob j status result ret).keys = (s.treeEnds J).keys := by
  unfold State.endJob
  simp only [hJ]
  rw [if_neg hlive]
  have hsettle (u : State) : (eachOf J.tilesOf State.settleTile u).keys = u.keys := eachOf_keeps State.keys _ State.settleTile (fun _ _ => rfl) u
  have hcores (u : State) : (u.scrubCores J).keys = u.keys :=
    eachOf_keeps State.keys _ (fun u c => u.modCore c fun C => { C with v := [], x := [] }) (fun _ _ => rfl) u
  have hlog (u : State) (r : Nat) : (u.logUnreserve r j).keys = u.keys := (congrArg State.keys (u.logUnreserve_reports r j).eq :)
  rw [hsettle]
  generalize hv : (if J.released = 0 ∨ s.silenced J = true then _ else _ : State) = v
  have hvkeys : v.keys = s.keys := by
    rw [← hv]
    split
    · rfl
    · exact State.zeroFill_keeps State.keys (fun _ _ => rfl) (fun _ _ => rfl) (fun _ _ _ => rfl) _ _ _ _
  have htree : ((((v.freeSlots j).passCommit j J).scrubCores J).treeEnds J).keys = (s.treeEnds J).keys := by
    refine State.treeEnds_keys ?_ J
    rw [hcores, State.passCommit_of_not_durable _ _ hdur]
    exact hvkeys
  generalize (((v.freeSlots j).passCommit j J).scrubCores J).treeEnds J = x at htree
  split
  · exact htree
  · split
    · exact htree
    · exact (hlog _ _).trans htree

/-! ### The scrub of a destroyed key (R219) -/

section
variable {s : State} {j now : Nat} {J : Job}

theorem exec_destroyScrub {K : Key} (hJ : s.job? j = some J) (hop : J.opcode = 0x8300) (hout : J.out.isSome) (hpinned : s.pinned (handleIdx J.handle) = false)
    (hphase : J.phase = .placed) (hK : s.key? (handleIdx J.handle) = some K) (hpers : K.persistent = false) :
    exec (.destroyScrub j now) s = done s (((s.at_ now).dropKey (handleIdx J.handle)).endJob j St.ok 0) := by
  have hx : exec (.destroyScrub j now) s = execDestroyScrub j now s := rfl
  unfold execDestroyScrub at hx
  dsimp only at hx
  rw [show (s.at_ now).job? j = some J from hJ] at hx
  dsimp only at hx
  rw [show (s.at_ now).pinned (handleIdx J.handle) = false from hpinned, if_neg (by
      rw [hop, hphase]
      simp [Option.isNone_eq_false_iff.2 hout]),
    show (s.at_ now).key? (handleIdx J.handle) = some K from hK] at hx
  dsimp only at hx
  rw [hpers] at hx
  exact hx

theorem State.dropKey_eq (s : State) (i : Nat) : ∃ p S G T, s.dropKey i = { s with
    pmem := p, tiles := T,
    keys := { s.keys with live := tdel s.keys.live i, cache := tdel s.keys.cache i, counters := tdel s.keys.counters i, slots := S, slotGen := G } } := by
  unfold State.dropKey
  split <;> exact ⟨_, _, _, _, rfl⟩

theorem completes_destroyScrub {K : Key} (hJ : s.job? j = some J) (hop : J.opcode = 0x8300) (hout : J.out.isSome)
    (hpinned : s.pinned (handleIdx J.handle) = false) (hphase : J.phase = .placed) (hrel : J.released = 0) (hcommit : J.commit = .none)
    (htree : (J.out.bind (·.tree)) = none) (hK : s.key? (handleIdx J.handle) = some K) (hpers : K.persistent = false) :
    Completes (.destroyScrub j now) s fun t => Answered t j St.ok 0 ∧ t.key? (handleIdx J.handle) = none ∧
        tget t.keys.cache (handleIdx J.handle) = none ∧ tget t.keys.counters (handleIdx J.handle) = none ∧ t.hostMem = s.hostMem ∧
        ∀ i, i ≠ handleIdx J.handle → t.key? i = s.key? i := by
  have hx := exec_destroyScrub (now := now) hJ hop hout hpinned hphase hK hpers
  obtain ⟨p, S, G, T, hv⟩ := (s.at_ now).dropKey_eq (handleIdx J.handle)
  generalize (s.at_ now).dropKey (handleIdx J.handle) = v at hx hv
  have hvJ : v.job? j = some J := by rw [hv]; exact hJ
  have hlive : ¬ (J.phase = .ended ∨ J.phase = .delayed) := by simp [hphase]
  obtain ⟨hans, hends, -, hhost, -⟩ := State.endJob_answers hvJ hlive hrel St.ok 0 []
  have hdur : J.durable = false := by
    unfold Job.durable
    rw [hcommit]
    rfl
  have hkeys : (v.endJob j St.ok 0).keys = v.keys := by
    rw [State.endJob_treeKeys hvJ hlive hdur]
    unfold State.treeEnds
    rw [htree]
  generalize v.endJob j St.ok 0 = t at hx hans hends hhost hkeys
  have hlive' (i : Nat) : t.key? i = if i = handleIdx J.handle then none else s.key? i := by
    unfold State.key?
    rw [hkeys, hv]
    exact tget_tdel _ _ _
  refine .of_done hx ((congrArg State.pending hends.steady :).trans (by rw [hv]; rfl)) ⟨hans, (hlive' _).trans (if_pos rfl), ?_, ?_, ?_,
    fun i hi => (hlive' i).trans (if_neg hi)⟩
  · rw [hkeys, hv]
    exact (tget_tdel _ _ _).trans (if_pos rfl)
  · rw [hkeys, hv]
    exact (tget_tdel _ _ _).trans (if_pos rfl)
  · rw [hhost, hv]
    rfl

/-! ### Partitions and the overflow region (R211, R297) -/

theorem bitsOf_partition {base slots : Nat} (hbase : base < 32768) (hslots : slots < 65536) :
    bitsOf (BitVec.ofNat 32 (base + 2 ^ 16 * slots)).toNat 14 0 = base ∧ bitsOf (BitVec.ofNat 32 (base + 2 ^ 16 * slots)).toNat 31 16 = slots := by
  have hnat : (BitVec.ofNat 32 (base + 2 ^ 16 * slots)).toNat = base + 65536 * slots := by
    rw [BitVec.toNat_ofNat]
    omega
  rw [hnat]
  unfold bitsOf
  rw [Nat.shiftRight_eq_div_pow, Nat.shiftRight_eq_div_pow]
  constructor <;> norm_num <;> omega

theorem bitsOf_overflow {m n : Nat} (hm : m < 4096) (hn : n < 65536) :
    bitsOf (BitVec.ofNat 32 (m + 4096 * n)).toNat 11 0 = m ∧ bitsOf (BitVec.ofNat 32 (m + 4096 * n)).toNat 27 12 = n := by
  have hnat : (BitVec.ofNat 32 (m + 4096 * n)).toNat = m + 4096 * n := by
    rw [BitVec.toNat_ofNat]
    omega
  rw [hnat]
  unfold bitsOf
  rw [Nat.shiftRight_eq_div_pow, Nat.shiftRight_eq_div_pow]
  constructor <;> norm_num <;> omega

/-- The part of a function and another's do not meet, or the partition ends past the last slot. -/
def State.partitionClash (s : State) (f base slots : Nat) : Prop :=
  32768 < base + slots ∨ ∃ g < 0x102, g ≠ f ∧ 0 < slots ∧ 0 < (s.partWritten g).2 ∧ base < (s.partWritten g).1 + (s.partWritten g).2 ∧
    (s.partWritten g).1 < base + slots

theorem exec_keyCacheQuotaWrite {f base slots : Nat} (hf : f ≤ 0x101) (hbar : s.barOn 0 = true) (hbase : base < 32768) (hslots : slots < 65536) :
    (s.partitionClash f base slots → exec (.keyCacheQuotaWrite f (BitVec.ofNat 32 (base + 2 ^ 16 * slots))) s =
      .next { s with keys := { s.keys with quotaErr := true } }) ∧
    (¬ s.partitionClash f base slots → exec (.keyCacheQuotaWrite f (BitVec.ofNat 32 (base + 2 ^ 16 * slots))) s =
      .next { s with keys := { s.keys with partNext := tput s.keys.partNext f (base, slots) } }) := by
  have hx (v : BitVec 32) : exec (.keyCacheQuotaWrite f v) s = done s (s.writePartition f v) := by
    have hx : exec (.keyCacheQuotaWrite f v) s = within (decide (f ≤ 0x101)) s (managed s (s.writePartition f v)) := rfl
    rw [hx, within_ok (decide_eq_true hf)]
    exact congrArg (done s) (if_pos hbar)
  obtain ⟨hb, hs⟩ := bitsOf_partition hbase hslots
  have hclash : (32768 < base + slots ∨ ((List.range 0x102).any fun g => g != f && slotsMeet (base, slots) (s.partWritten g)) = true) ↔
      s.partitionClash f base slots := by
    unfold State.partitionClash slotsMeet
    simp only [List.any_eq_true, List.mem_range, Bool.and_eq_true, bne_iff_ne, decide_eq_true_eq]
  refine ⟨fun h => ?_, fun h => ?_⟩ <;> rw [hx] <;> unfold State.writePartition <;> dsimp only <;> rw [hb, hs]
  · exact congrArg (done s) (if_pos (hclash.2 h))
  · exact congrArg (done s) (if_neg (mt hclash.1 h))

theorem exec_overflowCfgWrite {m n : Nat} (hbar : s.barOn 0 = true) (hm : m < 4096) (hn : n < 65536) :
    (2 ≤ m → 64 ≤ n → exec (.overflowCfgWrite (BitVec.ofNat 32 (m + 4096 * n))) s = .next (s.setReg 0x30038 (m + n * 4096))) ∧
    (m < 2 ∨ n < 64 → exec (.overflowCfgWrite (BitVec.ofNat 32 (m + 4096 * n))) s = .next s) := by
  have hx (v : BitVec 32) : exec (.overflowCfgWrite v) s = done s (s.writeOverflow v) := by
    have hx : exec (.overflowCfgWrite v) s = done s (managed s (s.writeOverflow v)) := rfl
    rw [hx]
    exact congrArg (done s) (if_pos hbar)
  obtain ⟨h1, h2⟩ := bitsOf_overflow hm hn
  refine ⟨fun hm2 hn64 => ?_, fun h => ?_⟩ <;> rw [hx] <;> unfold State.writeOverflow <;> dsimp only <;> rw [h1, h2]
  · exact congrArg (done s) (if_pos ⟨hm2, hn64⟩)
  · exact congrArg (done s) (if_neg (by omega))

/-! ### The preparation of the next tree (06, R139) -/

section
variable {i : Nat} {K : Key} {H : Hbs} (hK : s.key? i = some K) (hH : K.hbs = some H)
include hK hH

theorem exec_hbsPreparation_idle (hprep : H.preparing = false) : exec (.hbsPreparation i now) s = .next (s.at_ now) := by
  have hx : exec (.hbsPreparation i now) s = execHbsPreparation i now s := rfl
  unfold execHbsPreparation at hx
  dsimp only at hx
  rw [show (s.at_ now).key? i = some K from hK] at hx
  dsimp only at hx
  rw [hH] at hx
  exact hx.trans (congrArg (done s) (if_pos (.inl (by simp [hprep]))))

/-- The job that prepares the next tree, before it is accepted. -/
def State.prepJob (s : State) (i : Nat) (K : Key) (H : Hbs) : Job :=
  { src := .internal, fn := K.owner, opcode := K.alg, cls := 7, seq := s.nextSeq, phase := .staged,
    quadrant := some (s.prepDemand K H).quad, commit := .needed, out := some { tree := some i } }

theorem completes_hbsPreparation {steps : List JobStep} (hprep : H.preparing = true) (hnone : s.prepares i = false)
    (hoff : s.faults.safe.on = false) (hchart : s.chartStops = false) (hquiesce : (s.fn K.owner).quiesce = none) (hflr : (s.fn K.owner).flr = false)
    (hplan : (s.at_ now).placePlan ((s.at_ now).prepDemand K H) 0 = some steps) : Completes (.hbsPreparation i now) s fun t =>
        (∃ W, t.job? s.nextSeq = some W ∧ W.src = .internal ∧ W.fn = K.owner ∧ W.cls = 7 ∧ W.phase = .placed ∧ W.deadline = none ∧
          W.commit = .needed ∧ W.steps = steps ∧ W.out = some { tree := some i }) ∧
        t = { s with time := s.time.to now, jobs := t.jobs, regs := t.regs, nextSeq := s.nextSeq + 1, acceptSeq := s.acceptSeq + 1 } := by
  have hx : exec (.hbsPreparation i now) s = execHbsPreparation i now s := rfl
  unfold execHbsPreparation at hx
  dsimp only at hx
  rw [show (s.at_ now).key? i = some K from hK] at hx
  dsimp only at hx
  rw [hH] at hx
  dsimp only at hx
  rw [show (s.at_ now).prepares i = false from hnone, show (s.at_ now).chartStops = false from hchart,
    show ((s.at_ now).fn K.owner) = s.fn K.owner from rfl, show (s.at_ now).faults.safe.on = false from hoff, hquiesce, hflr, hprep,
    if_neg (by simp)] at hx
  unfold State.startPrepJob at hx
  dsimp only at hx
  rw [hplan] at hx
  dsimp only at hx
  generalize hv : ({ s.at_ now with jobs := tput (s.at_ now).jobs (s.at_ now).nextSeq _, nextSeq := (s.at_ now).nextSeq + 1 } : State) = v at hx
  have hvJ : v.job? s.nextSeq = some ((s.at_ now).prepJob i K H) := by
    rw [← hv]
    exact tget_tput_same _ _ _
  refine .of_done hx (by rw [← hv]; rfl) ⟨⟨_, State.modJob_job_some (s := v) hvJ (v.granted steps [] 7 0 false), rfl, rfl, rfl, rfl, rfl, rfl, rfl, rfl⟩, ?_⟩
  rw [← hv]
  rfl

omit hK hH in
/-- The signed roots of a tree change the signer's cached strings alone. -/
theorem Hbs.signRoots_keeps (H : Hbs) (b d : Nat) : ∃ cs, (H.signRoots b d).1 = { H with cs := cs } := by
  unfold Hbs.signRoots
  generalize rootLeaves H.types b = l
  suffices hinv : ∀ acc : Hbs × Nat, (∃ cs, acc.1 = { H with cs := cs }) → ∃ cs, (l.foldl _ acc).1 = { H with cs := cs } from
    hinv (H, 0) ⟨H.cs, rfl⟩
  induction l with
  | nil => exact fun _ h => h
  | cons x l ih =>
    intro acc hacc
    refine ih _ ?_
    dsimp only
    split
    · exact hacc
    · obtain ⟨cs, hcs⟩ := hacc
      rw [hcs]
      exact ⟨_, rfl⟩

/-- The leaves that a tree which is ready makes usable. -/
def Hbs.readied (H : Hbs) : Nat := min (H.skip H.ready + max H.perTree 1) H.limit

theorem State.treeReady_spec : ∃ p d K' H', s.treeReady i = { s with keys := (s.treeReady i).keys, pmem := p, draws := d } ∧
    (s.treeReady i).key? i = some K' ∧ K'.hbs = some H' ∧ K'.material = K.material ∧ H'.preparing = false ∧ H'.ready = H.readied ∧
    H'.next = H.next ∧ H'.reserved = H.reserved := by
  have hbind : (s.key? i).bind (·.hbs) = some H := by
    rw [hK]
    exact hH
  obtain ⟨cs, hcs⟩ := H.signRoots_keeps H.nextTree s.draws
  unfold State.treeReady
  rw [hbind]
  dsimp only
  rw [hcs]
  refine ⟨_, _, { K with hbs := _ }, { H with cs := cs, preparing := false, ready := H.readied }, rfl, ?_, rfl, rfl, rfl, rfl, rfl, rfl⟩
  change (State.modKey s i _).key? i = _
  rw [State.modKey_key, if_pos rfl, hK]
  rfl

/-- The end of a preparation leaves its tree ready. -/
theorem State.treeEnds_key (hout : (J.out.bind (·.tree)) = some i) : ∃ H', (s.treeEnds J).key? i = some { K with hbs := some H' } ∧
    H'.preparing = false ∧ H'.ready = H.ready ∧ H'.next = H.next ∧ H'.reserved = H.reserved := by
  unfold State.treeEnds
  rw [hout]
  dsimp only
  rw [State.modKey_key, if_pos rfl, hK, Option.map_some, hH]
  exact ⟨_, rfl, rfl, rfl, rfl, rfl⟩

omit hK hH in
theorem State.keyLogged_of_stateful (s : State) (hfam : famOf J.opcode = 3) (o : JobOut) : s.keyLogged J o = s := by
  have hop {n : Nat} (hn : famOf n ≠ 3) : J.opcode ≠ n := fun h => hn (h ▸ hfam)
  exact if_neg (by
    rintro (h | h | h)
    · exact hop (by decide) h
    · exact hop (by decide) h
    · exact hop (by decide) h)

theorem completes_runEnd_tree {st : JobStep} {r : Run} (mismatch : Bool) (hJ : s.job? j = some J) (hsrc : J.src = .internal)
    (hphase : J.phase = .placed) (hsteps : J.steps = [st]) (hruns : st.runs = [r]) (hr : r.mode = .running)
    (hout : J.out = some { tree := some i }) (hend : J.atEnd = false) (hwindowed : J.windowed = false) (hreq : J.request = .none)
    (hcommit : J.commit = .acked) (hrel : J.released = 0) (hal2 : J.al2 = false) (hfam : famOf J.opcode = 3) (hgate : s.gateOf J = none) :
    Completes (.runEnd j mismatch now) s fun t =>
        t.job? j = none ∧ ∃ K' H', t.key? i = some K' ∧ K'.hbs = some H' ∧ K'.material = K.material ∧ H'.preparing = false ∧
          H'.ready = H.readied ∧ H'.next = H.next ∧ H'.reserved = H.reserved := by
  have hrun : J.isRunning = true := by
    unfold Job.isRunning
    rw [hsteps]
    simp [hruns, hr]
  have hop {n : Nat} (hn : famOf n ≠ 3) : J.opcode ≠ n := fun h => hn (h ▸ hfam)
  have hdur : J.durable = false := Job.durable_of_commit (by simp [hcommit])
  have hx := exec_runEnd (now := now) (mismatch := mismatch) hJ hphase hend hrun (hop (by decide)) (by simp [hfam]) hwindowed hreq
  rw [State.runEnd_last (k := 0) (one := { st with runs := [r] }) (r := r) (s.at_ now) mismatch hsteps (by simp [hruns, hr]) hout hdur
    (by simp [hruns, hr, stepsFrom]) rfl (by simp [hruns, hr]) (by simp [hal2]), if_neg (by simp [hal2])] at hx
  obtain ⟨heq, hvJ⟩ := (s.at_ now).runDone_spec hJ 0 r.server
  generalize (s.at_ now).runDone j 0 r.server = v at hx heq hvJ
  have hvrest : v.gateOf J = none ∧ v.key? i = some K ∧ v.pending = s.pending := by
    rw [heq]
    exact ⟨hgate, hK, rfl⟩
  obtain ⟨hvgate, hvK, hvpend⟩ := hvrest
  obtain ⟨o, ho⟩ := v.hostWrite_eq (J.dst + 0) []
  have hw : (v.hostWrite (J.dst + 0) []).job? j = v.job? j ∧ (v.hostWrite (J.dst + 0) []).key? i = v.key? i ∧
      (v.hostWrite (J.dst + 0) []).pending = v.pending := by
    rw [ho]
    exact ⟨rfl, rfl, rfl⟩
  have hmem : v.memOf J = none := by
    unfold State.memOf
    rw [hsrc]
  have hfinish : v.finish j J =
      (((((v.hostWrite (J.dst + 0) []).treeReady i).modJob j fun J => { J with released := 0, newIdx := [] }).endJob j St.ok 0).modJob j
        fun J => { J with al2Done := J.al2 }).dropJob j := by
    unfold State.finish
    rw [hout]
    dsimp only
    rw [if_pos (show 0 = St.ok from rfl)]
    unfold State.release
    rw [hvgate]
    dsimp only
    rw [hrel, hmem]
    rw [show List.drop 0 ([] : Bytes) = [] from rfl,
      show (if ([] : Bytes).isEmpty = true then none else v.wrFault none (J.dst + 0) ([] : Bytes).length) = none from if_pos rfl]
    dsimp only
    rw [State.keyLogged_of_stateful _ hfam]
    exact if_pos (.inl rfl)
  rw [hfinish] at hx
  generalize v.hostWrite (J.dst + 0) [] = w at hx hw
  obtain ⟨hwJ, hwK, hwpend⟩ := hw
  obtain ⟨p, d, K1, H1, htree, hK1, hH1, hmat1, -, hready1, hnext1, hres1⟩ := State.treeReady_spec (s := w) (hwK.trans hvK) hH
  have hxJ : (w.treeReady i).job? j = v.job? j := by
    rw [htree]
    exact hwJ
  have hxpend : (w.treeReady i).pending = s.pending := by
    rw [htree]
    exact hwpend.trans hvpend
  generalize w.treeReady i = x at hx hxJ hxpend hK1
  have hyJ := State.modJob_job_some (hxJ.trans hvJ) fun J => { J with released := 0, newIdx := [] }
  have hyK : (x.modJob j fun J => { J with released := 0, newIdx := [] }).key? i = some K1 := hK1
  have hypend : (x.modJob j fun J => { J with released := 0, newIdx := [] }).pending = s.pending := hxpend
  generalize (x.modJob j fun J => { J with released := 0, newIdx := [] }) = y at hx hyJ hyK hypend
  have hkeys := State.endJob_treeKeys hyJ (by simp [hphase]) hdur St.ok 0 []
  obtain ⟨H2, hK2, hprep2, hready2, hnext2, hres2⟩ := State.treeEnds_key (s := y) (J := { J with
    steps := endRunAt J.steps 0 0, released := 0, newIdx := [] }) hyK hH1 (by rw [show _ = J.out from rfl, hout]; rfl)
  have hzpend : (y.endJob j St.ok 0).pending = s.pending := (congrArg State.pending (y.endJob_steady j St.ok 0 []) :).trans hypend
  generalize y.endJob j St.ok 0 = z at hx hkeys hzpend
  refine .of_done hx hzpend ⟨(tget_tdel _ j j).trans (if_pos rfl), { K1 with hbs := some H2 }, H2, ?_, rfl, hmat1, hprep2,
    hready2.trans hready1, hnext2.trans hnext1, hres2.trans hres1⟩
  change tget z.keys.live i = _
  rw [hkeys]
  exact hK2

end

end

/-- Settles O37: the results of family 0x8, the scrub, the two registers and the preparation. -/
theorem keyCommandsCreateExportAndDestroy : Obligations.KeyCommandsCreateExportAndDestroy := by
  unfold Obligations.KeyCommandsCreateExportAndDestroy
  refine ⟨fun s j J => ⟨fun h hkind => computes_generateKey_secret h hkind, fun h hkind => computes_generateKey_private h hkind,
      fun h => computes_importKey h, fun i K h hpin hK => computes_exportWrapped h hpin hK, fun h => computes_destroyKey h,
      fun K h hK => computes_getAttributes h hK, fun h => computes_getImportKey h,
      fun now K hJ hop hout hpinned hphase hrel _ hcommit htree hK hpers =>
        completes_destroyScrub hJ hop hout hpinned hphase hrel hcommit htree hK hpers⟩,
    fun s f base slots hf hbar hbase hslots => exec_keyCacheQuotaWrite hf hbar hbase hslots,
    fun s m n hbar hm hn => exec_overflowCfgWrite hbar hm hn, fun s i now K H hK hH => ⟨fun hprep => exec_hbsPreparation_idle hK hH hprep,
      fun steps hprep hnone hoff hchart hquiesce hflr hplan => completes_hbsPreparation hK hH hprep hnone hoff hchart hquiesce hflr hplan,
      fun j J st r mismatch hJ hsrc hphase hsteps hruns hr _ hout hend hwindowed hreq hcommit hrel hal2 hop hfam hgate =>
        completes_runEnd_tree hK hH mismatch hJ hsrc hphase hsteps hruns hr hout hend hwindowed hreq hcommit hrel hal2 (hop ▸ hfam) hgate⟩⟩

end Sys2Proof.Machine
end

section
/-! PROOF. Commands of families 0x9 and 0xA in their turn, and the answers of the authority service
(13_authority_service.md R306, R313, R314, R320). -/

namespace Sys2Proof.Machine

/-! ### A service command in its turn -/

section
variable {s : State} {j : Nat} {J : Job} {op : Nat} (hturn : ServiceTurn s j J op)
include hturn

theorem serviceRow_turn (f : State → Job → State) : serviceRow op j f s = done s (f s J) := by
  obtain ⟨hJ, hop, hphase, hfence, hoff, -, -⟩ := hturn
  unfold serviceRow
  rw [hJ]
  exact congrArg (done s) (if_neg (by simp [hop, hphase, hfence, hoff]))

theorem stepRow_turn (hchart : s.chartStops = false) (f : State → Job → State) : stepRow op j f s = done s (f s J) := by
  unfold stepRow
  rw [serviceRow_turn hturn]
  exact congrArg (done s) (if_neg (by simp [hchart]))

theorem stepRow_stopped (hchart : s.chartStops = true) (f : State → Job → State) : stepRow op j f s = .next s := by
  unfold stepRow
  rw [serviceRow_turn hturn]
  exact congrArg (done s) (if_pos hchart)

theorem workRow_turn (f g : State → Job → State) : workRow op j f g s = stepRow op j f s := by
  obtain ⟨hJ, -, hphase, -⟩ := hturn
  unfold workRow
  rw [hJ]
  exact if_neg (by simp [hphase])

/-- What a command in its turn meets does not depend on the time. -/
theorem serviceTurn_at (now : Nat) : ServiceTurn (s.at_ now) j J op := hturn

end

theorem done_at (s t : State) (now : Nat) : done (s.at_ now) t = done s t := rfl

/-! ### The answer of a job -/

/-- What neither an end nor a report nor a block for the host changes: all but the job and its host memory. -/
structure Ended (j : Nat) (status result : Nat) (ret : Bytes) (s t : State) : Prop where
  job : ∃ K, t.job? j = some K ∧ K.phase = .ended ∧ K.status = status ∧ K.result = result ∧ K.ret = ret ∧ K.out = none
  ends : Ends (· = j) s t
  hostMem : t.hostMem = s.hostMem

theorem State.endJob_ended {s : State} {j : Nat} {J : Job} (hJ : s.job? j = some J) (hlive : ¬ (J.phase = .ended ∨ J.phase = .delayed))
    (hrel : J.released = 0) (status result : Nat) (ret : Bytes) : Ended j status result ret s (s.endJob j status result ret) := by
  obtain ⟨⟨K, hK, hphase, hstatus, hresult, hout⟩, hends, -, hhost, -⟩ := State.endJob_answers hJ hlive hrel status result ret
  obtain ⟨L, hL, hret⟩ := State.endJob_ret hJ hlive hrel status result ret
  cases hK.symm.trans hL
  exact ⟨⟨K, hK, hphase, hstatus, hresult, hret, hout⟩, hends, hhost⟩

namespace Ended
variable {j status result : Nat} {ret : Bytes} {s t : State} (h : Ended j status result ret s t)
include h

theorem answered : Answered t j status result := by
  obtain ⟨K, hK, hphase, hstatus, hresult, -, hout⟩ := h.job
  exact ⟨K, hK, hphase, hstatus, hresult, hout⟩

theorem auth : t.auth = s.auth := (congrArg State.auth h.ends.steady :)
theorem pins : t.pins = s.pins := (congrArg State.pins h.ends.steady :)
theorem time : t.time = s.time := (congrArg State.time h.ends.steady :)
theorem pending : t.pending = s.pending := (congrArg State.pending h.ends.steady :)

end Ended

/-- Job `j` can be answered: it runs, has released nothing, and its block can be written at DST. -/
structure Addressed (s : State) (j : Nat) (J : Job) (n : Nat) : Prop where
  job : s.job? j = some J
  live : ¬ (J.phase = .ended ∨ J.phase = .delayed)
  released : J.released = 0
  region : s.memOf J = none
  dst : J.dst = 0 ∨ s.writeFault J.dst n = none

theorem Addressed.congr {s t : State} {j : Nat} {J : Job} {n : Nat} (h : Addressed s j J n) (hjobs : t.jobs = s.jobs)
    (hqueues : t.queues = s.queues) (hhost : t.host = s.host) : Addressed t j J n where
  job := (State.job?_congr hjobs j).trans h.job
  live := h.live
  released := h.released
  region := by
    rw [← h.region]
    unfold State.memOf
    cases J.src with
    | ring q => exact congrArg Queue.isModule (State.queue_congr hqueues q)
    | internal => rfl
  dst := by
    unfold State.writeFault
    rw [hhost]
    exact h.dst

theorem Addressed.reports {s t : State} {j : Nat} {J : Job} {n : Nat} (h : Addressed s j J n) (hr : Reports s t) : Addressed t j J n :=
  h.congr hr.jobs (congrArg State.queues hr.eq :) (congrArg State.host hr.eq :)

/-- Job `j` has ended with an answer, the host has the memory `mem`, and nothing of the rest but what reports tell has changed. -/
structure Replied (j : Nat) (status result : Nat) (ret : Bytes) (mem : List Host.Cell) (s t : State) : Prop where
  job : ∃ K, t.job? j = some K ∧ K.phase = .ended ∧ K.status = status ∧ K.result = result ∧ K.ret = ret ∧ K.out = none
  hostMem : t.hostMem = mem
  auth : t.auth = s.auth
  pins : t.pins = s.pins
  time : t.time = s.time
  pending : t.pending = s.pending

namespace Replied
variable {j status result : Nat} {ret : Bytes} {mem : List Host.Cell} {s t : State}

theorem answered (h : Replied j status result ret mem s t) : Answered t j status result := by
  obtain ⟨K, hK, hphase, hstatus, hresult, -, hout⟩ := h.job
  exact ⟨K, hK, hphase, hstatus, hresult, hout⟩

theorem of_ended (h : Ended j status result ret s t) : Replied j status result ret s.hostMem s t :=
  ⟨h.job, h.hostMem, h.auth, h.pins, h.time, h.pending⟩

end Replied

/-- A block at DST, and the answer. -/
theorem Addressed.written {s : State} {j : Nat} {J : Job} {n : Nat} (h : Addressed s j J n) (status result : Nat) (ret block : Bytes) :
    Replied j status result ret (memWriteN s.hostMem J.dst block) s ((s.wr (s.memOf J) J.dst block).endJob j status result ret) ∧
    ∀ k, k ≠ j → (((s.wr (s.memOf J) J.dst block).endJob j status result ret).job? k).map Job.body = (s.job? k).map Job.body := by
  rw [h.region]
  obtain ⟨o, ho⟩ := s.hostWrite_eq J.dst block
  rw [show s.wr none J.dst block = s.hostWrite J.dst block from rfl, ho]
  have hend := State.endJob_ended (s := { s with hostMem := memWriteN s.hostMem J.dst block, cluster := { s.cluster with tetherOut := o } })
    h.job h.live h.released status result ret
  exact ⟨⟨hend.job, hend.hostMem, hend.auth, hend.pins, hend.time, hend.pending⟩, fun k hk => hend.ends.job k hk⟩

/-! ### The receipt of an order and its answer (R313, R314) -/

/-- The host memory once the receipt stands at DST, unless DST is 0. -/
def receiptMem (mem : List Host.Cell) (dst : Nat) (rc : Bytes) : List Host.Cell := if dst = 0 then mem else memWriteN mem dst rc

theorem State.rolled3_reports (s : State) : Reports s s.rolled3 := by
  unfold State.rolled3
  split
  · exact s.roll_reports 3
  · rfl

/-- A decision's record is a report, and its receipt names the AUDIT_SEQ of the record. -/
theorem State.recordOrder_spec (s : State) (type : Nat) (env : Bytes) (reason time rule ver : Nat) :
    ∃ q w, s.recordOrder type env reason time rule ver = (w, q, receiptOf env reason q time rule s.cluster.node ver) ∧ Reports s w :=
  ⟨_, _, rfl, s.rolled3_reports.trans (State.logEvent_reports _ _ _ _)⟩

/-- The answer of an order's job. -/
theorem Addressed.answerOrder {s : State} {j : Nat} {J : Job} (h : Addressed s j J 96) (status reason rule seq : Nat) (rc : Bytes) :
    Replied j status (reason + rule * 2 ^ 16) (le 8 seq) (receiptMem s.hostMem J.dst rc) s
      (s.answerOrder (some j) none status reason rule seq rc) ∧
    ∀ k, k ≠ j → ((s.answerOrder (some j) none status reason rule seq rc).job? k).map Job.body = (s.job? k).map Job.body := by
  have hphase : J.phase ≠ .ended := fun he => h.live (.inl he)
  unfold State.answerOrder
  dsimp only
  rw [h.job]
  dsimp only
  rw [if_neg hphase]
  unfold receiptMem
  by_cases hdst : J.dst = 0
  · rw [if_pos hdst, if_pos hdst]
    have hend := State.endJob_ended h.job h.live h.released status (reason + rule * 2 ^ 16) (le 8 seq)
    exact ⟨.of_ended hend, fun k hk => hend.ends.job k hk⟩
  · have hwr : s.wrFault (s.memOf J) J.dst 96 = none := by
      rw [h.region]
      exact h.dst.resolve_left hdst
    rw [if_neg hdst, if_neg hdst, hwr]
    exact h.written status _ _ rc

/-- An answer gives the statement's view of an answered order. -/
theorem Replied.orderAnswered {s v t : State} {j status reason rule q now ver : Nat} {J : Job} {env : Bytes} {D : Decision}
    (h : Replied j status (reason + rule * 2 ^ 16) (le 8 q)
      (receiptMem s.hostMem J.dst (receiptOf env reason q (s.at_ now).helmTime rule s.cluster.node ver)) v t)
    {rest : List Decision} (hdecisions : v.auth.decisions = D :: rest) (hseq : D.auditSeq = q) (hreason : D.reason = reason)
    (hstate : D.state = if reason = 0 then 3 else 1) : OrderAnswered s t j J env now status reason rule ver := by
  obtain ⟨K, hK, hphase, hstatus, hresult, hret, -⟩ := h.job
  exact ⟨K, q, D, rest, hK, hphase, hstatus, hresult, hret, (congrArg Authority.decisions h.auth).trans hdecisions, hseq, hreason,
    hstate, h.hostMem⟩

/-- What a refusal or an answer leaves of the state `v` that the decision found, the decisions apart. -/
structure DecisionKept (v t : State) : Prop where
  auth : t.auth = { v.auth with decisions := t.auth.decisions }
  pins : t.pins = v.pins
  time : t.time = v.time
  pending : t.pending = v.pending

/-- The decision record of a refusal. -/
def refusalOf (rc : Bytes) (q reason time : Nat) : Decision :=
  { orderId := leAt rc 8 8, auditSeq := q, reason := reason, state := 1, time := time }

/-- A refused order is answered with its reason, and nothing but the decisions changes. -/
theorem Addressed.refuseOrder {s v : State} {j now : Nat} {J : Job} (h : Addressed v j J 96) (hmem : v.hostMem = s.hostMem)
    (hnode : v.cluster.node = s.cluster.node) (env : Bytes) (reason rule ver : Nat) :
    let t := v.refuseOrder (some j) none env reason (s.at_ now).helmTime rule ver
    ((reason ≠ 0 → OrderAnswered s t j J env now (refuseStatus reason) reason rule ver) ∧ DecisionKept v t) ∧
    ∀ k, k ≠ j → (t.job? k).map Job.body = (v.job? k).map Job.body := by
  intro t
  obtain ⟨q, w, hrec, hrep⟩ := v.recordOrder_spec 0x0030 env reason (s.at_ now).helmTime rule ver
  let rc := receiptOf env reason q (s.at_ now).helmTime rule v.cluster.node ver
  have ht : t = (w.addDecision (refusalOf rc q reason (s.at_ now).helmTime)).answerOrder (some j) none (refuseStatus reason) reason rule q rc := by
    unfold t State.refuseOrder
    rw [hrec]
    rfl
  rw [ht]
  obtain ⟨hans, hother⟩ := ((h.reports hrep).congr (t := w.addDecision _) rfl rfl rfl).answerOrder (refuseStatus reason) reason rule q rc
  have hauth : w.auth = v.auth := (congrArg State.auth hrep.eq :)
  refine ⟨⟨fun hreason => Replied.orderAnswered (v := w.addDecision _) (D := refusalOf rc q reason (s.at_ now).helmTime) ?_ rfl rfl rfl (if_neg hreason).symm, ?_, ?_, ?_, ?_⟩, fun k hk => ?_⟩
  · rw [← hnode, ← hmem, ← hrep.hostMem]
    exact hans
  · rw [hans.auth, ← hauth]
    rfl
  · exact hans.pins.trans hrep.pins
  · exact hans.time.trans (congrArg State.time hrep.eq :)
  · exact hans.pending.trans (congrArg State.pending hrep.eq :)
  · exact (hother k hk).trans (congrArg (Option.map Job.body) (State.job?_congr hrep.jobs k))

end Sys2Proof.Machine
end

section
/-! PROOF. Orders: their arrival, the decision on them, their permit lines and their time (13_authority_service.md R306-R321). -/

namespace Sys2Proof.Machine

/-! ### Lines 1 to 7 (R306) -/

section
variable {s : State} {j now : Nat} {J : Job} {op : Nat} {env : Bytes} {timeSet : Bool} {P : Policy}

theorem addressed_of_turn (hturn : ServiceTurn s j J op) (hregion : s.memOf J = none) (hdst : J.dst = 0 ∨ s.writeFault J.dst 96 = none) :
    Addressed (s.at_ now) j J 96 := by
  obtain ⟨hJ, -, hphase, -, -, hrel, -⟩ := hturn
  exact ⟨hJ, by simp [hphase], hrel, hregion, hdst⟩

theorem lines_malformed (hform : wellFormedOrder env timeSet = false) : s.linesOneToSix env timeSet = .error (0x0201, 0xFFFF, 0) :=
  if_pos (by simp [hform])

theorem lines_no_policy (hform : wellFormedOrder env timeSet = true) (hrun : s.auth.running = none) :
    s.linesOneToSix env timeSet = .error (0x0203, 0xFFFF, 0) := by
  simp [State.linesOneToSix, hform, hrun]

theorem lines_timeSet (hform : wellFormedOrder env true = true) (hrun : s.auth.running = some P) :
    s.linesOneToSix env true = .ok (P, none) := by
  simp [State.linesOneToSix, hform, hrun]

theorem lines_unknown (hform : wellFormedOrder env false = true) (hrun : s.auth.running = some P) (hknown : s.targetKnown env = false) :
    s.linesOneToSix env false = .error (0x0204, 0xFFFF, P.version) := by
  simp [State.linesOneToSix, hform, hrun, hknown]

theorem lines_no_rule (hform : wellFormedOrder env false = true) (hrun : s.auth.running = some P) (hknown : s.targetKnown env = true)
    (hnone : P.rules.find? (s.ruleMatches env) = none) : s.linesOneToSix env false = .error (0x0205, 0xFFFF, P.version) := by
  simp only [State.linesOneToSix, hform, hrun, hknown, hnone, not_true_eq_false, Bool.false_eq_true, if_false]

theorem lines_rule {R : Rule} (hform : wellFormedOrder env false = true) (hrun : s.auth.running = some P) (hknown : s.targetKnown env = true)
    (hfind : P.rules.find? (s.ruleMatches env) = some R) : s.linesOneToSix env false =
      if R.deny then .error (0x0206, R.id, P.version) else .ok (P, some R) := by
  simp only [State.linesOneToSix, hform, hrun, hknown, hfind, not_true_eq_false, Bool.false_eq_true, if_false]

/-! ### Arrival -/

theorem orderArrives_error {r rule ver : Nat} {job console : Option Nat} (h : s.linesOneToSix env timeSet = .error (r, rule, ver)) :
    s.orderArrives job console env timeSet = s.refuseOrder job console env r s.helmTime rule ver := by
  unfold State.orderArrives
  rw [h]

variable {R : Option Rule} (hlines : s.linesOneToSix env timeSet = .ok (P, R))
include hlines

theorem orderArrives_logFull {job console : Option Nat} (hlog : s.logFrozen 3 = true ∨ s.log.nearFull = true) :
    s.orderArrives job console env timeSet =
      s.refuseOrder job console env 0x0207 s.helmTime ((R.map (·.id)).getD 0xFFFF) P.version := by
  unfold State.orderArrives
  rw [hlines]
  exact if_pos hlog

variable (hlog : ¬ (s.logFrozen 3 = true ∨ s.log.nearFull = true))
include hlog

theorem orderArrives_refuse {r : Nat} {job console : Option Nat}
    (hask : s.serviceAsk ((R.map (·.cls)).getD 3) s.orderPost (s.orderPlan env P R) = .refuse r) :
    s.orderArrives job console env timeSet =
      (s.refused r).refuseOrder job console env 0x0207 s.helmTime ((R.map (·.id)).getD 0xFFFF) P.version := by
  unfold State.orderArrives
  rw [hlines]
  refine (if_neg hlog).trans ?_
  rw [hask]

omit hlines hlog in
/-- The entry of an order that has been taken. -/
def takenOrder (s : State) (j : Nat) (env : Bytes) (timeSet : Bool) (P : Policy) (R : Option Rule) : Order :=
  { job := some j, work := s.nextSeq, console := none, timeSet := timeSet, envelope := env, policy := P, rule := R,
    arrival := s.helmTime, accepted := true }

omit hlines hlog in
/-- The jobs of an order that has been taken: its steps on a job of the device's own, and its own job in the background. -/
def State.tookOrder (s : State) (j cls : Nat) (env : Bytes) (steps : List JobStep) (units : List (Nat × Nat × Nat)) : State :=
  ((s.startWork (orderWork env cls true) steps units).1.acceptJob j [] [] cls 0 true).modJob j fun J => { J with phase := .background }

omit hlines hlog in
/-- An acceptance changes the job, a counter and the order of acceptance. -/
theorem State.acceptJob_eq (s : State) (j : Nat) (steps : List JobStep) (units : List (Nat × Nat × Nat)) (cls rel : Nat) (al2 : Bool) :
    ∃ jobs regs a, s.acceptJob j steps units cls rel al2 = { s with jobs := jobs, regs := regs, acceptSeq := a } := by
  unfold State.acceptJob State.bumpBy State.setReg State.modJob
  exact ⟨_, _, _, rfl⟩

omit hlines hlog in
theorem State.tookOrder_eq (s : State) (j cls : Nat) (env : Bytes) (steps : List JobStep) (units : List (Nat × Nat × Nat)) :
    ∃ jobs regs n a, s.tookOrder j cls env steps units = { s with jobs := jobs, regs := regs, nextSeq := n, acceptSeq := a } := by
  unfold State.tookOrder State.startWork
  obtain ⟨jobs, regs, a, h⟩ := State.acceptJob_eq { s with
    jobs := tput s.jobs s.nextSeq { orderWork env cls true with src := .internal, seq := s.nextSeq, phase := .staged },
    nextSeq := s.nextSeq + 1 } s.nextSeq steps units (orderWork env cls true).cls 0 (orderWork env cls true).al2
  dsimp only
  rw [h]
  obtain ⟨jobs', regs', a', h'⟩ := State.acceptJob_eq { s with jobs := jobs, regs := regs, nextSeq := s.nextSeq + 1, acceptSeq := a } j
    [] [] cls 0 true
  rw [h']
  exact ⟨_, _, _, _, rfl⟩

theorem orderArrives_place {steps : List JobStep} {units : List (Nat × Nat × Nat)}
    (hask : s.serviceAsk ((R.map (·.cls)).getD 3) s.orderPost (s.orderPlan env P R) = .place steps units) :
    s.orderArrives (some j) none env timeSet = { s.tookOrder j ((R.map (·.cls)).getD 3) env steps units with auth := { s.auth with
      nextOrder := s.auth.nextOrder + 1, orders := tput s.auth.orders s.auth.nextOrder (takenOrder s j env timeSet P R) } } := by
  unfold State.orderArrives
  rw [hlines]
  refine (if_neg hlog).trans ?_
  rw [hask]
  rfl

omit hlines hlog in
theorem tookOrder_jobs (hJ : s.job? j = some J) (hj : j < s.nextSeq) (cls : Nat) (env : Bytes) (steps : List JobStep)
    (units : List (Nat × Nat × Nat)) :
    (∃ K, (s.tookOrder j cls env steps units).job? j = some K ∧ K.phase = .background ∧ K.accepted = some s.time.elapsed) ∧
    ∃ W, (s.tookOrder j cls env steps units).job? s.nextSeq = some W ∧ W.phase = .placed ∧ W.steps = steps ∧ W.units = units ∧
      W.al2 = true ∧ W.fn = 0x100 := by
  let W : Job := { orderWork env cls true with src := .internal, seq := s.nextSeq, phase := .staged }
  let v : State := { s with jobs := tput s.jobs s.nextSeq W, nextSeq := s.nextSeq + 1 }
  have hvW : v.job? s.nextSeq = some W := tget_tput_same _ _ _
  have hvJ : v.job? j = some J := (tget_tput_ne s.jobs s.nextSeq j W (by omega)).trans hJ
  let x := v.acceptJob s.nextSeq steps units cls 0 true
  have hne : j ≠ s.nextSeq := by omega
  have hxW : x.job? s.nextSeq = some (v.granted steps units cls 0 true W) :=
    State.modJob_job_some hvW (v.granted steps units cls 0 true)
  have hxJ : x.job? j = some J := ((v.modJob_job s.nextSeq j (v.granted steps units cls 0 true)).trans (if_neg hne)).trans hvJ
  let y := x.acceptJob j [] [] cls 0 true
  have hyJ : y.job? j = some (x.granted [] [] cls 0 true J) := State.modJob_job_some hxJ (x.granted [] [] cls 0 true)
  have hyW : y.job? s.nextSeq = some (v.granted steps units cls 0 true W) :=
    ((x.modJob_job j s.nextSeq (x.granted [] [] cls 0 true)).trans (if_neg hne.symm)).trans hxW
  exact ⟨⟨_, State.modJob_job_some hyJ fun J => { J with phase := .background }, rfl, rfl⟩, _,
    ((y.modJob_job j s.nextSeq fun J => { J with phase := .background }).trans (if_neg hne.symm)).trans hyW, rfl, rfl, rfl, rfl, rfl⟩

end

/-! ### SUBMIT_ORDER and TIME_SET_ORDER -/

section
variable {s : State} {j now : Nat} {J : Job}

theorem exec_submitOrder (hturn : ServiceTurn s j J 0x9000) (hchart : s.chartStops = false) :
    exec (.submitOrder j now) s = done s ((s.at_ now).orderArrives (some j) none J.input false) :=
  stepRow_turn (s := s.at_ now) hturn hchart fun s J => s.orderArrives (some j) none J.input false

theorem exec_timeSetOrder (hturn : ServiceTurn s j J 0x9300) (hchart : s.chartStops = false) :
    exec (.timeSetOrder j now) s = done s ((s.at_ now).orderArrives (some j) none J.input true) :=
  stepRow_turn (s := s.at_ now) hturn hchart fun s J => s.orderArrives (some j) none J.input true

/-- An order command that refuses the order answers it, and of the authority the decisions alone change. -/
theorem completes_refused {c : Instr} {v : State} {reason rule ver : Nat} {env : Bytes} (h : Addressed v j J 96)
    (hmem : v.hostMem = s.hostMem) (hnode : v.cluster.node = s.cluster.node) (hauth : v.auth = s.auth) (hpins : v.pins = s.pins)
    (htime : v.time = s.time.to now) (hpend : v.pending = s.pending) (hreason : reason ≠ 0)
    (hx : exec c s = done s (v.refuseOrder (some j) none env reason (s.at_ now).helmTime rule ver)) :
    Completes c s fun t => OrderAnswered s t j J env now (refuseStatus reason) reason rule ver ∧
      t.auth = { s.auth with decisions := t.auth.decisions } ∧ t.pins = s.pins ∧ t.time = s.time.to now := by
  obtain ⟨⟨hans, hdec⟩, -⟩ := h.refuseOrder hmem hnode env reason rule ver
  exact .of_done hx (hdec.pending.trans hpend) ⟨hans hreason, hauth ▸ hdec.auth, hdec.pins.trans hpins, hdec.time.trans htime⟩

/-- An order command that takes the order. -/
theorem completes_taken {c : Instr} {cls : Nat} {env : Bytes} {timeSet : Bool} {P : Policy} {R : Option Rule} {steps : List JobStep}
    {units : List (Nat × Nat × Nat)} (hJ : s.job? j = some J) (hj : j < s.nextSeq) (hx : exec c s = done s
      { (s.at_ now).tookOrder j cls env steps units with auth := { s.auth with
        nextOrder := s.auth.nextOrder + 1,
        orders := tput s.auth.orders s.auth.nextOrder (takenOrder (s.at_ now) j env timeSet P R) } }) :
    Completes c s fun t =>
      (∃ K, t.job? j = some K ∧ K.phase = .background ∧ K.accepted = some (s.at_ now).time.elapsed) ∧
      (∃ W, t.job? s.nextSeq = some W ∧ W.phase = .placed ∧ W.steps = steps ∧ W.units = units ∧ W.al2 = true ∧ W.fn = 0x100) ∧
      tget t.auth.orders s.auth.nextOrder = some (takenOrder (s.at_ now) j env timeSet P R) ∧
      t.auth.decisions = s.auth.decisions ∧ t.hostMem = s.hostMem ∧ t.pins = s.pins ∧ t.log = s.log ∧ t.time = s.time.to now := by
  obtain ⟨hjob, hwork⟩ := tookOrder_jobs (s := s.at_ now) hJ hj cls env steps units
  obtain ⟨jobs, regs, n, a, htook⟩ := (s.at_ now).tookOrder_eq j cls env steps units
  rw [htook] at hx hjob hwork
  exact .of_done hx rfl ⟨hjob, hwork, tget_tput_same _ _ _, rfl, rfl, rfl, rfl, rfl⟩

end

/-! ### Lines 8 to 12 (R306, R307) -/

section
variable {s : State} {x : Order} {R : Rule}

theorem decide_untrusted (h : s.time.trusted = false) : s.decideOrder x R = .error 0x0208 := if_pos (by simp [h])

section
variable (htrust : s.time.trusted = true)
include htrust

theorem decide_early (h : s.helmTime < envNotBefore x.envelope) : s.decideOrder x R = .error 0x0209 := by
  unfold State.decideOrder
  dsimp only
  rw [if_neg (by simp [htrust]), if_pos h]

variable (hearly : envNotBefore x.envelope ≤ s.helmTime)
include hearly

theorem decide_late (h : envNotAfter x.envelope < s.helmTime) : s.decideOrder x R = .error 0x020A := by
  unfold State.decideOrder
  dsimp only
  rw [if_neg (by simp [htrust]), if_neg (by omega), if_pos h]

variable (hlate : s.helmTime ≤ envNotAfter x.envelope)
include hlate

theorem decide_long (h : x.policy.maxValid * 10 ^ 9 < envNotAfter x.envelope - envNotBefore x.envelope) :
    s.decideOrder x R = .error 0x020B := by
  unfold State.decideOrder
  dsimp only
  rw [if_neg (by simp [htrust]), if_neg (by omega), if_neg (by omega), if_pos h]

theorem decide_used (h : envNotAfter x.envelope - envNotBefore x.envelope ≤ x.policy.maxValid * 10 ^ 9) {e : SeqEntry}
    (he : s.seqEntry (targetKey x.envelope) = some e) (hused : envSeq x.envelope ≤ e.last) : s.decideOrder x R = .error 0x020C := by
  unfold State.decideOrder
  dsimp only
  rw [if_neg (by simp [htrust]), if_neg (by omega), if_neg (by omega), if_neg (by omega), if_pos (by simp [he, hused])]

end

theorem ok_of_ite {α : Type} {p : Prop} [Decidable p] {r : Nat} {m : Except Nat α} {a : α} (h : (if p then .error r else m) = .ok a) :
    m = .ok a := by
  split at h
  · cases h
  · exact h

/-- An accepted order writes its SEQUENCE into a table with room for its target. -/
theorem decide_ok {a : Accepted} (h : s.decideOrder x R = .ok a) : ∃ l, s.seqRoom (targetKey x.envelope) s.helmTime = some l ∧
    a.seqs = seqWrite l (targetKey x.envelope) (envSeq x.envelope) (envNotAfter x.envelope) s.time.elapsed := by
  unfold State.decideOrder at h
  have h := ok_of_ite (ok_of_ite (ok_of_ite (ok_of_ite (ok_of_ite h))))
  cases hsign : s.signersOk x.policy x.envelope with
  | error r => simp [hsign] at h
  | ok roles =>
    rw [hsign] at h
    have h := ok_of_ite (ok_of_ite (ok_of_ite h))
    cases hroom : s.seqRoom (targetKey x.envelope) s.helmTime with
    | none => simp [hroom] at h
    | some l =>
      rw [hroom] at h
      cases htake : s.takeTokens x.policy R (targetKey x.envelope) with
      | error r => simp [htake] at h
      | ok b =>
        simp only [htake, Except.ok.injEq] at h
        exact ⟨l, rfl, (congrArg Accepted.seqs h).symm⟩

/-! ### The sequence table (R307) -/

theorem seqEntry_same {l : List SeqEntry} {k : Nat × Nat} {seq notAfter used : Nat} (h : s.auth.seqs = seqWrite l k seq notAfter used) :
    ∃ e, s.seqEntry k = some e ∧ e.last = seq := by
  unfold State.seqEntry
  rw [h]
  exact ⟨_, List.find?_cons_of_pos (by simp), rfl⟩

/-- The entries of the other targets stay. -/
theorem seqEntry_other {t : State} {k m : Nat × Nat} {seq notAfter used : Nat} (h : t.auth.seqs = seqWrite s.auth.seqs k seq notAfter used)
    (hne : m ≠ k) : t.seqEntry m = s.seqEntry m := by
  have hkey (a b : Nat) (hm : (a == m.1 && b == m.2) = true) : (a == k.1 && b == k.2) = false := by
    rw [Bool.and_eq_true, beq_iff_eq, beq_iff_eq] at hm
    obtain ⟨rfl, rfl⟩ := hm
    rw [Bool.and_eq_false_iff, beq_eq_false_iff_ne, beq_eq_false_iff_ne]
    by_contra hboth
    push Not at hboth
    exact hne (Prod.ext hboth.1 hboth.2)
  unfold State.seqEntry
  rw [h]
  unfold seqWrite
  rw [List.find?_cons_of_neg, List.find?_filter]
  · congr 1
    funext e
    cases hm : (e.kind == m.1 && e.target == m.2) with
    | false => simp
    | true => simp [hkey _ _ hm]
  · cases hm : (k.1 == m.1 && k.2 == m.2) with
    | false => simp
    | true => simpa using hkey _ _ hm

theorem seqRoom_of_space {k : Nat × Nat} {T : Nat} (h : s.auth.seqs.length < 262144) : s.seqRoom k T = some s.auth.seqs :=
  if_pos (.inr h)

end

/-! ### Permit lines (R317) -/

/-- The end of a permit line that is asserted until `e`. -/
def permitEndAt (ps : Table Permit) (n : Nat) : Nat := ((tget ps n).map (·.endAt)).getD 0

theorem State.assertPermit_eq (s : State) (n ms seq : Nat) : ∃ ps, s.assertPermit n ms seq =
    { s with pins := { s.pins with permit := s.pins.permit ||| BitVec.ofNat 8 (2 ^ n) }, auth := { s.auth with permits := ps } } ∧
    (∃ p, tget ps n = some p ∧ p.endAt = max (permitEndAt s.auth.permits n) (s.time.elapsed + ms * 1000000)) ∧
    ∀ m, m ≠ n → tget ps m = tget s.auth.permits m := by
  refine ⟨_, rfl, ?_, fun m hm => ?_⟩
  · by_cases h : ((tget s.auth.permits n).getD {}).endAt ≤ s.time.elapsed + ms * 1000000
    · rw [if_pos h]
      refine ⟨_, tget_tput_same _ _ _, ?_⟩
      unfold permitEndAt
      cases hp : tget s.auth.permits n with
      | none => simp
      | some p =>
        rw [hp] at h
        exact (max_eq_right h).symm
    · rw [if_neg h]
      cases hp : tget s.auth.permits n with
      | none => simp [hp] at h
      | some p =>
        rw [hp] at h
        refine ⟨p, rfl, ?_⟩
        simp only [permitEndAt, hp]
        exact (max_eq_left (Nat.le_of_lt (Nat.lt_of_not_le h))).symm
  · split
    · exact tget_tput_ne _ _ _ _ hm
    · rfl

theorem getLsbD_two_pow_8 {n : Nat} (hn : n < 8) (i : Nat) : (BitVec.ofNat 8 (2 ^ n)).getLsbD i = decide (i = n) := by
  rw [BitVec.getLsbD_ofNat, Nat.testBit_two_pow]
  by_cases h : i = n
  · simp [h, hn]
  · simp [h, Ne.symm h]

/-- Every line of a list is asserted, and no other. -/
theorem State.assertEach_eq (l : List Nat) (hl : ∀ n ∈ l, n < 8) (hnodup : l.Nodup) (ms seq : Nat) (s : State) : ∃ ps permit,
    eachOf l (fun u n => u.assertPermit n ms seq) s = { s with
      pins := { s.pins with permit := permit }, auth := { s.auth with permits := ps } } ∧
    (∀ i, permit.getLsbD i = true ↔ s.pins.permit.getLsbD i = true ∨ i ∈ l) ∧
    (∀ n ∈ l, ∃ p, tget ps n = some p ∧ p.endAt = max (permitEndAt s.auth.permits n) (s.time.elapsed + ms * 1000000)) ∧
    ∀ n, n ∉ l → tget ps n = tget s.auth.permits n := by
  induction l generalizing s with
  | nil => exact ⟨_, _, rfl, by simp, by simp, fun _ _ => rfl⟩
  | cons n l ih =>
    obtain ⟨hnl, hnodup⟩ := List.nodup_cons.1 hnodup
    obtain ⟨ps, hps, hsame, hother⟩ := s.assertPermit_eq n ms seq
    obtain ⟨qs, permit, hqs, hbits, hin, hout⟩ := ih (fun m hm => hl m (List.mem_cons_of_mem _ hm)) hnodup (s.assertPermit n ms seq)
    rw [hps] at hqs hbits hin hout
    refine ⟨qs, permit, (congrArg (eachOf l _) hps).trans hqs, fun i => ?_, fun m hm => ?_, fun m hm => ?_⟩
    · rw [hbits i, BitVec.getLsbD_or, getLsbD_two_pow_8 (hl n List.mem_cons_self), Bool.or_eq_true, decide_eq_true_eq, List.mem_cons, or_assoc]
    · by_cases hmn : m = n
      · rw [hmn, hout n hnl]
        exact hsame
      · have hml := (List.mem_cons.1 hm).resolve_left hmn
        obtain ⟨p, hp, hend⟩ := hin m hml
        refine ⟨p, hp, hend.trans ?_⟩
        unfold permitEndAt
        rw [hother m hmn]
    · rw [List.mem_cons, not_or] at hm
      exact (hout m hm.2).trans (hother m hm.1)

/-- The lines of a rule rise, and no others. -/
theorem State.assertPermits_eq (s : State) (R : Rule) (seq : Nat) : ∃ ps, s.assertPermits R seq = { s with
      pins := { s.pins with permit := s.pins.permit ||| R.permit }, auth := { s.auth with permits := ps } } ∧
    (∀ n < 8, R.permit.getLsbD n = true → ∃ p, tget ps n = some p ∧
      p.endAt = max (permitEndAt s.auth.permits n) (s.time.elapsed + R.permitMs * 1000000)) ∧
    ∀ n < 8, R.permit.getLsbD n = false → tget ps n = tget s.auth.permits n := by
  obtain ⟨ps, permit, heq, hbits, hin, hout⟩ := State.assertEach_eq ((List.range 8).filter fun n => R.permit.getLsbD n)
    (fun n hn => List.mem_range.1 (List.mem_filter.1 hn).1) (List.nodup_range.filter _) R.permitMs seq s
  have hmem (n : Nat) (hn : n < 8) : n ∈ (List.range 8).filter (fun n => R.permit.getLsbD n) ↔ R.permit.getLsbD n = true := by
    rw [List.mem_filter, List.mem_range]
    exact and_iff_right hn
  have hpermit : permit = s.pins.permit ||| R.permit := by
    refine BitVec.eq_of_getLsbD_eq fun i hi => ?_
    rw [Bool.eq_iff_iff, hbits i, BitVec.getLsbD_or, Bool.or_eq_true, hmem i hi]
  exact ⟨ps, hpermit ▸ heq, fun n hn hR => hin n ((hmem n hn).2 hR), fun n hn hR => hout n fun h => by simp [(hmem n hn).1 h] at hR⟩

/-! ### Release (R314, R315) -/

section
variable {s v : State} {x : Order} {j now : Nat} {J : Job}

/-- The decision record of an accepted order that is not forwarded. -/
def acceptedOf (x : Order) (R : Rule) (q now : Nat) : Decision :=
  { orderId := leAt x.envelope 8 8, auditSeq := q, reason := 0, state := 3, time := now, target := targetKey x.envelope,
    notAfter := envNotAfter x.envelope, graceMs := R.graceMs, expects := R.expects, console := x.console, fanout := R.fanout }

/-- The state that an accepted order's tables leave. -/
def State.withTables (s : State) (a : Accepted) : State := { s with auth := { s.auth with seqs := a.seqs, buckets := a.buckets } }

/-- An accepted order that is not forwarded: its record, its lines, its decision and its answer. -/
theorem releaseOrder_plain {R : Rule} (hforward : R.forward = false) (a : Accepted) (endorseFails : Bool) :
    ∃ q w, Reports (s.withTables a) w ∧ s.releaseOrder x R a endorseFails =
      ((w.assertPermits R q).addDecision (acceptedOf x R q s.helmTime)).answerOrder x.job x.console St.ok 0 R.id q
        (receiptOf x.envelope 0 q s.helmTime R.id s.cluster.node x.policy.version) := by
  obtain ⟨q, w, hrec, hrep⟩ := (s.withTables a).recordOrder_spec 0x0030 x.envelope 0 s.helmTime R.id x.policy.version
  refine ⟨q, w, hrep, ?_⟩
  have hr : State.recordOrder { s with auth := { s.auth with seqs := a.seqs, buckets := a.buckets } } 0x0030 x.envelope 0 s.helmTime R.id
    x.policy.version = _ := hrec
  unfold State.releaseOrder
  dsimp only
  rw [hr]
  dsimp only
  rw [hforward]
  rfl

/-- What an accepted order leaves besides its answer. -/
structure Released (s t : State) (a : Accepted) (R : Rule) : Prop where
  seqs : t.auth.seqs = a.seqs
  orders : t.auth.orders = s.auth.orders
  pins : t.pins = { s.pins with permit := s.pins.permit ||| R.permit }
  raised : ∀ n < 8, R.permit.getLsbD n = true → ∃ p, tget t.auth.permits n = some p ∧
    p.endAt = max (permitEndAt s.auth.permits n) (s.time.elapsed + R.permitMs * 1000000)
  others : ∀ n < 8, R.permit.getLsbD n = false → tget t.auth.permits n = tget s.auth.permits n
  pending : t.pending = s.pending

/-- An accepted order is answered with reason 0, its lines rise, and its tables are written. -/
theorem Addressed.releaseOrder (h : Addressed v j J 96) (hmem : v.hostMem = s.hostMem) (hnode : v.cluster.node = s.cluster.node)
    (htime : v.helmTime = (s.at_ now).helmTime) (hjob : x.job = some j) (hconsole : x.console = none) {R : Rule}
    (hforward : R.forward = false) (a : Accepted) (endorseFails : Bool) :
    let t := v.releaseOrder x R a endorseFails
    (OrderAnswered s t j J x.envelope now St.ok 0 R.id x.policy.version ∧ Released v t a R) ∧
    ∀ k, k ≠ j → (t.job? k).map Job.body = (v.job? k).map Job.body := by
  intro t
  obtain ⟨q, w, hrep, ht⟩ := releaseOrder_plain (s := v) (x := x) hforward a endorseFails
  obtain ⟨ps, hps, hraised, hothers⟩ := w.assertPermits_eq R q
  rw [hps, hjob, hconsole, htime] at ht
  have hwv : Addressed w j J 96 := (h.congr (t := v.withTables a) rfl rfl rfl).reports hrep
  have hauth : w.auth = { v.auth with seqs := a.seqs, buckets := a.buckets } := (congrArg State.auth hrep.eq :)
  have hpins : w.pins = v.pins := hrep.pins
  have helapsed : w.time = v.time := (congrArg State.time hrep.eq :)
  have hpend : w.pending = v.pending := (congrArg State.pending hrep.eq :)
  have hwmem : w.hostMem = v.hostMem := hrep.hostMem
  have hjobs : w.jobs = v.jobs := hrep.jobs
  rw [hauth] at hps ht hraised hothers
  rw [hpins] at ht
  rw [helapsed] at hraised
  let y : State := State.addDecision { w with
    pins := { v.pins with permit := v.pins.permit ||| R.permit },
    auth := { v.auth with seqs := a.seqs, buckets := a.buckets, permits := ps } } (acceptedOf x R q (s.at_ now).helmTime)
  obtain ⟨hans, hother⟩ := (hwv.congr (t := y) rfl rfl rfl).answerOrder St.ok 0 R.id q
    (receiptOf x.envelope 0 q (s.at_ now).helmTime R.id v.cluster.node x.policy.version)
  have hty : t = y.answerOrder (some j) none St.ok 0 R.id q
    (receiptOf x.envelope 0 q (s.at_ now).helmTime R.id v.cluster.node x.policy.version) := ht
  rw [hty]
  refine ⟨⟨Replied.orderAnswered (v := y) (D := acceptedOf x R q (s.at_ now).helmTime) ?_ rfl rfl rfl rfl, ?_⟩, fun k hk => ?_⟩
  · rw [← hnode, ← hmem, ← hwmem]
    exact hans
  · refine ⟨congrArg Authority.seqs hans.auth, (congrArg Authority.orders hans.auth :), hans.pins, fun n hn hR => ?_, fun n hn hR => ?_,
      hans.pending.trans hpend⟩
    · rw [hans.auth]
      exact hraised n hn hR
    · rw [hans.auth]
      exact hothers n hn hR
  · exact (hother k hk).trans (congrArg (Option.map Job.body) (State.job?_congr hjobs k))

/-! ### The order's own job goes -/

/-- The device's own job of an order goes, and nothing of what an answer shows changes. -/
theorem dropWork_spec {t : State} {W : Job} (hW : (t.job? x.work).map Job.body = some W.body) (hphase : W.phase = .placed)
    (hrel : W.released = 0) : (t.dropWork x).job? x.work = none ∧
      (∀ k, k ≠ x.work → ((t.dropWork x).job? k).map Job.body = (t.job? k).map Job.body) ∧ (t.dropWork x).auth = t.auth ∧
      (t.dropWork x).pins = t.pins ∧ (t.dropWork x).time = t.time ∧ (t.dropWork x).pending = t.pending ∧
      (t.dropWork x).hostMem = t.hostMem := by
  obtain ⟨V, hV, hbody⟩ := Option.map_eq_some_iff.1 hW
  have hVphase : V.phase = .placed := (congrArg Job.phase hbody :).trans hphase
  have hVrel : V.released = 0 := (congrArg Job.released hbody :).trans hrel
  have hend := State.endJob_ended hV (by simp [hVphase]) hVrel St.ok 0 []
  unfold State.dropWork
  refine ⟨(State.delJob_job _ _ _).trans (if_pos rfl), fun k hk => ?_, hend.auth, hend.pins, hend.time, hend.pending, hend.hostMem⟩
  rw [State.delJob_job, if_neg hk]
  exact hend.ends.job k hk

/-- An answered order stays answered where the job's body, the decisions and host memory stay. -/
theorem orderAnswered_congr {t u : State} {env : Bytes} {status reason rule ver : Nat}
    (h : OrderAnswered s t j J env now status reason rule ver) (hjob : (u.job? j).map Job.body = (t.job? j).map Job.body)
    (hauth : u.auth = t.auth) (hmem : u.hostMem = t.hostMem) : OrderAnswered s u j J env now status reason rule ver := by
  obtain ⟨K, q, D, rest, hK, hphase, hstatus, hresult, hret, hdec, hrest⟩ := h
  rw [hK] at hjob
  obtain ⟨L, hL, hbody⟩ := Option.map_eq_some_iff.1 hjob
  exact ⟨L, q, D, rest, hL, (congrArg Job.phase hbody :).trans hphase, (congrArg Job.status hbody :).trans hstatus,
    (congrArg Job.result hbody :).trans hresult, (congrArg Job.ret hbody :).trans hret, hauth ▸ hdec, hmem ▸ hrest⟩

end

/-! ### DECISION_COMMIT -/

section
variable {s : State} {x : Order} {r : Nat} {a : Accepted} (endorseFails : Bool)

theorem commitOrder_denied {R : Rule} (hrule : x.rule = some R) (hdecide : s.decideOrder x R = .error r) :
    s.commitOrder x endorseFails = (s.refuseOrder x.job x.console x.envelope r s.helmTime R.id x.policy.version).dropWork x := by
  unfold State.commitOrder
  rw [hrule]
  dsimp only
  rw [hdecide]
  rfl

theorem commitOrder_accepts {R : Rule} (hrule : x.rule = some R) (hdecide : s.decideOrder x R = .ok a) :
    s.commitOrder x endorseFails = (s.releaseOrder x R a endorseFails).dropWork x := by
  unfold State.commitOrder
  rw [hrule]
  dsimp only
  rw [hdecide]

theorem commitOrder_timeDenied (hrule : x.rule = none) (hdecide : s.decideTime x = .error r) :
    s.commitOrder x endorseFails = (s.refuseOrder x.job x.console x.envelope r s.helmTime 0xFFFF x.policy.version).dropWork x := by
  unfold State.commitOrder
  rw [hrule]
  dsimp only
  rw [hdecide]
  rfl

end

/-- Order `o` is one whose decision is due now: its job waits in the background, and the device's own job carries its steps. -/
structure DecisionTurn (s : State) (o j : Nat) (x : Order) (J W : Job) : Prop where
  order : tget s.auth.orders o = some x
  job : x.job = some j
  console : x.console = none
  addressed : Addressed s j J 96
  work : s.job? x.work = some W
  phase : W.phase = .placed
  released : W.released = 0
  other : x.work ≠ j
  safe : s.faults.safe.on = false

/-- The device at the decision on order `o`, the order taken from its table. -/
def State.takeOrder (s : State) (o now : Nat) : State :=
  { s.at_ now with auth := { s.auth with orders := tdel s.auth.orders o } }

section
variable {s : State} {o j now : Nat} {x : Order} {J W : Job} (h : DecisionTurn s o j x J W)
include h

theorem DecisionTurn.waits (hverify : s.verifiesDone x = false) : exec (.decisionCommit o false now) s = .next (s.at_ now) := by
  have hx : exec (.decisionCommit o false now) s = execDecisionCommit o false now s := rfl
  unfold execDecisionCommit at hx
  dsimp only at hx
  rw [show tget (s.at_ now).auth.orders o = some x from h.order] at hx
  dsimp only at hx
  rw [show (s.at_ now).job? x.work = some W from h.work] at hx
  dsimp only at hx
  rw [if_neg (by simp [h.phase]), if_neg (by rw [show (s.at_ now).verifiesDone x = false from hverify]; simp)] at hx
  exact hx.trans (done_eq rfl)

theorem DecisionTurn.commits (hverify : s.verifiesDone x = true) :
    exec (.decisionCommit o false now) s = done s ((s.takeOrder o now).commitOrder x false) := by
  have hx : exec (.decisionCommit o false now) s = execDecisionCommit o false now s := rfl
  unfold execDecisionCommit at hx
  dsimp only at hx
  rw [show tget (s.at_ now).auth.orders o = some x from h.order] at hx
  dsimp only at hx
  rw [show (s.at_ now).job? x.work = some W from h.work] at hx
  dsimp only at hx
  rw [if_neg (by simp [h.phase]), if_pos ⟨hverify, by simp [State.at_, h.safe]⟩] at hx
  exact hx

theorem DecisionTurn.taken : Addressed (s.takeOrder o now) j J 96 := h.addressed.congr rfl rfl rfl

/-- A refused order is answered; of the authority its entry and the decisions alone change, and the device's own job goes. -/
theorem DecisionTurn.refused (hverify : s.verifiesDone x = true) {reason rule : Nat}
    (hcommit : (s.takeOrder o now).commitOrder x false =
      ((s.takeOrder o now).refuseOrder (some j) none x.envelope reason (s.at_ now).helmTime rule x.policy.version).dropWork x) :
    Completes (.decisionCommit o false now) s fun t =>
      (reason ≠ 0 → OrderAnswered s t j J x.envelope now (refuseStatus reason) reason rule x.policy.version) ∧
      t.auth = { s.auth with orders := tdel s.auth.orders o, decisions := t.auth.decisions } ∧ t.pins = s.pins ∧
      t.time = s.time.to now ∧ t.job? x.work = none := by
  obtain ⟨⟨hans, hdec⟩, hothers⟩ := (h.taken (now := now)).refuseOrder (s := s) (now := now) rfl rfl x.envelope reason rule x.policy.version
  obtain ⟨hnone, hkeep, hauth, hpins, htime, hpend, hmem⟩ := dropWork_spec (x := x) (W := W)
    ((hothers x.work h.other).trans (congrArg (Option.map Job.body) h.work)) h.phase h.released
  refine .of_done ((h.commits hverify).trans (congrArg (done s) hcommit)) (hpend.trans hdec.pending) ⟨?_, ?_, ?_, ?_, hnone⟩
  · exact fun hreason => orderAnswered_congr (hans hreason) (hkeep j h.other.symm) hauth hmem
  · rw [hauth]
    exact hdec.auth
  · exact hpins.trans hdec.pins
  · exact htime.trans hdec.time

/-! ### The decision under a rule -/

section
variable (hverify : s.verifiesDone x = true) {R : Rule} (hrule : x.rule = some R)
include hverify hrule

/-- An order that fails a line is refused with its reason. -/
theorem DecisionTurn.denied {r : Nat} (hr : r ≠ 0) (hdecide : (s.at_ now).decideOrder x R = .error r) :
    Completes (.decisionCommit o false now) s fun t => OrderAnswered s t j J x.envelope now (refuseStatus r) r R.id x.policy.version ∧
      t.auth = { s.auth with orders := tdel s.auth.orders o, decisions := t.auth.decisions } ∧ t.pins = s.pins ∧
      t.time = s.time.to now ∧ t.job? x.work = none := by
  have hcommit := commitOrder_denied (s := s.takeOrder o now) false hrule hdecide
  rw [h.job, h.console] at hcommit
  obtain ⟨t, hx, hans, hrest⟩ := h.refused hverify hcommit
  exact ⟨t, hx, hans hr, hrest⟩

/-- An order that passes every line is released and answered. -/
theorem DecisionTurn.accepts {a : Accepted} (hforward : R.forward = false) (hdecide : (s.at_ now).decideOrder x R = .ok a) :
    Completes (.decisionCommit o false now) s fun t => OrderAnswered s t j J x.envelope now St.ok 0 R.id x.policy.version ∧
      Released (s.takeOrder o now) t a R := by
  obtain ⟨⟨hans, hreleased⟩, hothers⟩ := (h.taken (now := now)).releaseOrder (s := s) (now := now) rfl rfl rfl h.job h.console hforward a false
  obtain ⟨-, hkeep, hauth, hpins, -, hpend, hmem⟩ := dropWork_spec (x := x) (W := W)
    ((hothers x.work h.other).trans (congrArg (Option.map Job.body) h.work)) h.phase h.released
  have hcommit : (s.takeOrder o now).commitOrder x false = ((s.takeOrder o now).releaseOrder x R a false).dropWork x :=
    commitOrder_accepts false hrule hdecide
  obtain ⟨hseqs, horders, hrpins, hraised, hsame, hrpend⟩ := hreleased
  refine .of_done ((h.commits hverify).trans (congrArg (done s) hcommit)) (hpend.trans hrpend)
    ⟨orderAnswered_congr hans (hkeep j h.other.symm) hauth hmem, ?_, ?_, ?_, ?_, ?_, hpend.trans hrpend⟩
  · exact (congrArg Authority.seqs hauth).trans hseqs
  · exact (congrArg Authority.orders hauth).trans horders
  · exact hpins.trans hrpins
  · intro n hn hR
    rw [show _ = _ from hauth]
    exact hraised n hn hR
  · intro n hn hR
    rw [show _ = _ from hauth]
    exact hsame n hn hR

end

/-- A time-set order that fails a check is refused with its reason. -/
theorem DecisionTurn.timeDenied (hverify : s.verifiesDone x = true) (hrule : x.rule = none) {r : Nat}
    (hdecide : (s.at_ now).decideTime x = .error r) : Completes (.decisionCommit o false now) s fun t =>
      t.time = s.time.to now ∧ t.pins = s.pins := by
  have hcommit := commitOrder_timeDenied (s := s.takeOrder o now) false hrule hdecide
  rw [h.job, h.console] at hcommit
  obtain ⟨t, hx, -, -, hpins, htime, -⟩ := h.refused hverify hcommit
  exact ⟨t, hx, htime, hpins⟩

end

/-! ### An accepted time-set order (R321, R349) -/

/-- The time that an accepted time-set order sets: a later one is a step, an earlier one a run at half rate. -/
def TimeState.set (T : TimeState) (n : Nat) : TimeState :=
  if T.almanac ≤ n then { T with almanac := n, slew := .none, servo := .none, accepted := [], trusted := true }.sync
  else { T with slew := .lose 2 (T.almanac - n) 0, accepted := [], trusted := true }

theorem TimeState.set_fields (T : TimeState) (n : Nat) : (T.set n).trusted = true ∧ (T.set n).accepted = [] ∧
    (T.almanac ≤ n → (T.set n).almanac = n) ∧
    (n < T.almanac → (T.set n).almanac = T.almanac ∧ (T.set n).slew = .lose 2 (T.almanac - n) 0) := by
  unfold TimeState.set
  split
  next h => exact ⟨rfl, rfl, fun _ => rfl, fun hn => absurd h (by omega)⟩
  next h => exact ⟨rfl, rfl, fun hn => absurd hn h, fun _ => ⟨rfl, rfl⟩⟩

theorem State.gainTrust_reports (s : State) : Reports { s with time := { s.time with trusted := true } } s.gainTrust := by
  unfold State.gainTrust
  split
  next h =>
    have heq : ({ s.time with trusted := true } : TimeState) = s.time := by rw [← h]
    rw [heq]
    rfl
  · exact State.logEvent_reports _ _ _ _

theorem State.setTime_reports (s : State) (n : Nat) : Reports { s with time := s.time.set n } (s.setTime n) := by
  have hreports := State.gainTrust_reports { s with time := if s.time.almanac ≤ n then
      { s.time with almanac := n, slew := .none, servo := .none, accepted := [] }.sync
    else { s.time with slew := .lose 2 (s.time.almanac - n) 0, accepted := [] } }
  have hset : s.time.set n = { (if s.time.almanac ≤ n then
      { s.time with almanac := n, slew := .none, servo := .none, accepted := [] }.sync
    else { s.time with slew := .lose 2 (s.time.almanac - n) 0, accepted := [] } : TimeState) with trusted := true } := by
    unfold TimeState.set
    split <;> rfl
  rw [hset]
  exact hreports

/-- The decision record of an accepted time-set order. -/
def timeAcceptedOf (x : Order) (q now : Nat) : Decision :=
  { orderId := leAt x.envelope 8 8, auditSeq := q, reason := 0, state := 3, time := now, target := (2, 0),
    notAfter := envNotAfter x.envelope, console := x.console }

/-- The sequence table as an accepted time-set order leaves it. -/
def State.withSeqs (s : State) (a : Accepted) : State := { s with auth := { s.auth with seqs := a.seqs } }

section
variable {s : State} {o j now : Nat} {x : Order} {J W : Job} {a : Accepted}

theorem commitOrder_time (endorseFails : Bool) (hrule : x.rule = none) (hdecide : s.decideTime x = .ok a) :
    ∃ q w, Reports (s.withSeqs a) w ∧ s.commitOrder x endorseFails =
      (((w.setTime (envNewTime x.envelope)).addDecision (timeAcceptedOf x q s.helmTime)).answerOrder x.job x.console St.ok 0 0xFFFF q
        (receiptOf x.envelope 0 q s.helmTime 0xFFFF s.cluster.node x.policy.version)).dropWork x := by
  obtain ⟨q, w, hrec, hrep⟩ := (s.withSeqs a).recordOrder_spec 0x0030 x.envelope 0 s.helmTime 0xFFFF x.policy.version
  refine ⟨q, w, hrep, ?_⟩
  have hr : State.recordOrder { s with auth := { s.auth with seqs := a.seqs } } 0x0030 x.envelope 0 s.helmTime 0xFFFF x.policy.version
    = _ := hrec
  unfold State.commitOrder
  rw [hrule]
  dsimp only
  rw [hdecide]
  dsimp only
  rw [show ((Option.map (fun x : Rule => x.id) none).getD 0xFFFF) = 0xFFFF from rfl, hr]
  rfl

/-- An accepted time-set order sets the time and is answered with reason 0. -/
theorem DecisionTurn.timeAccepts (h : DecisionTurn s o j x J W) (hverify : s.verifiesDone x = true) (hrule : x.rule = none)
    (hdecide : (s.at_ now).decideTime x = .ok a) : Completes (.decisionCommit o false now) s fun t =>
      OrderAnswered s t j J x.envelope now St.ok 0 0xFFFF x.policy.version ∧ t.time = (s.time.to now).set (envNewTime x.envelope) ∧
      t.pins = s.pins := by
  obtain ⟨q, w, hrep, hcommit⟩ := commitOrder_time (s := s.takeOrder o now) false hrule hdecide
  let y := (w.setTime (envNewTime x.envelope)).addDecision (timeAcceptedOf x q (s.at_ now).helmTime)
  have hset := w.setTime_reports (envNewTime x.envelope)
  have hw : Addressed w j J 96 := ((h.taken (now := now)).congr (t := (s.takeOrder o now).withSeqs a) rfl rfl rfl).reports hrep
  have hy : Addressed y j J 96 :=
    ((hw.congr (t := { w with time := w.time.set (envNewTime x.envelope) }) rfl rfl rfl).reports hset).congr rfl rfl rfl
  obtain ⟨hans, hothers⟩ := hy.answerOrder St.ok 0 0xFFFF q
    (receiptOf x.envelope 0 q (s.at_ now).helmTime 0xFFFF s.cluster.node x.policy.version)
  have hjobs : y.jobs = s.jobs := hset.jobs.trans hrep.jobs
  have hwtime : w.time = s.time.to now := (congrArg State.time hrep.eq :)
  have hmemy : y.hostMem = s.hostMem := hset.hostMem.trans hrep.hostMem
  obtain ⟨-, hkeep, hauth, hpins, htime, hpend, hmem⟩ := dropWork_spec (x := x) (W := W)
    ((hothers x.work h.other).trans (congrArg (Option.map Job.body) ((State.job?_congr hjobs x.work).trans h.work))) h.phase h.released
  rw [h.job, h.console] at hcommit
  rw [hmemy] at hans
  refine .of_done ((h.commits hverify).trans (congrArg (done s) hcommit)) (hpend.trans (hans.pending.trans
    ((congrArg State.pending hset.eq :).trans (congrArg State.pending hrep.eq :)))) ⟨?_, ?_, ?_⟩
  · exact orderAnswered_congr (Replied.orderAnswered (v := y) (D := timeAcceptedOf x q (s.at_ now).helmTime) hans rfl rfl rfl rfl)
      (hkeep j h.other.symm) hauth hmem
  · exact htime.trans (hans.time.trans ((congrArg State.time hset.eq).trans (congrArg (TimeState.set · _) hwtime)))
  · exact hpins.trans (hans.pins.trans (hset.pins.trans hrep.pins))

end

/-! ### Permit lines fall (R317) -/

theorem exec_permitEnd {s : State} {n now : Nat} {p : Permit} (hn : n < 8) (hp : tget s.auth.permits n = some p) :
    exec (.permitEnd n now) s = done s (if p.endAt ≤ (s.time.to now).elapsed then { s.at_ now with
      pins := { s.pins with permit := s.pins.permit &&& ~~~ (BitVec.ofNat 8 (2 ^ n)) },
      auth := { s.auth with permits := tdel s.auth.permits n } } else s.at_ now) := by
  have hx : exec (.permitEnd n now) s = execPermitEnd n now s := rfl
  unfold execPermitEnd at hx
  dsimp only at hx
  rw [within_ok (decide_eq_true hn), show tget (s.at_ now).auth.permits n = some p from hp] at hx
  exact hx

theorem exec_permitEnd_due {s : State} {n now : Nat} {p : Permit} (hn : n < 8) (hp : tget s.auth.permits n = some p)
    (hdue : p.endAt ≤ (s.time.to now).elapsed) : exec (.permitEnd n now) s = .next { s.at_ now with
      pins := { s.pins with permit := s.pins.permit &&& ~~~ (BitVec.ofNat 8 (2 ^ n)) },
      auth := { s.auth with permits := tdel s.auth.permits n } } := by
  rw [exec_permitEnd hn hp, if_pos hdue]
  exact done_eq rfl

theorem exec_permitEnd_early {s : State} {n now : Nat} {p : Permit} (hn : n < 8) (hp : tget s.auth.permits n = some p)
    (hearly : (s.time.to now).elapsed < p.endAt) : exec (.permitEnd n now) s = .next (s.at_ now) := by
  rw [exec_permitEnd hn hp, if_neg (by omega)]
  exact done_eq rfl

/-! ### Queries and policies (R318, R320, R322) -/

section
variable {s : State} {j now : Nat} {J : Job} {op : Nat} (hregion : s.memOf J = none)
include hregion

/-- A query in its turn writes its block at DST and answers. -/
theorem servedBlock_replied (hturn : ServiceTurn s j J op) {block : Bytes} (hdst : s.writeFault J.dst block.length = none) (result : Nat) :
    Replied j St.ok result [] (memWriteN s.hostMem J.dst block) s (s.servedBlock j J block result) := by
  obtain ⟨hJ, -, hphase, -, -, hrel, -⟩ := hturn
  obtain ⟨jobs, regs, a, haccept⟩ := s.acceptJob_eq j [] [] J.cls 0 J.al2
  have hjob : (s.acceptJob j [] [] J.cls 0 J.al2).job? j = some (s.granted [] [] J.cls 0 J.al2 J) :=
    State.modJob_job_some hJ (s.granted [] [] J.cls 0 J.al2)
  unfold State.servedBlock
  rw [haccept] at hjob ⊢
  dsimp only
  have haddr : Addressed { s with jobs := jobs, regs := regs, acceptSeq := a } j (s.granted [] [] J.cls 0 J.al2 J) block.length :=
    ⟨hjob, by simp [State.granted], hrel, hregion, .inr hdst⟩
  rw [show s.memOf J = none from hregion]
  rw [show s.wrFault none J.dst block.length = none from hdst]
  dsimp only
  obtain ⟨hans, -⟩ := haddr.written St.ok result [] block
  rw [haddr.region] at hans
  exact ⟨hans.job, hans.hostMem, hans.auth, hans.pins, hans.time, hans.pending⟩

theorem completes_query {c : Instr} (hturn : ServiceTurn s j J op) {block : Bytes} {result : Nat}
    (hx : exec c s = done s (s.servedBlock j J block result)) (hdst : s.writeFault J.dst block.length = none) : Completes c s fun t =>
      Answered t j St.ok result ∧ t.hostMem = memWriteN s.hostMem J.dst block ∧ t.auth = s.auth ∧ t.pins = s.pins ∧ t.time = s.time := by
  have hans := servedBlock_replied hregion hturn hdst result
  exact .of_done hx hans.pending ⟨hans.answered, hans.hostMem, hans.auth, hans.pins, hans.time⟩

end

end Sys2Proof.Machine
end

section
/-! PROOF. Policy updates, and the obligations on orders and policies (13_authority_service.md R299-R325). -/

namespace Sys2Proof.Machine

/-! ### POLICY_UPDATE (R322) -/

section
variable {s : State} {j now : Nat} {J : Job}

/-- A refusal is counted, and shown. -/
theorem State.refused_eq (s : State) (r : Nat) : ∃ regs n, s.refused r = { s with regs := regs, chart := { s.chart with noRoute := n } } := by
  unfold State.refused State.bumpBy State.setReg
  dsimp only
  split
  · exact ⟨_, _, rfl⟩
  · exact ⟨_, s.chart.noRoute, rfl⟩

/-- A job that is refused NOT_ADMITTED ends with the reason. -/
theorem State.notAdmit_replied (hJ : s.job? j = some J) (hlive : ¬ (J.phase = .ended ∨ J.phase = .delayed)) (hrel : J.released = 0)
    (r : Nat) : Replied j St.notAdmitted r [] s.hostMem s (s.notAdmit j r) := by
  obtain ⟨regs, n, hu⟩ := s.refused_eq r
  unfold State.notAdmit
  rw [hJ, hu]
  dsimp only
  have hend := State.endJob_ended (s := { s with regs := regs, chart := { s.chart with noRoute := n } }) hJ hlive hrel St.notAdmitted r []
  split
  · obtain ⟨K, hK, hrest⟩ := hend.job
    exact ⟨⟨_, State.modJob_job_some hK fun J => { J with acted := true }, hrest⟩, hend.hostMem, hend.auth, hend.pins, hend.time, hend.pending⟩
  · exact ⟨hend.job, hend.hostMem, hend.auth, hend.pins, hend.time, hend.pending⟩

theorem exec_policyUpdate_first (hturn : ServiceTurn s j J 0x9100) : exec (.policyUpdate j now) s =
    stepRow 0x9100 j (fun s J =>
      match s.serviceAsk 4 200 (allVerifies (policySigAt J.input) ((policyBlocks J.input).getD [])) with
      | .refuse r => s.notAdmit j r
      | .place steps units => s.acceptJob j steps units 4 0 true) (s.at_ now) :=
  workRow_turn (s := s.at_ now) hturn _ fun s J => s.policyIn j J

theorem completes_policyUpdate_refused (hturn : ServiceTurn s j J 0x9100) (hchart : s.chartStops = false) {r : Nat}
    (hask : (s.at_ now).serviceAsk 4 200 (allVerifies (policySigAt J.input) ((policyBlocks J.input).getD [])) = .refuse r) :
    Completes (.policyUpdate j now) s fun t => Answered t j St.notAdmitted r ∧ t.auth = s.auth ∧ t.pins = s.pins := by
  have hx := (exec_policyUpdate_first (now := now) hturn).trans (stepRow_turn (s := s.at_ now) hturn hchart _)
  rw [hask] at hx
  obtain ⟨hJ, -, hphase, -, -, hrel, -⟩ := hturn
  have hend := State.notAdmit_replied (s := s.at_ now) hJ (by simp [hphase]) hrel r
  exact .of_done hx hend.pending ⟨hend.answered, hend.auth, hend.pins⟩

theorem completes_policyUpdate_placed (hturn : ServiceTurn s j J 0x9100) (hchart : s.chartStops = false) {steps : List JobStep}
    {units : List (Nat × Nat × Nat)}
    (hask : (s.at_ now).serviceAsk 4 200 (allVerifies (policySigAt J.input) ((policyBlocks J.input).getD [])) = .place steps units) :
    Completes (.policyUpdate j now) s fun t => t.auth = s.auth ∧ t.pins = s.pins ∧ ∃ K, t.job? j = some K ∧ K.phase = .placed ∧
      K.steps = steps ∧ K.units = units ∧ K.cls = 4 ∧ K.accepted = some (s.at_ now).time.elapsed := by
  have hx := (exec_policyUpdate_first (now := now) hturn).trans (stepRow_turn (s := s.at_ now) hturn hchart _)
  rw [hask] at hx
  have hjob : ((s.at_ now).acceptJob j steps units 4 0 true).job? j = some ((s.at_ now).granted steps units 4 0 true J) :=
    State.modJob_job_some (s := s.at_ now) hturn.1 ((s.at_ now).granted steps units 4 0 true)
  obtain ⟨jobs, regs, a, haccept⟩ := (s.at_ now).acceptJob_eq j steps units 4 0 true
  dsimp only at hx
  rw [haccept] at hx hjob
  exact .of_done hx rfl ⟨rfl, rfl, _, hjob, rfl, rfl, rfl, rfl, rfl⟩

section
variable (hJ : s.job? j = some J) (hop : J.opcode = 0x9100) (hphase : J.phase = .placed) (hsteps : J.stepsEnded = true)
  (hrel : J.released = 0)
include hJ hop hphase hsteps hrel

omit hrel in
theorem exec_policyUpdate_last : exec (.policyUpdate j now) s = done s ((s.at_ now).policyIn j J) := by
  have hx : exec (.policyUpdate j now) s = execPolicyUpdate j now s := rfl
  unfold execPolicyUpdate workRow at hx
  rw [show (s.at_ now).job? j = some J from hJ] at hx
  dsimp only at hx
  rw [if_pos ⟨hop, hphase, hsteps⟩] at hx
  exact hx

theorem completes_policyUpdate_denied {r : Nat} (hr : s.policyRefused J.input = some r) : Completes (.policyUpdate j now) s fun t =>
    Answered t j St.policyDeny r ∧ t.auth = s.auth ∧ t.pins = s.pins := by
  have hx := exec_policyUpdate_last (now := now) hJ hop hphase hsteps
  unfold State.policyIn at hx
  dsimp only at hx
  rw [show (s.at_ now).policyRefused J.input = some r from hr] at hx
  dsimp only at hx
  have hlog := (s.at_ now).logEvent_reports 3 0x0034 (policyBody J.input)
  have hend := State.endJob_ended ((State.job?_congr hlog.jobs j).trans hJ) (by simp [hphase]) hrel St.policyDeny r []
  exact .of_done hx (hend.pending.trans (congrArg State.pending hlog.eq :))
    ⟨hend.answered, hend.auth.trans (congrArg State.auth hlog.eq :), hend.pins.trans hlog.pins⟩

theorem completes_policyUpdate_pending (hr : s.policyRefused J.input = none) : Completes (.policyUpdate j now) s fun t =>
    Answered t j St.ok 0 ∧ t.auth = { s.auth with next := some (parsePolicy J.input) } ∧ t.pins = s.pins ∧
    ∃ K, t.job? j = some K ∧ K.ret = le 8 (if (parsePolicy J.input).activate ≤ (s.at_ now).helmTime then (s.at_ now).tickTime
      else (parsePolicy J.input).activate) := by
  have hx := exec_policyUpdate_last (now := now) hJ hop hphase hsteps
  unfold State.policyIn at hx
  dsimp only at hx
  rw [show (s.at_ now).policyRefused J.input = none from hr] at hx
  dsimp only at hx
  have hend := State.endJob_ended (s := { s.at_ now with auth := { s.auth with next := some (parsePolicy J.input) } }) hJ
    (by simp [hphase]) hrel St.ok 0 (le 8 (if (parsePolicy J.input).activate ≤ (s.at_ now).helmTime then (s.at_ now).tickTime
      else (parsePolicy J.input).activate))
  obtain ⟨K, hK, -, -, -, hret, -⟩ := hend.job
  exact .of_done hx hend.pending ⟨hend.answered, hend.auth, hend.pins, K, hK, hret⟩

end

/-- A policy that passes every check is loaded in a life cycle that takes policies, and newer than the floor. -/
theorem policyRefused_none {b : Bytes} (h : s.policyRefused b = none) :
    (s.lc.state = .owned ∨ s.lc.state = .deployed) ∧ s.auth.floor < leAt b 8 4 := by
  unfold State.policyRefused at h
  simp only [firstFail] at h
  split at h
  next hlc =>
    split at h
    · split at h
      next hfloor => exact ⟨by simpa using hlc, of_decide_eq_true hfloor⟩
      · cases h
    · cases h
  · cases h

theorem policyRefused_lc {b : Bytes} {r : Nat} (h : s.policyRefused b = some r) (howned : s.lc.state ≠ .owned)
    (hdeployed : s.lc.state ≠ .deployed) : r = 0x0230 := by
  unfold State.policyRefused at h
  simp only [firstFail] at h
  rw [if_neg (by simp [howned, hdeployed])] at h
  exact (Option.some.inj h).symm

end

theorem State.permitBlock_length (s : State) : s.permitBlock.length = 128 := by
  unfold State.permitBlock
  simp [List.length_flatMap, le_length]

/-! ### The queries (R318, R320) -/

section
variable {s : State} {j : Nat} {J : Job}

theorem exec_queryOrder_found (hturn : ServiceTurn s j J 0x9200) {d : Decision}
    (hd : s.auth.decisions.find? (fun d => d.orderId == J.param.toNat) = some d) :
    exec (.queryOrder j) s = done s (s.servedBlock j J (s.decisionBlock d) 0) := by
  have hx : exec (.queryOrder j) s = execQueryOrder j s := rfl
  unfold execQueryOrder at hx
  rw [serviceRow_turn hturn, hd] at hx
  exact hx

theorem exec_queryOrder_none (hturn : ServiceTurn s j J 0x9200)
    (hd : s.auth.decisions.find? (fun d => d.orderId == J.param.toNat) = none) :
    exec (.queryOrder j) s = done s (s.servedBlock j J (le 8 J.param.toNat ++ zeros 88) 0) := by
  have hx : exec (.queryOrder j) s = execQueryOrder j s := rfl
  unfold execQueryOrder at hx
  rw [serviceRow_turn hturn, hd] at hx
  exact hx

theorem exec_queryPolicy (hturn : ServiceTurn s j J 0x9400) {P : Policy}
    (hP : (if bitOf J.param.toNat 0 then s.auth.next else s.auth.running) = some P) :
    exec (.queryPolicy j) s = done s (s.servedBlock j J P.image P.image.length) := by
  have hx : exec (.queryPolicy j) s = execQueryPolicy j s := rfl
  unfold execQueryPolicy at hx
  rw [serviceRow_turn hturn, hP] at hx
  exact hx

theorem exec_permitStatus (hturn : ServiceTurn s j J 0x9500) :
    exec (.permitStatus j) s = done s (s.servedBlock j J s.permitBlock (s.pins.permit.toNat + 256 * s.pins.permitFb.toNat)) :=
  serviceRow_turn hturn fun s J => s.servedBlock j J s.permitBlock (s.pins.permit.toNat + 256 * s.pins.permitFb.toNat)

end

/-! ### Refusals of an arriving order -/

section
variable {s : State} {j now : Nat} {J : Job} (hregion : s.memOf J = none) (hdst : J.dst = 0 ∨ s.writeFault J.dst 96 = none)
include hregion hdst

/-- An order that fails one of the lines 1 to 6. -/
theorem completes_line {c : Instr} {op : Nat} {timeSet : Bool} (hturn : ServiceTurn s j J op)
    (hx : exec c s = done s ((s.at_ now).orderArrives (some j) none J.input timeSet)) {r rule ver : Nat} (hr : r ≠ 0)
    (hlines : (s.at_ now).linesOneToSix J.input timeSet = .error (r, rule, ver)) : Completes c s fun t =>
      OrderAnswered s t j J J.input now (refuseStatus r) r rule ver ∧
      t.auth = { s.auth with decisions := t.auth.decisions } ∧ t.pins = s.pins ∧ t.time = s.time.to now :=
  completes_refused (s := s) (now := now) (v := s.at_ now) (addressed_of_turn hturn hregion hdst) rfl rfl rfl rfl rfl rfl hr
    (hx.trans (congrArg (done s) (orderArrives_error hlines)))

section
variable (hturn : ServiceTurn s j J 0x9000) (hchart : s.chartStops = false)
include hturn hchart

theorem submit_line {r rule ver : Nat} (hr : r ≠ 0) (hlines : (s.at_ now).linesOneToSix J.input false = .error (r, rule, ver)) :
    Completes (.submitOrder j now) s fun t => OrderAnswered s t j J J.input now (refuseStatus r) r rule ver ∧ t.pins = s.pins ∧
      t.auth.orders = s.auth.orders ∧ t.auth.seqs = s.auth.seqs ∧ t.auth.buckets = s.auth.buckets := by
  obtain ⟨t, hx, hans, hauth, hpins, -⟩ := completes_line hregion hdst hturn (exec_submitOrder hturn hchart) hr hlines
  exact ⟨t, hx, hans, hpins, (congrArg Authority.orders hauth :), (congrArg Authority.seqs hauth :), (congrArg Authority.buckets hauth :)⟩

variable {P : Policy} {R : Rule} (hlines : (s.at_ now).linesOneToSix J.input false = .ok (P, some R))
include hlines

theorem submit_logFull (hlog : s.logFrozen 3 = true ∨ s.log.nearFull = true) : Completes (.submitOrder j now) s fun t =>
    OrderAnswered s t j J J.input now St.notAdmitted 0x0207 R.id P.version ∧ t.pins = s.pins ∧
      t.auth.orders = s.auth.orders ∧ t.auth.seqs = s.auth.seqs ∧ t.auth.buckets = s.auth.buckets := by
  obtain ⟨t, hx, hans, hauth, hpins, -⟩ := completes_refused (s := s) (now := now) (v := s.at_ now) (addressed_of_turn hturn hregion hdst) rfl rfl rfl rfl rfl
    rfl (reason := 0x0207) (by decide)
    ((exec_submitOrder hturn hchart).trans (congrArg (done s) (orderArrives_logFull hlines hlog)))
  exact ⟨t, hx, hans, hpins, (congrArg Authority.orders hauth :), (congrArg Authority.seqs hauth :), (congrArg Authority.buckets hauth :)⟩

theorem submit_refused (hlog : ¬ (s.logFrozen 3 = true ∨ s.log.nearFull = true)) {r : Nat}
    (hask : (s.at_ now).serviceAsk R.cls (s.at_ now).orderPost ((s.at_ now).orderPlan J.input P (some R)) = .refuse r) :
    Completes (.submitOrder j now) s fun t =>
      OrderAnswered s t j J J.input now St.notAdmitted 0x0207 R.id P.version ∧ t.pins = s.pins ∧
        t.auth.orders = s.auth.orders ∧ t.auth.seqs = s.auth.seqs ∧ t.auth.buckets = s.auth.buckets := by
  have hx := (exec_submitOrder hturn hchart).trans (congrArg (done s) (orderArrives_refuse (job := some j) (console := none) hlines hlog hask))
  obtain ⟨regs, n, hu⟩ := (s.at_ now).refused_eq r
  rw [hu] at hx
  obtain ⟨t, hx, hans, hauth, hpins, -⟩ := completes_refused (s := s) (now := now) (v := { s.at_ now with regs := regs, chart := { s.chart with noRoute := n } })
    ((addressed_of_turn (now := now) hturn hregion hdst).congr rfl rfl rfl) rfl rfl rfl rfl rfl rfl (reason := 0x0207) (by decide) hx
  exact ⟨t, hx, hans, hpins, (congrArg Authority.orders hauth :), (congrArg Authority.seqs hauth :), (congrArg Authority.buckets hauth :)⟩

end

end

theorem log_open {s : State} {now : Nat} (hfrozen : s.logFrozen 3 = false) (hfull : s.log.nearFull = false) :
    ¬ ((s.at_ now).logFrozen 3 = true ∨ (s.at_ now).log.nearFull = true) := by
  rw [show (s.at_ now).logFrozen 3 = false from hfrozen, show (s.at_ now).log.nearFull = false from hfull]
  simp

/-- The decision on an order whose job waits in the background. -/
theorem decisionTurn_of {s : State} {o j : Nat} {x : Order} {J W : Job} (horder : tget s.auth.orders o = some x) (hjob : x.job = some j)
    (hconsole : x.console = none) (hJ : s.job? j = some J) (hphase : J.phase = .background) (hrel : J.released = 0)
    (hW : s.job? x.work = some W) (hWphase : W.phase = .placed) (hWrel : W.released = 0) (hne : x.work ≠ j) (hregion : s.memOf J = none)
    (hsafe : s.faults.safe.on = false) (hdst : J.dst = 0 ∨ s.writeFault J.dst 96 = none) : DecisionTurn s o j x J W :=
  ⟨horder, hjob, hconsole, ⟨hJ, by simp [hphase], hrel, hregion, hdst⟩, hW, hWphase, hWrel, hne, hsafe⟩

/-- A refusal by one of the lines 8 to 18 leaves the permit lines and the tables, and takes the order and its steps away. -/
theorem DecisionTurn.line {s : State} {o j now : Nat} {x : Order} {J W : Job} (h : DecisionTurn s o j x J W)
    (hverify : s.verifiesDone x = true) {R : Rule} (hrule : x.rule = some R) {r : Nat} (hr : r ≠ 0)
    (hdecide : (s.at_ now).decideOrder x R = .error r) : Completes (.decisionCommit o false now) s fun t =>
      OrderAnswered s t j J x.envelope now (refuseStatus r) r R.id x.policy.version ∧ t.pins = s.pins ∧
      t.auth.permits = s.auth.permits ∧ t.auth.seqs = s.auth.seqs ∧ t.auth.buckets = s.auth.buckets ∧ tget t.auth.orders o = none ∧
      t.job? x.work = none := by
  obtain ⟨t, hx, hans, hauth, hpins, -, hwork⟩ := h.denied hverify hrule hr hdecide
  refine ⟨t, hx, hans, hpins, (congrArg Authority.permits hauth :), (congrArg Authority.seqs hauth :), (congrArg Authority.buckets hauth :),
    ?_, hwork⟩
  rw [show t.auth.orders = tdel s.auth.orders o from (congrArg Authority.orders hauth :), tget_tdel, if_pos rfl]

end Sys2Proof.Machine

open Sys2Proof.Machine

/-- Settles O38. -/
theorem ordersAreCheckedDecidedAndPermitted : Obligations.OrdersAreCheckedDecidedAndPermitted := by
  unfold Obligations.OrdersAreCheckedDecidedAndPermitted
  refine ⟨?_, ?_, ?_, ?_⟩
  · intro s j now J u env hregion hdst
    refine ⟨fun hchart => ⟨fun hturn => stepRow_stopped (s := u) hturn hchart fun s J => s.orderArrives (some j) none J.input false,
        fun hturn => stepRow_stopped (s := u) hturn hchart fun s J => s.orderArrives (some j) none J.input true⟩,
      fun hturn hchart => ?_, fun hturn hchart => ?_⟩
    · intro refused
      refine ⟨fun hform => submit_line hregion hdst hturn hchart (by decide) (lines_malformed hform),
        fun hform hrun => submit_line hregion hdst hturn hchart (by decide) (lines_no_policy (s := u) hform hrun),
        fun P hform hrun => ⟨fun hknown => submit_line hregion hdst hturn hchart (by decide) (lines_unknown (s := u) hform hrun hknown),
          fun hknown hnone => submit_line hregion hdst hturn hchart (by decide) (lines_no_rule (s := u) hform hrun hknown hnone),
          fun R hknown hfind => ?_⟩⟩
      have hlines := lines_rule (s := u) hform hrun hknown hfind
      refine ⟨fun hdeny => submit_line hregion hdst hturn hchart (by decide) (hlines.trans (if_pos hdeny)), fun hdeny hlog => ?_,
        fun hdeny r hask => ?_, fun hdeny hfrozen hfull hj steps units hask => ?_⟩
      · exact submit_logFull hregion hdst hturn hchart (hlines.trans (if_neg (by simp [hdeny]))) hlog
      · have hok := hlines.trans (if_neg (by simp [hdeny]))
        by_cases hlog : s.logFrozen 3 = true ∨ s.log.nearFull = true
        · exact submit_logFull hregion hdst hturn hchart hok hlog
        · exact submit_refused hregion hdst hturn hchart hok hlog hask
      · have hok := hlines.trans (if_neg (by simp [hdeny]))
        have hx := (exec_submitOrder hturn hchart).trans (congrArg (done s) (orderArrives_place (j := j) hok (log_open hfrozen hfull) hask))
        obtain ⟨t, hx, hjob, hwork, horder, hdecisions, hmem, hpins, hlog, -⟩ := completes_taken hturn.1 hj hx
        exact ⟨t, hx, hjob, hwork, ⟨_, horder, rfl, rfl, rfl, rfl, rfl, rfl⟩, hdecisions, hmem, hpins, hlog⟩
    · refine ⟨fun hform => ?_, fun hform hrun => ?_, fun P steps units hform hrun hfrozen hfull hj hask => ?_⟩
      · obtain ⟨t, hx, hans, -, -, htime⟩ :=
          completes_line hregion hdst hturn (exec_timeSetOrder hturn hchart) (by decide) (lines_malformed hform)
        exact ⟨t, hx, hans, htime⟩
      · obtain ⟨t, hx, hans, -, -, htime⟩ :=
          completes_line hregion hdst hturn (exec_timeSetOrder hturn hchart) (by decide) (lines_no_policy (s := u) hform hrun)
        exact ⟨t, hx, hans, htime⟩
      · have hx := (exec_timeSetOrder hturn hchart).trans
          (congrArg (done s) (orderArrives_place (j := j) (lines_timeSet (s := u) hform hrun) (log_open hfrozen hfull) hask))
        obtain ⟨t, hx, -, -, horder, -, -, -, -, htime⟩ := completes_taken hturn.1 hj hx
        exact ⟨t, hx, htime, _, horder, rfl, rfl, rfl, rfl⟩
  · intro s o j now x J W u env horder hjob hconsole hJ hphase hrel hW hWphase hWrel hne hregion hsafe hdst
    have h : DecisionTurn s o j x J W :=
      decisionTurn_of horder hjob hconsole hJ hphase hrel hW hWphase hWrel hne hregion hsafe hdst
    refine ⟨h.waits, fun hverify => ⟨?_, fun hrule => ⟨fun r hdecide => h.timeDenied hverify hrule hdecide, fun a hdecide => ?_⟩⟩⟩
    · intro R hrule refused T
      refine ⟨fun htrust => ?_, fun htrust hearly => ?_, fun htrust hearly hlate => ?_,
        fun htrust hearly hlate => ⟨fun hlong => ?_, fun hvalid e he hused => ?_⟩, fun a hdecide hforward => ?_⟩
      · exact h.line hverify hrule (by decide) (decide_untrusted (s := u) htrust)
      · exact h.line hverify hrule (by decide) (decide_early (s := u) htrust hearly)
      · exact h.line hverify hrule (by decide) (decide_late (s := u) htrust hearly hlate)
      · exact h.line hverify hrule (by decide) (decide_long (s := u) htrust hearly hlate hlong)
      · exact h.line hverify hrule (by decide) (decide_used (s := u) htrust hearly hlate hvalid he hused)
      · obtain ⟨t, hx, hans, hreleased⟩ := h.accepts hverify hrule hforward hdecide
        obtain ⟨l, hroom, hseqs⟩ := decide_ok hdecide
        refine ⟨t, hx, hans, hreleased.pins, seqEntry_same (hreleased.seqs.trans hseqs), fun hspace k hk => ?_, hreleased.raised,
          hreleased.others, ?_⟩
        · have hl : some l = some s.auth.seqs := hroom.symm.trans (seqRoom_of_space (s := u) hspace)
          cases hl
          exact seqEntry_other (hreleased.seqs.trans hseqs) hk
        · rw [hreleased.orders]
          exact (tget_tdel _ _ _).trans (if_pos rfl)
    · obtain ⟨t, hx, hans, htime, hpins⟩ := h.timeAccepts hverify hrule hdecide
      obtain ⟨htrusted, haccepted, hlater, hearlier⟩ := (s.time.to now).set_fields (envNewTime env)
      rw [← htime] at htrusted haccepted hlater hearlier
      exact ⟨t, hx, hans, htrusted, haccepted, hlater, hearlier, hpins⟩
  · intro s n now p hn hp
    exact ⟨exec_permitEnd_due hn hp, exec_permitEnd_early hn hp⟩
  · intro s j now J hregion
    refine ⟨fun hJ hop hphase hsteps hrel hr => ?_, fun d hturn hd hdst => ?_, fun P hturn hparam hrun hdst => ?_, fun hturn hdst => ?_⟩
    · obtain ⟨t, hx, hans, hauth, -⟩ := completes_policyUpdate_pending (now := now) hJ hop hphase hsteps hrel hr
      exact ⟨t, hx, hans, (congrArg Authority.next hauth :)⟩
    · obtain ⟨t, hx, hans, hmem, -⟩ := completes_query hregion hturn (exec_queryOrder_found hturn hd) hdst
      exact ⟨t, hx, hans, hmem⟩
    · obtain ⟨t, hx, hans, hmem, -⟩ := completes_query hregion hturn (exec_queryPolicy hturn (by simp [hparam, bitOf, hrun])) hdst
      exact ⟨t, hx, hans, hmem⟩
    · obtain ⟨t, hx, hans, hmem, -⟩ := completes_query hregion hturn (exec_permitStatus hturn) (s.permitBlock_length.symm ▸ hdst)
      exact ⟨t, hx, hans, hmem⟩

/-- Settles O39. -/
theorem policiesPendAndQueriesAnswer : Obligations.PoliciesPendAndQueriesAnswer := by
  unfold Obligations.PoliciesPendAndQueriesAnswer
  intro s j now J hregion
  refine ⟨fun hturn => ?_, fun hJ hop hphase hsteps hrel => ?_, ?_, ?_, ?_, fun n p hn hp hdue => ?_⟩
  · intro u ask
    refine ⟨fun hchart => (exec_policyUpdate_first hturn).trans (stepRow_stopped (s := u) hturn hchart _), fun hchart => ⟨fun r hask => ?_,
      fun steps units hask => ?_⟩⟩
    · exact completes_policyUpdate_refused hturn hchart hask
    · exact completes_policyUpdate_placed hturn hchart hask
  · intro u
    refine ⟨fun r hr => ?_, fun hr => ?_⟩
    · obtain ⟨t, hx, hans, hauth, hpins⟩ := completes_policyUpdate_denied (now := now) hJ hop hphase hsteps hrel hr
      exact ⟨t, hx, hans, hauth, hpins, policyRefused_lc hr⟩
    · obtain ⟨t, hx, hans, hauth, hpins, hret⟩ := completes_policyUpdate_pending (now := now) hJ hop hphase hsteps hrel hr
      exact ⟨t, hx, hans, hauth, hpins, hret, policyRefused_none hr⟩
  · exact ⟨fun hturn => ⟨fun d hd => completes_query hregion hturn (exec_queryOrder_found hturn hd),
        fun hd => completes_query hregion hturn (exec_queryOrder_none hturn hd)⟩,
      fun hturn P hP => completes_query hregion hturn (exec_queryPolicy hturn hP),
      fun hturn => ⟨s.permitBlock_length, completes_query hregion hturn (exec_permitStatus hturn)⟩⟩
  · intro u hchart hfrozen hfull hj P steps units hrun
    refine ⟨fun R hturn hform hknown hfind hdeny hask => ?_, fun hturn hform hask => ?_⟩
    · have hlines := (lines_rule (s := u) hform hrun hknown hfind).trans (if_neg (by simp [hdeny]))
      obtain ⟨t, hx, -, -, horder, -⟩ := completes_taken hturn.1 hj ((exec_submitOrder hturn hchart).trans
        (congrArg (done s) (orderArrives_place (j := j) hlines (log_open hfrozen hfull) hask)))
      exact ⟨t, hx, _, horder, rfl, rfl, rfl⟩
    · obtain ⟨t, hx, -, -, horder, -⟩ := completes_taken hturn.1 hj ((exec_timeSetOrder hturn hchart).trans
        (congrArg (done s) (orderArrives_place (j := j) (lines_timeSet (s := u) hform hrun) (log_open hfrozen hfull) hask)))
      exact ⟨t, hx, _, horder, rfl, rfl, rfl⟩
  · intro o x W R a u horder hjob hconsole hJ hphase hrel hW hWphase hWrel hne hsafe hdst hverify hrule hforward hdecide
    have h : DecisionTurn s o j x J W :=
      decisionTurn_of horder hjob hconsole hJ hphase hrel hW hWphase hWrel hne hregion hsafe (.inl hdst)
    obtain ⟨t, hx, -, hreleased⟩ := h.accepts (now := now) hverify hrule hforward hdecide
    refine ⟨t, hx, hreleased.pins, ?_⟩
    rw [hreleased.orders]
    exact (tget_tdel _ _ _).trans (if_pos rfl)
  · exact ⟨_, exec_permitEnd_due hn hp hdue, rfl, (tget_tdel _ _ _).trans (if_pos rfl)⟩

end

section
/-! PROOF. Partners: what a command on one partner leaves of the others, messages, and the end of a session
(14_partners_ports_time.md R334-R344). -/

namespace Sys2Proof.Machine

theorem State.partner?_congr {s t : State} (h : t.partners = s.partners) (q : Nat) : t.partner? q = s.partner? q := by
  rw [State.partner?, h, ← State.partner?]

/-! ### Messages (R340) -/

theorem State.egress_eq (s : State) (P : Partner) (env : Bytes) : ∃ o ip, s.egress P env =
    { s with outbox := o, partners := { s.partners with ipId := ip } } := by
  unfold State.egress State.emit
  dsimp only
  split
  · split
    · exact ⟨_, _, rfl⟩
    · exact ⟨_, s.partners.ipId, rfl⟩
  · exact ⟨s.outbox, s.partners.ipId, rfl⟩

/-- Frames that go out change the output and the IP identification. -/
theorem State.egressAll_eq (s : State) (P : Partner) (l : List Bytes) : ∃ o ip, s.egressAll P l =
    { s with outbox := o, partners := { s.partners with ipId := ip } } := by
  unfold State.egressAll
  induction l generalizing s with
  | nil => exact ⟨_, _, rfl⟩
  | cons e l ih =>
    obtain ⟨o, ip, h⟩ := s.egress_eq P e
    obtain ⟨o', ip', h'⟩ := ih (s.egress P e)
    rw [h] at h'
    refine ⟨o', ip', ?_⟩
    rw [List.foldl_cons, h, h']

/-- A change of partner `p`: messages go out, and of the partners it alone changes. -/
structure OnPartner (p : Nat) (s t : State) : Prop where
  eq : t = { s with outbox := t.outbox, partners := t.partners }
  other : ∀ q, q ≠ p → t.partner? q = s.partner? q

namespace OnPartner
variable {p : Nat} {s t u : State}

theorem refl (p : Nat) (s : State) : OnPartner p s s := ⟨rfl, fun _ _ => rfl⟩

theorem trans (hst : OnPartner p s t) (htu : OnPartner p t u) : OnPartner p s u where
  eq := by
    rw [htu.eq, hst.eq]
  other q hq := (htu.other q hq).trans (hst.other q hq)

theorem modPartner (s : State) (p : Nat) (f : Partner → Partner) : OnPartner p s (s.modPartner p f) :=
  ⟨rfl, fun q hq => (s.modPartner_partner p q f).trans (if_neg hq)⟩

theorem egressAll (s : State) (p : Nat) (P : Partner) (l : List Bytes) : OnPartner p s (s.egressAll P l) := by
  obtain ⟨o, ip, h⟩ := s.egressAll_eq P l
  rw [h]
  exact ⟨rfl, fun _ _ => rfl⟩

theorem sendMessage (s : State) (p type : Nat) (body : Bytes) : OnPartner p s (s.sendMessage p type body) := by
  unfold State.sendMessage
  split
  · exact .refl p s
  · split
    · exact .refl p s
    · exact (egressAll s p _ _).trans (modPartner _ p _)

theorem jobs (h : OnPartner p s t) : t.jobs = s.jobs := (congrArg State.jobs h.eq :)
theorem pending (h : OnPartner p s t) : t.pending = s.pending := (congrArg State.pending h.eq :)

end OnPartner

section
variable {s : State} {p : Nat} {P : Partner} (hP : s.partner? p = some P)
include hP

theorem State.modPartner_partner_some (f : Partner → Partner) : (s.modPartner p f).partner? p = some (f P) := by
  rw [State.modPartner_partner, if_pos rfl, hP]
  rfl

/-- The session of a partner after a message of `n` frames. -/
def Epoch.sent (E : Epoch) (n : Nat) : Epoch :=
  { E with nextSeq := E.nextSeq + n, nextMsg := (E.nextMsg + 1) % 2 ^ 32, frames := max E.frames (E.nextSeq + n - 1) }

omit hP in
theorem sealedFrames_length (P : Partner) (m type epoch seq msg : Nat) (key iv body : Bytes) :
    (sealedFrames P m type epoch seq msg key iv body).length = (fragments m body).length := by
  simp [sealedFrames]

/-- A message takes as many SEQs as it has fragments, and one MSG_ID. -/
theorem State.sendMessage_session {E : Epoch} (hE : P.session = some E) (type : Nat) (body : Bytes) : ∃ Q,
    (s.sendMessage p type body).partner? p = some Q ∧
    Q = { P with used := s.time.elapsed, session := some (E.sent (fragments (fragMax (s.port P.port)) body).length) } := by
  unfold State.sendMessage
  rw [hP]
  dsimp only
  rw [hE]
  dsimp only
  rw [sealedFrames_length]
  obtain ⟨o, ip, h⟩ := s.egressAll_eq P (sealedFrames P (fragMax (s.port P.port)) type E.num E.nextSeq E.nextMsg E.keyOut E.ivOut body)
  rw [h]
  exact ⟨_, State.modPartner_partner_some (s := { s with outbox := o, partners := { s.partners with ipId := ip } }) hP _, rfl⟩

/-- A message leaves the partner registered. -/
theorem State.sendMessage_some (type : Nat) (body : Bytes) : ∃ Q, (s.sendMessage p type body).partner? p = some Q ∧ Q.hs = P.hs ∧
    Q.armed = P.armed := by
  cases hE : P.session with
  | some E =>
    obtain ⟨Q, hQ, heq⟩ := State.sendMessage_session hP hE type body
    exact ⟨Q, hQ, heq ▸ rfl, heq ▸ rfl⟩
  | none =>
    refine ⟨P, ?_, rfl, rfl⟩
    unfold State.sendMessage
    rw [hP]
    dsimp only
    rw [hE]
    exact hP

/-! ### The context of a partner (R344, R345) -/

theorem State.touch_ready (hctx : CtxReady P) : s.touch p = .ready := by
  unfold State.touch
  rw [hP]
  dsimp only
  rcases hctx with hnone | ⟨hslot, hmoving⟩
  · exact if_pos (by simp [hnone])
  · rw [hmoving, hslot]
    split
    · rfl
    · rfl

theorem State.withContext_ready (hctx : CtxReady P) (j : Nat) (f : State → State) : s.withContext j p f = f s := by
  unfold State.withContext
  rw [State.touch_ready hP hctx]

theorem State.onContext_ready (hctx : CtxReady P) (j : Nat) (f : State → State) : s.onContext j p f = f s := by
  unfold State.onContext
  rw [State.touch_ready hP hctx]

/-! ### The end of a session (R342) -/

/-- A session is closed with a message: its keys and its handshake go, other partners stay, and a job that does not wait for that
handshake keeps its body. -/
theorem State.closePartner_spec {j : Nat} (hwait : ∀ h, P.hs = some h → h.job ≠ some j) :
    (∃ Q, (s.closePartner p).partner? p = some Q ∧ Q.session = none ∧ Q.old = none ∧ Q.hs = none ∧ Q.inSlot = false) ∧
    (∀ q, q ≠ p → (s.closePartner p).partner? q = s.partner? q) ∧
    ((s.closePartner p).job? j).map Job.body = (s.job? j).map Job.body ∧ (s.closePartner p).pending = s.pending := by
  let u := (s.sendMessage p 0x21 []).dropKeys p
  have hsu : OnPartner p s u := (OnPartner.sendMessage s p 0x21 []).trans (.modPartner _ p _)
  obtain ⟨Q, hQ, hhs, -⟩ := State.sendMessage_some hP 0x21 []
  have hu : ∃ R, u.partner? p = some R ∧ R.session = none ∧ R.old = none ∧ R.inSlot = false ∧ R.hs = P.hs :=
    ⟨_, State.modPartner_partner_some hQ fun P => { P with session := none, old := none, inSlot := false, spilled := false, moving := false, reas := none },
      rfl, rfl, rfl, hhs⟩
  obtain ⟨R, hR, hsession, hold, hslot, hRhs⟩ := hu
  have hc : s.closePartner p = u.endHandshake p St.aborted 0 := rfl
  unfold State.endHandshake at hc
  rw [hR] at hc
  cases hh : P.hs with
  | none =>
    rw [show (some R).bind (·.hs) = none from hRhs.trans hh] at hc
    rw [hc]
    exact ⟨⟨R, hR, hsession, hold, hRhs.trans hh, hslot⟩, hsu.other, congrArg (Option.map Job.body) (State.job?_congr hsu.jobs j), hsu.pending⟩
  | some h =>
    rw [show (some R).bind (·.hs) = some h from hRhs.trans hh] at hc
    dsimp only at hc
    let v := u.modPartner p fun P => { P with hs := none }
    have hsv : OnPartner p s v := hsu.trans (.modPartner u p fun P => { P with hs := none })
    have hv := State.modPartner_partner_some hR fun P => { P with hs := none }
    have hvj : (v.job? j).map Job.body = (s.job? j).map Job.body := congrArg (Option.map Job.body) (State.job?_congr hsv.jobs j)
    cases hk : h.job with
    | none =>
      rw [hk] at hc
      rw [hc]
      exact ⟨⟨_, hv, hsession, hold, rfl, hslot⟩, hsv.other, hvj, hsv.pending⟩
    | some k =>
      rw [hk] at hc
      rw [hc]
      have hends := v.endJob_ends (P := (· = k)) rfl St.aborted 0 []
      have hparts : ∀ q, (v.endJob k St.aborted 0).partner? q = v.partner? q := State.partner?_congr hends.partners
      refine ⟨⟨_, (hparts p).trans hv, hsession, hold, rfl, hslot⟩, fun q hq => (hparts q).trans (hsv.other q hq),
        (hends.job j fun hjk => hwait h hh (hk.trans (congrArg some hjk.symm))).trans hvj,
        (congrArg State.pending hends.steady :).trans hsv.pending⟩

end

/-! ### A job that needs no step -/

/-- A job that is served ends with OK, and the partners stay. -/
theorem State.served_spec {s : State} {j : Nat} {K : Job} (J : Job) (hK : s.job? j = some K)
    (hrel : K.released = 0) (result : Nat) (ret : Bytes) : Answered (s.served j J result ret) j St.ok result ∧
      (s.served j J result ret).partners = s.partners ∧ (s.served j J result ret).pending = s.pending := by
  obtain ⟨jobs, regs, a, haccept⟩ := s.acceptJob_eq j [] [] J.cls 0 J.al2
  have hjob : (s.acceptJob j [] [] J.cls 0 J.al2).job? j = some (s.granted [] [] J.cls 0 J.al2 K) :=
    State.modJob_job_some hK (s.granted [] [] J.cls 0 J.al2)
  unfold State.served
  rw [haccept] at hjob ⊢
  have hend := State.endJob_ended hjob (by simp [State.granted]) hrel St.ok result ret
  exact ⟨hend.answered, hend.ends.partners, hend.pending⟩

/-- A job that has only changed in what its end clears is still the job that ran. -/
theorem job_of_body {s : State} {j : Nat} {J : Job} (h : (s.job? j).map Job.body = some J.body) :
    ∃ K, s.job? j = some K ∧ K.phase = J.phase ∧ K.released = J.released := by
  obtain ⟨K, hK, hbody⟩ := Option.map_eq_some_iff.1 h
  exact ⟨K, hK, (congrArg Job.phase hbody :), (congrArg Job.released hbody :)⟩

end Sys2Proof.Machine
end

section
/-! PROOF. Family 0xA: the jobs of partner sessions (14_partners_ports_time.md R334-R344). -/

namespace Sys2Proof.Machine

theorem State.notAdmit_partners (s : State) (j r : Nat) : (s.notAdmit j r).partners = s.partners := by
  obtain ⟨regs, n, hu⟩ := s.refused_eq r
  have hend : ((s.refused r).endJob j St.notAdmitted r).partners = s.partners :=
    (State.endJob_ends (P := (· = j)) (s := s.refused r) rfl St.notAdmitted r []).partners.trans (hu ▸ rfl)
  unfold State.notAdmit
  dsimp only
  split
  · split
    · exact hend
    · exact hend
  · exact hend

section
variable {s : State} {j now : Nat} {J : Job} {op : Nat} (hturn : ServiceTurn s j J op)
include hturn

/-- A command in its turn that ends its job changes no partner. -/
theorem completes_ends {c : Instr} {v : State} {status result : Nat} {ret : Bytes} (hjobs : v.jobs = s.jobs)
    (hparts : v.partners = s.partners) (hpend : v.pending = s.pending) (hx : exec c s = done s (v.endJob j status result ret)) :
    Completes c s fun t => Answered t j status result ∧ t.partners = s.partners := by
  obtain ⟨hJ, -, hphase, -, -, hrel, -⟩ := hturn
  have hend := State.endJob_ended ((State.job?_congr hjobs j).trans hJ) (by simp [hphase]) hrel status result ret
  exact .of_done hx (hend.pending.trans hpend) ⟨hend.answered, hend.ends.partners.trans hparts⟩

/-- A command in its turn that is not admitted changes no partner. -/
theorem completes_notAdmit {c : Instr} {v : State} {r : Nat} (hjobs : v.jobs = s.jobs)
    (hparts : v.partners = s.partners) (hpend : v.pending = s.pending) (hx : exec c s = done s (v.notAdmit j r)) :
    Completes c s fun t => Answered t j St.notAdmitted r ∧ t.partners = s.partners := by
  obtain ⟨hJ, -, hphase, -, -, hrel, -⟩ := hturn
  have hans := State.notAdmit_replied ((State.job?_congr hjobs j).trans hJ) (by simp [hphase]) hrel r
  exact .of_done hx (hans.pending.trans hpend) ⟨hans.answered, (v.notAdmit_partners j r).trans hparts⟩

/-- A command in its turn that serves its job. -/
theorem completes_served {c : Instr} {v : State} {result : Nat} (hv : (v.job? j).map Job.body = (s.job? j).map Job.body)
    (hpend : v.pending = s.pending) (hx : exec c s = done s (v.served j J result)) {Q : State → Prop}
    (hQ : ∀ t, t.partners = v.partners → Q t) : Completes c s fun t => Answered t j St.ok result ∧ Q t := by
  obtain ⟨hJ, -, -, -, -, hrel, -⟩ := hturn
  rw [hJ] at hv
  obtain ⟨K, hK, -, hKrel⟩ := job_of_body hv
  obtain ⟨hans, hparts, hp⟩ := State.served_spec J hK (hKrel.trans hrel) result []
  exact .of_done hx (hp.trans hpend) ⟨hans, hQ _ hparts⟩

end

/-! ### REGISTER_PARTNER (R334, R335) -/

theorem lowestFree_of {used : Nat → Bool} {n lo p : Nat} (hlo : lo ≤ p) (hhi : p < lo + n) (hfree : used p = false)
    (hbelow : ∀ q, lo ≤ q → q < p → used q = true) : lowestFree used n lo = some p := by
  induction n generalizing lo with
  | zero => omega
  | succ n ih =>
    rw [lowestFree]
    by_cases hp : lo = p
    · rw [hp, hfree]
      rfl
    · rw [if_pos (hbelow lo le_rfl (by omega))]
      exact ih (by omega) (by omega) fun q hq => hbelow q (by omega)

section
variable {s : State} {j : Nat} {J : Job} (hturn : ServiceTurn s j J 0xA000)
include hturn

theorem completes_register_malformed (hbad : recordOk J.input J.fn (portsOf s.variant) = false) :
    Completes (.registerPartner j) s fun t => Answered t j St.malformed 0 ∧ t.partners = s.partners := by
  have hx : exec (.registerPartner j) s = execRegisterPartner j s := rfl
  unfold execRegisterPartner at hx
  rw [serviceRow_turn hturn] at hx
  dsimp only at hx
  rw [if_pos (by simp [hbad])] at hx
  exact completes_ends hturn rfl rfl rfl hx

variable (hok : recordOk J.input J.fn (portsOf s.variant) = true)
include hok

theorem completes_register_noKey (hkeys : s.ownKey (partnerOf J.input).owner (partnerOf J.input).key 0x2002 .pub = none ∨
      s.ownKey (partnerOf J.input).owner (partnerOf J.input).localKey 0x2002 .priv = none) :
    Completes (.registerPartner j) s fun t => Answered t j St.keyInvalid 0 ∧ t.partners = s.partners := by
  have hx : exec (.registerPartner j) s = execRegisterPartner j s := rfl
  unfold execRegisterPartner at hx
  rw [serviceRow_turn hturn] at hx
  dsimp only at hx
  rw [if_neg (by simp [hok])] at hx
  split at hx
  next hK hL => rcases hkeys with hkeys | hkeys <;> simp_all
  · exact completes_ends hturn rfl rfl rfl hx

variable {K L : Key} (hK : s.ownKey (partnerOf J.input).owner (partnerOf J.input).key 0x2002 .pub = some K)
  (hL : s.ownKey (partnerOf J.input).owner (partnerOf J.input).localKey 0x2002 .priv = some L)
include hK hL

theorem completes_register_usage (husage : K.usage.getLsbD 1 = false ∨ L.usage.getLsbD 0 = false) :
    Completes (.registerPartner j) s fun t => Answered t j St.policyDeny 0 ∧ t.partners = s.partners := by
  have hx : exec (.registerPartner j) s = execRegisterPartner j s := rfl
  unfold execRegisterPartner at hx
  rw [serviceRow_turn hturn] at hx
  dsimp only at hx
  rw [if_neg (by simp [hok]), hK, hL] at hx
  dsimp only at hx
  rw [if_pos (by simpa using husage)] at hx
  exact completes_ends hturn rfl rfl rfl hx

theorem completes_register {p : Nat} (hKuse : K.usage.getLsbD 1 = true) (hLuse : L.usage.getLsbD 0 = true) (hp : p < 2 ^ 24)
    (hfree : s.partner? p = none) (hbelow : ∀ q < p, (s.partner? q).isSome) (hlen : p ≤ s.partners.table.length) :
    Completes (.registerPartner j) s fun t => Answered t j St.ok p ∧ t.partner? p = some (partnerOf J.input) ∧
      ∀ q, q ≠ p → t.partner? q = s.partner? q := by
  have hlow : s.freePartner = some p := by
    unfold State.freePartner
    rw [lowestFree_of (Nat.zero_le p) (by omega) (by simp [hfree]) fun q _ hq => hbelow q hq]
    exact if_pos hp
  have hx : exec (.registerPartner j) s = execRegisterPartner j s := rfl
  unfold execRegisterPartner at hx
  rw [serviceRow_turn hturn] at hx
  dsimp only at hx
  rw [if_neg (by simp [hok]), hK, hL] at hx
  dsimp only at hx
  rw [if_neg (by simp [hKuse, hLuse]), hlow] at hx
  dsimp only at hx
  refine completes_served (v := { s with partners := { s.partners with table := tput s.partners.table p (partnerOf J.input) } }) hturn rfl rfl hx
    fun t ht => ⟨(State.partner?_congr ht p).trans (tget_tput_same _ _ _), fun q hq => ?_⟩
  exact (State.partner?_congr ht q).trans (tget_tput_ne _ _ _ _ hq)

end

/-! ### Commands of one partner -/

section
variable {s : State} {j now : Nat} {J : Job}

/-- The partner that a job names is registered under that ID. -/
theorem partner_of_partnerFor {P : Partner} (h : s.partnerFor J = some P) : s.partner? J.partner = some P := by
  unfold State.partnerFor at h
  obtain ⟨Q, hQ, hif⟩ := Option.bind_eq_some_iff.1 h
  split at hif
  · cases hif
    exact hQ
  · cases hif

/-! #### Unknown partners (R336) -/

section
variable (hnone : s.partnerFor J = none)
include hnone

theorem unknown_deregister (hturn : ServiceTurn s j J 0xA100) : exec (.deregisterPartner j) s = done s (s.partnerDeny j 0x0304) := by
  have hx : exec (.deregisterPartner j) s = execDeregisterPartner j s := rfl
  unfold execDeregisterPartner at hx
  rw [serviceRow_turn hturn, hnone] at hx
  exact hx

theorem unknown_accept (hturn : ServiceTurn s j J 0xA300) : exec (.soundingAccept j) s = done s (s.partnerDeny j 0x0304) := by
  have hx : exec (.soundingAccept j) s = execSoundingAccept j s := rfl
  unfold execSoundingAccept at hx
  rw [serviceRow_turn hturn, hnone] at hx
  exact hx

theorem unknown_close (hturn : ServiceTurn s j J 0xA700) : exec (.closeSession j) s = done s (s.partnerDeny j 0x0304) := by
  have hx : exec (.closeSession j) s = execCloseSession j s := rfl
  unfold execCloseSession at hx
  rw [serviceRow_turn hturn, hnone] at hx
  exact hx

theorem unknown_send (hturn : ServiceTurn s j J 0xA400) (hchart : s.chartStops = false) :
    exec (.send j) s = done s (s.partnerDeny j 0x0304) := by
  have hx : exec (.send j) s = execSend j s := rfl
  unfold execSend at hx
  rw [workRow_turn hturn, stepRow_turn hturn hchart, hnone] at hx
  exact hx

theorem unknown_sounding (rekey : Bool) : (s.at_ now).sounding j J rekey = (s.at_ now).partnerDeny j 0x0304 := by
  unfold State.sounding
  rw [show (s.at_ now).partnerFor J = none from hnone]

theorem unknown_receive (hturn : ServiceTurn s j J 0xA500) (hone : bitOf J.param.toNat 18 = false) :
    exec (.receive j now) s = done s ((s.at_ now).partnerDeny j 0x0304) := by
  have hx : exec (.receive j now) s = execReceive j now s := rfl
  unfold execReceive at hx
  rw [serviceRow_turn (s := s.at_ now) hturn] at hx
  rw [if_pos ⟨by simp [hone], by rw [show (s.at_ now).partnerFor J = none from hnone]; rfl⟩] at hx
  exact hx

end

theorem exec_initiate (hturn : ServiceTurn s j J 0xA200) (hchart : s.chartStops = false) :
    exec (.soundingInitiate j now) s = done s ((s.at_ now).sounding j J false) :=
  stepRow_turn (s := s.at_ now) hturn hchart fun s J => s.sounding j J false

theorem exec_rekey (hturn : ServiceTurn s j J 0xA600) (hchart : s.chartStops = false) :
    exec (.rekey j now) s = done s ((s.at_ now).sounding j J true) :=
  stepRow_turn (s := s.at_ now) hturn hchart fun s J => s.sounding j J true

section
variable {P : Partner} (hfor : s.partnerFor J = some P)
include hfor

/-! #### DEREGISTER, ACCEPT, CLOSE (R334, R339, R342) -/

theorem exec_deregister (hturn : ServiceTurn s j J 0xA100) (hctx : CtxReady P) : exec (.deregisterPartner j) s = done s
    (((s.closePartner J.partner).modPartner J.partner fun P => { P with scrub := true, armed := false }).served j J 0) := by
  have hx : exec (.deregisterPartner j) s = execDeregisterPartner j s := rfl
  unfold execDeregisterPartner at hx
  rw [serviceRow_turn hturn, hfor] at hx
  dsimp only at hx
  rw [State.withContext_ready (partner_of_partnerFor hfor) hctx] at hx
  exact hx

/-- A partner whose automatic acceptance is armed, or not. -/
def Partner.arm (b : Bool) (P : Partner) : Partner := { P with armed := b }

omit hfor in
/-- A partner whose ID waits for its scrub. -/
def Partner.retire (P : Partner) : Partner := { P with scrub := true, armed := false }

theorem completes_accept (hturn : ServiceTurn s j J 0xA300) : Completes (.soundingAccept j) s fun t => Answered t j St.ok 0 ∧
    t.partner? J.partner = some { P with armed := decide (J.param = 1) } ∧ ∀ q, q ≠ J.partner → t.partner? q = s.partner? q := by
  have hx : exec (.soundingAccept j) s = execSoundingAccept j s := rfl
  unfold execSoundingAccept at hx
  rw [serviceRow_turn hturn, hfor] at hx
  dsimp only at hx
  have harm := State.modPartner_partner_some (partner_of_partnerFor hfor) (Partner.arm (decide (J.param = 1)))
  refine completes_served (v := s.modPartner J.partner (Partner.arm (decide (J.param = 1)))) hturn rfl rfl hx fun t ht =>
    ⟨(State.partner?_congr ht J.partner).trans harm, fun q hq => ?_⟩
  exact (State.partner?_congr ht q).trans ((OnPartner.modPartner s J.partner (Partner.arm (decide (J.param = 1)))).other q hq)

theorem completes_deregister (hturn : ServiceTurn s j J 0xA100) (hctx : CtxReady P) (hwait : ∀ h, P.hs = some h → h.job ≠ some j) :
    Completes (.deregisterPartner j) s fun t => Answered t j St.ok 0 ∧ ∃ Q, t.partner? J.partner = some Q ∧ Q.scrub = true ∧
      Q.armed = false ∧ Q.session = none ∧ Q.old = none ∧ Q.hs = none ∧ ∀ q, q ≠ J.partner → t.partner? q = s.partner? q := by
  obtain ⟨⟨Q, hQ, hsession, hold, hhs, -⟩, hothers, hjob, hpend⟩ := State.closePartner_spec (partner_of_partnerFor hfor) hwait
  have hQ' := State.modPartner_partner_some hQ Partner.retire
  have hother := (OnPartner.modPartner (s.closePartner J.partner) J.partner Partner.retire).other
  have hx : exec (.deregisterPartner j) s = done s (((s.closePartner J.partner).modPartner J.partner Partner.retire).served j J 0) :=
    exec_deregister hfor hturn hctx
  generalize s.closePartner J.partner = u at *
  exact completes_served (v := u.modPartner J.partner Partner.retire) hturn hjob hpend hx fun t ht =>
    ⟨Q.retire, (State.partner?_congr ht J.partner).trans hQ', rfl, rfl, hsession, hold, hhs, fun q hq =>
      (State.partner?_congr ht q).trans ((hother q hq).trans (hothers q hq))⟩

section
variable (hturn : ServiceTurn s j J 0xA700)
include hturn

theorem completes_close_none (hsession : P.session = none) :
    Completes (.closeSession j) s fun t => Answered t j St.policyDeny 0x0301 ∧ t.partners = s.partners := by
  have hx : exec (.closeSession j) s = execCloseSession j s := rfl
  unfold execCloseSession at hx
  rw [serviceRow_turn hturn, hfor] at hx
  dsimp only at hx
  rw [if_pos (by simp [hsession])] at hx
  exact completes_ends hturn rfl rfl rfl hx

theorem completes_close (hsession : P.session.isSome) (hctx : CtxReady P) (hwait : ∀ h, P.hs = some h → h.job ≠ some j) :
    Completes (.closeSession j) s fun t => Answered t j St.ok 0 ∧ ∃ Q, t.partner? J.partner = some Q ∧ Q.session = none ∧
      Q.old = none ∧ Q.hs = none ∧ Q.inSlot = false := by
  have hx : exec (.closeSession j) s = execCloseSession j s := rfl
  unfold execCloseSession at hx
  rw [serviceRow_turn hturn, hfor] at hx
  dsimp only at hx
  rw [if_neg (by simpa using Option.ne_none_iff_isSome.2 hsession), State.withContext_ready (partner_of_partnerFor hfor) hctx] at hx
  obtain ⟨⟨Q, hQ, hrest⟩, -, hjob, hpend⟩ := State.closePartner_spec (partner_of_partnerFor hfor) hwait
  exact completes_served hturn hjob hpend hx fun t ht => ⟨Q, (State.partner?_congr ht J.partner).trans hQ, hrest⟩

end

/-! #### SOUNDING_INITIATE and REKEY (R337, R339) -/

section
variable {rekey : Bool}

theorem sounding_noSession (hrekey : rekey = true) (hsession : P.session = none) :
    (s.at_ now).sounding j J rekey = (s.at_ now).partnerDeny j 0x0301 := by
  unfold State.sounding
  rw [show (s.at_ now).partnerFor J = some P from hfor]
  exact if_pos ⟨hrekey, by simp [hsession]⟩

variable (hready : rekey = false ∨ P.session.isSome)
include hready

omit hfor in
theorem sounding_session : ¬ (rekey = true ∧ P.session.isNone = true) := by
  rcases hready with h | h
  · simp [h]
  · simpa using fun _ => Option.ne_none_iff_isSome.2 h

theorem sounding_role (hrole : s.roleFits P = false) : (s.at_ now).sounding j J rekey = (s.at_ now).partnerDeny j 0x0302 := by
  unfold State.sounding
  rw [show (s.at_ now).partnerFor J = some P from hfor]
  exact (if_neg (sounding_session hready)).trans (if_pos (by rw [show (s.at_ now).roleFits P = false from hrole]; simp))

variable (hrole : s.roleFits P = true)
include hrole

theorem sounding_down (hlink : (s.port P.port).link = false) : (s.at_ now).sounding j J rekey = (s.at_ now).partnerDeny j 0x0303 := by
  unfold State.sounding
  rw [show (s.at_ now).partnerFor J = some P from hfor]
  exact (if_neg (sounding_session hready)).trans ((if_neg (by rw [show (s.at_ now).roleFits P = true from hrole]; simp)).trans
    (if_pos (by rw [show ((s.at_ now).port P.port).link = false from hlink]; simp)))

variable (hlink : (s.port P.port).link = true)
include hlink

omit hfor hready hrole hlink in
/-- The step of a Sounding that its context is ready for. -/
def State.soundingStep (s : State) (j : Nat) (J : Job) (P : Partner) : State :=
  match s.takeStep P.owner s.partners.hsClass J.partner 0 initPlan with
  | .error r => s.notAdmit j r
  | .ok s => ((s.acceptJob j [] [] J.cls 0 J.al2).modJob j fun J => { J with phase := .background }).startSounding J.partner (some j)

theorem sounding_up : (s.at_ now).sounding j J rekey =
    if P.hs.isSome then s.at_ now
    else if 4096 ≤ s.handshakes then (s.at_ now).endJob j St.ctxFull 0x0010
    else (s.at_ now).onContext j J.partner fun s => s.soundingStep j J P := by
  unfold State.sounding
  rw [show (s.at_ now).partnerFor J = some P from hfor]
  exact (if_neg (sounding_session hready)).trans ((if_neg (by rw [show (s.at_ now).roleFits P = true from hrole]; simp)).trans
    (if_neg (by rw [show ((s.at_ now).port P.port).link = true from hlink]; simp)))

theorem sounding_waits (hhs : P.hs.isSome) : (s.at_ now).sounding j J rekey = s.at_ now :=
  (sounding_up hfor hready hrole hlink).trans (if_pos hhs)

variable (hhs : P.hs = none)
include hhs

theorem sounding_full (hfull : 4096 ≤ s.handshakes) : (s.at_ now).sounding j J rekey = (s.at_ now).endJob j St.ctxFull 0x0010 :=
  (sounding_up hfor hready hrole hlink).trans ((if_neg (by simp [hhs])).trans (if_pos hfull))

variable (hroom : s.handshakes < 4096) (hctx : CtxReady P)
include hroom hctx

theorem sounding_refused {r : Nat} (hstep : (s.at_ now).takeStep P.owner s.partners.hsClass J.partner 0 initPlan = .error r) :
    (s.at_ now).sounding j J rekey = (s.at_ now).notAdmit j r := by
  rw [sounding_up hfor hready hrole hlink, if_neg (by simp [hhs]), if_neg (by omega),
    State.onContext_ready (s := s.at_ now) (partner_of_partnerFor hfor) hctx, State.soundingStep,
    show (s.at_ now).takeStep P.owner (s.at_ now).partners.hsClass J.partner 0 initPlan = .error r from hstep]

theorem sounding_starts {v : State} (hstep : (s.at_ now).takeStep P.owner s.partners.hsClass J.partner 0 initPlan = .ok v) :
    (s.at_ now).sounding j J rekey =
      ((v.acceptJob j [] [] J.cls 0 J.al2).modJob j fun J => { J with phase := .background }).startSounding J.partner (some j) := by
  rw [sounding_up hfor hready hrole hlink, if_neg (by simp [hhs]), if_neg (by omega),
    State.onContext_ready (s := s.at_ now) (partner_of_partnerFor hfor) hctx, State.soundingStep,
    show (s.at_ now).takeStep P.owner (s.at_ now).partners.hsClass J.partner 0 initPlan = .ok v from hstep]

end

end

/-! #### A Sounding begins (R337) -/

/-- A job of the device's own is accepted beside the others. -/
theorem startWork_spec (s : State) (W : Job) (steps : List JobStep) (units : List (Nat × Nat × Nat)) :
    (∃ jobs regs a, (s.startWork W steps units).1 = { s with jobs := jobs, regs := regs, nextSeq := s.nextSeq + 1, acceptSeq := a }) ∧
    (∃ K, (s.startWork W steps units).1.job? s.nextSeq = some K ∧ K.phase = .placed ∧ K.fn = W.fn ∧ K.partner = W.partner ∧
      K.src = .internal ∧ K.opcode = W.opcode) ∧
    ∀ k, k ≠ s.nextSeq → (s.startWork W steps units).1.job? k = s.job? k := by
  let w : Job := { W with src := .internal, seq := s.nextSeq, phase := .staged }
  let v : State := { s with jobs := tput s.jobs s.nextSeq w, nextSeq := s.nextSeq + 1 }
  have hvW : v.job? s.nextSeq = some w := tget_tput_same _ _ _
  obtain ⟨jobs, regs, a, heq⟩ := v.acceptJob_eq s.nextSeq steps units W.cls 0 W.al2
  refine ⟨⟨jobs, regs, a, heq⟩, ⟨_, State.modJob_job_some hvW (v.granted steps units W.cls 0 W.al2), rfl, rfl, rfl, rfl, rfl⟩, fun k hk => ?_⟩
  exact ((v.modJob_job s.nextSeq k (v.granted steps units W.cls 0 W.al2)).trans (if_neg hk)).trans (tget_tput_ne s.jobs s.nextSeq k w hk)

/-- A step that is taken is a job of the device's own, of its owner and its partner. -/
theorem takeStep_spec {owner cls p len : Nat} {plan : List StepPlan} {v : State} (h : s.takeStep owner cls p len plan = .ok v) :
    (∃ jobs regs a, v = { s with jobs := jobs, regs := regs, nextSeq := s.nextSeq + 1, acceptSeq := a }) ∧
    (∃ W, v.job? s.nextSeq = some W ∧ W.phase = .placed ∧ W.fn = owner ∧ W.partner = p ∧ W.src = .internal ∧ W.opcode = 0xA200) ∧
    ∀ k, k ≠ s.nextSeq → v.job? k = s.job? k := by
  unfold State.takeStep at h
  split at h
  · cases h
  next steps units _ =>
    cases h
    exact startWork_spec s _ steps units

/-- The handshake that the device begins. -/
def State.newHandshake (s : State) (P : Partner) (job : Option Nat) : Handshake :=
  let kem := pairOf 0x1002 (drbgBytes s.draws 64)
  let x := pairOf 0x5701 (drbgBytes (s.draws + 64) 32)
  { initiator := true, job := job, epoch := (P.lastEpoch + 1) % 256, initMsg := kem.pk ++ x.pk ++ drbgBytes (s.draws + 96) 32,
    secret := kem.sk ++ x.sk, sentAt := s.time.elapsed }

theorem State.newHandshake_length (s : State) (P : Partner) (job : Option Nat) : (s.newHandshake P job).initMsg.length = 1248 := by
  simp [State.newHandshake, pairOf, show pkLen (algOf 0x1002) = 1184 from rfl, show pkLen (algOf 0x5701) = 32 from rfl]

theorem State.startSounding_spec {p : Nat} {P : Partner} (hP : s.partner? p = some P) (job : Option Nat) :
    (∃ o parts, s.startSounding p job = { s with draws := s.draws + 128, outbox := o, partners := parts }) ∧
    (s.startSounding p job).partner? p = some { P with lastEpoch := (P.lastEpoch + 1) % 256, hs := some (s.newHandshake P job) } ∧
    ∀ q, q ≠ p → (s.startSounding p job).partner? q = s.partner? q := by
  let f := fun P' : Partner => { P' with lastEpoch := (P.lastEpoch + 1) % 256, hs := some (s.newHandshake P job) }
  let t := (s.drawn 128).modPartner p f
  have ht := State.modPartner_partner_some (s := s.drawn 128) hP f
  obtain ⟨o, ip, heq⟩ := t.egressAll_eq P (plainFrames P (fragMax (t.port P.port)) 0x01 ((P.lastEpoch + 1) % 256) 0 (s.newHandshake P job).initMsg)
  have hs : s.startSounding p job =
      t.egressAll P (plainFrames P (fragMax (t.port P.port)) 0x01 ((P.lastEpoch + 1) % 256) 0 (s.newHandshake P job).initMsg) := by
    unfold State.startSounding
    rw [hP]
    rfl
  rw [hs, heq]
  exact ⟨⟨_, _, rfl⟩, ht, fun q hq => ((s.drawn 128).modPartner_partner p q f).trans (if_neg hq)⟩

end

end Sys2Proof.Machine
end

section
/-! PROOF. SEND, RECEIVE and the moves of contexts, and the obligation on family 0xA (14_partners_ports_time.md R334-R345). -/

namespace Sys2Proof.Machine

/-! ### SEND (R336, R340, R343) -/

section
variable {s : State} {j now : Nat} {J : Job} {P : Partner}

section
variable (hfor : s.partnerFor J = some P) (hturn : ServiceTurn s j J 0xA400) (hchart : s.chartStops = false)
include hfor hturn hchart

theorem completes_send_none (hsession : P.session = none) :
    Completes (.send j) s fun t => Answered t j St.policyDeny 0x0301 ∧ t.partners = s.partners := by
  have hx : exec (.send j) s = execSend j s := rfl
  unfold execSend at hx
  rw [workRow_turn hturn, stepRow_turn hturn hchart, hfor] at hx
  dsimp only at hx
  rw [if_pos (by simp [hsession])] at hx
  exact completes_ends hturn rfl rfl rfl hx

variable {E : Epoch} (hsession : P.session = some E)
include hsession

theorem completes_send_role (hrole : P.console = true ∨ s.roleFits P = false) :
    Completes (.send j) s fun t => Answered t j St.policyDeny 0x0302 ∧ t.partners = s.partners := by
  have hx : exec (.send j) s = execSend j s := rfl
  unfold execSend at hx
  rw [workRow_turn hturn, stepRow_turn hturn hchart, hfor] at hx
  dsimp only at hx
  rw [if_neg (by simp [hsession]), if_pos (by simpa using hrole)] at hx
  exact completes_ends hturn rfl rfl rfl hx

variable (hconsole : P.console = false) (hrole : s.roleFits P = true)
include hconsole hrole

theorem completes_send_down (hlink : (s.port P.port).link = false) :
    Completes (.send j) s fun t => Answered t j St.policyDeny 0x0303 ∧ t.partners = s.partners := by
  have hx : exec (.send j) s = execSend j s := rfl
  unfold execSend at hx
  rw [workRow_turn hturn, stepRow_turn hturn hchart, hfor] at hx
  dsimp only at hx
  rw [if_neg (by simp [hsession]), if_neg (by simp [hconsole, hrole]), if_pos (by simp [hlink])] at hx
  exact completes_ends hturn rfl rfl rfl hx

variable (hlink : (s.port P.port).link = true) (hctx : CtxReady P)
include hlink hctx

theorem completes_send_refused {r : Nat}
    (hask : s.reckon (s.sendDemand J (fragMax (s.port P.port))) (s.deadlineUs J.cls) 0 0 = .refuse r) :
    Completes (.send j) s fun t => Answered t j St.notAdmitted r ∧ t.partners = s.partners := by
  have hx : exec (.send j) s = execSend j s := rfl
  unfold execSend at hx
  rw [workRow_turn hturn, stepRow_turn hturn hchart, hfor] at hx
  dsimp only at hx
  rw [if_neg (by simp [hsession]), if_neg (by simp [hconsole, hrole]), if_neg (by simp [hlink]),
    State.onContext_ready (partner_of_partnerFor hfor) hctx, hask] at hx
  exact completes_notAdmit hturn rfl rfl rfl hx

theorem completes_send_placed {steps : List JobStep} {units : List (Nat × Nat × Nat)}
    (hask : s.reckon (s.sendDemand J (fragMax (s.port P.port))) (s.deadlineUs J.cls) 0 0 = .place steps units) :
    Completes (.send j) s fun t => t.partners = s.partners ∧ ∃ K, t.job? j = some K ∧ K.phase = .placed ∧ K.steps = steps ∧
      K.units = units ∧ K.input = J.input ∧ K.accepted = some s.time.elapsed := by
  have hx : exec (.send j) s = execSend j s := rfl
  unfold execSend at hx
  rw [workRow_turn hturn, stepRow_turn hturn hchart, hfor] at hx
  dsimp only at hx
  rw [if_neg (by simp [hsession]), if_neg (by simp [hconsole, hrole]), if_neg (by simp [hlink]),
    State.onContext_ready (partner_of_partnerFor hfor) hctx, hask] at hx
  dsimp only at hx
  have hjob : (s.acceptJob j steps units J.cls 0 J.al2).job? j = some (s.granted steps units J.cls 0 J.al2 J) :=
    State.modJob_job_some hturn.1 (s.granted steps units J.cls 0 J.al2)
  obtain ⟨jobs, regs, a, haccept⟩ := s.acceptJob_eq j steps units J.cls 0 J.al2
  rw [haccept] at hx hjob
  exact .of_done hx rfl ⟨rfl, _, hjob, rfl, rfl, rfl, rfl, rfl⟩

end

section
variable (hJ : s.job? j = some J) (hop : J.opcode = 0xA400) (hphase : J.phase = .placed) (hsteps : J.stepsEnded = true)
  (hrel : J.released = 0) (hP : s.partner? J.partner = some P)
include hJ hop hphase hsteps hrel hP

omit hrel hP in
theorem exec_send_last : exec (.send j) s = done s (s.sendOut j J) := by
  have hx : exec (.send j) s = execSend j s := rfl
  unfold execSend workRow at hx
  rw [hJ] at hx
  dsimp only at hx
  rw [if_pos ⟨hop, hphase, hsteps⟩] at hx
  exact hx

theorem completes_sendOut_none (hsession : P.session = none) :
    Completes (.send j) s fun t => Answered t j St.policyDeny 0x0301 ∧ t.partners = s.partners := by
  have hx := exec_send_last hJ hop hphase hsteps
  unfold State.sendOut at hx
  rw [hP, show ((some P).bind fun P => P.session.map fun E => (P, E)) = none by simp [hsession]] at hx
  have hend := State.endJob_ended hJ (by simp [hphase]) hrel St.policyDeny 0x0301 []
  exact .of_done hx hend.pending ⟨hend.answered, hend.ends.partners⟩

/-- The fragments of a sent message go out, and the answer names their number and the first SEQ. -/
theorem completes_sendOut {E : Epoch} (hsession : P.session = some E) : Completes (.send j) s fun t =>
    let n := (fragments (fragMax (s.port P.port)) J.input).length
    Answered t j St.ok n ∧ (∃ K, t.job? j = some K ∧ K.ret = le 8 E.nextSeq) ∧
    (∃ Q E', t.partner? J.partner = some Q ∧ Q.session = some E' ∧ E'.nextSeq = E.nextSeq + n ∧
      E'.nextMsg = (E.nextMsg + 1) % 2 ^ 32 ∧ E'.keyOut = E.keyOut) ∧ ∀ q, q ≠ J.partner → t.partner? q = s.partner? q := by
  have hx := exec_send_last hJ hop hphase hsteps
  unfold State.sendOut at hx
  rw [hP, show ((some P).bind fun P => P.session.map fun E => (P, E)) = some (P, E) by simp [hsession]] at hx
  dsimp only at hx
  have hon := OnPartner.sendMessage s J.partner 0x10 J.input
  obtain ⟨Q, hQ, heq⟩ := State.sendMessage_session hP hsession 0x10 J.input
  have hend := State.endJob_ended ((State.job?_congr hon.jobs j).trans hJ) (by simp [hphase]) hrel St.ok
    (fragments (fragMax (s.port P.port)) J.input).length (le 8 E.nextSeq)
  obtain ⟨K, hK, -, -, -, hret, -⟩ := hend.job
  have hparts := State.partner?_congr hend.ends.partners
  exact .of_done hx (hend.pending.trans hon.pending) ⟨hend.answered, ⟨K, hK, hret⟩,
    ⟨Q, E.sent _, (hparts J.partner).trans hQ, heq ▸ rfl, rfl, rfl, rfl⟩, fun q hq => (hparts q).trans (hon.other q hq)⟩

end

/-! ### RECEIVE (R343) -/

/-- A message is delivered at DST. -/
theorem State.deliver_spec (hJ : s.job? j = some J) (hrel : J.released = 0) (hregion : s.memOf J = none) {msg : Bytes}
    (hdst : s.writeFault J.dst msg.length = none) (p seq : Nat) :
    Replied j St.ok msg.length (le 4 p ++ le 8 seq) (memWriteN s.hostMem J.dst msg) s (s.deliver j p seq msg) ∧
    (s.deliver j p seq msg).fnBodies = s.fnBodies ∧ (s.deliver j p seq msg).partners = s.partners ∧
    ∃ K, (s.deliver j p seq msg).job? j = some K ∧ K.accepted = some s.time.elapsed := by
  obtain ⟨jobs, regs, a, haccept⟩ := s.acceptJob_eq j [] [] J.cls msg.length J.al2
  have hjob : (s.acceptJob j [] [] J.cls msg.length J.al2).job? j = some (s.granted [] [] J.cls msg.length J.al2 J) :=
    State.modJob_job_some hJ (s.granted [] [] J.cls msg.length J.al2)
  unfold State.deliver
  rw [hJ]
  dsimp only
  rw [haccept] at hjob ⊢
  have haddr : Addressed { s with jobs := jobs, regs := regs, acceptSeq := a } j (s.granted [] [] J.cls msg.length J.al2 J) msg.length :=
    ⟨hjob, by simp [State.granted], hrel, hregion, .inr hdst⟩
  rw [show s.memOf J = none from hregion, show s.wrFault none J.dst msg.length = none from hdst]
  dsimp only
  obtain ⟨hans, -⟩ := haddr.written St.ok msg.length (le 4 p ++ le 8 seq) msg
  rw [haddr.region] at hans
  have hfns : (State.hostWrite { s with jobs := jobs, regs := regs, acceptSeq := a } J.dst msg).fnBodies = s.fnBodies := by
    obtain ⟨o, hwr⟩ := State.hostWrite_eq { s with jobs := jobs, regs := regs, acceptSeq := a } J.dst msg
    exact (congrArg State.fnBodies hwr :)
  have hparts : (State.hostWrite { s with jobs := jobs, regs := regs, acceptSeq := a } J.dst msg).partners = s.partners := by
    obtain ⟨o, hwr⟩ := State.hostWrite_eq { s with jobs := jobs, regs := regs, acceptSeq := a } J.dst msg
    exact (congrArg State.partners hwr :)
  have hwjob : (State.hostWrite { s with jobs := jobs, regs := regs, acceptSeq := a } J.dst msg).job? j =
      some (s.granted [] [] J.cls msg.length J.al2 J) := by
    obtain ⟨o, hwr⟩ := State.hostWrite_eq { s with jobs := jobs, regs := regs, acceptSeq := a } J.dst msg
    exact (State.job?_congr (congrArg State.jobs hwr :) j).trans hjob
  obtain ⟨K, hK, hbody⟩ := Option.map_eq_some_iff.1
    (State.endJob_body hwjob haddr.live haddr.released St.ok msg.length (le 4 p ++ le 8 seq))
  exact ⟨⟨hans.job, hans.hostMem, hans.auth, hans.pins, hans.time, hans.pending⟩,
    (State.endJob_fnBodies _ _ _ _ _).trans hfns, (State.endJob_ends (· = j) _ rfl St.ok msg.length _).partners.trans hparts,
    K, hK, (congrArg Job.accepted hbody :)⟩

section
variable (hturn : ServiceTurn s j J 0xA500) (hmay : bitOf J.param.toNat 18 = true ∨ (s.partnerFor J).isSome)
include hturn hmay

omit hturn in
theorem receive_may : ¬ (¬ bitOf J.param.toNat 18 = true ∧ ((s.at_ now).partnerFor J).isNone = true) := by
  rcases hmay with h | h
  · simp [h]
  · rw [show (s.at_ now).partnerFor J = s.partnerFor J from rfl]
    simpa using fun _ => Option.ne_none_iff_isSome.2 h

section
variable (hnone : s.waitingFor J = none)
include hnone

theorem receive_none : exec (.receive j now) s = done s (if 4096 ≤ s.poolCount J.fn then s.at_ now
    else (s.at_ now).modJob j fun J => { J with phase := .pooled }) := by
  have hx : exec (.receive j now) s = execReceive j now s := rfl
  unfold execReceive at hx
  rw [serviceRow_turn (s := s.at_ now) hturn, if_neg (receive_may hmay), show (s.at_ now).waitingFor J = none from hnone] at hx
  exact hx

theorem receive_pools (hroom : s.poolCount J.fn < 4096) :
    exec (.receive j now) s = .next ((s.at_ now).modJob j fun J => { J with phase := .pooled }) := by
  rw [receive_none hturn hmay hnone, if_neg (by omega)]
  exact done_eq rfl

theorem receive_waits (hfull : 4096 ≤ s.poolCount J.fn) : exec (.receive j now) s = .next (s.at_ now) := by
  rw [receive_none hturn hmay hnone, if_pos hfull]
  exact done_eq rfl

end

/-- A waiting message is taken at once. -/
theorem completes_receive {o p q a : Nat} {msg : Bytes} (hwaiting : s.waitingFor J = some (o, p, q, msg, a)) (hregion : s.memOf J = none)
    (hdst : s.writeFault J.dst msg.length = none) : Completes (.receive j now) s fun t => Answered t j St.ok msg.length ∧
      (∃ K, t.job? j = some K ∧ K.ret = le 4 p ++ le 8 q) ∧ t.hostMem = memWriteN s.hostMem J.dst msg ∧
      (t.fn o).backlog = (s.fn o).backlog.erase (p, q, msg, a) := by
  have hx : exec (.receive j now) s = execReceive j now s := rfl
  unfold execReceive at hx
  rw [serviceRow_turn (s := s.at_ now) hturn, if_neg (receive_may hmay),
    show (s.at_ now).waitingFor J = some (o, p, q, msg, a) from hwaiting] at hx
  obtain ⟨hJ, -, -, -, -, hrel, -⟩ := hturn
  obtain ⟨hans, hfns, -⟩ := State.deliver_spec
    (s := (s.at_ now).modFn o fun F => { F with backlog := F.backlog.erase (p, q, msg, a) }) hJ hrel hregion hdst p q
  obtain ⟨K, hK, -, -, -, hret, -⟩ := hans.job
  refine .of_done hx hans.pending ⟨hans.answered, ⟨K, hK, hret⟩, hans.hostMem, ?_⟩
  have hfn := congrArg Fn.backlog (congrFun hfns o)
  exact hfn.trans (congrArg Fn.backlog ((s.at_ now).modFn_fn_same o fun F => { F with backlog := F.backlog.erase (p, q, msg, a) }))

end

end

/-! ### Scrubs and moves (R335, R344) -/

section
variable {s : State} {p now : Nat} {P : Partner} (hp : p < 2 ^ 24) (hP : s.partner? p = some P)
include hp hP

theorem completes_scrub (hscrub : P.scrub = true) (hdead : P.dead = false) : Completes (.partnerScrubComplete p now) s fun t =>
    t.partner? p = none ∧ t = { s with time := s.time.to now, partners := t.partners } ∧ ∀ q, q ≠ p → t.partner? q = s.partner? q := by
  have hx : exec (.partnerScrubComplete p now) s = execPartnerScrubComplete p now s := rfl
  unfold execPartnerScrubComplete at hx
  dsimp only at hx
  rw [within_ok (decide_eq_true hp), show (s.at_ now).partner? p = some P from hP] at hx
  dsimp only at hx
  rw [if_pos (by simp [hscrub, hdead])] at hx
  exact .of_done hx rfl ⟨(tget_tdel _ _ _).trans (if_pos rfl), rfl, fun q hq => (tget_tdel _ _ _).trans (if_neg hq)⟩

variable (hmoving : P.moving = true)
include hmoving

theorem exec_spillDone (ok : Bool) : exec (.contextSpillDone p ok now) s = done s (
    if ok then (s.at_ now).modPartner p fun P => { P with moving := false, moveNs := 0 }
    else
      let waits := tkeys s.jobs fun _ J => famOf J.opcode == 10 && J.partner == p && J.phase != .ended && J.phase != .pooled
      (eachOf waits (fun v j => v.endJob j St.mcheck 0) ((s.at_ now).dropKeys p)).pmemFail (s.portOf 1 p) 2 none) := by
  have hx : exec (.contextSpillDone p ok now) s = execContextSpillDone p ok now s := rfl
  unfold execContextSpillDone at hx
  dsimp only at hx
  rw [within_ok (decide_eq_true hp), show (s.at_ now).partner? p = some P from hP] at hx
  dsimp only at hx
  rw [if_neg (by simp [hmoving])] at hx
  exact hx

theorem completes_spill_ok : Completes (.contextSpillDone p true now) s fun t =>
    t.partner? p = some { P with moving := false, moveNs := 0 } ∧ t = { s with time := s.time.to now, partners := t.partners } :=
  .of_done ((exec_spillDone hp hP hmoving true).trans (congrArg (done s) (if_pos rfl))) rfl
    ⟨State.modPartner_partner_some (s := s.at_ now) hP fun P => { P with moving := false, moveNs := 0 }, rfl⟩

/-- A context whose sealed copy fails its check is lost, and recorded. -/
theorem completes_spill_lost : Completes (.contextSpillDone p false now) s fun t =>
    (∃ Q, t.partner? p = some Q ∧ Q.session = none ∧ Q.old = none ∧ Q.moving = false) ∧
    ∀ n, n = 194 + 16 * s.portOf 1 p → (t.src n).total = satAdd 32 (s.src n).total 1 := by
  let waits := tkeys s.jobs fun _ J => famOf J.opcode == 10 && J.partner == p && J.phase != .ended && J.phase != .pooled
  let u := eachOf waits (fun v j => v.endJob j St.mcheck 0) ((s.at_ now).dropKeys p)
  have hx : exec (.contextSpillDone p false now) s = done s (u.pmemFail (s.portOf 1 p) 2 none) := exec_spillDone hp hP hmoving false
  have hsteady : u.steady = ((s.at_ now).dropKeys p).steady := eachOf_steady _ _ (fun v j => by simp) _
  have hparts : u.partners.table = ((s.at_ now).dropKeys p).partners.table := (congrArg (fun v : State => v.partners.table) hsteady :)
  have hfaults : u.faults = s.faults := (congrArg State.faults hsteady :)
  have hdrop := State.modPartner_partner_some (s := s.at_ now) hP fun P =>
    { P with session := none, old := none, inSlot := false, spilled := false, moving := false, reas := none }
  let v := u.bump (0xB0010 + 0x100 * s.portOf 1 p + 4 * 2)
  have hfail : u.pmemFail (s.portOf 1 p) 2 none = v.event (192 + 16 * s.portOf 1 p + 2) 0x22 0 none := rfl
  rw [hfail] at hx
  have hapart := v.event_apart (192 + 16 * s.portOf 1 p + 2) 0x22 0 none
  have htable : (v.event (192 + 16 * s.portOf 1 p + 2) 0x22 0 none).partners.table = ((s.at_ now).dropKeys p).partners.table :=
    (congrArg (fun v : State => v.partners.table) hapart :).trans hparts
  have hpend : (v.event (192 + 16 * s.portOf 1 p + 2) 0x22 0 none).pending = s.pending :=
    (congrArg State.pending hapart :).trans (congrArg State.pending hsteady :)
  refine .of_done hx hpend ⟨⟨_, (congrArg (tget · p) htable).trans hdrop, rfl, rfl, rfl⟩, fun n hn => ?_⟩
  · have hsrc : n = 192 + 16 * s.portOf 1 p + 2 := by omega
    rw [hsrc]
    refine (v.event_total _ 0x22 0 none).trans ?_
    rw [show v.src = u.src from rfl, State.src, State.src, hfaults]

end

end Sys2Proof.Machine
end

section
/-! PROOF. The obligation on family 0xA (14_partners_ports_time.md R334-R345). -/

namespace Sys2Proof.Machine

section
variable {s : State} {j now : Nat} {J : Job} {op : Nat} {P : Partner}

/-- A Sounding that cannot start changes no partner. -/
theorem completes_sounding_ends {c : Instr} {status result : Nat} {rekey : Bool} (hturn : ServiceTurn s j J op)
    (hx : exec c s = done s ((s.at_ now).sounding j J rekey))
    (hends : (s.at_ now).sounding j J rekey = (s.at_ now).endJob j status result) :
    Completes c s fun t => Answered t j status result ∧ t.partners = s.partners :=
  completes_ends (v := s.at_ now) hturn rfl rfl rfl (hx.trans (congrArg (done s) hends))

/-- A Sounding that starts: its job waits in the background, its step is a job of the device's own, and INIT has been sent. -/
theorem completes_sounding_starts {c : Instr} {rekey : Bool} {v : State} (hfor : s.partnerFor J = some P) (hturn : ServiceTurn s j J op)
    (hj : j < s.nextSeq) (hstep : (s.at_ now).takeStep P.owner s.partners.hsClass J.partner 0 initPlan = .ok v)
    (hx : exec c s = done s ((s.at_ now).sounding j J rekey)) (hstarts : (s.at_ now).sounding j J rekey =
      ((v.acceptJob j [] [] J.cls 0 J.al2).modJob j fun J => { J with phase := .background }).startSounding J.partner (some j)) :
    Completes c s fun t =>
      (∃ K, t.job? j = some K ∧ K.phase = .background ∧ K.accepted = some (s.time.to now).elapsed) ∧
      (∃ W, t.job? s.nextSeq = some W ∧ W.phase = .placed ∧ W.fn = P.owner ∧ W.partner = J.partner ∧ W.src = .internal) ∧
      (∃ Q h, t.partner? J.partner = some Q ∧ Q.hs = some h ∧ h.initiator = true ∧ h.job = some j ∧
        h.epoch = (P.lastEpoch + 1) % 256 ∧ h.initMsg.length = 1248 ∧ Q.session = P.session) ∧
      t.draws = s.draws + 128 ∧ ∀ q, q ≠ J.partner → t.partner? q = s.partner? q := by
  obtain ⟨⟨vjobs, vregs, va, hv⟩, ⟨W, hW, hWphase, hWfn, hWpartner, hWsrc, -⟩, hothers⟩ := takeStep_spec hstep
  have hne : j ≠ s.nextSeq := by omega
  have hvJ : v.job? j = some J := (hothers j hne).trans hturn.1
  let y := (v.acceptJob j [] [] J.cls 0 J.al2).modJob j fun J => { J with phase := .background }
  have hyJ : y.job? j = some { v.granted [] [] J.cls 0 J.al2 J with phase := .background } :=
    State.modJob_job_some (State.modJob_job_some hvJ (v.granted [] [] J.cls 0 J.al2)) fun J => { J with phase := .background }
  have hyW : y.job? s.nextSeq = some W :=
    ((State.modJob_job _ j s.nextSeq fun J => { J with phase := .background }).trans (if_neg hne.symm)).trans
      (((v.modJob_job j s.nextSeq (v.granted [] [] J.cls 0 J.al2)).trans (if_neg hne.symm)).trans hW)
  have hyeq : ∃ jobs regs a, y = { s.at_ now with jobs := jobs, regs := regs, nextSeq := s.nextSeq + 1, acceptSeq := a } := by
    obtain ⟨jobs, regs, a, haccept⟩ := v.acceptJob_eq j [] [] J.cls 0 J.al2
    unfold y
    rw [haccept, hv]
    exact ⟨_, _, _, rfl⟩
  obtain ⟨jobs, regs, a, hyeq⟩ := hyeq
  have hP : y.partner? J.partner = some P := by
    rw [hyeq]
    exact partner_of_partnerFor hfor
  obtain ⟨⟨o, parts, heq⟩, hQ, hq⟩ := State.startSounding_spec hP (some j)
  have hlen := y.newHandshake_length P (some j)
  have hjobs : (y.startSounding J.partner (some j)).jobs = y.jobs := heq ▸ rfl
  have helapsed : v.time.elapsed = (s.time.to now).elapsed := hv ▸ rfl
  refine .of_done (hx.trans (congrArg (done s) hstarts)) (heq ▸ hyeq ▸ rfl)
    ⟨⟨_, (State.job?_congr hjobs j).trans hyJ, rfl, congrArg some helapsed⟩,
      ⟨W, (State.job?_congr hjobs s.nextSeq).trans hyW, hWphase, hWfn, hWpartner, hWsrc⟩,
      ⟨_, _, hQ, rfl, rfl, rfl, rfl, hlen, rfl⟩, heq ▸ hyeq ▸ rfl, fun q hne => (hq q hne).trans ?_⟩
  rw [hyeq]
  rfl

end

end Sys2Proof.Machine

open Sys2Proof.Machine

/-- Settles O40. -/
theorem partnerJobsRegisterSendAndReceive : Obligations.PartnerJobsRegisterSendAndReceive := by
  unfold Obligations.PartnerJobsRegisterSendAndReceive
  intro s j now J
  refine ⟨?_, ?_, ?_, ?_, ?_, ?_, ?_⟩
  · intro hturn P
    exact ⟨completes_register_malformed hturn, fun hok => ⟨completes_register_noKey hturn hok, fun K L hK hL =>
      ⟨completes_register_usage hturn hok hK hL, fun p hKuse hLuse hp hfree hbelow hlen =>
        completes_register hturn hok hK hL hKuse hLuse hp hfree hbelow hlen⟩⟩⟩
  · intro row hrow
    simp only [List.mem_cons, List.not_mem_nil, or_false] at hrow
    rcases hrow with rfl | rfl | rfl | rfl | rfl | rfl <;> intro hturn
    · exact ⟨nofun, fun _ hnone => completes_ends hturn rfl rfl rfl (unknown_deregister hnone hturn)⟩
    · exact ⟨fun _ hchart => stepRow_stopped (s := s.at_ now) hturn hchart fun s J => s.sounding j J false,
        fun hchart hnone => completes_sounding_ends hturn (exec_initiate hturn (hchart.resolve_left nofun)) (unknown_sounding hnone false)⟩
    · exact ⟨nofun, fun _ hnone => completes_ends hturn rfl rfl rfl (unknown_accept hnone hturn)⟩
    · refine ⟨fun _ hchart => ?_, fun hchart hnone =>
        completes_ends hturn rfl rfl rfl (unknown_send hnone hturn (hchart.resolve_left nofun))⟩
      exact (workRow_turn hturn _ fun s J => s.sendOut j J).trans (stepRow_stopped hturn hchart _)
    · exact ⟨fun _ hchart => stepRow_stopped (s := s.at_ now) hturn hchart fun s J => s.sounding j J true,
        fun hchart hnone => completes_sounding_ends hturn (exec_rekey hturn (hchart.resolve_left nofun)) (unknown_sounding hnone true)⟩
    · exact ⟨nofun, fun _ hnone => completes_ends hturn rfl rfl rfl (unknown_close hnone hturn)⟩
  · intro hturn hone hnone
    exact completes_ends (v := s.at_ now) hturn rfl rfl rfl (unknown_receive hnone hturn hone)
  · intro P hfor
    refine ⟨completes_deregister hfor, completes_accept hfor, ?_, ?_, ?_⟩
    · intro row hrow hturn hchart
      have hx : exec row.1 s = done s ((s.at_ now).sounding j J row.2.2) := by
        simp only [List.mem_cons, List.not_mem_nil, or_false] at hrow
        rcases hrow with rfl | rfl
        · exact exec_initiate hturn hchart
        · exact exec_rekey hturn hchart
      refine ⟨fun hrekey hsession => completes_sounding_ends hturn hx (sounding_noSession hfor hrekey hsession), fun hready =>
        ⟨fun hrole => completes_sounding_ends hturn hx (sounding_role hfor hready hrole),
          fun hrole hlink => completes_sounding_ends hturn hx (sounding_down hfor hready hrole hlink),
          fun hrole hlink hhs => (hx.trans (congrArg (done s) (sounding_waits hfor hready hrole hlink hhs))).trans (done_eq rfl),
          fun hrole hlink hhs => ⟨fun hfull => completes_sounding_ends hturn hx (sounding_full hfor hready hrole hlink hhs hfull),
            fun r hroom hctx hstep => ?_, fun v hroom hctx hj hstep => ?_⟩⟩⟩
      · exact completes_notAdmit (v := s.at_ now) hturn rfl rfl rfl
          (hx.trans (congrArg (done s) (sounding_refused hfor hready hrole hlink hhs hroom hctx hstep)))
      · exact completes_sounding_starts hfor hturn hj hstep hx (sounding_starts hfor hready hrole hlink hhs hroom hctx hstep)
    · intro hturn hchart
      refine ⟨completes_send_none hfor hturn hchart, fun E hE => ⟨completes_send_role hfor hturn hchart hE,
        completes_send_down hfor hturn hchart hE, fun hconsole hrole hlink hctx => ⟨fun r hask => ?_, fun steps units hask => ?_⟩⟩⟩
      · exact completes_send_refused hfor hturn hchart hE hconsole hrole hlink hctx hask
      · exact completes_send_placed hfor hturn hchart hE hconsole hrole hlink hctx hask
    · exact fun hturn => ⟨completes_close_none hfor hturn, completes_close hfor hturn⟩
  · intro hturn hmay
    exact ⟨receive_pools hturn hmay, receive_waits hturn hmay, fun o p q msg a => completes_receive hturn hmay⟩
  · intro P hJ hop hphase hsteps hrel hP
    exact ⟨completes_sendOut_none hJ hop hphase hsteps hrel hP, fun E => completes_sendOut hJ hop hphase hsteps hrel hP⟩
  · intro p P hp hP
    exact ⟨completes_scrub hp hP, completes_spill_ok hp hP, completes_spill_lost hp hP⟩

end

section
/-! PROOF. Incoming frames: the checks of a frame, and the turn of a frame of a type (14_partners_ports_time.md R326-R345). -/

namespace Sys2Proof.Machine

/-! ### The checks of R333 -/

section
variable {s : State} {p now : Nat} {f : WireFrame}

theorem exec_fieldFrame_dropped (hp : p < 4) (hrec : s.receives p = true) (hptp : f.fcsOk = false ∨ isPtp f.bytes = false) {k : Nat}
    (hscreen : s.screen p f.bytes f.fcsOk = .error k) : exec (.fieldFrameReceived p f now) s = .next ((s.at_ now).drop p k) := by
  have hx : exec (.fieldFrameReceived p f now) s = execFieldFrameReceived p f now s := rfl
  unfold execFieldFrameReceived at hx
  dsimp only at hx
  rw [within_ok (decide_eq_true hp), if_neg (by
    rw [show (s.at_ now).receives p = true from hrec]
    rcases hptp with h | h <;> simp [h]), show (s.at_ now).screen p f.bytes f.fcsOk = .error k from hscreen] at hx
  exact hx.trans (done_eq rfl)

theorem exec_fieldFrame_taken (hp : p < 4) (hrec : s.receives p = true) (hptp : f.fcsOk = false ∨ isPtp f.bytes = false) {q : Nat} {b : Bytes}
    (hscreen : s.screen p f.bytes f.fcsOk = .ok (q, b)) : exec (.fieldFrameReceived p f now) s = .next { s.at_ now with
      partners := { s.partners with
        ingress := s.partners.ingress ++ [{ port := p, partner := q, frame := b, at_ := (s.at_ now).time.elapsed }] } } := by
  have hx : exec (.fieldFrameReceived p f now) s = execFieldFrameReceived p f now s := rfl
  unfold execFieldFrameReceived at hx
  dsimp only at hx
  rw [within_ok (decide_eq_true hp), if_neg (by
    rw [show (s.at_ now).receives p = true from hrec]
    rcases hptp with h | h <;> simp [h]), show (s.at_ now).screen p f.bytes f.fcsOk = .ok (q, b) from hscreen] at hx
  exact hx.trans (done_eq rfl)

variable (hfcs : f.fcsOk = true)
include hfcs

theorem screen_no_envelope (harrive : s.arrive p f.bytes = none) : s.screen p f.bytes f.fcsOk = .error 1 := by
  simp [State.screen, hfcs, harrive]

variable {a : Arrived} (harrive : s.arrive p f.bytes = some a)
include harrive

theorem screen_length (hlen : lengthOk a = false) : s.screen p f.bytes f.fcsOk = .error 2 := by
  simp [State.screen, hfcs, harrive, hlen]

variable (hlen : lengthOk a = true)
include hlen

theorem screen_format (hform : formatOk a.body = false) : s.screen p f.bytes f.fcsOk = .error 3 := by
  simp [State.screen, hfcs, harrive, hlen, hform]

variable (hform : formatOk a.body = true)
include hform

theorem screen_stranger (hnone : s.attributed p a = none) : s.screen p f.bytes f.fcsOk = .error 4 := by
  simp [State.screen, hfcs, harrive, hlen, hform, hnone]

variable {P : Partner} (hP : s.attributed p a = some P)
include hP

/-- The port's role lets the frame's type in and the partner's session stand there, and is not changing (R327). -/
abbrev State.roleLets (s : State) (p : Nat) (P : Partner) (ty : Nat) : Prop :=
  (typesIn (s.port p).role).contains ty = true ∧ s.roleFits P = true ∧ s.roleChanging p = false

theorem screen_role (hrole : ¬ s.roleLets p P (envType a.body)) : s.screen p f.bytes f.fcsOk = .error 5 := by
  simp only [State.screen, hfcs, harrive, hlen, hform, hP, not_true_eq_false, if_false]
  refine if_pos ?_
  by_contra hno
  simp only [not_or, Bool.not_eq_true] at hno
  exact hrole ⟨Bool.of_not_eq_false hno.1, Bool.of_not_eq_false hno.2.1, hno.2.2⟩

variable (hrole : s.roleLets p P (envType a.body))
include hrole

theorem screen_known : s.screen p f.bytes f.fcsOk =
    if ¬ P.knowsEpoch (envType a.body) (hdrEpoch a.body) then .error 6
    else if s.faults.safe.on then .error 14
    else .ok (hdrPartner a.body, a.body.take (leAt a.body 2 2)) := by
  simp only [State.screen, hfcs, harrive, hlen, hform, hP, not_true_eq_false, if_false]
  exact if_neg (by simp only [hrole.1, hrole.2.1, hrole.2.2, not_true_eq_false, Bool.false_eq_true, or_self, not_false_eq_true])

end

/-! ### The next frame of a type (R345) -/

section
variable {s u : State} {ty now : Nat} {i : Ingress} {P : Partner}

/-- Which frame is next does not depend on the time. -/
theorem pickFrame_at (s : State) (now ty : Nat) (seen : List Nat) (l : List Ingress) :
    (s.at_ now).pickFrame ty seen l = s.pickFrame ty seen l := by
  induction l generalizing seen with
  | nil => rfl
  | cons i l ih =>
    rw [State.pickFrame, State.pickFrame, ih]
    rfl

theorem frameRow_idle (h : s.chartStops = true ∨ s.pickFrame ty [] s.partners.ingress = none) (f : State → Ingress → Partner → State) :
    frameRow ty now f s = .next (s.at_ now) := by
  have hpick : (if (s.at_ now).chartStops then none else (s.at_ now).pickFrame ty [] (s.at_ now).partners.ingress) = none := by
    by_cases hchart : s.chartStops = true
    · exact if_pos hchart
    · exact (if_neg hchart).trans ((pickFrame_at s now ty [] _).trans (h.resolve_left hchart))
  unfold frameRow
  dsimp only
  rw [hpick]
  exact done_eq rfl

/-- A type's command acts on its next frame. -/
theorem frameRow_next (h : NextFrame s ty now i P u) (f : State → Ingress → Partner → State) :
    frameRow ty now f s = done s (f u i P) := by
  obtain ⟨hpick, hP, hsafe, husable, hctx, hchart, hu⟩ := h
  have hnext : (if (s.at_ now).chartStops then none else (s.at_ now).pickFrame ty [] (s.at_ now).partners.ingress) = some i :=
    (if_neg (by rw [show (s.at_ now).chartStops = false from hchart]; simp)).trans ((pickFrame_at s now ty [] _).trans hpick)
  unfold frameRow
  dsimp only
  rw [hnext]
  dsimp only
  rw [show (s.at_ now).partner? i.partner = some P from hP]
  dsimp only
  rw [if_neg (by rw [show (s.at_ now).faults.safe.on = false from hsafe]; simp), if_neg (by simp [husable]),
    State.touch_ready (s := s.at_ now) hP hctx, hu]
  rfl

/-- The frame's taking and the use of its context leave all but the partners as it was, and the partner itself but for its use. -/
theorem nextFrame_frame (h : NextFrame s ty now i P u) : (∃ parts, u = { s.at_ now with partners := parts }) ∧
    u.partner? i.partner = some { P with used := (s.time.to now).elapsed } ∧
    ∀ q, q ≠ i.partner → u.partner? q = s.partner? q := by
  obtain ⟨-, hP, -, -, -, -, hu⟩ := h
  rw [hu]
  refine ⟨⟨_, rfl⟩, State.modPartner_partner_some (s := (s.at_ now).untake i) hP fun P => { P with used := (s.time.to now).elapsed },
    fun q hq => ?_⟩
  exact (((s.at_ now).untake i).modPartner_partner i.partner q _).trans (if_neg hq)

/-! ### Sealed frames (R340, R341) -/

/-- The step of a frame's decryption leaves all but the jobs and a counter as it was. -/
theorem takeOpen_eq {w : State} (h : u.takeOpen i P = .ok w) :
    ∃ jobs regs n a, w = { u with jobs := jobs, regs := regs, nextSeq := n, acceptSeq := a } := by
  unfold State.takeOpen at h
  split at h
  · cases h
    exact ⟨_, _, _, _, rfl⟩
  · obtain ⟨⟨jobs, regs, a, hw⟩, -⟩ := takeStep_spec h
    exact ⟨jobs, regs, _, a, hw⟩

theorem openFrame_refused {r : Nat} (h : u.takeOpen i P = .error r) : u.openFrame i P = (u.refuseFrame i.port r, none) := by
  unfold State.openFrame
  rw [h]

section
variable {w : State} {E : Epoch} (htake : u.takeOpen i P = .ok w) (hE : P.epoch? (hdrEpoch i.frame) = some E)
include htake hE

theorem openFrame_tag (htag : gcmOpen E.keyIn (frameNonce E.ivIn (hdrSeq i.frame)) (i.frame.take 24) (i.frame.drop 24) = none) :
    u.openFrame i P = (w.drop i.port 8, none) := by
  simp only [State.openFrame, htake, State.unsealFrame, hE, htag]

variable {m : Bytes} (htag : gcmOpen E.keyIn (frameNonce E.ivIn (hdrSeq i.frame)) (i.frame.take 24) (i.frame.drop 24) = some m)
include htag

theorem openFrame_replay (hfresh : E.fresh (hdrSeq i.frame) = false) : u.openFrame i P = (w.drop i.port 9, none) := by
  simp only [State.openFrame, htake, State.unsealFrame, hE, htag, hfresh, Bool.false_eq_true, not_false_eq_true, if_true]

theorem openFrame_opens (hfresh : E.fresh (hdrSeq i.frame) = true) :
    u.openFrame i P = (w.modPartner i.partner fun P => P.putEpoch (E.accept (hdrSeq i.frame)), some m) := by
  simp only [State.openFrame, htake, State.unsealFrame, hE, htag, hfresh, not_true_eq_false, if_false]

end

/-- A message of one fragment, where no reassembly is under way, is whole at once (R332). -/
theorem reassemble_one {Q : Partner} (hQ : u.partner? i.partner = some Q) (hreas : Q.reas = none) (hone : hdrCount i.frame = 1)
    (payload : Bytes) : u.reassemble i payload = (u, some (hdrSeq i.frame, payload)) := by
  have hold : (u.partner? i.partner).bind (·.reas) = none := by rw [hQ]; exact hreas
  unfold State.reassemble
  simp only [hold, Option.any_none, Bool.false_eq_true, if_false, hone, if_true]

end

end Sys2Proof.Machine
end

section
/-! PROOF. Sealed traffic: DATA, ORDER, RESPONSE and CLOSE, and the obligation on incoming frames
(14_partners_ports_time.md R326-R345; 13_authority_service.md R320). -/

namespace Sys2Proof.Machine

section
variable {s u w : State} {ty now : Nat} {i : Ingress} {P : Partner} {E : Epoch} {m : Bytes}

theorem State.refuseFrame_pending (s : State) (p r : Nat) : (s.refuseFrame p r).pending = s.pending := by
  obtain ⟨regs, n, h⟩ := s.refused_eq r
  unfold State.refuseFrame
  rw [h]
  rfl

theorem nextFrame_pending (h : NextFrame s ty now i P u) : u.pending = s.pending := by
  obtain ⟨⟨parts, hu⟩, -⟩ := nextFrame_frame h
  rw [hu]
  rfl

theorem nextFrame_taken (h : NextFrame s ty now i P u) (htake : u.takeOpen i P = .ok w) :
    (∃ jobs regs n a parts, w = { s.at_ now with jobs := jobs, regs := regs, nextSeq := n, acceptSeq := a, partners := parts }) ∧
    w.partner? i.partner = some { P with used := (s.time.to now).elapsed } ∧ (∀ q, q ≠ i.partner → w.partner? q = s.partner? q) ∧
    w.partners = u.partners := by
  obtain ⟨⟨parts, hu⟩, hP, hothers⟩ := nextFrame_frame h
  obtain ⟨jobs, regs, n, a, hw⟩ := takeOpen_eq htake
  have hparts : w.partners = u.partners := by
    rw [hw]
  refine ⟨⟨jobs, regs, n, a, parts, ?_⟩, (State.partner?_congr hparts _).trans hP,
    fun q hq => (State.partner?_congr hparts q).trans (hothers q hq), hparts⟩
  rw [hw, hu]

/-! ### Sealed traffic that is dropped (R341, R343) -/

variable (f : State → Ingress → Partner → Nat → Bytes → State)

theorem sealedRow_refused (h : NextFrame s ty now i P u) {r : Nat} (htake : u.takeOpen i P = .error r) :
    sealedRow ty now f s = .next (u.refuseFrame i.port r) := by
  unfold sealedRow
  rw [frameRow_next h, openFrame_refused htake]
  exact done_eq ((u.refuseFrame_pending i.port r).trans (nextFrame_pending h))

theorem sealedRow_dropped (h : NextFrame s ty now i P u) (htake : u.takeOpen i P = .ok w) {k : Nat}
    (hopen : u.openFrame i P = (w.drop i.port k, none)) : sealedRow ty now f s = .next (w.drop i.port k) := by
  obtain ⟨⟨_, _, _, _, _, hw⟩, -⟩ := nextFrame_taken h htake
  unfold sealedRow
  rw [frameRow_next h, hopen]
  exact done_eq (congrArg State.pending hw :)

/-- The device once a frame has been opened under an epoch. -/
def State.frameOpened (w : State) (i : Ingress) (E : Epoch) : State :=
  w.modPartner i.partner fun P => P.putEpoch (E.accept (hdrSeq i.frame))

/-- A frame that opens to a whole message is handled. -/
theorem sealedRow_opens (h : NextFrame s ty now i P u) (hopens : OpensTo u i P w E m) :
    sealedRow ty now f s = done s (f (w.frameOpened i E) i P (hdrSeq i.frame) m) := by
  obtain ⟨htake, hE, htag, hfresh, hone, hreas⟩ := hopens
  obtain ⟨-, hP, -⟩ := nextFrame_taken h htake
  have hQ := State.modPartner_partner_some hP fun P => P.putEpoch (E.accept (hdrSeq i.frame))
  unfold sealedRow
  rw [frameRow_next h, openFrame_opens htake hE htag hfresh]
  dsimp only
  rw [reassemble_one hQ hreas hone]
  rfl

/-- What an opened frame leaves: the jobs and a counter but for its step, and its partner's window. -/
theorem opened_frame (h : NextFrame s ty now i P u) (htake : u.takeOpen i P = .ok w) : ∃ jobs regs n a parts,
    w.frameOpened i E = { s.at_ now with jobs := jobs, regs := regs, nextSeq := n, acceptSeq := a, partners := parts } := by
  obtain ⟨⟨jobs, regs, n, a, parts, hw⟩, -⟩ := nextFrame_taken h htake
  rw [hw]
  exact ⟨_, _, _, _, _, rfl⟩

end

/-! ### DATA (R343) -/

section
variable {s u w : State} {now : Nat} {i : Ingress} {P : Partner} {E : Epoch} {m : Bytes}
  (h : NextFrame s 0x10 now i P u) (hopens : OpensTo u i P w E m)
include h hopens

theorem exec_dataFrame : exec (.dataFrame now) s = done s (match (w.frameOpened i E).poolFor P.owner i.partner m.length with
    | some j => (w.frameOpened i E).deliver j i.partner (hdrSeq i.frame) m
    | none =>
      if 262144 < ((w.frameOpened i E).fn P.owner).backlogBytes + m.length then (w.frameOpened i E).drop i.port 14
      else (w.frameOpened i E).modFn P.owner fun F => { F with
        backlog := F.backlog ++ [(i.partner, hdrSeq i.frame, m, (w.frameOpened i E).time.elapsed)] }) := by
  have hx : exec (.dataFrame now) s = execDataFrame now s := rfl
  unfold execDataFrame at hx
  rw [sealedRow_opens _ h hopens] at hx
  exact hx

theorem completes_dataFrame {j : Nat} {J : Job} (hpool : w.poolFor P.owner i.partner m.length = some j) (hJ : w.job? j = some J)
    (hrel : J.released = 0) (hregion : s.memOf J = none) (hdst : s.writeFault J.dst m.length = none) :
    Completes (.dataFrame now) s fun t => Answered t j St.ok m.length ∧
      (∃ K, t.job? j = some K ∧ K.ret = le 4 i.partner ++ le 8 (hdrSeq i.frame) ∧ K.accepted = some (s.time.to now).elapsed) ∧
      t.hostMem = memWriteN s.hostMem J.dst m ∧ t.partners = (w.frameOpened i E).partners := by
  have hx := exec_dataFrame h hopens
  obtain ⟨htake, -⟩ := hopens
  obtain ⟨jobs, regs, n, a, parts, hv⟩ := opened_frame (E := E) h htake
  have hvJ : (w.frameOpened i E).job? j = some J := hJ
  rw [show (w.frameOpened i E).poolFor P.owner i.partner m.length = some j from hpool] at hx
  dsimp only at hx
  generalize w.frameOpened i E = v at *
  have hvregion : v.memOf J = none := hv ▸ hregion
  have hvdst : v.writeFault J.dst m.length = none := hv ▸ hdst
  obtain ⟨hans, -, hparts, L, hL, haccepted⟩ := State.deliver_spec hvJ hrel hvregion hvdst i.partner (hdrSeq i.frame)
  obtain ⟨K, hK, -, -, -, hret, -⟩ := hans.job
  have hvhost : v.hostMem = s.hostMem := by rw [hv]; rfl
  refine .of_done hx (hans.pending.trans (by rw [hv]; rfl)) ⟨hans.answered, ⟨K, hK, hret, ?_⟩, hans.hostMem.trans (by rw [hvhost]), hparts⟩
  cases hK.symm.trans hL
  exact haccepted.trans (by rw [hv]; rfl)

variable (hpool : w.poolFor P.owner i.partner m.length = none)
include hpool

theorem exec_dataFrame_backlog (hroom : (s.fn P.owner).backlogBytes + m.length ≤ 262144) :
    exec (.dataFrame now) s = .next ((w.frameOpened i E).modFn P.owner fun F => { F with
      backlog := F.backlog ++ [(i.partner, hdrSeq i.frame, m, (s.time.to now).elapsed)] }) := by
  have hx := exec_dataFrame h hopens
  obtain ⟨htake, -⟩ := hopens
  obtain ⟨jobs, regs, n, a, parts, hv⟩ := opened_frame (E := E) h htake
  rw [show (w.frameOpened i E).poolFor P.owner i.partner m.length = none from hpool] at hx
  dsimp only at hx
  generalize w.frameOpened i E = v at *
  subst hv
  refine hx.trans ((congrArg (done s) (if_neg ?_)).trans (done_eq rfl))
  exact Nat.not_lt.2 hroom

theorem exec_dataFrame_full (hfull : 262144 < (s.fn P.owner).backlogBytes + m.length) :
    exec (.dataFrame now) s = .next ((w.frameOpened i E).drop i.port 14) := by
  have hx := exec_dataFrame h hopens
  obtain ⟨htake, -⟩ := hopens
  obtain ⟨jobs, regs, n, a, parts, hv⟩ := opened_frame (E := E) h htake
  rw [show (w.frameOpened i E).poolFor P.owner i.partner m.length = none from hpool] at hx
  dsimp only at hx
  generalize w.frameOpened i E = v at *
  subst hv
  exact hx.trans ((congrArg (done s) (if_pos hfull)).trans (done_eq rfl))

end

/-! ### ORDER (R328; 13, R306) -/

/-- A console's order leaves the pins and the host's memory. -/
structure FromConsole (s t : State) : Prop where
  pins : t.pins = s.pins
  hostMem : t.hostMem = s.hostMem
  pending : t.pending = s.pending

theorem FromConsole.of_reports {s t u : State} (hr : Reports s t) (h : FromConsole t u) : FromConsole s u :=
  ⟨h.pins.trans hr.pins, h.hostMem.trans hr.hostMem, h.pending.trans (congrArg State.pending hr.eq :)⟩

theorem FromConsole.of_onPartner {s t : State} {p : Nat} (h : OnPartner p s t) : FromConsole s t :=
  ⟨(congrArg State.pins h.eq :), (congrArg State.hostMem h.eq :), h.pending⟩

/-- A console's refused order: the decision names the console, which is sent the receipt. -/
theorem refuseOrder_console (s : State) (c : Nat) (env : Bytes) (reason time rule ver : Nat) :
    FromConsole s (s.refuseOrder none (some c) env reason time rule ver) ∧
    ∃ D rest, (s.refuseOrder none (some c) env reason time rule ver).auth.decisions = D :: rest ∧ D.reason = reason ∧ D.console = some c := by
  obtain ⟨q, w, hrec, hrep⟩ := s.recordOrder_spec 0x0030 env reason time rule ver
  let rc := receiptOf env reason q time rule s.cluster.node ver
  let D : Decision := { refusalOf rc q reason time with console := some c }
  have ht : s.refuseOrder none (some c) env reason time rule ver = (w.addDecision D).sendMessage c 0x12 rc := by
    unfold State.refuseOrder
    rw [hrec]
    rfl
  have hsend := OnPartner.sendMessage (w.addDecision D) c 0x12 rc
  rw [ht]
  obtain ⟨hpins, hmem, hpend⟩ := FromConsole.of_onPartner hsend
  exact ⟨.of_reports hrep ⟨hpins, hmem, hpend⟩, D, _, (congrArg Authority.decisions (congrArg State.auth hsend.eq :) :), rfl, rfl⟩

theorem orderArrives_console (s : State) (c : Nat) (env : Bytes) (timeSet : Bool) :
    FromConsole s (s.orderArrives none (some c) env timeSet) := by
  unfold State.orderArrives
  dsimp only
  split
  · exact (refuseOrder_console s c env _ _ _ _).1
  next P R _ =>
    split
    · exact (refuseOrder_console s c env _ _ _ _).1
    · split
      next r _ =>
        obtain ⟨regs, n, hu⟩ := s.refused_eq r
        rw [hu]
        obtain ⟨⟨hpins, hmem, hpend⟩, -⟩ := refuseOrder_console { s with regs := regs, chart := { s.chart with noRoute := n } } c env 0x0207
          s.helmTime ((R.map (·.id)).getD 0xFFFF) P.version
        exact ⟨hpins, hmem, hpend⟩
      next steps units _ =>
        obtain ⟨⟨jobs, regs, a, hw⟩, -⟩ := startWork_spec s (orderWork env ((R.map (·.cls)).getD 3) (none : Option Nat).isSome) steps units
        rw [hw]
        exact ⟨rfl, rfl, rfl⟩

/-! ### RESPONSE (13, R320) -/

theorem tkeys_tmod {α : Type} (t : Table α) (k : Nat) (f : α → α) (p : Nat → α → Bool) (hf : ∀ n x, p n (f x) = p n x) :
    tkeys (tmod t k f) p = tkeys t p := by
  unfold tkeys tmod
  induction t with
  | nil => rfl
  | cons e t ih =>
    by_cases he : e.1 = k
    · cases hp : p e.1 e.2 with
      | true => simpa [he, hf, he ▸ hp] using ih
      | false => simpa [he, hf, he ▸ hp] using ih
    · cases hp : p e.1 e.2 with
      | true => simpa [he, hp] using ih
      | false => simpa [he, hp] using ih

section
variable {s u w : State} {ty now : Nat} {i : Ingress} {P : Partner} {E : Epoch} {m : Bytes}

/-- An opened frame leaves the members of every group. -/
theorem groupMembers_frameOpened (h : NextFrame s ty now i P u) (htake : u.takeOpen i P = .ok w) (g : Nat) :
    (w.frameOpened i E).groupMembers g = s.groupMembers g := by
  obtain ⟨-, -, -, hparts⟩ := nextFrame_taken h htake
  obtain ⟨-, -, -, -, -, -, hu⟩ := h
  have htable : (w.frameOpened i E).partners.table =
      tmod (tmod s.partners.table i.partner fun P => { P with used := (s.time.to now).elapsed }) i.partner
        (fun P => P.putEpoch (E.accept (hdrSeq i.frame))) := by
    rw [show (w.frameOpened i E).partners.table = tmod w.partners.table i.partner (fun P => P.putEpoch (E.accept (hdrSeq i.frame))) from rfl,
      hparts, hu]
    rfl
  unfold State.groupMembers
  rw [htable]
  exact (tkeys_tmod _ _ _ _ (by intros; rfl)).trans (tkeys_tmod _ _ _ _ (by intros; rfl))

theorem answers_frameOpened (h : NextFrame s ty now i P u) (htake : u.takeOpen i P = .ok w) (q : Nat) (body : Bytes) :
    (w.frameOpened i E).answers q body = (s.at_ now).answers q body := by
  obtain ⟨jobs, regs, n, a, parts, hv⟩ := opened_frame (E := E) h htake
  have htime : (w.frameOpened i E).helmTime = (s.at_ now).helmTime := congrArg (fun T => TimeState.replica T 4) (congrArg State.time hv :)
  funext d
  unfold State.answers
  rw [htime]
  cases d.target.1 with
  | zero => rfl
  | succ k =>
    cases k with
    | zero => rw [groupMembers_frameOpened h htake, show (s.at_ now).groupMembers d.target.2 = s.groupMembers d.target.2 from rfl]
    | succ k => rfl

section
variable (h : NextFrame s 0x14 now i P u) (hopens : OpensTo u i P w E m) (hroom : (s.fn P.owner).backlogBytes + m.length ≤ 262144)
include h hopens hroom

theorem exec_responseFrame : exec (.responseFrame now) s = done s ((w.frameOpened i E).response i.partner m) := by
  have hx : exec (.responseFrame now) s = execResponseFrame now s := rfl
  unfold execResponseFrame at hx
  rw [sealedRow_opens _ h hopens] at hx
  obtain ⟨htake, -⟩ := hopens
  obtain ⟨jobs, regs, n, a, parts, hv⟩ := opened_frame (E := E) h htake
  have hfn : (w.frameOpened i E).fn P.owner = s.fn P.owner := by rw [hv]; rfl
  rw [hfn, if_neg (Nat.not_lt.2 hroom)] at hx
  exact hx

/-- A response that answers no decision changes nothing. -/
theorem exec_responseFrame_none (hnone : s.auth.decisions.find? ((s.at_ now).answers i.partner m) = none) :
    exec (.responseFrame now) s = .next (w.frameOpened i E) := by
  have hx := exec_responseFrame h hopens hroom
  obtain ⟨htake, -⟩ := hopens
  have hanswers := answers_frameOpened (E := E) h htake i.partner m
  obtain ⟨jobs, regs, n, a, parts, hv⟩ := opened_frame (E := E) h htake
  have hauth : (w.frameOpened i E).auth = s.auth := by rw [hv]; rfl
  have hpend : (w.frameOpened i E).pending = s.pending := by rw [hv]; rfl
  have hsame : (w.frameOpened i E).response i.partner m = w.frameOpened i E := by
    unfold State.response
    rw [hauth, hanswers, hnone]
    exact ite_self _
  rw [hsame] at hx
  exact hx.trans (done_eq hpend)

/-- The first response to a decision is recorded. -/
theorem completes_responseFrame {d : Decision} (hlen : m.length = 24 + leAt m 20 4) (hmax : leAt m 20 4 ≤ 4096) (hzero : leAt m 18 2 = 0)
    (hd : s.auth.decisions.find? ((s.at_ now).answers i.partner m) = some d) : Completes (.responseFrame now) s fun t =>
      t.auth.decisions = s.auth.decisions.map (fun x => if x = d then
        { x with state := 5, respStat := leAt m 16 2, respTime := (s.at_ now).helmTime, respDig := sha384 (m.drop 24) } else x) ∧
      t.pins = s.pins := by
  have hx := exec_responseFrame h hopens hroom
  obtain ⟨htake, -⟩ := hopens
  have hanswers := answers_frameOpened (E := E) h htake i.partner m
  obtain ⟨jobs, regs, n, a, parts, hv⟩ := opened_frame (E := E) h htake
  have htime : (w.frameOpened i E).helmTime = (s.at_ now).helmTime := congrArg (fun T => TimeState.replica T 4) (congrArg State.time hv :)
  have hauth : (w.frameOpened i E).auth = s.auth := by rw [hv]; rfl
  have hpins : (w.frameOpened i E).pins = s.pins := by rw [hv]; rfl
  have hpend : (w.frameOpened i E).pending = s.pending := by rw [hv]; rfl
  generalize w.frameOpened i E = v at *
  unfold State.response at hx
  rw [if_neg (by simp [hlen, hzero]; omega), hauth, hanswers, hd] at hx
  dsimp only at hx
  rw [htime] at hx
  generalize hy : ({ v with auth := { s.auth with decisions := _ } } : State) = y at hx
  have hlog := y.logEvent_reports 3 0x0032 (m.take 18 ++ sha384 (m.drop 24))
  have hyauth : (y.logEvent 3 0x0032 (m.take 18 ++ sha384 (m.drop 24))).auth = y.auth := (congrArg State.auth hlog.eq :)
  have hypend : (y.logEvent 3 0x0032 (m.take 18 ++ sha384 (m.drop 24))).pending = s.pending :=
    (congrArg State.pending hlog.eq :).trans (hy ▸ hpend)
  have hypins : (y.logEvent 3 0x0032 (m.take 18 ++ sha384 (m.drop 24))).pins = s.pins := hlog.pins.trans (hy ▸ hpins)
  cases hc : d.console with
  | none =>
    rw [hc] at hx
    exact .of_done hx hypend ⟨(congrArg Authority.decisions hyauth).trans (hy ▸ rfl), hypins⟩
  | some c =>
    rw [hc] at hx
    have hsend := OnPartner.sendMessage (y.logEvent 3 0x0032 (m.take 18 ++ sha384 (m.drop 24))) c 0x15 m
    exact .of_done hx (hsend.pending.trans hypend)
      ⟨(congrArg Authority.decisions ((congrArg State.auth hsend.eq :).trans hyauth)).trans (hy ▸ rfl),
        (FromConsole.of_onPartner hsend).pins.trans hypins⟩

end

end

/-! ### CLOSE (R342) -/

/-- The handshake of a partner ends, and of the partner nothing else changes. -/
theorem endHandshake_spec {s : State} {p : Nat} {P : Partner} (hP : s.partner? p = some P) (status result : Nat) :
    (s.endHandshake p status result).partner? p = some { P with hs := none } ∧ (s.endHandshake p status result).pending = s.pending ∧
    (P.hs = none → s.endHandshake p status result = s) := by
  unfold State.endHandshake
  rw [hP]
  cases hh : P.hs with
  | none =>
    have hsame : ({ P with hs := none } : Partner) = P := by rw [← hh]
    rw [show (some P).bind (·.hs) = none from hh, hsame]
    exact ⟨hP, rfl, fun _ => rfl⟩
  | some h =>
    rw [show (some P).bind (·.hs) = some h from hh]
    dsimp only
    have hv := State.modPartner_partner_some hP fun P => { P with hs := none }
    cases h.job with
    | none => exact ⟨hv, rfl, nofun⟩
    | some k =>
      have hends := (s.modPartner p fun P => { P with hs := none }).endJob_ends (P := (· = k)) rfl status result []
      exact ⟨(State.partner?_congr hends.partners p).trans hv, (congrArg State.pending hends.steady :), nofun⟩

theorem completes_closeFrame {s u w : State} {now : Nat} {i : Ingress} {P : Partner} {E : Epoch} {m : Bytes}
    (h : NextFrame s 0x21 now i P u) (hopens : OpensTo u i P w E m) : Completes (.closeFrame now) s fun t =>
      ∃ Q, t.partner? i.partner = some Q ∧ Q.session = none ∧ Q.old = none ∧ Q.hs = none ∧ (P.hs = none → t.hostMem = s.hostMem) := by
  have hx : exec (.closeFrame now) s = execCloseFrame now s := rfl
  unfold execCloseFrame at hx
  rw [sealedRow_opens _ h hopens] at hx
  obtain ⟨htake, -⟩ := hopens
  obtain ⟨-, hP, -⟩ := nextFrame_taken h htake
  obtain ⟨jobs, regs, n, a, parts, hv⟩ := opened_frame (E := E) h htake
  have hQ : (w.frameOpened i E).partner? i.partner = some (Partner.putEpoch { P with used := (s.time.to now).elapsed } (E.accept (hdrSeq i.frame))) :=
    State.modPartner_partner_some hP fun P => P.putEpoch (E.accept (hdrSeq i.frame))
  have hmem : (w.frameOpened i E).hostMem = s.hostMem := by rw [hv]; rfl
  have hpend : (w.frameOpened i E).pending = s.pending := by rw [hv]; rfl
  generalize w.frameOpened i E = v at *
  have hdrop := State.modPartner_partner_some hQ fun P =>
    { P with session := none, old := none, inSlot := false, spilled := false, moving := false, reas := none }
  obtain ⟨hpartner, hp, hsame⟩ := endHandshake_spec (s := v.dropKeys i.partner) hdrop St.aborted 0
  refine .of_done hx (hp.trans hpend) ⟨_, hpartner, rfl, rfl, rfl, fun hnone => ?_⟩
  exact (congrArg State.hostMem (hsame hnone)).trans hmem

theorem completes_orderFrame {s u w : State} {now : Nat} {i : Ingress} {P : Partner} {E : Epoch} {m : Bytes}
    (h : NextFrame s 0x11 now i P u) (hopens : OpensTo u i P w E m) : Completes (.orderFrame now) s fun t =>
      (s.auth.running = none → wellFormedOrder m (envClass m == 0) = true → ∃ D rest, t.auth.decisions = D :: rest ∧
        D.reason = 0x0203 ∧ D.console = some i.partner) ∧ t.pins = s.pins ∧ t.hostMem = s.hostMem := by
  have hx : exec (.orderFrame now) s = execOrderFrame now s := rfl
  unfold execOrderFrame at hx
  rw [sealedRow_opens _ h hopens] at hx
  obtain ⟨htake, -⟩ := hopens
  obtain ⟨jobs, regs, n, a, parts, hv⟩ := opened_frame (E := E) h htake
  have hauth : (w.frameOpened i E).auth = s.auth := by rw [hv]; rfl
  have hpins : (w.frameOpened i E).pins = s.pins := by rw [hv]; rfl
  have hmem : (w.frameOpened i E).hostMem = s.hostMem := by rw [hv]; rfl
  have hpend : (w.frameOpened i E).pending = s.pending := by rw [hv]; rfl
  generalize w.frameOpened i E = v at *
  have hc := orderArrives_console v i.partner m (envClass m == 0)
  refine .of_done hx (hc.pending.trans hpend) ⟨fun hrun hform => ?_, hc.pins.trans hpins, hc.hostMem.trans hmem⟩
  rw [orderArrives_error (lines_no_policy hform (hauth ▸ hrun))]
  exact (refuseOrder_console v i.partner m 0x0203 v.helmTime 0xFFFF 0).2

end Sys2Proof.Machine

open Sys2Proof.Machine

/-- Settles O41. -/
theorem incomingFramesAreCheckedInOrder : Obligations.IncomingFramesAreCheckedInOrder := by
  unfold Obligations.IncomingFramesAreCheckedInOrder
  refine ⟨?_, ?_, ?_⟩
  · intro s p now f u hp hrec
    refine ⟨fun hfcs => exec_fieldFrame_dropped hp hrec (.inl hfcs) (if_pos (by simp [hfcs])), fun hfcs hptp => ?_⟩
    have drop {k : Nat} (hscreen : s.screen p f.bytes f.fcsOk = .error k) : exec (.fieldFrameReceived p f now) s = .next (u.drop p k) :=
      exec_fieldFrame_dropped hp hrec (.inr hptp) hscreen
    refine ⟨fun harrive => drop (screen_no_envelope hfcs harrive), fun a harrive =>
      ⟨fun hlen => drop (screen_length hfcs harrive hlen), fun hlen hform => drop (screen_format hfcs harrive hlen hform),
        fun hlen hform hnone => drop (screen_stranger hfcs harrive hlen hform hnone), fun P hlen hform hP => ?_⟩⟩
    intro ty role
    refine ⟨fun hrole => drop (screen_role hfcs harrive hlen hform hP hrole), fun hrole hepoch => ?_, fun hrole hepoch hsafe => ?_,
      fun hrole hepoch hsafe => ?_⟩
    all_goals have hknown := screen_known hfcs harrive hlen hform hP hrole
    · exact drop (hknown.trans (if_pos (by rw [hepoch]; simp)))
    · exact drop (hknown.trans ((if_neg (by rw [hepoch]; simp)).trans (if_pos hsafe)))
    · exact exec_fieldFrame_taken hp hrec (.inr hptp) (hknown.trans ((if_neg (by rw [hepoch]; simp)).trans (if_neg (by simp [hsafe]))))
  · intro s now i P u row hrow
    have hx : ∃ f, exec row.1 s = sealedRow row.2 now f s := by
      simp only [List.mem_cons, List.not_mem_nil, or_false] at hrow
      rcases hrow with rfl | rfl | rfl | rfl <;> exact ⟨_, rfl⟩
    obtain ⟨f, hx⟩ := hx
    refine ⟨fun hidle => hx.trans (frameRow_idle hidle _), ?_⟩
    intro h b
    refine ⟨fun r htake => hx.trans (sealedRow_refused f h htake), fun w E htake hE => ⟨fun htag => ?_, fun m htag hfresh => ?_⟩⟩
    · exact hx.trans (sealedRow_dropped f h htake (openFrame_tag htake hE htag))
    · exact hx.trans (sealedRow_dropped f h htake (openFrame_replay htake hE htag hfresh))
  · intro s now i P u w E m v
    refine ⟨fun h hopens => ⟨fun j J hpool hJ _ => completes_dataFrame h hopens hpool hJ, exec_dataFrame_backlog h hopens,
        exec_dataFrame_full h hopens⟩, fun h hopens => completes_orderFrame h hopens,
      fun h hopens hroom => ⟨exec_responseFrame_none h hopens hroom, fun d hlen hmax hzero hd =>
        completes_responseFrame h hopens hroom hlen hmax hzero hd⟩, fun h hopens => completes_closeFrame h hopens⟩

end

section
/-! PROOF. The Sounding handshake and the timers of sessions (14_partners_ports_time.md R337-R344). -/

namespace Sys2Proof.Machine

/-! ### Ends and starts of a handshake -/

section
variable {s : State} {p : Nat} {P : Partner} (hP : s.partner? p = some P)
include hP

/-- A handshake that ends answers the job that waits for it. -/
theorem endHandshake_answers {h : Handshake} (hh : P.hs = some h) {status result j : Nat} {J : Job} (hj : h.job = some j)
    (hJ : s.job? j = some J) (hphase : J.phase = .background) (hrel : J.released = 0) :
    Answered (s.endHandshake p status result) j status result := by
  unfold State.endHandshake
  rw [hP, show (some P).bind (·.hs) = some h from hh]
  dsimp only
  rw [hj]
  exact (State.endJob_ended (s := s.modPartner p fun P => { P with hs := none }) hJ (by simp [hphase]) hrel status result []).answered

/-- The partner of a session that goes live. -/
def Partner.live (P : Partner) (E : Epoch) (now : Nat) : Partner :=
  { P with hs := none, session := some E, lastEpoch := E.num, used := now, old := P.session.map fun X => (X, now + 1000000000) }

/-- A session goes live where its partner has a slot: the old epoch is kept for one second, and the job that waits completes. -/
theorem goLive_spec (hslot : P.inSlot = true) (port : Nat) (E : Epoch) :
    (s.goLive p port E).partner? p = some (P.live E s.time.elapsed) ∧ (s.goLive p port E).pending = s.pending ∧
    (s.goLive p port E).draws = s.draws ∧
    ∀ h j J, P.hs = some h → h.job = some j → s.job? j = some J → J.phase = .background → J.released = 0 →
      Answered (s.goLive p port E) j St.ok 0 := by
  have htake : s.takeSlot p = some s := by
    unfold State.takeSlot
    rw [hP]
    exact if_pos hslot
  have hv := State.modPartner_partner_some hP (Partner.live · E s.time.elapsed)
  have hgo : s.goLive p port E = match ((s.partner? p).bind (·.hs)).bind (·.job) with
      | some j => (s.modPartner p (Partner.live · E s.time.elapsed)).endJob j St.ok 0
      | none => s.modPartner p (Partner.live · E s.time.elapsed) := by
    unfold State.goLive
    rw [htake]
    rfl
  rw [hP] at hgo
  cases hjob : ((some P).bind (·.hs)).bind (·.job) with
  | none =>
    rw [hjob] at hgo
    rw [hgo]
    refine ⟨hv, rfl, rfl, fun h j J hh hj => ?_⟩
    simp [hh, hj] at hjob
  | some k =>
    rw [hjob] at hgo
    rw [hgo]
    have hends := (s.modPartner p (Partner.live · E s.time.elapsed)).endJob_ends (P := (· = k)) rfl St.ok 0 []
    refine ⟨(State.partner?_congr hends.partners p).trans hv, (congrArg State.pending hends.steady :), (congrArg State.draws hends.steady :),
      fun h j J hh hj hJ hphase hrel => ?_⟩
    have hk : j = k := by simpa [hh, hj] using hjob
    subst hk
    exact (State.endJob_ended (s := s.modPartner p (Partner.live · E s.time.elapsed)) hJ (by simp [hphase]) hrel St.ok 0 []).answered

end

/-! ### INIT (R337, R339) -/

/-- A handshake's frame that is a whole message is handled. -/
theorem handshakeRow_next {s u : State} {ty now : Nat} {i : Ingress} {P : Partner} (h : NextFrame s ty now i P u)
    (hone : hdrCount i.frame = 1) (hreas : P.reas = none) (f : State → Ingress → Partner → Bytes → State) :
    handshakeRow ty now f s = done s (f u i P (i.frame.drop 24)) := by
  obtain ⟨-, hQ, -⟩ := nextFrame_frame h
  unfold handshakeRow
  rw [frameRow_next h, reassemble_one hQ hreas hone]

section
variable {s u : State} {now : Nat} {i : Ingress} {P : Partner} (h : NextFrame s 0x01 now i P u) (hone : hdrCount i.frame = 1)
  (hreas : P.reas = none) (hlen : (i.frame.drop 24).length = 1248)
include h hone hreas hlen

theorem initFrame_unarmed (harmed : P.armed = false) (hauto : P.autoAccept = false) :
    exec (.initFrame now) s = .next (u.drop i.port 11) := by
  have hx : exec (.initFrame now) s = execInitFrame now s := rfl
  unfold execInitFrame at hx
  rw [handshakeRow_next h hone hreas] at hx
  refine hx.trans ((congrArg (done s) ((if_neg (by simp [hlen])).trans (if_pos (by simp [harmed, hauto])))).trans (done_eq ?_))
  exact (nextFrame_pending h :)

section
variable (harmed : P.armed = true ∨ P.autoAccept = true) (hhs : P.hs = none)
include harmed hhs

theorem initFrame_full (hfull : 4096 ≤ u.handshakes) : exec (.initFrame now) s = .next (u.drop i.port 12) := by
  have hx : exec (.initFrame now) s = execInitFrame now s := rfl
  unfold execInitFrame at hx
  rw [handshakeRow_next h hone hreas] at hx
  rw [if_neg (by simp [hlen]), if_neg (by rcases harmed with ha | ha <;> simp [ha]), if_pos ⟨by simp [hhs], hfull⟩] at hx
  exact hx.trans (done_eq (nextFrame_pending h :))

variable (hroom : u.handshakes < 4096)
include hroom

theorem initFrame_refused {r : Nat} (hstep : u.takeStep P.owner u.partners.hsClass i.partner 1248 replyPlan = .error r) :
    exec (.initFrame now) s = .next (u.refuseFrame i.port r) := by
  have hx : exec (.initFrame now) s = execInitFrame now s := rfl
  unfold execInitFrame at hx
  rw [handshakeRow_next h hone hreas] at hx
  rw [if_neg (by simp [hlen]), if_neg (by rcases harmed with ha | ha <;> simp [ha]), if_neg (by simp; omega), hhs] at hx
  dsimp only [Option.bind] at hx
  rw [if_neg (by simp [keepsInit, hhs]), hlen, hstep] at hx
  exact hx.trans (done_eq ((u.refuseFrame_pending i.port r).trans (nextFrame_pending h)))

omit h hone hreas hlen harmed hhs hroom in
/-- The handshake of a responder that has answered an INIT. -/
def State.replyHandshake (s : State) (i : Ingress) (lk msg : Bytes) (job : Option Nat) : Handshake :=
  let x := pairOf 0x5701 (drbgBytes s.draws 32)
  let kem := prim (.encaps 0x1002) [msg.take 1184, drbgBytes (s.draws + 64) 32] (1088 + 32)
  let head := kem.take 1088 ++ x.pk ++ drbgBytes (s.draws + 32) 32
  let th := soundingTh msg head
  { initiator := false, job := job, epoch := hdrEpoch i.frame, initMsg := msg,
    replyMsg := head ++ mlDsaSign 0x2002 lk (ascii "psibuaz-sounding") th (drbgBytes (s.draws + 96) 32),
    okm := soundingOkm (kem.drop 1088) (montgomery 0x5701 x.sk (sliceOf msg 1184 32)) th, sentAt := s.time.elapsed }

omit h hone hreas hlen harmed hhs hroom in
theorem State.replyHandshake_lengths (s : State) (i : Ingress) (lk msg : Bytes) (job : Option Nat) :
    (s.replyHandshake i lk msg job).replyMsg.length = 4461 ∧ (s.replyHandshake i lk msg job).okm.length = 88 := by
  simp [State.replyHandshake, pairOf, mlDsaSign, soundingOkm, kmac256, show pkLen (algOf 0x5701) = 32 from rfl,
    show sigLen 0x2002 = 3309 from rfl]

omit h hone hreas hlen harmed hhs hroom in
/-- The responder answers: it has drawn 128 bytes, and its partner holds the handshake. -/
theorem answerInit_spec {Q : Partner} (hQ : s.partner? i.partner = some Q) (lk msg : Bytes)
    (hzero : allZero (montgomery 0x5701 (pairOf 0x5701 (drbgBytes s.draws 32)).sk (sliceOf msg 1184 32)) = false) :
    (∃ o parts, s.answerInit i P lk msg = { s with draws := s.draws + 128, outbox := o, partners := parts }) ∧
    (s.answerInit i P lk msg).partner? i.partner =
      some { Q with lastEpoch := hdrEpoch i.frame, hs := some (s.replyHandshake i lk msg (Q.hs.bind (·.job))) } := by
  let f := fun Q' : Partner => { Q' with lastEpoch := hdrEpoch i.frame, hs := some (s.replyHandshake i lk msg (Q'.hs.bind (·.job))) }
  let t := (s.drawn 128).modPartner i.partner f
  have ht := State.modPartner_partner_some (s := s.drawn 128) hQ f
  let l := plainFrames P (fragMax (t.port P.port)) 0x02 (hdrEpoch i.frame) 0 (s.replyHandshake i lk msg none).replyMsg
  obtain ⟨o, ip, heq⟩ := t.egressAll_eq P l
  have hs : s.answerInit i P lk msg = t.egressAll P l := by
    unfold State.answerInit
    dsimp only
    rw [if_neg (by simp [hzero])]
    rfl
  rw [hs, heq]
  exact ⟨⟨_, _, rfl⟩, ht⟩

/-- An INIT that is admitted is answered. -/
theorem completes_initFrame {w : State} {lk pk : Bytes}
    (hstep : u.takeStep P.owner u.partners.hsClass i.partner 1248 replyPlan = .ok w) (hkeys : u.partnerKeys P = some (lk, pk))
    (hzero : allZero (montgomery 0x5701 (pairOf 0x5701 (drbgBytes s.draws 32)).sk (sliceOf (i.frame.drop 24) 1184 32)) = false) :
    Completes (.initFrame now) s fun t => t.draws = s.draws + 128 ∧ ∃ Q h, t.partner? i.partner = some Q ∧ Q.hs = some h ∧
      h.initiator = false ∧ h.epoch = hdrEpoch i.frame ∧ h.initMsg = i.frame.drop 24 ∧ h.replyMsg.length = 4461 ∧ h.okm.length = 88 ∧
      Q.session = P.session ∧ Q.lastEpoch = hdrEpoch i.frame := by
  have hx : exec (.initFrame now) s = execInitFrame now s := rfl
  unfold execInitFrame at hx
  rw [handshakeRow_next h hone hreas] at hx
  rw [if_neg (by simp [hlen]), if_neg (by rcases harmed with ha | ha <;> simp [ha]), if_neg (by simp; omega), hhs] at hx
  dsimp only [Option.bind] at hx
  rw [if_neg (by simp [keepsInit, hhs]), hlen, hstep] at hx
  dsimp only at hx
  obtain ⟨⟨parts, hu⟩, hQ, -⟩ := nextFrame_frame h
  obtain ⟨⟨jobs, regs, a, hw⟩, -⟩ := takeStep_spec hstep
  have hkw : w.partnerKeys P = some (lk, pk) := by rw [hw]; exact hkeys
  have hQw : w.partner? i.partner = some { P with used := (s.time.to now).elapsed } := by rw [hw]; exact hQ
  have hdraws : w.draws = s.draws := by rw [hw, hu]; rfl
  have hpend : w.pending = s.pending := by rw [hw, hu]; rfl
  rw [hkw] at hx
  dsimp only at hx
  generalize i.frame.drop 24 = msg at *
  obtain ⟨⟨o, p, ht⟩, hpartner⟩ := answerInit_spec (P := P) hQw lk msg (hdraws.symm ▸ hzero)
  obtain ⟨hreply, hokm⟩ := w.replyHandshake_lengths i lk msg (P.hs.bind (·.job))
  exact .of_done hx (by rw [ht]; exact hpend) ⟨by rw [ht]; exact congrArg (· + 128) hdraws, _, _, hpartner, rfl, rfl, rfl, rfl, hreply, hokm, rfl, rfl⟩

end

end

end Sys2Proof.Machine
end

section
/-! PROOF. REPLY, FINISH and the timers of sessions, and the obligation on them (14_partners_ports_time.md R337-R344). -/

namespace Sys2Proof.Machine

/-! ### REPLY (R338) -/

section
variable {s u : State} {now : Nat} {i : Ingress} {P : Partner} {k : Handshake} (h : NextFrame s 0x02 now i P u)
  (hone : hdrCount i.frame = 1) (hreas : P.reas = none) (hlen : (i.frame.drop 24).length = 4461) (hhs : P.hs = some k)
  (hinit : k.initiator = true) (hepoch : k.epoch = hdrEpoch i.frame)
include h hone hreas hlen hhs hinit hepoch

theorem replyFrame_refused {r : Nat} (hstep : u.takeStep P.owner u.partners.hsClass i.partner 4461 finishPlan = .error r) :
    exec (.replyFrame now) s = .next (u.refuseFrame i.port r) := by
  have hx : exec (.replyFrame now) s = execReplyFrame now s := rfl
  unfold execReplyFrame at hx
  rw [handshakeRow_next h hone hreas, hhs] at hx
  dsimp only at hx
  rw [if_neg (by simp [hinit, hepoch, hlen]), hlen, hstep] at hx
  exact hx.trans (done_eq ((u.refuseFrame_pending i.port r).trans (nextFrame_pending h)))

variable {w : State} {lk pk : Bytes} (hstep : u.takeStep P.owner u.partners.hsClass i.partner 4461 finishPlan = .ok w)
  (hkeys : u.partnerKeys P = some (lk, pk))
include hstep hkeys

omit hlen hinit hepoch hone hreas hhs hkeys in
/-- What a step that has been taken for a frame leaves as it was. -/
theorem replyFrame_frame : w.partner? i.partner = some { P with used := (s.time.to now).elapsed } ∧ w.pending = s.pending ∧
    w.draws = s.draws ∧ w.time = s.time.to now ∧ w.keys = s.keys ∧ ∀ j, j < s.nextSeq → w.job? j = s.job? j := by
  obtain ⟨⟨parts, hu⟩, hQ, -⟩ := nextFrame_frame h
  obtain ⟨⟨jobs, regs, a, hw⟩, -, hjobs⟩ := takeStep_spec hstep
  have hnext : u.nextSeq = s.nextSeq := by rw [hu]; rfl
  refine ⟨by rw [hw]; exact hQ, by rw [hw, hu]; rfl, by rw [hw, hu]; rfl, by rw [hw, hu]; rfl, by rw [hw, hu]; rfl, fun j hj => ?_⟩
  rw [hjobs j (by omega), hu]
  rfl

/-- The values that an initiator computes from a REPLY. -/
structure ReplyValues where
  ssK : Bytes
  ssX : Bytes
  th  : Bytes

omit h hone hreas hlen hhs hinit hepoch hstep hkeys in
/-- The values of handshake `k` under the reply `msg`. -/
def Handshake.values (k : Handshake) (msg : Bytes) : ReplyValues :=
  { ssK := prim (.decaps 0x1002) [k.secret.take (skLen 0x1002), msg.take 1088] 32,
    ssX := montgomery 0x5701 (k.secret.drop (skLen 0x1002)) (sliceOf msg 1088 32),
    th := sha384 (k.initMsg ++ msg.take 1152) }

section
variable (hzero : allZero (k.values (i.frame.drop 24)).ssX = false)
include hzero

/-- A REPLY whose signature does not verify ends the handshake. -/
theorem completes_replyFrame_bad
    (hsigned : mlDsaOk 0x2002 pk (ascii "psibuaz-sounding") (k.values (i.frame.drop 24)).th ((i.frame.drop 24).drop 1152) = false) :
    Completes (.replyFrame now) s fun t => (∃ Q, t.partner? i.partner = some Q ∧ Q.hs = none ∧ Q.session = P.session) ∧
      ∀ j J, k.job = some j → j < s.nextSeq → s.job? j = some J → J.phase = .background → J.released = 0 →
        Answered t j St.verifyFail 0 := by
  obtain ⟨hQ, hpend, -, -, -, hjobs⟩ := replyFrame_frame h hstep
  obtain ⟨⟨jobs, regs, a, hw⟩, -⟩ := takeStep_spec hstep
  have hkw : w.partnerKeys P = some (lk, pk) := by rw [hw]; exact hkeys
  have hx : exec (.replyFrame now) s = execReplyFrame now s := rfl
  unfold execReplyFrame at hx
  rw [handshakeRow_next h hone hreas, hhs] at hx
  dsimp only at hx
  rw [if_neg (by simp [hinit, hepoch, hlen]), hlen, hstep] at hx
  dsimp only at hx
  rw [hkw] at hx
  have hx : exec (.replyFrame now) s = done s (w.endHandshake i.partner St.verifyFail 0) :=
    hx.trans (congrArg (done s) ((if_neg (Bool.eq_false_iff.1 hzero)).trans (if_pos (Bool.eq_false_iff.1 hsigned))))
  obtain ⟨hpartner, hp, -⟩ := endHandshake_spec hQ St.verifyFail 0
  exact .of_done hx (hp.trans hpend) ⟨⟨_, hpartner, rfl, rfl⟩, fun j J hj hlt hJ hphase hrel =>
    endHandshake_answers hQ hhs hj ((hjobs j hlt).trans hJ) hphase hrel⟩

/-- A REPLY whose signature verifies makes the initiator's side go live under the keys of R338. -/
theorem completes_replyFrame
    (hsigned : mlDsaOk 0x2002 pk (ascii "psibuaz-sounding") (k.values (i.frame.drop 24)).th ((i.frame.drop 24).drop 1152) = true)
    (hslot : P.inSlot = true) : Completes (.replyFrame now) s fun t =>
      let V := k.values (i.frame.drop 24)
      let okm := kmac256 (V.ssK ++ V.ssX) V.th (ascii "psibuaz-sounding") 88
      t.draws = s.draws + 32 ∧
      (∃ Q E, t.partner? i.partner = some Q ∧ Q.hs = none ∧ Q.session = some E ∧ E.num = hdrEpoch i.frame ∧ E.keyOut = okm.take 32 ∧
        E.keyIn = sliceOf okm 32 32 ∧ E.ivOut = sliceOf okm 64 12 ∧ E.ivIn = sliceOf okm 76 12 ∧
        Q.old = P.session.map fun X => (X, (s.time.to now).elapsed + 1000000000)) ∧
      ∀ j J, k.job = some j → j < s.nextSeq → s.job? j = some J → J.phase = .background → J.released = 0 → Answered t j St.ok 0 := by
  obtain ⟨hQ, hpend, hdraws, htime, -, hjobs⟩ := replyFrame_frame h hstep
  obtain ⟨⟨jobs, regs, a, hw⟩, -⟩ := takeStep_spec hstep
  have hkw : w.partnerKeys P = some (lk, pk) := by rw [hw]; exact hkeys
  have hx : exec (.replyFrame now) s = execReplyFrame now s := rfl
  unfold execReplyFrame at hx
  rw [handshakeRow_next h hone hreas, hhs] at hx
  dsimp only at hx
  rw [if_neg (by simp [hinit, hepoch, hlen]), hlen, hstep] at hx
  dsimp only at hx
  rw [hkw] at hx
  dsimp only at hx
  have hx := hx.trans (congrArg (done s) ((if_neg (Bool.eq_false_iff.1 hzero)).trans (if_neg (not_not_intro hsigned))))
  generalize hl : sealedFrames P _ 0x03 _ _ _ _ _ _ = l at hx
  obtain ⟨o, ip, heq⟩ := (w.drawn 32).egressAll_eq P l
  rw [heq] at hx
  generalize hy : ({ w.drawn 32 with outbox := o, partners := _ } : State) = y at hx
  have hQy : y.partner? i.partner = some { P with used := (s.time.to now).elapsed } := by rw [← hy]; exact hQ
  obtain ⟨hpartner, hp, hd, hans⟩ := goLive_spec hQy hslot i.port
    (liveEpoch (soundingOkm (k.values (i.frame.drop 24)).ssK (k.values (i.frame.drop 24)).ssX (k.values (i.frame.drop 24)).th) true k.epoch
      l.length w.time.elapsed)
  have hyelapsed : y.time.elapsed = (s.time.to now).elapsed := by rw [← hy, ← htime]; rfl
  refine .of_done hx (hp.trans (by rw [← hy]; exact hpend)) ⟨hd.trans (by rw [← hy]; exact congrArg (· + 32) hdraws),
    ⟨_, _, hpartner, rfl, rfl, hepoch, rfl, rfl, rfl, rfl, ?_⟩, fun j J hj hlt hJ hphase hrel =>
      hans k j J hhs hj ((hy ▸ rfl : y.job? j = w.job? j).trans ((hjobs j hlt).trans hJ)) hphase hrel⟩
  rw [← hyelapsed]
  rfl

end

end

/-! ### FINISH (R338) -/

section
variable {s u w x : State} {now : Nat} {i : Ingress} {P : Partner} {k : Handshake} {m lk pk : Bytes} (h : NextFrame s 0x03 now i P u)
  (hone : hdrCount i.frame = 1) (hreas : P.reas = none) (hhs : P.hs = some k) (hinit : k.initiator = false)
  (hepoch : k.epoch = hdrEpoch i.frame) (htake : u.takeOpen i P = .ok w)
  (hstep : w.takeStep P.owner w.partners.hsClass i.partner m.length (opsPlan [(0x2202, true)]) = .ok x)
  (htag : gcmOpen (k.okm.take 32) (frameNonce (sliceOf k.okm 64 12) (hdrSeq i.frame)) (i.frame.take 24) (i.frame.drop 24) = some m)
  (hkeys : u.partnerKeys P = some (lk, pk))
include h hone hreas hhs hinit hepoch htake hstep htag hkeys

/-- Whether the FINISH of handshake `k` verifies. -/
def Handshake.finishOk (k : Handshake) (pk m : Bytes) : Bool :=
  mlDsaOk 0x2002 pk (ascii "psibuaz-sounding") (sha384 (sha384 (k.initMsg ++ k.replyMsg.take 1152) ++ k.replyMsg.drop 1152)) m

omit hone hreas hhs hinit hepoch htag hkeys in
theorem finishFrame_frame : x.partner? i.partner = some { P with used := (s.time.to now).elapsed } ∧ x.pending = s.pending := by
  obtain ⟨⟨jobs, regs, n, a, parts, hw⟩, hQ, -, -⟩ := nextFrame_taken h htake
  obtain ⟨⟨jobs', regs', a', hx⟩, -⟩ := takeStep_spec hstep
  exact ⟨by rw [hx]; exact hQ, by rw [hx, hw]; rfl⟩

theorem exec_finishFrame : exec (.finishFrame now) s = done s (if k.finishOk pk m then
      x.goLive i.partner i.port (liveEpoch k.okm false k.epoch (hdrCount i.frame) x.time.elapsed)
    else x.endHandshake i.partner St.verifyFail 0) := by
  obtain ⟨-, hQw, -, -⟩ := nextFrame_taken h htake
  obtain ⟨_, _, _, _, hwu⟩ := takeOpen_eq htake
  obtain ⟨⟨_, _, _, hxw⟩, -⟩ := takeStep_spec hstep
  have hkx : x.partnerKeys P = some (lk, pk) := by
    rw [hxw, hwu]
    exact hkeys
  have hx : exec (.finishFrame now) s = execFinishFrame now s := rfl
  unfold execFinishFrame at hx
  rw [frameRow_next h, hhs] at hx
  dsimp only at hx
  rw [if_neg (by simp [hinit, hepoch]), htake] at hx
  dsimp only at hx
  rw [htag] at hx
  dsimp only at hx
  rw [reassemble_one hQw hreas hone] at hx
  dsimp only at hx
  rw [hstep] at hx
  dsimp only at hx
  rw [hkx] at hx
  exact hx

theorem completes_finishFrame_bad (hsigned : k.finishOk pk m = false) : Completes (.finishFrame now) s fun t =>
    ∃ Q, t.partner? i.partner = some Q ∧ Q.hs = none ∧ Q.session = P.session := by
  obtain ⟨hQ, hpend⟩ := finishFrame_frame h htake hstep
  have hx := exec_finishFrame h hone hreas hhs hinit hepoch htake hstep htag hkeys
  rw [hsigned, if_neg Bool.false_ne_true] at hx
  obtain ⟨hpartner, hp, -⟩ := endHandshake_spec hQ St.verifyFail 0
  exact .of_done hx (hp.trans hpend) ⟨_, hpartner, rfl, rfl⟩

theorem completes_finishFrame (hsigned : k.finishOk pk m = true) (hslot : P.inSlot = true) : Completes (.finishFrame now) s fun t =>
    ∃ Q E, t.partner? i.partner = some Q ∧ Q.hs = none ∧ Q.session = some E ∧ E.num = hdrEpoch i.frame ∧ E.keyIn = k.okm.take 32 ∧
      E.keyOut = sliceOf k.okm 32 32 ∧ E.ivIn = sliceOf k.okm 64 12 ∧ E.ivOut = sliceOf k.okm 76 12 := by
  obtain ⟨hQ, hpend⟩ := finishFrame_frame h htake hstep
  have hx := exec_finishFrame h hone hreas hhs hinit hepoch htake hstep htag hkeys
  rw [hsigned, if_pos rfl] at hx
  obtain ⟨hpartner, hp, -⟩ := goLive_spec hQ hslot i.port (liveEpoch k.okm false k.epoch (hdrCount i.frame) x.time.elapsed)
  exact .of_done hx (hp.trans hpend) ⟨_, _, hpartner, rfl, rfl, hepoch, rfl, rfl, rfl, rfl⟩

end

/-! ### Timers (R339, R342) -/

/-- A dropped frame is counted. -/
theorem State.drop_eq (s : State) (p k : Nat) : ∃ regs, s.drop p k = { s with regs := regs } := by
  unfold State.drop State.bump State.bumpBy State.setReg
  exact ⟨_, rfl⟩

section
variable {s : State} {p now : Nat} {P : Partner} (hp : p < 2 ^ 24) (hP : s.partner? p = some P)
include hp hP

section
variable {h : Handshake} (hhs : P.hs = some h)
include hhs

theorem exec_retransmit : exec (.handshakeRetransmit p now) s = done s (
    if (s.time.to now).elapsed < h.sentAt + 250000000 then s.at_ now
    else if 3 ≤ h.tries then (s.at_ now).endHandshake p St.aborted 1
    else ((s.at_ now).modPartner p fun P => { P with hs := some { h with tries := h.tries + 1, sentAt := (s.time.to now).elapsed } }).egressAll P
      (plainFrames P (fragMax (s.port P.port)) (if h.initiator then 0x01 else 0x02) h.epoch 0
        (if h.initiator then h.initMsg else h.replyMsg))) := by
  have hx : exec (.handshakeRetransmit p now) s = execHandshakeRetransmit p now s := rfl
  unfold execHandshakeRetransmit at hx
  dsimp only at hx
  rw [within_ok (decide_eq_true hp), show (s.at_ now).partner? p = some P from hP] at hx
  dsimp only at hx
  rw [hhs] at hx
  exact hx

theorem retransmit_early (hearly : (s.time.to now).elapsed < h.sentAt + 250000000) :
    exec (.handshakeRetransmit p now) s = .next (s.at_ now) := by
  rw [exec_retransmit hp hP hhs, if_pos hearly]
  exact done_eq rfl

variable (hdue : h.sentAt + 250000000 ≤ (s.time.to now).elapsed)
include hdue

theorem completes_retransmit (htries : h.tries < 3) : Completes (.handshakeRetransmit p now) s fun t =>
    t.partner? p = some { P with hs := some { h with tries := h.tries + 1, sentAt := (s.time.to now).elapsed } } := by
  have hx := exec_retransmit (now := now) hp hP hhs
  rw [if_neg (by omega), if_neg (by omega)] at hx
  obtain ⟨o, ip, heq⟩ := State.egressAll_eq
    ((s.at_ now).modPartner p fun P => { P with hs := some { h with tries := h.tries + 1, sentAt := (s.time.to now).elapsed } }) P
    (plainFrames P (fragMax (s.port P.port)) (if h.initiator then 0x01 else 0x02) h.epoch 0 (if h.initiator then h.initMsg else h.replyMsg))
  rw [heq] at hx
  have hv := State.modPartner_partner_some (s := s.at_ now) hP
    fun P => { P with hs := some { h with tries := h.tries + 1, sentAt := (s.time.to now).elapsed } }
  exact .of_done hx rfl hv

theorem completes_retransmit_last (htries : 3 ≤ h.tries) : Completes (.handshakeRetransmit p now) s fun t =>
    t.partner? p = some { P with hs := none } ∧
    ∀ j J, h.job = some j → s.job? j = some J → J.phase = .background → J.released = 0 → Answered t j St.aborted 1 := by
  have hx := exec_retransmit (now := now) hp hP hhs
  rw [if_neg (by omega), if_pos htries] at hx
  obtain ⟨hpartner, hpend, -⟩ := endHandshake_spec (s := s.at_ now) hP St.aborted 1
  exact .of_done hx hpend ⟨hpartner, fun j J hj hJ hphase hrel => endHandshake_answers (s := s.at_ now) hP hhs hj hJ hphase hrel⟩

end

theorem completes_reassemblyTimeout {r : Reassembly} (hr : P.reas = some r) (hdue : r.firstAt + 100000000 ≤ (s.time.to now).elapsed) :
    Completes (.reassemblyTimeout p now) s fun t => t.partner? p = some { P with reas := none } ∧
      t = { s with time := s.time.to now, partners := t.partners, regs := t.regs } := by
  have hx : exec (.reassemblyTimeout p now) s = execReassemblyTimeout p now s := rfl
  unfold execReassemblyTimeout at hx
  dsimp only at hx
  rw [within_ok (decide_eq_true hp), show (s.at_ now).partner? p = some P from hP] at hx
  dsimp only at hx
  rw [if_pos (by rw [hr, Option.any_some, show (s.at_ now).time = s.time.to now from rfl]; exact decide_eq_true hdue)] at hx
  have hv := State.modPartner_partner_some (s := s.at_ now) hP fun P => { P with reas := none }
  obtain ⟨regs, hdrop⟩ := ((s.at_ now).modPartner p fun P => { P with reas := none }).drop_eq P.port 10
  rw [hdrop] at hx
  exact .of_done hx rfl ⟨hv, rfl⟩

section
variable {E : Epoch} (hE : P.session = some E)
include hE

theorem completes_epochExpiry (hdue : E.live + 86400 * 10 ^ 9 ≤ (s.time.to now).elapsed) : Completes (.epochExpiry p now) s fun t =>
    (∃ Q, t.partner? p = some Q ∧ Q.session = none ∧ Q.old = none ∧ Q.hs = P.hs) ∧
    t = { s with time := s.time.to now, partners := t.partners } := by
  have hx : exec (.epochExpiry p now) s = execEpochExpiry p now s := rfl
  unfold execEpochExpiry at hx
  dsimp only at hx
  rw [within_ok (decide_eq_true hp), show (s.at_ now).partner? p = some P from hP] at hx
  dsimp only at hx
  rw [if_pos (by rw [hE, Option.any_some, expiryDue, show (s.at_ now).time = s.time.to now from rfl, decide_eq_true hdue]; rfl)] at hx
  have hv := State.modPartner_partner_some (s := s.at_ now) hP fun P =>
    { P with session := none, old := none, inSlot := false, spilled := false, moving := false, reas := none }
  exact .of_done hx rfl ⟨⟨_, hv, rfl, rfl, rfl⟩, rfl⟩

theorem epochExpiry_early (hlive : (s.time.to now).elapsed < E.live + 82800 * 10 ^ 9) (hframes : E.frames < 2 ^ 31) :
    exec (.epochExpiry p now) s = .next (s.at_ now) := by
  have hx : exec (.epochExpiry p now) s = execEpochExpiry p now s := rfl
  unfold execEpochExpiry at hx
  dsimp only at hx
  rw [within_ok (decide_eq_true hp), show (s.at_ now).partner? p = some P from hP] at hx
  dsimp only at hx
  rw [if_neg (by
    rw [hE, Option.any_some, expiryDue, show (s.at_ now).time = s.time.to now from rfl, Bool.or_eq_true, decide_eq_true_eq, decide_eq_true_eq]
    omega)] at hx
  exact hx.trans (done_eq rfl)

theorem rekeyTimer_early (hlive : (s.time.to now).elapsed < E.live + 82800 * 10 ^ 9) (hframes : E.frames < 2 ^ 31) :
    exec (.rekeyTimer p now) s = .next (s.at_ now) := by
  have hnot : (P.session.any fun E => rekeyDue E (s.time.to now).elapsed) = false := by
    rw [hE, Option.any_some, rekeyDue, Bool.or_eq_false_iff, decide_eq_false_iff_not, decide_eq_false_iff_not]
    omega
  have hx : exec (.rekeyTimer p now) s = execRekeyTimer p now s := rfl
  unfold execRekeyTimer at hx
  dsimp only at hx
  rw [within_ok (decide_eq_true hp), show (s.at_ now).partner? p = some P from hP] at hx
  dsimp only at hx
  rw [if_neg (fun hall => absurd (hnot.symm.trans hall.2.2.1) Bool.false_ne_true)] at hx
  exact hx.trans (done_eq rfl)

/-- A session whose age calls for new keys begins a Sounding by itself. -/
theorem completes_rekeyTimer (hdue : E.live + 82800 * 10 ^ 9 ≤ (s.time.to now).elapsed) (husable : P.usable = true) (hhs : P.hs = none)
    (hrole : s.roleFits P = true) (hlink : (s.port P.port).link = true) (hroom : s.handshakes < 4096) (hsafe : s.faults.safe.on = false)
    (hchart : s.chartStops = false) {w : State} (hstep : (s.at_ now).takeStep P.owner s.partners.hsClass p 0 initPlan = .ok w)
    (hslot : P.inSlot = true) (hmoving : P.moving = false) : Completes (.rekeyTimer p now) s fun t =>
      t.draws = s.draws + 128 ∧ ∃ Q h, t.partner? p = some Q ∧ Q.hs = some h ∧ h.initiator = true ∧ h.job = none ∧
        h.epoch = (P.lastEpoch + 1) % 256 ∧ Q.session = P.session := by
  have hyes : (P.session.any fun E => rekeyDue E (s.time.to now).elapsed) = true := by
    rw [hE, Option.any_some, rekeyDue, decide_eq_true hdue]
    rfl
  have hx : exec (.rekeyTimer p now) s = execRekeyTimer p now s := rfl
  unfold execRekeyTimer at hx
  dsimp only at hx
  rw [within_ok (decide_eq_true hp), show (s.at_ now).partner? p = some P from hP] at hx
  dsimp only at hx
  rw [if_pos ⟨husable, by rw [hhs]; rfl, hyes, hrole, hlink, hroom, by rw [show (s.at_ now).chartStops = false from hchart]; simp,
    by rw [show (s.at_ now).faults.safe.on = false from hsafe]; simp⟩, State.touch_ready (s := s.at_ now) hP (.inr ⟨hslot, hmoving⟩)] at hx
  dsimp only at hx
  rw [show (s.at_ now).takeStep P.owner (s.at_ now).partners.hsClass p 0 initPlan = .ok w from hstep] at hx
  dsimp only at hx
  obtain ⟨⟨jobs, regs, a, hw⟩, -⟩ := takeStep_spec hstep
  have hPw : w.partner? p = some P := by rw [hw]; exact hP
  have hdraws : w.draws = s.draws := by rw [hw]; rfl
  have hpend : w.pending = s.pending := by rw [hw]; rfl
  obtain ⟨⟨o, parts, heq⟩, hpartner, -⟩ := State.startSounding_spec hPw none
  refine .of_done hx (by rw [heq]; exact hpend) ⟨by rw [heq]; exact congrArg (· + 128) hdraws, _, _, hpartner, rfl, rfl, rfl, rfl, rfl⟩

end

theorem completes_oldEpoch {E : Epoch} {g : Nat} (hold : P.old = some (E, g)) (hdue : g ≤ (s.time.to now).elapsed) :
    Completes (.oldEpochGraceEnd p now) s fun t => t.partner? p = some { P with old := none } ∧
      t = { s with time := s.time.to now, partners := t.partners } := by
  have hx : exec (.oldEpochGraceEnd p now) s = execOldEpochGraceEnd p now s := rfl
  unfold execOldEpochGraceEnd at hx
  dsimp only at hx
  rw [within_ok (decide_eq_true hp)] at hx
  have hv := State.modPartner_partner_some (s := s.at_ now) hP fun P =>
    if P.old.any fun o => decide (o.2 ≤ (s.time.to now).elapsed) then { P with old := none } else P
  rw [if_pos (by rw [hold]; exact decide_eq_true hdue)] at hv
  exact .of_done hx rfl ⟨hv, rfl⟩

end

/-! ### Messages that nobody takes, and a link that comes up (R326, R343) -/

section
variable {s : State} {f now : Nat} (hf : f ≤ 0x100)
include hf

theorem exec_noReceive : exec (.noReceiveTimeout f now) s = done s (((s.fn f).backlog.filter fun m => decide (m.2.2.2 + 100000000 ≤ (s.time.to now).elapsed)).foldl
    (fun w m => match w.partner? m.1 with
      | some P => w.drop P.port 14
      | none => w)
    ((s.at_ now).modFn f fun F => { F with
      backlog := F.backlog.filter fun m => !decide (m.2.2.2 + 100000000 ≤ (s.time.to now).elapsed) })) := by
  have hx : exec (.noReceiveTimeout f now) s = execNoReceiveTimeout f now s := rfl
  unfold execNoReceiveTimeout at hx
  dsimp only at hx
  rw [within_ok (decide_eq_true hf)] at hx
  exact hx

theorem completes_noReceive_empty (hempty : (s.fn f).backlog = []) : Completes (.noReceiveTimeout f now) s fun t => (t.fn f).backlog = [] ∧
    t = { s with time := s.time.to now, fns := t.fns } := by
  have hx := exec_noReceive (s := s) (now := now) hf
  rw [hempty] at hx
  refine .of_done hx rfl ⟨(congrArg Fn.backlog ((s.at_ now).modFn_fn_same f _)).trans ?_, rfl⟩
  rw [show ((s.at_ now).fn f).backlog = [] from hempty]
  rfl

/-- One message that has waited too long is dropped, and counted on its partner's port. -/
theorem completes_noReceive_late {p q : Nat} {msg : Bytes} {P : Partner} (hP : s.partner? p = some P)
    (hone : (s.fn f).backlog = [(p, q, msg, 0)]) (hlate : 100000000 ≤ (s.time.to now).elapsed) :
    Completes (.noReceiveTimeout f now) s fun t => (t.fn f).backlog = [] ∧ t = { (s.at_ now).drop P.port 14 with fns := t.fns } := by
  have hdue : decide (0 + 100000000 ≤ (s.time.to now).elapsed) = true := decide_eq_true (by omega)
  have hgone : [(p, q, msg, 0)].filter (fun m => decide (m.2.2.2 + 100000000 ≤ (s.time.to now).elapsed)) = [(p, q, msg, 0)] :=
    List.filter_cons_of_pos hdue
  have hkept : [(p, q, msg, 0)].filter (fun m => !decide (m.2.2.2 + 100000000 ≤ (s.time.to now).elapsed)) = [] :=
    List.filter_cons_of_neg (by rw [hdue]; exact Bool.false_ne_true)
  have hx := exec_noReceive (s := s) (now := now) hf
  rw [hone, hgone] at hx
  have hPf (g : Fn → Fn) : ((s.at_ now).modFn f g).partner? p = some P := hP
  rw [List.foldl_cons, List.foldl_nil, hPf] at hx
  have hbacklog : (((s.at_ now).modFn f fun F => { F with
      backlog := F.backlog.filter fun m => !decide (m.2.2.2 + 100000000 ≤ (s.time.to now).elapsed) }).fn f).backlog = [] := by
    rw [State.modFn_fn_same]
    dsimp only
    rw [show ((s.at_ now).fn f).backlog = _ from hone, hkept]
  exact .of_done hx rfl ⟨hbacklog, rfl⟩

end

theorem State.msix_pending (s : State) (f v : Nat) : (s.msix f v).pending = s.pending := (congrArg State.pending (s.msix_steady f v) :)

theorem State.sendPtp_pending (s : State) (p b : Nat) : (s.sendPtp p b).pending = s.pending := by
  unfold State.sendPtp
  dsimp only
  split
  · rfl
  · exact State.msix_pending _ 0 1

theorem exec_fieldPortLinkUp {s : State} {k now : Nat} (hk : k < portsOf s.variant) (hmode : s.partners.mode1 = false)
    (hrole : (s.port k).role ≠ 0) (hstopped : (s.port k).stopped = false) :
    exec (.fieldPortLinkUp k now) s = .next (((s.at_ now).modPort k fun P => { P with link := true }).sendWaiting k) := by
  have hk4 : k < 4 := lt_of_lt_of_le hk (by cases s.variant <;> decide)
  have hx : exec (.fieldPortLinkUp k now) s = execFieldPortLinkUp k now s := rfl
  unfold execFieldPortLinkUp at hx
  dsimp only at hx
  rw [within_ok (decide_eq_true hk4), if_pos ⟨hk, .inl (by rw [show (s.at_ now).partners.mode1 = false from hmode]; simp), hrole,
    by rw [show ((s.at_ now).port k).stopped = false from hstopped]; simp⟩] at hx
  exact hx.trans (done_eq (eachOf_keeps State.pending _ (fun u b => u.sendPtp k b) (fun u b => u.sendPtp_pending k b) _))

end Sys2Proof.Machine

open Sys2Proof.Machine

/-- Settles O42. -/
theorem soundingMakesSessionsAndTimersEndThem : Obligations.SoundingMakesSessionsAndTimersEndThem := by
  unfold Obligations.SoundingMakesSessionsAndTimersEndThem
  refine ⟨?_, ?_⟩
  · intro s now i P u hone hreas msg e
    refine ⟨?_, ?_, ?_⟩
    · intro h hlen
      refine ⟨initFrame_unarmed h hone hreas hlen, fun harmed hhs => ⟨initFrame_full h hone hreas hlen harmed hhs,
        fun r hroom => initFrame_refused h hone hreas hlen harmed hhs hroom, ?_⟩⟩
      intro w lk pk hroom hstep hkeys x hzero
      exact completes_initFrame h hone hreas hlen harmed hhs hroom hstep hkeys hzero
    · intro k h hhs hinit hepoch hlen
      refine ⟨fun r => replyFrame_refused h hone hreas hlen hhs hinit hepoch, ?_⟩
      intro w lk pk hstep hkeys th ssK ssX signed hzero
      exact ⟨completes_replyFrame_bad h hone hreas hlen hhs hinit hepoch hstep hkeys hzero,
        completes_replyFrame h hone hreas hlen hhs hinit hepoch hstep hkeys hzero⟩
    · intro k m w x h hhs hinit hepoch htake hstep htag lk pk hkeys th signed
      exact ⟨completes_finishFrame_bad h hone hreas hhs hinit hepoch htake hstep htag hkeys,
        completes_finishFrame h hone hreas hhs hinit hepoch htake hstep htag hkeys⟩
  · intro s p now P hp hP T
    refine ⟨fun h hhs => ⟨retransmit_early hp hP hhs, completes_retransmit hp hP hhs, completes_retransmit_last hp hP hhs⟩,
      fun r => completes_reassemblyTimeout hp hP, fun E hE => ⟨completes_epochExpiry hp hP hE, ?_, fun hlive hframes =>
        ⟨rekeyTimer_early hp hP hE hlive hframes, epochExpiry_early hp hP hE hlive hframes⟩⟩, fun E g => completes_oldEpoch hp hP,
      fun f hf => completes_noReceive_empty hf, fun f hf q msg => completes_noReceive_late hf hP,
      fun k hk hmode hrole hstopped => exec_fieldPortLinkUp hk hmode hrole hstopped⟩
    rintro hdue husable hhs hrole hlink hroom hsafe hchart ⟨w, hstep⟩ hslot hmoving
    exact completes_rekeyTimer hp hP hE hdue husable hhs hrole hlink hroom hsafe hchart hstep hslot hmoving

end

section
/-! PROOF. An FLR of a function whose table of jobs lists one number twice, the first time for a job of another function that has
released output (11_functions_and_sharing.md R269). -/

namespace Sys2Proof.Machine

/-- A device in reset but for function 1, which SR-IOV has enabled, and for number 5 in the table of jobs: it stands for a job of
function 2 that has released a byte, and behind it for one of function 1. -/
def doubled : State := { State.reset with
  fns := [(1, { fnDefault 1 with enabled := true })],
  jobs := [(5, { fn := 2, phase := .placed, released := 1 }), (5, { src := .ring 300, fn := 1, phase := .staged })],
  hostMem := memWriteN [] 0 [1#8] }

/-- The FLR of function 1 reaches job 5, and the byte that it has released is written with zero. -/
theorem vfFlr_doubled_hostMem : (match exec (.vfFlr 1 0) doubled with
    | .next t => t.hostMem
    | _ => []) = [] := by
  rfl

theorem doubled_hostMem : doubled.hostMem = memWriteN [] 0 [1#8] := rfl

end Sys2Proof.Machine

open Sys2Proof.Machine

/-- Refutes O43: the FLR of function 1 in `doubled` ends a job of function 2, which is not silenced, and writes to the host. -/
theorem not_functionResetsEndTheirFunctionOnly : ¬ Obligations.FunctionResetsEndTheirFunctionOnly := by
  unfold Obligations.FunctionResetsEndTheirFunctionOnly
  intro h
  obtain ⟨t, hx, -, -, -, -, -, -, -, -, -, -, -, -, hmem, -⟩ := (h.1 doubled 1 0 le_rfl (by decide)).1 rfl rfl
  have hwritten := vfFlr_doubled_hostMem
  rw [hx] at hwritten
  dsimp only at hwritten
  rw [hmem, doubled_hostMem] at hwritten
  exact absurd hwritten (by decide)

end

section
/-! PROOF. The Almanac: its sources, corrections, pulses and PTP messages, and the obligation on them
(14_partners_ports_time.md R346-R350). -/

namespace Sys2Proof.Machine

/-! ### What a time event leaves (R349, R359) -/

theorem Reports.time {s t : State} (h : Reports s t) : t.time = s.time := (congrArg State.time h.eq :)
theorem Reports.pending {s t : State} (h : Reports s t) : t.pending = s.pending := (congrArg State.pending h.eq :)
theorem Reports.auth {s t : State} (h : Reports s t) : t.auth = s.auth := (congrArg State.auth h.eq :)

theorem State.timeEvent_reports (s : State) (kind old new : Nat) : Reports s (s.timeEvent kind old new) :=
  State.logEvent_reports _ _ _ _

/-- Lock makes the Almanac trusted unless SIGNED_ONLY is set; no other part of the time moves. -/
theorem State.lockGained_time (s : State) :
    s.lockGained.time = { s.time with trusted := s.time.trusted || !s.time.signedOnly } ∧ s.lockGained.pending = s.pending := by
  unfold State.lockGained
  cases h : s.time.signedOnly with
  | true =>
    refine ⟨?_, rfl⟩
    rw [if_pos rfl, Bool.not_true, Bool.or_false]
  | false =>
    have hreports := s.gainTrust_reports
    exact ⟨by rw [if_neg (by simp), hreports.time]; simp [h], hreports.pending⟩

/-- A lock that may have been gained: the Almanac's trust alone follows it. -/
theorem lockGained_if_time (v : State) (c : Prop) [Decidable c] :
    ∃ b, (if c then v.lockGained else v).time = { v.time with trusted := b } ∧
      (c → b = (v.time.trusted || !v.time.signedOnly)) ∧ (¬ c → b = v.time.trusted) ∧
      (if c then v.lockGained else v).pending = v.pending := by
  by_cases hc : c
  · rw [if_pos hc]
    exact ⟨_, v.lockGained_time.1, fun _ => rfl, absurd hc, v.lockGained_time.2⟩
  · rw [if_neg hc]
    exact ⟨v.time.trusted, rfl, fun h => absurd h hc, fun _ => rfl, rfl⟩

/-! ### The manager's writes (R346, R348, R349) -/

theorem State.bump_pending (s : State) (off : Nat) : (s.bump off).pending = s.pending := rfl

section
variable {s : State} (hbar : s.barOn 0 = true)
include hbar

/-- A write that the manager makes while the device answers, whose effect keeps the queue of commands. -/
theorem exec_managed {c : Instr} {t : State} (hx : exec c s = done s (managed s t)) (ht : t.pending = s.pending) : exec c s = .next t := by
  rw [hx, managed_on hbar]
  exact done_eq ht

theorem completes_managed {c : Instr} {t : State} {P : State → Prop} (hx : exec c s = done s (managed s t)) (ht : t.pending = s.pending)
    (hP : P t) : Completes c s P := ⟨t, exec_managed hbar hx ht, hP⟩

/-- A write whose effect is a time event after a change of the time. -/
theorem completes_timeEvent {c : Instr} {T : TimeState} {kind old new : Nat}
    (hx : exec c s = done s (managed s ({ s with time := T }.timeEvent kind old new))) :
    Completes c s fun t => t.time = T ∧ t.pins = s.pins ∧ t.auth = s.auth := by
  have hreports := State.timeEvent_reports { s with time := T } kind old new
  exact completes_managed hbar hx hreports.pending ⟨hreports.time, hreports.pins, hreports.auth⟩

theorem exec_almSource_same {v : BitVec 32} (h : v.toNat % 4 = 3 ∨ v.toNat % 4 = s.time.source) : exec (.almSource v) s = .next s := by
  have hx : exec (.almSource v) s = done s (managed s (s.almSource v.toNat)) := rfl
  unfold State.almSource at hx
  exact exec_managed hbar (hx.trans (by rw [if_pos h])) rfl

theorem completes_almSource {v : BitVec 32} (h : ¬ (v.toNat % 4 = 3 ∨ v.toNat % 4 = s.time.source)) :
    Completes (.almSource v) s fun t =>
      t.time = { s.time with source := v.toNat % 4, locked := false, lockRun := 0, lastAdj := none, servo := .none } ∧
      t.pins = s.pins ∧ t.auth = s.auth := by
  have hx : exec (.almSource v) s = done s (managed s (s.almSource v.toNat)) := rfl
  unfold State.almSource at hx
  exact completes_timeEvent hbar (hx.trans (by rw [if_neg h]))

theorem exec_almAdjFreq_taken {v : BitVec 32} (h : v.toInt.natAbs ≤ 100000) :
    exec (.almAdjFreq v) s = .next { s with time := { s.time with adjFreq := v.toInt } } := by
  have hx : exec (.almAdjFreq v) s = done s (managed s (s.setAdjFreq v.toInt)) := rfl
  unfold State.setAdjFreq at hx
  rw [if_pos h] at hx
  exact exec_managed hbar hx rfl

theorem exec_almAdjFreq_refused {v : BitVec 32} (h : 100000 < v.toInt.natAbs) : exec (.almAdjFreq v) s = .next (s.bump 0x9002C) := by
  have hx : exec (.almAdjFreq v) s = done s (managed s (s.setAdjFreq v.toInt)) := rfl
  unfold State.setAdjFreq at hx
  rw [if_neg (Nat.not_le.2 h)] at hx
  exact exec_managed hbar hx (s.bump_pending _)

theorem exec_almSet_signedOnly {v : BitVec 64} (h : s.time.signedOnly = true) : exec (.almSet v) s = .next s := by
  have hx : exec (.almSet v) s = done s (managed s (s.setAlmanac v.toNat)) := rfl
  unfold State.setAlmanac at hx
  rw [if_pos h] at hx
  exact exec_managed hbar hx rfl

theorem exec_almSet_refused {v : BitVec 64} (hsigned : s.time.signedOnly = false) (h : s.time.trusted = true ∨ v.toNat < s.time.almanac) :
    exec (.almSet v) s = .next (s.bump 0x9002C) := by
  have hx : exec (.almSet v) s = done s (managed s (s.setAlmanac v.toNat)) := rfl
  unfold State.setAlmanac at hx
  rw [if_neg (by simp [hsigned]), if_pos h] at hx
  exact exec_managed hbar hx (s.bump_pending _)

theorem completes_almSet {v : BitVec 64} (hsigned : s.time.signedOnly = false) (htrusted : s.time.trusted = false)
    (h : s.time.almanac ≤ v.toNat) : Completes (.almSet v) s fun t =>
      t.time = { s.time with almanac := v.toNat, slew := .none, servo := .none }.sync ∧ t.pins = s.pins ∧ t.auth = s.auth := by
  have hx : exec (.almSet v) s = done s (managed s (s.setAlmanac v.toNat)) := rfl
  unfold State.setAlmanac at hx
  rw [if_neg (by simp [hsigned]), if_neg (by simp [htrusted, h])] at hx
  exact completes_timeEvent hbar hx

theorem exec_almStepBound_discarded {v : BitVec 32} (h : v.toNat < 1000 ∨ 1000000000 < v.toNat) : exec (.almStepBound v) s = .next s := by
  have hx : exec (.almStepBound v) s = done s (managed s (s.setStepBound v.toNat)) := rfl
  unfold State.setStepBound at hx
  rw [if_pos h] at hx
  exact exec_managed hbar hx rfl

section
variable {v : BitVec 32} (hlo : 1000 ≤ v.toNat) (hhi : v.toNat ≤ 1000000000)
include hlo hhi

theorem exec_almStepBound_refused (h : s.time.trusted = true) : exec (.almStepBound v) s = .next (s.bump 0x9002C) := by
  have hx : exec (.almStepBound v) s = done s (managed s (s.setStepBound v.toNat)) := rfl
  unfold State.setStepBound at hx
  rw [if_neg (by omega), if_pos h] at hx
  exact exec_managed hbar hx (s.bump_pending _)

theorem completes_almStepBound (h : s.time.trusted = false) :
    Completes (.almStepBound v) s fun t => t.time = { s.time with stepBound := v.toNat } := by
  have hx : exec (.almStepBound v) s = done s (managed s (s.setStepBound v.toNat)) := rfl
  unfold State.setStepBound at hx
  rw [if_neg (by omega), if_neg (by simp [h])] at hx
  obtain ⟨t, ht, htime, -⟩ := completes_timeEvent hbar hx
  exact ⟨t, ht, htime⟩

end

/-! ### Corrections of the offset (R348) -/

/-- An offset is a correction out of its bounds under SOURCE 2 and the step bound over the last hour. -/
theorem exec_almAdjOffset_refused {v : BitVec 64} (h : s.time.source ≠ 2 ∨
    s.time.stepBound < ((recentCorrections s.time).map (·.2)).sum + v.toInt.natAbs) : exec (.almAdjOffset v) s = .next (s.bump 0x9002C) := by
  have hx : exec (.almAdjOffset v) s = done s (managed s (s.adjOffset v.toInt)) := rfl
  unfold State.adjOffset at hx
  dsimp only at hx
  rw [if_pos h] at hx
  exact exec_managed hbar hx (s.bump_pending _)

omit hbar in
/-- A correction moves the Almanac and its slew alone. -/
theorem TimeState.offset_eq (T : TimeState) (v : Int) : ∃ a sl r, T.offset v = { T with almanac := a, slew := sl, replicas := r } ∧
    (0 ≤ v → a = T.almanac + v.natAbs ∧ sl = T.slew) ∧ (v < 0 → a = T.almanac ∧ (T.slew = .none → sl = .lose 1000 v.natAbs 0)) := by
  unfold TimeState.offset
  split
  next h => exact ⟨_, _, _, rfl, fun _ => ⟨congrArg (T.almanac + ·) (by omega), rfl⟩, fun hneg => absurd h (by omega)⟩
  next h =>
    split
    next hs => exact ⟨_, _, _, rfl, fun hpos => absurd hpos h, fun _ => ⟨rfl, fun hnone => by rw [hnone] at hs; cases hs⟩⟩
    next => exact ⟨_, _, _, rfl, fun hpos => absurd hpos h, fun _ => ⟨rfl, fun _ => rfl⟩⟩

omit hbar in
theorem offsetRun_next {T : TimeState} {m : Nat} (hm : m ≤ 1000) (hl : ∀ l, T.lastAdj = some l → l + 100000000 ≤ T.elapsed) :
    offsetRun T m = T.lockRun + 1 := by
  unfold offsetRun
  rw [if_neg (Nat.not_lt.2 hm), if_neg]
  cases h : T.lastAdj with
  | none => simp
  | some l =>
    rw [Option.any_some, decide_eq_true_iff, Nat.not_lt]
    exact hl l h

theorem completes_almAdjOffset {v : BitVec 64} (hsource : s.time.source = 2)
    (hbound : ((recentCorrections s.time).map (·.2)).sum + v.toInt.natAbs ≤ s.time.stepBound) : Completes (.almAdjOffset v) s fun t =>
      (0 ≤ v.toInt → t.time.almanac = s.time.almanac + v.toInt.natAbs ∧ t.time.slew = s.time.slew) ∧
      (v.toInt < 0 → t.time.almanac = s.time.almanac ∧ (s.time.slew = .none → t.time.slew = .lose 1000 v.toInt.natAbs 0)) ∧
      t.time.accepted = (s.time.elapsed, v.toInt.natAbs) :: recentCorrections s.time ∧ t.time.elapsed = s.time.elapsed ∧
      (10000 < v.toInt.natAbs → t.time.locked = false ∧ t.time.trusted = s.time.trusted) ∧
      (s.time.locked = false → 15 ≤ s.time.lockRun → v.toInt.natAbs ≤ 1000 →
        (∀ l, s.time.lastAdj = some l → l + 100000000 ≤ s.time.elapsed) →
        t.time.locked = true ∧ t.time.trusted = (s.time.trusted || !s.time.signedOnly)) := by
  have hx : exec (.almAdjOffset v) s = done s (managed s (s.adjOffset v.toInt)) := rfl
  unfold State.adjOffset at hx
  dsimp only at hx
  rw [if_neg (by omega)] at hx
  obtain ⟨a, sl, r, ho, hforward, hback⟩ := s.time.offset_eq v.toInt
  rw [ho] at hx
  generalize hlocked : (if 10000 < v.toInt.natAbs then false else s.time.locked || decide (16 ≤ offsetRun s.time v.toInt.natAbs)) = locked at hx
  obtain ⟨b, htime, hgain, hstay, hpend⟩ := lockGained_if_time { s with time := { s.time with
      almanac := a, slew := sl, replicas := r, accepted := (s.time.elapsed, v.toInt.natAbs) :: recentCorrections s.time,
      lockRun := offsetRun s.time v.toInt.natAbs, lastAdj := some s.time.elapsed, locked := locked } } (locked = true ∧ ¬ s.time.locked = true)
  refine completes_managed hbar hx hpend ?_
  rw [htime]
  refine ⟨hforward, hback, rfl, rfl, fun hlarge => ?_, fun hunlocked hrun hsmall hlast => ?_⟩
  · rw [if_pos hlarge] at hlocked
    exact ⟨hlocked.symm, hstay fun h => by simp [← hlocked] at h⟩
  · rw [if_neg (by omega), offsetRun_next hsmall hlast] at hlocked
    have hl : locked = true := by
      rw [← hlocked, decide_eq_true (by omega), Bool.or_true]
    exact ⟨hl, hgain ⟨hl, by simp [hunlocked]⟩⟩

end

/-! ### Pulses and the checkpoint (R346, R349, R350) -/

section
variable {s : State} {now : Nat}

theorem exec_ppsInEdge_recorded {e : Int} (h : (s.time.to now).source ≠ 1) :
    exec (.ppsInEdge e now) s = .next { s.at_ now with time := { s.time.to now with ppsErr := e } } := by
  have hx : exec (.ppsInEdge e now) s = execPpsInEdge e now s := rfl
  unfold execPpsInEdge at hx
  dsimp only at hx
  rw [show (s.at_ now).time = s.time.to now from rfl, if_pos h] at hx
  exact hx.trans (done_eq rfl)

theorem completes_ppsInEdge {e : Int} (h : (s.time.to now).source = 1) : Completes (.ppsInEdge e now) s fun t =>
    t.time.ppsErr = e ∧ t.time.almanac = (s.time.to now).almanac ∧
    (e.natAbs ≤ 100 → t.time.lockRun = (s.time.to now).lockRun + 1) ∧ (100 < e.natAbs → t.time.lockRun = 0) ∧
    (1000 < e.natAbs → t.time.locked = false) ∧
    (100 < e.natAbs → e.natAbs ≤ 1000 → t.time.locked = (s.time.to now).locked) ∧
    (e.natAbs ≤ 100 → (s.time.to now).locked = false → (7 ≤ (s.time.to now).lockRun ↔ t.time.locked = true)) ∧
    ((s.time.to now).locked = false → t.time.locked = true → t.time.trusted = ((s.time.to now).trusted || !(s.time.to now).signedOnly)) := by
  have hx : exec (.ppsInEdge e now) s = execPpsInEdge e now s := rfl
  unfold execPpsInEdge at hx
  dsimp only at hx
  rw [show (s.at_ now).time = s.time.to now from rfl, if_neg (not_not_intro h)] at hx
  generalize s.time.to now = T at *
  generalize hrun : (if e.natAbs ≤ 100 then T.lockRun + 1 else 0) = run at hx
  generalize hlocked : (if 1000 < e.natAbs then false else T.locked || decide (8 ≤ run)) = locked at hx
  obtain ⟨b, htime, hgain, hstay, hpend⟩ := lockGained_if_time { s.at_ now with time := { T with
    ppsErr := e, lockRun := run, locked := locked, servo := servoFor e T.elapsed } } (locked = true ∧ ¬ T.locked = true)
  refine .of_done hx hpend ?_
  rw [htime]
  refine ⟨rfl, rfl, fun hsmall => ?_, fun hlarge => ?_, fun hlarge => ?_, fun hlo hhi => ?_, fun hsmall hl => ?_, fun hl hnow => ?_⟩
  · exact (hrun.symm.trans (if_pos hsmall) :)
  · exact (hrun.symm.trans (if_neg (Nat.not_le.2 hlarge)) :)
  · exact (hlocked.symm.trans (if_pos hlarge) :)
  · rw [if_neg (Nat.not_le.2 hlo)] at hrun
    rw [if_neg (Nat.not_lt.2 hhi), ← hrun] at hlocked
    exact (hlocked.symm.trans (Bool.or_false _) :)
  · rw [if_pos hsmall] at hrun
    rw [if_neg (by omega), ← hrun, hl, Bool.false_or] at hlocked
    show 7 ≤ T.lockRun ↔ locked = true
    rw [← hlocked, decide_eq_true_iff]
    omega
  · exact hgain ⟨hnow, by simp [hl]⟩

theorem exec_ppsLockLoss : exec (.ppsLockLoss now) s = .next (if (s.time.to now).source = 1 then
    { s.at_ now with time := { s.time.to now with locked := false, lockRun := 0 } } else s.at_ now) := by
  have hx : exec (.ppsLockLoss now) s = execPpsLockLoss now s := rfl
  refine hx.trans (done_eq ?_)
  split <;> rfl

theorem exec_slewEnd {sl : Slew} (h : (s.time.to now).slew = sl) : exec (.almanacSlewEnd now) s = .next (if sl.over then
    { s.at_ now with time := { s.time.to now with slew := .none } } else s.at_ now) := by
  have hx : exec (.almanacSlewEnd now) s = execAlmanacSlewEnd now s := rfl
  unfold execAlmanacSlewEnd at hx
  dsimp only at hx
  rw [show (s.at_ now).time = s.time.to now from rfl, h] at hx
  refine hx.trans (done_eq ?_)
  split <;> rfl

theorem exec_ppsOut_rise (hout : (s.time.to now).ppsOut = false) (h : (s.time.to now).almanac % 1000000000 < 100000000) :
    exec (.ppsOut now) s = .next { s.at_ now with time := { s.time.to now with
      ppsOut := true, ppsFall := (s.time.to now).elapsed + (100000000 - (s.time.to now).almanac % 1000000000) } } := by
  have hx : exec (.ppsOut now) s = execPpsOut now s := rfl
  unfold execPpsOut at hx
  dsimp only at hx
  rw [show (s.at_ now).time = s.time.to now from rfl, if_neg (Bool.eq_false_iff.1 hout), if_pos h] at hx
  exact hx.trans (done_eq rfl)

theorem exec_ppsOut_fall (hout : (s.time.to now).ppsOut = true) (h : (s.time.to now).ppsFall ≤ (s.time.to now).elapsed) :
    exec (.ppsOut now) s = .next { s.at_ now with time := { s.time.to now with ppsOut := false } } := by
  have hx : exec (.ppsOut now) s = execPpsOut now s := rfl
  unfold execPpsOut at hx
  dsimp only at hx
  rw [show (s.at_ now).time = s.time.to now from rfl, if_pos hout, if_pos h] at hx
  exact hx.trans (done_eq rfl)

/-! ### PTP messages (R347) -/

/-- A port apart from the functions' pending bits is what a message leaves. -/
theorem State.msix_port (s : State) (f v p : Nat) : (s.msix f v).port p = s.port p :=
  (congrArg (fun u : State => u.port p) (s.msix_reports f v).eq :)

theorem State.msix_outbox_of_mem {o : Output} {s : State} (h : o ∈ s.outbox) (f v : Nat) : o ∈ (s.msix f v).outbox := by
  unfold State.msix
  split
  · exact h
  · split
    · exact h
    · exact List.mem_cons_of_mem _ h

theorem find_range_of_least {n b : Nat} {f : Nat → Bool} (hb : b < n) (hf : f b = true) (hbelow : ∀ i < b, f i = false) :
    (List.range n).find? f = some b := by
  rw [List.find?_range_eq_some]
  exact ⟨hf, by simpa using hb, fun i hi => by simp [hbelow i hi]⟩

/-- The contents of a receive buffer: timestamp, length and message. -/
def rxMessage (ts : Nat) (f : Bytes) : Bytes := fit 256 (le 8 ts ++ le 2 f.length ++ f)

theorem rxMessage_reads {f : Bytes} (hf : f.length ≤ 246) (ts : Nat) : (rxMessage ts f).length = 256 ∧
    leAt (rxMessage ts f) 0 8 = ts % 2 ^ 64 ∧ leAt (rxMessage ts f) 8 2 = f.length ∧ sliceOf (rxMessage ts f) 10 f.length = f := by
  have hm : rxMessage ts f = le 8 ts ++ (le 2 f.length ++ (f ++ zeros (256 - (10 + f.length)))) := by
    unfold rxMessage fit
    rw [List.take_of_length_le (by simp only [List.length_append, le_length]; omega)]
    rw [List.append_assoc, List.append_assoc, List.append_assoc]
    simp only [List.length_append, le_length, ← Nat.add_assoc]
  refine ⟨fit_length 256 _, ?_, ?_, ?_⟩
  · rw [hm]
    exact leAt_field [] _ 8 ts
  · have h := leAt_field (le 8 ts) (f ++ zeros (256 - (10 + f.length))) 2 f.length
    rw [le_length] at h
    rw [hm, h, Nat.mod_eq_of_lt (by omega)]
  · unfold sliceOf
    rw [hm, ← List.append_assoc, List.drop_left' (by simp [le_length]), List.take_left]

section
variable {p : Nat} {f : List Byte} (hp : p < 4)
include hp

section
variable (hrx : s.receives p = true) (hptp : isPtp f = true)
include hrx hptp

theorem exec_ptpRx_role (hrole : s.roleChanging p = true) : exec (.ptpRx p f now) s = .next ((s.at_ now).drop p 5) := by
  have hx : exec (.ptpRx p f now) s = execPtpRx p f now s := rfl
  unfold execPtpRx at hx
  dsimp only at hx
  rw [show (s.at_ now).receives p = true from hrx, hptp, if_neg (by simp), if_pos (show (s.at_ now).roleChanging p = true from hrole)] at hx
  obtain ⟨regs, hd⟩ := (s.at_ now).drop_eq p 5
  exact hx.trans (within_eq (decide_eq_true hp) (by rw [hd]; rfl))

section
variable (hrole : s.roleChanging p = false)
include hrole

theorem exec_ptpRx_full (hfull : (s.port p).rxFull = 0xFF#8) : exec (.ptpRx p f now) s = .next ((s.at_ now).drop p 1) := by
  have hx : exec (.ptpRx p f now) s = execPtpRx p f now s := rfl
  unfold execPtpRx at hx
  dsimp only at hx
  have hnone : ((List.range 8).find? fun b => !(s.port p).rxFull.getLsbD b) = none := by
    rw [hfull]
    rfl
  rw [show (s.at_ now).receives p = true from hrx, hptp, if_neg (by simp), if_neg (Bool.eq_false_iff.1 (show (s.at_ now).roleChanging p = false from hrole)),
    show (s.at_ now).port p = s.port p from rfl, hnone] at hx
  obtain ⟨regs, hd⟩ := (s.at_ now).drop_eq p 1
  exact hx.trans (within_eq (decide_eq_true hp) (by rw [hd]; rfl))

theorem completes_ptpRx {b : Nat} (hb : b < 8) (hfree : (s.port p).rxFull.getLsbD b = false)
    (hbelow : ∀ i < b, (s.port p).rxFull.getLsbD i = true) (hlen : f.length ≤ 246) : Completes (.ptpRx p f now) s fun t =>
      (t.port p).rxFull = (s.port p).rxFull ||| BitVec.ofNat 8 (2 ^ b) ∧
      tget (t.port p).rx b = some (rxMessage ((s.time.to now).replica p) f) ∧ ∀ q, q ≠ p → t.port q = s.port q := by
  have hx : exec (.ptpRx p f now) s = execPtpRx p f now s := rfl
  unfold execPtpRx at hx
  dsimp only at hx
  have hlow : ((List.range 8).find? fun b => !(s.port p).rxFull.getLsbD b) = some b :=
    find_range_of_least hb (by simp [hfree]) fun i hi => by simp [hbelow i hi]
  rw [show (s.at_ now).receives p = true from hrx, hptp, if_neg (by simp), if_neg (Bool.eq_false_iff.1 (show (s.at_ now).roleChanging p = false from hrole)),
    show (s.at_ now).port p = s.port p from rfl, hlow] at hx
  dsimp only at hx
  rw [if_neg (Nat.not_lt.2 hlen)] at hx
  refine .of_done (hx.trans (within_ok (decide_eq_true hp))) (State.msix_pending _ 0 1) ⟨?_, ?_, fun q hq => ?_⟩
  · rw [State.msix_port, State.modPort_port_same]
  · rw [State.msix_port, State.modPort_port_same]
    exact tget_tput_same _ _ _
  · rw [State.msix_port, State.modPort_port, if_neg hq]
    rfl

end

end

section
variable {b : Nat} (hb : b < 4)
include hb

theorem exec_txGo_waits (h : s.egressOn p = false) :
    exec (.txGo p b now) s = .next ((s.at_ now).modPort p fun P => { P with txGo := P.txGo ||| BitVec.ofNat 4 (2 ^ b) }) := by
  have hx : exec (.txGo p b now) s = execTxGo p b now s := rfl
  unfold execTxGo State.sendPtp at hx
  dsimp only at hx
  rw [if_pos (Bool.eq_false_iff.1 (show (s.at_ now).egressOn p = false from h))] at hx
  exact hx.trans (within_eq (by simp [hp, hb]) rfl)

theorem completes_txGo (h : s.egressOn p = true) : Completes (.txGo p b now) s fun t =>
    (t.port p).txDone = (s.port p).txDone ||| BitVec.ofNat 4 (2 ^ b) ∧
    ((s.port p).oneStep.getLsbD b = false → tget (t.port p).txTs b = some ((s.time.to now).replica p) ∧
      Output.frame p (txFrame ((tget (s.port p).tx b).getD (zeros 256))) ∈ t.outbox) := by
  have hx : exec (.txGo p b now) s = execTxGo p b now s := rfl
  unfold execTxGo State.sendPtp at hx
  dsimp only at hx
  rw [if_neg (not_not_intro (show (s.at_ now).egressOn p = true from h))] at hx
  refine .of_done (hx.trans (within_ok (by simp [hp, hb]))) (State.msix_pending _ 0 1) ⟨?_, fun hone => ⟨?_, ?_⟩⟩
  · rw [State.msix_port, State.modPort_port_same]
    rfl
  · rw [State.msix_port, State.modPort_port_same, show (s.at_ now).port p = s.port p from rfl, hone]
    exact tget_tput_same _ _ _
  · refine State.msix_outbox_of_mem ?_ 0 1
    rw [show (s.at_ now).port p = s.port p from rfl, hone]
    exact List.mem_cons_self

end

end

end

end Sys2Proof.Machine

open Sys2Proof.Machine

/-- Settles O44. -/
theorem almanacIsCorrectedWithinItsBounds : Obligations.AlmanacIsCorrectedWithinItsBounds := by
  unfold Obligations.AlmanacIsCorrectedWithinItsBounds
  refine ⟨fun s hbar => ?_, fun s now => ?_⟩
  · intro T refusedOnce
    refine ⟨fun v => ⟨exec_almSource_same hbar, fun h3 hT => completes_almSource hbar (by simp [h3]; exact hT)⟩, exec_managed hbar rfl rfl,
      fun v => ⟨exec_almAdjOffset_refused hbar, completes_almAdjOffset hbar⟩,
      fun v => ⟨exec_almAdjFreq_taken hbar, exec_almAdjFreq_refused hbar⟩,
      fun v => ⟨exec_almSet_signedOnly hbar, exec_almSet_refused hbar, completes_almSet hbar⟩,
      fun v => ⟨exec_almStepBound_discarded hbar, exec_almStepBound_refused hbar, completes_almStepBound hbar⟩⟩
  · intro T u
    refine ⟨fun e => ⟨exec_ppsInEdge_recorded, completes_ppsInEdge⟩, exec_ppsLockLoss, done_eq rfl, fun k c h => exec_slewEnd h,
      fun k r c h => exec_slewEnd h, exec_ppsOut_rise, exec_ppsOut_fall, fun p f hp hrx hptp => exec_ptpRx_role hp hrx hptp,
      fun p f hp hrx hptp hrole => ⟨exec_ptpRx_full hp hrx hptp hrole, fun b hb hfree hbelow hlen => ?_⟩,
      fun p b hp hb => ⟨exec_txGo_waits hp hb, completes_txGo hp hb⟩⟩
    obtain ⟨t, ht, hfull, hrxm, hother⟩ := completes_ptpRx (now := now) hp hrx hptp hrole hb hfree hbelow hlen
    exact ⟨t, ht, hfull, ⟨_, hrxm, rxMessage_reads hlen _⟩, hother⟩
end

section
/-! PROOF. Rolls, owners and the ring of exported records of the logbook, and the obligation on them (15_logbook_attestation.md R354-R361). -/

namespace Sys2Proof.Machine

/-! ### What the records leave of the registers -/

theorem State.writeRecord_logReg (s : State) (type r flags : Nat) (body : Bytes) (q : Nat) :
    (s.writeRecord type r flags body).logReg q = s.logReg q := by
  rw [State.logReg, State.writeRecord_regs, ← State.logReg]

/-- An epoch roll rewrites its register's value, count and epoch, and no other register (R355). -/
theorem State.roll_logReg (s : State) (r q : Nat) : (s.roll r).logReg q = if q = r then { s.logReg r with
    value := sha384 (ascii "psibuaz-epoch" ++ (s.logReg r).value ++ le 4 (s.logReg r).count ++ le 2 ((s.logReg r).epoch + 1)),
    count := 0, epoch := (s.logReg r).epoch + 1 } else s.logReg q :=
  (State.writeRecord_logReg _ _ _ _ _ q).trans (s.modLog_logReg r q _)

/-- The register of a new owner is extended once, unless it is full (R357). -/
theorem State.ownerEvent_logReg (s : State) (r old new q : Nat) : (s.ownerEvent r old new).logReg q =
    if q = r ∧ (s.logReg r).count ≠ countMax then
      { s.logReg r with value := sha384 ((s.logReg r).value ++ (le 2 old ++ le 2 new)), count := (s.logReg r).count + 1 }
    else s.logReg q := by
  unfold State.ownerEvent State.logFull
  dsimp only
  by_cases hfull : (s.logReg r).count = countMax
  · rw [if_pos (beq_iff_eq.2 hfull), if_neg (fun h => h.2 hfull)]
    exact State.writeRecord_logReg _ _ _ _ _ q
  · rw [if_neg (by rwa [beq_iff_eq])]
    refine (State.writeRecord_logReg _ _ _ _ _ q).trans ((s.modLog_logReg r q _).trans ?_)
    by_cases hq : q = r
    · rw [if_pos hq, if_pos ⟨hq, hfull⟩]
    · rw [if_neg hq, if_neg fun h => hq h.1]

/-! ### A write in front of a register (R355, R357) -/

section
variable {s : State} {r : Nat} (hbarrier : (s.logReg r).barrier = [])
include hbarrier

/-- With no extend reserved a write takes effect at once. -/
theorem State.logBarrier_now (hreserved : (s.logReg r).reserved = []) (x : LogWork) :
    s.logBarrier r x = (s.logWork r x).modLog r fun L => { L with barrier := [] } := by
  unfold State.logBarrier
  dsimp only
  rw [hbarrier, hreserved]
  rfl

/-- With extends reserved a write waits for them. -/
theorem State.logBarrier_waits (hreserved : (s.logReg r).reserved ≠ []) (x : LogWork) :
    s.logBarrier r x = s.modLog r fun L => { L with barrier := [(L.reserved, x)] } := by
  unfold State.logBarrier
  dsimp only
  rw [hbarrier]
  cases h : (s.logReg r).reserved with
  | nil => exact absurd h hreserved
  | cons w ws =>
    rw [List.nil_append, State.openBarriers]
    unfold State.modLog
    dsimp only
    rw [h]

end

section
variable {s : State} (hbar : s.barOn 0 = true)
include hbar

theorem exec_logRoll_discarded {v : BitVec 32} (h : v.toNat % 64 < 16 ∨ (s.logReg (v.toNat % 64)).epoch = 0xFFFF) :
    exec (.logRoll v) s = .next s := by
  have hx : exec (.logRoll v) s = done s (managed s (s.writeRoll v)) := rfl
  unfold State.writeRoll at hx
  dsimp only at hx
  rw [if_pos h] at hx
  exact exec_managed hbar hx rfl

section
variable {v : BitVec 32} {r : Nat} (hr : v.toNat % 64 = r) (h16 : 16 ≤ r) (hepoch : (s.logReg r).epoch ≠ 0xFFFF)
  (hbarrier : (s.logReg r).barrier = [])
include hr h16 hepoch hbarrier

theorem exec_logRoll_waits (hreserved : (s.logReg r).reserved ≠ []) :
    exec (.logRoll v) s = .next (s.modLog r fun L => { L with barrier := [(L.reserved, .roll)] }) := by
  have hx : exec (.logRoll v) s = done s (managed s (s.writeRoll v)) := rfl
  unfold State.writeRoll at hx
  dsimp only at hx
  rw [hr, if_neg (by omega), State.logBarrier_waits hbarrier hreserved] at hx
  exact exec_managed hbar hx rfl

theorem completes_logRoll (hreserved : (s.logReg r).reserved = []) : Completes (.logRoll v) s fun t => ∀ q, t.logReg q =
    if q = r then { s.logReg r with
      value := sha384 (ascii "psibuaz-epoch" ++ (s.logReg r).value ++ le 4 (s.logReg r).count ++ le 2 ((s.logReg r).epoch + 1)),
      count := 0, epoch := (s.logReg r).epoch + 1, barrier := [] } else s.logReg q := by
  have hx : exec (.logRoll v) s = done s (managed s (s.writeRoll v)) := rfl
  unfold State.writeRoll at hx
  dsimp only at hx
  rw [hr, if_neg (by omega), State.logBarrier_now hbarrier hreserved, State.logWork, if_neg hepoch] at hx
  refine completes_managed hbar hx (s.roll_reports r).pending fun q => ?_
  rw [State.modLog_logReg, State.roll_logReg, State.roll_logReg, if_pos rfl]
  split <;> rfl

end

section
variable {v : BitVec 32} {r : Nat} (h64 : r < 64)
include h64

theorem exec_logOwner_discarded (h : r < 16) : exec (.logOwner r v) s = .next s := by
  have hx : exec (.logOwner r v) s = within (decide (r < 64)) s (managed s (s.writeOwner r v)) := rfl
  unfold State.writeOwner at hx
  dsimp only at hx
  rw [if_pos (Or.inl h), managed_on hbar] at hx
  exact hx.trans (within_eq (decide_eq_true h64) rfl)

/-- The register of a new owner, whose record follows at once. -/
theorem completes_logOwner_register (h16 : 16 ≤ r) (hbarrier : (s.logReg r).barrier = []) (hreserved : (s.logReg r).reserved = []) :
    Completes (.logOwner r v) s fun t =>
      t.logReg r = (if (s.logReg r).count ≠ countMax then { s.logReg r with
          owner := v.toNat % 512, value := sha384 ((s.logReg r).value ++ (le 2 (s.logReg r).owner ++ le 2 (v.toNat % 512))),
          count := (s.logReg r).count + 1 }
        else { s.logReg r with owner := v.toNat % 512 }) ∧ ∀ q, q ≠ r → t.logReg q = s.logReg q := by
  have hx : exec (.logOwner r v) s = within (decide (r < 64)) s (managed s (s.writeOwner r v)) := rfl
  unfold State.writeOwner at hx
  dsimp only at hx
  have howned : (s.modLog r fun L => { L with owner := v.toNat % 512 }).logReg r = { s.logReg r with owner := v.toNat % 512 } :=
    State.modLog_logReg_same _ _ _
  rw [if_neg (by omega), managed_on hbar, State.logBarrier_now (by rw [howned]; exact hbarrier) (by rw [howned]; exact hreserved),
    State.logWork] at hx
  refine .of_done (hx.trans (within_ok (decide_eq_true h64))) (State.ownerEvent_reports _ _ _ _).pending ⟨?_, fun q hq => ?_⟩
  · rw [State.modLog_logReg_same, State.ownerEvent_logReg, howned]
    by_cases hfull : (s.logReg r).count = countMax
    · rw [if_neg fun h => h.2 hfull, if_neg (not_not_intro hfull)]
      exact congrArg (fun b => ({ s.logReg r with owner := v.toNat % 512, barrier := b } : LogReg)) hbarrier.symm
    · rw [if_pos ⟨rfl, hfull⟩, if_pos hfull]
      exact congrArg (fun b => ({ s.logReg r with
        owner := v.toNat % 512, value := sha384 ((s.logReg r).value ++ (le 2 (s.logReg r).owner ++ le 2 (v.toNat % 512))),
        count := (s.logReg r).count + 1, barrier := b } : LogReg)) hbarrier.symm
  · rw [State.modLog_logReg, if_neg hq, State.ownerEvent_logReg, if_neg fun h => hq h.1, State.modLog_logReg, if_neg hq]

end

/-! ### The manager's indices (R360, R361) -/

theorem exec_auditExportHead (v : BitVec 32) : exec (.auditExportHead v) s = .next (
    if (v - s.log.head).toNat ≤ (s.log.tail - s.log.head).toNat then { s with log := { s.log with head := v } }
    else { s with log := { s.log with headErr := true } }) := by
  have hx : exec (.auditExportHead v) s = done s (managed s (s.writeExportHead v)) := rfl
  refine exec_managed hbar hx ?_
  split <;> rfl

theorem exec_auditRegionMib (v : BitVec 32) : exec (.auditRegionMib v) s = .next (
    if v.toNat % 65536 < 256 then s else { s with log := { s.log with nextMib := some (v.toNat % 65536) } }) := by
  have hx : exec (.auditRegionMib v) s = done s (managed s (s.writeRegionMib v)) := rfl
  refine exec_managed hbar hx ?_
  split <;> rfl

end

/-! ### The ring of exported records (R360) -/

/-- The ring's next entry. -/
def Logbook.slot (l : Logbook) : Nat := l.base + 256 * (l.tail.toNat % 2 ^ l.log2)

section
variable {s : State} {now : Nat} {a : Bytes} {rest : List Bytes} (hrec : s.log.records = a :: rest)
include hrec

omit hrec in
/-- Where nothing can be exported the whole command exports nothing. -/
theorem State.exportAll_none (h : s.exportOne = s) (n : Nat) : s.exportAll n = s := by
  induction n with
  | zero => rfl
  | succ n ih => rw [State.exportAll, h, ih]

theorem exec_auditExport_stays (h : s.log.exportOn = false ∨ s.log.ringRoom = false ∨ (s.writeFault s.log.slot 256).isSome = true) :
    exec (.auditExport now) s = .next (s.at_ now) := by
  have hx : exec (.auditExport now) s = done s ((s.at_ now).exportAll s.log.records.length) := rfl
  have hone : (s.at_ now).exportOne = s.at_ now := by
    unfold State.exportOne
    rw [show (s.at_ now).log = s.log from rfl, hrec]
    dsimp only
    rw [if_pos]
    rw [Bool.not_eq_true, Bool.not_eq_true]
    exact h
  rw [State.exportAll_none hone] at hx
  exact hx.trans (done_eq rfl)

theorem completes_auditExport_record (hon : s.log.exportOn = true) (hroom : s.log.ringRoom = true)
    (hfault : s.writeFault s.log.slot 256 = none) (hrest : rest = []) : Completes (.auditExport now) s fun t =>
      t.hostMem = memWriteN s.hostMem s.log.slot a ∧ t.log.records = [] ∧ t.log.tail = s.log.tail + 1 ∧ t.log.head = s.log.head ∧
      t.log.regs = s.log.regs ∧ t.log.seq = s.log.seq := by
  have hx : exec (.auditExport now) s = done s ((s.at_ now).exportAll s.log.records.length) := rfl
  subst hrest
  rw [hrec, List.length_singleton, State.exportAll, State.exportAll] at hx
  unfold State.exportOne at hx
  rw [show (s.at_ now).log = s.log from rfl, hrec] at hx
  dsimp only at hx
  rw [if_neg (by
    rw [hon, hroom, show (s.at_ now).writeFault (s.log.base + 256 * (s.log.tail.toNat % 2 ^ s.log.log2)) 256 = none from hfault]
    simp)] at hx
  obtain ⟨o, ho⟩ := (s.at_ now).hostWrite_eq (s.log.base + 256 * (s.log.tail.toNat % 2 ^ s.log.log2)) a
  rw [ho] at hx
  exact .of_done hx rfl ⟨rfl, rfl, rfl, rfl, rfl, rfl⟩

end

end Sys2Proof.Machine

open Sys2Proof.Machine

/-- Settles O45. -/
theorem logbookRollsOwnersAndExport : Obligations.LogbookRollsOwnersAndExport := by
  unfold Obligations.LogbookRollsOwnersAndExport
  refine fun s hbar => ⟨fun v => ⟨exec_logRoll_discarded hbar, fun h16 hepoch hbarrier hreserved => ?_,
    exec_logRoll_waits hbar rfl⟩, fun r h64 v => ⟨exec_logOwner_discarded hbar h64, fun h16 hbarrier hreserved => ?_⟩,
    fun now a rest hrec => ⟨exec_auditExport_stays hrec, completes_auditExport_record hrec⟩, exec_auditExportHead hbar,
    exec_auditRegionMib hbar⟩
  · obtain ⟨t, ht, hregs⟩ := completes_logRoll hbar rfl h16 hepoch hbarrier hreserved
    have hr := (hregs _).trans (if_pos rfl)
    exact ⟨t, ht, by rw [hr], by rw [hr], by rw [hr], by rw [hr], fun q hq => (hregs q).trans (if_neg hq)⟩
  · obtain ⟨t, ht, hr, hother⟩ := completes_logOwner_register hbar h64 (v := v) h16 hbarrier hreserved
    by_cases hfull : (s.logReg r).count = countMax
    · rw [if_neg (not_not_intro hfull)] at hr
      exact ⟨t, ht, by rw [hr], by rw [hr], fun h => absurd hfull h, fun _ => ⟨by rw [hr], by rw [hr]⟩, hother⟩
    · rw [if_pos hfull] at hr
      exact ⟨t, ht, by rw [hr], by rw [hr], fun _ => ⟨by rw [hr], by rw [hr]⟩, fun h => absurd h hfull, hother⟩
end

section
/-! PROOF. The SPDM responder and the obligation on it (15_logbook_attestation.md R362-R367; 22_registers.md R491). -/

namespace Sys2Proof.Machine

/-! ### Parts of byte strings -/

theorem sliceOf_skip {a : Bytes} {k : Nat} (h : a.length = k) (b : Bytes) (n len : Nat) : sliceOf (a ++ b) (k + n) len = sliceOf b n len := by
  unfold sliceOf
  rw [← List.drop_drop, List.drop_left' h]

theorem sliceOf_front {a : Bytes} {k : Nat} (h : a.length = k) (b : Bytes) : sliceOf (a ++ b) 0 k = a := by
  unfold sliceOf
  rw [List.drop_zero, List.take_left' h]

theorem sha384_length (b : Bytes) : (sha384 b).length = 48 := prim_length _ _ _

/-! ### The layout of a message (log 46) -/

section
variable (c : Spdm) (code p1 p2 : Nat) (body : Bytes)

theorem Spdm.say_eq : c.say code p1 p2 body =
    BitVec.ofNat 8 c.verByte :: BitVec.ofNat 8 code :: BitVec.ofNat 8 p1 :: BitVec.ofNat 8 p2 :: body := rfl

theorem leAt_byte (b : Byte) (bs : Bytes) : leAt (b :: bs) 0 1 = b.toNat := by simp [leAt, sliceOf, fromLE]

theorem leAt_cons (b : Byte) (bs : Bytes) (n len : Nat) : leAt (b :: bs) (n + 1) len = leAt bs n len := rfl

theorem Spdm.say_version : leAt (c.say code p1 p2 body) 0 1 = c.verByte % 256 := (leAt_byte _ _).trans (BitVec.toNat_ofNat _ _)
theorem Spdm.say_code : leAt (c.say code p1 p2 body) 1 1 = code % 256 := (leAt_byte _ _).trans (BitVec.toNat_ofNat _ _)
theorem Spdm.say_param1 : leAt (c.say code p1 p2 body) 2 1 = p1 % 256 := (leAt_byte _ _).trans (BitVec.toNat_ofNat _ _)
theorem Spdm.say_param2 : leAt (c.say code p1 p2 body) 3 1 = p2 % 256 := (leAt_byte _ _).trans (BitVec.toNat_ofNat _ _)
theorem Spdm.say_length : (c.say code p1 p2 body).length = body.length + 4 := rfl
theorem Spdm.say_body (n len : Nat) : leAt (c.say code p1 p2 body) (n + 4) len = leAt body n len := rfl
theorem Spdm.say_slice (n len : Nat) : sliceOf (c.say code p1 p2 body) (n + 4) len = sliceOf body n len := rfl
theorem Spdm.say_drop (n : Nat) : (c.say code p1 p2 body).drop (n + 4) = body.drop n := rfl

end

theorem Spdm.vendor_drop (c : Spdm) (p : Bytes) : (c.vendor p).drop 11 = p := rfl

/-! ### A response goes out (R364, R491) -/

theorem State.sendSpdm_pending (s : State) (tr : Transport) (rsp : Bytes) : (s.sendSpdm tr rsp).pending = s.pending := by
  have hready (u : State) (b : Bytes) : (u.doeReady b).pending = u.pending := by
    unfold State.doeReady
    dsimp only
    split
    · exact State.msix_pending _ 0 3
    · rfl
  have hsent (u : State) (b : Bytes) : (if tr = .doe then (u.emit (.spdm tr b)).doeReady (doeObject 1 b) else u.emit (.spdm tr b)).pending =
      u.pending := by
    split
    · exact hready _ _
    · rfl
  unfold State.sendSpdm
  dsimp only
  by_cases hlimit : (s.spdmOf tr).limit < rsp.length
  · rw [if_pos hlimit]
    exact hsent _ _
  · rw [if_neg hlimit]
    exact hsent _ _

theorem State.sendSpdm_whole {u : State} {tr : Transport} {rsp : Bytes} (htr : tr ≠ .doe) (h : rsp.length ≤ (u.spdmOf tr).limit) :
    u.sendSpdm tr rsp = u.emit (.spdm tr rsp) := by
  unfold State.sendSpdm
  dsimp only
  rw [if_neg (Nat.not_lt.2 h), if_neg htr]

/-! ### Which requests are let in (R362) -/

section
variable {s : State} {tr : Transport} {code : Nat} {f : Responder} {req : Bytes}

theorem spdmRow_unserved (hlen : tr ≠ .doe ∨ req.length ≤ 65536) (hon : s.transportOn tr = false) : spdmRow tr code f req s = .next s := by
  unfold spdmRow
  rw [if_neg fun h => hlen.elim (fun h' => h' h.1) (by omega), if_pos (Or.inl (Bool.eq_false_iff.1 hon))]
  exact done_eq rfl

theorem spdmRow_tooLong (htr : tr = .doe) (hlen : 65536 < req.length) :
    spdmRow tr code f req s = .next { s with host := { s.host with doeErr := true } } := by
  unfold spdmRow
  rw [if_pos ⟨htr, hlen⟩]
  exact done_eq rfl

section
variable (hlen : tr = .doe → req.length ≤ 65536) (hon : s.transportOn tr = true)
include hlen hon

omit hon in
theorem spdmRow_scrapped (hlc : s.lc.state = .scrapped) (hv : code ≠ 0x84) (hc : code ≠ 0xE1) : spdmRow tr code f req s = .next s := by
  unfold spdmRow
  rw [if_neg fun h => absurd (hlen h.1) (by omega), if_pos (Or.inr ⟨hlc, hv, hc⟩)]
  exact done_eq rfl

/-- A request that is served is answered by the responder or by the ERROR in front of it. -/
theorem spdmRow_answered (hlc : ¬ (s.lc.state = .scrapped ∧ code ≠ 0x84 ∧ code ≠ 0xE1)) {u : State} {rsp : Bytes}
    (ha : s.answerSpdm tr code f req = (u, rsp)) (hp : u.pending = s.pending) : spdmRow tr code f req s = .next (u.sendSpdm tr rsp) := by
  unfold spdmRow
  rw [if_neg fun h => absurd (hlen h.1) (by omega), if_neg (by
    rw [hon]
    exact fun h => h.elim (fun h' => h' rfl) hlc), ha]
  exact done_eq ((u.sendSpdm_pending tr rsp).trans hp)

section
variable (hlc : s.lc.state ≠ .scrapped)
include hlc

theorem spdmRow_invalid (h : req.length < 4 ∨ rqCode req ≠ code) :
    spdmRow tr code f req s = .next (s.sendSpdm tr ((s.spdmOf tr).err 0x01)) := by
  refine spdmRow_answered hlen hon (fun h => hlc h.1) ?_ rfl
  unfold State.answerSpdm
  exact if_pos h

section
variable (h4 : 4 ≤ req.length) (hcode : rqCode req = code) (hv : code ≠ 0x84) (hc : code ≠ 0xE1)
include h4 hcode hv hc

theorem spdmRow_version (h : leAt req 0 1 ≠ (s.spdmOf tr).version) :
    spdmRow tr code f req s = .next (s.sendSpdm tr ((s.spdmOf tr).err 0x41)) := by
  refine spdmRow_answered hlen hon (fun h => hlc h.1) ?_ rfl
  unfold State.answerSpdm
  dsimp only
  rw [if_neg (fun h => h.elim (by omega) fun h' => h' hcode), if_neg hv, if_neg hc, if_pos h]
  rfl

section
variable (hver : leAt req 0 1 = (s.spdmOf tr).version)
include hver

theorem spdmRow_unexpected (h : (s.spdmOf tr).stage < 2 ∨ ((s.spdmOf tr).stage < 3 ∧ code ≠ 0xE3)) :
    spdmRow tr code f req s = .next (s.sendSpdm tr ((s.spdmOf tr).err 0x04)) := by
  refine spdmRow_answered hlen hon (fun h => hlc h.1) ?_ rfl
  unfold State.answerSpdm
  dsimp only
  rw [if_neg (fun h => h.elim (by omega) fun h' => h' hcode), if_neg hv, if_neg hc, if_neg (not_not_intro hver), if_pos h]
  rfl

theorem spdmRow_unsupported (hstage : 3 ≤ (s.spdmOf tr).stage) (ha : code ≠ 0xE3) (hdus : s.lc.dus = none) :
    spdmRow tr code f req s = .next (s.sendSpdm tr ((s.spdmOf tr).err 0x07)) := by
  refine spdmRow_answered hlen hon (fun h => hlc h.1) ?_ rfl
  unfold State.answerSpdm
  dsimp only
  rw [if_neg (fun h => h.elim (by omega) fun h' => h' hcode), if_neg hv, if_neg hc, if_neg (not_not_intro hver), if_neg (by omega),
    if_pos ⟨ha, by rw [hdus]; rfl⟩]
  rfl

end

end

end

end

/-- The commands of the responder, each with the code of its request. -/
def spdmRows (tr : Transport) (req : Bytes) : List (Instr × Nat) :=
  [(.getVersion tr req, 0x84), (.getCapabilities tr req, 0xE1), (.negotiateAlgorithms tr req, 0xE3), (.getDigests tr req, 0x81),
   (.getCertificate tr req, 0x82), (.challenge tr req, 0x83), (.getMeasurements tr req, 0xE0), (.keyExchange tr req, 0xE4),
   (.spdmFinish tr req, 0xE5), (.heartbeat tr req, 0xE8), (.keyUpdate tr req, 0xE9), (.endSession tr req, 0xEC),
   (.setCertificate tr req, 0xEE), (.getPqChain tr req, 0xFE), (.pqQuote tr req, 0xFE), (.chunkSend tr req, 0x85), (.chunkGet tr req, 0x86)]

/-- Each command runs the request under its code. -/
theorem spdmRows_row (s : State) (tr : Transport) (req : Bytes) :
    ∀ row ∈ spdmRows tr req, ∃ f, exec row.1 s = spdmRow tr row.2 f req s := by
  simp only [spdmRows, List.forall_mem_cons]
  exact ⟨⟨_, rfl⟩, ⟨_, rfl⟩, ⟨_, rfl⟩, ⟨_, rfl⟩, ⟨_, rfl⟩, ⟨_, rfl⟩, ⟨_, rfl⟩, ⟨_, rfl⟩, ⟨_, rfl⟩, ⟨_, rfl⟩, ⟨_, rfl⟩, ⟨_, rfl⟩,
    ⟨_, rfl⟩, ⟨_, rfl⟩, ⟨_, rfl⟩, ⟨_, rfl⟩, ⟨_, rfl⟩, fun _ h => absurd h List.not_mem_nil⟩

/-! ### A request in its turn -/

/-- A request that is served is answered by its responder's own response. -/
theorem responds_answered {cmd : Instr} {P : State → Bytes → Prop} (hx : exec cmd s = spdmRow tr code f req s) (hon : s.transportOn tr = true)
    (hlc : ¬ (s.lc.state = .scrapped ∧ code ≠ 0x84 ∧ code ≠ 0xE1)) (hlen : tr = .doe → req.length ≤ 65536) {u : State} {rsp : Bytes}
    (ha : s.answerSpdm tr code f req = (u, rsp)) (hu : u = { s with host := u.host, boot := u.boot, draws := u.draws }) (hP : P u rsp) :
    Responds cmd s tr P :=
  ⟨u, rsp, hx.trans (spdmRow_answered hlen hon hlc ha ((congrArg State.pending hu :))), hu, hP⟩

/-- In its turn a request reaches its responder. -/
theorem answerSpdm_turn (hv : code ≠ 0x84) (hc : code ≠ 0xE1) (h : SpdmTurn s tr code req) : s.answerSpdm tr code f req = f s tr req := by
  obtain ⟨-, -, -, h4, hcode, hver, hstage, hdus⟩ := h
  unfold State.answerSpdm
  dsimp only
  rw [if_neg (fun h => h.elim (by omega) fun h' => h' hcode), if_neg hv, if_neg hc, if_neg (not_not_intro hver), if_neg (by omega),
    if_neg fun h => by rw [Option.isNone_iff_eq_none.1 h.2] at hdus; cases hdus]

theorem responds_turn {cmd : Instr} {P : State → Bytes → Prop} (hv : code ≠ 0x84) (hc : code ≠ 0xE1)
    (hx : exec cmd s = spdmRow tr code f req s) (h : SpdmTurn s tr code req) {u : State} {rsp : Bytes} (hf : f s tr req = (u, rsp))
    (hu : u = { s with host := u.host, boot := u.boot, draws := u.draws }) (hP : P u rsp) : Responds cmd s tr P :=
  responds_answered hx h.1 (fun h' => h.2.1 h'.1) h.2.2.1 ((answerSpdm_turn hv hc h).trans hf) hu hP

/-- In its turn a request that its responder refuses is answered with that error. -/
theorem exec_turn_same {cmd : Instr} (hv : code ≠ 0x84) (hc : code ≠ 0xE1) (hx : exec cmd s = spdmRow tr code f req s)
    (h : SpdmTurn s tr code req) {rsp : Bytes} (hf : f s tr req = (s, rsp)) : exec cmd s = .next (s.sendSpdm tr rsp) :=
  hx.trans (spdmRow_answered h.2.2.1 h.1 (fun h' => h.2.1 h'.1) ((answerSpdm_turn hv hc h).trans hf) rfl)

end

/-! ### Versions, capabilities and algorithms -/

section
variable {s : State} {tr : Transport} {req : Bytes} (hon : s.transportOn tr = true) (hlen : tr = .doe → req.length ≤ 65536)
  (h4 : 4 ≤ req.length)
include hon hlen h4

theorem responds_getVersion (hcode : rqCode req = 0x84) (hver : leAt req 0 1 = 0x10) : Responds (.getVersion tr req) s tr fun u rsp =>
    rsp = [0x10#8, 0x04#8, 0#8, 0#8, 0#8, 2#8, 0x00#8, 0x12#8, 0x00#8, 0x13#8] ∧ (u.spdmOf tr).stage = 1 ∧
    (u.spdmOf tr).transcript = req ++ rsp ∧ u.draws = s.draws ∧ u.boot = s.boot := by
  have ha : s.answerSpdm tr 0x84 spdmVersion req = spdmVersion s tr req := by
    unfold State.answerSpdm
    dsimp only
    rw [if_neg (fun h => h.elim (by omega) fun h' => h' hcode), if_pos rfl, if_pos hver]
  refine responds_answered rfl hon (fun h => h.2.1 rfl) hlen ha rfl ⟨rfl, ?_, ?_, rfl, rfl⟩
  · rw [State.modSpdm_spdmOf]
  · rw [State.modSpdm_spdmOf]

theorem responds_getCapabilities (hcode : rqCode req = 0xE1) (hstage : (s.spdmOf tr).stage = 1)
    (hver : leAt req 0 1 = 0x12 ∨ leAt req 0 1 = 0x13) : Responds (.getCapabilities tr req) s tr fun u rsp =>
      leAt rsp 0 1 = leAt req 0 1 ∧ leAt rsp 1 1 = 0x61 ∧ rsp.length = 20 ∧ (u.spdmOf tr).version = leAt req 0 1 ∧
      (u.spdmOf tr).stage = 2 ∧ u.draws = s.draws := by
  have ha : s.answerSpdm tr 0xE1 spdmCapabilities req = spdmCapabilities s tr req := by
    unfold State.answerSpdm
    dsimp only
    rw [if_neg (fun h => h.elim (by omega) fun h' => h' hcode), if_neg (by decide), if_pos rfl]
  unfold spdmCapabilities at ha
  dsimp only at ha
  rw [if_neg (not_not_intro hstage), if_neg (by omega)] at ha
  refine responds_answered rfl hon (fun h => h.2.2 rfl) hlen ha rfl ⟨?_, ?_, ?_, ?_, ?_, rfl⟩
  · rw [Spdm.say_version, Spdm.verByte, if_neg (by dsimp only; omega)]
    exact Nat.mod_eq_of_lt (by dsimp only; omega)
  · exact Spdm.say_code _ _ _ _ _
  · rw [Spdm.say_length, prim_length]
  · rw [State.modSpdm_spdmOf, State.modSpdm_spdmOf]
  · rw [State.modSpdm_spdmOf, State.modSpdm_spdmOf]

theorem responds_negotiateAlgorithms (hlc : s.lc.state ≠ .scrapped) (hcode : rqCode req = 0xE3)
    (hver : leAt req 0 1 = (s.spdmOf tr).version) (hstage : (s.spdmOf tr).stage = 2) (hsig : bitOf (leAt req 8 4) 7 = true)
    (hhash : bitOf (leAt req 12 4) 1 = true) : Responds (.negotiateAlgorithms tr req) s tr fun u rsp =>
      leAt rsp 1 1 = 0x63 ∧ rsp.length = 52 ∧ (u.spdmOf tr).stage = 3 ∧ u.draws = s.draws := by
  have ha : s.answerSpdm tr 0xE3 spdmAlgorithms req = spdmAlgorithms s tr req := by
    unfold State.answerSpdm
    dsimp only
    rw [if_neg (fun h => h.elim (by omega) fun h' => h' hcode), if_neg (by decide), if_neg (by decide), if_neg (not_not_intro hver),
      if_neg (by omega), if_neg (fun h => h.1 rfl)]
  unfold spdmAlgorithms at ha
  dsimp only at ha
  rw [if_neg (not_not_intro hstage), if_neg (by rw [hsig, hhash]; simp)] at ha
  refine responds_answered rfl hon (fun h => hlc h.1) hlen ha rfl ⟨Spdm.say_code _ _ _ _ _, rfl, ?_, rfl⟩
  rw [State.modSpdm_spdmOf, State.modSpdm_spdmOf]

end

/-! ### Certificates, challenges and measurements -/

section
variable {s : State} {tr : Transport} {req : Bytes}

/-- Bit 0 and bit 2 of the mask of P-384 slots that hold a chain. -/
theorem slotMask_bits (a b : Bool) : let m := ((([0, 2] : List Nat).filter fun i => if i = 0 then a else b).map (2 ^ ·)).sum
    (m % 256).testBit 0 = a ∧ (m % 256).testBit 2 = b := by
  cases a <;> cases b <;> decide

theorem responds_getDigests (h : SpdmTurn s tr 0x81 req) : Responds (.getDigests tr req) s tr fun u rsp =>
    leAt rsp 1 1 = 0x01 ∧ (leAt rsp 3 1).testBit 0 = (tget s.boot.chains 0).isSome ∧
    (leAt rsp 3 1).testBit 2 = (tget s.boot.chains 2).isSome ∧ u.draws = s.draws := by
  have hslots : ([0, 2].filter fun i => (s.chainOf i).isSome) =
      ([0, 2].filter fun i => if i = 0 then (tget s.boot.chains 0).isSome else (tget s.boot.chains 2).isSome) :=
    List.filter_congr fun i hi => by
      unfold State.chainOf
      rw [Option.isSome_map]
      rcases List.mem_pair.1 hi with rfl | rfl <;> rfl
  have hbits := slotMask_bits (tget s.boot.chains 0).isSome (tget s.boot.chains 2).isSome
  have hf : spdmDigests s tr req = s.recorded tr req _ := rfl
  rw [hslots] at hf
  refine responds_turn (by decide) (by decide) rfl h hf rfl ⟨Spdm.say_code _ _ _ _ _, ?_, ?_, rfl⟩
  · rw [Spdm.say_param2]
    exact hbits.1
  · rw [Spdm.say_param2]
    exact hbits.2

section
variable {b : Bytes} (hb : s.spdmChain 0 = some b)
include hb

theorem responds_getCertificate (h : SpdmTurn s tr 0x82 req) (hslot : leAt req 2 1 % 16 = 0) (h8 : 8 ≤ req.length)
    (hoff : leAt req 4 2 < b.length) : Responds (.getCertificate tr req) s tr fun u rsp =>
      leAt rsp 1 1 = 0x02 ∧ rsp.drop 8 = sliceOf b (leAt req 4 2) (leAt req 6 2) ∧ u.draws = s.draws := by
  have hf : spdmCertificate s tr req = spdmCertificate s tr req := rfl
  conv_rhs at hf => unfold spdmCertificate
  dsimp only at hf
  rw [show rqP1 req % 16 = 0 from hslot, if_pos (Or.inl rfl), hb] at hf
  dsimp only at hf
  rw [if_neg (by omega)] at hf
  exact responds_turn (by decide) (by decide) rfl h hf rfl ⟨Spdm.say_code _ _ _ _ _, Spdm.say_drop _ _ _ _ _ 4, rfl⟩

theorem responds_challenge (h : SpdmTurn s tr 0x83 req) (hslot : leAt req 2 1 = 0) (h36 : 36 ≤ req.length) :
    Responds (.challenge tr req) s tr fun u rsp => leAt rsp 1 1 = 0x03 ∧ sliceOf rsp 4 48 = sha384 b ∧
      sliceOf rsp 52 32 = drbgBytes s.draws 32 ∧ u.draws = s.draws + 32 := by
  have hf : spdmChallenge s tr req = spdmChallenge s tr req := rfl
  conv_rhs at hf => unfold spdmChallenge
  dsimp only at hf
  rw [show rqP1 req = 0 from hslot, if_pos (Or.inl rfl), hb] at hf
  dsimp only at hf
  rw [if_neg (by omega)] at hf
  refine responds_turn (by decide) (by decide) rfl h hf rfl ⟨Spdm.say_code _ _ _ _ _, ?_, ?_, rfl⟩
  · refine (Spdm.say_slice _ _ _ _ _ 0 48).trans ?_
    simp only [List.append_assoc]
    exact sliceOf_front (sha384_length b) _
  · refine (Spdm.say_slice _ _ _ _ _ 48 32).trans ?_
    simp only [List.append_assoc]
    exact (sliceOf_skip (sha384_length b) _ 0 32).trans (sliceOf_front (drbgBytes_length _ _) _)

end

theorem responds_getMeasurements {i : Nat} (h : SpdmTurn s tr 0xE0 req) (hi : leAt req 3 1 = i) (hlo : 1 ≤ i) (hhi : i ≤ 65)
    (hunsigned : bitOf (leAt req 2 1) 0 = false) : Responds (.getMeasurements tr req) s tr fun u rsp =>
      leAt rsp 1 1 = 0x60 ∧ leAt rsp 4 1 = 1 ∧ sliceOf rsp 8 (s.measRecord i).length = s.measRecord i ∧ u.draws = s.draws + 32 ∧
      s.measurement i = (if i = 65 then s.deviceBlock else
        (s.logReg (i - 1)).value ++ le 4 (s.logReg (i - 1)).count ++ le 2 (s.logReg (i - 1)).epoch ++ zeros 2) := by
  have hf : spdmMeasurements s tr req = spdmMeasurements s tr req := rfl
  conv_rhs at hf => unfold spdmMeasurements
  dsimp only at hf
  have h0 : i ≠ 0 := by omega
  have hall : i ≠ 0xFF := by omega
  have hnone : ¬ (65 < i ∧ i ≠ 0xFF ∨ false = true ∧ req.length < 36) := fun h => h.elim (by omega) fun h' => Bool.false_ne_true h'.1
  rw [show rqP2 req = i from hi, show bitOf (rqP1 req) 0 = false from hunsigned, if_neg hnone] at hf
  simp only [if_neg h0, if_neg hall, Bool.false_eq_true, if_false] at hf
  refine responds_turn (by decide) (by decide) rfl h hf rfl ⟨Spdm.say_code _ _ _ _ _, rfl, ?_, rfl, ?_⟩
  · rw [List.append_nil]
    refine (Spdm.say_slice _ _ _ _ _ 4 _).trans ?_
    simp only [List.append_assoc]
    exact sliceOf_front rfl _
  · unfold State.measurement
    by_cases h65 : i = 65
    · rw [if_neg (by omega), if_pos h65]
    · rw [if_pos (by omega), if_neg h65]
      rfl

/-! ### Sessions (R364) -/

section
variable {b : Bytes} (hb : s.spdmChain 0 = some b) (h : SpdmTurn s tr 0xE4 req) (hslot : leAt req 3 1 = 0) (hlen : 136 ≤ req.length)
include hb h hslot hlen

theorem exec_keyExchange_full (hfull : 4 ≤ s.host.sessions.length) :
    exec (.keyExchange tr req) s = .next (s.sendSpdm tr ((s.spdmOf tr).err 0x0A)) := by
  refine exec_turn_same (f := spdmKeyExchange) (by decide) (by decide) rfl h ?_
  unfold spdmKeyExchange
  dsimp only
  rw [show rqP2 req = 0 from hslot, if_pos (Or.inl rfl), hb]
  dsimp only
  rw [if_neg (by omega), if_pos hfull]
  rfl

theorem responds_keyExchange (hroom : s.host.sessions.length < 4) : Responds (.keyExchange tr req) s tr fun u rsp =>
    leAt rsp 1 1 = 0x64 ∧ u.draws = s.draws + 80 ∧
    ∃ x, u.host.sessions = x :: s.host.sessions ∧ x.transport = tr ∧ x.finished = false ∧ leAt rsp 4 2 = x.id := by
  have hf : spdmKeyExchange s tr req = spdmKeyExchange s tr req := rfl
  conv_rhs at hf => unfold spdmKeyExchange
  dsimp only at hf
  rw [show rqP2 req = 0 from hslot, if_pos (Or.inl rfl), hb] at hf
  dsimp only at hf
  rw [if_neg (by omega), if_neg (by omega)] at hf
  refine responds_turn (by decide) (by decide) rfl h hf rfl ⟨rfl, rfl, _, rfl, rfl, rfl, ?_⟩
  simp only [Spdm.say, List.append_assoc]
  refine (leAt_field (le 1 (s.spdmOf tr).verByte ++ (le 1 0x64 ++ (le 1 0 ++ le 1 0))) _ 2 (s.host.nextSess % 65536)).trans ?_
  exact Nat.mod_eq_of_lt (Nat.mod_lt _ (by decide))

end

/-- Without a session a session message is answered SessionRequired. -/
theorem exec_sessionRequired {cmd : Instr} {code : Nat} {g : State → SpdmSession → Spdm → Bytes → State × Bytes} (hv : code ≠ 0x84)
    (hc : code ≠ 0xE1) (hx : exec cmd s = spdmRow tr code (inSession g) req s) (h : SpdmTurn s tr code req) (hnone : s.sessionOn tr = none) :
    exec cmd s = .next (s.sendSpdm tr ((s.spdmOf tr).err 0x0B)) := by
  refine exec_turn_same hv hc hx h ?_
  unfold inSession
  rw [hnone]
  rfl

section
variable {x : SpdmSession} (hsession : s.sessionOn tr = some x)
include hsession

theorem inSession_some (g : State → SpdmSession → Spdm → Bytes → State × Bytes) : inSession g s tr req = g s x (s.spdmOf tr) req := by
  unfold inSession
  rw [hsession]

theorem sessionOn_transport : x.transport = tr := by
  have h := List.find?_some hsession
  exact beq_iff_eq.1 h

section
variable (h : SpdmTurn s tr 0xE5 req)
include h

theorem responds_spdmFinish (hopen : x.finished = false)
    (hproof : prim (.hmac 0x03) [x.secret, (s.spdmOf tr).transcript ++ req.take (req.length - 48)] 48 = req.drop (req.length - 48)) :
    Responds (.spdmFinish tr req) s tr fun u rsp => leAt rsp 1 1 = 0x65 ∧
      u.host.sessions = s.host.sessions.map (fun y => if y.id = x.id then { y with finished := true } else y) := by
  have hf : spdmFinish s tr req = _ := inSession_some hsession _
  rw [if_neg (fun h' => h'.elim (fun h'' => h'' hproof) (by rw [hopen]; decide))] at hf
  exact responds_turn (by decide) (by decide) rfl h hf rfl ⟨rfl, rfl⟩

theorem exec_spdmFinish_invalid
    (hproof : prim (.hmac 0x03) [x.secret, (s.spdmOf tr).transcript ++ req.take (req.length - 48)] 48 ≠ req.drop (req.length - 48)) :
    exec (.spdmFinish tr req) s = .next (s.sendSpdm tr ((s.spdmOf tr).err 0x01)) := by
  have hf : spdmFinish s tr req = _ := inSession_some hsession _
  rw [if_pos (Or.inl hproof)] at hf
  exact exec_turn_same (by decide) (by decide) rfl h hf

end

theorem exec_heartbeat (h : SpdmTurn s tr 0xE8 req) : exec (.heartbeat tr req) s = .next (s.sendSpdm tr ((s.spdmOf tr).say 0x68 0 0 [])) :=
  exec_turn_same (f := spdmHeartbeat) (by decide) (by decide) rfl h (inSession_some hsession _)

theorem responds_keyUpdate (h : SpdmTurn s tr 0xE9 req) (hfinished : x.finished = true) (hlo : 1 ≤ leAt req 2 1) (hhi : leAt req 2 1 ≤ 3) :
    Responds (.keyUpdate tr req) s tr fun u rsp => leAt rsp 1 1 = 0x69 ∧ rsp.length = 4 ∧ u.draws = s.draws := by
  have hf : spdmKeyUpdate s tr req = _ := inSession_some hsession _
  rw [if_neg (by
    rw [hfinished]
    unfold rqP1
    exact fun h' => h'.elim (fun h'' => h'' rfl) (by omega))] at hf
  exact responds_turn (by decide) (by decide) rfl h hf rfl ⟨rfl, rfl, rfl⟩

theorem responds_endSession (h : SpdmTurn s tr 0xEC req) : Responds (.endSession tr req) s tr fun u rsp => leAt rsp 1 1 = 0x6C ∧
    u.host.sessions = s.host.sessions.filter fun y => y.id != x.id := by
  have hf : spdmEndSession s tr req = _ := inSession_some hsession _
  exact responds_turn (by decide) (by decide) rfl h hf rfl ⟨rfl, rfl⟩

end

/-! ### The owner's chains (R363) -/

section
variable (h : SpdmTurn s tr 0xEE req)
include h

theorem responds_setCertificate (howned : s.lc.state = .owned) (hslot : leAt req 2 1 % 16 = 2 ∨ leAt req 2 1 % 16 = 3)
    (hlen : 4 < req.length) : Responds (.setCertificate tr req) s tr fun u rsp => leAt rsp 1 1 = 0x6E ∧
      tget u.boot.chains (leAt req 2 1 % 16) = some (req.drop 4) ∧
      ∀ i, i ≠ leAt req 2 1 % 16 → tget u.boot.chains i = tget s.boot.chains i := by
  have hf : spdmSetCertificate s tr req = spdmSetCertificate s tr req := rfl
  conv_rhs at hf => unfold spdmSetCertificate
  dsimp only at hf
  rw [show rqP1 req = leAt req 2 1 from rfl, if_neg (by rw [howned]; simp only [ne_eq, not_true_eq_false, false_or]; omega)] at hf
  exact responds_turn (by decide) (by decide) rfl h hf rfl ⟨rfl, tget_tput_same _ _ _, fun i hi => tget_tput_ne _ _ _ _ hi⟩

theorem exec_setCertificate_refused (hlc : s.lc.state ≠ .owned) :
    exec (.setCertificate tr req) s = .next (s.sendSpdm tr ((s.spdmOf tr).err 0x01)) := by
  refine exec_turn_same (f := spdmSetCertificate) (by decide) (by decide) rfl h ?_
  unfold spdmSetCertificate
  dsimp only
  rw [if_pos (Or.inl hlc)]
  rfl

end

/-! ### Vendor-defined requests (R367) -/

section
variable {p : Bytes} (h : SpdmTurn s tr 0xFE req) (hp : vendorPayload req = some p)
include h hp

theorem responds_getPqChain {b : Bytes} (hlen : p.length = 10) (hcmd : leAt p 0 1 = 1) (hslot : leAt p 1 1 = 0) (hb : s.chainOf 1 = some b) :
    Responds (.getPqChain tr req) s tr fun u rsp => leAt rsp 1 1 = 0x7E ∧ rsp.drop 11 = sliceOf b (leAt p 2 4) (leAt p 6 4) ∧ u = s := by
  have hf : spdmPqChain s tr req = spdmPqChain s tr req := rfl
  conv_rhs at hf => unfold spdmPqChain
  rw [hp] at hf
  dsimp only at hf
  rw [hslot, if_pos rfl, hb] at hf
  dsimp only at hf
  rw [if_neg (by omega)] at hf
  exact responds_turn (by decide) (by decide) rfl h hf rfl ⟨rfl, Spdm.vendor_drop _ _, rfl⟩

theorem responds_pqQuote (hlen : p.length = 41) (hcmd : leAt p 0 1 = 2) : Responds (.pqQuote tr req) s tr fun u rsp =>
    leAt rsp 1 1 = 0x7E ∧ u.draws = s.draws + 32 ∧
    rsp.drop 11 = s.quoteBody (sliceOf p 1 32) (leAt p 33 8) ++
      s.aliasSign (ascii "psibuaz-quote") (s.quoteBody (sliceOf p 1 32) (leAt p 33 8)) s.draws := by
  have hf : spdmPqQuote s tr req = spdmPqQuote s tr req := rfl
  conv_rhs at hf => unfold spdmPqQuote
  rw [hp] at hf
  dsimp only at hf
  rw [if_neg (by omega)] at hf
  exact responds_turn (by decide) (by decide) rfl h hf rfl ⟨rfl, rfl, Spdm.vendor_drop _ _⟩

end

/-! ### Chunks -/

theorem responds_chunkSend (h : SpdmTurn s tr 0x85 req) (hfirst : leAt req 4 2 = 0) (hmore : bitOf (leAt req 2 1) 0 = false) :
    Responds (.chunkSend tr req) s tr fun u rsp => leAt rsp 1 1 = 0x05 ∧
      (u.spdmOf tr).chunkIn = some (leAt req 3 1, 1, sliceOf req 16 (leAt req 8 4)) ∧ u.draws = s.draws := by
  have hf : spdmChunkSend s tr req = (s.modSpdm tr fun c => { c with chunkIn := some (rqP2 req, 1, [] ++ sliceOf req 16 (leAt req 8 4)) },
      (s.spdmOf tr).say 0x05 0 (rqP2 req) (le 2 0)) := by
    unfold spdmChunkSend
    dsimp only
    rw [hfirst, show bitOf (rqP1 req) 0 = false from hmore]
    cases (s.spdmOf tr).chunkIn <;> rfl
  refine responds_turn (by decide) (by decide) rfl h hf rfl ⟨rfl, ?_, rfl⟩
  rw [State.modSpdm_spdmOf]
  rfl

theorem responds_chunkGet {k n : Nat} {b : Bytes} (h : SpdmTurn s tr 0x86 req) (hout : (s.spdmOf tr).chunkOut = some (k, n, b))
    (hk : leAt req 3 1 = k) (hn : leAt req 4 2 = n) (hpos : 0 < n) (hfits : b.length ≤ (s.spdmOf tr).limit - 12) :
    Responds (.chunkGet tr req) s tr fun u rsp => leAt rsp 1 1 = 0x06 ∧ leAt rsp 2 1 = 1 ∧ rsp.drop 12 = b ∧
      (u.spdmOf tr).chunkOut = none := by
  have hf : spdmChunkGet s tr req = spdmChunkGet s tr req := rfl
  conv_rhs at hf => unfold spdmChunkGet
  have hn0 : n ≠ 0 := by omega
  dsimp only at hf
  rw [hout] at hf
  dsimp only at hf
  rw [if_neg (by
    rw [hn]
    exact fun h' => h'.elim (fun h'' => h'' hk) fun h'' => h'' rfl)] at hf
  simp only [if_neg hn0, decide_eq_true hfits, List.take_of_length_le hfits] at hf
  refine responds_turn (by decide) (by decide) rfl h hf rfl ⟨rfl, rfl, rfl, ?_⟩
  rw [State.modSpdm_spdmOf]
  rfl

theorem completes_doeAbort : Completes .doeAbort s fun t => t.host.doeObj = [] ∧ t.host.doeErr = false ∧ (t.spdmOf .doe).chunkIn = none ∧
    (t.spdmOf .doe).chunkOut = none ∧ t = { s with host := t.host } := by
  refine .of_done (t := s.doeAbort) rfl rfl ⟨rfl, rfl, ?_, ?_, rfl⟩
  · rw [State.doeAbort, State.modSpdm_spdmOf]
  · rw [State.doeAbort, State.modSpdm_spdmOf]

end

end Sys2Proof.Machine

open Sys2Proof.Machine

/-- Settles O46. -/
theorem spdmRequestsAreAnsweredInTurn : Obligations.SpdmRequestsAreAnsweredInTurn := by
  unfold Obligations.SpdmRequestsAreAnsweredInTurn
  intro s tr req c rows
  refine ⟨fun row hrow => ?_, fun u rsp => State.sendSpdm_whole, fun hon hlen h4 => ⟨responds_getVersion hon hlen h4,
    responds_getCapabilities hon hlen h4⟩, fun hon hlc hlen h4 => responds_negotiateAlgorithms hon hlen h4 hlc, responds_getDigests,
    fun b h hb => responds_getCertificate hb h, fun b h hb => responds_challenge hb h, fun i => responds_getMeasurements,
    fun b h hb hslot hlen => ⟨exec_keyExchange_full hb h hslot hlen, responds_keyExchange hb h hslot hlen⟩, ?_,
    fun x hsession => ⟨fun h hopen => ⟨responds_spdmFinish hsession h hopen, exec_spdmFinish_invalid hsession h⟩, exec_heartbeat hsession,
      responds_keyUpdate hsession, responds_endSession hsession⟩,
    fun h => ⟨responds_setCertificate h, exec_setCertificate_refused h⟩,
    fun p h hp => ⟨fun b => responds_getPqChain h hp, responds_pqQuote h hp⟩, responds_chunkSend,
    fun k n b h hout => responds_chunkGet h hout, completes_doeAbort⟩
  · obtain ⟨f, hx⟩ := spdmRows_row s tr req row hrow
    rw [hx]
    exact ⟨spdmRow_unserved, spdmRow_tooLong, fun hlen _ => spdmRow_scrapped hlen, fun hlen hon hlc => ⟨spdmRow_invalid hlen hon hlc,
      fun h4 hcode hv hc => ⟨spdmRow_version hlen hon hlc h4 hcode hv hc, spdmRow_unexpected hlen hon hlc h4 hcode hv hc,
        spdmRow_unsupported hlen hon hlc h4 hcode hv hc⟩⟩⟩
  · simp only [List.forall_mem_cons]
    exact ⟨exec_sessionRequired (by decide) (by decide) rfl, exec_sessionRequired (by decide) (by decide) rfl,
      exec_sessionRequired (by decide) (by decide) rfl, exec_sessionRequired (by decide) (by decide) rfl,
      fun _ h => absurd h List.not_mem_nil⟩
end

section
/-! PROOF. The host port: accesses of the windows, configuration space, the link's retraining and telemetry, and the obligation
on them (00_scope.md R17, R18; 22_registers.md R476-R493). -/

namespace Sys2Proof.Machine

/-! ### An access that is not accepted (R17) -/

/-- Within a consequential window a record below class B is entered and starts nothing (R421). -/
theorem State.handle_of_window {s : State} {src sub aux : Nat} {real inj dry : Bool} {job : Option Nat} {r : Reaction}
    (hacts : (!dry || real) = true) (hwin : s.windowOf src sub aux = some r) (hd : dispOf s src sub job = some .counted) :
    s.handle src sub aux real inj dry job = s.noted src sub aux real inj dry job := by
  unfold State.handle
  extract_lets win d acts s1 faults safe s2
  rw [if_neg (by simp [acts, hacts]), show d = .counted by simp [d, hd], show win = some r from hwin]
  rfl

/-- A counted record below its threshold changes the collector alone (R417). -/
theorem State.countStep_below {s : State} {src : Nat} (sub aux : Nat) (inj : Bool) (hn : 1 < (s.src src).n)
    (hc : (s.src src).count + 1 < (s.src src).n) : s.countStep src sub aux inj =
      { s with faults := (s.countStep src sub aux inj).faults } := by
  unfold State.countStep
  dsimp only
  have hbelow (b : Bool) : ¬ (s.src src).n ≤ if b then 1 else (s.src src).count + 1 := by
    cases b <;> simp <;> omega
  rw [if_neg (hbelow _)]
  rfl

theorem State.event_below {s : State} {src sub aux : Nat} (hd : ∀ u : State, dispOf u src sub none = some .counted)
    (hn : 1 < (s.src src).n) (hc : (s.src src).count + 1 < (s.src src).n) :
    s.event src sub aux = { s with faults := (s.event src sub aux).faults } := by
  have hnoted := State.noted_eq_or s src sub aux true false false none
  have hsrc := State.noted_src s src sub aux true false false none src
  rw [State.modSrc_src, if_pos rfl] at hsrc
  unfold State.event
  cases hwin : s.windowOf src sub aux with
  | some r =>
    rw [State.handle_of_window rfl hwin (hd s), hnoted]
  | none =>
    rw [State.handle_of_counted rfl hwin (hd s)]
    have hbelow := State.countStep_below (s := s.noted src sub aux true false false none) (src := src) sub aux false
      (by rw [hsrc]; exact hn) (by rw [hsrc]; exact hc)
    generalize (s.noted src sub aux true false false none).countStep src sub aux false = t at hbelow ⊢
    rw [hbelow, hnoted]

/-- The source of the accesses of function `f`. -/
def accessSource (f : Nat) : Nat := if f = 0 then 161 else 162

theorem accessSource_counted (f : Nat) (u : State) : dispOf u (accessSource f) 0x05 none = some .counted := by
  unfold accessSource
  split <;> rfl

theorem State.returns_pending (s : State) (v : BitVec 64) : (s.returns v).pending = s.pending := rfl
theorem State.returns_src (s : State) (v : BitVec 64) (n : Nat) : (s.returns v).src n = s.src n := rfl

section
variable (s : State) (f bytes : Nat)

theorem State.refuseAccess_total (reads : Bool) :
    ((s.refuseAccess f bytes reads).src (accessSource f)).total = satAdd 32 (s.src (accessSource f)).total 1 := by
  unfold State.refuseAccess State.badAccess
  refine (State.event_total _ _ _ _ _).trans ?_
  cases reads <;> rfl

theorem State.refuseAccess_pending (reads : Bool) : (s.refuseAccess f bytes reads).pending = s.pending := by
  unfold State.refuseAccess State.badAccess
  refine (congrArg State.pending (State.event_apart _ _ _ _ _) :).trans ?_
  cases reads <;> rfl

theorem State.refuseAccess_lastRead (reads : Bool) :
    (s.refuseAccess f bytes reads).host.lastRead = if reads then allOnes bytes else s.host.lastRead := by
  unfold State.refuseAccess State.badAccess
  refine (congrArg (fun u : State => u.host.lastRead) (State.event_apart _ _ _ _ _) :).trans ?_
  cases reads <;> rfl

theorem State.refuseAccess_below (reads : Bool) (hn : 1 < (s.src (accessSource f)).n)
    (hc : (s.src (accessSource f)).count + 1 < (s.src (accessSource f)).n) : s.refuseAccess f bytes reads =
      { s with faults := (s.refuseAccess f bytes reads).faults, host := (s.refuseAccess f bytes reads).host } := by
  have hbelow (u : State) (hu : u.src (accessSource f) = s.src (accessSource f)) :
      u.badAccess f = { u with faults := (u.badAccess f).faults } :=
    State.event_below (src := accessSource f) (accessSource_counted f) (by rw [hu]; exact hn) (by rw [hu]; exact hc)
  unfold State.refuseAccess
  cases reads with
  | true =>
    have h := hbelow (s.returns (allOnes bytes)) rfl
    rw [if_pos rfl]
    generalize (s.returns (allOnes bytes)).badAccess f = t at h ⊢
    rw [h]
    rfl
  | false =>
    have h := hbelow s rfl
    rw [if_neg (by decide)]
    generalize s.badAccess f = t at h ⊢
    rw [h]

end

section
variable {s : State} {f off : Nat} {acc : Access}

/-- The window of the registers of function `f`. -/
def bar0 (f : Nat) : Window := if f = 0 then .pfBar0 else .vfBar0

theorem hasWindow_bar0 (hf : f < 256) : hasWindow (bar0 f) f = true := by
  unfold bar0
  by_cases h : f = 0
  · rw [if_pos h, h]
    rfl
  · rw [if_neg h]
    simp [hasWindow, hf]
    omega

theorem completes_misaligned (hf : f < 256) (hresp : s.responds f = true) (hodd : off % accBytes acc ≠ 0)
    (hfit : off + accBytes acc ≤ windowSize (bar0 f) f) : Completes (.registerWrite (bar0 f) f off acc) s fun t =>
      (t.src (accessSource f)).total = satAdd 32 (s.src (accessSource f)).total 1 ∧
      (1 < (s.src (accessSource f)).n → (s.src (accessSource f)).count + 1 < (s.src (accessSource f)).n →
        t = { s with faults := t.faults, host := t.host }) ∧
      (accReads acc = true → t.host.lastRead = allOnes (accBytes acc)) ∧ (accReads acc = false → t.host.lastRead = s.host.lastRead) := by
  have hx : exec (.registerWrite (bar0 f) f off acc) s = within (hasWindow (bar0 f) f && decide (off + accBytes acc ≤ windowSize (bar0 f) f)) s
      (s.refuseAccess f (accBytes acc) (accReads acc)) := by
    have hx : exec (.registerWrite (bar0 f) f off acc) s = execRegisterWrite (bar0 f) f off acc s := rfl
    rw [hx]
    unfold execRegisterWrite
    have hconfig : bar0 f ≠ .config := by unfold bar0; split <;> decide
    rw [if_neg hconfig, if_neg (not_not_intro hresp)]
    unfold bar0
    rw [if_pos hodd, if_pos hodd]
    split <;> rfl
  refine .of_done (hx.trans (within_ok (by rw [hasWindow_bar0 hf, decide_eq_true hfit]; rfl))) (s.refuseAccess_pending f _ _)
    ⟨s.refuseAccess_total f _ _, s.refuseAccess_below f _ _, fun h => ?_, fun h => ?_⟩
  · rw [State.refuseAccess_lastRead, if_pos h]
  · rw [State.refuseAccess_lastRead, if_neg (Bool.eq_false_iff.1 h)]

theorem completes_badAccess {bytes now : Nat} {wr : Bool} (hf : f < 256) (hresp : s.responds f = true) (hbad : accepted off bytes = false) :
    Completes (.badAccess f off bytes wr now) s fun t =>
      (t.src (accessSource f)).total = satAdd 32 (s.src (accessSource f)).total 1 ∧ (wr = true → t.host.lastRead = s.host.lastRead) := by
  have hx : exec (.badAccess f off bytes wr now) s = execBadAccess f off bytes wr now s := rfl
  unfold execBadAccess at hx
  dsimp only at hx
  rw [show (s.at_ now).responds f = true from hresp, hbad, if_neg (by simp)] at hx
  refine .of_done (hx.trans (within_ok (decide_eq_true hf))) ((s.at_ now).refuseAccess_pending f _ _)
    ⟨(s.at_ now).refuseAccess_total f _ _, fun h => ?_⟩
  rw [State.refuseAccess_lastRead, h]
  rfl

theorem exec_registerWrite_silent {bar : Window} (hbar : bar ≠ .config) (hwin : hasWindow bar f = true)
    (hfit : off + accBytes acc ≤ windowSize bar f) (hresp : s.responds f = false) : exec (.registerWrite bar f off acc) s = .next s := by
  have hx : exec (.registerWrite bar f off acc) s = execRegisterWrite bar f off acc s := rfl
  unfold execRegisterWrite at hx
  rw [if_neg hbar, if_pos (Bool.eq_false_iff.1 hresp)] at hx
  exact hx.trans (within_eq (by rw [hwin, decide_eq_true hfit]; rfl) rfl)

end

/-! ### Configuration space (R489-R492) -/

section
variable {s : State} {f : Nat}

theorem exec_configRead {off v : Nat} (hf : f < 256) (halign : off % 4 = 0) (hoff : off + 4 ≤ 2 ^ 12)
    (hv : (if s.cfgOn f then s.cfgWord f off else 0xFFFFFFFF) = v) :
    exec (.registerWrite .config f off .read32) s = .next (s.returns (BitVec.ofNat 64 v)) := by
  have hx : exec (.registerWrite .config f off .read32) s = execRegisterWrite .config f off .read32 s := rfl
  unfold execRegisterWrite at hx
  rw [if_pos rfl, if_neg (not_not_intro halign)] at hx
  unfold State.accessCfg at hx
  dsimp only at hx
  rw [hv] at hx
  refine hx.trans (within_eq ?_ rfl)
  simp [hasWindow, windowSize, hf, accBytes]
  omega

/-- A word that software has not written. -/
theorem State.cfgWord_unwritten {off : Nat} (h : tget s.regs (cfgKey f off) = none) : s.cfgWord f off =
    ((cfgCommon f off ||| (if f = 0 then s.cfgPf off else cfgVf off)) ||| (cfgPlain s.cluster.bar4 (f == 0) off).2) := by
  unfold State.cfgWord State.cfgHeld
  rw [h]
  rfl

section
variable (hclean : ∀ off, tget s.regs (cfgKey f off) = none)
include hclean

/-- A word of PF0's configuration space. -/
theorem exec_configRead_pf {off a b v : Nat} (hf : f = 0) (halign : off % 4 = 0) (hoff : off + 4 ≤ 2 ^ 12)
    (hcommon : cfgCommon 0 off = a) (hown : s.cfgPf off = b) (hplain : (cfgPlain s.cluster.bar4 true off).2 = 0) (hv : a ||| b = v) :
    exec (.registerWrite .config f off .read32) s = .next (s.returns (BitVec.ofNat 64 v)) := by
  subst hf
  refine exec_configRead (by decide) halign hoff ?_
  rw [if_pos (show s.cfgOn 0 = true from rfl), State.cfgWord_unwritten (hclean off), if_pos rfl, beq_self_eq_true, hcommon, hown, hplain, hv, Nat.or_zero]

/-- A word of an enabled VF's configuration space. -/
theorem exec_configRead_vf {off a b v : Nat} (hlt : f < 256) (hf : f ≠ 0) (hen : (s.fn f).enabled = true) (halign : off % 4 = 0)
    (hoff : off + 4 ≤ 2 ^ 12) (hcommon : cfgCommon f off = a) (hown : cfgVf off = b)
    (hplain : (cfgPlain s.cluster.bar4 false off).2 = 0) (hv : a ||| b = v) :
    exec (.registerWrite .config f off .read32) s = .next (s.returns (BitVec.ofNat 64 v)) := by
  refine exec_configRead hlt halign hoff ?_
  rw [State.cfgOn, hen, Bool.or_true, if_pos rfl, State.cfgWord_unwritten (hclean off), if_neg hf, beq_eq_false_iff_ne.2 hf, hcommon, hown, hplain, hv, Nat.or_zero]

end

theorem exec_configRead_absent {off : Nat} (hlt : f < 256) (hf : f ≠ 0) (hen : (s.fn f).enabled = false) (halign : off % 4 = 0)
    (hoff : off + 4 ≤ 2 ^ 12) : exec (.registerWrite .config f off .read32) s = .next (s.returns (BitVec.ofNat 64 0xFFFFFFFF)) :=
  exec_configRead hlt halign hoff (by rw [State.cfgOn, hen, beq_eq_false_iff_ne.2 hf]; rfl)

end

/-! ### Accesses of PF0's windows in operation (R477, R481, R487; 16, R387) -/

section
variable {s : State} (hready : s.boot.ready = true) (hd3 : s.host.d3hot = false)
include hd3

theorem State.responds_pf : s.responds 0 = true := by
  unfold State.responds
  rw [if_pos rfl, hd3]
  rfl

include hready

theorem State.exposes_pf (off : Nat) : s.exposes 0 off = true := by
  unfold State.exposes State.barOn
  rw [if_pos (Or.inr hready), hready, hd3]
  rfl

omit hready in
theorem exec_pfBar0 {off : Nat} {acc : Access} {t : State} (halign : off % accBytes acc = 0) (hfit : off + accBytes acc ≤ 2 ^ 26)
    (ht : s.access 0 off acc false = t) (hpend : t.pending = s.pending) : exec (.registerWrite .pfBar0 0 off acc) s = .next t := by
  have hx : exec (.registerWrite .pfBar0 0 off acc) s = execRegisterWrite .pfBar0 0 off acc s := rfl
  unfold execRegisterWrite at hx
  rw [if_neg (by decide), if_neg (not_not_intro (State.responds_pf hd3))] at hx
  dsimp only at hx
  rw [if_neg (not_not_intro halign), ht] at hx
  exact hx.trans (within_eq (by rw [decide_eq_true (show off + accBytes acc ≤ windowSize .pfBar0 0 from hfit)]; rfl) hpend)

/-- A 32-bit read outside the QCFG registers is served at once. -/
theorem access_read32 {off : Nat} (hcfg : s.cfgQueue 0 off false = none) : s.access 0 off .read32 false = s.read32 0 off true := by
  unfold State.access
  rw [if_neg (not_not_intro (State.exposes_pf hready hd3 off))]
  dsimp only
  rw [State.readWaits, hcfg]
  rfl

omit hready hd3 in
/-- A read of a plain 32-bit register returns its value. -/
theorem read32_register {off v : Nat} (hlock : lockOf 0 off = none) (hrx : rxOf 0 off = none) (harea : s.areaAt off = none)
    (hwide : s.wideRead 0 off = none) (hreg : s.barReg 0 off = some (4, v)) :
    s.read32 0 off true = (s.regClear 0 off).returns (BitVec.ofNat 64 v) := by
  unfold State.read32
  dsimp only
  rw [if_pos rfl, hlock, if_pos rfl, hrx, if_pos rfl, harea, hwide, hreg]
  rfl

omit hready hd3 in
/-- Below the field ports' block there is no byte buffer. -/
theorem State.areaAt_low {off : Nat} (h : off < 0xA1000) : s.areaAt off = none := by
  have hnone {base stride n : Nat} (hb : 0xA1000 ≤ base) : within? off base stride n = none := if_neg fun h' => absurd h'.1 (by omega)
  unfold State.areaAt
  rw [hnone (by decide), hnone (by decide), hnone (by decide)]
  exact ite_self _

omit hready hd3 in
theorem State.idPart_eq (s : State) : s.idPart % 2 ^ 32 = (match s.variant with | .pz8840 => 0x8840 | .pz8820 => 0x8820 | .pz8810 => 0x8810) +
    0xB00000 + (match s.grade with | .ix => 0x1000000 | .cx => 0x2000000) := by
  unfold State.idPart
  cases s.variant <;> cases s.grade <;> rfl

theorem exec_readIdPart : exec (.registerWrite .pfBar0 0 0 .read32) s = .next (s.returns (BitVec.ofNat 64 (s.idPart % 2 ^ 32))) := by
  have hreg : s.barReg 0 0 = some (4, s.idPart % 2 ^ 32) := rfl
  have hclear : s.regClear 0 0 = s := rfl
  have hread := read32_register rfl rfl (State.areaAt_low (by decide)) rfl hreg
  rw [hclear] at hread
  exact exec_pfBar0 hd3 (show 0 % 4 = 0 from rfl) (show 0 + 4 ≤ 2 ^ 26 by decide) ((access_read32 hready hd3 rfl).trans hread)
    (s.returns_pending _)

theorem exec_writeGlbEvent (v : BitVec 32) :
    exec (.registerWrite .pfBar0 0 0x1004 (.write32 v)) s = .next (s.setReg 0x1004 (w1c (s.reg 0x1004) v.toNat)) := by
  refine exec_pfBar0 hd3 (show 0x1004 % 4 = 0 from rfl) (show 0x1004 + 4 ≤ 2 ^ 26 by decide) ?_ rfl
  unfold State.access
  rw [if_neg (not_not_intro (State.exposes_pf hready hd3 _))]
  dsimp only
  unfold State.accessWrite State.write32
  rw [if_neg (by simp), if_neg (by decide)]
  dsimp only
  rw [if_pos rfl, if_neg (by decide), State.areaAt_low (by decide)]
  rfl

theorem exec_readLockAcq {k : Nat} (hk : k < 256) : exec (.registerWrite .pfBar0 0 (0x84000 + 4 * k) .read32) s = exec (.lockAcquire 9 k) s := by
  have hcfg : s.cfgQueue 0 (0x84000 + 4 * k) false = none := by
    unfold State.cfgQueue within?
    dsimp only
    rw [if_pos rfl, if_pos rfl, if_neg (by omega)]
  have hlock : lockOf 0 (0x84000 + 4 * k) = some k := by
    unfold lockOf ixAt
    rw [if_pos rfl, if_pos (by omega)]
    exact congrArg some (by omega)
  have hread : s.read32 0 (0x84000 + 4 * k) true = s.lockTake 9 k := by
    unfold State.read32
    dsimp only
    rw [if_pos rfl, hlock]
  have hx : exec (.registerWrite .pfBar0 0 (0x84000 + 4 * k) .read32) s =
      execRegisterWrite .pfBar0 0 (0x84000 + 4 * k) .read32 s := rfl
  unfold execRegisterWrite at hx
  rw [if_neg (by decide), if_neg (not_not_intro (State.responds_pf hd3))] at hx
  dsimp only at hx
  rw [if_neg (by simp only [accBytes]; omega), access_read32 hready hd3 hcfg, hread] at hx
  have hy : exec (.lockAcquire 9 k) s = within (decide (9 < 10) && decide (k < 256)) s (s.lockTake 9 k) := rfl
  have hfit : 0x84000 + 4 * k + accBytes .read32 ≤ windowSize .pfBar0 0 := by simp only [accBytes, windowSize]; omega
  rw [hx, hy, within_ok (by rw [decide_eq_true hfit]; rfl), within_ok (by rw [decide_eq_true hk]; rfl)]

omit hready in
theorem completes_maskVector {vec : Nat} (hv : vec < 2048) : Completes (.registerWrite .bar2 0 (16 * vec + 12) (.write32 1)) s fun t =>
    vec ∈ (t.fn 0).mask ∧ t.outbox = s.outbox ∧ t = { s with fns := t.fns } := by
  have hx : exec (.registerWrite .bar2 0 (16 * vec + 12) (.write32 1)) s = execRegisterWrite .bar2 0 (16 * vec + 12) (.write32 1) s := rfl
  unfold execRegisterWrite at hx
  rw [if_neg (by decide), if_neg (not_not_intro (State.responds_pf hd3))] at hx
  dsimp only at hx
  have hvec : (16 * vec + 12) / 16 = vec := by omega
  unfold State.accessBar2 at hx
  dsimp only at hx
  unfold State.bar2Write at hx
  rw [if_neg (by simp only [accBytes]; omega), if_pos (by simp only [vectorsOf, if_pos]; omega), if_pos (by omega), if_pos (by decide), hvec] at hx
  refine .of_done (hx.trans (within_ok ?_)) rfl ⟨?_, rfl, rfl⟩
  · rw [decide_eq_true (show 16 * vec + 12 + accBytes (.write32 1) ≤ windowSize .bar2 0 by
      simp only [accBytes, windowSize, if_pos]; omega)]
    rfl
  · rw [State.modFn_fn_same]
    dsimp only
    split
    next h => exact List.contains_iff_mem.1 h
    next => exact List.mem_append_right _ List.mem_cons_self

end

/-! ### The link, translations and telemetry (R482, R487, R493) -/

section
variable {s : State}

theorem completes_hostLinkRetrain {gen width : Nat} (hgen : gen ≤ 6) (hwidth : width ≤ 16) (htether : s.cluster.tethered = false)
    (honline : s.online.isEmpty = true) : Completes (.hostLinkRetrain gen width) s fun t =>
      t = { s with host := { s.host with gen := gen, width := width, budgetNext := some (linkBudget gen width) }, jobs := t.jobs } ∧
      (linkBudget s.host.gen s.host.width ≤ linkBudget gen width → t.jobs = s.jobs) ∧
      (linkBudget gen width < linkBudget s.host.gen s.host.width → ∀ j, t.job? j = (s.job? j).map fun J =>
        if J.accepted.isSome ∧ J.released < J.relBytes then { J with uncovered := true } else J) := by
  have hx : exec (.hostLinkRetrain gen width) s = execHostLinkRetrain gen width s := rfl
  unfold execHostLinkRetrain at hx
  dsimp only at hx
  have hnone (host : HostPort) (jobs : Table Job) : { s with host := host, jobs := jobs }.online.isEmpty = true := honline
  have hok : (decide (gen ≤ 6) && decide (width ≤ 16)) = true := by simp [hgen, hwidth]
  by_cases hslow : linkBudget gen width < linkBudget s.host.gen s.host.width
  · unfold State.slowedBy at hx
    rw [if_pos hslow, if_neg (Bool.eq_false_iff.1 htether), if_pos (hnone _ _)] at hx
    refine .of_done (hx.trans (within_ok hok)) rfl ⟨rfl, fun h => absurd h (by omega), fun _ j => ?_⟩
    unfold State.job?
    dsimp only
    rw [tget_tmap]
    simp only [Bool.and_eq_true, decide_eq_true_eq]
  · unfold State.slowedBy at hx
    rw [if_neg hslow, if_neg (Bool.eq_false_iff.1 htether), if_pos (hnone _ _)] at hx
    exact .of_done (hx.trans (within_ok hok)) rfl ⟨rfl, fun _ => rfl, fun h => absurd h hslow⟩

theorem exec_atsInvalidation {f a n : Nat} (hf : f < 256) (hr : a + n ≤ 2 ^ 64) : exec (.atsInvalidation f a n) s = .next (s.emit (.ats f)) := by
  have hx : exec (.atsInvalidation f a n) s = within (okFn f && decide (a + n ≤ 2 ^ 64)) s (s.emit (.ats f)) := rfl
  exact hx.trans (within_eq (by rw [decide_eq_true hr, okFn, decide_eq_true hf]; rfl) rfl)

theorem exec_telemetryPeriod {p c : Nat} (hp : p < 1024) (hc : c < 256) : exec (.telemetryPeriod p c) s =
    .next (s.setReg 0x1018 (p + 2 ^ 16 * c + 2 ^ 32 * ((bitsOf (s.reg 0x1018) 63 32 + 1) % 2 ^ 32))) := by
  have hx : exec (.telemetryPeriod p c) s = execTelemetryPeriod p c s := rfl
  unfold execTelemetryPeriod at hx
  dsimp only at hx
  rw [Nat.mod_eq_of_lt hp, Nat.mod_eq_of_lt hc] at hx
  exact hx.trans (done_eq rfl)

end

end Sys2Proof.Machine

open Sys2Proof.Machine

/-- Settles O47. -/
theorem hostAccessesFollowTheRegisterMap : Obligations.HostAccessesFollowTheRegisterMap := by
  unfold Obligations.HostAccessesFollowTheRegisterMap
  intro s
  refine ⟨fun f acc off => completes_misaligned, fun f off bytes wr now => completes_badAccess,
    fun bar f off acc => exec_registerWrite_silent, fun f hlt hclean => ⟨fun hf => ⟨?_, ?_, ?_, ?_, ?_⟩, fun hf hen => ⟨?_, ?_, ?_⟩, ?_⟩,
    fun hready hd3 => ⟨?_, exec_writeGlbEvent hready hd3, fun k => exec_readLockAcq hready hd3, fun vec => completes_maskVector hd3⟩,
    fun gen width => completes_hostLinkRetrain, ⟨rfl, rfl, rfl, rfl, rfl⟩, fun f a n => exec_atsInvalidation, fun p c => exec_telemetryPeriod⟩
  · exact exec_configRead_pf hclean hf rfl (by decide) (a := 0) (b := 0x88401FD4) rfl rfl rfl rfl
  · exact exec_configRead_pf hclean hf rfl (by decide) (a := 0x108000B0) (b := 0) rfl rfl rfl rfl
  · exact exec_configRead_pf hclean hf rfl (by decide) (a := 0) (b := 0x40) rfl rfl rfl rfl
  · exact exec_configRead_pf hclean hf rfl (by decide) rfl rfl rfl (Nat.zero_or _)
  · exact exec_configRead_pf hclean hf rfl (by decide) rfl rfl rfl (Nat.zero_or _)
  · exact exec_configRead_vf hclean hlt hf hen rfl (by decide) (a := 0) (b := 0x88411FD4) rfl rfl rfl rfl
  · exact exec_configRead_vf hclean hlt hf hen rfl (by decide) (a := 0x108000B0) (b := 0) rfl rfl rfl rfl
  · exact exec_configRead_vf hclean hlt hf hen rfl (by decide) (a := 0) (b := 0x50) rfl rfl rfl rfl
  · exact fun hf hen => exec_configRead_absent hlt hf hen rfl (by decide)
  · exact (exec_readIdPart hready hd3).trans (congrArg (fun n => (.next (s.returns (BitVec.ofNat 64 n)) : Out)) s.idPart_eq)
end

section
/-! PROOF. Mailboxes, the runtime's answers and the locks, and the obligation on them (16_service_complex.md R381-R387). -/

namespace Sys2Proof.Machine

/-! ### What a wake event leaves (R384) -/

/-- What the mailboxes and the registers show. -/
structure Mailed (s t : State) : Prop where
  mbox : ∀ k, t.mbox k = s.mbox k
  reg : ∀ o, t.reg o = s.reg o
  pending : t.pending = s.pending

theorem State.msix_mailed (s : State) (f v : Nat) : Mailed s (s.msix f v) where
  mbox k := by
    unfold State.msix
    split
    · rfl
    · split <;> rfl
  reg o := by
    unfold State.msix
    split
    · rfl
    · split <;> rfl
  pending := s.msix_pending f v

theorem State.wake_mailed (s : State) (m : Master) : Mailed s (s.wake m) := by
  cases m with
  | host f => exact s.msix_mailed f _
  | module k =>
    have hwake : Mailed s (s.wakeModule k 2) := by
      unfold State.wakeModule
      split <;> exact ⟨fun _ => rfl, fun _ => rfl, rfl⟩
    exact ⟨hwake.mbox, hwake.reg, hwake.pending⟩
  | runtime => exact ⟨fun _ => rfl, fun _ => rfl, rfl⟩
  | binnacle => exact ⟨fun _ => rfl, fun _ => rfl, rfl⟩

theorem State.returns_lastRead (s : State) (v : BitVec 64) : (s.returns v).host.lastRead = v := rfl
theorem State.returns_mbox (s : State) (v : BitVec 64) (k : Nat) : (s.returns v).mbox k = s.mbox k := rfl

theorem completes_returns {c : Instr} {s u : State} {v : BitVec 64} {P : State → Prop} (hx : exec c s = done s (u.returns v))
    (hpend : u.pending = s.pending) (hP : P (u.returns v)) : Completes c s P := .of_done hx hpend hP

theorem pairMate_ne (n : Nat) : n ≠ pairMate n := by
  unfold pairMate
  split <;> omega

/-! ### Writes and recalls (R382, R383) -/

section
variable {s : State} {n : Nat} (hn : n < 518)
include hn

theorem exec_mboxTxWrite_other {m : Master} {w : BitVec 32} {now : Nat} (hm : m ≠ senderOf n) :
    exec (.mboxTxWrite m n w now) s = .next (s.at_ now) := by
  have hx : exec (.mboxTxWrite m n w now) s = within (decide (n < 518)) s ((s.at_ now).mboxTx m n w) := rfl
  unfold State.mboxTx at hx
  rw [if_neg fun h => hm h.1] at hx
  exact hx.trans (within_eq (decide_eq_true hn) rfl)

theorem exec_mboxRecall_other {m : Master} (hm : m ≠ senderOf n) : exec (.mboxRecall m n) s = .next s := by
  have hx : exec (.mboxRecall m n) s = within (decide (n < 518)) s (s.recall m n) := rfl
  unfold State.recall at hx
  rw [if_pos (Or.inl hm)] at hx
  exact hx.trans (within_eq (decide_eq_true hn) rfl)

section
variable (hreach : s.reaches (senderOf n) = true)
include hreach

theorem exec_mboxTxWrite_full {w : BitVec 32} {now : Nat} (hfull : (s.mbox n).full = true) :
    exec (.mboxTxWrite (senderOf n) n w now) s = .next ((s.at_ now).modMbox n fun M => { M with dropped := true }) := by
  have hx : exec (.mboxTxWrite (senderOf n) n w now) s = within (decide (n < 518)) s ((s.at_ now).mboxTx (senderOf n) n w) := rfl
  unfold State.mboxTx State.mboxWrite at hx
  rw [if_pos ⟨rfl, hreach⟩, if_pos (show ((s.at_ now).mbox n).full = true from hfull)] at hx
  exact hx.trans (within_eq (decide_eq_true hn) rfl)

theorem completes_mboxTxWrite {w : BitVec 32} {now : Nat} (hempty : (s.mbox n).full = false) :
    Completes (.mboxTxWrite (senderOf n) n w now) s fun t =>
      t.mbox n = { s.mbox n with word := w, full := true, since := (s.time.to now).elapsed } ∧ (∀ k, k ≠ n → t.mbox k = s.mbox k) ∧
      ∀ f, 0 < f → receiverOf n = .host f → bitOf (t.reg (vfEventKey f)) 1 = true := by
  have hx : exec (.mboxTxWrite (senderOf n) n w now) s = within (decide (n < 518)) s ((s.at_ now).mboxTx (senderOf n) n w) := rfl
  unfold State.mboxTx State.mboxWrite at hx
  rw [if_pos ⟨rfl, hreach⟩, if_neg (Bool.eq_false_iff.1 (show ((s.at_ now).mbox n).full = false from hempty))] at hx
  have harrived (u : State) (m : Master) : (∀ k, (u.arrived m).mbox k = u.mbox k) ∧ (u.arrived m).pending = u.pending := by
    unfold State.arrived
    cases m with
    | host f => exact ⟨fun k => by dsimp only; split <;> rfl, by dsimp only; split <;> rfl⟩
    | _ => exact ⟨fun _ => rfl, rfl⟩
  have hstored (k : Nat) : ((s.at_ now).mboxStore n w).mbox k =
      if k = n then { s.mbox n with word := w, full := true, since := (s.time.to now).elapsed } else s.mbox k :=
    State.modMbox_mbox (s.at_ now) n k fun M => { M with word := w, full := true, since := (s.time.to now).elapsed }
  have hwake := (((s.at_ now).mboxStore n w).arrived (receiverOf n)).wake_mailed (receiverOf n)
  have hmbox (k : Nat) := ((hwake.mbox k).trans ((harrived _ _).1 k)).trans (hstored k)
  refine .of_done (hx.trans (within_ok (decide_eq_true hn))) (hwake.pending.trans (harrived _ _).2)
    ⟨(hmbox n).trans (if_pos rfl), fun k hk => (hmbox k).trans (if_neg hk), fun f hf hr => ?_⟩
  rw [hwake.reg, hr]
  unfold State.arrived
  dsimp only
  rw [if_neg (Nat.ne_of_gt hf), State.setBits, State.setReg_reg, if_pos rfl, bitOf]
  generalize ((s.at_ now).mboxStore n w).reg (vfEventKey f) = v
  have hbit : (v ||| 2).testBit 1 = true := by rw [Nat.testBit_or, show Nat.testBit 2 1 = true by decide, Bool.or_true]
  rw [Nat.testBit_eq_decide_div_mod_eq, decide_eq_true_eq] at hbit
  rw [Nat.shiftRight_eq_div_pow, beq_iff_eq]
  exact hbit

theorem completes_mboxRecall (hfull : (s.mbox n).full = true) : Completes (.mboxRecall (senderOf n) n) s fun t =>
    (t.mbox n).full = false ∧ (t.mbox n).recalled = true ∧ (t.mbox n).word = (s.mbox n).word := by
  have hx : exec (.mboxRecall (senderOf n) n) s = within (decide (n < 518)) s (s.recall (senderOf n) n) := rfl
  unfold State.recall at hx
  rw [if_neg (by rw [hreach]; simp), if_pos hfull] at hx
  have hmbox : ((s.mboxEmpty n).modMbox n fun M => { M with recalled := true }).mbox n =
      { s.mbox n with full := false, cross := false, recalled := true } := by
    rw [State.modMbox_mbox, if_pos rfl, State.mboxEmpty, State.modMbox_mbox, if_neg (pairMate_ne n), State.modMbox_mbox, if_pos rfl]
  exact .of_done (hx.trans (within_ok (decide_eq_true hn))) rfl (by rw [hmbox]; exact ⟨rfl, rfl, rfl⟩)

theorem exec_mboxRecall_miss (hempty : (s.mbox n).full = false) :
    exec (.mboxRecall (senderOf n) n) s = .next (s.modMbox n fun M => { M with miss := true }) := by
  have hx : exec (.mboxRecall (senderOf n) n) s = within (decide (n < 518)) s (s.recall (senderOf n) n) := rfl
  unfold State.recall at hx
  rw [if_neg (by rw [hreach]; simp), if_neg (Bool.eq_false_iff.1 hempty)] at hx
  exact hx.trans (within_eq (decide_eq_true hn) rfl)

end

/-! ### Reads (R383) -/

theorem exec_mboxRxRead_other {m : Master} {half : Half} (hm : m ≠ receiverOf n) :
    exec (.mboxRxRead m n half) s = .next (s.returns 0) := by
  have hx : exec (.mboxRxRead m n half) s = within (decide (n < 518)) s (s.mboxRx m n half) := rfl
  unfold State.mboxRx at hx
  dsimp only at hx
  rw [if_pos (Or.inl hm)] at hx
  exact hx.trans (within_eq (decide_eq_true hn) rfl)

omit hn in
/-- A mailbox that its receiver reads is empty, marked read, and its pair no longer crossed. -/
theorem State.mboxTake_mbox (hfull : (s.mbox n).full = true) (hreplies : n = 1 → s.service.replies = []) :
    s.mboxTake n = (s.mboxEmpty n).modMbox n fun M => { M with read := true } := by
  unfold State.mboxTake
  dsimp only
  rw [if_pos hfull]
  by_cases h1 : n = 1
  · rw [if_pos h1]
    unfold State.flushReplies
    rw [show ((s.mboxEmpty n).modMbox n fun M => { M with read := true }).service.replies = [] from hreplies h1]
  · rw [if_neg h1]

omit hn in
theorem State.emptied_mbox (k : Nat) : ((s.mboxEmpty n).modMbox n fun M => { M with read := true }).mbox k =
    if k = n then { s.mbox n with full := false, cross := false, read := true }
    else if k = pairMate n then { s.mbox k with cross := false } else s.mbox k := by
  rw [State.modMbox_mbox, State.mboxEmpty]
  by_cases hk : k = n
  · rw [if_pos hk, if_pos hk, State.modMbox_mbox, if_neg (pairMate_ne n), State.modMbox_mbox, if_pos rfl]
  · rw [if_neg hk, if_neg hk, State.modMbox_mbox, State.modMbox_mbox, if_neg (pairMate_ne n).symm, State.modMbox_mbox, if_neg hk]
    by_cases hpair : k = pairMate n
    · rw [if_pos hpair, if_pos hpair, hpair]
    · rw [if_neg hpair, if_neg hpair]

section
variable (hpos : 1 ≤ n) (hreach : s.reaches (receiverOf n) = true)
include hpos hreach

theorem mboxRxRead_both : exec (.mboxRxRead (receiverOf n) n .both) s = done s ((s.mboxTake n).returns (s.mbox n).reading) := by
  have hx : exec (.mboxRxRead (receiverOf n) n .both) s = within (decide (n < 518)) s (s.mboxRx (receiverOf n) n .both) := rfl
  unfold State.mboxRx at hx
  dsimp only at hx
  rw [if_neg (by rw [hreach]; simp), if_neg (by omega)] at hx
  exact hx.trans (within_ok (decide_eq_true hn))

theorem completes_mboxRxRead_full (hreplies : n = 1 → s.service.replies = []) (hfull : (s.mbox n).full = true) :
    Completes (.mboxRxRead (receiverOf n) n .both) s fun t => (t.mbox n).full = false ∧ (t.mbox n).read = true ∧
      t.host.lastRead = BitVec.ofNat 64 ((s.mbox n).word.toNat + 2 ^ 32) ∧ ∀ k, k ≠ n → k ≠ pairMate n → t.mbox k = s.mbox k := by
  have hx := mboxRxRead_both hn hpos hreach
  rw [State.mboxTake_mbox hfull hreplies, Mbox.reading, if_pos hfull] at hx
  have hmbox := State.emptied_mbox (s := s) (n := n)
  have hsame := (hmbox n).trans (if_pos rfl)
  refine completes_returns hx rfl ⟨?_, ?_, State.returns_lastRead _ _, fun k hk hpair => ?_⟩
  · rw [State.returns_mbox, hsame]
  · rw [State.returns_mbox, hsame]
  · rw [State.returns_mbox]
    exact (hmbox k).trans ((if_neg hk).trans (if_neg hpair))

theorem completes_mboxRxRead_empty (hempty : (s.mbox n).full = false) :
    Completes (.mboxRxRead (receiverOf n) n .both) s fun t => t.host.lastRead = 0 ∧ ∀ k, t.mbox k = s.mbox k := by
  have hx := mboxRxRead_both hn hpos hreach
  rw [State.mboxTake, if_neg (Bool.eq_false_iff.1 hempty), Mbox.reading, if_neg (Bool.eq_false_iff.1 hempty)] at hx
  exact .of_done hx rfl ⟨rfl, fun _ => rfl⟩

end

/-! ### A pair that stays full (R385) -/

theorem completes_crossFull {now : Nat} (ha : (s.mbox n).full = true) (hb : (s.mbox (pairMate n)).full = true)
    (hage : max (s.mbox n).since (s.mbox (pairMate n)).since + 1000000000 < (s.time.to now).elapsed) (hcross : (s.mbox n).cross = false) :
    Completes (.crossFull n now) s fun t => (t.mbox n).cross = true ∧ (t.mbox (pairMate n)).cross = true ∧ (t.mbox n).full = true := by
  have hx : exec (.crossFull n now) s = execCrossFull n now s := rfl
  unfold execCrossFull at hx
  dsimp only at hx
  have hcond : ((s.at_ now).mbox n).full = true ∧ ((s.at_ now).mbox (pairMate n)).full = true ∧
      max ((s.at_ now).mbox n).since ((s.at_ now).mbox (pairMate n)).since + 1000000000 < (s.at_ now).time.elapsed ∧
      ¬ ((s.at_ now).mbox n).cross = true := ⟨ha, hb, hage, Bool.eq_false_iff.1 hcross⟩
  rw [if_pos hcond] at hx
  generalize hu : ((s.at_ now).modMbox n fun M => { M with cross := true }).modMbox (pairMate n)
    (fun M => { M with cross := true }) = u at hx
  have hmbox (k : Nat) := (State.wake_mailed (u.wake (receiverOf n)) (receiverOf (pairMate n))).mbox k |>.trans
    ((u.wake_mailed (receiverOf n)).mbox k)
  have hn' : u.mbox n = { s.mbox n with cross := true } := by
    rw [← hu, State.modMbox_mbox, if_neg (pairMate_ne n), State.modMbox_mbox, if_pos rfl]
    rfl
  have hpair : (u.mbox (pairMate n)).cross = true := by rw [← hu, State.modMbox_mbox, if_pos rfl]
  refine .of_done (hx.trans (within_ok (decide_eq_true hn))) ?_ ⟨?_, ?_, ?_⟩
  · exact (State.wake_mailed _ _).pending.trans ((State.wake_mailed _ _).pending.trans (by rw [← hu]; rfl))
  · rw [hmbox, hn']
  · rw [hmbox, hpair]
  · rw [hmbox, hn']
    exact ha

theorem exec_crossFull_stays {now : Nat}
    (h : (s.mbox n).cross = true ∨ (s.mbox n).full = false ∨ (s.mbox (pairMate n)).full = false) :
    exec (.crossFull n now) s = .next (s.at_ now) := by
  have hx : exec (.crossFull n now) s = execCrossFull n now s := rfl
  unfold execCrossFull at hx
  dsimp only at hx
  have hcond : ¬ (((s.at_ now).mbox n).full = true ∧ ((s.at_ now).mbox (pairMate n)).full = true ∧
      max ((s.at_ now).mbox n).since ((s.at_ now).mbox (pairMate n)).since + 1000000000 < (s.at_ now).time.elapsed ∧
      ¬ ((s.at_ now).mbox n).cross = true) := by
    rintro ⟨ha, hb, -, hcross⟩
    rcases h with h | h | h
    · exact hcross h
    · exact Bool.eq_false_iff.1 h ha
    · exact Bool.eq_false_iff.1 h hb
  rw [if_neg hcond] at hx
  exact hx.trans (within_eq (decide_eq_true hn) rfl)

end

/-! ### The runtime's answers (R386) -/

section
variable {s : State} (hreplies : s.service.replies = []) (hfree : (s.mbox 1).full = false)
include hreplies hfree

/-- With no reply waiting and mailbox 1 empty a request is taken and answered at once. -/
theorem State.runtimeTakes_spec {w : BitVec 32} (hreq : s.mbox 0 = { s.mbox 0 with full := true, word := w }) :
    (s.runtimeTakes.mbox 0).full = false ∧ (s.runtimeTakes.mbox 1).full = true ∧
    (s.runtimeTakes.mbox 1).word = BitVec.ofNat 32 (s.replyTo w.toNat) ∧ s.runtimeTakes.pending = s.pending := by
  have hfull : (s.mbox 0).full = true := by rw [hreq]
  have hword : (s.mbox 0).word = w := by rw [hreq]
  unfold State.runtimeTakes
  rw [if_pos hfull, State.mboxTake_mbox hfull (fun h => absurd h (by decide)), hword]
  have hemptied := State.emptied_mbox (s := s) (n := 0)
  generalize hu : ((s.mboxEmpty 0).modMbox 0 fun M => { M with read := true }) = u at hemptied ⊢
  have hr : u.service.replies = [] := by rw [← hu]; exact hreplies
  have hone : (u.mbox 1).full = false := by
    rw [hemptied 1, if_neg (by decide), if_pos (show 1 = pairMate 0 from rfl)]
    exact hfree
  unfold State.runtimeSays State.flushReplies
  rw [hr, if_pos (by decide)]
  dsimp only [List.nil_append]
  rw [if_neg (Bool.eq_false_iff.1 (show (State.mbox { u with service := { u.service with replies := [BitVec.ofNat 32 (s.replyTo w.toNat)] } } 1).full =
    false from hone))]
  generalize hv : ({ u with service := { u.service with replies := [] } } : State) = v
  have hm := (v.mboxStore 1 (BitVec.ofNat 32 (s.replyTo w.toNat))).msix_mailed 0 2
  have hstored (k : Nat) : (v.mboxStore 1 (BitVec.ofNat 32 (s.replyTo w.toNat))).mbox k = if k = 1 then { v.mbox 1 with
      word := BitVec.ofNat 32 (s.replyTo w.toNat), full := true, since := v.time.elapsed } else v.mbox k := State.modMbox_mbox v 1 k _
  refine ⟨?_, ?_, ?_, ?_⟩
  · rw [hm.mbox, hstored, if_neg (by decide), ← hv]
    exact (congrArg Mbox.full ((hemptied 0).trans (if_pos rfl)) :)
  · rw [hm.mbox, hstored, if_pos rfl]
  · rw [hm.mbox, hstored, if_pos rfl]
  · exact hm.pending.trans (by rw [← hv, ← hu]; rfl)

/-- A request of a code is answered by the runtime. -/
theorem completes_request {c : Instr} {code arg : Nat} (hx : exec c s = done s (if s.requestIs code then s.runtimeTakes else s))
    (hcode : code < 256) (harg : arg < 2 ^ 24)
    (hreq : s.mbox 0 = { s.mbox 0 with full := true, word := BitVec.ofNat 32 (code * 2 ^ 24 + arg) }) :
    Completes c s fun t => (t.mbox 0).full = false ∧ (t.mbox 1).full = true ∧
      (t.mbox 1).word = BitVec.ofNat 32 (s.replyTo (code * 2 ^ 24 + arg)) := by
  have hword : (BitVec.ofNat 32 (code * 2 ^ 24 + arg)).toNat = code * 2 ^ 24 + arg := by
    rw [BitVec.toNat_ofNat, Nat.mod_eq_of_lt (by omega)]
  have his : s.requestIs code = true := by
    unfold State.requestIs
    rw [hreq]
    dsimp only
    rw [hword, Bool.true_and, beq_iff_eq]
    omega
  rw [if_pos his] at hx
  obtain ⟨hempty, hfull, hsaid, hpend⟩ := State.runtimeTakes_spec hreplies hfree hreq
  rw [hword] at hsaid
  exact .of_done hx hpend ⟨hempty, hfull, hsaid⟩

omit hreplies hfree in
theorem State.replyTo_ping {arg : Nat} (harg : arg < 2 ^ 24) : s.replyTo (1 * 2 ^ 24 + arg) = 0x81000000 + arg := by
  unfold State.replyTo
  rw [show (1 * 2 ^ 24 + arg) / 2 ^ 24 = 1 by omega, show (1 * 2 ^ 24 + arg) % 2 ^ 24 = arg by omega]
  exact rfl

omit hreplies hfree in
theorem State.replyTo_query {m : Nat} (hm : m < 2) :
    s.replyTo (2 * 2 ^ 24 + m) = 0x82000000 + m * 0x10000 + (s.module m).state := by
  unfold State.replyTo
  rw [show (2 * 2 ^ 24 + m) / 2 ^ 24 = 2 by omega, show (2 * 2 ^ 24 + m) % 2 ^ 24 = m by omega]
  dsimp only
  rw [if_pos hm, Nat.mod_eq_of_lt (show m < 256 by omega)]
  exact rfl

end

/-! ### Locks (R387) -/

section
variable {s : State} {m k : Nat} (hm : m < 10) (hk : k < 256) (huser : s.lockUser m = true)
include hm hk huser

theorem exec_lockAcquire_free (h : tget s.service.locks k = none) : exec (.lockAcquire m k) s =
    .next ({ s with service := { s.service with locks := tput s.service.locks k m } }.returns 0) := by
  have hx : exec (.lockAcquire m k) s = within (decide (m < 10) && decide (k < 256)) s (s.lockTake m k) := rfl
  unfold State.lockTake at hx
  rw [if_neg (not_not_intro huser), h] at hx
  exact hx.trans (within_eq (by simp [hm, hk]) rfl)

theorem exec_lockAcquire_held {o : Nat} (h : tget s.service.locks k = some o) :
    exec (.lockAcquire m k) s = .next (s.returns (BitVec.ofNat 64 (o + 1))) := by
  have hx : exec (.lockAcquire m k) s = within (decide (m < 10) && decide (k < 256)) s (s.lockTake m k) := rfl
  unfold State.lockTake at hx
  rw [if_neg (not_not_intro huser), h] at hx
  exact hx.trans (within_eq (by simp [hm, hk]) (s.returns_pending _))

theorem exec_lockRelease_owner (h : tget s.service.locks k = some m) : exec (.lockRelease m k) s =
    .next { s with service := { s.service with locks := tdel s.service.locks k } } := by
  have hx : exec (.lockRelease m k) s = within (decide (m < 10) && decide (k < 256)) s (s.lockFree m k) := rfl
  unfold State.lockFree at hx
  rw [if_neg (not_not_intro huser), if_pos h] at hx
  exact hx.trans (within_eq (by simp [hm, hk]) rfl)

theorem exec_lockRelease_other (h : tget s.service.locks k ≠ some m) : exec (.lockRelease m k) s =
    .next { s with service := { s.service with lockErr := satAdd 32 s.service.lockErr 1 } } := by
  have hx : exec (.lockRelease m k) s = within (decide (m < 10) && decide (k < 256)) s (s.lockFree m k) := rfl
  unfold State.lockFree at hx
  rw [if_neg (not_not_intro huser), if_neg h] at hx
  exact hx.trans (within_eq (by simp [hm, hk]) rfl)

end

end Sys2Proof.Machine

open Sys2Proof.Machine

/-- Settles O48. -/
theorem mailboxesHoldOneWordAndLocksOneOwner : Obligations.MailboxesHoldOneWordAndLocksOneOwner := by
  unfold Obligations.MailboxesHoldOneWordAndLocksOneOwner
  intro s
  refine ⟨fun n w now hn hreach => ⟨exec_mboxTxWrite_full hn hreach, completes_mboxTxWrite hn hreach, fun m => exec_mboxTxWrite_other hn,
      completes_mboxRecall hn hreach, exec_mboxRecall_miss hn hreach, fun m => exec_mboxRecall_other hn⟩,
    fun n hpos hn hreplies hreach => ⟨completes_mboxRxRead_full hn hpos hreach hreplies, completes_mboxRxRead_empty hn hpos hreach⟩,
    fun n m half hn => exec_mboxRxRead_other hn, fun n now hn => ⟨completes_crossFull hn, exec_crossFull_stays hn⟩,
    fun hreplies hfree => ⟨fun arg harg hreq => ?_, fun m hm _ hreq => ?_⟩,
    fun m k hm hk huser => ⟨exec_lockAcquire_free hm hk huser, fun o => exec_lockAcquire_held hm hk huser,
      exec_lockRelease_owner hm hk huser, exec_lockRelease_other hm hk huser⟩⟩
  · have h := completes_request hreplies hfree (c := .ping) (code := 1) rfl (by decide) harg hreq
    rwa [State.replyTo_ping harg] at h
  · have h := completes_request hreplies hfree (c := .queryOmod) (code := 2) rfl (by decide) (by omega) hreq
    rwa [State.replyTo_query hm] at h
end

section
/-! PROOF. A doorbell of an owner module's ring that finds an earlier one of its queue held after the controls of its function were
switched off (21_limits_perturbation.md R471, R472; 10_job_rings.md R232). -/

namespace Sys2Proof.Machine

/-- A running module 0 with its ring and the argument 3 in a0, whose function's perturbation controls are off again while a
doorbell of the ring is still held. -/
def moduleBehindHeld : State := { State.reset with
  service := { State.reset.service with
    modules := [(0, { state := 2, owner := true, ring := some 4096 })], cores := [(6, { x := [(10, 3)] })] },
  queues := [(4096, { mode := .enabled, fn := 0x101, sqLog2 := 4, cqLog2 := 4, isModule := some 0 })],
  fns := [(0x101, { fnDefault 0x101 with held := [{ queue := 4096, kind := 0, value := 1, due := 1000 }] })] }

/-- The new doorbell is held behind the earlier one: the tail stays where it was. -/
theorem doorbell_behindHeld_tail : (match exec (.doorbell 0) moduleBehindHeld with
    | .next t => (t.queue 4096).sqTail
    | _ => 3) = 0 := by
  rfl

end Sys2Proof.Machine

open Sys2Proof.Machine

/-- Refutes O49: the doorbell of the module in `moduleBehindHeld` waits behind a held one, so the tail of its queue does not move. -/
theorem not_ownerModulesLoadCallAndStop : ¬ Obligations.OwnerModulesLoadCallAndStop := by
  unfold Obligations.OwnerModulesLoadCallAndStop
  intro h
  obtain ⟨-, -, hcalls, -⟩ := h moduleBehindHeld 0 0 (by decide)
  obtain ⟨-, -, -, -, -, -, hbell, -⟩ := hcalls rfl rfl rfl
  obtain ⟨t, hx, -, hqueue, -⟩ := (hbell 4096 rfl rfl rfl).1 (by decide) (by decide)
  have htail := doorbell_behindHeld_tail
  rw [hx] at htail
  dsimp only at htail
  rw [hqueue] at htail
  exact absurd htail (by decide)
end

section
/-! PROOF. Meridian links: bring-up, refusals, flits and credits, and the obligation on them (17_meridian.md R390-R397, R411,
R412). -/

namespace Sys2Proof.Machine

/-! ### A block on the lanes (R390) -/

theorem evens_length {α : Type} (l : List α) : (evens l).length = (l.length + 1) / 2 := by
  induction l using evens.induct with
  | case1 => simp [evens]
  | case2 a => simp [evens]
  | case3 a b rest ih =>
    rw [evens, List.length_cons, ih, List.length_cons, List.length_cons]
    omega

theorem interleave_length {α : Type} (l m : List α) : (interleave l m).length = l.length + m.length := by
  induction l generalizing m with
  | nil => cases m <;> simp [interleave]
  | cons a as ih =>
    cases m with
    | nil => rfl
    | cons b bs =>
      rw [interleave, List.length_cons, List.length_cons, ih, List.length_cons, List.length_cons]
      omega

theorem rsGenerator_length : rsGenerator.length = 31 := by
  have hgrow (js : List Nat) (g : List Symbol) : (js.foldl (fun g j =>
      List.zipWith (· ^^^ ·) (g ++ [0#10]) (0#10 :: g.map (gfMul (gfAlpha j)))) g).length = g.length + js.length := by
    induction js generalizing g with
    | nil => rfl
    | cons j js ih =>
      rw [List.foldl_cons, ih, List.length_zipWith]
      simp only [List.length_append, List.length_cons, List.length_map, List.length_nil, Nat.zero_add, Nat.min_self]
      omega
  rw [rsGenerator, hgrow, List.length_range]
  rfl

theorem rsCodeword_length (data : List Symbol) : (rsCodeword data).length = data.length + 30 := by
  have hstep (ms reg : List Symbol) (h : reg.length = 30) : (ms.foldl rsStep reg).length = 30 := by
    induction ms generalizing reg with
    | nil => exact h
    | cons m ms ih =>
      refine ih _ ?_
      rw [rsStep, List.length_zipWith, List.length_append, List.length_drop, List.length_map, List.length_drop, rsGenerator_length, h]
      rfl
  rw [rsCodeword, List.length_append, hstep _ _ List.length_replicate]

theorem lineSymbols_length (n : BitVec 32) (fs : List Bytes) : (lineSymbols n fs).length = 1088 := by
  have hd : (blockSymbols (blockBytes n fs)).length = 1028 := by rw [blockSymbols, List.length_map, List.length_range]
  rw [lineSymbols, interleave_length, rsCodeword_length, rsCodeword_length, evens_length, evens_length, List.length_drop, hd]

theorem laneOf_length {α : Type} {i n : Nat} {l : List α} (hl : l.length = n) :
    (laneOf i l).length = ((List.range n).filter fun j => j % 4 == i).length := by
  have hfst : (List.zip (List.range n) l).map Prod.fst = List.range n := List.map_fst_zip (by rw [List.length_range, hl])
  rw [laneOf, hl, List.length_map]
  conv_rhs => rw [← hfst, List.filter_map, List.length_map]
  rfl

theorem lineBlock_lanes (n : BitVec 32) (fs : List Bytes) :
    (lineBlock n fs).length = 4 ∧ ∀ l ∈ lineBlock n fs, l.length = 272 := by
  have hlane : ∀ i ∈ List.range 4, ((List.range 1088).filter fun j => j % 4 == i).length = 272 := by decide +kernel
  refine ⟨by rw [lineBlock, List.length_map, List.length_range], fun l hl => ?_⟩
  obtain ⟨i, hi, rfl⟩ := List.mem_map.1 hl
  rw [laneOf_length (lineSymbols_length n fs)]
  exact hlane i hi

/-! ### What the traffic of a link leaves of it (R392, R393) -/

theorem Reports.link {s t : State} (h : Reports s t) (j : Nat) : t.link j = s.link j := (congrArg (fun u : State => u.link j) h.eq :)

/-- A link apart from its flits: its buffers, credits, sequence of flits sent, and what is on the line. -/
def Link.standing (L : Link) : Link := { L with
  sendSeq := 0, replay := [], credit0 := 0, credit1 := 0, queued := [], owed0 := 0, owed1 := 0, part0 := [], part1 := [], out := [],
  block := [], blocks := 0, lanes := [] }

/-- Only the flits of link `k` have changed. -/
structure OnLink (k : Nat) (s t : State) : Prop where
  rest : t = { s with cluster := { s.cluster with links := t.cluster.links } }
  other : ∀ j, j ≠ k → t.link j = s.link j
  kept : (t.link k).standing = (s.link k).standing

namespace OnLink
variable {k : Nat} {s t u : State}

theorem refl (k : Nat) (s : State) : OnLink k s s := ⟨rfl, fun _ _ => rfl, rfl⟩

theorem trans (hst : OnLink k s t) (htu : OnLink k t u) : OnLink k s u where
  rest := by rw [htu.rest, hst.rest]
  other j hj := (htu.other j hj).trans (hst.other j hj)
  kept := htu.kept.trans hst.kept

theorem pending (h : OnLink k s t) : t.pending = s.pending := (congrArg State.pending h.rest :)

/-- A fold of operations on a link. -/
theorem foldl {α : Type} {f : State → α → State} (hf : ∀ s a, OnLink k s (f s a)) (l : List α) (s : State) : OnLink k s (l.foldl f s) := by
  induction l generalizing s with
  | nil => exact .refl k s
  | cons a l ih => exact (hf s a).trans (ih _)

end OnLink

theorem State.modLink_onLink (s : State) (k : Nat) {f : Link → Link} (hf : ∀ L, (f L).standing = L.standing) : OnLink k s (s.modLink k f) where
  rest := rfl
  other j hj := by rw [State.modLink_link, if_neg hj]
  kept := by rw [State.modLink_link_same, hf]

theorem OnLink.after {s t : State} {k : Nat} {f : Link → Link} (h : OnLink k (s.modLink k f) t) (hf : ∀ L, (f L).standing = L.standing) :
    OnLink k s t := (s.modLink_onLink k hf).trans h

theorem Link.transmit_standing (L : Link) (f : Bytes) : (L.transmit f).standing = L.standing := by
  unfold Link.transmit
  dsimp only
  split <;> rfl

theorem State.sendFlit_onLink (s : State) (k ftype flags : Nat) (payload : Bytes) : OnLink k s (s.sendFlit k ftype flags payload) :=
  s.modLink_onLink k fun L => L.transmit_standing _

theorem State.pumpOne_onLink (k : Nat) (s : State) (q : Bytes) : OnLink k s (s.pumpOne k q) := by
  unfold State.pumpOne
  dsimp only
  by_cases hnone : (if bitOf (leAt q 0 1) 0 then (s.link k).credit1 else (s.link k).credit0) = 0
  · rw [if_pos hnone]
    exact s.modLink_onLink k fun _ => rfl
  · rw [if_neg hnone]
    refine OnLink.after (State.sendFlit_onLink _ _ _ _ _) fun L => ?_
    split <;> rfl

theorem State.pump_onLink (s : State) (k : Nat) : OnLink k s (s.pump k) := by
  unfold State.pump
  split
  · exact OnLink.after (OnLink.foldl (State.pumpOne_onLink k) _ _) fun _ => rfl
  · exact .refl k s

theorem State.creditFlits_onLink (s : State) (k n : Nat) : OnLink k s (s.creditFlits k n) := by
  induction n generalizing s with
  | zero => exact .refl k s
  | succ n ih =>
    rw [State.creditFlits]
    split
    · exact .refl k s
    · exact (s.sendFlit_onLink k 0 0 []).trans (ih _)

theorem State.resendAll_onLink (s : State) (k : Nat) : OnLink k s (s.resendAll k) := by
  have hfold (fs : List Bytes) (L : Link) : (fs.foldl Link.transmit L).standing = L.standing := by
    induction fs generalizing L with
    | nil => rfl
    | cons f fs ih => exact (ih _).trans (L.transmit_standing f)
  exact s.modLink_onLink k fun L => hfold _ L

/-- A message flit that does not end its message joins its VC's part. -/
theorem State.msgFlit_onLink (s : State) (k : Nat) {f : Bytes} (hmore : bitOf (leAt f 7 1) 2 = false) : OnLink k s (s.msgFlit k f) := by
  unfold State.msgFlit
  dsimp only
  rw [if_neg (Bool.eq_false_iff.1 hmore)]
  refine s.modLink_onLink k fun L => ?_
  split <;> rfl

/-! ### A link goes down, or an attempt fails (R394, R411) -/

/-- Link `L` after it has gone down at time `at_`. -/
def Link.downed (L : Link) (reason at_ : Nat) : Link := { L with
  mode := .down, reason := reason, downAt := at_, keyInOld := [], ivInOld := [], ctrInOld := 0, keyIn := [], keyOut := [], ivIn := [],
  ivOut := [], ctrOut := 1, ctrIn := 0, replay := [], queued := [], part0 := [], part1 := [], credit0 := 128, credit1 := 128, owed0 := 0,
  owed1 := 0, sendSeq := 0, recvSeq := 0 }

theorem State.linkDown_reports (s : State) (k reason : Nat) :
    Reports (s.modLink k fun L => L.downed reason s.time.elapsed) (s.linkDown k reason) := by
  unfold State.linkDown
  dsimp only
  split
  · exact State.logEvent_reports _ _ _ _
  · rfl

/-- An attempt that has failed: the third in a row takes the link down. -/
theorem State.attemptFails_spec (s : State) (k reason : Nat) :
    (s.attemptFails k reason).link k = (if 2 ≤ (s.link k).fails then
        { ({ s.link k with reason := reason, fails := (s.link k).fails + 1 } : Link).downed reason s.time.elapsed with fails := 0 }
      else { s.link k with reason := reason, fails := (s.link k).fails + 1 }) ∧
    (s.attemptFails k reason).faults = s.faults ∧ (s.attemptFails k reason).pending = s.pending := by
  unfold State.attemptFails
  dsimp only
  rw [State.modLink_link_same]
  dsimp only
  by_cases h : 2 ≤ (s.link k).fails
  · have hdown := (s.modLink k fun L => { L with reason := reason, fails := L.fails + 1 }).linkDown_reports k reason
    rw [if_pos (show 3 ≤ (s.link k).fails + 1 by omega), if_pos h]
    refine ⟨?_, (congrArg State.faults hdown.eq :), hdown.pending⟩
    rw [State.modLink_link_same, hdown.link, State.modLink_link_same, State.modLink_link_same]
    rfl
  · rw [if_neg (show ¬ 3 ≤ (s.link k).fails + 1 by omega), if_neg h]
    exact ⟨State.modLink_link_same _ _ _, rfl, rfl⟩

/-- A record of the class log changes its source alone, whatever it carries. -/
theorem State.event_logged {s : State} {src sub : Nat} (aux : Nat) (hd : dispOf s src sub none = some .log)
    (hr : resetOnlyCause src sub = false) : s.event src sub aux = { s with faults := { s.faults with sources := (s.event src sub aux).faults.sources } } := by
  have heq : s.event src sub aux = s.noted src sub aux true false false none := State.handle_of_log (by rfl) (by rw [hd]; rfl)
  conv_lhs => rw [heq, State.noted_eq_or, hr]
  rw [heq, Bool.and_false, Bool.or_false]

/-! ### Bring-up and retrain (R392-R394) -/

/-- Link `k` begins its bring-up: the fences of its sources end. -/
def State.linkBegun (s : State) (k : Nat) : State := eachOf ((List.range 7).map (256 + 8 * k + ·)) State.leaveFence
  (s.modLink k fun L => { L with enable := true, mode := .training, fails := 0 })

theorem State.linkBegun_spec (s : State) (k : Nat) :
    (s.linkBegun k).link k = { s.link k with enable := true, mode := .training, fails := 0 } ∧
    (∀ j, j ≠ k → (s.linkBegun k).link j = s.link j) ∧ (s.linkBegun k).pending = s.pending := by
  have hfreed {α : Type} (p : State → α) (hp : ∀ u F, p { u with faults := F } = p u) (ns : List Nat) (u : State) :
      p (eachOf ns State.leaveFence u) = p u :=
    eachOf_keeps p _ State.leaveFence (fun u n => by rw [State.leaveFence_eq]; exact hp u _) _
  refine ⟨?_, fun j hj => ?_, ?_⟩
  · exact (hfreed (·.link k) (fun _ _ => rfl) _ _).trans (State.modLink_link_same _ _ _)
  · exact (hfreed (·.link j) (fun _ _ => rfl) _ _).trans ((State.modLink_link _ _ _ _).trans (if_neg hj))
  · exact hfreed State.pending (fun _ _ => rfl) _ _

section
variable {s : State} {k : Nat} {v : BitVec 32} (hlink : s.hasLink k = true)
include hlink

/-- Setting ENABLE begins bring-up, whatever RETRAIN says. -/
theorem State.writeLinkCtrl_on (hv : v.getLsbD 0 = true) (hoff : (s.link k).enable = false) : s.writeLinkCtrl k v = s.linkBegun k := by
  unfold State.writeLinkCtrl
  rw [if_neg (not_not_intro hlink)]
  dsimp only
  rw [if_pos (show v.getLsbD 0 = true ∧ ¬ (s.link k).enable = true from ⟨hv, Bool.eq_false_iff.1 hoff⟩)]
  change (if v.getLsbD 1 then (s.linkBegun k).retrain k else s.linkBegun k) = _
  split
  · rw [State.retrain, (s.linkBegun_spec k).1, if_neg fun h => h.2 rfl]
  · rfl

theorem State.writeLinkCtrl_off (hv : v.getLsbD 0 = false) (hv1 : v.getLsbD 1 = false) (hon : (s.link k).enable = true) :
    s.writeLinkCtrl k v = (s.linkDown k (s.link k).reason).modLink k fun L => { L with enable := false } := by
  unfold State.writeLinkCtrl
  rw [if_neg (not_not_intro hlink)]
  dsimp only
  rw [if_neg (Bool.eq_false_iff.1 hv1),
    if_neg (show ¬ (v.getLsbD 0 = true ∧ ¬ (s.link k).enable = true) from fun h => Bool.eq_false_iff.1 hv h.1),
    if_pos (show ¬ v.getLsbD 0 = true ∧ (s.link k).enable = true from ⟨Bool.eq_false_iff.1 hv, hon⟩)]

end

theorem State.retrain_kept (s : State) (k : Nat) : (s.retrain k).faults = s.faults ∧ (s.retrain k).pending = s.pending := by
  unfold State.retrain
  split <;> exact ⟨rfl, rfl⟩

section
variable {s : State} {k now : Nat} (hk : k < portsOf s.variant) (h4 : k < 4)

include h4 in
/-- A command on a link of the package, whose effect keeps the queue of commands. -/
theorem completes_link {c : Instr} {t : State} {P : State → Prop} (hx : exec c s = within (decide (k < 4)) s t) (hpend : t.pending = s.pending)
    (hP : P t) : Completes c s P := .of_done (hx.trans (within_ok (decide_eq_true h4))) hpend hP

include h4 in
theorem exec_link {c : Instr} {t : State} (hx : exec c s = within (decide (k < 4)) s t) (hpend : t.pending = s.pending) : exec c s = .next t :=
  hx.trans (within_eq (decide_eq_true h4) hpend)

include hk in
theorem hasLink_at : (s.at_ now).hasLink k = true := decide_eq_true hk

include hk h4

section
variable (hbar : s.barOn 0 = true) {v : BitVec 32}
include hbar

theorem completes_linkEnable (hv : v.getLsbD 0 = true) (hoff : (s.link k).enable = false) : Completes (.linkEnable k v now) s fun t =>
    (t.link k).enable = true ∧ (t.link k).mode = .training ∧ (t.link k).fails = 0 ∧ ∀ j, j ≠ k → t.link j = s.link j := by
  have hx : exec (.linkEnable k v now) s = within (decide (k < 4)) s (managed (s.at_ now) ((s.at_ now).writeLinkCtrl k v)) := rfl
  obtain ⟨hself, hother, hpend⟩ := (s.at_ now).linkBegun_spec k
  rw [managed_on (show (s.at_ now).barOn 0 = true from hbar), State.writeLinkCtrl_on (hasLink_at hk) hv hoff] at hx
  refine completes_link h4 hx hpend ?_
  rw [hself]
  exact ⟨rfl, rfl, rfl, hother⟩

theorem completes_linkDisable (hv : v.getLsbD 0 = false) (hv1 : v.getLsbD 1 = false) (hon : (s.link k).enable = true) :
    Completes (.linkEnable k v now) s fun t =>
      (t.link k).enable = false ∧ (t.link k).mode = .down ∧ (t.link k).keyIn = [] ∧ (t.link k).keyOut = [] ∧ (t.link k).replay = [] ∧
      ∀ j, j ≠ k → t.link j = s.link j := by
  have hx : exec (.linkEnable k v now) s = within (decide (k < 4)) s (managed (s.at_ now) ((s.at_ now).writeLinkCtrl k v)) := rfl
  rw [managed_on (show (s.at_ now).barOn 0 = true from hbar), State.writeLinkCtrl_off (hasLink_at hk) hv hv1 hon] at hx
  have hdown := (s.at_ now).linkDown_reports k ((s.at_ now).link k).reason
  refine completes_link h4 hx hdown.pending ?_
  rw [State.modLink_link_same, hdown.link, State.modLink_link_same]
  refine ⟨rfl, rfl, rfl, rfl, rfl, fun j hj => ?_⟩
  rw [State.modLink_link, if_neg hj, hdown.link, State.modLink_link, if_neg hj]
  rfl

end

theorem exec_linkRetrain_enabled (hon : (s.link k).enable = true) (hmode : (s.link k).mode ≠ .training) :
    exec (.linkRetrain k now) s = .next (((s.at_ now).modLink k fun L => { L with mode := .training }).linkErr k 3) := by
  have hx : exec (.linkRetrain k now) s = execLinkRetrain k now s := rfl
  unfold execLinkRetrain State.retrain at hx
  rw [if_pos (show s.hasLink k = true from decide_eq_true hk), if_pos (show ((s.at_ now).link k).enable = true ∧
    ((s.at_ now).link k).mode ≠ .training from ⟨hon, hmode⟩)] at hx
  exact exec_link h4 hx rfl

theorem exec_linkRetrain_none (h : (s.link k).enable = false ∨ (s.link k).mode = .training) :
    exec (.linkRetrain k now) s = .next (s.at_ now) := by
  have hx : exec (.linkRetrain k now) s = execLinkRetrain k now s := rfl
  unfold execLinkRetrain State.retrain at hx
  rw [if_pos (show s.hasLink k = true from decide_eq_true hk), if_neg (fun hc : ((s.at_ now).link k).enable = true ∧
    ((s.at_ now).link k).mode ≠ .training => h.elim (fun h' => Bool.eq_false_iff.1 h' hc.1) hc.2)] at hx
  exact exec_link h4 hx rfl

theorem exec_linkRetry_due (hon : (s.link k).enable = true) (hmode : (s.link k).mode = .down)
    (hdue : (s.link k).downAt + 10 ^ 10 ≤ (s.at_ now).time.elapsed) :
    exec (.linkRetry k now) s = .next ((s.at_ now).modLink k fun L => { L with mode := .training }) := by
  have hx : exec (.linkRetry k now) s = execLinkRetry k now s := rfl
  unfold execLinkRetry at hx
  dsimp only at hx
  rw [if_pos ⟨hasLink_at hk, hon, hmode, hdue⟩] at hx
  exact exec_link h4 hx rfl

omit hk in
theorem exec_linkRetry_early (h : (s.link k).enable = false ∨ (s.link k).mode ≠ .down ∨
    (s.at_ now).time.elapsed < (s.link k).downAt + 10 ^ 10) : exec (.linkRetry k now) s = .next (s.at_ now) := by
  have hx : exec (.linkRetry k now) s = execLinkRetry k now s := rfl
  unfold execLinkRetry at hx
  dsimp only at hx
  rw [if_neg] at hx
  · exact exec_link h4 hx rfl
  · rintro ⟨-, hon, hmode, hdue⟩
    rcases h with h | h | h
    · exact Bool.eq_false_iff.1 h hon
    · exact h hmode
    · exact Nat.not_le.2 h hdue

theorem completes_creditTimeout (hruns : (s.link k).runs = true)
    (hwait : ((s.link k).queued.any fun q => (if bitOf (leAt q 0 1) 0 then (s.link k).credit1 else (s.link k).credit0) == 0) = true) :
    Completes (.creditTimeout k now) s fun t => (t.src (259 + 8 * k)).total = satAdd 32 (s.src (259 + 8 * k)).total 1 := by
  have hx : exec (.creditTimeout k now) s = execCreditTimeout k now s := rfl
  unfold execCreditTimeout at hx
  dsimp only at hx
  rw [if_pos ⟨hasLink_at hk, hruns, hwait⟩] at hx
  obtain ⟨hfaults, hpend⟩ := ((s.at_ now).event (259 + 8 * k) 0x31 k).retrain_kept k
  refine completes_link h4 hx (hpend.trans (congrArg State.pending ((s.at_ now).event_apart (259 + 8 * k) 0x31 k none) :)) ?_
  rw [State.src, hfaults, ← State.src, State.event_total]
  rfl

omit hk in
theorem exec_creditTimeout_idle (hidle : (s.link k).queued = []) : exec (.creditTimeout k now) s = .next (s.at_ now) := by
  have hx : exec (.creditTimeout k now) s = execCreditTimeout k now s := rfl
  unfold execCreditTimeout at hx
  dsimp only at hx
  rw [show (s.at_ now).link k = s.link k from rfl, hidle, if_neg (fun h => Bool.false_ne_true h.2.2)] at hx
  exact exec_link h4 hx rfl

omit hk in
theorem exec_rekey_due (hmode : (s.link k).mode = .up)
    (hdue : 2 ^ 31 ≤ (s.link k).ctrOut ∨ 2 ^ 31 ≤ (s.link k).ctrIn ∨ (s.link k).upAt + 82800 * 10 ^ 9 ≤ (s.at_ now).time.elapsed) :
    exec (.meridianLinkRekey k now) s = .next ((s.at_ now).modLink k fun L => { L with mode := .handshake }) := by
  have hx : exec (.meridianLinkRekey k now) s = execMeridianLinkRekey k now s := rfl
  unfold execMeridianLinkRekey at hx
  dsimp only at hx
  rw [show (s.at_ now).link k = s.link k from rfl, if_pos] at hx
  · exact exec_link h4 hx rfl
  · refine ⟨hmode, ?_⟩
    rcases hdue with h | h | h
    · exact .inl (h.trans (le_max_left _ _))
    · exact .inl (h.trans (le_max_right _ _))
    · exact .inr h

omit hk in
theorem exec_rekey_notUp (hmode : (s.link k).mode ≠ .up) : exec (.meridianLinkRekey k now) s = .next (s.at_ now) := by
  have hx : exec (.meridianLinkRekey k now) s = execMeridianLinkRekey k now s := rfl
  unfold execMeridianLinkRekey at hx
  dsimp only at hx
  rw [if_neg (fun h => hmode h.1)] at hx
  exact exec_link h4 hx rfl

/-! ### The handshake (R395, R397) -/

section
variable {p : PeerHello} (hmode : (s.link k).mode = .training)
include hmode

theorem completes_linkUp_refused {r : Nat} (hr : s.peerRefused p = some r) : Completes (.linkUp k p now) s fun t =>
    (t.src (260 + 8 * k)).total = satAdd 32 (s.src (260 + 8 * k)).total 1 ∧ (t.link k).reason = r ∧
    ((s.link k).fails < 2 → (t.link k).mode = .training ∧ (t.link k).fails = (s.link k).fails + 1 ∧ (t.link k).keyIn = (s.link k).keyIn) ∧
    (2 ≤ (s.link k).fails → (t.link k).mode = .down ∧ (t.link k).fails = 0 ∧ (t.link k).keyIn = []) := by
  have hx : exec (.linkUp k p now) s = execLinkUp k p now s := rfl
  unfold execLinkUp at hx
  dsimp only at hx
  rw [hasLink_at hk, if_neg (by rw [show (s.at_ now).link k = s.link k from rfl, hmode]; simp),
    show (s.at_ now).peerRefused p = some r from hr] at hx
  dsimp only at hx
  have hdisp : dispOf (s.at_ now) (260 + 8 * k) 0x31 none = some .log := by
    unfold dispOf
    dsimp only
    rw [if_pos (show 256 ≤ 260 + 8 * k ∧ 260 + 8 * k ≤ 287 by omega), show (260 + 8 * k) % 8 = 4 by omega]
    rfl
  have hevent := State.event_logged (s := s.at_ now) k hdisp (by simp [resetOnlyCause])
  have hlink : ((s.at_ now).event (260 + 8 * k) 0x31 k).link k = s.link k := (congrArg (fun u : State => u.link k) hevent :)
  obtain ⟨hself, hfaults, hpend⟩ := ((s.at_ now).event (260 + 8 * k) 0x31 k).attemptFails_spec k r
  rw [hlink] at hself
  refine completes_link h4 hx (hpend.trans (congrArg State.pending hevent :)) ⟨?_, ?_, fun hfew => ?_, fun hthird => ?_⟩
  · rw [State.src, hfaults, ← State.src, State.event_total]
    rfl
  · rw [hself]
    split <;> rfl
  · rw [hself, if_neg (Nat.not_le.2 hfew)]
    exact ⟨hmode, rfl, rfl⟩
  · rw [hself, if_pos hthird]
    exact ⟨rfl, rfl, rfl⟩

/-- Link `L` under the hop keys of a handshake with the peer of entry `e`. -/
def Link.raised (L : Link) (e : RosterEntry) (initiator : Bool) (okm : Bytes) (at_ : Nat) : Link := { L with
  mode := .up, peer := e.node, peerDev := e.digest, fails := 0, upAt := at_,
  keyInOld := L.keyIn, ivInOld := L.ivIn, ctrInOld := L.ctrIn, ctrOut := 1, ctrIn := 0,
  keyIn := if initiator then sliceOf okm 32 32 else okm.take 32, keyOut := if initiator then okm.take 32 else sliceOf okm 32 32,
  ivIn := if initiator then sliceOf okm 76 12 else sliceOf okm 64 12, ivOut := if initiator then sliceOf okm 64 12 else sliceOf okm 76 12 }

omit hk h4 hmode in
/-- A link that goes up under new keys; besides its flits and what is logged nothing else changes. -/
theorem State.linkGoesUp_spec (s : State) (k : Nat) (e : RosterEntry) (initiator : Bool) (okm : Bytes) :
    ((s.linkGoesUp k e initiator okm).link k).standing = ((s.link k).raised e initiator okm s.time.elapsed).standing ∧
    (∀ j, j ≠ k → (s.linkGoesUp k e initiator okm).link j = s.link j) ∧ (s.linkGoesUp k e initiator okm).cluster.member = true ∧
    (s.linkGoesUp k e initiator okm).cluster.roster = s.cluster.roster ∧ (s.linkGoesUp k e initiator okm).draws = s.draws ∧
    (s.linkGoesUp k e initiator okm).pending = s.pending := by
  let raised := s.modLink k fun L => L.raised e initiator okm s.time.elapsed
  have hself : raised.link k = (s.link k).raised e initiator okm s.time.elapsed := State.modLink_link_same _ _ _
  have hother (j : Nat) (hj : j ≠ k) : raised.link j = s.link j := (State.modLink_link _ _ _ _).trans (if_neg hj)
  have hsent : OnLink k raised (if (s.link k).mode == .training then (raised.modLink k fun L => { L with
      credit0 := 128 - L.unacked 0, credit1 := 128 - L.unacked 1, owed0 := 0, owed1 := 0 }).resendAll k else raised) := by
    split
    · exact OnLink.after (State.resendAll_onLink _ k) fun _ => rfl
    · exact .refl k raised
  unfold State.linkGoesUp
  dsimp only
  change (State.link (State.pump _ k) k).standing = _ ∧ _
  generalize hsentEq : (if (s.link k).mode == .training then (raised.modLink k fun L => { L with
      credit0 := 128 - L.unacked 0, credit1 := 128 - L.unacked 1, owed0 := 0, owed1 := 0 }).resendAll k else raised) = sent at hsent
  have hjoined : Reports { sent with cluster := { sent.cluster with member := true } } (if (s.link k).keyIn.isEmpty then
      State.logEvent { sent with cluster := { sent.cluster with member := true } } 7 0x0070 ([1#8] ++ le 2 e.node)
      else { sent with cluster := { sent.cluster with member := true } }) := by
    split
    · exact State.logEvent_reports _ _ _ _
    · rfl
  generalize hjoinedEq : (if (s.link k).keyIn.isEmpty then
      State.logEvent { sent with cluster := { sent.cluster with member := true } } 7 0x0070 ([1#8] ++ le 2 e.node)
      else { sent with cluster := { sent.cluster with member := true } }) = joined at hjoined
  have hpumped := joined.pump_onLink k
  have hgoal : ((joined.pump k).link k).standing = ((s.link k).raised e initiator okm s.time.elapsed).standing ∧
      (∀ j, j ≠ k → (joined.pump k).link j = s.link j) ∧ (joined.pump k).cluster.member = true ∧
      (joined.pump k).cluster.roster = s.cluster.roster ∧ (joined.pump k).draws = s.draws ∧ (joined.pump k).pending = s.pending := by
    refine ⟨?_, fun j hj => ?_, ?_, ?_, ?_, ?_⟩
    · exact hpumped.kept.trans ((congrArg Link.standing (hjoined.link k)).trans (hsent.kept.trans (congrArg Link.standing hself)))
    · exact (hpumped.other j hj).trans ((hjoined.link j).trans ((hsent.other j hj).trans (hother j hj)))
    · exact (congrArg (fun u : State => u.cluster.member) hpumped.rest :).trans (congrArg (fun u : State => u.cluster.member) hjoined.eq :)
    · exact (congrArg (fun u : State => u.cluster.roster) hpumped.rest :).trans
        ((congrArg (fun u : State => u.cluster.roster) hjoined.eq :).trans (congrArg (fun u : State => u.cluster.roster) hsent.rest :))
    · exact (congrArg State.draws hpumped.rest :).trans (hjoined.draws.trans (congrArg State.draws hsent.rest :))
    · exact hpumped.pending.trans (hjoined.pending.trans hsent.pending)
  rw [← hjoinedEq, ← hsentEq] at hgoal
  exact hgoal


theorem completes_linkUp {R : Roster} {e : RosterEntry} {okm : Bytes} (hr : s.peerRefused p = none) (hR : s.cluster.roster = some R)
    (he : R.byDigest (peerDigest p.chain) = some e) (hkeys : s.hopKeys p (decide (s.cluster.node < e.node)) = some okm)
    (hversion : p.rosterVersion ≤ R.version) : Completes (.linkUp k p now) s fun t => let M := t.link k
      M.mode = .up ∧ M.peer = e.node ∧ M.ctrOut = 1 ∧ M.ctrIn = 0 ∧ M.upAt = (s.at_ now).time.elapsed ∧ t.cluster.member = true ∧
      (s.cluster.node < e.node → M.keyOut = okm.take 32 ∧ M.keyIn = sliceOf okm 32 32 ∧ t.draws = s.draws + 160) ∧
      (e.node ≤ s.cluster.node → M.keyIn = okm.take 32 ∧ M.keyOut = sliceOf okm 32 32 ∧ t.draws = s.draws + 128) ∧
      ∀ j, j ≠ k → t.link j = s.link j := by
  have hx : exec (.linkUp k p now) s = execLinkUp k p now s := rfl
  unfold execLinkUp at hx
  dsimp only at hx
  rw [hasLink_at hk, if_neg (by rw [show (s.at_ now).link k = s.link k from rfl, hmode]; simp),
    show (s.at_ now).peerRefused p = none from hr] at hx
  dsimp only at hx
  rw [show (s.at_ now).cluster = s.cluster from rfl, hR, Option.bind_some, he] at hx
  dsimp only at hx
  rw [show (s.at_ now).hopKeys p (decide (s.cluster.node < e.node)) = some okm from hkeys, Option.getD_some] at hx
  generalize hini : decide (s.cluster.node < e.node) = ini at hx
  obtain ⟨hself, hother, hmember, hroster, hdraws, hpend⟩ :=
    ((s.at_ now).drawn (if ini then 160 else 128)).linkGoesUp_spec k e ini okm
  generalize ((s.at_ now).drawn (if ini then 160 else 128)).linkGoesUp k e ini okm = t at hx hself hother hmember hroster hdraws hpend
  have hsame : ¬ (t.cluster.roster.map (·.version)).getD 0 < p.rosterVersion := by
    rw [hroster, show ((s.at_ now).drawn (if ini then 160 else 128)).cluster.roster = some R from hR]
    exact Nat.not_lt.2 hversion
  rw [if_neg hsame] at hx
  refine completes_link h4 hx hpend ⟨(congrArg Link.mode hself :), (congrArg Link.peer hself :), (congrArg Link.ctrOut hself :),
    (congrArg Link.ctrIn hself :), (congrArg Link.upAt hself :), hmember, fun hlt => ?_, fun hge => ?_, fun j hj => hother j hj⟩
  · have hi : ini = true := by rw [← hini, decide_eq_true hlt]
    rw [hi] at hself hdraws
    exact ⟨(congrArg Link.keyOut hself :), (congrArg Link.keyIn hself :), hdraws⟩
  · have hi : ini = false := by rw [← hini, decide_eq_false (Nat.not_lt.2 hge)]
    rw [hi] at hself hdraws
    exact ⟨(congrArg Link.keyIn hself :), (congrArg Link.keyOut hself :), hdraws⟩

end

/-! ### Flits received (R392, R393) -/

section
variable {f : List Byte}

omit hk in
theorem exec_flitReceived_stopped (hruns : (s.link k).runs = false) (fec : Option Nat) : exec (.flitReceived k f fec now) s = .next (s.at_ now) := by
  have hx : exec (.flitReceived k f fec now) s = execFlitReceived k f fec now s := rfl
  unfold execFlitReceived at hx
  dsimp only at hx
  rw [if_pos (Or.inr (Bool.eq_false_iff.1 (show ((s.at_ now).link k).runs = false from hruns)))] at hx
  exact exec_link h4 hx rfl

variable (hruns : (s.link k).runs = true)
include hruns

theorem exec_flitReceived_badCrc (hbad : f.length ≠ 256 ∨ leAt f 252 4 ≠ (crc32 (f.take 252)).toNat) (c : Nat) :
    exec (.flitReceived k f (some c) now) s = .next (((s.at_ now).corrected k c).sendNak k) := by
  have hx : exec (.flitReceived k f (some c) now) s = execFlitReceived k f (some c) now s := rfl
  unfold execFlitReceived at hx
  dsimp only at hx
  rw [hasLink_at hk, show (s.at_ now).link k = s.link k from rfl, hruns, if_neg (by simp), if_pos hbad] at hx
  refine exec_link h4 hx ?_
  have hsent := (((s.at_ now).corrected k c).linkErr k 2).sendFlit_onLink k 2 0 [1#8]
  refine hsent.pending.trans ?_
  unfold State.corrected
  split <;> rfl

section
variable (hlen : f.length = 256) (hcrc : leAt f 252 4 = (crc32 (f.take 252)).toNat)
include hlen hcrc

omit h4 in
/-- A flit without an error takes its effect. -/
theorem flitReceived_good : exec (.flitReceived k f (some 0) now) s = within (decide (k < 4)) s ((s.at_ now).goodFlit k f) := by
  have hx : exec (.flitReceived k f (some 0) now) s = execFlitReceived k f (some 0) now s := rfl
  unfold execFlitReceived at hx
  dsimp only at hx
  rw [hasLink_at hk, show (s.at_ now).link k = s.link k from rfl, hruns, if_neg (by simp),
    if_neg (fun h => h.elim (fun h' => h' hlen) fun h' => h' hcrc), State.corrected, if_pos rfl] at hx
  exact hx

theorem completes_idleFlit (hidle : leAt f 0 1 = 0) (hqueued : (s.link k).queued = []) :
    Completes (.flitReceived k f (some 0) now) s fun t => let M := t.link k
      M.replay = ((s.link k).replay.filter fun r => !ackCovers (leAt f 4 2) r.1) ∧ M.recvSeq = (s.link k).recvSeq ∧
      M.credit0 = min 128 ((s.link k).credit0 + leAt f 6 1 % 16) ∧ M.credit1 = min 128 ((s.link k).credit1 + leAt f 6 1 / 16) := by
  have hx := flitReceived_good hk hruns hlen hcrc (now := now)
  unfold State.goodFlit at hx
  dsimp only at hx
  rw [if_pos hidle] at hx
  have hreturned : ((s.at_ now).modLink k fun L => L.returns f).link k = (s.link k).returns f := State.modLink_link_same _ _ _
  have hpump : ((s.at_ now).modLink k fun L => L.returns f).pump k =
      ((s.at_ now).modLink k fun L => L.returns f).modLink k fun L => { L with queued := [] } := by
    unfold State.pump
    rw [hreturned, if_pos (show ((s.link k).returns f).runs = true from hruns), show ((s.link k).returns f).queued = [] from hqueued]
    rfl
  rw [hpump] at hx
  refine completes_link h4 hx rfl ?_
  rw [State.modLink_link_same, hreturned]
  exact ⟨rfl, rfl, rfl, rfl⟩

theorem exec_flitReceived_outOfSequence (hty : leAt f 0 1 ≠ 0) (hseq : leAt f 2 2 ≠ (s.link k).recvSeq) :
    exec (.flitReceived k f (some 0) now) s = .next (s.at_ now) := by
  have hx := flitReceived_good hk hruns hlen hcrc (now := now)
  unfold State.goodFlit at hx
  dsimp only at hx
  rw [show (s.at_ now).link k = s.link k from rfl, if_neg hty, if_pos hseq] at hx
  exact exec_link h4 hx rfl

theorem completes_messageFlit (hty : leAt f 0 1 = 1) (hseq : leAt f 2 2 = (s.link k).recvSeq) (hmore : bitOf (leAt f 7 1) 2 = false) :
    Completes (.flitReceived k f (some 0) now) s fun t =>
      (t.link k).recvSeq = ((s.link k).recvSeq + 1) % 65536 ∧ (t.link k).mode = (s.link k).mode ∧ ∀ j, j ≠ k → t.link j = s.link j := by
  have hx := flitReceived_good hk hruns hlen hcrc (now := now)
  unfold State.goodFlit at hx
  dsimp only at hx
  rw [show (s.at_ now).link k = s.link k from rfl, if_neg (by rw [hty]; decide), if_neg (not_not_intro hseq), if_pos hty] at hx
  have hself := State.modLink_link_same (s.at_ now) k fun L => { L.returns f with recvSeq := (L.recvSeq + 1) % 65536 }
  have hother (j : Nat) (hj : j ≠ k) : ((s.at_ now).modLink k fun L =>
      { L.returns f with recvSeq := (L.recvSeq + 1) % 65536 }).link j = s.link j := (State.modLink_link _ _ _ _).trans (if_neg hj)
  have hpend : ((s.at_ now).modLink k fun L => { L.returns f with recvSeq := (L.recvSeq + 1) % 65536 }).pending = s.pending := rfl
  generalize ((s.at_ now).modLink k fun L => { L.returns f with recvSeq := (L.recvSeq + 1) % 65536 }) = took at hx hself hother hpend
  have hsent := ((took.msgFlit_onLink k hmore).trans (State.pump_onLink _ k)).trans (State.creditFlits_onLink _ k 20)
  generalize ((took.msgFlit k f).pump k).creditFlits k 20 = t at hx hsent
  have hkept := hsent.kept
  rw [hself] at hkept
  exact completes_link h4 hx (hsent.pending.trans hpend) ⟨(congrArg Link.recvSeq hkept :), (congrArg Link.mode hkept :),
    fun j hj => (hsent.other j hj).trans (hother j hj)⟩

end

end

end

end Sys2Proof.Machine

open Sys2Proof.Machine

/-- Settles O50. -/
theorem meridianLinksComeUpAndSealFlits : Obligations.MeridianLinksComeUpAndSealFlits := by
  unfold Obligations.MeridianLinksComeUpAndSealFlits
  intro s k now hk h4 u L
  refine ⟨fun hbar v => ⟨completes_linkEnable hk h4 hbar, completes_linkDisable hk h4 hbar⟩, exec_linkRetrain_enabled hk h4,
    exec_linkRetrain_none hk h4, exec_linkRetry_due hk h4, exec_linkRetry_early h4, fun n fs _ => lineBlock_lanes n fs,
    completes_creditTimeout hk h4, exec_creditTimeout_idle h4, exec_rekey_due h4, exec_rekey_notUp h4,
    fun p hmode => ⟨fun r => completes_linkUp_refused hk h4 hmode,
      fun R e okm hr hR he hkeys hversion _ => completes_linkUp hk h4 hmode hr hR he hkeys hversion⟩,
    fun f => ⟨exec_flitReceived_stopped h4, fun hruns => ⟨exec_flitReceived_badCrc hk h4 hruns, fun hlen hcrc =>
      ⟨completes_idleFlit hk h4 hruns hlen hcrc, exec_flitReceived_outOfSequence hk h4 hruns hlen hcrc,
        completes_messageFlit hk h4 hruns hlen hcrc⟩⟩⟩⟩
end

section
/-! PROOF. Messages of a cluster: marks, leases, delegated trees, cross-chaining, the roster and resent requests, and the
obligation on them (17_meridian.md R396-R406). -/

namespace Sys2Proof.Machine

/-! ### What sending a message leaves as it is (R395, R399) -/

/-- Only the traffic of the Meridian has changed: the flits and send counters of links, what waits for this node, and the count
of dropped messages. -/
structure Sent (s t : State) : Prop where
  rest : t = { s with regs := t.regs, cluster := { s.cluster with links := t.cluster.links, inbox := t.cluster.inbox } }
  links : ∀ j, (t.link j).keyOut = (s.link j).keyOut ∧ (t.link j).ctrIn = (s.link j).ctrIn

namespace Sent
variable {s t u : State}

theorem refl (s : State) : Sent s s := ⟨rfl, fun _ => ⟨rfl, rfl⟩⟩

theorem trans (hst : Sent s t) (htu : Sent t u) : Sent s u where
  rest := by rw [htu.rest, hst.rest]
  links j := ⟨(htu.links j).1.trans (hst.links j).1, (htu.links j).2.trans (hst.links j).2⟩

theorem pending (h : Sent s t) : t.pending = s.pending := (congrArg State.pending h.rest :)
theorem keys (h : Sent s t) : t.keys = s.keys := (congrArg State.keys h.rest :)
theorem draws (h : Sent s t) : t.draws = s.draws := (congrArg State.draws h.rest :)
theorem marks (h : Sent s t) : t.cluster.marks = s.cluster.marks := (congrArg (fun u : State => u.cluster.marks) h.rest :)
theorem caps (h : Sent s t) : t.cluster.caps = s.cluster.caps := (congrArg (fun u : State => u.cluster.caps) h.rest :)
theorem roster (h : Sent s t) : t.cluster.roster = s.cluster.roster := (congrArg (fun u : State => u.cluster.roster) h.rest :)
theorem rosterIn (h : Sent s t) : t.cluster.rosterIn = s.cluster.rosterIn := (congrArg (fun u : State => u.cluster.rosterIn) h.rest :)
theorem answers (h : Sent s t) : t.cluster.answers = s.cluster.answers := (congrArg (fun u : State => u.cluster.answers) h.rest :)
theorem proposals (h : Sent s t) : t.cluster.proposals = s.cluster.proposals := (congrArg (fun u : State => u.cluster.proposals) h.rest :)

/-- The flits of one link are traffic. -/
theorem of_onLink {k : Nat} (h : OnLink k s t) : Sent s t where
  rest := by
    have hrest := h.rest
    generalize t.cluster.links = links at hrest
    rw [hrest]
  links j := by
    rcases Decidable.em (j = k) with rfl | hj
    · exact ⟨(congrArg Link.keyOut h.kept :), (congrArg Link.ctrIn h.kept :)⟩
    · rw [h.other j hj]
      exact ⟨rfl, rfl⟩

end Sent

theorem State.bump_sent (s : State) (off : Nat) : Sent s (s.bump off) := ⟨rfl, fun _ => ⟨rfl, rfl⟩⟩

theorem State.modLink_sent (s : State) (k : Nat) {f : Link → Link} (hf : ∀ L, (f L).keyOut = L.keyOut ∧ (f L).ctrIn = L.ctrIn) :
    Sent s (s.modLink k f) where
  rest := rfl
  links j := by
    rw [State.modLink_link]
    split
    · next h => exact h ▸ hf _
    · exact ⟨rfl, rfl⟩

theorem Sent.after {s t : State} {k : Nat} {f : Link → Link} (h : Sent (s.modLink k f) t)
    (hf : ∀ L, (f L).keyOut = L.keyOut ∧ (f L).ctrIn = L.ctrIn) : Sent s t := (s.modLink_sent k hf).trans h

theorem State.postOn_sent (s : State) (k dst src type hops : Nat) (body : Bytes) : Sent s (s.postOn k dst src type hops body) := by
  unfold State.postOn
  dsimp only
  split
  · exact Sent.after (.of_onLink (State.pump_onLink _ k)) fun _ => ⟨rfl, rfl⟩
  · exact s.bump_sent _

theorem State.merSend_sent (s : State) (dst type : Nat) (body : Bytes) : Sent s (s.merSend dst type body) := by
  unfold State.merSend
  split
  · exact ⟨rfl, fun _ => ⟨rfl, rfl⟩⟩
  · split
    · exact s.postOn_sent _ _ _ _ _ _
    · exact s.bump_sent _

/-- A request goes out once its REQ_ID is drawn and it waits for its response. -/
theorem State.merAsk_sent (s : State) (dst type : Nat) (body tag : Bytes) (tried : List Nat) :
    ∃ rs, Sent { s with draws := s.draws + 8, cluster := { s.cluster with requests := rs } } (s.merAsk dst type body tag tried) :=
  ⟨_, State.merSend_sent _ _ _ _⟩

/-- An answer goes out and is kept for the request's repeats. -/
theorem State.merAnswer_sent (s : State) (src id type : Nat) (body : Bytes) :
    Sent { s with cluster := { s.cluster with answers := ((src, id, type, le 8 id ++ body) :: s.cluster.answers).take 65536 } }
      (s.merAnswer src id type body) := State.merSend_sent _ _ _ _

theorem State.merAnswer_head (s : State) (src id type : Nat) (body : Bytes) :
    (s.merAnswer src id type body).cluster.answers.head? = some (src, id, type, le 8 id ++ body) := by
  rw [(s.merAnswer_sent src id type body).answers]
  rfl

/-! ### Messages by type, and answers (R399, R400) -/

section
variable {s : State} {now ty : Nat} {f : State → Message → State}

/-- The device once message `m` is taken. -/
def State.taken (s : State) (now : Nat) (m : Message) : State :=
  { s.at_ now with cluster := { s.cluster with inbox := s.cluster.inbox.erase m } }

/-- The device once request `r` waits no more. -/
def State.replied (s : State) (r : MerReq) : State :=
  { s with cluster := { s.cluster with requests := s.cluster.requests.filter fun x => x.id != r.id } }

theorem merRow_none (h : s.cluster.inbox.find? (fun m => m.type == ty) = none) : merRow ty now f s = .next (s.at_ now) := by
  unfold merRow State.takeMessage
  dsimp only
  rw [show (s.at_ now).cluster = s.cluster from rfl, h]
  exact done_eq rfl

theorem merNext_taken {m : Message} {v : State} (h : MerNext s ty now m v) : v = s.taken now m := h.2

theorem merRow_next {m : Message} {v : State} (h : MerNext s ty now m v) : merRow ty now f s = done s (f (s.taken now m) m) := by
  unfold merRow State.takeMessage
  dsimp only
  rw [show (s.at_ now).cluster = s.cluster from rfl, h.1]
  rfl

theorem once_fresh {m : Message} {g : State → State} (h : MerFresh s m) : (s.taken now m).once m g = g (s.taken now m) := by
  unfold State.once
  rw [show (s.taken now m).cluster.answers.find? (fun a => a.1 == m.src && a.2.1 == m.req) = none from h]

theorem once_again {m : Message} {g : State → State} {a : Nat × Nat × Nat × Bytes}
    (h : s.cluster.answers.find? (fun a => a.1 == m.src && a.2.1 == m.req) = some a) :
    (s.taken now m).once m g = (s.taken now m).merSend m.src a.2.2.1 a.2.2.2 := by
  unfold State.once
  rw [show (s.taken now m).cluster.answers.find? (fun a => a.1 == m.src && a.2.1 == m.req) = some a from h]

theorem takeRequest_of {m : Message} {r : MerReq} (h : MerAnswers s m ty r) :
    (s.taken now m).takeRequest m ty = some (r, (s.taken now m).replied r) := by
  unfold State.takeRequest
  rw [show (s.taken now m).cluster.requests.find? (fun r => r.id == m.req && r.type == ty && r.dst == m.src) = some r from h]
  rfl

end

theorem exec_withoutMessage {s : State} {now : Nat} : ∀ row ∈ [(Instr.markPropose now, 0x01), (.markReply now, 0x02), (.leaseReq now, 0x03),
      (.leaseGrant now, 0x04), (.delegateReq now, 0x05), (.delegateGrant now, 0x06), (.cross now, 0x07), (.rosterGet now, 0x08),
      (.rosterData now, 0x09), (.tetherRd now, 0x10), (.tetherCpl now, 0x11), (.tetherWr now, 0x12), (.tetherReg now, 0x13),
      (.tetherRegCpl now, 0x14)],
    s.cluster.inbox.find? (fun m => m.type == row.2) = none → exec row.1 s = .next (s.at_ now) := by
  intro row hrow h
  simp only [List.mem_cons, List.not_mem_nil, or_false] at hrow
  rcases hrow with rfl | rfl | rfl | rfl | rfl | rfl | rfl | rfl | rfl | rfl | rfl | rfl | rfl | rfl <;> exact merRow_none h

/-! ### The roster (R396, R397) -/

/-- Links that go down keep the roster, and no other link carries messages then. -/
theorem linksDown_spec (reason : Nat) (l : List Nat) (s : State) : let t := eachOf l (fun u k => u.linkDown k reason) s
    t.cluster.roster = s.cluster.roster ∧ t.pending = s.pending ∧ ∀ j, (t.link j).carries = true → (s.link j).carries = true := by
  induction l generalizing s with
  | nil => exact ⟨rfl, rfl, fun _ h => h⟩
  | cons k l ih =>
    have hdown := s.linkDown_reports k reason
    obtain ⟨hroster, hpend, hcarries⟩ := ih (s.linkDown k reason)
    refine ⟨hroster.trans (congrArg (fun u : State => u.cluster.roster) hdown.eq :), hpend.trans hdown.pending, fun j hj => ?_⟩
    have hone := hcarries j hj
    rw [hdown.link, State.modLink_link] at hone
    split at hone
    · exact absurd hone (by simp [Link.carries, Link.downed])
    · exact hone

theorem State.installRoster_spec (s : State) (b : Bytes) :
    (∃ R, (s.installRoster b).cluster.roster = some R ∧ R.image = b ∧ R.version = leAt b 8 4) ∧
    (s.installRoster b).pending = s.pending ∧ ∀ j, ((s.installRoster b).link j).carries = true → (s.link j).carries = true := by
  unfold State.installRoster
  exact ⟨⟨_, (linksDown_spec 7 _ _).1, rfl, rfl⟩, (linksDown_spec 7 _ _).2.1, (linksDown_spec 7 _ _).2.2⟩

section
variable {s : State} {now : Nat}

theorem exec_rosterLoad_noMeridian (h : portsOf s.variant = 0) : exec (.rosterLoad now) s = .next (s.at_ now) := by
  have hx : exec (.rosterLoad now) s = execRosterLoad now s := rfl
  unfold execRosterLoad at hx
  rw [if_pos h] at hx
  exact hx.trans (done_eq rfl)

/-- A command that loads the roster: its image is checked, and installed or refused. -/
theorem rosterLoad_eq {n : Nat} (hbar : s.barOn 0 = true) (hports : portsOf s.variant ≠ 0)
    (hn : leAt (s.hostRead (s.reg 0xC1008) 64) 12 4 = n) (hmin : 64 ≤ n) (hmax : n ≤ 64 + 64 * 16384 + 4635)
    (hread : s.readFault (s.reg 0xC1008) n = none) : let b := s.hostRead (s.reg 0xC1008) n
    let u := s.at_ now
    exec (.rosterLoad now) s = done s (match s.rosterRefused b with
      | some r => { u with cluster := { u.cluster with loadReason := r } }
      | none => { u.installRoster b with cluster := { (u.installRoster b).cluster with loadReason := 0 } }) := by
  intro b u
  have hx : exec (.rosterLoad now) s = execRosterLoad now s := rfl
  unfold execRosterLoad at hx
  rw [if_neg hports, managed_on (show (s.at_ now).barOn 0 = true from hbar)] at hx
  unfold State.loadRoster at hx
  dsimp only at hx
  rw [show (s.at_ now).reg 0xC1008 = s.reg 0xC1008 from rfl,
    show leAt ((s.at_ now).hostRead (s.reg 0xC1008) 64) 12 4 = n from hn, if_pos hmax, Nat.max_eq_left hmin,
    show (s.at_ now).readFault (s.reg 0xC1008) n = none from hread, Option.isSome_none, if_neg Bool.false_ne_true] at hx
  exact hx

/-! ### Marks (R401, R402) -/

theorem State.setMark_markOf (s : State) (name : Bytes) (x : Nat) : (s.setMark name x).markOf name = x := by
  have hnone : (s.cluster.marks.filter fun m => m.1 != name).find? (fun m => m.1 == name) = none :=
    List.find?_eq_none.2 fun m hm => by simpa using (List.mem_filter.1 hm).2
  unfold State.markOf State.setMark
  rw [List.find?_append, hnone, Option.none_or, List.find?_cons_of_pos (by exact beq_self_eq_true name)]
  rfl

theorem State.markOf_congr {s t : State} (h : t.cluster.marks = s.cluster.marks) (name : Bytes) : t.markOf name = s.markOf name := by
  rw [State.markOf, h, ← State.markOf]

section
variable {m : Message} {v : State}

theorem markPropose_turn (hm : MerNext s 0x01 now m v) (hlen : m.body.length = 32) (hpilot : s.cluster.pilotSet = true) :
    let x := leAt m.body 24 8
    exec (.markPropose now) s = done s ((s.taken now m).once m fun s =>
      if s.markOf (sliceOf m.body 8 16) < x then (s.setMark (sliceOf m.body 8 16) x).merAnswer m.src m.req 0x02 (le 1 1 ++ le 8 x)
      else s.merAnswer m.src m.req 0x02 (le 1 0 ++ le 8 (s.markOf (sliceOf m.body 8 16)))) := by
  have hx : exec (.markPropose now) s = execMarkPropose now s := rfl
  unfold execMarkPropose at hx
  rw [merRow_next hm] at hx
  dsimp only at hx
  rw [if_neg (fun h => h.elim (fun h' => h' hlen) fun h' => h' hpilot)] at hx
  exact hx

theorem completes_markPropose_above (hm : MerNext s 0x01 now m v) (hlen : m.body.length = 32) (hpilot : s.cluster.pilotSet = true)
    (hfresh : MerFresh s m) (habove : s.markOf (sliceOf m.body 8 16) < leAt m.body 24 8) : Completes (.markPropose now) s fun t =>
      t.markOf (sliceOf m.body 8 16) = leAt m.body 24 8 ∧
      t.cluster.answers.head? = some (m.src, m.req, 0x02, le 8 m.req ++ (le 1 1 ++ le 8 (leAt m.body 24 8))) := by
  have hx := markPropose_turn hm hlen hpilot
  dsimp only at hx
  rw [once_fresh hfresh, if_pos (show (s.taken now m).markOf (sliceOf m.body 8 16) < leAt m.body 24 8 from habove)] at hx
  have hsent := ((s.taken now m).setMark (sliceOf m.body 8 16) (leAt m.body 24 8)).merAnswer_sent m.src m.req 0x02
    (le 1 1 ++ le 8 (leAt m.body 24 8))
  exact .of_done hx hsent.pending ⟨(State.markOf_congr hsent.marks _).trans (State.setMark_markOf _ _ _), State.merAnswer_head _ _ _ _ _⟩

theorem completes_markPropose_below (hm : MerNext s 0x01 now m v) (hlen : m.body.length = 32) (hpilot : s.cluster.pilotSet = true)
    (hfresh : MerFresh s m) (hbelow : leAt m.body 24 8 ≤ s.markOf (sliceOf m.body 8 16)) : Completes (.markPropose now) s fun t =>
      t.cluster.marks = s.cluster.marks ∧
      t.cluster.answers.head? = some (m.src, m.req, 0x02, le 8 m.req ++ (le 1 0 ++ le 8 (s.markOf (sliceOf m.body 8 16)))) := by
  have hx := markPropose_turn hm hlen hpilot
  dsimp only at hx
  rw [once_fresh hfresh, if_neg (show ¬ (s.taken now m).markOf (sliceOf m.body 8 16) < leAt m.body 24 8 from Nat.not_lt.2 hbelow)] at hx
  have hsent := (s.taken now m).merAnswer_sent m.src m.req 0x02 (le 1 0 ++ le 8 ((s.taken now m).markOf (sliceOf m.body 8 16)))
  exact .of_done hx hsent.pending ⟨hsent.marks, State.merAnswer_head _ _ _ _ _⟩

theorem exec_markPropose_again (hm : MerNext s 0x01 now m v) (hlen : m.body.length = 32) (hpilot : s.cluster.pilotSet = true)
    {a : Nat × Nat × Nat × Bytes} (ha : s.cluster.answers.find? (fun a => a.1 == m.src && a.2.1 == m.req) = some a) :
    exec (.markPropose now) s = .next (v.merSend m.src a.2.2.1 a.2.2.2) := by
  have hx := markPropose_turn hm hlen hpilot
  dsimp only at hx
  rw [once_again ha] at hx
  rw [hx, merNext_taken hm]
  exact done_eq (State.merSend_sent _ _ _ _).pending

theorem completes_markPropose_violation (hm : MerNext s 0x01 now m v) (hbad : m.body.length ≠ 32 ∨ s.cluster.pilotSet = false)
    (hlink : m.link < 4) : Completes (.markPropose now) s fun t =>
      (t.src (261 + 8 * m.link)).total = satAdd 32 (s.src (261 + 8 * m.link)).total 1 := by
  have hx : exec (.markPropose now) s = execMarkPropose now s := rfl
  unfold execMarkPropose at hx
  rw [merRow_next hm] at hx
  dsimp only at hx
  rw [if_pos (show m.body.length ≠ 32 ∨ ¬ (s.taken now m).cluster.pilotSet = true from hbad.imp_right fun h => Bool.eq_false_iff.1 h),
    State.violation, if_pos hlink] at hx
  exact ⟨_, hx.trans (done_event rfl _ _ _ _), State.event_total _ _ _ _ _⟩

/-- The acknowledgement that makes a majority ends its proposal. -/
theorem completes_markReply {r : MerReq} {p : Proposal} (hm : MerNext s 0x02 now m v) (hlen : m.body.length = 17)
    (hr : MerAnswers s m 0x01 r)
    (hp : s.cluster.proposals.find? (fun p => p.name == sliceOf r.body 8 16 && p.value == leAt r.body 24 8) = some p)
    (hack : leAt m.body 8 1 = 1) (hnew : p.acks.contains m.src = false) (hlease : p.lease = none)
    (hmost : s.pilots.length / 2 ≤ p.acks.length) : Completes (.markReply now) s fun t =>
      (∀ x ∈ t.cluster.proposals, ¬ (x.name = p.name ∧ x.value = p.value)) ∧ t.cluster.marks = s.cluster.marks := by
  have hx : exec (.markReply now) s = execMarkReply now s := rfl
  unfold execMarkReply at hx
  rw [merRow_next hm] at hx
  dsimp only at hx
  rw [if_neg (not_not_intro hlen), takeRequest_of hr] at hx
  dsimp only at hx
  rw [show ((s.taken now m).replied r).cluster.proposals = s.cluster.proposals from rfl, hp] at hx
  dsimp only at hx
  rw [if_pos hack, if_neg (Bool.eq_false_iff.1 hnew)] at hx
  unfold State.settleProposal at hx
  dsimp only at hx
  rw [if_pos (show ((s.taken now m).replied r).pilots.length / 2 + 1 ≤ (p.acks ++ [m.src]).length by
    rw [List.length_append]; exact Nat.succ_le_succ hmost), hlease] at hx
  dsimp only at hx
  refine .of_done hx rfl ⟨fun x hxm hsame => ?_, rfl⟩
  obtain ⟨hname, hvalue⟩ := hsame
  have hdiff := (List.mem_filter.1 hxm).2
  rw [hname, hvalue] at hdiff
  simp at hdiff

/-! ### Leases of nonce counters (R403, R404) -/

theorem State.settleProposal_caps (s : State) (p : Proposal) :
    (s.settleProposal p).cluster.caps = s.cluster.caps ∧ (s.settleProposal p).pending = s.pending := by
  unfold State.settleProposal
  split
  · dsimp only
    split
    · exact ⟨(State.merAnswer_sent _ _ _ _ _).caps, (State.merAnswer_sent _ _ _ _ _).pending⟩
    · exact ⟨rfl, rfl⟩
  · exact ⟨rfl, rfl⟩

theorem State.merAsk_caps (s : State) (dst type : Nat) (body tag : Bytes) (tried : List Nat) :
    (s.merAsk dst type body tag tried).cluster.caps = s.cluster.caps ∧ (s.merAsk dst type body tag tried).pending = s.pending := by
  obtain ⟨rs, hsent⟩ := s.merAsk_sent dst type body tag tried
  exact ⟨hsent.caps, hsent.pending⟩

/-- A proposal leaves the caps of tags as they are. -/
theorem State.propose_caps (s : State) (name : Bytes) (x : Nat) (lease : Option (Nat × Nat × Nat)) :
    (s.propose name x lease).cluster.caps = s.cluster.caps ∧ (s.propose name x lease).pending = s.pending := by
  have hasks (body tag : Bytes) (l : List Nat) (u : State) : (l.foldl (fun u n => u.merAsk n 0x01 body tag) u).cluster.caps = u.cluster.caps ∧
      (l.foldl (fun u n => u.merAsk n 0x01 body tag) u).pending = u.pending := by
    induction l generalizing u with
    | nil => exact ⟨rfl, rfl⟩
    | cons n l ih => exact ⟨(ih _).1.trans (u.merAsk_caps n 0x01 body tag []).1, (ih _).2.trans (u.merAsk_caps n 0x01 body tag []).2⟩
  have hmarked (own : Bool) : (if own then s.setMark name x else s).cluster.caps = s.cluster.caps ∧
      (if own then s.setMark name x else s).pending = s.pending := by cases own <;> exact ⟨rfl, rfl⟩
  unfold State.propose
  dsimp only
  have hown := hmarked (s.cluster.pilotSet && decide (s.markOf name < x))
  generalize (if (s.cluster.pilotSet && decide (s.markOf name < x)) = true then [s.cluster.node] else []) = acks
  generalize (if (s.cluster.pilotSet && decide (s.markOf name < x)) = true then s.setMark name x else s) = t at hown
  split
  · exact ⟨((hasks _ _ _ _).1.trans (State.settleProposal_caps _ _).1).trans hown.1,
      ((hasks _ _ _ _).2.trans (State.settleProposal_caps _ _).2).trans hown.2⟩
  · exact ⟨(State.settleProposal_caps _ _).1.trans hown.1, (State.settleProposal_caps _ _).2.trans hown.2⟩

/-- A lease is proposed, or answered as exhausted. -/
theorem State.proposeLease_eq (s : State) (tag : Bytes) (start who rid : Nat) :
    s.proposeLease tag start who rid = s.merAnswer who rid 0x04 (grantBody 1 0 0) ∨
    ∃ x, s.proposeLease tag start who rid = s.propose tag x (some (who, rid, start)) := by
  unfold State.proposeLease
  exact ite_eq_or_eq _ _ _ |>.imp_right fun h => ⟨_, h⟩

theorem State.proposeLease_caps (s : State) (tag : Bytes) (start who rid : Nat) :
    (s.proposeLease tag start who rid).cluster.caps = s.cluster.caps ∧ (s.proposeLease tag start who rid).pending = s.pending := by
  rcases s.proposeLease_eq tag start who rid with h | ⟨x, h⟩
  · rw [h]
    exact ⟨(State.merAnswer_sent _ _ _ _ _).caps, (State.merAnswer_sent _ _ _ _ _).pending⟩
  · rw [h]
    exact State.propose_caps _ _ _ _

/-- The device with `cap` as the cap of a tag. -/
def State.capped (s : State) (tag : Bytes) (cap : Nat) : State :=
  { s with cluster := { s.cluster with caps := (s.cluster.caps.filter fun (c : Bytes × Nat) => c.1 != tag) ++ [(tag, cap)] } }

theorem State.capped_find (s : State) (tag : Bytes) (cap : Nat) :
    (s.capped tag cap).cluster.caps.find? (fun c => c.1 == tag) = some (tag, cap) := by
  have hnone : (s.cluster.caps.filter fun c => c.1 != tag).find? (fun c => c.1 == tag) = none :=
    List.find?_eq_none.2 fun c hc => by simpa using (List.mem_filter.1 hc).2
  unfold State.capped
  rw [List.find?_append, hnone, Option.none_or, List.find?_cons_of_pos (by exact beq_self_eq_true tag)]

theorem State.capOf_pos (s : State) (tag : Bytes) : 0 < s.capOf tag := by
  unfold State.capOf
  dsimp only
  split <;> omega

theorem State.capped_capOf (s : State) (tag : Bytes) {cap : Nat} (h : 0 < cap) : (s.capped tag cap).capOf tag = cap := by
  unfold State.capOf
  rw [State.capped_find]
  exact if_neg (Nat.pos_iff_ne_zero.1 h)

section
variable {m : Message} {v : State}

theorem completes_leaseReq (hm : MerNext s 0x03 now m v) (hlen : m.body.length = 40) (hsize : leAt m.body 32 8 = 2 ^ 20)
    (hpilot : s.cluster.pilotSet = true) (hfresh : MerFresh s m)
    (hnone : (s.cluster.proposals.any fun p => p.lease.any fun l => l.1 == m.src && l.2.1 == m.req) = false) (hlim : 0 < leAt m.body 24 8) :
    let tag := sliceOf m.body 8 16
    let cap := min (leAt m.body 24 8) (s.capOf tag)
    Completes (.leaseReq now) s fun t => t.cluster.caps.find? (fun c => c.1 == tag) = some (tag, cap) ∧
      (cap ≤ s.markOf tag → t.cluster.marks = s.cluster.marks ∧
        t.cluster.answers.head? = some (m.src, m.req, 0x04, le 8 m.req ++ grantBody 1 0 0)) := by
  intro tag cap
  have hx : exec (.leaseReq now) s = execLeaseReq now s := rfl
  unfold execLeaseReq at hx
  rw [merRow_next hm] at hx
  dsimp only at hx
  rw [if_neg (fun h => h.elim (fun h' => h' hlen) fun h' => h'.elim (fun h'' => h'' hsize) fun h'' => h'' hpilot), once_fresh hfresh,
    show (s.taken now m).cluster.proposals = s.cluster.proposals from rfl, hnone, if_neg Bool.false_ne_true,
    if_neg (Nat.pos_iff_ne_zero.1 hlim)] at hx
  change _ = done s (((s.taken now m).capped tag cap).proposeLease tag (((s.taken now m).capped tag cap).markOf tag) m.src m.req) at hx
  have hcap : ((s.taken now m).capped tag cap).capOf tag = cap := State.capped_capOf _ _ (Nat.lt_min.2 ⟨hlim, s.capOf_pos tag⟩)
  have hkept := ((s.taken now m).capped tag cap).proposeLease_caps tag (((s.taken now m).capped tag cap).markOf tag) m.src m.req
  refine .of_done hx hkept.2 ⟨hkept.1 ▸ State.capped_find _ _ _, fun hused => ?_⟩
  have hspent : ((s.taken now m).capped tag cap).proposeLease tag (((s.taken now m).capped tag cap).markOf tag) m.src m.req =
      ((s.taken now m).capped tag cap).merAnswer m.src m.req 0x04 (grantBody 1 0 0) := by
    unfold State.proposeLease
    dsimp only
    rw [hcap, if_pos (Or.inl ((Nat.min_le_right _ _).trans (show cap ≤ ((s.taken now m).capped tag cap).markOf tag from hused)))]
  rw [hspent]
  exact ⟨(State.merAnswer_sent _ _ _ _ _).marks, State.merAnswer_head _ _ _ _ _⟩

section
variable {r : MerReq} {i : Nat} {K : Key} (hm : MerNext s 0x04 now m v) (hlen : m.body.length = 25) (hr : MerAnswers s m 0x03 r)
  (hi : s.keyOfTag r.tag = some i) (hK : s.key? i = some K)
include hm hlen hr hi hK

theorem leaseGrant_turn : let u := (s.taken now m).replied r
    exec (.leaseGrant now) s = done s (
      if leAt m.body 8 1 ≠ 0 then u.modKey i fun K => { K with asked := false }
      else if leAt m.body 17 8 ≤ leAt m.body 9 8 ∨ 2 ^ 20 < leAt m.body 17 8 - leAt m.body 9 8 ∨ leAt m.body 9 8 < K.leasedTo then u.violation m
      else if K.nextLease.isSome then u
      else (u.modKey i fun K => { K with nextLease := some (leAt m.body 9 8, leAt m.body 17 8), asked := false }).logEvent 7 0x0070
        ([3#8] ++ le 2 m.src ++ r.tag ++ le 8 (leAt m.body 9 8) ++ le 8 (leAt m.body 17 8))) := by
  have hx : exec (.leaseGrant now) s = execLeaseGrant now s := rfl
  unfold execLeaseGrant at hx
  rw [merRow_next hm] at hx
  dsimp only at hx
  rw [if_neg (not_not_intro hlen), takeRequest_of hr] at hx
  dsimp only at hx
  rw [show ((s.taken now m).replied r).keyOfTag r.tag = some i from hi] at hx
  dsimp only at hx
  rw [show ((s.taken now m).replied r).key? i = some K from hK] at hx
  exact hx

theorem completes_leaseGrant (hst : leAt m.body 8 1 = 0) (hlt : leAt m.body 9 8 < leAt m.body 17 8)
    (hsize : leAt m.body 17 8 - leAt m.body 9 8 ≤ 2 ^ 20) (hlo : K.leasedTo ≤ leAt m.body 9 8) (hnext : K.nextLease = none) :
    Completes (.leaseGrant now) s fun t =>
      t.key? i = some { K with nextLease := some (leAt m.body 9 8, leAt m.body 17 8), asked := false } := by
  have hx := leaseGrant_turn hm hlen hr hi hK
  dsimp only at hx
  rw [if_neg (not_not_intro hst), if_neg (show ¬ (leAt m.body 17 8 ≤ leAt m.body 9 8 ∨ 2 ^ 20 < leAt m.body 17 8 - leAt m.body 9 8 ∨
    leAt m.body 9 8 < K.leasedTo) by omega), hnext, if_neg (by simp)] at hx
  have hlogged := State.logEvent_reports (((s.taken now m).replied r).modKey i fun K =>
    { K with nextLease := some (leAt m.body 9 8, leAt m.body 17 8), asked := false }) 7 0x0070
    ([3#8] ++ le 2 m.src ++ r.tag ++ le 8 (leAt m.body 9 8) ++ le 8 (leAt m.body 17 8))
  refine .of_done hx hlogged.pending ?_
  rw [State.key?, hlogged.keys, ← State.key?, State.modKey_key, if_pos rfl, show ((s.taken now m).replied r).key? i = some K from hK]
  rfl

theorem completes_leaseGrant_refused (hst : leAt m.body 8 1 ≠ 0) : Completes (.leaseGrant now) s fun t =>
    t.key? i = some { K with asked := false } ∧ t.log = s.log := by
  have hx := leaseGrant_turn hm hlen hr hi hK
  dsimp only at hx
  rw [if_pos hst] at hx
  refine .of_done hx rfl ⟨?_, rfl⟩
  rw [State.modKey_key, if_pos rfl, show ((s.taken now m).replied r).key? i = some K from hK]
  rfl

end

end

end

/-! ### Delegated trees (R405) -/

theorem Hbs.signRoots_next (H : Hbs) (b d : Nat) : (H.signRoots b d).1.next = H.next := by
  have hfold {α : Type} (g : Hbs × Nat → α → Hbs × Nat) (hg : ∀ acc a, (g acc a).1.next = acc.1.next) (l : List α) (acc : Hbs × Nat) :
      (l.foldl g acc).1.next = acc.1.next := by
    induction l generalizing acc with
    | nil => rfl
    | cons a l ih => exact (ih _).trans (hg acc a)
  refine hfold _ (fun acc x => ?_) _ _
  dsimp only
  split <;> rfl

theorem mem_sortBy_of_mem {α : Type} {f : α → Nat} {b : α} {l : List α} (h : b ∈ l) : b ∈ sortBy f l := by
  have hinsert (a : α) (l : List α) (h : b = a ∨ b ∈ l) : b ∈ insertBy f a l := by
    induction l with
    | nil => simpa [insertBy] using h
    | cons c l ih =>
      rw [insertBy]
      split
      · simpa using h
      · rcases h with rfl | h
        · exact List.mem_cons_of_mem _ (ih (Or.inl rfl))
        · rcases List.mem_cons.1 h with rfl | h
          · exact List.mem_cons_self
          · exact List.mem_cons_of_mem _ (ih (Or.inr h))
  have hfold (l acc : List α) (h : b ∈ acc ∨ b ∈ l) : b ∈ l.foldl (fun acc a => insertBy f a acc) acc := by
    induction l generalizing acc with
    | nil => simpa using h
    | cons a l ih =>
      refine ih _ ?_
      rcases h with h | h
      · exact Or.inl (hinsert a acc (Or.inr h))
      · rcases List.mem_cons.1 h with rfl | h
        · exact Or.inl (hinsert b acc (Or.inl rfl))
        · exact Or.inr h
  exact hfold l [] (Or.inr h)

section
variable {m : Message} {v : State}

theorem completes_delegateReq_none (hm : MerNext s 0x05 now m v) (hfresh : MerFresh s m)
    (hnone : s.keys.live.find? (fun e => e.2.delegates && keyTag e.2.pubPart == sliceOf m.body 8 16) = none) :
    Completes (.delegateReq now) s fun t =>
      t.cluster.answers.head? = some (m.src, m.req, 0x06, le 8 m.req ++ grantBody 1 0 0) ∧ t.keys = s.keys := by
  have hx : exec (.delegateReq now) s = execDelegateReq now s := rfl
  unfold execDelegateReq at hx
  rw [merRow_next hm] at hx
  dsimp only at hx
  rw [once_fresh hfresh, show (s.taken now m).keys = s.keys from rfl, hnone] at hx
  dsimp only at hx
  have hsent := (s.taken now m).merAnswer_sent m.src m.req 0x06 (grantBody 1 0 0)
  exact .of_done hx hsent.pending ⟨State.merAnswer_head _ _ _ _ _, hsent.keys⟩

theorem completes_delegateReq {i q : Nat} {K : Key} {H : Hbs} (hm : MerNext s 0x05 now m v) (hfresh : MerFresh s m)
    (hfind : s.keys.live.find? (fun e => e.2.delegates && keyTag e.2.pubPart == sliceOf m.body 8 16) = some (i, K))
    (hK : s.key? i = some K) (hH : K.hbs = some H) (hq : H.freeTree = some q) : Completes (.delegateReq now) s fun t =>
      ∃ K' H', t.key? i = some K' ∧ K'.hbs = some H' ∧ (q ∈ H'.given) ∧ H'.next = H.next ∧ K'.material = K.material := by
  have hx : exec (.delegateReq now) s = execDelegateReq now s := rfl
  unfold execDelegateReq at hx
  rw [merRow_next hm] at hx
  dsimp only at hx
  rw [once_fresh hfresh, show (s.taken now m).keys = s.keys from rfl, hfind] at hx
  dsimp only at hx
  rw [hH, Option.bind_some, hq, Option.map_some] at hx
  dsimp only at hx
  have hnext := H.signRoots_next q (s.taken now m).draws
  generalize H.signRoots q (s.taken now m).draws = r at hx hnext
  have hkey : (((s.taken now m).modKey i fun K => { K with hbs := some { r.1 with given := sortBy (fun n => n) (H.given ++ [q]) } }).drawn
      r.2).key? i = some { K with hbs := some { r.1 with given := sortBy (fun n => n) (H.given ++ [q]) } } := by
    refine (State.modKey_key _ _ _ _).trans ?_
    rw [if_pos rfl, show (s.taken now m).key? i = some K from hK]
    rfl
  have hpend : (((s.taken now m).modKey i fun K => { K with hbs := some { r.1 with given := sortBy (fun n => n) (H.given ++ [q]) } }).drawn
      r.2).pending = s.pending := rfl
  generalize (((s.taken now m).modKey i fun K => { K with hbs := some { r.1 with given := sortBy (fun n => n) (H.given ++ [q]) } }).drawn
      r.2) = u at hx hkey hpend
  refine .of_done hx ((State.merAnswer_sent _ _ _ _ _).pending.trans hpend)
    ⟨{ K with hbs := some { r.1 with given := sortBy (fun n => n) (H.given ++ [q]) } },
      { r.1 with given := sortBy (fun n => n) (H.given ++ [q]) }, ?_, rfl,
      mem_sortBy_of_mem (List.mem_append_right _ List.mem_cons_self), hnext, rfl⟩
  rw [State.key?, (State.merAnswer_sent _ _ _ _ _).keys]
  exact hkey

/-- The record of a lessee that has been granted a range, with the signed roots above it. -/
def Hbs.granted (H : Hbs) (lo hi : Nat) (upper : Bytes) : Hbs :=
  { H with leaseLo := lo, leaseHi := some hi, reserved := lo, next := lo, ready := hi, pendingTo := none, upper := upper }

/-- The range granted becomes the lease of the lessee's record. -/
theorem completes_delegateGrant {r : MerReq} {i : Nat} {K : Key} {H : Hbs} (hm : MerNext s 0x06 now m v) (hr : MerAnswers s m 0x05 r)
    (hlen : 25 ≤ m.body.length) (hst : leAt m.body 8 1 = 0) (hlt : leAt m.body 9 8 < leAt m.body 17 8)
    (hfind : s.keys.live.find? (fun e => (e.2.hbs.any fun H => H.holder == some m.src) && keyTag e.2.pubPart == r.tag) = some (i, K))
    (hK : s.key? i = some K) (hH : K.hbs = some H) : Completes (.delegateGrant now) s fun t =>
      ∃ K' H', t.key? i = some K' ∧ K'.hbs = some H' ∧ H'.leaseLo = leAt m.body 9 8 ∧ H'.leaseHi = some (leAt m.body 17 8) ∧
        H'.next = leAt m.body 9 8 ∧ H'.upper = m.body.drop 25 := by
  have hx : exec (.delegateGrant now) s = execDelegateGrant now s := rfl
  unfold execDelegateGrant at hx
  rw [merRow_next hm] at hx
  dsimp only at hx
  rw [takeRequest_of hr] at hx
  dsimp only at hx
  rw [if_neg (fun h => h.elim (Nat.not_lt.2 hlen) fun h' => Nat.not_le.2 hlt h'.2), if_neg (not_not_intro hst),
    show ((s.taken now m).replied r).keys = s.keys from rfl, hfind] at hx
  dsimp only at hx
  have hkey : ((s.taken now m).replied r).key? i = some K := hK
  have hpend : ((s.taken now m).replied r).pending = s.pending := rfl
  generalize (s.taken now m).replied r = u at hx hkey hpend
  refine .of_done hx ((State.logEvent_reports _ _ _ _).pending.trans hpend)
    ⟨{ K with hbs := some (H.granted (leAt m.body 9 8) (leAt m.body 17 8) (m.body.drop 25)) }, _, ?_, rfl, rfl, rfl, rfl, rfl⟩
  rw [State.key?, (State.logEvent_reports _ _ _ _).keys, ← State.key?, State.modKey_key, if_pos rfl, hkey]
  have hlease := congrArg (Option.map fun H => H.granted (leAt m.body 9 8) (leAt m.body 17 8) (m.body.drop 25)) hH
  exact congrArg (fun x => some { K with hbs := x }) hlease

/-! ### Cross-chaining (R406) -/

theorem completes_cross (hm : MerNext s 0x07 now m v) (hlen : m.body.length = 56) (hroom : (s.logReg 7).count ≠ 0xFFFFFFFF) :
    Completes (.cross now) s fun t =>
      (t.logReg 7).value = sha384 ((s.logReg 7).value ++ ([4#8] ++ le 2 m.src ++ m.body)) ∧ (t.logReg 7).count = (s.logReg 7).count + 1 := by
  have hx : exec (.cross now) s = execCross now s := rfl
  unfold execCross at hx
  rw [merRow_next hm] at hx
  rw [if_neg (not_not_intro hlen)] at hx
  have hopen : (s.taken now m).logFull 7 = false := beq_eq_false_iff_ne.2 hroom
  have hreg := State.logEvent_logReg_of_not_full hopen 0x0070 ([4#8] ++ le 2 m.src ++ m.body)
  exact .of_done hx (State.logEvent_reports _ _ _ _).pending ⟨(congrArg LogReg.value hreg :), (congrArg LogReg.count hreg :)⟩

end

theorem exec_crossInterval_alone (h : s.cluster.member = false) : exec (.crossInterval now) s = .next (s.at_ now) := by
  have hx : exec (.crossInterval now) s = execCrossInterval now s := rfl
  unfold execCrossInterval at hx
  dsimp only at hx
  rw [show (s.at_ now).cluster = s.cluster from rfl, h, if_neg Bool.false_ne_true] at hx
  exact hx.trans (done_eq rfl)

theorem completes_crossInterval (h : s.cluster.member = true) : Completes (.crossInterval now) s fun t =>
    t = { s with time := s.time.to now, cluster := t.cluster, regs := t.regs } ∧ t.cluster.marks = s.cluster.marks ∧
    t.cluster.roster = s.cluster.roster ∧ ∀ j, (t.link j).keyOut = (s.link j).keyOut ∧ (t.link j).ctrIn = (s.link j).ctrIn := by
  have hposts (b : Bytes) (l : List Nat) (u : State) :
      Sent u (eachOf l (fun v k => v.postOn k (v.link k).peer v.cluster.node 0x07 1 b) u) := by
    induction l generalizing u with
    | nil => exact .refl u
    | cons k l ih => exact (u.postOn_sent _ _ _ _ _ _).trans (ih _)
  have hx : exec (.crossInterval now) s = execCrossInterval now s := rfl
  unfold execCrossInterval at hx
  dsimp only at hx
  rw [if_pos (show (s.at_ now).cluster.member = true from h)] at hx
  have hsent := hposts (le 8 (s.at_ now).lastAudit ++ sha384 ((List.range 8).flatMap (s.at_ now).regBlock))
    (tkeys (s.at_ now).cluster.links fun _ L => L.carries) (s.at_ now)
  generalize eachOf (tkeys (s.at_ now).cluster.links fun _ L => L.carries) _ (s.at_ now) = t at hx hsent
  refine .of_done hx hsent.pending ⟨?_, hsent.marks, hsent.roster, hsent.links⟩
  have hcluster : t.cluster = { s.cluster with links := t.cluster.links, inbox := t.cluster.inbox } := (congrArg State.cluster hsent.rest :)
  rw [hcluster]
  exact hsent.rest

/-! ### The roster over a link, and requests that wait (R397, R400, R402) -/

section
variable {m : Message} {v : State}

theorem exec_rosterGet (hm : MerNext s 0x08 now m v) : let img := (s.cluster.roster.map (·.image)).getD []
    exec (.rosterGet now) s = .next (v.merSend m.src 0x09
      (le 8 m.req ++ le 4 (leAt m.body 8 4) ++ le 4 img.length ++ sliceOf img (leAt m.body 8 4) 32768)) := by
  have hx : exec (.rosterGet now) s = execRosterGet now s := rfl
  unfold execRosterGet at hx
  rw [merRow_next hm, merNext_taken hm] at *
  exact hx.trans (done_eq (State.merSend_sent _ _ _ _).pending)

theorem completes_rosterData {r : MerReq} (hm : MerNext s 0x09 now m v) (hr : MerAnswers s m 0x08 r)
    (hoff : leAt m.body 8 4 = s.cluster.rosterIn.length) (hpart : m.body.drop 16 ≠ [])
    (htotal : leAt m.body 12 4 ≤ 64 + 64 * 16384 + 4635)
    (hmore : s.cluster.rosterIn.length + (m.body.length - 16) < leAt m.body 12 4) : Completes (.rosterData now) s fun t =>
      t.cluster.rosterIn = s.cluster.rosterIn ++ m.body.drop 16 ∧ t.cluster.roster = s.cluster.roster ∧ t.draws = s.draws + 8 := by
  have hx : exec (.rosterData now) s = execRosterData now s := rfl
  unfold execRosterData at hx
  rw [merRow_next hm] at hx
  dsimp only at hx
  rw [takeRequest_of hr] at hx
  dsimp only at hx
  rw [show ((s.taken now m).replied r).cluster.rosterIn = s.cluster.rosterIn from rfl,
    if_neg (fun h => h.elim (fun h' => h' hoff) fun h' => h'.elim hpart (Nat.not_lt.2 htotal)),
    if_pos (show (s.cluster.rosterIn ++ m.body.drop 16).length < leAt m.body 12 4 by
      rw [List.length_append, List.length_drop]; exact hmore)] at hx
  obtain ⟨rs, hsent⟩ := ({ (s.taken now m).replied r with cluster := { ((s.taken now m).replied r).cluster with
    rosterIn := s.cluster.rosterIn ++ m.body.drop 16 } } : State).merAsk_sent m.src 0x08
    (le 4 (s.cluster.rosterIn ++ m.body.drop 16).length) [] []
  exact .of_done hx hsent.pending ⟨hsent.rosterIn, hsent.roster, hsent.draws⟩

end

section
variable {id : Nat} {r : MerReq} (hr : s.cluster.requests.find? (fun r => r.id == id) = some r)
include hr

theorem requestResend_turn : let u := s.at_ now
    exec (.meridianRequestResend id now) s = done s (if u.time.elapsed < r.sentAt + 10000000 then u
      else if r.first + 1000000000 ≤ u.time.elapsed then u.requestFails r
      else ({ u with cluster := { s.cluster with requests := s.cluster.requests.map fun (x : MerReq) =>
          if x.id = r.id then { x with sentAt := u.time.elapsed } else x } } : State).merSend r.dst r.type r.body) := by
  intro u
  have hx : exec (.meridianRequestResend id now) s = execMeridianRequestResend id now s := rfl
  unfold execMeridianRequestResend at hx
  dsimp only at hx
  rw [show (s.at_ now).cluster.requests.find? (fun r => r.id == id) = some r from hr] at hx
  exact hx

theorem exec_requestResend_early (h : (s.at_ now).time.elapsed < r.sentAt + 10000000) :
    exec (.meridianRequestResend id now) s = .next (s.at_ now) := by
  rw [requestResend_turn hr, if_pos h]
  exact done_eq rfl

theorem exec_requestResend_again (hdue : r.sentAt + 10000000 ≤ (s.at_ now).time.elapsed)
    (hlive : (s.at_ now).time.elapsed < r.first + 1000000000) : exec (.meridianRequestResend id now) s =
      .next (({ s.at_ now with cluster := { s.cluster with requests := s.cluster.requests.map fun (x : MerReq) =>
        if x.id = r.id then { x with sentAt := (s.at_ now).time.elapsed } else x } } : State).merSend r.dst r.type r.body) := by
  rw [requestResend_turn hr, if_neg (Nat.not_lt.2 hdue), if_neg (Nat.not_le.2 hlive)]
  exact done_eq (State.merSend_sent _ _ _ _).pending

theorem exec_requestResend_failed (hdue : r.sentAt + 10000000 ≤ (s.at_ now).time.elapsed)
    (hover : r.first + 1000000000 ≤ (s.at_ now).time.elapsed) (hty : r.type ≠ 0x03) : exec (.meridianRequestResend id now) s =
      .next { s.at_ now with cluster := { s.cluster with requests := s.cluster.requests.filter fun x => x.id != r.id } } := by
  rw [requestResend_turn hr, if_neg (Nat.not_lt.2 hdue), if_pos hover, State.requestFails, if_neg fun h => hty h.1]
  exact done_eq rfl

end

end

end Sys2Proof.Machine

open Sys2Proof.Machine

/-- Settles O51. -/
theorem clusterMessagesKeepMarksAndLeases : Obligations.ClusterMessagesKeepMarksAndLeases := by
  unfold Obligations.ClusterMessagesKeepMarksAndLeases
  intro s now u
  refine ⟨exec_withoutMessage, exec_rosterLoad_noMeridian, ?_, fun m v hm => ⟨fun hlen hpilot => ⟨completes_markPropose_above hm hlen hpilot,
    completes_markPropose_below hm hlen hpilot, fun a => exec_markPropose_again hm hlen hpilot⟩, completes_markPropose_violation hm⟩,
    fun m v r p => completes_markReply, fun m v => completes_leaseReq, fun m v r i K hm hlen hr hi hK =>
      ⟨completes_leaseGrant hm hlen hr hi hK, completes_leaseGrant_refused hm hlen hr hi hK⟩,
    fun m v hm hfresh => ⟨completes_delegateReq_none hm hfresh, fun i K H q => completes_delegateReq hm hfresh⟩,
    fun m v r i K H => completes_delegateGrant, fun m v => completes_cross, exec_crossInterval_alone, completes_crossInterval,
    fun m v => exec_rosterGet, fun m v r => completes_rosterData, fun id r hr => ⟨exec_requestResend_early hr,
      exec_requestResend_again hr, exec_requestResend_failed hr⟩⟩
  intro hbar hports a n b hmin hmax hread
  have hload := rosterLoad_eq (now := now) hbar hports rfl hmin hmax hread
  dsimp only at hload
  refine ⟨fun r hr => ?_, fun hr => ?_⟩
  · rw [show s.rosterRefused (s.hostRead (s.reg 0xC1008) (leAt (s.hostRead (s.reg 0xC1008) 64) 12 4)) = some r from hr] at hload
    exact hload.trans (done_eq rfl)
  · rw [show s.rosterRefused (s.hostRead (s.reg 0xC1008) (leAt (s.hostRead (s.reg 0xC1008) 64) 12 4)) = none from hr] at hload
    obtain ⟨hroster, hpend, hcarries⟩ := u.installRoster_spec b
    exact .of_done hload hpend ⟨hroster, rfl, hcarries⟩
end

section
/-! PROOF. Tethered devices and their lead, and the obligation on them (17_meridian.md R407-R410). -/

namespace Sys2Proof.Machine

theorem Sent.host {s t : State} (h : Sent s t) : t.host = s.host := (congrArg State.host h.rest :)
theorem Sent.tether {s t : State} (h : Sent s t) : t.cluster.tether = s.cluster.tether := (congrArg (fun u : State => u.cluster.tether) h.rest :)
theorem Sent.lead {s t : State} (h : Sent s t) : t.cluster.lead = s.cluster.lead := (congrArg (fun u : State => u.cluster.lead) h.rest :)

/-! ### Devices that come online or go offline (R409) -/

theorem State.reshare_tether (s : State) : s.reshare.cluster.tether = s.cluster.tether ∧ s.reshare.pending = s.pending := by
  have hasks (f : Nat × Tether → Bytes) (l : List (Nat × Tether)) (u : State) :
      (l.foldl (fun u e => u.merAsk e.2.node 0x13 (f e) []) u).cluster.tether = u.cluster.tether ∧
      (l.foldl (fun u e => u.merAsk e.2.node 0x13 (f e) []) u).pending = u.pending := by
    induction l generalizing u with
    | nil => exact ⟨rfl, rfl⟩
    | cons e l ih =>
      obtain ⟨rs, hsent⟩ := u.merAsk_sent e.2.node 0x13 (f e) [] []
      exact ⟨(ih _).1.trans hsent.tether, (ih _).2.trans hsent.pending⟩
  exact hasks _ _ { s with host := { s.host with budgetNext := some s.shares.1 } }

theorem State.setOnline_spec (s : State) (d : Nat) (on : Bool) :
    ((s.setOnline d on).tether d).online = on ∧ (s.setOnline d on).pending = s.pending := by
  unfold State.setOnline
  split
  · next h => exact ⟨h, rfl⟩
  · obtain ⟨htether, hpend⟩ := (s.modTether d fun T => { T with online := on }).reshare_tether
    refine ⟨?_, hpend⟩
    rw [State.tether, htether, ← State.tether, State.modTether_tether_same]

section
variable {s : State} {now : Nat} {m : Message} {v : State}

/-! ### The lead's side (R408) -/

section
variable {d : Nat}

theorem tetherRd_turn (hm : MerNext s 0x10 now m v) (hd : s.tetherOf m.src = some d) (hsafe : s.faults.safe.on = false)
    (hlen : m.body.length = 18) (hfresh : MerFresh s m) (hpos : 0 < leAt m.body 16 2) (hmax : leAt m.body 16 2 ≤ 4096) :
    exec (.tetherRd now) s = done s (match s.readFault (leAt m.body 8 8) (leAt m.body 16 2) with
      | some k => v.merAnswer m.src m.req 0x11 (le 1 k)
      | none => v.merAnswer m.src m.req 0x11 ([0#8] ++ s.hostRead (leAt m.body 8 8) (leAt m.body 16 2))) := by
  have hx : exec (.tetherRd now) s = execTetherRd now s := rfl
  unfold execTetherRd at hx
  rw [merRow_next hm] at hx
  dsimp only at hx
  rw [show (s.taken now m).tetherOf m.src = some d from hd, show (s.taken now m).faults = s.faults from rfl, hsafe, if_neg, once_fresh hfresh,
    ← merNext_taken hm] at hx
  · rw [hx, merNext_taken hm]
    rfl
  · rintro (h | h | h | h | h)
    · exact absurd h (by simp)
    · exact absurd h Bool.false_ne_true
    · exact h hlen
    · exact Nat.pos_iff_ne_zero.1 hpos h
    · exact Nat.not_lt.2 hmax h

theorem merAnswer_taken_pending (hm : MerNext s 0x10 now m v) (body : Bytes) : (v.merAnswer m.src m.req 0x11 body).pending = s.pending := by
  rw [merNext_taken hm]
  exact (State.merAnswer_sent _ _ _ _ _).pending

theorem exec_tetherRd_data (hm : MerNext s 0x10 now m v) (hd : s.tetherOf m.src = some d) (hsafe : s.faults.safe.on = false)
    (hlen : m.body.length = 18) (hfresh : MerFresh s m) (hpos : 0 < leAt m.body 16 2) (hmax : leAt m.body 16 2 ≤ 4096)
    (hok : s.readFault (leAt m.body 8 8) (leAt m.body 16 2) = none) : exec (.tetherRd now) s =
      .next (v.merAnswer m.src m.req 0x11 ([0#8] ++ s.hostRead (leAt m.body 8 8) (leAt m.body 16 2))) := by
  rw [tetherRd_turn hm hd hsafe hlen hfresh hpos hmax, hok]
  exact done_eq (merAnswer_taken_pending hm _)

theorem exec_tetherRd_fault {k : Nat} (hm : MerNext s 0x10 now m v) (hd : s.tetherOf m.src = some d) (hsafe : s.faults.safe.on = false)
    (hlen : m.body.length = 18) (hfresh : MerFresh s m) (hpos : 0 < leAt m.body 16 2) (hmax : leAt m.body 16 2 ≤ 4096)
    (hbad : s.readFault (leAt m.body 8 8) (leAt m.body 16 2) = some k) : exec (.tetherRd now) s =
      .next (v.merAnswer m.src m.req 0x11 (le 1 k)) := by
  rw [tetherRd_turn hm hd hsafe hlen hfresh hpos hmax, hbad]
  exact done_eq (merAnswer_taken_pending hm _)

theorem tetherWr_turn (hm : MerNext s 0x12 now m v) (hd : s.tetherOf m.src = some d) (hsafe : s.faults.safe.on = false)
    (hlen : 17 ≤ m.body.length) (hmax : (m.body.drop 17).length ≤ 4096) : exec (.tetherWr now) s = done s (
      if leAt m.body 8 1 = 1 then
        (if leAt m.body 9 8 < 16 ∧ m.body.drop 17 = [] then v.msix 0 (1024 + 16 * d + leAt m.body 9 8) else v)
      else if (s.writeFault (leAt m.body 9 8) (m.body.drop 17).length).isSome then v else v.hostWrite (leAt m.body 9 8) (m.body.drop 17)) := by
  have hx : exec (.tetherWr now) s = execTetherWr now s := rfl
  unfold execTetherWr at hx
  rw [merRow_next hm] at hx
  dsimp only at hx
  rw [show (s.taken now m).tetherOf m.src = some d from hd] at hx
  dsimp only at hx
  rw [show (s.taken now m).faults = s.faults from rfl, hsafe, if_neg, ← merNext_taken hm] at hx
  · rw [hx, merNext_taken hm]
    rfl
  · rintro (h | h | h)
    · exact absurd h Bool.false_ne_true
    · exact Nat.not_lt.2 hlen h
    · exact Nat.not_lt.2 hmax h

theorem completes_tetherWr_data (hm : MerNext s 0x12 now m v) (hd : s.tetherOf m.src = some d) (hsafe : s.faults.safe.on = false)
    (hlen : 17 ≤ m.body.length) (hmax : (m.body.drop 17).length ≤ 4096) (hkind : leAt m.body 8 1 = 0)
    (hfault : s.writeFault (leAt m.body 9 8) (m.body.drop 17).length = none) : Completes (.tetherWr now) s fun t =>
      t.hostMem = memWriteN s.hostMem (leAt m.body 9 8) (m.body.drop 17) ∧ t.queues = s.queues := by
  have hx := tetherWr_turn hm hd hsafe hlen hmax
  rw [if_neg (by rw [hkind]; decide), hfault, if_neg (by simp), merNext_taken hm] at hx
  obtain ⟨o, ho⟩ := (s.taken now m).hostWrite_eq (leAt m.body 9 8) (m.body.drop 17)
  rw [ho] at hx
  exact .of_done hx rfl ⟨rfl, rfl⟩

theorem exec_tetherWr_vector (hm : MerNext s 0x12 now m v) (hd : s.tetherOf m.src = some d) (hsafe : s.faults.safe.on = false)
    (hlen : 17 ≤ m.body.length) (hmax : (m.body.drop 17).length ≤ 4096) (hkind : leAt m.body 8 1 = 1) (hvec : leAt m.body 9 8 < 16)
    (hdata : m.body.drop 17 = []) : exec (.tetherWr now) s = .next (v.msix 0 (1024 + 16 * d + leAt m.body 9 8)) := by
  have hx := tetherWr_turn hm hd hsafe hlen hmax
  rw [if_pos hkind, if_pos ⟨hvec, hdata⟩] at hx
  refine hx.trans (done_eq ((State.msix_pending _ _ _).trans ?_))
  rw [merNext_taken hm]
  rfl

end

/-- The answer to a register access or to a share, once its request is found. -/
theorem tetherRegCpl_turn {r : MerReq} (hm : MerNext s 0x14 now m v) (hr : MerAnswers s m 0x13 r) : let u := (s.taken now m).replied r
    exec (.tetherRegCpl now) s = done s (match leAt r.body 8 1, s.tetherOf m.src with
      | 0, _ => { u with host := { u.host with lastRead := BitVec.ofNat 64 (leAt m.body 8 8) } }
      | 2, some d => u.setOnline d true
      | _, _ => u) := by
  have hx : exec (.tetherRegCpl now) s = execTetherRegCpl now s := rfl
  unfold execTetherRegCpl at hx
  rw [merRow_next hm] at hx
  dsimp only at hx
  rw [takeRequest_of hr] at hx
  exact hx

theorem completes_tetherRegCpl_value {r : MerReq} (hm : MerNext s 0x14 now m v) (hr : MerAnswers s m 0x13 r) (hkind : leAt r.body 8 1 = 0) :
    Completes (.tetherRegCpl now) s fun t => t.host.lastRead = BitVec.ofNat 64 (leAt m.body 8 8) ∧
      t.cluster.tether = s.cluster.tether := by
  have hx := tetherRegCpl_turn hm hr
  dsimp only at hx
  rw [hkind] at hx
  exact .of_done hx rfl ⟨rfl, rfl⟩

theorem completes_tetherRegCpl_share {r : MerReq} {d : Nat} (hm : MerNext s 0x14 now m v) (hr : MerAnswers s m 0x13 r)
    (hkind : leAt r.body 8 1 = 2) (hd : s.tetherOf m.src = some d) :
    Completes (.tetherRegCpl now) s fun t => (t.tether d).online = true := by
  have hx := tetherRegCpl_turn hm hr
  dsimp only at hx
  rw [hkind, hd] at hx
  obtain ⟨honline, hpend⟩ := ((s.taken now m).replied r).setOnline_spec d true
  exact .of_done hx hpend honline

/-! ### The tethered device's side (R408, R409) -/

section
variable {r : MerReq}

theorem tetherCpl_turn (hm : MerNext s 0x11 now m v) (hr : MerAnswers s m 0x10 r) : let u := (s.taken now m).replied r
    exec (.tetherCpl now) s = done s (
      if leAt m.body 8 1 ≠ 0 then
        { u with host := { u.host with readFaults := u.host.readFaults ++ [(leAt r.body 8 8, leAt r.body 16 2, leAt m.body 8 1)] } }
      else { u with hostMem := memWriteN u.hostMem (leAt r.body 8 8) (fit (leAt r.body 16 2) (m.body.drop 9)) }) := by
  have hx : exec (.tetherCpl now) s = execTetherCpl now s := rfl
  unfold execTetherCpl at hx
  rw [merRow_next hm] at hx
  dsimp only at hx
  rw [takeRequest_of hr] at hx
  exact hx

theorem completes_tetherCpl_data (hm : MerNext s 0x11 now m v) (hr : MerAnswers s m 0x10 r) (hok : leAt m.body 8 1 = 0) :
    Completes (.tetherCpl now) s fun t =>
      t.hostMem = memWriteN s.hostMem (leAt r.body 8 8) (fit (leAt r.body 16 2) (m.body.drop 9)) ∧ t.host = s.host := by
  have hx := tetherCpl_turn hm hr
  dsimp only at hx
  rw [if_neg (not_not_intro hok)] at hx
  exact .of_done hx rfl ⟨rfl, rfl⟩

theorem completes_tetherCpl_fault (hm : MerNext s 0x11 now m v) (hr : MerAnswers s m 0x10 r) (hbad : leAt m.body 8 1 ≠ 0) :
    Completes (.tetherCpl now) s fun t => t.hostMem = s.hostMem ∧
      t.host.readFaults = s.host.readFaults ++ [(leAt r.body 8 8, leAt r.body 16 2, leAt m.body 8 1)] := by
  have hx := tetherCpl_turn hm hr
  dsimp only at hx
  rw [if_pos hbad] at hx
  exact .of_done hx rfl ⟨rfl, rfl⟩

end

section
variable (hm : MerNext s 0x13 now m v) (htethered : s.cluster.tethered = true) (hsafe : s.faults.safe.on = false)
  (hlen : m.body.length = 22) (hfresh : MerFresh s m)
include hm htethered hsafe hlen hfresh

theorem completes_tetherReg_share (hkind : leAt m.body 8 1 = 2) : Completes (.tetherReg now) s fun t =>
    t.host.budgetNext = some (leAt m.body 14 8) ∧ t.cluster.lead = some m.src ∧ t.host.budget = s.host.budget := by
  have hx : exec (.tetherReg now) s = execTetherReg now s := rfl
  unfold execTetherReg at hx
  rw [merRow_next hm] at hx
  dsimp only at hx
  rw [if_neg, hkind] at hx
  · have hturn : exec (.tetherReg now) s = done s ((s.taken now m).once m fun s => ({ s with
        cluster := { s.cluster with lead := some m.src },
        host := { s.host with budgetNext := some (leAt m.body 14 8) } } : State).merAnswer m.src m.req 0x14 (le 8 0)) := hx
    rw [once_fresh hfresh] at hturn
    have hsent := State.merAnswer_sent { s.taken now m with
      cluster := { (s.taken now m).cluster with lead := some m.src },
      host := { (s.taken now m).host with budgetNext := some (leAt m.body 14 8) } } m.src m.req 0x14 (le 8 0)
    exact .of_done hturn hsent.pending ⟨(congrArg HostPort.budgetNext hsent.host :), hsent.lead, (congrArg HostPort.budget hsent.host :)⟩
  · rintro (h | h | h)
    · exact h htethered
    · exact Bool.eq_false_iff.1 hsafe h
    · exact h hlen

/-- The lead's read does not show in what the tethered device's own host read last. -/
theorem completes_tetherReg_read (hkind : leAt m.body 8 1 = 0) :
    Completes (.tetherReg now) s fun t => t.host.lastRead = s.host.lastRead := by
  have hx : exec (.tetherReg now) s = execTetherReg now s := rfl
  unfold execTetherReg at hx
  rw [merRow_next hm] at hx
  dsimp only at hx
  rw [if_neg, hkind] at hx
  · rw [once_fresh hfresh] at hx
    exact ⟨_, hx, rfl⟩
  · rintro (h | h | h)
    · exact h htethered
    · exact Bool.eq_false_iff.1 hsafe h
    · exact h hlen

end

end

/-! ### A path that is lost (R410) -/

section
variable {s : State} {now n : Nat} (hn : n < 16384)
include hn

theorem exec_tetherPathLost_carried (hreqs : s.cluster.requests = []) {k : Nat} (hroute : s.merRoute n = some k)
    (hcarries : (s.link k).carries = true) : exec (.tetherPathLost n now) s = .next (s.at_ now) := by
  have hkept : (s.at_ now).pathLost n = false := by
    unfold State.pathLost
    rw [show (s.at_ now).cluster = s.cluster from rfl, hreqs, show (s.at_ now).merRoute n = some k from hroute]
    dsimp only
    rw [show (s.at_ now).link k = s.link k from rfl, hcarries]
    rfl
  have hx : exec (.tetherPathLost n now) s = execTetherPathLost n now s := rfl
  unfold execTetherPathLost at hx
  dsimp only at hx
  rw [hkept, if_pos (by simp)] at hx
  exact hx.trans (within_eq (decide_eq_true hn) rfl)

section
variable (hroute : s.merRoute n = none)
include hroute

/-- Without a route the path is lost, to the lead or to a device. -/
theorem tetherPathLost_turn : exec (.tetherPathLost n now) s = done s (
    if s.cluster.tethered then
      (if s.cluster.lead = some n then (s.at_ now).event 262 0x31 0 else s.at_ now)
    else match s.tetherOf n with
    | some d => (s.at_ now).setOnline d false
    | none => s.at_ now) := by
  have hlost : (s.at_ now).pathLost n = true := by
    unfold State.pathLost
    rw [show (s.at_ now).merRoute n = none from hroute]
    exact Bool.or_true _
  have hx : exec (.tetherPathLost n now) s = execTetherPathLost n now s := rfl
  unfold execTetherPathLost at hx
  dsimp only at hx
  rw [hlost, if_neg (by simp), show (s.at_ now).merRoute n = none from hroute, within_ok (decide_eq_true hn)] at hx
  exact hx

theorem completes_tetherPathLost_lead (htethered : s.cluster.tethered = true) (hlead : s.cluster.lead = some n) :
    Completes (.tetherPathLost n now) s fun t =>
      t.faults.safe.on = true ∧ (t.src 262).total = satAdd 32 (s.src 262).total 1 := by
  have hx := tetherPathLost_turn (now := now) hn hroute
  rw [if_pos htethered, if_pos hlead] at hx
  exact ⟨_, hx.trans (done_event rfl _ _ _ _), (State.handle_b (by rfl) (by rfl)).1, State.event_total _ _ _ _ _⟩

theorem completes_tetherPathLost_device {d : Nat} (htethered : s.cluster.tethered = false) (hd : s.tetherOf n = some d) :
    Completes (.tetherPathLost n now) s fun t => (t.tether d).online = false := by
  have hx := tetherPathLost_turn (now := now) hn hroute
  rw [if_neg (Bool.eq_false_iff.1 htethered), hd] at hx
  obtain ⟨honline, hpend⟩ := (s.at_ now).setOnline_spec d false
  exact .of_done hx hpend honline

end

end

end Sys2Proof.Machine

open Sys2Proof.Machine

/-- Settles O52. -/
theorem tetheredDevicesUseTheirLeadsHost : Obligations.TetheredDevicesUseTheirLeadsHost := by
  unfold Obligations.TetheredDevicesUseTheirLeadsHost
  intro s now u
  refine ⟨?_, fun m v d hm hd hsafe hlen hmax => ⟨completes_tetherWr_data hm hd hsafe hlen hmax, exec_tetherWr_vector hm hd hsafe hlen hmax⟩,
    fun m v r hm hr => ⟨completes_tetherCpl_data hm hr, completes_tetherCpl_fault hm hr⟩,
    fun m v hm ht hsafe hlen hfresh => ⟨completes_tetherReg_share hm ht hsafe hlen hfresh, completes_tetherReg_read hm ht hsafe hlen hfresh⟩,
    fun m v r hm hr => ⟨completes_tetherRegCpl_value hm hr, fun d => completes_tetherRegCpl_share hm hr⟩,
    fun n hn => ⟨fun hreqs k => exec_tetherPathLost_carried hn hreqs, completes_tetherPathLost_lead hn,
      fun d hroute => completes_tetherPathLost_device hn hroute⟩⟩
  exact fun m v d hm hd hsafe hlen hfresh hpos hmax => ⟨exec_tetherRd_data hm hd hsafe hlen hfresh hpos hmax,
    fun k => exec_tetherRd_fault hm hd hsafe hlen hfresh hpos hmax⟩
end

section
/-! PROOF. The firmware commands: staging, activation, confirmation and the thermometer, and the obligation on them
(20_boot_landfall.md R455-R462). -/

namespace Sys2Proof.Machine

/-! ### The boot directory (R454) -/

theorem bitOf_eq_testBit (x i : Nat) : bitOf x i = x.testBit i := by
  rw [bitOf, Nat.testBit_eq_decide_div_mod_eq, Nat.shiftRight_eq_div_pow, Bool.beq_eq_decide_eq]

theorem Flash.dir_of_useA {F : Flash} (h : F.useA = true) : F.dir = F.dirSeqA.getD (0, 0, 0) := by rw [Flash.dir, if_pos h]

theorem Flash.dir_of_not_useA {F : Flash} (h : F.useA = false) : F.dir = F.dirSeqB.getD (0, 0, 0) := by
  rw [Flash.dir, if_neg (Bool.eq_false_iff.1 h)]

/-- The copy just written is the newer one, and the one in force. -/
theorem Flash.writeDir_dir (F : Flash) (active tryBit : Nat) : (F.writeDir active tryBit).dir = (F.dir.1 + 1, active, tryBit) := by
  unfold Flash.writeDir
  dsimp only
  cases huse : F.useA with
  | true =>
    obtain ⟨a, ha⟩ : ∃ a, F.dirSeqA = some a := Option.ne_none_iff_exists'.1 fun ha => by simp [Flash.useA, ha] at huse
    have hdir : F.dir = a := by rw [Flash.dir_of_useA huse, ha, Option.getD_some]
    have hnew : ({ F with dirSeqB := some (F.dir.1 + 1, active, tryBit) } : Flash).useA = false := by simp [Flash.useA, ha, hdir]
    rw [if_pos rfl, Flash.dir_of_not_useA hnew]
    rfl
  | false =>
    have hnew : ({ F with dirSeqA := some (F.dir.1 + 1, active, tryBit) } : Flash).useA = true := by
      have hdir := Flash.dir_of_not_useA huse
      unfold Flash.useA
      dsimp only
      split
      · next a b ha hb =>
        rw [hb, Option.getD_some] at hdir
        rw [← Option.some.inj ha, hdir]
        exact decide_eq_true (Nat.le_succ _)
      · rfl
      · next ha => exact absurd ha (Option.some_ne_none _)
    rw [if_neg Bool.false_ne_true, Flash.dir_of_useA hnew]
    rfl

theorem Flash.writeDir_slots (F : Flash) (active tryBit : Nat) : (F.writeDir active tryBit).slotA = F.slotA ∧
    (F.writeDir active tryBit).slotB = F.slotB ∧ (F.writeDir active tryBit).chartArea = F.chartArea ∧
    (F.writeDir active tryBit).ownerArea = F.ownerArea := by
  unfold Flash.writeDir
  dsimp only
  split <;> exact ⟨rfl, rfl, rfl, rfl⟩

theorem Flash.writeDir_active (F : Flash) (active tryBit : Nat) : (F.writeDir active tryBit).active = active :=
  (congrArg (fun d => d.2.1) (F.writeDir_dir active tryBit) :)

theorem Flash.writeDir_try (F : Flash) (active tryBit : Nat) : (F.writeDir active tryBit).try_ = tryBit :=
  (congrArg (fun d => d.2.2) (F.writeDir_dir active tryBit) :)

theorem Flash.writeDir_slot (F : Flash) (active tryBit k : Nat) : (F.writeDir active tryBit).slot k = F.slot k := by
  obtain ⟨ha, hb, -, -⟩ := F.writeDir_slots active tryBit
  rw [Flash.slot, ha, hb, ← Flash.slot]

theorem Flash.putSlot_slot (F : Flash) {k : Nat} (hk : k ≤ 1) (b : Bytes) :
    (F.putSlot k b).slot k = b ∧ (F.putSlot k b).slot (1 - k) = F.slot (1 - k) := by
  have h01 : k = 0 ∨ k = 1 := by omega
  rcases h01 with rfl | rfl <;> exact ⟨rfl, rfl⟩

theorem Flash.putSlot_kept (F : Flash) (k : Nat) (b : Bytes) : (F.putSlot k b).active = F.active ∧ (F.putSlot k b).chartArea = F.chartArea ∧
    (F.putSlot k b).ownerArea = F.ownerArea := by
  unfold Flash.putSlot
  split <;> exact ⟨rfl, rfl, rfl⟩

/-! ### The checks of a bundle, in order (R456, R462) -/

theorem firstFail_cons_true (r : Nat) {ok : Bool} (h : ok = true) (l : List (Nat × Bool)) : firstFail ((r, ok) :: l) = firstFail l := by
  rw [firstFail, if_pos h]

theorem firstFail_cons_false (r : Nat) {ok : Bool} (h : ok = false) (l : List (Nat × Bool)) : firstFail ((r, ok) :: l) = some r := by
  rw [firstFail, if_neg (Bool.eq_false_iff.1 h)]

/-- One of the checks fails. -/
theorem firstFail_ne_none {l : List (Nat × Bool)} {r : Nat} (h : (r, false) ∈ l) : firstFail l ≠ none := by
  induction l with
  | nil => exact absurd h List.not_mem_nil
  | cons x l ih =>
    obtain ⟨r', ok⟩ := x
    rcases List.mem_cons.1 h with heq | h
    · rw [firstFail, ← (Prod.mk.inj heq).2, if_neg Bool.false_ne_true]
      exact Option.some_ne_none _
    · rw [firstFail]
      split
      · exact ih h
      · exact Option.some_ne_none _

section
variable {s : State} {b : Bytes} {r : Nat}

theorem State.stageRefused_of_bundle (h : s.bundleRefused b = some r) : s.stageRefused b = some r := by
  rw [State.stageRefused, h]
  rfl

/-- A slot whose version lies below the thermometer is not valid. -/
theorem State.slotValid_of_low {k : Nat} (h : leAt (s.flash.slot k) 6 1 < s.lc.thermometer) : s.slotValid k = false := by
  have hlow : decide (s.lc.thermometer ≤ leAt (s.flash.slot k) 6 1) = false := decide_eq_false (Nat.not_le.2 h)
  refine Option.isNone_eq_false_iff.2 (Option.isSome_iff_ne_none.2 (firstFail_ne_none (r := 3) ?_))
  rw [hlow]
  exact .tail _ (.tail _ (.tail _ (.tail _ (.head _))))

theorem State.stageRefused_format (h : bundleFormat b = false) : s.stageRefused b = some 1 :=
  State.stageRefused_of_bundle (firstFail_cons_false _ h _)

section
variable (hform : bundleFormat b = true)
include hform

theorem State.stageRefused_keys (h : s.keysKnown (bundleKeys b) = false) : s.stageRefused b = some 2 :=
  State.stageRefused_of_bundle ((firstFail_cons_true _ hform _).trans (firstFail_cons_false _ h _))

variable (hkeys : s.keysKnown (bundleKeys b) = true)
  (hsig : vendorSignatures (bundleKeys b) (ascii "psibuaz-fw") (b.take (bundleSigAt b)) (b.drop (bundleSigAt b)) = true)
include hkeys hsig

/-- A bundle whose format, keys and signatures pass is refused by the checks that follow. -/
theorem State.bundleRefused_signed : s.bundleRefused b = firstFail [(4, (leAt b 24 1).testBit (variantBit s.variant)),
    (3, decide (s.lc.thermometer ≤ leAt b 6 1)), (5, (componentOf b 2).digestOk b)] := by
  rw [State.bundleRefused, firstFail_cons_true _ hform, firstFail_cons_true _ hkeys, firstFail_cons_true _ hsig, bitOf_eq_testBit]

theorem State.stageRefused_variant (h : (leAt b 24 1).testBit (variantBit s.variant) = false) : s.stageRefused b = some 4 :=
  State.stageRefused_of_bundle ((State.bundleRefused_signed hform hkeys hsig).trans (firstFail_cons_false _ h _))

variable (hvar : (leAt b 24 1).testBit (variantBit s.variant) = true)
include hvar

theorem State.stageRefused_version (h : leAt b 6 1 < s.lc.thermometer) : s.stageRefused b = some 3 :=
  State.stageRefused_of_bundle ((State.bundleRefused_signed hform hkeys hsig).trans
    ((firstFail_cons_true _ hvar _).trans (firstFail_cons_false _ (decide_eq_false (Nat.not_le.2 h)) _)))

theorem State.stageRefused_digest (hver : s.lc.thermometer ≤ leAt b 6 1)
    (h : ∃ c ∈ components b, sha384 (sliceOf b c.off c.len) ≠ c.digest) : s.stageRefused b = some 5 := by
  have hsigned := State.bundleRefused_signed hform hkeys hsig
  rw [firstFail_cons_true _ hvar, firstFail_cons_true _ (decide_eq_true hver)] at hsigned
  cases hrun : (componentOf b 2).digestOk b with
  | false => exact State.stageRefused_of_bundle (hsigned.trans (firstFail_cons_false _ hrun _))
  | true =>
    have hall : ((components b).all fun c => c.digestOk b) = false := by
      obtain ⟨c, hc, hbad⟩ := h
      exact List.all_eq_false.2 ⟨c, hc, Bool.eq_false_iff.1 (beq_eq_false_iff_ne.2 hbad)⟩
    rw [State.stageRefused, hsigned, firstFail_cons_true _ hrun]
    exact firstFail_cons_false _ hall _

end

end

/-! ### STAGE (R460) -/

/-- A firmware command is under way, a transition, or a chart operation. -/
theorem State.fwBusyNow_iff (s : State) : s.fwBusyNow = true ↔ s.boot.fwBusy = true ∨ s.lc.busy = true ∨ s.chart.op.isSome = true := by
  rw [State.fwBusyNow, Bool.or_eq_true, Bool.or_eq_true, or_assoc]

theorem State.fwBusyNow_free {s : State} (hfw : s.boot.fwBusy = false) (hlc : s.lc.busy = false) (hop : s.chart.op = none) :
    s.fwBusyNow = false := by
  rw [State.fwBusyNow, hfw, hlc, hop]
  rfl

section
variable {s : State} {r : Nat}

/-- A bundle that is refused leaves TRY clear. -/
theorem State.stageBundle_refused {b : Bytes} (slot : Nat) (hr : s.stageRefused b = some r) : ∃ p, s.stageBundle b slot = { s with
    progress := p, flash := if s.flash.try_ = 0 then s.flash else s.flash.writeDir s.flash.active 0,
    boot := { s.boot with fwReason := r, fwBusy := false } } := by
  unfold State.stageBundle
  dsimp only
  rw [hr]
  dsimp only
  split
  · obtain ⟨p, hp⟩ := State.opEnd_eq (s.opStart 0x0020 0 (1 + sectors b.length)) 0x0020 0
    rw [hp]
    exact ⟨p, rfl⟩
  · obtain ⟨p, hp⟩ := State.opEnd_eq { s.opStart 0x0020 0 (1 + sectors b.length) with
      flash := (s.opStart 0x0020 0 (1 + sectors b.length)).flash.writeDir (s.opStart 0x0020 0 (1 + sectors b.length)).flash.active 0 } 0x0020 0
    rw [hp]
    exact ⟨p, rfl⟩

/-- A bundle that passes is written to its slot, with TRY set. -/
theorem State.stageBundle_staged {b : Bytes} (slot : Nat) (hr : s.stageRefused b = none) : ∃ p, s.stageBundle b slot = { s with
    progress := p, flash := (s.flash.putSlot slot b).writeDir s.flash.active 1, boot := { s.boot with fwReason := 0, fwBusy := false } } := by
  unfold State.stageBundle
  dsimp only
  rw [hr]
  dsimp only
  obtain ⟨p, hp⟩ := State.opStep_eq { s.opStart 0x0020 0 (1 + sectors b.length) with
    flash := ((s.opStart 0x0020 0 (1 + sectors b.length)).flash.putSlot slot b).writeDir
      (s.opStart 0x0020 0 (1 + sectors b.length)).flash.active 1 } 0x0020 0 (1 + sectors b.length)
  rw [hp]
  obtain ⟨q, hq⟩ := State.opEnd_eq { s.opStart 0x0020 0 (1 + sectors b.length) with
    flash := ((s.opStart 0x0020 0 (1 + sectors b.length)).flash.putSlot slot b).writeDir
      (s.opStart 0x0020 0 (1 + sectors b.length)).flash.active 1, progress := p } 0x0020 0
  rw [hq]
  exact ⟨q, rfl⟩

end

/-- A bundle too long, or at an address out of line, does not have the layout of one. -/
theorem fwSource_unread {s : State} {now : Nat} (h : 25165824 < s.reg 0xE1020 ∨ s.reg 0xE1018 % 8 ≠ 0) :
    bundleFormat (s.at_ now).fwSource = false := by
  have hcond : 25165824 < (s.at_ now).reg 0xE1020 ∨ ((s.at_ now).readFault ((s.at_ now).reg 0xE1018) ((s.at_ now).reg 0xE1020)).isSome ∨
      (s.at_ now).reg 0xE1018 % 8 ≠ 0 := h.imp_right Or.inr
  rw [State.fwSource, if_pos hcond]
  decide

theorem State.idleSlot_le (s : State) : s.idleSlot ≤ 1 := Nat.sub_le 1 _

section
variable {s : State} {now : Nat} (hon : BootOn s)
include hon

theorem exec_stage : exec (.stage now) s = done s (s.at_ now).stage := by
  have hx : exec (.stage now) s = execStage now s := rfl
  rw [hx, execStage, managedBoot_on (s := s.at_ now) hon.1 hon.2]

theorem exec_activate : exec .activate s = done s s.activate := by
  have hx : exec .activate s = execActivate s := rfl
  rw [hx, execActivate, managedBoot_on hon.1 hon.2]

theorem exec_confirm : exec .confirm s = done s s.confirm := by
  have hx : exec .confirm s = execConfirm s := rfl
  rw [hx, execConfirm, managedBoot_on hon.1 hon.2]

theorem exec_commitSvn : exec .commitSvn s = done s s.commitSvn := by
  have hx : exec .commitSvn s = execCommitSvn s := rfl
  rw [hx, execCommitSvn, managedBoot_on hon.1 hon.2]

/-! #### Busy (R459) -/

section
variable (hbusy : s.boot.fwBusy = true ∨ s.lc.busy = true ∨ s.chart.op.isSome = true)
include hbusy

theorem exec_stage_busy : exec (.stage now) s = .next { s.at_ now with boot := { s.boot with fwBusy := false, fwReason := 6 } } := by
  rw [exec_stage hon, State.stage, if_pos (show (s.at_ now).fwBusyNow = true from s.fwBusyNow_iff.2 hbusy)]
  exact done_eq rfl

theorem exec_fwCommand_busy : ∀ c ∈ [Instr.activate, .confirm, .commitSvn],
    exec c s = .next { s with boot := { s.boot with fwBusy := false, fwReason := 6 } } := by
  have hnow := s.fwBusyNow_iff.2 hbusy
  intro c hc
  simp only [List.mem_cons, List.not_mem_nil, or_false] at hc
  rcases hc with rfl | rfl | rfl
  · rw [exec_activate hon, State.activate, if_pos hnow]
    exact done_eq rfl
  · rw [exec_confirm hon, State.confirm, if_pos hnow]
    exact done_eq rfl
  · rw [exec_commitSvn hon, State.commitSvn, if_pos hnow]
    exact done_eq rfl

end

section
variable (hfree : s.fwBusyNow = false)
include hfree

theorem completes_stage_refused {r : Nat} (hr : (s.at_ now).stageRefused (s.at_ now).fwSource = some r) :
    Completes (.stage now) s fun t =>
      t.boot = { s.boot with fwReason := r, fwBusy := false } ∧ t.flash.try_ = 0 ∧ t.flash.active = s.flash.active ∧
      t.flash.slotA = s.flash.slotA ∧ t.flash.slotB = s.flash.slotB ∧
      t = { s.at_ now with boot := t.boot, flash := t.flash, progress := t.progress } := by
  have hx := exec_stage hon (now := now)
  rw [State.stage, if_neg (Bool.eq_false_iff.1 (show (s.at_ now).fwBusyNow = false from hfree))] at hx
  obtain ⟨p, hp⟩ := State.stageBundle_refused (s.at_ now).idleSlot hr
  rw [hp, show (s.at_ now).flash = s.flash from rfl] at hx
  refine .of_done hx rfl ⟨rfl, ?_⟩
  dsimp only
  split
  · next htry => exact ⟨htry, rfl, rfl, rfl, rfl⟩
  · obtain ⟨ha, hb, -, -⟩ := s.flash.writeDir_slots s.flash.active 0
    exact ⟨Flash.writeDir_try _ _ _, Flash.writeDir_active _ _ _, ha, hb, rfl⟩

theorem completes_stage (hr : (s.at_ now).stageRefused (s.at_ now).fwSource = none) : let k := s.idleSlot
    Completes (.stage now) s fun t =>
      t.boot = { s.boot with fwReason := 0, fwBusy := false } ∧ t.flash.try_ = 1 ∧ t.flash.active = s.flash.active ∧
      t.flash.slot k = (s.at_ now).fwSource ∧ t.flash.slot (1 - k) = s.flash.slot (1 - k) ∧ t.flash.chartArea = s.flash.chartArea ∧
      t.flash.ownerArea = s.flash.ownerArea ∧ t = { s.at_ now with boot := t.boot, flash := t.flash, progress := t.progress } := by
  intro k
  have hx := exec_stage hon (now := now)
  rw [State.stage, if_neg (Bool.eq_false_iff.1 (show (s.at_ now).fwBusyNow = false from hfree))] at hx
  obtain ⟨p, hp⟩ := State.stageBundle_staged (s.at_ now).idleSlot hr
  rw [hp, show (s.at_ now).flash = s.flash from rfl, show (s.at_ now).idleSlot = k from rfl] at hx
  obtain ⟨hactive, hchart, howner⟩ := s.flash.putSlot_kept k (s.at_ now).fwSource
  obtain ⟨hself, hother⟩ := s.flash.putSlot_slot s.idleSlot_le (s.at_ now).fwSource
  obtain ⟨-, -, hchart', howner'⟩ := (s.flash.putSlot k (s.at_ now).fwSource).writeDir_slots s.flash.active 1
  exact .of_done hx rfl ⟨rfl, Flash.writeDir_try _ _ _, Flash.writeDir_active _ _ _, (Flash.writeDir_slot _ _ _ _).trans hself,
    (Flash.writeDir_slot _ _ _ _).trans hother, hchart'.trans hchart, howner'.trans howner, rfl⟩

/-! ### ACTIVATE, CONFIRM, COMMIT_SVN (R461, R462) -/

theorem completes_activate (htry : s.flash.try_ = 1) : Completes .activate s fun t => Restarted s t ∧ LogKept s t := by
  have hx := exec_activate hon
  rw [State.activate, if_neg (Bool.eq_false_iff.1 hfree), if_pos htry] at hx
  exact .of_done hx rfl ⟨s.deviceReset_restarted, s.deviceReset_logKept⟩

theorem exec_activate_noTry (htry : s.flash.try_ ≠ 1) :
    exec .activate s = .next { s with boot := { s.boot with fwReason := 8, fwBusy := false } } := by
  rw [exec_activate hon, State.activate, if_neg (Bool.eq_false_iff.1 hfree), if_neg htry]
  exact done_eq rfl

theorem exec_confirm_elsewhere (h : s.boot.bundle = none ∨ s.boot.tryBoot = false ∨ s.boot.ready = false) :
    exec .confirm s = .next { s with boot := { s.boot with fwReason := 8, fwBusy := false } } := by
  have hx := exec_confirm hon
  rw [State.confirm, if_neg (Bool.eq_false_iff.1 hfree)] at hx
  cases hB : s.boot.bundle with
  | none =>
    rw [hB] at hx
    exact hx.trans (done_eq rfl)
  | some B =>
    rw [hB] at hx
    dsimp only at hx
    rw [if_pos ((h.resolve_left (by simp [hB])).imp Bool.eq_false_iff.1 Bool.eq_false_iff.1)] at hx
    exact hx.trans (done_eq rfl)

section
variable {B : Bundle} (hB : s.boot.bundle = some B)
include hB

section
variable (htry : s.boot.tryBoot = true) (hready : s.boot.ready = true)
include htry hready

theorem confirm_tryBoot : exec .confirm s = done s (
    if s.patchRoom (s.flash.slot B.slot) = false then s.fwEnds 9
    else
      let u := ({ s with boot := { s.boot with confirmRec := some B.slot } } : State).finishConfirm B.slot
      { u with boot := { u.boot with confirmed := true } }.fwEnds 0) := by
  have hx := exec_confirm hon
  rw [State.confirm, if_neg (Bool.eq_false_iff.1 hfree), hB] at hx
  dsimp only at hx
  rw [if_neg (fun h => h.elim (fun h' => h' htry) fun h' => h' hready)] at hx
  cases hroom : s.patchRoom (s.flash.slot B.slot) with
  | false =>
    rw [hroom, if_pos (by simp)] at hx
    exact hx
  | true =>
    rw [hroom, if_neg (by simp)] at hx
    exact hx

theorem exec_confirm_noRoom (hroom : s.patchRoom (s.flash.slot B.slot) = false) :
    exec .confirm s = .next { s with boot := { s.boot with fwReason := 9, fwBusy := false } } := by
  rw [confirm_tryBoot hon hfree hB htry hready, if_pos hroom]
  exact done_eq rfl

end

end

end

end

/-- The patch images `ps` of a bundle with vendor keys `keys`, installed in order, each with its record. -/
def State.installed (s : State) (keys : Bytes) (ps : List Bytes) : State :=
  ps.foldl (fun (t : State) p =>
    let c := t.chart.installImage keys p
    let u : State := { t with chart := c }
    if c = t.chart then t else u.stageEvent (Config.primNat (.image 10) [[5#8]]) (leAt p 0x0C 4) p) s

theorem State.installed_spec (keys : Bytes) (ps : List Bytes) (s : State) :
    Reports { s with chart := ps.foldl (fun c p => c.installImage keys p) s.chart } (s.installed keys ps) := by
  induction ps generalizing s with
  | nil => rfl
  | cons p ps ih =>
    have hone : ∃ t, s.installed keys (p :: ps) = t.installed keys ps ∧ Reports { s with chart := s.chart.installImage keys p } t := by
      refine ⟨_, rfl, ?_⟩
      dsimp only
      split
      · next hsame => rw [hsame]; rfl
      · exact State.logEvent_reports _ _ _ _
    obtain ⟨t, ht, hrep⟩ := hone
    have hchart : t.chart = s.chart.installImage keys p := (congrArg State.chart hrep.eq :)
    have hrest : Reports { s with chart := (p :: ps).foldl (fun c p => c.installImage keys p) s.chart }
        { t with chart := ps.foldl (fun c p => c.installImage keys p) t.chart } := by
      have heq := congrArg (fun u : State => { u with chart := ps.foldl (fun c p => c.installImage keys p) t.chart }) hrep.eq
      rw [hchart] at heq ⊢
      exact heq
    rw [ht]
    exact hrest.trans (ih t)

/-- The images of a bundle are installed; what else changes reports it. -/
theorem State.installPatches_reports (s : State) (b : Bytes) : Reports { s with chart := s.chart.installAll b } (s.installPatches b) :=
  State.installed_spec (bundleKeys b) (bundlePatches b) s

section
variable {s : State} (hon : BootOn s) (hfree : s.fwBusyNow = false) {B : Bundle} (hB : s.boot.bundle = some B)
include hon hfree hB

theorem completes_confirm (htry : s.boot.tryBoot = true) (hready : s.boot.ready = true)
    (hroom : s.patchRoom (s.flash.slot B.slot) = true) : Completes .confirm s fun t =>
      t.boot = { s.boot with confirmed := true, confirmRec := none, fwReason := 0, fwBusy := false } ∧
      t.flash.active = B.slot ∧ t.flash.try_ = 0 ∧ t.flash.slotA = s.flash.slotA ∧ t.flash.slotB = s.flash.slotB ∧
      t.chart = s.chart.installAll (s.flash.slot B.slot) ∧ (∀ e ∈ t.chart.mcode, e.1 < 32) ∧ t.lc = s.lc ∧ t.keys = s.keys := by
  have hx := confirm_tryBoot hon hfree hB htry hready
  rw [hroom, if_neg (by simp), State.finishConfirm] at hx
  dsimp only at hx
  have hrep := State.installPatches_reports { s with boot := { s.boot with confirmRec := some B.slot } } (s.flash.slot B.slot)
  generalize State.installPatches { s with boot := { s.boot with confirmRec := some B.slot } } (s.flash.slot B.slot) = t at hx hrep
  have hboot : t.boot = { s.boot with confirmRec := some B.slot } := (congrArg State.boot hrep.eq :)
  have hflash : t.flash = s.flash := (congrArg State.flash hrep.eq :)
  have hchart : t.chart = s.chart.installAll (s.flash.slot B.slot) := (congrArg State.chart hrep.eq :)
  obtain ⟨ha, hb, -, -⟩ := t.flash.writeDir_slots B.slot 0
  refine .of_done hx hrep.pending ⟨?_, Flash.writeDir_active _ _ _, Flash.writeDir_try _ _ _, ?_, ?_, hchart, fun e he => ?_,
    (congrArg State.lc hrep.eq :), hrep.keys⟩
  · rw [hboot]
    rfl
  · rw [← hflash]
    exact ha
  · rw [← hflash]
    exact hb
  · rw [State.fwEnds] at he
    dsimp only at he
    rw [hchart] at he
    exact of_decide_eq_true (List.all_eq_true.1 hroom e he)

end

section
variable {s : State} (hon : BootOn s) (hfree : s.fwBusyNow = false)
include hon hfree

theorem exec_commitSvn_elsewhere (h : s.boot.bundle = none ∨ (s.boot.tryBoot = true ∧ s.boot.confirmed = false) ∨
    s.svn ≤ s.lc.thermometer) : exec .commitSvn s = .next { s with boot := { s.boot with fwReason := 8, fwBusy := false } } := by
  have hcond : s.boot.bundle.isNone = true ∨ (s.boot.tryBoot = true ∧ ¬ s.boot.confirmed = true) ∨ s.svn ≤ s.lc.thermometer :=
    h.imp Option.isNone_iff_eq_none.2 (Or.imp_left (And.imp_right Bool.eq_false_iff.1))
  rw [exec_commitSvn hon, State.commitSvn, if_neg (Bool.eq_false_iff.1 hfree), if_pos hcond]
  exact done_eq rfl

theorem completes_commitSvn {B : Bundle} (hB : s.boot.bundle = some B) (hboot : s.boot.tryBoot = false ∨ s.boot.confirmed = true)
    (hver : s.lc.thermometer < B.svn) : Completes .commitSvn s fun t =>
      t.lc = { s.lc with thermometer := B.svn } ∧ t.boot = { s.boot with fwReason := 0, fwBusy := false } ∧
      t = { s with lc := t.lc, boot := t.boot, progress := t.progress } ∧
      ∀ i, leAt (s.flash.slot i) 6 1 < B.svn → t.slotValid i = false := by
  have hsvn : s.svn = B.svn := by rw [State.svn, hB]; rfl
  have hcond : ¬ (s.boot.bundle.isNone = true ∨ (s.boot.tryBoot = true ∧ ¬ s.boot.confirmed = true) ∨ s.svn ≤ s.lc.thermometer) := by
    rintro (h | ⟨htry, hconf⟩ | h)
    · exact absurd h (by simp [hB])
    · exact hboot.elim (fun h => Bool.eq_false_iff.1 h htry) hconf
    · exact Nat.not_le.2 hver (hsvn ▸ h)
  have hx := exec_commitSvn hon
  rw [State.commitSvn, if_neg (Bool.eq_false_iff.1 hfree), if_neg hcond, hsvn] at hx
  dsimp only at hx
  obtain ⟨p, hp⟩ := State.opStep_eq (s.opStart 0x0021 0 (B.svn - s.lc.thermometer)) 0x0021 0 (B.svn - s.lc.thermometer)
  rw [hp] at hx
  obtain ⟨q, hq⟩ := State.opEnd_eq { s.opStart 0x0021 0 (B.svn - s.lc.thermometer) with
    progress := p, lc := { s.lc with thermometer := B.svn } } 0x0021 0
  have ht : exec .commitSvn s = done s ((({ s with progress := q, lc := { s.lc with thermometer := B.svn } } : State)).fwEnds 0) :=
    hx.trans (congrArg (fun u : State => done s (u.fwEnds 0)) hq)
  refine .of_done ht rfl ⟨rfl, rfl, rfl, fun i hi => ?_⟩
  exact State.slotValid_of_low hi

end

end Sys2Proof.Machine

open Sys2Proof.Machine

/-- Settles O55. -/
theorem firmwareUpdatesKeepTheOtherSlot : Obligations.FirmwareUpdatesKeepTheOtherSlot := by
  unfold Obligations.FirmwareUpdatesKeepTheOtherSlot
  intro s now hon u b k
  refine ⟨fun hbusy => ⟨exec_stage_busy hon hbusy, exec_fwCommand_busy hon hbusy⟩, fun hfw hlc hop => ?_⟩
  have hfree := State.fwBusyNow_free hfw hlc hop
  refine ⟨fun r => completes_stage_refused hon hfree, completes_stage hon hfree, fun h => State.stageRefused_format (fwSource_unread h),
    fun hform => ⟨State.stageRefused_keys hform, fun hkeys hsig => ⟨State.stageRefused_variant hform hkeys hsig, fun hvar =>
      ⟨State.stageRefused_version hform hkeys hsig hvar, State.stageRefused_digest hform hkeys hsig hvar⟩⟩⟩,
    completes_activate hon hfree, exec_activate_noTry hon hfree, exec_confirm_elsewhere hon hfree,
    fun B hB htry hready => ⟨exec_confirm_noRoom hon hfree hB htry hready, completes_confirm hon hfree hB htry hready⟩,
    exec_commitSvn_elsewhere hon hfree, fun B => completes_commitSvn hon hfree⟩
end

section
/-! PROOF. The self-tests of a device whose clocks are gated, and the obligation on the recovery protocol (20_boot_landfall.md R463,
R465, R466; 23_electrical_package.md R509). -/

namespace Sys2Proof.Machine

/-- A device in Landfall mode whose clocks are gated since it was above 125 degrees. -/
def gatedLanded : State :=
  { State.reset with
    boot := { State.reset.boot with landfall := true }
    pins := { State.reset.pins with gated := true } }

/-- Where the tests do not pass, the device shows reason 6. -/
theorem State.testAgain_reason {s : State} {r : TestResults} (h : s.testsPass r = false) : (s.testAgain r).boot.reason = 6 := by
  rw [State.testAgain, if_neg (Bool.eq_false_iff.1 h)]

/-- With gated clocks no Helm core passes its test, whatever the tests found. -/
theorem State.testsPass_gated {s : State} (hgated : s.pins.gated = true) (r : TestResults) : s.testsPass r = false := by
  have hnone : (s.firmwareCores.filter fun c => !(List.range 8).contains c) = [] := by
    refine List.filter_eq_nil_iff.2 fun c hc => ?_
    have hlt : c < 8 := List.mem_range.1 (List.mem_of_mem_filter (List.mem_of_mem_filter hc))
    simpa using hlt
  rw [State.testsPass, State.seen, if_pos hgated]
  dsimp only
  rw [hnone]
  exact Bool.and_false _

/-- The self-test that the UART starts on a device with gated clocks shows reason 6. -/
theorem uartSelftest_gated {s : State} (hon : s.uartOn = true) (hgated : s.pins.gated = true) (r : TestResults) :
    Completes (.uartSelftest r) s fun t => t.boot.reason = 6 := by
  have hx : exec (.uartSelftest r) s = execUartSelftest r s := rfl
  rw [execUartSelftest, if_pos hon] at hx
  exact ⟨_, hx, State.testAgain_reason (State.testsPass_gated hgated r)⟩

end Sys2Proof.Machine

open Sys2Proof.Machine

/-- Refutes O56: on a device in Landfall mode whose clocks are gated (`gatedLanded`), four firmware cores are in service but none
passes its self-test, so UART_SELFTEST with clean results sets BOOT.STATUS's reason to 6 and does not leave the state as it is. -/
theorem not_recoveryProtocolAndUartInLandfallMode : ¬ Obligations.RecoveryProtocolAndUartInLandfallMode := by
  unfold Obligations.RecoveryProtocolAndUartInLandfallMode
  rintro ⟨-, huart, -⟩
  obtain ⟨-, hlandfall⟩ := huart gatedLanded false ⟨true, true, [], [], []⟩ []
  obtain ⟨-, hserved⟩ := hlandfall rfl
  obtain ⟨-, hselftest, -⟩ := hserved (by decide)
  obtain ⟨t, ht, hkept⟩ := hselftest (by decide)
  obtain ⟨u, hu, hreason⟩ := uartSelftest_gated (s := gatedLanded) rfl rfl ⟨true, true, [], [], []⟩
  have hsame : u = t := Host.Outcome.next.inj (hu.symm.trans ht)
  rw [hsame, hkept] at hreason
  exact absurd (show (0 : Nat) = 6 from hreason) (by decide)
end
